-- ==== Sys2Proof/Word.lean ====
section
/-! DEFINITION. The word types of the EH5120: a register is 32 bits wide and is addressed by a 16-bit
word address (spec 00_scope.md, section Registers); bit 0 is the least significant bit (R4). -/

namespace Sys2Proof

/-- A register word (00_scope.md, section Registers). -/
abbrev Word := BitVec 32

/-- A byte of a byte-addressed format (R5). -/
abbrev Byte := BitVec 8

/-- The 16-bit word address of a register. -/
abbrev Addr := BitVec 16

end Sys2Proof
end

