-- ==== Sys2Proof/Syntax.lean ====
section
/-! DEFINITION. The commands of the EH5120: one constructor of `Instr` per row of spec/opcode_table.json,
with the operands that the rule of the row gives it. The operand types stand before it. -/

namespace Sys2Proof

/-- The three access ports (R348): SPI is port 0, two-wire port 1, debug port 2. -/
inductive Port where
  | spi
  | twoWire
  | debug
deriving DecidableEq, Repr, Inhabited

/-- Who makes a register access: a port, with the level of its session, or the supervisor (R25, R320). -/
inductive Src where
  | port (p : Port)
  | sup
deriving DecidableEq, Repr, Inhabited

/-- The two CAN FD buses (R255). -/
inductive Bus where
  | a
  | b
deriving DecidableEq, Repr, Inhabited

/-- The RAMs in which an error is told apart (R179, Table 2-3): LE, TBI, PLI and HS, or another one. -/
inductive RamBlock where
  | le
  | tbi
  | pli
  | hs
  | other
deriving DecidableEq, Repr, Inhabited

/-- One loop of the loop engine (R156): the outer loop of a rail or the inner loop of a phase. -/
inductive LoopRef where
  | outer (rail : Fin 64)
  | inner (slot : Fin 512)
deriving DecidableEq, Repr, Inhabited

/-- One segment of a motion profile as a frame carries it (Table 10-5): DUR in ms, POWER in 10 W, ACC in signed 10 mA. -/
structure ProfileSeg where
  dur : BitVec 16
  power : BitVec 16
  acc : BitVec 16
deriving DecidableEq, Repr, Inhabited

/-- The identity of a stage module: registers 0x00 to 0x08 of Table 4-9. -/
structure ModIdent where
  vendor : BitVec 16
  product : BitVec 16
  serial : BitVec 64
  proto : BitVec 16
  slots : BitVec 8
  turn : BitVec 16
deriving DecidableEq, Repr, Inhabited

/-- A loss of lock on a lane's upstream pair, with the code violations and disparity errors that declare it (R109, R134). -/
structure LossOfLock where
  lane : Fin 64
  symbolErrors : BitVec 8
deriving DecidableEq, Repr, Inhabited

/-- A write transaction to the two-wire target: the bytes after the address byte, and whether it ends with STOP or with a repeated
START (R332). -/
structure TargetWrite where
  bytes : List Byte
  stop : Bool
deriving DecidableEq, Repr, Inhabited

/-- The pointer that a read transaction carries, and data bytes between it and the repeated START (R332, R333). -/
structure TargetPointer where
  addr : Addr
  data : List Byte
deriving DecidableEq, Repr, Inhabited

/-- A READ or WRITE access of the host port (Table 12-1); `fixed` keeps ADDR for every word. -/
inductive HostAccess where
  | read (fixed : Bool) (addr : Addr) (len : BitVec 8)
  | write (fixed : Bool) (addr : Addr) (data : List Word)
deriving DecidableEq, Repr, Inhabited

/-- How an ABORT comes (R322): as an ABORT frame of the SPI port, with its HCRC, or as a write of HSP.ABORT_CMD from a port. -/
inductive AbortWay where
  | frame (hcrc : Byte)
  | write (p : Port)
deriving DecidableEq, Repr, Inhabited

/-- Where CS_N rises in a cut-off frame (R317): before HCRC; after the HCRC of an access; or while the
access of an earlier frame is still stalled and its frame is being clocked (R320). -/
inductive CutStage where
  | beforeHcrc
  | afterHcrc (a : HostAccess) (hcrc : Byte)
  | stalled
deriving DecidableEq, Repr, Inhabited

/-- How the transaction of one poll goes on the bus (R340 to R343). `data` carries the LEN bytes and, with
PEC in use, the PEC byte after them. `sdaHeld` is the bus that the poll needs a START on and finds with SDA held low,
with the recovery pulse after which SDA is high, if there is one. -/
inductive PollOutcome where
  | data (bytes : List Byte)
  | nackAddr
  | nackData
  | arbLost
  | busError
  | clockLow
  | sdaHeld (freedAt : Option (Fin 9))
deriving DecidableEq, Repr, Inhabited

/-- The role in which the two-wire port meets an event. -/
inductive TwpRole where
  /-- As target, in a write transaction or in a read. -/
  | target (writing : Bool)
  | controller
deriving DecidableEq, Repr, Inhabited

/-- A debug access (R359): a register access under the session on port 2, or one of the uses of the debug
window that R359 names. -/
inductive DbgOp where
  | regRead (addr : Addr)
  | regWrite (addr : Addr) (data : Word)
  | windowRead (addr : Addr)
  | halt
  | step
  | resume
  | memRead (addr : BitVec 20)
  | memWrite (addr : BitVec 20) (data : Word)
deriving DecidableEq, Repr, Inhabited

/-- The drive instructions of the TAP (R360, R447). -/
inductive DriveKind where
  | extest
  | clamp
  | intest
deriving DecidableEq, Repr, Inhabited

/-- The causes of a wake (R364). -/
inductive WakeCause where
  | busA
  | busB
  | housekeeping
  | thermal
deriving DecidableEq, Repr, Inhabited

/-- What discovery reads of one archive flash device (R416): its signature, JEDEC maker byte, size in 4 KB
blocks, whether a 4 KB erase type is listed, and whether the 1-1-4 read is listed. -/
structure FlashInfo where
  sfdp : Bool
  major : BitVec 8
  mfr : BitVec 8
  blocks : BitVec 16
  erase4k : Bool
  quad : Bool
deriving DecidableEq, Repr, Inhabited

/-- A remap entry of a bog control block (R417). -/
structure Remap where
  logical : BitVec 32
  physical : BitVec 32
deriving DecidableEq, Repr, Inhabited

/-- The control block in force on a discovered archive (R417), with the UID that it carries, and what discovery finds of the
log and the captures. -/
structure ControlInfo where
  uid : BitVec 64
  bseq : BitVec 32
  logPct : BitVec 8
  logFloor : BitVec 32
  capFloor : BitVec 32
  remaps : List Remap
  /-- The highest SEQ in the log and the bog's TAIL. -/
  logHead : BitVec 32
  logTail : BitVec 32
  /-- The parts of each valid capture held, oldest first (R422). -/
  captures : List (BitVec 16)
deriving DecidableEq, Repr, Inhabited

/-- How an operation on the external archive flash ends (R416, R418, R420). The flash is outside the device:
what it answers is an input. -/
inductive ArchiveResult where
  | done
  /-- The erase or program of a block has failed. -/
  | failed (block : BitVec 32)
  /-- A log block is written; the block that it reused held records up to this SEQ (R419). -/
  | reused (last : BitVec 32)
  | discovered (d0 d1 : Option FlashInfo) (control : Option ControlInfo)
  | bytes (data : List Byte)
deriving DecidableEq, Repr, Inhabited

/-- The commands of the block: the rows of spec/opcode_table.json in the table's order. -/
inductive Instr where
  | registerWrite (src : Src) (addr : Addr) (data : Word)
  | pairLowRead (p : Port) (addr : Addr)
  | pairHighRead (p : Port) (addr : Addr)
  | pairLowWrite (p : Port) (addr : Addr) (data : Word)
  | pairHighWrite (p : Port) (addr : Addr) (data : Word)
  | supplyTrip
  | supplyRelease
  | rstNLow
  | resetCtrlWarm (src : Src)
  | resetCtrlSupervisor (src : Src)
  | resetCtrlQuadrant (src : Src) (q : Fin 4)
  | quadrantReset (q : Fin 4)
  | quadrantResetTimeout (q : Fin 4)
  | watchdogExpiry
  | ramError (blk : RamBlock) (correctable : Bool)
  | busTimeout (src : Src)
  | stalledAccessComplete (p : Port)
  | clockLoss
  | refclkPresent
  | pll0Lock
  | pllLockTimeout
  | pfailFall
  | pfailRecovered
  | startupFilterEnd
  | wipeEnd
  | storeRecoveryEnd
  | wholeApplyEnd
  | ready
  | strapStartTimer
  | supervisorStart
  | imgDataWrite (src : Src) (data : Word)
  | imgErase (src : Src) (slot : Fin 2)
  | imgSeal (src : Src) (slot : Fin 2)
  | liveOpen (src : Src) (slot : Fin 2)
  | apply (src : Src) (kind : BitVec 8) (index : BitVec 8)
  | imgConfirm (src : Src)
  | imgRollback (src : Src)
  | imgBadOp (src : Src) (op : BitVec 4)
  | railSectionTakeEffect (r : Fin 64)
  | schedSectionTakeEffect
  | hkeepSectionTakeEffect
  | periphSectionTakeEffect
  | upstreamLock (n : Fin 64)
  | trainingPollTimer (n : Fin 64)
  | trainingStepTimeout (n : Fin 64)
  | laneTrainingEnd (n : Fin 64) (ident : ModIdent)
  | upstreamLossOfLock (loss : LossOfLock)
  | retrainAttemptEnd (n : Fin 64) (result : Option ModIdent)
  | laneRetrain (src : Src) (n : Fin 64)
  | laneDisable (src : Src) (n : Fin 64)
  | laneDisableTakeEffect (n : Fin 64)
  | timeCellTimer
  | sampleRaw (n : Fin 64) (slot : Fin 8) (f : Bool) (late : Bool) (body : BitVec 224)
  | sampleCmp (n : Fin 64) (slot : Fin 8) (f : Bool) (late : Bool) (body : BitVec 112)
  | meas (n : Fin 64) (slot : Fin 8) (vout vin temp : BitVec 16)
  | status (n : Fin 64) (slot : Fin 8) (modslots dnCrc late fault state : BitVec 8)
  | reply (n : Fin 64) (slot : Fin 8) (addr tag : BitVec 8) (data : BitVec 16) (result : BitVec 8)
  | echoReply (n : Fin 64) (tag : BitVec 8) (turn : BitVec 16) (rtd : BitVec 16)
  | upstreamCellError (n : Fin 64) (symbolErrors : BitVec 8)
  | replyTimeout (g : Fin 512)
  | calibration (g : Fin 512)
  | sampleMissing (g : Fin 512)
  | slotAdmit (src : Src) (g : Fin 512)
  | refuse (src : Src) (g : Fin 512)
  | recal (src : Src) (g : Fin 512)
  | calSave (src : Src) (g : Fin 512)
  | identifyOn (src : Src) (g : Fin 512)
  | identifyOff (src : Src) (g : Fin 512)
  | slotCalWrite (src : Src) (g : Fin 512) (voltage : Bool) (data : Word)
  | biasTimer
  | housekeepingBias
  | carrierStart (g : Fin 8)
  | edgeBuild (g : Fin 512)
  | baseSet (src : Src) (r : Fin 64) (base : BitVec 16)
  | epochPulse
  | syncinEdge (fine : Fin 32)
  | syncPulseMissing
  | evaluationStart (slice : Fin 8)
  | evaluationComplete (slice : Fin 8)
  | resultRelease (loop : LoopRef)
  | evaluationDeadline (loop : LoopRef)
  | loopClear (src : Src) (r : Fin 64)
  | leClear (src : Src)
  | atStart (src : Src) (r : Fin 64) (loop : BitVec 1) (rule : BitVec 2)
  | atStop (src : Src)
  | autotuneTimeout
  | arm (src : Src) (r : Fin 64)
  | disarm (src : Src) (r : Fin 64)
  | start (src : Src) (r : Fin 64)
  | startMeasurementEnd (r : Fin 64)
  | stop (src : Src) (r : Fin 64)
  | softstop (src : Src) (r : Fin 64)
  | clear (src : Src) (r : Fin 64)
  | retire (src : Src) (r : Fin 64) (pos : Fin 128)
  | restore (src : Src) (r : Fin 64) (pos : Fin 128)
  | railBadOp (src : Src) (r : Fin 64) (op : BitVec 4)
  | vsetWrite (src : Src) (r : Fin 64) (data : Word)
  | vnextWrite (src : Src) (r : Fin 64) (data : Word)
  | windowWrite (src : Src) (r : Fin 64) (high : Bool) (data : Word)
  | rampStep
  | rampTimeout (r : Fin 64)
  | holdTimeout (r : Fin 64)
  | retryTimer (r : Fin 64)
  | retriesResetTimer (r : Fin 64)
  | trippedClear (src : Src) (r : Fin 64) (i : Fin 4) (data : Word)
  | kindlingWarmStart (e : Fin 128)
  | vreqExpiry (r : Fin 64) (h : Fin 256)
  | hearthTick
  | entryCompletionTimeout (e : Fin 128)
  | pauseUpdate (r : Fin 64)
  | supervisorAbsence
  | heartbeat
  | planPass
  | plan (e : Fin 128) (start : BitVec 32)
  | invalidate (e : Fin 128)
  | squash (e : Fin 128) (hint : BitVec 16)
  | ringFrame (bytes : List Byte)
  | ringShareTimeout
  | syncTimer
  | syncDrop (b : Bus)
  | frameTransmitted (b : Bus) (done : Bool)
  | txFrameTimeout (b : Bus)
  | grantUnsentAtStart (e : Fin 128)
  | partnerFrameDiscard (b : Bus) (id : BitVec 29) (payload : List Byte)
  | join (b : Bus) (node : BitVec 4) (unit : BitVec 16) (nonce : BitVec 32) (jflags : BitVec 8)
      (prevHandle : BitVec 8) (proto : BitVec 16)
  | leave (b : Bus) (node : BitVec 4) (handle : Fin 256) (unit : BitVec 16)
  | keepalive (b : Bus) (node : BitVec 4) (handle : Fin 256) (unit : BitVec 16)
  | motionReq (b : Bus) (node : BitVec 4) (handle : Fin 256) (tag : BitVec 8) (segs : BitVec 4)
      (cls : BitVec 2) (unit : BitVec 16) (earliest latest : BitVec 32) (profile : List ProfileSeg)
  | cancel (b : Bus) (node : BitVec 4) (handle : Fin 256) (tag entry : BitVec 8)
  | reverse (b : Bus) (node : BitVec 4) (handle : Fin 256) (tag : BitVec 8) (segs : BitVec 4)
      (entry : BitVec 8) (profile : List ProfileSeg)
  | complete (b : Bus) (node : BitVec 4) (handle : Fin 256) (tag entry : BitVec 8)
  | vreq (b : Bus) (node : BitVec 4) (handle : Fin 256) (tag : BitVec 8) (value : BitVec 32)
  | leaseExpiry (h : Fin 256)
  | holdoffEnd (h : Fin 256)
  | orphanHandleTimeout
  | evict (src : Src) (h : Fin 256)
  | busErrorPassive (b : Bus)
  | busOff (b : Bus)
  | restart (src : Src) (b : Bus)
  | busOffRecoveryEnd (b : Bus)
  | bitTimingWrite (src : Src) (b : Bus) (which : Fin 3) (data : Word)
  | vsenseConversion (v : Fin 8) (code : BitVec 16)
  | latchClear (src : Src) (i : Fin 8) (data : Word)
  | firstClr (src : Src)
  | housekeepingRound (thm : Vector (BitVec 12) 4) (supplyUv : Vector (BitVec 24) 4)
  | housekeepingRoundEnd
  | dieSample (temps : Vector (Option (BitVec 16)) 8)
  | shutdownRecordWrite
  | storeWindowOpen
  | hostRead (fixed : Bool) (addr : Addr) (len : BitVec 8) (hcrc : Byte)
  | hostWrite (fixed : Bool) (addr : Addr) (data : List Word) (hcrc : Byte)
  | hostStatus (hcrc : Byte)
  | fetch (hcrc : Byte)
  | malformedFrame (cmd : Byte)
  | frameCutOff (stage : CutStage)
  | abortAutotune (way : AbortWay)
  | abortRailApply (way : AbortWay) (r : Fin 64)
  | abortStoreOperation (way : AbortWay)
  | abortBogTransfer (way : AbortWay)
  | abortTwoWire (way : AbortWay) (sdaHeld : Bool) (freedAt : Option (Fin 9))
  | abortLaneTraining (way : AbortWay) (n : Fin 64)
  | abortSession (way : AbortWay) (target : Port)
  | abortPendingAccess (way : AbortWay) (target : Port)
  | abortGlobal (way : AbortWay)
  | badFunc (way : AbortWay) (func : BitVec 8) (index : BitVec 8)
  | abortDone (p : Port)
  | twpTargetWrite (write : TargetWrite)
  | twpTargetRead (pointer : Option TargetPointer) (words : BitVec 8)
  | twpBusError (role : TwpRole)
  | twpClockLowTimeout (role : TwpRole)
  | twpStretchTimeout
  | alertResponse (won : Bool)
  | periphPollDue (e : Fin 32)
  | periphPoll (e : Fin 32) (outcome : PollOutcome)
  | recover (src : Src) (sdaFreedAt : Option (Fin 9))
  | recoveryRetryTimer (sdaFreedAt : Option (Fin 9))
  | pollNow (src : Src) (e : Fin 32)
  | twpTimingWrite (src : Src) (second : Bool) (data : Word)
  | openSession (p : Port) (level : BitVec 2)
  | prove (p : Port)
  | close (p : Port)
  | sessionIdleTimeout (p : Port)
  | lockoutEnd (p : Port)
  | keyCmd (src : Src) (target : BitVec 3)
  | lcCommission (src : Src)
  | lcService (src : Src)
  | lcMaintain (src : Src)
  | lcRetired (src : Src)
  | lcReturn (src : Src)
  | lcWipesComplete
  | tapReset
  | debugReset
  | dbgChal
  | dbgToken (scope : BitVec 2) (token : BitVec 256)
  | dbgAccess (op : DbgOp)
  | driveInstruction (kind : DriveKind)
  | pwrRun (src : Src)
  | pwrTrim (src : Src)
  | pwrStandby (src : Src)
  | qopSmoulder (src : Src) (q : Fin 4)
  | qopQrun (src : Src) (q : Fin 4)
  | smoulderTimeout (q : Fin 4)
  | wake (cause : WakeCause)
  | laneReceiverSleep (n : Fin 64)
  | fwDataWrite (src : Src) (data : Word)
  | fwErase (src : Src) (slot : Fin 2)
  | fwSeal (src : Src) (slot : Fin 2)
  | switch (src : Src) (slot : Fin 2)
  | fwConfirm (src : Src)
  | fwRollback (src : Src)
  | fwBadOp (src : Src) (op : BitVec 3)
  | fwTrialTimeout
  | chunkProgramComplete (verified : Bool)
  | sectorEraseComplete (verified : Bool)
  | userRead (src : Src) (block : Fin 128)
  | userWrite (src : Src) (block : Fin 128)
  | protect (src : Src) (level : BitVec 2)
  | ocsBadOp (src : Src) (op : BitVec 4)
  | eventRecordWrite
  | repeatChainEnd
  | timeSet (src : Src)
  | erClear (src : Src) (areas : BitVec 4)
  | select (src : Src) (areas : BitVec 4)
  | bogBlockWrite
  | discover (src : Src)
  | detach (src : Src)
  | format (src : Src)
  | readBlock (src : Src) (block : BitVec 24)
  | readCapbuf (src : Src) (part : BitVec 24)
  | bogBadOp (src : Src) (op : BitVec 3)
  | captureArm (src : Src)
  | captureStop (src : Src)
  | trigger (src : Src)
  | captureSample
  | captureCopyComplete
  | rstNRise
  | pfailNRise
  | imgCheckEnd
  | codeFlashOperationEnd
  | archiveFlashOperationEnd (result : ArchiveResult)
  | twpBusFree
  | quadrantDomainOn (q : Fin 4)
deriving DecidableEq, Repr

end Sys2Proof
end

