-- ==== Sys2Proof/Decode.lean ====
section
/-! DEFINITION. The block has no decoder: its commands come by their names, and no row of spec/opcode_table.json has bits. -/

namespace Sys2Proof

/-- The command that a word spells by the bits of the table: the table gives no row any bits, so no word spells a command. -/
def decodeTableWord (_nbits _w : Nat) : Option Instr := none

end Sys2Proof
end

