-- ==== Sys2Proof/Machine/Bits.lean ====
section
/-! DEFINITION. Saturating counters, byte orders (R5) and fields of words (R4). -/

namespace Sys2Proof.Machine

/-- One more, staying at the highest value ("saturating"). -/
def satInc {n : Nat} (x : BitVec n) : BitVec n := if x = BitVec.allOnes n then x else x + 1

/-- `k` more, staying at the highest value. -/
def satAdd {n : Nat} (x : BitVec n) (k : Nat) : BitVec n :=
  if x.toNat + k < 2 ^ n then BitVec.ofNat n (x.toNat + k) else BitVec.allOnes n

/-- A natural number into n bits, staying at the highest value. -/
def satNat (n k : Nat) : BitVec n := if k < 2 ^ n then BitVec.ofNat n k else BitVec.allOnes n

/-- A signed number into n bits, saturating at both ends. -/
def satInt (n : Nat) (k : Int) : BitVec n :=
  let top : Int := 2 ^ (n - 1)
  BitVec.ofInt n (if k ≥ top then top - 1 else if k < -top then -top else k)

/-- An integer held within two bounds. -/
def clampInt (lo hi x : Int) : Int := if x < lo then lo else if x > hi then hi else x

/-- Division rounded up. -/
def ceilDiv (a b : Nat) : Nat := (a + b - 1) / b

/-- The n bytes of a number, least significant first (R5, byte-addressed formats). -/
def leBytes : Nat → Nat → List Byte
  | 0, _ => []
  | n + 1, v => BitVec.ofNat 8 v :: leBytes n (v / 256)

/-- The n bytes of a number, most significant first (R5, serial interfaces). -/
def beBytes (n v : Nat) : List Byte := (leBytes n v).reverse

/-- The number that bytes spell, least significant first. -/
def leNat : List Byte → Nat
  | [] => 0
  | b :: bs => b.toNat + 256 * leNat bs

/-- The number that bytes spell, most significant first. -/
def beNat (bs : List Byte) : Nat := leNat bs.reverse

/-- n bytes from a place on; bytes past the end read as zero. -/
def slice (bs : List Byte) (off n : Nat) : List Byte := ((bs.drop off).take n).takeD n 0

/-- An unsigned field of a byte-addressed format (R5). -/
def leAt (bs : List Byte) (off n : Nat) : Nat := leNat (slice bs off n)

/-- A signed field of a byte-addressed format. -/
def leSigned (bs : List Byte) (off n : Nat) : Int := (BitVec.ofNat (8 * n) (leAt bs off n)).toInt

/-- An unsigned field of a serial payload, most significant byte first. -/
def beAt (bs : List Byte) (off n : Nat) : Nat := beNat (slice bs off n)

/-- Bits [hi:lo] of a number (R4). -/
def bits (v hi lo : Nat) : Nat := v / 2 ^ lo % 2 ^ (hi + 1 - lo)

/-- A flag as a bit. -/
def bit (b : Bool) : Nat := if b then 1 else 0

/-- A flag as a one at a place. -/
def flag (b : Bool) (i : Nat) : Nat := if b then 2 ^ i else 0

/-- A word made from a number. -/
def word (v : Nat) : Word := BitVec.ofNat 32 v

/-- A byte made from a number. -/
def byte (v : Nat) : Byte := BitVec.ofNat 8 v

/-- A word with one bit set. -/
def setBit {n : Nat} (x : BitVec n) (i : Nat) : BitVec n := x ||| BitVec.ofNat n (2 ^ i)

/-- A word with one bit cleared. -/
def clearBit {n : Nat} (x : BitVec n) (i : Nat) : BitVec n := x &&& ~~~ (BitVec.ofNat n (2 ^ i))

/-- A write-one-to-clear write (Table 0-4, W1C). -/
def w1c {n : Nat} (x : BitVec n) (data : Word) : BitVec n := x &&& ~~~ (data.setWidth n)

/-- A later of two device microsecond values, modulo 2^32 (R11). -/
def laterUs (a b : Word) : Bool := let d := (a - b).toNat; decide (0 < d ∧ d < 2 ^ 31)

/-- At or later than, modulo 2^32 (R11). -/
def notEarlierUs (a b : Word) : Bool := decide ((a - b).toNat < 2 ^ 31)

/-- An index of a bank from a number. -/
def fin? (n k : Nat) : Option (Fin n) := if h : k < n then some ⟨k, h⟩ else none

/-- A quotient of integers rounded to the nearest, halves away from zero. -/
def roundDiv (a b : Int) : Int :=
  if b = 0 then 0 else
  let n := a.natAbs; let d := b.natAbs
  let q : Int := (2 * n + d) / (2 * d)
  if (a < 0) = (b < 0) then q else -q

/-- The integer square root, by halving (fuel: the bits of the number). -/
def sqrtNat : Nat → Nat → Nat
  | 0, _ => 0
  | k + 1, n =>
    if n = 0 then 0 else
    let r := 2 * sqrtNat k (n / 4)
    if (r + 1) * (r + 1) ≤ n then r + 1 else r

/-- Even indices of a list in order with the odd ones: nibbles joined to bytes, the first in bits [3:0] (R422). -/
def packNibbles : List Nat → List Byte
  | [] => []
  | [a] => [byte a]
  | a :: b :: rest => byte (a + 16 * b) :: packNibbles rest

end Sys2Proof.Machine
end

