-- ==== Sys2Proof/Machine/Bank.lean ====
section
/-! DEFINITION. Banks: a fixed number of like things under an index (R12), with one read and one write.
Every indexed array of the device is a bank, so that one pair of laws serves them all. -/

namespace Sys2Proof.Machine

/-- A bank of `n` cells. -/
abbrev Bank (n : Nat) (α : Type) := Vector α n

/-- A bank with the same value in every cell. -/
def bankFill (n : Nat) {α : Type} (v : α) : Bank n α := Vector.replicate n v

/-- The cell of a bank at an index. -/
def bankGet {n : Nat} {α : Type} (b : Bank n α) (i : Fin n) : α := b[i.val]

/-- A bank with one cell replaced. -/
def bankSet {n : Nat} {α : Type} (b : Bank n α) (i : Fin n) (v : α) : Bank n α := b.set i.val v i.isLt

/-- A bank with one cell changed. -/
def bankUpd {n : Nat} {α : Type} (b : Bank n α) (i : Fin n) (f : α → α) : Bank n α :=
  bankSet b i (f (bankGet b i))

/-- A bank made from its cells. -/
def bankOf {n : Nat} {α : Type} (f : Fin n → α) : Bank n α := ⟨⟨List.ofFn f⟩, by simp⟩

/-- A bank with every cell changed, each knowing its index. -/
def bankMap {n : Nat} {α β : Type} (b : Bank n α) (f : Fin n → α → β) : Bank n β :=
  bankOf fun i => f i (bankGet b i)

/-- The indices of a bank at which a test holds, in rising order. -/
def bankWhere {n : Nat} {α : Type} (b : Bank n α) (p : α → Bool) : List (Fin n) :=
  (List.finRange n).filter fun i => p (bankGet b i)

/-- The number of cells at which a test holds. -/
def bankCount {n : Nat} {α : Type} (b : Bank n α) (p : α → Bool) : Nat := (bankWhere b p).length

@[simp] theorem bankGet_bankFill {n : Nat} {α : Type} (v : α) (i : Fin n) :
    bankGet (bankFill n v) i = v := by simp [bankGet, bankFill]

@[simp] theorem bankGet_bankSet_same {n : Nat} {α : Type} (b : Bank n α) (i : Fin n) (v : α) :
    bankGet (bankSet b i v) i = v := by simp [bankGet, bankSet]

theorem bankGet_bankSet_other {n : Nat} {α : Type} (b : Bank n α) {i j : Fin n} (v : α) (h : i ≠ j) :
    bankGet (bankSet b i v) j = bankGet b j := by
  have : i.val ≠ j.val := fun e => h (Fin.ext e)
  simp [bankGet, bankSet, Vector.getElem_set, this]

theorem bankGet_bankSet {n : Nat} {α : Type} (b : Bank n α) (i j : Fin n) (v : α) :
    bankGet (bankSet b i v) j = if i = j then v else bankGet b j := by
  by_cases h : i = j
  · subst h; simp
  · simp [h, bankGet_bankSet_other b v h]

@[simp] theorem bankGet_bankUpd_same {n : Nat} {α : Type} (b : Bank n α) (i : Fin n) (f : α → α) :
    bankGet (bankUpd b i f) i = f (bankGet b i) := by simp [bankUpd]

theorem bankGet_bankUpd_other {n : Nat} {α : Type} (b : Bank n α) {i j : Fin n} (f : α → α) (h : i ≠ j) :
    bankGet (bankUpd b i f) j = bankGet b j := bankGet_bankSet_other b _ h

@[simp] theorem bankGet_bankOf {n : Nat} {α : Type} (f : Fin n → α) (i : Fin n) :
    bankGet (bankOf f) i = f i := by simp [bankGet, bankOf]

@[simp] theorem bankGet_bankMap {n : Nat} {α β : Type} (b : Bank n α) (f : Fin n → α → β) (i : Fin n) :
    bankGet (bankMap b f) i = f i (bankGet b i) := by simp [bankMap]

end Sys2Proof.Machine
end

