-- ==== Sys2Proof/Machine/SysRec.lean ====
section
/-! DEFINITION. Records of time, reset, clocks and the structure image: spec 02_clocks_reset_crossings.md,
03_structure_image.md and 05_timebase_interleave.md (R138, R139). -/

namespace Sys2Proof.Machine

/-- Time (R138, R139): TIME in T-ticks, the extended count of device microseconds with the T-tick within the
microsecond, and the calendar's own divider (R403). `lclk` says that the LCLK core branch runs (Table 2-2);
`running` that PLL0 does. -/
structure TimeBase where
  time : BitVec 64
  us : BitVec 64
  phase : Fin 800
  running : Bool
  lclk : Bool
  /-- T-ticks within the HCLK cycle of 32 T-ticks. -/
  hphase : Fin 32
  /-- Calendar time in 1/65,536 s (Table 0-5). -/
  cal : BitVec 48
  /-- What the calendar divider holds: below 25,000,000, rising by 65,536 each HCLK cycle. -/
  calAcc : Nat
deriving DecidableEq, Repr

/-- The steps of start-up (Table 2-6), with the waits that R49 and R50 give. -/
inductive StartStep where
  /-- Step 1: the internal reset is held. -/
  | held
  /-- Step 1: the 0.5 ms filter runs. -/
  | filter
  /-- Step 2: the wipe runs. -/
  | wipe
  /-- Step 3 waits for PLL0 (R49). -/
  | waitPll
  /-- Step 4: store recovery. -/
  | recovery
  /-- Step 4 has ended and PFAIL_N holds the start-up (R50). -/
  | pfailHold
  /-- Step 6: whole apply. -/
  | apply
  /-- Steps 7 and 8: training, discovery and admission. -/
  | bringUp
  /-- Step 9: READY. -/
  | ready
deriving DecidableEq, Repr

/-- Reset kinds that reach the whole device (Table 2-3). -/
inductive ResetKind where
  | cold
  | pin
  | soft
  | clkloss
  | ramerr
  | debug
deriving DecidableEq, Repr

/-- The pins that the device senses as levels, and the supply monitors' verdict. -/
structure Pins where
  supplyOk : Bool
  rstN : Bool
  pfailN : Bool
  straps : BitVec 6
  /-- REFCLK is present as R33 judges it. -/
  refclk : Bool
deriving DecidableEq, Repr

/-- SYS registers and the start-up sequence (Tables 2-11 to 2-14, R46 to R55). -/
structure Sys where
  step : StartStep
  strapMode : Bool
  slotApplied : BitVec 2
  recovered : Bool
  clamped : Bool
  stages : Nat
  unassigned : Bool
  pfailWait : Bool
  /-- PFAIL_N was low when the sequence reached step 4 (R50). -/
  pfailAt4 : Bool
  strap : BitVec 6
  /-- RESET_CAUSE bits 7 to 0 in the order of Table 2-12. -/
  cause : BitVec 8
  warmCount : BitVec 16
  /-- Entries of the event queue that the last warm or debug reset lost (R39). -/
  lostEvents : Nat
  /-- Internal faults that ended in a reset, KIND and SOURCE: the following start-up writes their records (R28, R33). -/
  faults : List (Nat × Nat)
  /-- R49's 10 ms have passed in this start-up without lock. -/
  lockLate : Bool
  /-- A brownout episode is open (R37, R412). -/
  brownout : Bool
  /-- The T-tick at which READY was reached. -/
  readyAt : Nat
deriving DecidableEq, Repr

/-- CLK.XDROP of one crossing group (Table 2-16). -/
structure XDrop where
  dropped : BitVec 16
  merged : BitVec 16
deriving DecidableEq, Repr

/-- CLK registers (Tables 2-15 and 2-16). -/
structure Clk where
  pllLock : Bool
  refOk : Bool
  roscOnly : Bool
  trim : Bool
  qclk : Bank 4 Bool
  lclkOn : Bool
  eclkOn : Bool
  sclkOn : Bool
  /-- PLL0 has been released to try to lock (R33, R49). -/
  pllTrying : Bool
  xdrop : Bank 16 XDrop
  /-- A requested quadrant reset waits since that T-tick (R35). -/
  quadReset : Bank 4 (Option Nat)
deriving DecidableEq, Repr

/-! ### Sections of the structure image, with the values that the loader applies -/

/-- DEVICE (Table 3-4). -/
structure DeviceSect where
  feedLimit : Nat
  standalone : Nat
  ringSize : Nat
  ringPos : Nat
  smoulder : BitVec 4
  storageSrc : Option (Fin 8)
  feedSrc : Option (Fin 8)
  fgPeriod : Bank 8 Nat
  fgEnable : Bank 8 Bool
  vsScale : Bank 8 Nat
  vsOffset : Bank 8 Int
deriving DecidableEq, Repr

/-- An entry of LANES (Table 3-5). -/
structure LaneEntry where
  mode : Fin 3
  slotMask : BitVec 8
  minRating : Nat
deriving DecidableEq, Repr

/-- The source of a rail's feedback or input voltage: a VSENSE input, or stage-reported (0xF0). -/
abbrev VSource := Option (Fin 8)

/-- A coefficient: Q1.31 mantissa and shift (R160). -/
structure Coef where
  m : Word
  s : Byte
deriving DecidableEq, Repr

/-- RAIL (Table 3-6). -/
structure RailSect where
  vmin : Nat
  vmax : Nat
  vset : Nat
  slewUp : Nat
  slewDn : Nat
  ssRate : Nat
  fgroup : Fin 8
  template : Bool
  nestN : Nat
  ffVin : Bool
  ffAcc : Bool
  vinSrc : VSource
  voutSrc : VSource
  bidir : Bool
  lead : Nat
  minPhases : Nat
  shedDwell : Nat
  ilimPhase : Nat
  ilimRail : Nat
  ov : Nat
  uv : Nat
  addHi : Nat
  shedLo : Nat
  dmax : Nat
  dmin : Nat
  overrunLimit : Nat
  outer : Bank 8 Coef
  inner : Bank 8 Coef
  phases : List (Fin 512)
deriving DecidableEq, Repr

/-- An entry of PROTECT (Table 3-7); `target` none stands for 0xFF. -/
structure ProtEntry where
  source : Fin 9
  action : Fin 5
  srcIndex : Nat
  target : Option (Fin 64)
  fltMask : BitVec 8
  level : Nat
deriving DecidableEq, Repr

/-- SCHED (Table 3-8). -/
structure SchedSect where
  bound : Bank 3 Nat
  reserve : Nat
  bankCap : Nat
  bankVmin : Nat
  pauseMin : Nat
  pauseMax : Nat
  timeout : Bank 3 Nat
deriving DecidableEq, Repr

/-- An entry of PARTNERS (Table 3-9). -/
structure PartnerEntry where
  unitFirst : Nat
  unitLast : Nat
  handleBase : Nat
  classCeil : Fin 3
  rail : Option (Fin 64)
  vreqOk : Bool
  peakMax : Nat
deriving DecidableEq, Repr

/-- An entry of HKEEP (Table 3-10). -/
structure HkEntry where
  source : Fin 6
  xcheck : Bool
  srcIndex : Nat
  warn : Int
  throttle : Int
  shutdown : Int
  hyst : Int
  riseMax : Int
  persist : Nat
  trail : Option (Fin 64)
deriving DecidableEq, Repr

/-- An entry of PERIPH (Table 3-11). -/
structure PeriphEntry where
  addr : BitVec 7
  pec : Bool
  ptr2 : Bool
  pointer : BitVec 16
  len : Nat
  period : Nat
  format : Fin 3
deriving DecidableEq, Repr

/-- PERIPH (Table 3-11). -/
structure PeriphSect where
  speed : Fin 3
  ownAddr : BitVec 7
  tlow : Nat
  thigh : Nat
  tsudat : Nat
  thddat : Nat
  entries : List PeriphEntry
deriving DecidableEq, Repr

/-- A section in force, with the SCRC of its frame (R87); strap mode and the defaults of R62 carry 0. -/
structure InForce (α : Type) where
  body : α
  scrc : Word
deriving DecidableEq, Repr

/-- The structure in force: each section as it was applied, or absent (R62). -/
structure Structure where
  device : InForce DeviceSect
  lanes : Option (InForce (List LaneEntry))
  rails : Bank 64 (Option (InForce RailSect))
  protect : Option (InForce (List ProtEntry))
  sched : Option (InForce SchedSect)
  partners : Option (InForce (List PartnerEntry))
  hkeep : Option (InForce (List HkEntry))
  periph : Option (InForce PeriphSect)
  installId : BitVec 64
deriving DecidableEq, Repr

/-- An entry of the clamp report (Table 3-25). -/
structure ClampEntry where
  kind : Byte
  index : Byte
  off : BitVec 16
  written : Word
  applied : Word
  reason : Byte
  width : Byte
  applyNo : BitVec 16
deriving DecidableEq, Repr

/-- The commands of the loader (Table 3-17), and the one that a life-cycle change starts. -/
inductive LoaderCmd where
  | erase (s : Fin 2)
  | seal (s : Fin 2)
  | liveOpen (s : Fin 2)
  | apply (kind index : Byte)
  | confirm
  | rollback
deriving DecidableEq, Repr

/-- A section that waits for its boundary, tick, round or gap: the new body, or a removal (R79, R81, R86). -/
structure Waiting (α : Type) where
  body : Option (InForce α)
  slot : Fin 2
  rollback : Bool
deriving DecidableEq, Repr

/-- States of an image or firmware slot (Table 3-14). -/
inductive SlotPhase where
  | empty
  | written
  | trial
  | confirmed
  | rejected
deriving DecidableEq, Repr

/-- What the loader shows of an image slot (Tables 3-19 and 3-20). -/
structure SlotView where
  phase : SlotPhase
  lenKb : BitVec 16
  gen : Word
deriving DecidableEq, Repr

/-- IMG.RAILSRC of one rail (Table 3-24). -/
structure RailSrc where
  slot : BitVec 2
  live : Bool
  order : Byte
deriving DecidableEq, Repr

/-- The image loader (Tables 3-17 to 3-25). -/
structure Image where
  busy : Bool
  cmd : Option LoaderCmd
  trialOpen : Bool
  trialSlot : Fin 2
  restartPending : Bool
  reportOvf : Bool
  result : Byte
  report : List ClampEntry
  clampTotal : BitVec 16
  view : Bank 2 SlotView
  running : Option (Fin 2)
  loadRun : BitVec 16
  loadTrial : BitVec 16
  applyCount : Word
  dataAddr : BitVec 16
  /-- The slot of the last ERASE, into which IMG.DATA writes go (R77). -/
  fillSlot : Option (Fin 2)
  railSrc : Bank 64 RailSrc
  waitRail : Bank 64 (Option (Waiting RailSect))
  waitSched : Option (Waiting SchedSect)
  waitPartners : Option (Waiting (List PartnerEntry))
  waitHkeep : Option (Waiting (List HkEntry))
  waitPeriph : Option (Waiting PeriphSect)
  /-- KIND and INDEX of the trial's live applies, newest first (R88). -/
  liveOrder : List (Byte × Byte)
  /-- What a rollback has still to reapply, in order (R88). -/
  rollbackLeft : List (Byte × Byte)
  /-- A life-cycle change that waits for the rollback (Table 3-14). -/
  lcAfter : Option (Fin 6)
  /-- The loader waits for the store to end the command (R77). -/
  storeWait : Bool
  /-- The store has failed or refused a program of IMG.DATA since the last ERASE (R77, R394). -/
  dataFailed : Bool
deriving DecidableEq, Repr

end Sys2Proof.Machine
end

