-- ==== Sys2Proof/Machine/LoopRec.lean ====
section
/-! DEFINITION. Records of the control path: phase lanes and slots (spec 04_phase_lanes.md), timebase
(05_timebase_interleave.md), loop engine (06_loop_engine.md), feed-forward and relay auto-tune
(07_feedforward_autotune.md). Instants are T-ticks of TIME. -/

namespace Sys2Proof.Machine

/-! ### Phase lanes -/

/-- Lane states (Table 4-16). -/
inductive LaneState where
  | unused
  | down
  | training
  | up
  | retrain
deriving DecidableEq, Repr

/-- Slot states in the EH5120 (Table 4-13). -/
inductive SlotState where
  | absent
  | found
  | calibrating
  | admitted
  | serving
  | refused
  | lost
  | retired
deriving DecidableEq, Repr

/-- Slot reasons (Table 4-14). -/
inductive SlotReason where
  | none
  | notExpected
  | rating
  | protocol
  | frequency
  | direction
  | host
  | timeout
  | missing
  | fault
  | removed
  | lane
  | identity
deriving DecidableEq, Repr

/-- Downstream cells (Tables 4-2, 4-4 and 4-5). -/
inductive DownCell where
  | edge (slot : Fin 8) (pstart : BitVec 24) (onOfs offOfs : BitVec 21) (nopulse dir : Bool)
  | time (count : Word) (fine : BitVec 5)
  | write (slot : Fin 8) (addr : Byte) (data : BitVec 16) (tag : Byte)
  | read (slot : Fin 8) (addr tag : Byte)
  | cmd (slot : Fin 8) (op : Byte)
  | bias (slot : Fin 8)
  | echo (tag : Byte)
deriving DecidableEq, Repr

/-- A cell that waits, with the full PSTART of an EDGE cell for its order (R99). -/
structure QCell where
  cell : DownCell
  order : Nat
deriving DecidableEq, Repr

/-- A training in progress (R101): its step, its start, the answered ECHO cells and the identity read so far. -/
structure Training where
  step : Fin 5
  start : Nat
  stepAt : Nat
  rtd : List (BitVec 16 × BitVec 16)
deriving DecidableEq, Repr

/-- A symbol of the line code (Table 4-1): a special one, or a data byte. -/
structure LineSym where
  special : Bool
  byte : Byte
deriving DecidableEq, Repr

/-- A transmitter of the line code (R95, R96): its running disparity (true: positive), the code group on the wire (none: the
pair is idle) with the bit a most significant and the time it still takes, the symbols that follow without a gap, and the
symbols since the comma of the last IDLE. -/
structure LineTx where
  rd : Bool
  group : Option (BitVec 10)
  left : Nat
  rest : List LineSym
  since : Nat
deriving DecidableEq, Repr

/-- One lane (Tables 4-16 to 4-20) with its transmit queue and error windows. -/
structure Lane where
  state : LaneState
  mode : Fin 3
  fitted : BitVec 8
  attempt : Nat
  autoAdmit : Bool
  disable : Bool
  errLimit : Byte
  delay : BitVec 16
  turn : BitVec 16
  symErr : Word
  crcErr : Word
  dnErr : Word
  retrains : BitVec 16
  losses : BitVec 16
  dnLate : BitVec 16
  upLate : BitVec 16
  vendor : BitVec 16
  product : BitVec 16
  serial : BitVec 64
  proto : BitVec 16
  intStatus : BitVec 5
  intEnable : BitVec 5
  train : Option Training
  /-- DN_CRC last reported. -/
  dnSeen : Option Byte
  /-- Instants of the cells discarded within the last ms, and of DN_CRC advances with their size (R134). -/
  errTimes : List Nat
  dnTimes : List (Nat × Nat)
  queue : List QCell
  /-- The cell on the wire, with the T-ticks it still takes. -/
  sending : Option (DownCell × Nat)
  /-- The downstream pair (R95, R96). -/
  line : LineTx
  /-- The number of cells sent since reset, wrapping. -/
  sent : Word
  /-- In TRIM, the receiver sleeps (R362). -/
  asleep : Bool
  /-- When a sleeping receiver was last woken (R362). -/
  wokeAt : Option Nat
  /-- Since when no slot of the lane serves. -/
  idleSince : Nat
  /-- A lane loss is asserted (SOURCE 8). -/
  lossActive : Bool
deriving DecidableEq, Repr

/-- The rating report of a slot (Table 4-9, 0x10 to 0x18). -/
structure Rating where
  kind : BitVec 16
  rating : BitVec 16
  iscale : BitVec 16
  vscaleOut : BitVec 16
  vscaleIn : BitVec 16
  fmin : BitVec 16
  fmax : BitVec 16
  minoff : BitVec 16
  vinmax : BitVec 16
deriving DecidableEq, Repr

/-- A calibration in progress (R125): the WRITE awaited (0 to 2), or the collection of NOPULSE periods. -/
inductive CalStep where
  | writing (i : Fin 3) (tag : Byte) (sentAt : Nat)
  | collecting (cells exact : Nat) (sum : Int) (pstart : Nat)
deriving DecidableEq, Repr

/-- A MEAS of a slot (R126): set-point LSBs, raw input code, the instant it was received, its sample instant, and the
carrier period of its rail's group in which it was received (R159). -/
structure MeasView where
  vout : Nat
  vin : Nat
  vinRaw : BitVec 16
  temp : BitVec 16
  when : Nat
  sampled : Nat
  carrier : Nat
deriving DecidableEq, Repr

/-- One slot (Tables 4-22 and 4-23) as the PLI keeps it. -/
structure Slot where
  state : SlotState
  reason : SlotReason
  owner : Option (Fin 64)
  compressed : Bool
  aux : BitVec 2
  rep : Rating
  limit : BitVec 16
  octrip : BitVec 14
  iofs : BitVec 16
  igain : BitVec 16
  vofs : BitVec 16
  vgain : BitVec 16
  errMissing : Byte
  errSat : Byte
  errOc : Byte
  errLate : Byte
  temp : BitVec 16
  meas : Option MeasView
  /-- The MEAS before it. -/
  measWas : Option MeasView
  /-- The instant of sample 0 of the period whose SAMPLE cell came last, since START (R126). -/
  sampledAt : Option Nat
  /-- LATE last reported and the module's slot state last reported. -/
  lateSeen : Option Byte
  modState : Byte
  /-- Rating registers read so far in a discovery; none when no discovery runs. -/
  disc : Option (List (BitVec 16))
  /-- When the last READ of a discovery was sent. -/
  readAt : Nat
  cal : Option CalStep
  /-- Tag of the next WRITE or READ. -/
  tag : Byte
  /-- SAMPLE cells missing in a row (R129). -/
  missRun : Nat
  /-- Returned under R133 with RETAKE 0 (R220). -/
  heldBack : Bool
  /-- A newly admitted phase becomes available at the next boundary (R220). -/
  fresh : Bool
deriving DecidableEq, Repr

/-! ### Timebase and interleaver -/

/-- Ring states (Table 5-6). -/
inductive RingState where
  | standalone
  | reference
  | acquiring
  | locked
  | holdover
deriving DecidableEq, Repr

/-- The ring-time tracker (R150, R151). Offsets in fine units. -/
structure Tracker where
  state : RingState
  locks : Byte
  holdovers : Byte
  syncDelay : BitVec 20
  err : Int
  rate : Int
  eps : Int
  epoch : Int
  first : Bool
  second : Bool
  goodRun : Nat
  badRun : Nat
  /-- Epoch number that the ring link last reported (R149). -/
  linkEpoch : Option Nat
  syncout : Bool
  /-- The T-tick at which a pulse that is forwarded ends (R149). -/
  syncEnd : Option Nat
deriving DecidableEq, Repr

/-- A frequency group's carrier (R140, R153). -/
structure Carrier where
  started : Bool
  /-- Index k of the carrier period in progress, C(k), C(k+1) and C(k+2). -/
  k : Nat
  c0 : Nat
  c1 : Nat
  c2 : Nat
  rofs : BitVec 16
  locked : Bool
  /-- VSENSE results within the present carrier period: their number and converted sum (R159). -/
  vs : Bank 8 (Nat × Nat)
deriving DecidableEq, Repr

/-- The change of a weight (Table 5-1); a weight counts in units of 1/720,720, which every HANDOVER divides. -/
inductive WeightRamp where
  | steady
  | up (step : Nat)
  | down (step : Nat)
deriving DecidableEq, Repr

/-- What happens to a slot when its ordered or immediate leave is over. -/
inductive AfterLeave where
  | admitted
  | retired
deriving DecidableEq, Repr

/-- A switching period whose EDGE cell is built and whose samples are still to come: its PSTART, the PSTART after it,
the carrier period in which it lies, and the share and limit (mA) that R165 fixes for it. -/
structure Period where
  start : Nat
  next : Nat
  carrier : Nat
  share : Nat
  limit : Nat
deriving DecidableEq, Repr

/-- One phase in the TBI and the loop engine (Tables 5-10, 6-14; R143 to R148, R163). -/
structure Phase where
  placed : Bool
  /-- The phase has a present angle (R146): false only at the boundary of its join. -/
  angled : Bool
  angle : Nat
  /-- What is left of a move (R147). -/
  move : Nat
  weight : Nat
  ramp : WeightRamp
  /-- The join's first cell is not yet built: the carrier period in which it lies (R451). -/
  firstAt : Option Nat
  /-- PSTART of the next period to build. -/
  pstart : Nat
  /-- Carrier period of that PSTART. -/
  kNext : Nat
  dir : Bool
  nopulse : Bool
  /-- The duty of the last build, and the newest duty released since. -/
  prevDuty : Nat
  /-- The carrier period of the last build, and the duty in force before it (R178). -/
  builtFor : Nat
  dutyWas : Nat
  newDuty : Option Nat
  /-- Periods whose samples are still to come, oldest first. -/
  periods : List Period
  /-- Sample instant of the last result released (R168). -/
  releasedAt : Option Nat
  /-- A STOP is owed from that T-tick on (R128), and what the slot then becomes. -/
  stopAt : Option Nat
  after : AfterLeave
  /-- START is owed before the next cell (R128). -/
  startDue : Bool
  /-- LE.PH registers. -/
  duty : Nat
  iref : Int
  imeas : Int
  /-- Error and output histories e[1], e[2], y[1], y[2] (R163). -/
  e1 : Int
  e2 : Int
  y1 : Int
  y2 : Int
  /-- The acceleration signal that the inner loop formed last (R187, R191). -/
  xacc : Int
  /-- The share f(x) fixed at the boundary (R165). -/
  share : Nat
  /-- Sign of the phase's current set-point (R144). -/
  demNeg : Bool
deriving DecidableEq, Repr

/-- TBI state of a rail (Table 5-9). -/
structure RailTbi where
  base : Nat
  baseSet : Option Nat
  /-- An immediate leave asks for new angles at the next boundary. -/
  recompute : Bool
  /-- The rail has placed phases since it left OFF (R142). -/
  hasPlaced : Bool
  /-- Phases that a section has taken from the rail's list, in the old list's order, until each is unplaced (R82). -/
  leavers : List (Fin 512)
deriving DecidableEq, Repr

/-- TBI.CTRL and the ring. -/
structure Tbi where
  handover : BitVec 5
  minPulse : Byte
  ringlock : Byte
  ring : Tracker
  carriers : Bank 8 Carrier
  rails : Bank 64 RailTbi
  /-- The carriers start at that T-tick (R140). -/
  startAt : Option Nat
deriving DecidableEq, Repr

/-! ### Loop engine -/

/-- The mode of an evaluation (R168). -/
inductive EvalMode where
  | immediate
  | fixed
deriving DecidableEq, Repr

/-- What the engine takes into one evaluation (R156, R171, R180): its inputs and the coefficients as they stood
at its sample instant. -/
structure Eval where
  loop : LoopRef
  rail : Fin 64
  instant : Nat
  deadline : Nat
  mode : EvalMode
  /-- The carrier period from which the result takes effect, and that of the period evaluated. -/
  useFrom : Nat
  carrier : Nat
  /-- imeas of an inner evaluation (Q1.31); v of an outer one (set-point LSB). -/
  input : Int
  /-- The target of an outer evaluation; the dem in force of an inner one. -/
  target : Int
  vinFf : Nat
  coefs : Bank 8 Coef
  template : Bool
  ff : Bool
  /-- The acceleration track value read when the evaluation started (R192), and the lookup time. -/
  lookup : Word
  acc : Int
  share : Nat
  limit : Int
  lo : Int
  hi : Int
deriving DecidableEq, Repr

/-- A FIXED result that waits for its release (R168). -/
structure Waited where
  loop : LoopRef
  rail : Fin 64
  instant : Nat
  useFrom : Nat
  value : Int
deriving DecidableEq, Repr

/-- LOOP[r] (Tables 6-7 to 6-11) and the outer loop's state. -/
structure LoopSt where
  useInexact : Bool
  /-- Recent changes of mode, newest first: TIME at the change and the mode before it (R169, R170). -/
  modeLog : List (Nat × Option EvalMode)
  /-- Recent changes of section, newest first: TIME at the change and the section before it (R79, R180). -/
  sectLog : List (Nat × RailSect)
  diverged : Bool
  stale : Bool
  ovrRun : Byte
  staleRun : Byte
  innerOvr : BitVec 16
  outerOvr : BitVec 16
  missing : BitVec 16
  inexact : BitVec 16
  satOut : BitVec 16
  satAcc : BitVec 16
  coefSeq : BitVec 16
  slack : BitVec 16
  intStatus : BitVec 5
  intEnable : BitVec 5
  target : BitVec 20
  vfb : BitVec 20
  vin : BitVec 20
  dem : Int
  hi : Int
  lo : Int
  outer : Bank 8 Coef
  inner : Bank 8 Coef
  e1 : Int
  e2 : Int
  e3 : Int
  y1 : Int
  y2 : Int
  y3 : Int
  /-- W and Lmin fixed at the last boundary (R165): W in weight units, Lmin in mA. -/
  w : Nat
  lmin : Nat
  /-- An overrun was detected in the present carrier period (R174). -/
  ovrNow : Bool
  /-- Outer outputs, newest first, with the carrier period from which each is dem (R166). -/
  demNext : List (Nat × Int)
  /-- Recent changes of coefficients, newest first: the instant of arrival, outer loop or inner, index, the value before and
  the value after (R180, R182). -/
  coefLog : List (Nat × Bool × Fin 8 × Coef × Coef)
  /-- The outer history is preset again once the coming boundary has fixed the limits (R82, R186). -/
  presetDue : Bool
  /-- The preset duty of the last start (R178). -/
  preset : Nat
  /-- Sample instants of the last released outer result (R168). -/
  lastRelease : Option Nat
deriving DecidableEq, Repr

/-- LE.FF[r] (Table 7-6). -/
structure FeedFwd where
  accLead : BitVec 11
  vinLo : BitVec 20
  vinHi : BitVec 20
  acc : Int
deriving DecidableEq, Repr

/-- LE global registers (Tables 6-12, 6-13), the window, the admission queue, the slices and waiting results. -/
structure Engine where
  windowHw : Byte
  queueHw : BitVec 11
  evals : Word
  ovrTotal : Word
  minSlack : BitVec 16
  minRail : BitVec 6
  ecc : BitVec 16
  ovrRails : BitVec 64
  window : List Eval
  queue : List Eval
  slices : Bank 8 (Option Eval)
  results : List Waited
  loops : Bank 64 LoopSt
  ffs : Bank 64 FeedFwd
  /-- The newest VSENSE code of each input (R442). -/
  vsense : Bank 8 (Option (BitVec 16))
deriving DecidableEq, Repr

/-! ### Relay auto-tune -/

/-- A run in progress (R195 to R199). -/
structure TuneRun where
  rail : Fin 64
  inner : Bool
  rule : BitVec 2
  start : Nat
  /-- The run waits for its first sample instant. -/
  waiting : Bool
  target : Int
  first : Bool
  high : Bool
  /-- Bias of LOOP 0 in mA × 128; of LOOP 1, per phase of the rail, in duty units. -/
  bias : Int
  biases : List (Fin 512 × Int)
  maxMeas : Int
  minMeas : Int
  /-- Instant of the last rising switch, when one has come. -/
  lastRise : Option Nat
  /-- Sample instants of the half cycle in progress, that of its switch among them. -/
  half : Nat
  cycles : List (Nat × Int)
  done : Nat
deriving DecidableEq, Repr

/-- The auto-tune registers (Tables 7-7 to 7-10). -/
structure Tune where
  h : BitVec 16
  eps : BitVec 16
  devMax : BitVec 16
  settle : BitVec 4
  cycles : BitVec 4
  halfMax : BitVec 16
  runMax : BitVec 16
  short : Bool
  noint : Bool
  ignored : Bool
  check : BitVec 4
  result : Byte
  cycle : BitVec 4
  loop : Bool
  rail : Fin 64
  tu : Word
  amp : Word
  spread : Word
  ku : Coef
  b0 : Coef
  b1 : Coef
  run : Option TuneRun
deriving DecidableEq, Repr

end Sys2Proof.Machine
end

