-- ==== Sys2Proof/Machine/RailRec.lean ====
section
/-! DEFINITION. Records of the rail manager (spec 08_rails.md) and of protection, housekeeping and thermal
management (11_protection_thermal.md). -/

namespace Sys2Proof.Machine

/-- Rail states (Table 8-5). -/
inductive RailState where
  | off
  | armed
  | precharge
  | ramp
  | regulate
  | hold
  | fault
  | safe
deriving DecidableEq, Repr

/-- Cause codes (Table 8-3). -/
inductive RailCause where
  | none
  | overrun
  | stale
  | capacity
  | phases
  | pmFault
  | pmSafe
  | rampTimeout
  | holdTimeout
  | novin
  | hostStop
  | quadrant
deriving DecidableEq, Repr

/-- The steps of an addition record (R224). -/
inductive AddStep where
  | chosen
  | biased
  | joined
deriving DecidableEq, Repr

/-- An addition record (R224): the ledger entry, the phase and the step. -/
structure AddRecord where
  entry : Fin 128
  phase : Fin 512
  step : AddStep
deriving DecidableEq, Repr

/-- A warming that has started (R223): its entry, the join instant tj in device microseconds, and the phases whose records it
joins. A reversal that asks for more phases adds a warming of its own (R226). -/
structure Warming where
  entry : Fin 128
  tj : Word
  phases : List (Fin 512)
deriving DecidableEq, Repr

/-- A leave that an unwind has decided, for the next boundary that the unwind has not used (R227). -/
structure UnwindLeave where
  phase : Fin 512
deriving DecidableEq, Repr

/-- An active partner voltage request (R215). -/
structure VRequest where
  handle : Fin 256
  value : Nat
  renewed : Nat
deriving DecidableEq, Repr

/-- A start measurement in progress (R207): the phases that got BIAS, with their MEAS, and its start. -/
structure StartMeas where
  start : Nat
  phases : List (Fin 512)
  got : List (Fin 512 × MeasView)
deriving DecidableEq, Repr

/-- The result of a finished start measurement that waits for the rail's next boundary (R207 step 5). -/
structure StartReady where
  v0 : Nat
  d0 : Nat
  vin : Nat
deriving DecidableEq, Repr

/-- A RETIRE in progress (R219). -/
structure Retiring where
  phase : Fin 512
  pos : Fin 128
  /-- The leave has been decided. -/
  leaving : Bool
deriving DecidableEq, Repr

/-- RAIL[r] settings that the host writes (Tables 8-8 to 8-10). -/
structure RailCfg where
  vset : BitVec 20
  vnext : BitVec 20
  qvalid : Bool
  winLo : BitVec 20
  winHi : BitVec 20
  vreqEn : Bool
  reqTtl : Byte
  vinRatio : BitVec 16
  pgWin : BitVec 16
  pgCount : BitVec 4
  holdMax : BitVec 12
  rampMax : BitVec 12
  retryMax : BitVec 4
  retryDelay : BitVec 12
  retake : Bool
  kindleEn : Bool
  shedEn : Bool
deriving DecidableEq, Repr

/-- RAIL[r] (Tables 8-5 to 8-12) and what the rail manager keeps for the rail. -/
structure Rail where
  cfg : RailCfg
  state : RailState
  cause : RailCause
  stopping : Bool
  retries : BitVec 4
  cmdBusy : Bool
  cmdResult : Byte
  cmdPos : BitVec 7
  /-- The ramp, in 10 µV units. -/
  ramp : Nat
  ilimNow : BitVec 16
  d0 : BitVec 16
  tripped : List (Fin 512)
  sheds : Byte
  adds : Byte
  warms : Byte
  unwinds : Byte
  intStatus : BitVec 7
  intEnable : BitVec 7
  requests : List VRequest
  /-- T-tick of entry to PRECHARGE, HOLD, FAULT and REGULATE. -/
  since : Nat
  rampSince : Nat
  /-- Outer sample instants since entry to PRECHARGE. -/
  instants : Nat
  /-- Runs of instants within PG_WIN (RAMP) or clean (HOLD). -/
  goodRun : Nat
  /-- The shedding dwell in T-ticks. -/
  dwell : Nat
  /-- Addition records, newest first, warmings in progress, and unwind leaves still to decide. -/
  stack : List AddRecord
  warming : List Warming
  unwinding : List UnwindLeave
  /-- Entries that have reached DONE, whose records the next boundary releases (R225). -/
  ended : List (Fin 128)
  meas : Option StartMeas
  ready : Option StartReady
  retiring : List Retiring
deriving DecidableEq, Repr

/-! ### Protection matrix -/

/-- The state of one protection entry: its counts, source and latch (R284, R286). -/
structure ProtSt where
  count : Nat
  active : Bool
  latch : Bool
deriving DecidableEq, Repr

/-- The protection matrix (Tables 11-7 to 11-11). -/
structure Protect where
  phOcPct : Byte
  railOcPct : Byte
  fCount : BitVec 4
  ocCount : BitVec 4
  vCount : BitVec 4
  vsCount : BitVec 4
  fltMode : Byte
  fltForce : Byte
  intStatus : BitVec 3
  intEnable : BitVec 3
  first : Option (Fin 256)
  firstTime : Word
  trips : Word
  implicit : Bool
  entries : List ProtEntry
  st : List ProtSt
  /-- Per slot: F = 1 cells in a row and samples above the threshold in a row (SOURCE 1). -/
  fRun : Bank 512 Nat
  ocRun : Bank 512 Nat
  /-- A latch clear was refused while its source was set (R288): entries waiting for CLEARABLE. -/
  refusedClear : List Nat
  /-- Clock loss holds FLT_N low (R33). -/
  clockLoss : Bool
deriving DecidableEq, Repr

/-! ### Housekeeping and thermal -/

/-- One threshold of a channel: its set bit and counters (R295). -/
structure Threshold where
  set : Bool
  up : Nat
  dn : Nat
deriving DecidableEq, Repr

/-- HKT.CH[n] (Table 11-16) and the channel's counters. -/
structure Channel where
  value : Int
  level : Fin 4
  rate : Bool
  suspect : Bool
  failed : Bool
  idle : Bool
  subst : Bool
  warns : Byte
  throttles : Byte
  shutdowns : Byte
  invalids : Byte
  t1 : Threshold
  t2 : Threshold
  t3 : Threshold
  bad : Nat
  hist : List Int
  rateUp : Nat
  rateDn : Nat
  susUp : Nat
  susDn : Nat
  /-- The value captured at the round start: none when invalid; and whether the channel was idle then. -/
  captured : Option Int
  capIdle : Bool
deriving DecidableEq, Repr

/-- HKT.RAIL[r] (Table 11-15) and the throttle counters of R301. -/
structure Throttle where
  step : Nat
  exhausted : Bool
  demand : Bool
  ch : Fin 96
  wait : Nat
  calm : Nat
deriving DecidableEq, Repr

/-- HKT.DIE[k] and its history (Table 11-13, R303, R306). -/
structure Die where
  temp : BitVec 16
  valid : Bool
  /-- Consecutive samples at +130 °C or more, and samples below +115 °C in a row, up to 100. -/
  hotRun : Nat
  coolRun : Nat
deriving DecidableEq, Repr

/-- A thermistor input (Table 11-13). -/
structure Thermistor where
  r25 : Word
  rb : Word
  beta : BitVec 16
  code : BitVec 12
deriving DecidableEq, Repr

/-- Housekeeping and thermal (Tables 11-12 to 11-16). -/
structure Housekeeping where
  steps : BitVec 4
  stepPct : Byte
  stepRounds : Byte
  relaxRounds : Byte
  xdev : BitVec 12
  rounds : Word
  intStatus : Byte
  intEnable : Byte
  tsd : Bool
  tsdCount : BitVec 16
  tsdLost : Byte
  tsdCause : BitVec 2
  tsdTime : Word
  storeWin : Bool
  /-- No on-die sample has been taken since reset. -/
  firstSample : Bool
  jmax : BitVec 16
  /-- Since when JMAX has stayed within the range that opens the window. -/
  inRange : Option Nat
  dies : Bank 8 Die
  thms : Bank 4 Thermistor
  supMv : Bank 4 (BitVec 16)
  supUv : Bank 4 (BitVec 24)
  /-- A round is being evaluated, and the on-die readings captured at its start. -/
  inRound : Bool
  chans : Bank 96 Channel
  rails : Bank 64 Throttle
  /-- The shutdown record waits to be written (R305): its payload. -/
  shutdown : Option (List Byte)
deriving DecidableEq, Repr

end Sys2Proof.Machine
end

