-- ==== Sys2Proof/Machine/HearthRec.lean ====
section
/-! DEFINITION. Records of the energy scheduler Hearth (spec 09_hearth.md) and of the partner ports
(10_partner_bus.md). A tick is a Nat: tick n falls at TIME = 800,000 × n (R231). -/

namespace Sys2Proof.Machine

/-! ### Hearth -/

/-- Ledger entry states (Table 9-13). -/
inductive LedState where
  | free
  | queued
  | planned
  | granted
  | active
  | done
  | squashed
  | revoked
deriving DecidableEq, Repr

/-- Entry reasons (Table 9-15). -/
inductive LedReason where
  | none
  | cancel
  | left
  | window
  | budget
  | timeout
  | busy
  | nofit
  | reverseCut
deriving DecidableEq, Repr

/-- A profile segment as the ledger holds it (R234): ms, mW and mA. -/
structure Seg where
  dur : Nat
  power : Nat
  acc : BitVec 16
deriving DecidableEq, Repr

/-- A ledger entry (Table 9-13). Ticks stand for their device microseconds. -/
structure Entry where
  state : LedState
  cls : Fin 3
  handle : Fin 256
  rail : Option (Fin 64)
  reason : LedReason
  /-- e and l of R235, and the latest start as a tick, from which l is formed again under new bounds (R86). -/
  early : Nat
  last : Nat
  latest : Nat
  start : Option Nat
  /-- The first tick of the segments held: START, or FROM after a reversal (R239). -/
  first : Nat
  segs : List Seg
  opSeq : Word
  tag : Byte
  /-- Order of intake (R244) and of planning (R246). -/
  order : Nat
  plannedOrder : Nat
  /-- Tick in which the entry ended. -/
  endedAt : Nat
  /-- The start that the last DEFER announced (R271). -/
  deferred : Option Nat
  /-- Kindling's conditions held when the entry reached GRANTED (R222). -/
  kindle : Bool
  /-- Kindling's warm start of the entry has come (R223, R226). -/
  warmed : Bool
deriving DecidableEq, Repr

/-- A run of equal charges to the horizon (R232): the power that an entry puts on the bins from a tick up to another. The
sums COMMITTED and PLANNED of a bin are the sums over the charges of each kind that cover it. -/
structure Charge where
  entry : Fin 128
  start : Nat
  stop : Nat
  power : Nat
  planned : Bool
deriving DecidableEq, Repr

/-- A request that awaits intake (R234). -/
structure Request where
  handle : Fin 256
  tag : Byte
  cls : Fin 3
  unit : BitVec 16
  earliest : Word
  latest : Word
  segs : List Seg
deriving DecidableEq, Repr

/-- The scheduler (Tables 9-11, 9-12 and 9-14). -/
structure Hearth where
  supOk : Bool
  mode : Fin 3
  overdraw : Bool
  shareLive : Bool
  tick : Nat
  /-- The tick whose steps were run last, if any. -/
  ranTick : Option Nat
  commitLead : Byte
  baseWin : Byte
  margin : Word
  storPmax : Word
  feed : Nat
  base : Nat
  avail : Nat
  storS : Nat
  storE : Nat
  opSeq : Word
  grants : Byte
  revokes : Byte
  squashes : Byte
  invalids : Byte
  intStatus : BitVec 7
  intEnable : BitVec 7
  binSel : BitVec 11
  planStart : Word
  planResult : Byte
  segEntry : BitVec 7
  seg : BitVec 3
  railCap : Bank 64 Nat
  pause : Bank 64 Nat
  exhausted : Bank 64 Bool
  /-- The tick at which the scheduler takes each rail's last EXHAUSTED report or clear, and from which it counts every 100th
  tick; and the reports that wait for that tick (R241, R247). -/
  pauseFrom : Bank 64 Nat
  pauseDue : Bank 64 Bool
  ledger : Bank 128 Entry
  charges : List Charge
  requests : List Request
  /-- Base loads of the last 255 ticks, the longest BASE_WIN, newest first (Table 9-6). -/
  baseHist : List Nat
  order : Nat
  /-- K(r) and p(r) as the planner's last pass saw them (R244). -/
  lastCap : Bank 64 Nat
  lastPause : Bank 64 Nat
  /-- T-tick of the last HS.HEARTBEAT write, and whether one has come since start-up (R243, R254). -/
  heartbeat : Option Nat
  everRan : Bool
deriving DecidableEq, Repr

/-- The ring link (R248 to R251). -/
structure RingLink where
  frames : Byte
  errors : Byte
  share : Word
  nextEpoch : BitVec 48
  /-- T-tick of the last share (a member) or of the last returned frame (position 0). -/
  heardAt : Option Nat
  /-- Shares that position 0 sends next; the share in force as F, and the one that the next tick takes, with the epoch in
  which its frame arrived (R251). -/
  shares : Bank 8 Word
  shareNow : Option Word
  shareNext : Option (Nat × Word)
  /-- A loss of the share is on record (R254). -/
  lost : Bool
  /-- The last frame for RLKOUT, whether it still waits to start, and the transmitter of that pair (R248). -/
  out : List Byte
  unsent : Bool
  line : LineTx
deriving DecidableEq, Repr

/-! ### Partner ports -/

/-- A frame in a transmit queue (R276). `start` is the START of a GRANT. The bit rate switch and the error state indicator of a
frame that has started are those of its controller then (Table 10-1). -/
structure TxFrame where
  id : BitVec 29
  payload : List Byte
  queued : Nat
  started : Bool
  start : Option Word
  sync : Bool
  brs : Bool
  esi : Bool
deriving DecidableEq, Repr

/-- An item of a handle's recent-TAG memory (R272): TAG, ENTRY, and identifier and payload of the last frame sent. -/
structure TagMem where
  tag : Byte
  entry : Byte
  id : BitVec 29
  payload : List Byte
deriving DecidableEq, Repr

/-- Error state of a CAN FD controller (Table 10-13). -/
inductive CanState where
  | disabled
  | active
  | passive
  | busOff
deriving DecidableEq, Repr

/-- PP.BUS[b] (Tables 10-12, 10-13) with its transmit queue. -/
structure CanBus where
  en : Bool
  brs : Bool
  listen : Bool
  nbt : Word
  dbt : Word
  tdco : Byte
  tdcEn : Bool
  state : CanState
  recovering : Bool
  tecCount : Byte
  recCount : Byte
  lec : BitVec 3
  rx : Word
  tx : Word
  busOffs : BitVec 16
  passives : BitVec 16
  syncSof : Word
  /-- SEQ of the next SYNC, and whether the SYNC before it was sent. -/
  prevSent : Bool
  queue : List TxFrame
deriving DecidableEq, Repr

/-- PARTNER[h] (Table 10-14) and the handle's memory. -/
structure Partner where
  held : Bool
  home : Bool
  listed : Bool
  ceil : Fin 3
  vreqOk : Bool
  rail : Option (Fin 64)
  unit : BitVec 16
  nonce : Word
  joined : Word
  lastRx : Word
  /-- T-tick from which the lease runs. -/
  leaseFrom : Nat
  frames : Byte
  refusals : Byte
  peakMax : Nat
  tags : List TagMem
  /-- Holdoff: since when, for which unit (R268). -/
  holdoff : Option (Nat × BitVec 16)
deriving DecidableEq, Repr

/-- The partner ports (Tables 10-9 to 10-14). -/
structure Ports where
  node : BitVec 4
  both : Bool
  autoRecover : Bool
  maxOpen : BitVec 4
  htgen : BitVec 4
  lease : BitVec 16
  holdoff : BitVec 16
  joins : Byte
  leaves : Byte
  expiries : Byte
  takeovers : Byte
  fulls : BitVec 16
  discards : BitVec 16
  syncDropA : Byte
  syncDropB : Byte
  txDrops : BitVec 16
  intStatus : BitVec 9
  intEnable : BitVec 9
  seq : Byte
  buses : Bank 2 CanBus
  partners : Bank 256 Partner
  /-- LEAVEs that wait for the supervisor (R279). -/
  leavesWaiting : List (Fin 256 × BitVec 16)
  /-- T-tick of the last supervisor start (R269). -/
  supStart : Nat
deriving DecidableEq, Repr

end Sys2Proof.Machine
end

