-- ==== Sys2Proof/Machine/PortRec.lean ====
section
/-! DEFINITION. Records of the host port, the hold registers and ABORT (spec 00_scope.md R9,
12_host_port.md) and of the two-wire port (13_two_wire_port.md). -/

namespace Sys2Proof.Machine

/-- A hold register: the word address of the low word and the word held (R9). -/
abbrev Hold := Option (Addr × Word)

/-- An access that waits on a stopped clock (R45, R317, R335): the words still to be made, the head one hanging, and what it
has done so far. -/
structure PendingAccess where
  write : Bool
  /-- The address of each word, with the word of a write. -/
  todo : List (Addr × Option Word)
  /-- The words read, in order, and the status bits of the words made. -/
  got : List Word
  status : Byte
  /-- Header bytes of the frame, for the RCRC of its result (R314); on the two-wire port the bytes before the data, for the
  PEC (R334). -/
  header : List Byte
  /-- The level with which the access started (R353), as its rank. -/
  level : Nat
  /-- CS_N has risen (R317), or the longest stretch has passed (R335): the result is to be held. -/
  cut : Bool
deriving DecidableEq, Repr

/-- One access port: its hold registers and its pending access (R9, R317, R335), and what its last access by word
delivered: the word read and the status (Table 12-3). -/
structure PortState where
  readHold : Hold
  writeHold : Hold
  pending : Option PendingAccess
  data : Word
  status : Byte
deriving DecidableEq, Repr

/-- A response on MISO after the token (R314): the body, STATUS and RCRC. -/
structure Response where
  body : List Byte
  status : Byte
  rcrc : Byte
deriving DecidableEq, Repr

/-- Abort results (Table 12-12). -/
inductive AbortResult where
  | none
  | aborted
  | idle
  | completed
  | denied
  | badFunc
deriving DecidableEq, Repr

/-- An ABORT in flight (R322 to R324): its function and index, what it decided and when. -/
structure AbortFlight where
  func : Byte
  index : Byte
  result : AbortResult
  start : Nat
  /-- The port with whose ABORT it ends: its own, or the one whose ABORT it joins or that absorbs it (R323). -/
  leader : Port
  /-- The functions that it aborts, by FUNC and INDEX. -/
  funcs : List (Byte × Byte)
  /-- The ABORTs of its own port that it absorbed (R323, R324). -/
  absorbed : List (Byte × Byte)
deriving DecidableEq, Repr

/-- The host port's registers (Tables 12-9 to 12-12) and its last responses. -/
structure HostPort where
  held : Option Response
  lastWrite : Bool
  lastErr : Bool
  lastStatus : Byte
  lastAddr : Addr
  crcErrs : Byte
  badCmds : Byte
  cuts : Byte
  releases : Byte
  irqMask : BitVec 17
  evt : BitVec 5
  evtEn : BitVec 5
  /-- ABORT in flight of each port. -/
  flights : Bank 3 (Option AbortFlight)
  abortDone : Bool
  abortPort : Port
  abortResult : AbortResult
  abortFunc : Byte
  abortIndex : Byte
  abortElapsed : BitVec 16
  /-- The functions in progress at the start of the present BCLK cycle (R323). -/
  busyFuncs : List (Byte × Byte)
  /-- The answer of the last frame: PSTAT, and the response if one was sent (R314). -/
  pstat : Byte
  response : Option Response
deriving DecidableEq, Repr

/-- Poll results (Table 13-3). -/
inductive PollResult where
  | none
  | ok
  | nackAddr
  | nackData
  | pec
  | arb
  | busErr
  | timeout
  | aborted
  | stuck
  | busyLate
deriving DecidableEq, Repr

/-- TWP.PER[e] (Table 13-9) and the last value of the entry. -/
structure PerStatus where
  result : PollResult
  fails : Byte
  oks : BitVec 16
  lastOk : Word
  /-- T-tick of the last value (R293). -/
  okAt : Option Nat
  value : List Byte
  due : Bool
  /-- The device microsecond at which the entry last fell due (R339). -/
  dueAt : Option Nat
  attempts : Nat
deriving DecidableEq, Repr

/-- A recovery of the bus in progress (R343). -/
structure Recovery where
  /-- The pulse after which SDA is high, if there is one. -/
  freedAt : Option (Fin 9)
  /-- The entry whose poll needs the bus. -/
  entry : Option (Fin 32)
  /-- T-tick at which its last pulse, or its STOP, is over. -/
  endsAt : Nat
deriving DecidableEq, Repr

/-- The two-wire port (Tables 13-5 to 13-9). -/
structure TwoWire where
  en : Bool
  pecT : Bool
  araEn : Bool
  smbTo : Bool
  pollEn : Bool
  stretchMax : Byte
  busBusy : Bool
  recovery : Option Recovery
  /-- A RECOVER that came while a poll runs, with how SDA answers it. -/
  recoverAsked : Option (Option (Fin 9))
  sdaStuck : Bool
  sclStuck : Bool
  alertAcked : Bool
  /-- IRQ_SUM AND ALERT_MASK at the acknowledged response (R338). -/
  ackedSum : BitVec 17
  lastStatus : Byte
  lastAddr : Addr
  tlow : BitVec 16
  thigh : BitVec 16
  tsudat : Byte
  thddat : Byte
  speed : BitVec 2
  ownAddr : BitVec 7
  arbLost : Byte
  busErrs : Byte
  recoveries : Byte
  recoverFails : Byte
  pageDiscards : Byte
  partialWords : Byte
  pecErrs : Byte
  timeouts : Byte
  intStatus : BitVec 7
  intEnable : BitVec 7
  alertMask : BitVec 17
  psel : BitVec 5
  per : Bank 32 PerStatus
  pointer : Addr
  /-- The entry whose poll is in progress, waiting for its outcome or for the bus. -/
  polling : Option (Fin 32)
  /-- Since when a failed recovery waits (R343). -/
  retryFrom : Option Nat
  /-- The bytes that the last target read sent, or the address byte of the last alert response. -/
  sent : List Byte
  /-- Did the device acknowledge its address in the last target transaction. -/
  acked : Bool
deriving DecidableEq, Repr

end Sys2Proof.Machine
end

