-- ==== Sys2Proof/Machine/StoreRec.lean ====
section
/-! DEFINITION. Records of the session guard, life cycle, debug, power and firmware (spec
14_security_lifecycle.md), of the on-chip store (15_on_chip_store.md), and of the event recorder and archive
(16_ash_and_bog.md). -/

namespace Sys2Proof.Machine

/-! ### Session guard, debug, power, firmware -/

/-- Session states (Table 14-11). -/
inductive SessionState where
  | closed
  | challenged
  | opened
deriving DecidableEq, Repr

/-- SG.PORT[p] (Table 14-11). -/
structure Session where
  state : SessionState
  level : BitVec 2
  result : Byte
  fails : BitVec 3
  lockouts : BitVec 4
  /-- Device microsecond (extended) at which a lockout ends. -/
  lockedUntil : Option Nat
  idle : BitVec 12
  ctr : Word
  chal : List Byte
  resp : Bank 8 Word
  dproof : List Byte
  /-- Device microsecond (extended) of the last access from the port (R353): it runs on in STANDBY. -/
  lastUse : Nat
  /-- An OPEN at this level waits for the next block of CTR (R355). -/
  opening : Option (BitVec 2)
  /-- A failed PROVE waits for its counts to be written (R355). -/
  failPending : Bool
deriving DecidableEq, Repr

/-- Debug authorisation (R359). -/
inductive DebugAuth where
  | none
  | read
  | full
deriving DecidableEq, Repr

/-- Life-cycle states (Table 14-13). -/
inductive LifeCycle where
  | blank
  | commission
  | service
  | maintain
  | retired
  | returned
deriving DecidableEq, Repr

/-- A key as the key cache holds it (R350). -/
structure KeySlot where
  gen : Word
  key : List Byte
deriving DecidableEq, Repr

/-- The session guard (Tables 14-11 to 14-14). -/
structure Guard where
  ports : Bank 3 Session
  lc : LifeCycle
  lcPending : Bool
  lcResult : Byte
  /-- A life-cycle or key command is in progress. -/
  busy : Bool
  kcv : Word
  keydata : Bank 8 Word
  keys : Bank 5 (Option KeySlot)
  keysLoaded : Bool
  auth : DebugAuth
  bscan : Bool
  /-- The instruction register of the TAP (R447). -/
  tapIr : BitVec 6
  /-- The NONCE and CTR of the last DBG_CHAL. -/
  dbgNonce : List Byte
  dbgCtr : Word
  /-- A DBG_CHAL waits for the next block of CTR. -/
  dbgOpening : Bool
  /-- A failed DBG_TOKEN of this SCOPE waits for its counts to be written (R355, R359). -/
  dbgFailing : Option (BitVec 2)
  intStatus : BitVec 6
  intEnable : BitVec 6
  /-- The next CTR and the end of the reserved block (R355). -/
  ctrNext : Word
  ctrEnd : Word
deriving DecidableEq, Repr

/-- Device power states (Table 14-15). -/
inductive PowerMode where
  | run
  | trim
  | standby
deriving DecidableEq, Repr

/-- The power registers (Table 14-15). -/
structure Power where
  mode : PowerMode
  smoulder : Bank 4 Bool
  /-- A quadrant entering SMOULDER waits until no phase is placed there, since that T-tick. -/
  entering : Bank 4 (Option Nat)
  qoff : Bank 4 Bool
  result : Byte
  wakeA : Bool
  wakeB : Bool
  cause : BitVec 3
  /-- The device wakes at the next device microsecond, with that cause (R139, R364). -/
  waking : Option Nat
deriving DecidableEq, Repr

/-- The operation of the code flash in progress (R367). -/
inductive FwOp where
  | erase (s : Fin 2)
  | seal (s : Fin 2)
deriving DecidableEq, Repr

/-- The supervisor and its firmware update (Tables 14-16, 14-17, R366 to R368). -/
structure Firmware where
  busy : Bool
  op : Option FwOp
  running : Fin 2
  nosup : Bool
  result : Byte
  /-- Device microsecond (extended) at which the trial started. -/
  trialAt : Option Nat
  dataAddr : BitVec 20
  trialTime : BitVec 16
  fillSlot : Option (Fin 2)
  /-- The supervisor is held in reset or halted by the debug port. -/
  supReset : Bool
  supHalted : Bool
  /-- The supervisor's data RAM as the debug window has written it (R359). -/
  supRam : List (Nat × Word)
  /-- A write of the supervisor that hangs on a stopped clock (R45): its address and word. -/
  hung : Option (Addr × Word)
deriving DecidableEq, Repr

/-- A slot of the code flash: its state record and its bytes, listed where not 0xFF. -/
structure CodeSlot where
  phase : SlotPhase
  version : Word
  svn : Word
  bytes : List Host.Cell
  /-- The package that the part was shipped with (R1): its bytes are not in the spec, and it passes its checks. -/
  shipped : Bool
deriving DecidableEq, Repr

/-! ### On-chip store -/

/-- What the end of a store job completes. -/
inductive StoreTag where
  | none
  /-- An image slot's state record is written: its phase, GENERATION and IMAGE_LEN. -/
  | slotState (s : Fin 2) (p : SlotPhase) (gen : Word) (len : Nat)
  /-- The bytes of an IMG.DATA write are in the slot. -/
  | imageData
  /-- The record EMPTY is written and the slot's sectors are erased (R77). -/
  | imageErase (s : Fin 2)
  | cal (g : Fin 512)
  | key (t : Fin 5) (gen : Word) (key : List Byte)
  /-- A LIFECYCLE record with its PENDING mask is written: the change takes effect (R357). -/
  | lifecycle (lc : LifeCycle) (pending : Word)
  | user (block : Fin 128)
  | protect (level : BitVec 2)
  | port (p : Port)
  | event (seq : Word)
  | permanent
  | shutdown
  /-- COPIED of the shutdown record at a chunk address is programmed (R391). -/
  | copied
  /-- CLEARED is written: the clear is committed (R415). -/
  | cleared (seq : Word)
  | counter (k : Fin 16)
  /-- An erase under R383 has ended; the sector is the ready one of its region. -/
  | erased (sector : Fin 128)
  /-- A wipe of a region is done; these of its logical sectors are erased (R357). -/
  | wiped (r : Fin 11) (ls : List (Fin 128))
  /-- The doubt list's locations have been voided (R390). -/
  | voided (locs : List Nat)
  /-- The records of a worn sector are copied (R394). -/
  | moved (sector : Fin 128)
deriving DecidableEq, Repr

/-- Priority of a store operation (R392). -/
inductive StorePrio where
  | recovery
  | shutdown
  | marks
  | counter
  /-- A counter program that was queued before PFAIL_N fell (R389). -/
  | counterKept
  | record
  | upkeep
deriving DecidableEq, Repr

/-- A program of one chunk: the address of its first byte and the bytes supplied; 0xFF leaves a byte as it is (R373). -/
structure ChunkProg where
  addr : Nat
  bytes : List Byte
deriving DecidableEq, Repr

/-- A record to write (R378): its kind, key and body, the region that it goes into, and for a SECTOR_HDR the
physical sector. -/
structure RecordReq where
  kind : Nat
  key : BitVec 64
  subkey : Byte
  body : List Byte
  region : Fin 11
  sector : Option (Fin 128)
deriving DecidableEq, Repr

/-- One step of a store job. -/
inductive JobStep where
  /-- A record that has no location yet. -/
  | record (r : RecordReq)
  /-- The body program of a placed record: the chunks left, the head one in progress. -/
  | body (chunks : List ChunkProg) (mark : ChunkProg) (r : RecordReq)
  | mark (m : ChunkProg) (r : RecordReq)
  /-- Programs of bytes that are no record: image data, counter cells, VOID, COMMIT and COPIED. -/
  | bytes (chunks : List ChunkProg)
  /-- A counter change that has no location yet: an increment, or a CARRY with a new BASE (R386). -/
  | counter (k : Fin 16) (raise : Option Nat)
  /-- The erase of a physical sector, with the repeats left; `begun` says that it has started and was stopped. -/
  | erase (sector : Fin 128) (tries : Nat) (begun : Bool)
  /-- The records of a physical sector that still hold a value, each to be written anew (R384). -/
  | compact (sector : Fin 128)
deriving DecidableEq, Repr

/-- A job of the store: its steps in order, its priority and what its end completes. -/
structure Job where
  steps : List JobStep
  prio : StorePrio
  tag : StoreTag
  /-- Started by a host command (R390). -/
  host : Bool
deriving DecidableEq, Repr

/-- The persistent memories (R34, R372, Table 14-8): flash bytes listed where not erased, in rising order; the
bytes that an interrupted program left open and the sectors that an interrupted erase did; worn sectors; the code
flash and its state records. -/
structure NonVol where
  flash : List Host.Cell
  partials : List Nat
  /-- Of the interrupted bytes, those whose bits had not begun to move: margin reads find them erased (R375, R387). -/
  unmoved : List Nat
  /-- Chunk programs interrupted so far: the model's own count, to which the margins of their bytes are applied. -/
  interrupts : Nat
  cut : List (Fin 128)
  worn : List (Fin 128)
  /-- Worn sectors whose records are not yet all copied into the replacement, with their region (R394). -/
  moving : List (Fin 128 × Fin 11)
  code : Bank 2 CodeSlot
deriving DecidableEq, Repr

/-- The store's registers and queue (Tables 15-8 to 15-12). -/
structure Store where
  recovering : Bool
  pfail : Bool
  /-- The job whose first step is in progress, and the jobs that wait, in request order. -/
  current : Option Job
  jobs : List Job
  /-- The locations on the doubt list (R390). -/
  doubt : List Nat
  result : Byte
  cmdBusy : Bool
  bp : BitVec 2
  nextSeq : Word
  seqEnd : Word
  completed : Byte
  voided : Byte
  erases : BitVec 4
  wipes : BitVec 4
  faults : Byte
  intStatus : BitVec 4
  intEnable : BitVec 4
  ubuf : Bank 56 Word
  counters : Bank 16 (BitVec 48)
  /-- Physical sector of each logical sector; none when given up (Table 15-3, MAP). -/
  map : Bank 128 (Option (Fin 128))
  /-- Region of each logical sector (R376, R395). -/
  region : Bank 128 (Fin 11)
  eraseCount : Bank 128 (BitVec 17)
  readonly : BitVec 10
  /-- Logical sectors of each region in use, oldest first, the active one last; and those that are erased. -/
  used : Bank 11 (List (Fin 128))
  erased : Bank 11 (List (Fin 128))
  /-- The next free chunk of the active sector (4 to 64), or its next event record (0 to 120). -/
  next : Bank 11 Nat
  /-- Chunks whose program has failed verification, one in each sector (R394). -/
  failed : List Nat
deriving DecidableEq, Repr

/-! ### Event recorder -/

/-- An event in the queue (R409). -/
structure Event where
  code : Byte
  payload : List Byte
  /-- The event's own number, and the number of the event whose SEQ a REPEATS event carries (R411). -/
  id : Nat
  ref : Option Nat
  /-- TIME, TGEN and UNSET where they are fixed before the write: TIME_SET, and events raised before it (R403, R404). -/
  stamp : Option (BitVec 48 × BitVec 6 × Bool)
  /-- The event holds one of the reserved entries 60 to 63. -/
  spare : Bool
deriving DecidableEq, Repr

/-- A repeat chain (R411): its first occurrence, the repeats counted, and the last of them. -/
structure Chain where
  code : Byte
  payload : List Byte
  first : Nat
  seq : Option Word
  count : Word
  /-- Device microsecond of the last occurrence, and its calendar time. -/
  last : Nat
  lastCal : BitVec 48
deriving DecidableEq, Repr

/-- The recorder (Tables 16-6, 16-7). -/
structure Recorder where
  queue : List Event
  chains : List Chain
  nextId : Nat
  seqEnd : Bool
  permRo : Bool
  bogOnly : Bool
  unset : Bool
  clearing : Bool
  pfail : Bool
  tgen : BitVec 6
  head : Word
  tail : Word
  permUsed : BitVec 10
  permCount : Nat
  sectors : Byte
  dropped : BitVec 16
  repeats : BitVec 16
  pendDrop : Word
  firstDrop : BitVec 48
  lastDrop : BitVec 48
  timeNew : BitVec 48
  busy : Bool
  found : Bool
  area : BitVec 3
  result : Byte
  sel : Word
  rd : List Byte
  intStatus : BitVec 4
  intEnable : BitVec 4
  seqNext : Word
  seqLimit : Word
  /-- Record writes still allowed in the present power failure (R412). -/
  pfailLeft : Nat
  /-- Device microsecond of the last fall of PFAIL_N, and for how long it was low before that in this brownout. -/
  pfailAt : Nat
  pfailLow : Nat
  /-- The event being written, its SEQ and its bytes. -/
  writing : Option (Event × Word × List Byte)
  /-- Shutdown records not yet copied (R391): the chunk and the record. -/
  toCopy : List (Nat × List Byte)
  /-- A circulating clear runs: the CLEAR record's SEQ once it is written (R415). -/
  clearAreas : BitVec 4
  clearSeq : Option Word
  /-- PREV_SEQ of the next START (R402). -/
  prevSeq : Word
  /-- START of this start-up has been raised (R402). -/
  started : Bool
deriving DecidableEq, Repr

/-! ### Archive and capture -/

/-- Archive states (Table 16-8). -/
inductive BogState where
  | absent
  | discovering
  | ready
  | foreign
  | detached
  | failed
deriving DecidableEq, Repr

/-- The quad SPI operation in progress. -/
inductive BogOp where
  /-- Discovery, with the state before it. -/
  | discover (was : BogState)
  | format
  | log (records : List (List Byte)) (last : Word) (detach : Bool)
  | capture
  | control
  | readBlock
  | select
deriving DecidableEq, Repr

/-- What a control block that is being written will bring into force (R417). -/
structure BogPlan where
  pct : Nat
  logFloor : Word
  capFloor : Word
  remaps : List Remap
deriving DecidableEq, Repr

/-- The archive (Tables 16-8, 16-9). -/
structure Bog where
  state : BogState
  present : BitVec 2
  cmdBusy : Bool
  result : Byte
  logPct : BitVec 7
  autoformat : Bool
  flush : Byte
  blocks : Bank 2 (BitVec 16)
  mfr : Bank 2 Byte
  quad : Bank 2 Bool
  logBlocks : BitVec 16
  logNominal : BitVec 16
  logHead : Word
  logTail : Word
  logFloor : Word
  capFloor : Word
  capBlocks : BitVec 16
  captures : BitVec 16
  spares : BitVec 16
  worn : BitVec 16
  intStatus : BitVec 5
  intEnable : BitVec 5
  op : Option BogOp
  bseq : Word
  /-- Failures of the block operation in progress (R420). -/
  tries : Nat
  /-- Records waiting for a log block under BOG_ONLY, oldest first, with their T-tick. -/
  buffer : List (List Byte)
  /-- T-tick of the oldest waiting record. -/
  oldest : Option Nat
  remaps : List Remap
  rbuf : List Byte
  /-- The operation that goes on once the control block is written, and whether one is owed for a remap (R420). -/
  resume : Option BogOp
  controlDue : Bool
  /-- LOG_PCT of the control block in force (R417). -/
  pct : Nat
  /-- Parts of each capture held, oldest first (R422). -/
  capParts : List Nat
  /-- What the control block that the operation in progress writes will bring into force. -/
  plan : Option BogPlan
  /-- The blocks that the operation in progress writes, as Table 16-3 lays them out, COMMIT written. -/
  out : List (List Byte)
deriving DecidableEq, Repr

/-- Capture states (Table 16-10). -/
inductive CapState where
  | stopped
  | armed
  | post
  | frozen
deriving DecidableEq, Repr

/-- A capture source (Table 16-4). -/
structure CapSource where
  kind : BitVec 4
  index : BitVec 9
deriving DecidableEq, Repr

/-- Waveform capture (Table 16-10): samples newest first. -/
structure Capture where
  tPm : Bool
  tRail : Bool
  tTsd : Bool
  autoRearm : Bool
  state : CapState
  copying : Bool
  missed : Byte
  channels : BitVec 5
  div : BitVec 16
  len : BitVec 16
  pre : BitVec 16
  lastId : Word
  sources : Bank 16 CapSource
  samples : List (List (BitVec 16))
  postLeft : Nat
  trigSeq : Word
  trigTime : BitVec 48
  trigger : Byte
  trigIndex : BitVec 16
  /-- The frozen buffer waits for its copy to the bog. -/
  copyDue : Bool
  /-- Has the buffer held no sample since it was last wiped, but those of the present capture (R38)? -/
  wiped : Bool
deriving DecidableEq, Repr

end Sys2Proof.Machine
end

