-- ==== Sys2Proof/Machine/State.lean ====
section
/-! DEFINITION. The state of the EH5120 as plain data, its reset values, and the reasons for which a step can
stop. Every reset value is the Reset column of the register's table; a value that the spec does not give is named
in notes/assumptions (2, 3, 4, 5). -/

namespace Sys2Proof.Machine

/-- Faults. The spec gives this block no condition that stops it (R14). -/
inductive Fault where
  /-- Raised by no meaning; it makes the type inhabited. Safe. -/
  | never
deriving DecidableEq, Repr

/-- Refusals. -/
inductive Refusal where
  /-- The command has no meaning yet; raised by exec's arms alone. Safe. -/
  | notModelled (mnemonic : String)
deriving DecidableEq, Repr

/-- Everything that a cold, warm or debug reset can reach. -/
structure Device where
  sys : Sys
  clk : Clk
  pins : Pins
  str : Structure
  img : Image
  lanes : Bank 64 Lane
  slots : Bank 512 Slot
  tbi : Tbi
  phases : Bank 512 Phase
  le : Engine
  tune : Tune
  rails : Bank 64 Rail
  pm : Protect
  hkt : Housekeeping
  hs : Hearth
  ring : RingLink
  pp : Ports
  hsp : HostPort
  ports : Bank 3 PortState
  twp : TwoWire
  sg : Guard
  pwr : Power
  fw : Firmware
  ocs : Store
  er : Recorder
  bog : Bog
  cap : Capture
  /-- The model's own counter of free values drawn (assumption 1); no register shows it. -/
  draws : Nat
deriving DecidableEq, Repr

/-- The state: time, what survives every reset, the device, and the commands that wait, first in, first out. -/
structure State where
  tm : TimeBase
  nv : NonVol
  dev : Device
  pending : List Instr
deriving DecidableEq, Repr

/-! ### Reset values -/

def TimeBase.reset : TimeBase := ⟨0, 0, 0, false, false, 0, 0, 0⟩

def Pins.reset : Pins := ⟨true, true, true, 0, true⟩

/-- Tables 2-11 to 2-14 after a cold reset: RESET_CAUSE.COLD is set. -/
def Sys.reset : Sys where
  step := .filter
  strapMode := false
  slotApplied := 0
  recovered := false
  clamped := false
  stages := 0
  unassigned := false
  pfailWait := false
  pfailAt4 := false
  strap := 0
  cause := 1
  warmCount := 0
  lostEvents := 0
  faults := []
  lockLate := false
  brownout := false
  readyAt := 0

def Clk.reset : Clk where
  pllLock := false
  refOk := false
  roscOnly := true
  trim := false
  qclk := bankFill 4 false
  lclkOn := false
  eclkOn := false
  sclkOn := false
  pllTrying := true
  xdrop := bankFill 16 ⟨0, 0⟩
  quadReset := bankFill 4 none

/-- No DEVICE section has been applied. -/
def DeviceSect.none : DeviceSect where
  feedLimit := 0
  standalone := 0
  ringSize := 1
  ringPos := 0
  smoulder := 0
  storageSrc := .none
  feedSrc := .none
  fgPeriod := bankFill 8 0
  fgEnable := bankFill 8 false
  vsScale := bankFill 8 0
  vsOffset := bankFill 8 0

/-- Nothing in force. -/
def Structure.none : Structure where
  device := ⟨DeviceSect.none, 0⟩
  lanes := .none
  rails := bankFill 64 .none
  protect := .none
  sched := .none
  partners := .none
  hkeep := .none
  periph := .none
  installId := 0

def Image.reset : Image where
  busy := false
  cmd := none
  trialOpen := false
  trialSlot := 0
  restartPending := false
  reportOvf := false
  result := 0
  report := []
  clampTotal := 0
  view := bankFill 2 ⟨.empty, 0, 0⟩
  running := none
  loadRun := 0
  loadTrial := 0
  applyCount := 0
  dataAddr := 0
  fillSlot := none
  railSrc := bankFill 64 ⟨0, false, 0⟩
  waitRail := bankFill 64 none
  waitSched := none
  waitPartners := none
  waitHkeep := none
  waitPeriph := none
  liveOrder := []
  rollbackLeft := []
  lcAfter := none
  storeWait := false
  dataFailed := false

/-- Tables 4-16 to 4-20. -/
def Lane.reset : Lane where
  state := .unused
  mode := 0
  fitted := 0
  attempt := 0
  autoAdmit := true
  disable := false
  errLimit := 8
  delay := 0
  turn := 0
  symErr := 0
  crcErr := 0
  dnErr := 0
  retrains := 0
  losses := 0
  dnLate := 0
  upLate := 0
  vendor := 0
  product := 0
  serial := 0
  proto := 0
  intStatus := 0
  intEnable := 0
  train := none
  dnSeen := none
  errTimes := []
  dnTimes := []
  queue := []
  sending := none
  line := ⟨false, none, 0, [], 0⟩
  sent := 0
  asleep := false
  wokeAt := none
  idleSince := 0
  lossActive := false

def Rating.none : Rating := ⟨0, 0, 0, 0, 0, 0, 0, 0, 0⟩

/-- Tables 4-22 and 4-23. -/
def Slot.reset : Slot where
  state := .absent
  reason := .none
  owner := none
  compressed := false
  aux := 0
  rep := Rating.none
  limit := 0
  octrip := 0
  iofs := 0
  igain := 0x4000
  vofs := 0
  vgain := 0x4000
  errMissing := 0
  errSat := 0
  errOc := 0
  errLate := 0
  temp := 0
  meas := none
  measWas := none
  sampledAt := none
  lateSeen := none
  modState := 0
  disc := none
  readAt := 0
  cal := none
  tag := 0
  missRun := 0
  heldBack := false
  fresh := false

def Tracker.reset : Tracker where
  state := .standalone
  locks := 0
  holdovers := 0
  syncDelay := 0
  err := 0
  rate := 0
  eps := 0
  epoch := 0
  first := true
  second := false
  goodRun := 0
  badRun := 0
  linkEpoch := none
  syncout := false
  syncEnd := none

def Carrier.reset : Carrier := ⟨false, 0, 0, 0, 0, 0, false, bankFill 8 (0, 0)⟩

/-- Table 5-10. -/
def Phase.reset : Phase where
  placed := false
  angled := false
  angle := 0
  move := 0
  weight := 0
  ramp := .steady
  firstAt := none
  pstart := 0
  kNext := 0
  dir := false
  nopulse := false
  prevDuty := 0
  builtFor := 0
  dutyWas := 0
  newDuty := none
  periods := []
  releasedAt := none
  stopAt := none
  after := .admitted
  startDue := false
  duty := 0
  iref := 0
  imeas := 0
  e1 := 0
  e2 := 0
  y1 := 0
  y2 := 0
  xacc := 0
  share := 0
  demNeg := false

/-- Tables 5-5 to 5-9. -/
def Tbi.reset : Tbi where
  handover := 4
  minPulse := 8
  ringlock := 0xFF
  ring := Tracker.reset
  carriers := bankFill 8 Carrier.reset
  rails := bankFill 64 ⟨0, none, false, false, []⟩
  startAt := none

/-- Tables 6-7 to 6-11. -/
def LoopSt.reset : LoopSt where
  useInexact := false
  modeLog := []
  sectLog := []
  diverged := false
  stale := false
  ovrRun := 0
  staleRun := 0
  innerOvr := 0
  outerOvr := 0
  missing := 0
  inexact := 0
  satOut := 0
  satAcc := 0
  coefSeq := 0
  slack := 0xFFFF
  intStatus := 0
  intEnable := 0
  target := 0
  vfb := 0
  vin := 0
  dem := 0
  hi := 0
  lo := 0
  outer := bankFill 8 ⟨0, 0⟩
  inner := bankFill 8 ⟨0, 0⟩
  e1 := 0
  e2 := 0
  e3 := 0
  y1 := 0
  y2 := 0
  y3 := 0
  w := 0
  lmin := 0
  ovrNow := false
  demNext := []
  coefLog := []
  presetDue := false
  preset := 0
  lastRelease := none

/-- Tables 6-12, 6-13 and 7-6. -/
def Engine.reset : Engine where
  windowHw := 0
  queueHw := 0
  evals := 0
  ovrTotal := 0
  minSlack := 0xFFFF
  minRail := 0
  ecc := 0
  ovrRails := 0
  window := []
  queue := []
  slices := bankFill 8 none
  results := []
  loops := bankFill 64 LoopSt.reset
  ffs := bankFill 64 ⟨0, 0, 0xFFFFF, 0⟩
  vsense := bankFill 8 none

/-- Tables 7-8 to 7-10. -/
def Tune.reset : Tune where
  h := 0
  eps := 0
  devMax := 0
  settle := 2
  cycles := 4
  halfMax := 64
  runMax := 50
  short := false
  noint := false
  ignored := false
  check := 0
  result := 0
  cycle := 0
  loop := false
  rail := 0
  tu := 0
  amp := 0
  spread := 0
  ku := ⟨0, 0⟩
  b0 := ⟨0, 0⟩
  b1 := ⟨0, 0⟩
  run := none

/-- Tables 8-8 to 8-10. -/
def RailCfg.reset : RailCfg where
  vset := 0
  vnext := 0
  qvalid := false
  winLo := 0
  winHi := 0
  vreqEn := false
  reqTtl := 10
  vinRatio := 0x1000
  pgWin := 5000
  pgCount := 4
  holdMax := 50
  rampMax := 2000
  retryMax := 0
  retryDelay := 1000
  retake := true
  kindleEn := true
  shedEn := true

def Rail.reset : Rail where
  cfg := RailCfg.reset
  state := .off
  cause := .none
  stopping := false
  retries := 0
  cmdBusy := false
  cmdResult := 0
  cmdPos := 0
  ramp := 0
  ilimNow := 0
  d0 := 0
  tripped := []
  sheds := 0
  adds := 0
  warms := 0
  unwinds := 0
  intStatus := 0
  intEnable := 0
  requests := []
  since := 0
  rampSince := 0
  instants := 0
  goodRun := 0
  dwell := 0
  stack := []
  warming := []
  unwinding := []
  ended := []
  meas := none
  ready := none
  retiring := []

/-- Tables 11-7 to 11-10. -/
def Protect.reset : Protect where
  phOcPct := 150
  railOcPct := 120
  fCount := 2
  ocCount := 4
  vCount := 3
  vsCount := 4
  fltMode := 0
  fltForce := 0
  intStatus := 0
  intEnable := 0
  first := none
  firstTime := 0
  trips := 0
  implicit := false
  entries := []
  st := []
  fRun := bankFill 512 0
  ocRun := bankFill 512 0
  refusedClear := []
  clockLoss := false

def Channel.reset : Channel where
  value := 0
  level := 0
  rate := false
  suspect := false
  failed := false
  idle := false
  subst := false
  warns := 0
  throttles := 0
  shutdowns := 0
  invalids := 0
  t1 := ⟨false, 0, 0⟩
  t2 := ⟨false, 0, 0⟩
  t3 := ⟨false, 0, 0⟩
  bad := 0
  hist := []
  rateUp := 0
  rateDn := 0
  susUp := 0
  susDn := 0
  captured := none
  capIdle := true

/-- Tables 11-12 to 11-16. -/
def Housekeeping.reset : Housekeeping where
  steps := 4
  stepPct := 10
  stepRounds := 10
  relaxRounds := 50
  xdev := 240
  rounds := 0
  intStatus := 0
  intEnable := 0
  tsd := false
  tsdCount := 0
  tsdLost := 0
  tsdCause := 0
  tsdTime := 0
  storeWin := false
  firstSample := true
  jmax := 0x8000
  inRange := none
  dies := bankFill 8 ⟨0, false, 0, 0⟩
  thms := bankFill 4 ⟨10000, 10000, 3435, 0⟩
  supMv := bankFill 4 0
  supUv := bankFill 4 0
  inRound := false
  chans := bankFill 96 Channel.reset
  rails := bankFill 64 ⟨0, false, false, 0, 0, 0⟩
  shutdown := none

def Entry.free : Entry where
  state := .free
  cls := 0
  handle := 0
  rail := none
  reason := .none
  early := 0
  last := 0
  latest := 0
  start := none
  first := 0
  segs := []
  opSeq := 0
  tag := 0
  order := 0
  plannedOrder := 0
  endedAt := 0
  deferred := none
  kindle := false
  warmed := false

/-- Tables 9-11, 9-12 and 9-14. -/
def Hearth.reset : Hearth where
  supOk := false
  mode := 0
  overdraw := false
  shareLive := false
  tick := 0
  ranTick := none
  commitLead := 50
  baseWin := 64
  margin := 0
  storPmax := 0
  feed := 0
  base := 0
  avail := 0
  storS := 0
  storE := 0
  opSeq := 0
  grants := 0
  revokes := 0
  squashes := 0
  invalids := 0
  intStatus := 0
  intEnable := 0
  binSel := 0
  planStart := 0
  planResult := 0
  segEntry := 0
  seg := 0
  railCap := bankFill 64 0
  pause := bankFill 64 0
  exhausted := bankFill 64 false
  pauseFrom := bankFill 64 0
  pauseDue := bankFill 64 false
  ledger := bankFill 128 Entry.free
  charges := []
  requests := []
  baseHist := []
  order := 0
  lastCap := bankFill 64 0
  lastPause := bankFill 64 0
  heartbeat := none
  everRan := false

def RingLink.reset : RingLink := ⟨0, 0, 0, 0, none, bankFill 8 0, none, none, false, [], false, ⟨false, none, 0, [], 0⟩⟩

/-- Tables 10-12 and 10-13. -/
def CanBus.reset : CanBus where
  en := true
  brs := true
  listen := false
  nbt := 0x04E9D3C1
  dbt := 0x00015623
  tdco := 76
  tdcEn := true
  state := .disabled
  recovering := false
  tecCount := 0
  recCount := 0
  lec := 0
  rx := 0
  tx := 0
  busOffs := 0
  passives := 0
  syncSof := 0
  prevSent := false
  queue := []

def Partner.reset : Partner where
  held := false
  home := false
  listed := false
  ceil := 0
  vreqOk := false
  rail := none
  unit := 0
  nonce := 0
  joined := 0
  lastRx := 0
  leaseFrom := 0
  frames := 0
  refusals := 0
  peakMax := 0
  tags := []
  holdoff := none

/-- Tables 10-9 to 10-11. -/
def Ports.reset : Ports where
  node := 0
  both := false
  autoRecover := true
  maxOpen := 2
  htgen := 0
  lease := 1000
  holdoff := 2000
  joins := 0
  leaves := 0
  expiries := 0
  takeovers := 0
  fulls := 0
  discards := 0
  syncDropA := 0
  syncDropB := 0
  txDrops := 0
  intStatus := 0
  intEnable := 0
  seq := 0
  buses := bankFill 2 CanBus.reset
  partners := bankFill 256 Partner.reset
  leavesWaiting := []
  supStart := 0

/-- Tables 12-9 to 12-12. -/
def HostPort.reset : HostPort where
  held := none
  lastWrite := false
  lastErr := false
  lastStatus := 0
  lastAddr := 0
  crcErrs := 0
  badCmds := 0
  cuts := 0
  releases := 0
  irqMask := 0x10000
  evt := 0
  evtEn := 0b01001
  flights := bankFill 3 none
  abortDone := false
  abortPort := .spi
  abortResult := .none
  abortFunc := 0
  abortIndex := 0
  abortElapsed := 0
  busyFuncs := []
  pstat := 0
  response := none

/-- Tables 13-5 to 13-9. -/
def TwoWire.reset : TwoWire where
  en := true
  pecT := false
  araEn := true
  smbTo := true
  pollEn := true
  stretchMax := 20
  busBusy := true
  recovery := none
  recoverAsked := none
  sdaStuck := false
  sclStuck := false
  alertAcked := false
  ackedSum := 0
  lastStatus := 0
  lastAddr := 0
  tlow := 125
  thigh := 110
  tsudat := 32
  thddat := 8
  speed := 0
  ownAddr := 0x48
  arbLost := 0
  busErrs := 0
  recoveries := 0
  recoverFails := 0
  pageDiscards := 0
  partialWords := 0
  pecErrs := 0
  timeouts := 0
  intStatus := 0
  intEnable := 0
  alertMask := 0
  psel := 0
  per := bankFill 32 ⟨.none, 0, 0, 0, none, [], false, none, 0⟩
  pointer := 0
  polling := none
  retryFrom := none
  sent := []
  acked := false

/-- Table 14-11. -/
def Session.reset : Session where
  state := .closed
  level := 0
  result := 0
  fails := 0
  lockouts := 0
  lockedUntil := none
  idle := 600
  ctr := 0
  chal := []
  resp := bankFill 8 0
  dproof := []
  lastUse := 0
  opening := none
  failPending := false

/-- Tables 14-13 and 14-14; the values marked stored are loaded by store recovery. -/
def Guard.reset : Guard where
  ports := bankFill 3 Session.reset
  lc := .blank
  lcPending := false
  lcResult := 0
  busy := false
  kcv := 0
  keydata := bankFill 8 0
  keys := bankFill 5 none
  keysLoaded := false
  auth := .none
  bscan := false
  tapIr := 0x01
  dbgNonce := []
  dbgCtr := 0
  dbgOpening := false
  dbgFailing := none
  intStatus := 0
  intEnable := 0
  ctrNext := 0
  ctrEnd := 0

/-- Table 14-15. -/
def Power.reset : Power where
  mode := .run
  smoulder := bankFill 4 false
  entering := bankFill 4 none
  qoff := bankFill 4 false
  result := 0
  wakeA := true
  wakeB := true
  cause := 0
  waking := none

/-- Tables 14-16 and 14-17. -/
def Firmware.reset : Firmware where
  busy := false
  op := none
  running := 0
  nosup := false
  result := 0
  trialAt := none
  dataAddr := 0
  trialTime := 300
  fillSlot := none
  supReset := true
  supHalted := false
  supRam := []
  hung := none

/-- The store's registers (Tables 15-8 to 15-12) before recovery has loaded the stored values. -/
def Store.reset : Store where
  recovering := true
  pfail := false
  current := none
  jobs := []
  doubt := []
  result := 0
  cmdBusy := false
  bp := 0
  nextSeq := 0
  seqEnd := 0
  completed := 0
  voided := 0
  erases := 0
  wipes := 0
  faults := 0
  intStatus := 0
  intEnable := 0
  ubuf := bankFill 56 0
  counters := bankFill 16 0
  map := bankFill 128 none
  region := bankFill 128 10
  eraseCount := bankFill 128 0
  readonly := 0
  used := bankFill 11 []
  erased := bankFill 11 []
  next := bankFill 11 4
  failed := []

/-- Tables 16-6 and 16-7 before recovery has loaded the stored values. -/
def Recorder.reset : Recorder where
  queue := []
  chains := []
  nextId := 0
  seqEnd := false
  permRo := false
  bogOnly := false
  unset := true
  clearing := false
  pfail := false
  tgen := 0
  head := 0
  tail := 0
  permUsed := 0
  permCount := 0
  sectors := 53
  dropped := 0
  repeats := 0
  pendDrop := 0
  firstDrop := 0
  lastDrop := 0
  timeNew := 0
  busy := false
  found := false
  area := 0
  result := 0
  sel := 0
  rd := []
  intStatus := 0
  intEnable := 0
  seqNext := 0
  seqLimit := 0
  pfailLeft := 0
  pfailAt := 0
  pfailLow := 0
  writing := none
  toCopy := []
  clearAreas := 0
  clearSeq := none
  prevSeq := 0
  started := false

/-- Tables 16-8 and 16-9. -/
def Bog.reset : Bog where
  state := .absent
  present := 0
  cmdBusy := false
  result := 0
  logPct := 25
  autoformat := false
  flush := 10
  blocks := bankFill 2 0
  mfr := bankFill 2 0
  quad := bankFill 2 false
  logBlocks := 0
  logNominal := 0
  logHead := 0
  logTail := 0
  logFloor := 0
  capFloor := 0
  capBlocks := 0
  captures := 0
  spares := 0
  worn := 0
  intStatus := 0
  intEnable := 0
  op := none
  bseq := 0
  tries := 0
  buffer := []
  oldest := none
  remaps := []
  rbuf := []
  resume := none
  controlDue := false
  pct := 25
  capParts := []
  plan := none
  out := []

/-- Table 16-10. -/
def Capture.reset : Capture where
  tPm := true
  tRail := true
  tTsd := true
  autoRearm := true
  state := .stopped
  copying := false
  missed := 0
  channels := 1
  div := 16
  len := 4096
  pre := 1024
  lastId := 0
  sources := bankFill 16 ⟨0, 0⟩
  samples := []
  postLeft := 0
  trigSeq := 0
  trigTime := 0
  trigger := 0
  trigIndex := 0
  copyDue := false
  wiped := true

/-- The device right after a cold reset. -/
def Device.reset : Device where
  sys := Sys.reset
  clk := Clk.reset
  pins := Pins.reset
  str := Structure.none
  img := Image.reset
  lanes := bankFill 64 Lane.reset
  slots := bankFill 512 Slot.reset
  tbi := Tbi.reset
  phases := bankFill 512 Phase.reset
  le := Engine.reset
  tune := Tune.reset
  rails := bankFill 64 Rail.reset
  pm := Protect.reset
  hkt := Housekeeping.reset
  hs := Hearth.reset
  ring := RingLink.reset
  pp := Ports.reset
  hsp := HostPort.reset
  ports := bankFill 3 ⟨none, none, none, 0, 0⟩
  twp := TwoWire.reset
  sg := Guard.reset
  pwr := Power.reset
  fw := Firmware.reset
  ocs := Store.reset
  er := Recorder.reset
  bog := Bog.reset
  cap := Capture.reset
  draws := 0

/-- The persistent memories that the model starts from (assumption 4): an erased store, and the package that the
part was shipped with in code slot A. -/
def NonVol.reset : NonVol where
  flash := []
  partials := []
  unmoved := []
  interrupts := 0
  cut := []
  worn := []
  moving := []
  code := bankOf fun i => if i = 0 then ⟨.confirmed, 0, 1, [], true⟩ else ⟨.empty, 0, 0, [], false⟩

/-- The machine right after reset (R34, R46): supplies in range, RST_N high, the filter of step 1 running, and no
command waiting. -/
def State.reset : State := ⟨TimeBase.reset, NonVol.reset, Device.reset, []⟩

/-- A change of the device alone. -/
def State.onDev (s : State) (f : Device → Device) : State := { s with dev := f s.dev }

end Sys2Proof.Machine
end

