-- ==== Sys2Proof/Machine/Events.lean ====
section
/-! DEFINITION. Raising an event (R409 to R411) and triggering the waveform capture (R421): the two operations that
every block uses. Payloads follow Table 16-2. -/

namespace Sys2Proof.Machine

/-- The codes for which entries 60 to 63 are reserved (R409): START, INTERNAL_FAULT, BROWNOUT, LIFECYCLE, TIME_SET,
CLEAR, CLEARED and LOST. -/
def reservedCode (code : Nat) : Bool := [0x00, 0x01, 0x02, 0xA2, 0xC2, 0xC3, 0xC4, 0xC0].contains code

/-- An event into the queue without a look at repeats, at its head or its end; dropped when it finds no entry that it
may use (R409, R410). A reserved code takes a reserved entry first. -/
def pushEvent (tm : TimeBase) (atHead : Bool) (code : Nat) (payload : List Byte) (ref : Option Nat)
    (stamp : Option (BitVec 48 × BitVec 6 × Bool)) (e : Recorder) : Recorder × Bool :=
  let spares := (e.queue.filter (·.spare)).length
  let general := e.queue.length - spares
  let spare := reservedCode code && decide (spares < 4)
  if spare || decide (general < 60) then
    let ev : Event := ⟨byte code, payload.takeD 16 0, e.nextId, ref, stamp, spare⟩
    let place := if e.writing.isSome then 1 else 0
    let q := if atHead then e.queue.take place ++ ev :: e.queue.drop place else e.queue ++ [ev]
    ({ e with queue := q, nextId := e.nextId + 1 }, true)
  else
    ({ e with
      dropped := satInc e.dropped
      pendDrop := e.pendDrop + 1
      firstDrop := if e.pendDrop = 0 then tm.cal else e.firstDrop
      lastDrop := tm.cal }, false)

/-- One chain that has seen no repeat for 1 ms: REPEATS is raised when it counted any (R411). -/
def endChain (tm : TimeBase) (e : Recorder) (c : Chain) : Recorder :=
  if c.count = 0 then e else
  (pushEvent tm false 0xC1 (leBytes 4 (c.seq.getD 0).toNat ++ leBytes 4 c.count.toNat ++ leBytes 6 c.lastCal.toNat)
    (if c.seq.isSome then none else some c.first) none e).1

/-- Every chain whose 1 ms has passed with no repeat ends (R411). -/
def endChains (tm : TimeBase) (e : Recorder) : Recorder :=
  let now := tm.us.toNat
  let old := e.chains.filter fun c => decide (now > c.last + 1000)
  old.foldl (endChain tm) { e with chains := e.chains.filter fun c => !decide (now > c.last + 1000) }

/-- An event is raised (R409 to R411). -/
def raiseIn (tm : TimeBase) (code : Nat) (payload : List Byte) (e0 : Recorder) : Recorder :=
  let e := endChains tm e0
  let body := payload.takeD 16 0
  let now := tm.us.toNat
  let isSame (c : Chain) : Bool := decide (c.code = byte code) && decide (c.payload = body)
  if code ≠ 0xC0 ∧ code ≠ 0xC1 ∧ e.chains.any isSame then
    { e with
      repeats := e.repeats + 1
      chains := e.chains.map fun c =>
        if isSame c then { c with count := c.count + 1, last := now, lastCal := tm.cal } else c }
  else
    let r := pushEvent tm false code body none none e
    if r.2 && decide (code ≠ 0xC0) && decide (code ≠ 0xC1) then
      { r.1 with chains := r.1.chains ++ [⟨byte code, body, e.nextId, none, 0, now, tm.cal⟩] }
    else r.1

/-- An event is raised into the device's recorder. -/
def raise (tm : TimeBase) (code : Nat) (payload : List Byte) (d : Device) : Device :=
  { d with er := raiseIn tm code payload d.er }

/-- BROWNOUT goes to the head of the queue (R412). -/
def raiseHead (tm : TimeBase) (code : Nat) (payload : List Byte) (d : Device) : Device :=
  { d with er := (pushEvent tm true code payload none none (endChains tm d.er)).1 }

/-- The code of a life-cycle state (Table 14-13). -/
def LifeCycle.code : LifeCycle → Nat
  | .blank => 0 | .commission => 1 | .service => 2 | .maintain => 3 | .retired => 4 | .returned => 5

/-- The state of a code. -/
def lifeOf : Nat → LifeCycle
  | 1 => .commission | 2 => .service | 3 => .maintain | 4 => .retired | 5 => .returned | _ => .blank

/-- The wipe mask of a change (Table 14-4): bit i for region i. -/
def wipeMask : LifeCycle → Nat
  | .commission => 0x300
  | .retired | .returned => 0x213
  | _ => 0

/-- A detected internal fault (R28): KIND, code nibble of the block, DETAIL. -/
def raiseFault (tm : TimeBase) (kind source detail : Nat) (d : Device) : Device :=
  raise tm 0x01 (leBytes 1 kind ++ leBytes 1 source ++ leBytes 4 detail) d

/-- The triggers of R421. -/
inductive TriggerKind where
  | protection
  | railFault
  | shutdown
  | host
deriving DecidableEq, Repr

/-- TRIGGER of a CAPTURE event (Table 16-2). -/
def TriggerKind.code : TriggerKind → Nat
  | .protection => 1
  | .railFault => 2
  | .shutdown => 3
  | .host => 4

/-- Is this kind of trigger enabled? -/
def triggerEnabled (k : TriggerKind) (c : Capture) : Bool :=
  match k with
  | .protection => c.tPm
  | .railFault => c.tRail
  | .shutdown => c.tTsd
  | .host => true

/-- A trigger (R421): in ARMED it starts the samples after it and raises CAPTURE; while the buffer is frozen or being
copied it is counted in MISSED. -/
def captureTrigger (tm : TimeBase) (k : TriggerKind) (index : Nat) (d : Device) : Device :=
  if !triggerEnabled k d.cap then d else
  match d.cap.state with
  | .armed =>
    let cap := { d.cap with
      state := .post
      postLeft := d.cap.len.toNat - d.cap.pre.toNat
      lastId := d.cap.lastId + 1
      trigTime := tm.cal
      trigger := byte k.code
      trigIndex := BitVec.ofNat 16 index }
    raise tm 0xD1 (leBytes 4 cap.lastId.toNat ++ leBytes 1 k.code ++ leBytes 1 0 ++ leBytes 2 index
      ++ leBytes 1 cap.missed.toNat) { d with cap := cap, bog := { d.bog with intStatus := setBit d.bog.intStatus 3 } }
  | .frozen => { d with cap := { d.cap with missed := d.cap.missed + 1 } }
  | .post | .stopped =>
    if d.cap.copying then { d with cap := { d.cap with missed := d.cap.missed + 1 } } else d

end Sys2Proof.Machine
end

