-- ==== Sys2Proof/Config.lean ====
section
/-! DEFINITION. What the spec leaves open, as constants without a body (assumption 1): nothing in Lean can evaluate
one or prove a value of one, so every claim holds for every choice. A constant that gives a fresh value each time takes the
count of values already drawn, which is plain data of the state. -/

namespace Sys2Proof.Config

/-- SG.UID, the identity that each part is given at manufacture (R348, Table 14-11): 64 bits. -/
opaque uid : BitVec 64

/-- The return key derived from secrets of the part (R350): 32 bytes. -/
opaque returnKey : Fin 32 → BitVec 8

/-- The public key that the maker's firmware packages are signed with (R366): the point's two coordinates. -/
opaque makerKey : Bool → BitVec 256

/-- One byte of the random generator (R352), by the number of values drawn and the byte's place. -/
opaque random : Nat → Nat → BitVec 8

/-- A byte of DPROOF where a session opens on a level without a key (R352): in RETURN. By the number of values drawn and the
byte's place. -/
opaque unkeyedProof : Nat → Nat → BitVec 8

/-- A read of a byte whose program or erase was interrupted (R374): indeterminate, and fresh on each read. -/
opaque indeterminate : Nat → Nat → BitVec 8

/-- A byte of the supervisor's memory as the debug window reads it (R359): the supervisor's program and its data are outside
the model. -/
opaque supervisorMemory : Nat → BitVec 32 → BitVec 32

/-- Which addresses of the supervisor's memory lie in its data RAM (Table 2-4, R359): the spec gives no map. -/
opaque supervisorRam : BitVec 32 → Bool

/-- The pulses in flight that the realign of a crossing group drops (R44), at most the 16 that R41 allows. By the number of
values drawn and the group. -/
opaque pulsesInFlight : Nat → Fin 16 → Fin 17

/-- The pulses that a crossing group has merged since its count was last read (R41): Table 2-5 does not say which pulses its
groups carry. By the number of values drawn and the group. -/
opaque pulsesMerged : Nat → Fin 16 → BitVec 16

/-- How far ahead of TIME the PLI places a calibration period (R125): the spec gives only the window of tLEAD. By TIME. -/
opaque calibrationLead : Nat → Nat

/-- tLRX, the time in which a sleeping lane receiver wakes, in µs: the spec gives a maximum of 10 (Table 14-10). -/
opaque laneWake : Nat

/-- Whether a coefficient takes three ECLK cycles or two to reach the engine (R180, R40), by TIME. -/
opaque coefSlow : Nat → Bool

/-- Which of the two temperature codes next to the value of R294 a thermistor conversion gives: the spec gives it to within
±1/16 °C. By code, R25, RB and BETA. -/
opaque thermistorUpper : Nat → Nat → Nat → Nat → Bool

/-- The channel value of a two-wire peripheral that was read with LEN 1: Table 11-4 takes two bytes. By the byte read. -/
opaque oneByteValue : BitVec 8 → BitVec 16

/-- ENTRY, ADDR, RESULT and FAILS of a TWO_WIRE record that no poll caused (R347). By the number of values drawn. -/
opaque noPoll : Nat → BitVec 40

/-- PREV_SOF of a SYNC whose PREV_VALID is 0 (Table 10-5): the spec gives no value. By NOMINAL. -/
opaque unsentSof : BitVec 32 → BitVec 32

/-- TEC and REC of a CAN controller as it enters error-passive or bus-off (R256, R278): the bit errors that raised them are
the bus's own. By the number of values drawn. -/
opaque canCounts : Nat → BitVec 8 × BitVec 8

/-- REC of a CAN controller after a frame received without error while it was above 127, less 119 (R256: the standard allows 119
to 127). By the number of values drawn. -/
opaque canReceived : Nat → Fin 9

/-- The last error of a CAN controller as it enters error-passive or bus-off (Table 10-13). By the number of values drawn. -/
opaque canError : Nat → Fin 6

/-- RECORDS of a WINDOW record of the archive (R420): the spec gives no formula. By area and blocks left. -/
opaque bogWindow : Nat → Nat → BitVec 32

/-- A sample place that a capture has not filled before its trigger (R421). By CAPTURE_ID, place and channel. -/
opaque unfilledSample : BitVec 32 → Nat → Nat → BitVec 16

/-- A capture sample of a KIND or INDEX that Table 16-4 does not have. -/
opaque capUnlisted : BitVec 4 → BitVec 9 → BitVec 16

/-- Where a byte of the capture buffer stands in the run of its samples, which READ_CAPBUF does not give (Table 16-8).
By CHANNELS, LEN and the byte's offset. -/
opaque captureLayout : Nat → Nat → Nat → Nat

/-- LOGICAL and REGION of OCS.SECT for a physical sector to which no logical one is mapped (Table 15-12). By sector. -/
opaque unmappedSector : Nat → BitVec 11

/-- The state of SDA on the two-wire bus when a register write asks for a recovery, or an ABORT for a STOP, without saying it:
whether a target holds it, and the pulse of recovery after which it is high (R343, R344). By the number of values drawn. -/
opaque sdaState : Nat → Bool × Option (Fin 9)

/-- Does a reset of the two-wire port leave SDA low (R343), and after which recovery pulse is it high then? -/
opaque sdaAfterReset : Nat → Option (Option (Fin 9))

/-- What a margin read finds of a byte whose program was interrupted (R375): 0 fully erased, 2 fully programmed, 1 neither. By the
number of programs interrupted before and the address. -/
opaque marginLeft : Nat → Nat → Fin 3

/-- DETAIL of an INTERNAL_FAULT record (Table 16-2): the spec does not say what it holds. By KIND and SOURCE. -/
opaque faultDetail : Nat → Nat → BitVec 32

/-- The block that an INTERNAL_FAULT record names where a command does not say which block it was. By the number of values
drawn. -/
opaque faultBlock : Nat → BitVec 4

end Sys2Proof.Config
end

