-- ==== Sys2Proof/Machine/Crc.lean ====
section
/-! DEFINITION. The check codes of R13 (Table 0-7), bit by bit. -/

namespace Sys2Proof.Machine

/-- One shift of an MSB-first CRC register of w bits. -/
def crcShift (w poly c : Nat) : Nat :=
  if c.testBit (w - 1) then (2 * c % 2 ^ w) ^^^ poly else 2 * c % 2 ^ w

/-- One byte into an MSB-first CRC register. -/
def crcByte (w poly : Nat) (c : Nat) (b : Byte) : Nat :=
  Nat.repeat (crcShift w poly) 8 (c ^^^ (b.toNat * 2 ^ (w - 8)))

/-- CRC-8 of SPI frames and lane cells. -/
def crc8 (bs : List Byte) : Byte := byte (bs.foldl (crcByte 8 0x07) 0)

/-- CRC-16/CCITT of event records. -/
def crc16 (bs : List Byte) : Nat := bs.foldl (crcByte 16 0x1021) 0xFFFF

/-- One shift of the reflected CRC-32C register; 0x82F63B78 is 0x1EDC6F41 with its bits reversed. -/
def crc32cShift (c : Nat) : Nat := if c % 2 = 1 then (c / 2) ^^^ 0x82F63B78 else c / 2

/-- One byte into the CRC-32C register. -/
def crc32cByte (c : Nat) (b : Byte) : Nat := Nat.repeat crc32cShift 8 (c ^^^ b.toNat)

/-- CRC-32C of image sections, store records and archive blocks. -/
def crc32c (bs : List Byte) : Nat := (bs.foldl crc32cByte 0xFFFF_FFFF) ^^^ 0xFFFF_FFFF

end Sys2Proof.Machine
end

