-- ==== Sys2Proof/Machine/Line.lean ====
section
/-! DEFINITION. The 8b/10b line code of the phase lanes (R95, R96, Table 4-1) and of the ring link (R248): code groups with
running disparity, and a transmitter that sends symbols one after another. The code's tables are those of IEEE 802.3
Clause 36, which the spec names and does not print; a transmitter starts with negative disparity (PRESUMED, assumption
103). -/

namespace Sys2Proof.Machine

/-- The sub-block abcdei of a data character's low five bits at negative disparity, a most significant. -/
def sixOf (x : Nat) : Nat :=
  [0x27, 0x1D, 0x2D, 0x31, 0x35, 0x29, 0x19, 0x38, 0x39, 0x25, 0x15, 0x34, 0x0D, 0x2C, 0x1C, 0x17].getD x
    ([0x1B, 0x23, 0x13, 0x32, 0x0B, 0x2A, 0x1A, 0x3A, 0x33, 0x26, 0x16, 0x36, 0x0E, 0x2E, 0x1E, 0x2B].getD (x - 16) 0)

/-- The sub-block fghj of a data character's high three bits at negative disparity, f most significant. -/
def fourOf (y : Nat) : Nat := [0xB, 0x9, 0x5, 0xC, 0xD, 0xA, 0x6, 0xE].getD y 0

/-- The ones of a number's low n bits. -/
def onesOf (n v : Nat) : Nat := (List.range n).foldl (fun a i => a + v / 2 ^ i % 2) 0

/-- A sub-block of n bits at a disparity: its complement at positive disparity where it is unbalanced or one of the two
balanced blocks with two forms. Answers the block and the disparity after it. -/
def subBlock (n v : Nat) (twoForms rd : Bool) : Nat × Bool :=
  let balanced := decide (2 * onesOf n v = n)
  let flip := rd && (!balanced || twoForms)
  (if flip then 2 ^ n - 1 - v else v, if balanced then rd else !rd)

/-- The code group of a data byte at a running disparity, and the disparity after it. -/
def encodeData (b : Byte) (rd : Bool) : BitVec 10 × Bool :=
  let x := b.toNat % 32
  let y := b.toNat / 32
  let six := subBlock 6 (sixOf x) (decide (x = 7)) rd
  -- D.x.A7 where five equal bits would follow one another
  let alt := decide (y = 7) && (if six.2 then decide (x = 11 ∨ x = 13 ∨ x = 14) else decide (x = 17 ∨ x = 18 ∨ x = 20))
  let four := subBlock 4 (if alt then 0x7 else fourOf y) (decide (y = 3)) six.2
  (BitVec.ofNat 10 (six.1 * 16 + four.1), four.2)

/-- The two special code groups of Table 4-1 at a running disparity: K28.5 and K27.7. -/
def encodeSpecial (b : Byte) (rd : Bool) : BitVec 10 × Bool :=
  let v : BitVec 10 := if b = 0xBC then 0x0FA else 0x368
  (if rd then ~~~v else v, if b = 0xBC then !rd else rd)

/-- The code group of a symbol. -/
def encodeSym (s : LineSym) (rd : Bool) : BitVec 10 × Bool := if s.special then encodeSpecial s.byte rd else encodeData s.byte rd

/-- SOC (Table 4-1). -/
def symSoc : LineSym := ⟨true, 0xFB⟩

/-- The ordered set IDLE (Table 4-1): K28.5 then D16.2. -/
def symIdle : List LineSym := [⟨true, 0xBC⟩, ⟨false, 0x50⟩]

/-- The symbols of a cell or frame: SOC and its bytes. -/
def symCell (bs : List Byte) : List LineSym := symSoc :: bs.map fun b => ⟨false, b⟩

/-- The first of some symbols goes onto the wire for a number of T-ticks; the others follow it. -/
def lineLoad (ticks : Nat) (ss : List LineSym) (l : LineTx) : LineTx :=
  match ss with
  | [] => l
  | s :: rest =>
    let e := encodeSym s l.rd
    { l with rd := e.2, group := some e.1, left := ticks - 1, rest := rest, since := l.since + 1 }

/-- IDLE goes onto the wire: the count of symbols since its comma starts anew. -/
def lineIdle (ticks : Nat) (l : LineTx) : LineTx := { lineLoad ticks symIdle l with since := 0 }

/-- The pair goes idle: nothing is on the wire. -/
def lineOff (l : LineTx) : LineTx := { l with group := none, left := 0, rest := [], since := 0 }

/-- Must an IDLE come before n more symbols, so that each 256 symbols hold one whole (R96)? -/
def idleDue (l : LineTx) (n : Nat) : Bool := decide (l.since + n > 254)

/-- The bit of the present code group that is sent when `left` bits of it come after, a first (R95). -/
def lineBit (l : LineTx) (left : Nat) : Bool := match l.group with
  | some g => g.getLsbD left
  | none => false

end Sys2Proof.Machine
end

