-- ==== Sys2Proof/Machine/LaneBase.lean ====
section
/-! DEFINITION. The phase lanes' shared operations (spec 04_phase_lanes.md): the transmit queue (R97 to R99), the state
of a slot as PLI keeps it (R127), decoding of samples (R113 to R115), conversions (R126) and the admission checks (R124). -/

namespace Sys2Proof.Machine

/-! ### Codes -/

/-- Table 4-16. -/
def LaneState.code : LaneState → Nat
  | .unused => 0 | .down => 1 | .training => 2 | .up => 3 | .retrain => 4

/-- Table 4-13. -/
def SlotState.code : SlotState → Nat
  | .absent => 0 | .found => 1 | .calibrating => 2 | .admitted => 3 | .serving => 4 | .refused => 5 | .lost => 6 | .retired => 7

/-- Table 4-14. -/
def SlotReason.code : SlotReason → Nat
  | .none => 0 | .notExpected => 1 | .rating => 2 | .protocol => 3 | .frequency => 4 | .direction => 5 | .host => 6
  | .timeout => 7 | .missing => 8 | .fault => 9 | .removed => 10 | .lane => 11 | .identity => 12

/-! ### Indices (R12) -/

/-- The lane of a global slot. -/
def laneOf (g : Fin 512) : Fin 64 := ⟨g.val / 8, by omega⟩

/-- The slot within its lane. -/
def slotOf (g : Fin 512) : Fin 8 := ⟨g.val % 8, by omega⟩

/-- The global slot of lane.slot. -/
def globalSlot (n : Fin 64) (s : Fin 8) : Fin 512 := ⟨n.val * 8 + s.val, by omega⟩

/-- The quadrant of a lane. -/
def quadOfLane (n : Fin 64) : Fin 4 := ⟨n.val / 16, by omega⟩

/-- The quadrant of a global slot. -/
def quadOf (g : Fin 512) : Fin 4 := ⟨g.val / 128, by omega⟩

/-- The global slots of a lane. -/
def laneSlots (n : Fin 64) : List (Fin 512) := (List.finRange 8).map (globalSlot n)

/-! ### Updates -/

/-- One lane changed. -/
def Device.onLane (d : Device) (n : Fin 64) (f : Lane → Lane) : Device := { d with lanes := bankUpd d.lanes n f }

/-- One slot changed. -/
def Device.onSlot (d : Device) (g : Fin 512) (f : Slot → Slot) : Device := { d with slots := bankUpd d.slots g f }

/-- One phase changed. -/
def Device.onPhase (d : Device) (g : Fin 512) (f : Phase → Phase) : Device := { d with phases := bankUpd d.phases g f }

/-- One rail changed. -/
def Device.onRail (d : Device) (r : Fin 64) (f : Rail → Rail) : Device := { d with rails := bankUpd d.rails r f }

/-- One loop changed. -/
def Device.onLoop (d : Device) (r : Fin 64) (f : LoopSt → LoopSt) : Device :=
  { d with le := { d.le with loops := bankUpd d.le.loops r f } }

/-- The slot of a global slot number. -/
def Device.slot (d : Device) (g : Fin 512) : Slot := bankGet d.slots g

/-- The phase of a global slot number. -/
def Device.phase (d : Device) (g : Fin 512) : Phase := bankGet d.phases g

/-- The lane of a number. -/
def Device.lane (d : Device) (n : Fin 64) : Lane := bankGet d.lanes n

/-- The rail of a number. -/
def Device.rail (d : Device) (r : Fin 64) : Rail := bankGet d.rails r

/-- The loop of a rail. -/
def Device.loop (d : Device) (r : Fin 64) : LoopSt := bankGet d.le.loops r

/-- The RAIL section in force of a rail. -/
def Device.sect (d : Device) (r : Fin 64) : Option RailSect := (bankGet d.str.rails r).map (·.body)

/-- Is a slot in a state in which its rail may use it (R203)? -/
def SlotState.usable (s : SlotState) : Bool := decide (s = .admitted) || decide (s = .serving)

/-- INT_STATUS.PHASE when a phase of the rail becomes unavailable (Table 8-12). -/
def phaseGone (r : Fin 64) (d : Device) : Device := d.onRail r fun x => { x with intStatus := setBit x.intStatus 6 }

/-- INT_STATUS.PHASE of the rail that owns a slot. -/
def ownerLoses (g : Fin 512) (d : Device) : Device :=
  match (d.slot g).owner with
  | some r => phaseGone r d
  | none => d

/-- A slot's STATE and REASON change; LANE INT_STATUS.SLOT follows a change of STATE (Table 4-20), and INT_STATUS.PHASE of its
rail one that makes it unavailable (Table 8-12). -/
def setSlot (g : Fin 512) (st : SlotState) (why : SlotReason) (d : Device) : Device :=
  let was := (d.slot g).state
  let d := d.onSlot g fun s => { s with state := st, reason := why }
  let d := if was.usable && !st.usable then ownerLoses g d else d
  if was ≠ st then d.onLane (laneOf g) fun l => { l with intStatus := setBit l.intStatus 4 } else d

/-! ### Protection sources that clear -/

/-- New source states of the protection entries: a refused latch clear becomes possible when its source clears
(R288, INT_STATUS.CLEARABLE). -/
def Protect.withSt (pm : Protect) (st : List ProtSt) : Protect :=
  let ended := pm.refusedClear.filter fun i =>
    match pm.st[i]?, st[i]? with
    | some a, some b => a.active && !b.active
    | _, _ => false
  { pm with
    st := st
    refusedClear := pm.refusedClear.filter fun i => !ended.contains i
    intStatus := if ended.isEmpty then pm.intStatus else setBit pm.intStatus 1 }

/-- The sources of the entries that a test picks clear, and their counts start anew (Table 11-1). -/
def clearSources (pick : ProtEntry → Bool) (d : Device) : Device :=
  { d with pm := d.pm.withSt ((d.pm.entries.zip d.pm.st).map fun x =>
      if pick x.1 then { x.2 with active := false, count := 0 } else x.2) }

/-! ### The transmit queue -/

/-- The order of priority of waiting cells (R99). -/
def cellRank : DownCell → Nat
  | .edge .. => 1
  | .cmd .. => 2
  | .time .. => 3
  | .bias .. => 4
  | .write .. => 5
  | .read .. => 6
  | .echo .. => 7

/-- Symbols of a cell, SOC and CRC among them (Table 4-2). -/
def cellSymbols : DownCell → Nat
  | .edge .. => 12
  | .time .. => 8
  | .write .. => 7
  | .read .. => 5
  | .cmd .. => 4
  | .bias .. => 3
  | .echo .. => 4

/-- T-ticks that a cell takes on the wire: five a symbol (R95). -/
def cellTicks (c : DownCell) : Nat := 5 * cellSymbols c

/-- A cell joins the lane's queue; an EDGE cell carries its full PSTART for its order. -/
def sendCell (n : Fin 64) (c : DownCell) (order : Nat) (d : Device) : Device :=
  d.onLane n fun l => { l with queue := l.queue ++ [⟨c, order⟩] }

/-- A sleeping receiver is woken (R362). -/
def wakeLane (now : Nat) (n : Fin 64) (d : Device) : Device :=
  d.onLane n fun l => if l.asleep then { l with asleep := false, wokeAt := some now } else l

/-- A READ or BIAS or WRITE to a slot wakes its lane's receiver (R362). -/
def wakeFor (tm : TimeBase) (g : Fin 512) (d : Device) : Device := wakeLane tm.time.toNat (laneOf g) d

/-- BIAS to a slot. -/
def sendBias (tm : TimeBase) (g : Fin 512) (d : Device) : Device :=
  sendCell (laneOf g) (.bias (slotOf g)) 0 (wakeFor tm g d)

/-- Is the cell a WRITE of CFG_PERIOD or CFG_MODE to a slot? -/
def isConfig (s : Fin 8) : DownCell → Bool
  | .write t a _ _ => decide (t = s) && (decide (a = 0x40) || decide (a = 0x41))
  | _ => false

/-- Is the cell a START to a slot? -/
def isStart (s : Fin 8) : DownCell → Bool
  | .cmd t op => decide (t = s) && decide (op = 1)
  | _ => false

/-- The priority of a waiting cell beside the cells that wait with it (R99): START goes after a WRITE of CFG_PERIOD or
CFG_MODE to its slot, which the slot takes only before it (R120), and a slot's EDGE cells after its START (R125, R128). A cell
that is held back so has the priority of the cell before it, and follows it (DEDUCED, assumption 104). -/
def rankAmong (cs : List QCell) (c : DownCell) : Nat :=
  let start (s : Fin 8) : Nat := if cs.any fun q => isConfig s q.cell then 5 else 2
  match c with
  | .edge s .. => if cs.any fun q => isStart s q.cell then start s else 1
  | .cmd s op => if op = 1 then start s else 2
  | _ => cellRank c

/-- Which of two waiting cells goes first (R99), the earlier one of equals; EDGE cells go in order of PSTART. -/
def cellBefore (cs : List QCell) (a b : QCell) : Bool :=
  let ra := rankAmong cs a.cell; let rb := rankAmong cs b.cell
  decide (ra < rb) || (decide (ra = rb) && decide (ra = 1) && decide (a.order < b.order))

/-- The cell that goes first among some of the waiting cells `all`, and the others of them in their order. -/
def firstOf (all : List QCell) : List QCell → Option (QCell × List QCell)
  | [] => none
  | c :: cs =>
    match firstOf all cs with
    | none => some (c, [])
    | some (b, rest) => if cellBefore all b c then some (b, c :: rest) else some (c, cs)

/-- The cell that goes next, and the others in their order. -/
def nextCell (cs : List QCell) : Option (QCell × List QCell) := firstOf cs cs

/-- A TIME cell carries the lane time at which its first bit arrives: TIME as it leaves, plus the lane's delay (R101). -/
def stampTime (now : Nat) (l : Lane) (c : DownCell) : DownCell :=
  match c with
  | .time _ _ =>
    let t := 32 * now + l.delay.toNat
    .time (BitVec.ofNat 32 (t / 32)) (BitVec.ofNat 5 t)
  | _ => c

/-- EDGE cells to a lane stop: those not yet on the wire are dropped (Table 4-15, R33). -/
def dropEdges (n : Fin 64) (d : Device) : Device :=
  d.onLane n fun l => { l with queue := l.queue.filter fun q => decide (cellRank q.cell ≠ 1) }

/-- START or STOP and the other commands of Table 4-5 to a slot. -/
def sendCmd (g : Fin 512) (op : Nat) (d : Device) : Device := sendCell (laneOf g) (.cmd (slotOf g) (byte op)) 0 d

/-- STOP to a slot: the EDGE cells that wait for it on the lane are dropped with it (Table 4-10). -/
def sendStop (g : Fin 512) (d : Device) : Device := sendCmd g 2 d

/-- A WRITE of a slot register under the slot's next TAG. -/
def sendWrite (g : Fin 512) (addr : Nat) (data : BitVec 16) (d : Device) : Device × Byte :=
  let tag := (d.slot g).tag
  (sendCell (laneOf g) (.write (slotOf g) (byte addr) data tag) 0 (d.onSlot g fun s => { s with tag := s.tag + 1 }), tag)

/-- A READ of a slot register under the slot's next TAG. -/
def sendRead (g : Fin 512) (addr : Nat) (d : Device) : Device :=
  let tag := (d.slot g).tag
  sendCell (laneOf g) (.read (slotOf g) (byte addr) tag) 0 (d.onSlot g fun s => { s with tag := s.tag + 1 })

/-! ### The bits of a cell (Tables 4-2, 4-4, 4-5) -/

/-- Header and body of a downstream cell, before its CRC-8 (R97). -/
def cellBytes (c : DownCell) : List Byte :=
  let head (ty : Nat) (slot : Nat) : Byte := byte (ty * 16 + slot * 2)
  match c with
  | .edge s p on off np dir =>
    head 1 s.val :: beBytes 9
      (p.toNat * 2 ^ 48 + on.toNat * 2 ^ 27 + off.toNat * 2 ^ 6 + flag np 5 + flag dir 4)
  | .time k f => head 2 0 :: beBytes 5 (k.toNat * 256 + f.toNat * 8)
  | .write s a v t => head 3 s.val :: beBytes 4 (a.toNat * 2 ^ 24 + v.toNat * 256 + t.toNat)
  | .read s a t => head 4 s.val :: beBytes 2 (a.toNat * 256 + t.toNat)
  | .cmd s op => [head 5 s.val, op]
  | .bias s => [head 6 s.val]
  | .echo t => [head 7 0, t]

/-- A cell as it is sent after SOC. -/
def cellFrame (c : DownCell) : List Byte := cellBytes c ++ [crc8 (cellBytes c)]

/-- A cell starts on the wire: SOC and its bytes (R97). -/
def startCell (now : Nat) (q : QCell) (rest : List QCell) (l : Lane) : Lane :=
  let c := stampTime now l q.cell
  { l with sending := some (c, cellTicks c - 1), queue := rest, line := lineLoad 5 (symCell (cellFrame c)) l.line }

/-- The next symbol of a lane's downstream pair: the rest of a cell or IDLE in progress, the next cell, or IDLE between cells,
at the latest so that each 256 symbols hold one (R96, R99). The pair of an UNUSED lane goes idle once its last cells are sent
(Table 4-15). -/
def nextSymbol (now : Nat) (l : Lane) : Lane :=
  if !l.line.rest.isEmpty then { l with line := lineLoad 5 l.line.rest l.line } else
  match nextCell l.queue with
  | some (q, rest) =>
    if idleDue l.line (cellSymbols q.cell) then { l with line := lineIdle 5 l.line } else startCell now q rest l
  | none => { l with line := if l.state = .unused then lineOff l.line else lineIdle 5 l.line }

/-- The cell on the wire has one T-tick less to go; at its last it is sent. -/
def cellTick (l : Lane) : Lane :=
  match l.sending with
  | some (c, k + 1) => if k = 0 then { l with sending := none, sent := l.sent + 1 } else { l with sending := some (c, k) }
  | _ => l

/-- One T-tick of a lane's transmitter (R95): two bits of a code group of five T-ticks. -/
def laneTick (now : Nat) (l : Lane) : Lane :=
  let l := cellTick l
  if l.line.left = 0 then nextSymbol now l else { l with line := { l.line with left := l.line.left - 1 } }

/-- The two bits that a lane's downstream pair carries in the present T-tick, first and second (R95). -/
def laneBits (l : Lane) : Bool × Bool := (lineBit l.line (2 * l.line.left + 1), lineBit l.line (2 * l.line.left))

/-! ### Samples -/

/-- The sixteen samples of a SAMPLE_RAW body, most significant first (R113). -/
def rawSamples (body : BitVec 224) : List Int :=
  (List.range 16).map fun k => (BitVec.ofNat 14 (body.toNat / 2 ^ (224 - 14 * (k + 1)))).toInt

/-- The reconstruction of R115, from the previous value and the codes left. -/
def reconstruct (sh : Nat) : Int → List Int → List Int
  | _, [] => []
  | r, q :: qs =>
    let v := clampInt (-8192) 8191 (r + q * (2 ^ sh : Nat))
    v :: reconstruct sh v qs

/-- SAT of a SAMPLE_CMP body. -/
def cmpSat (body : BitVec 112) : Bool := body.getLsbD 5

/-- The sixteen samples of a SAMPLE_CMP body (R114, R115). -/
def cmpSamples (body : BitVec 112) : List Int :=
  let n := body.toNat
  let key := (BitVec.ofNat 14 (n / 2 ^ 98)).toInt
  let sh := n / 2 ^ 96 % 4
  let codes := (List.range 15).map fun k => (BitVec.ofNat 6 (n / 2 ^ (96 - 6 * (k + 1)))).toInt
  key :: reconstruct sh key codes

/-- The nearest integer to a / b, halves rounded upward (R126). -/
def roundUp (a b : Int) : Int := (2 * a + b) / (2 * b)

/-- A decoded sample in milliamperes (R126). -/
def sampleMa (s : Slot) (r : Int) : Int :=
  roundUp ((r - s.iofs.toInt) * s.igain.toNat * s.rep.iscale.toNat) 16384000

/-- A MEAS output voltage in set-point LSBs (R126). -/
def measVout (s : Slot) (raw : BitVec 16) : Nat :=
  (clampInt 0 0xFFFFF (roundUp (raw.toNat * s.rep.vscaleOut.toNat * s.vgain.toNat) (16384 * 200) + s.vofs.toInt)).toNat

/-- A MEAS input voltage in set-point LSBs (R126). -/
def measVin (s : Slot) (raw : BitVec 16) : Nat :=
  (clampInt 0 0xFFFFF (roundUp (raw.toNat * s.rep.vscaleIn.toNat) 200)).toNat

/-- The sample form and AUX code for a period (Table 4-6): compressed, and CFG_MODE[3:2]. -/
def sampleForm (p : Nat) : Bool × Nat :=
  if p ≥ 3200 then (false, 0) else if p ≥ 1600 then (false, 1) else (true, 2)

/-- CFG_MODE for a slot at a period (R112). -/
def cfgMode (s : Slot) (p : Nat) : Nat :=
  let f := sampleForm p
  4 * f.2 + flag f.1 1 + flag (s.rep.kind.getLsbD 1) 0

/-- CFG_OCTRIP (R110): 1.5 times the applied limit in sample LSBs, 1 to 8,191. R110 gives no rounding: the nearest value, halves
upward, and 1 at the least (DESIGN CHOICE, assumption 109). -/
def octripFor (s : Slot) : Nat :=
  max 1 (min 8191 (roundUp (15000 * s.limit.toNat) (max 1 s.rep.iscale.toNat)).toNat)

/-! ### Admission -/

/-- The rail whose phase list names a slot. No rule refuses an image in which two RAIL sections name one phase; it belongs to the
lowest-numbered of them alone (R18; DEDUCED, assumption 110). -/
def namingRail (d : Device) (g : Fin 512) : Option (Fin 64) :=
  (List.finRange 64).find? fun r =>
    match d.sect r with
    | some b => b.phases.contains g
    | none => false

/-- The period of a frequency group. -/
def groupPeriod (d : Device) (g : Fin 8) : Nat := bankGet d.str.device.body.fgPeriod g

/-- The period at which a slot is calibrated and runs (R125): that of its rail's group, or of the lowest-numbered
enabled group. -/
def slotPeriod (d : Device) (g : Fin 512) : Nat :=
  match (namingRail d g).bind d.sect with
  | some b => groupPeriod d b.fgroup
  | none =>
    match (List.finRange 8).find? fun k => bankGet d.str.device.body.fgEnable k with
    | some k => groupPeriod d k
    | none => 0

/-- A lane's entry of the LANES section; strap mode trains every lane as MODE 2 with every slot expected, and an absent
section trains the lanes of mapped phases (R62, Table 2-8). -/
def laneEntry (d : Device) (n : Fin 64) : Option LaneEntry :=
  (d.str.lanes.map (·.body)).bind fun l => l[n.val]?

/-- Is the slot expected (Table 4-12, first check)? -/
def slotExpected (d : Device) (g : Fin 512) : Bool :=
  if d.sys.strapMode then true else
  match d.str.lanes with
  | some _ =>
    match laneEntry d (laneOf g) with
    | some e => e.slotMask.getLsbD (slotOf g).val
    | none => false
  | none => (namingRail d g).isSome

/-- The checks of Table 4-12 in order: the first failure's reason. -/
def admissionFailure (d : Device) (g : Fin 512) : Option SlotReason :=
  let s := d.slot g
  let minRating := match laneEntry d (laneOf g) with | some e => e.minRating | none => 0
  if !slotExpected d g then some .notExpected
  else if s.rep.rating.toNat < minRating then some .rating
  else if (d.lane (laneOf g)).proto ≠ 1 then some .protocol
  else
    match (namingRail d g).bind d.sect with
    | none => none
    | some b =>
      let p := groupPeriod d b.fgroup
      if !(decide (p * s.rep.fmin.toNat ≤ 800000) && decide (800000 ≤ p * s.rep.fmax.toNat)) then some .frequency
      else if b.bidir && !(s.rep.kind.getLsbD 0 && s.rep.kind.getLsbD 1) then some .direction
      else none

/-- Are the values of a rating report in range (Table 4-9, R123)? -/
def ratingInRange (p : Rating) : Bool :=
  decide (p.kind.toNat < 4) && decide (1 ≤ p.rating.toNat ∧ p.rating.toNat ≤ 10000)
    && decide (1 ≤ p.iscale.toNat) && decide (1 ≤ p.vscaleOut.toNat) && decide (1 ≤ p.vscaleIn.toNat)
    && decide (20 ≤ p.fmin.toNat ∧ p.fmin.toNat ≤ p.fmax.toNat ∧ p.fmax.toNat ≤ 1000) && decide (p.minoff.toNat ≤ 400)

/-- A rating report from its nine registers in order. -/
def ratingOf (l : List (BitVec 16)) : Rating :=
  let a (i : Nat) : BitVec 16 := l.getD i 0
  ⟨a 0, a 1, a 2, a 3, a 4, a 5, a 6, a 7, a 8⟩

end Sys2Proof.Machine
end

