-- ==== Sys2Proof/Machine/Access.lean ====
section
/-! DEFINITION. Who may do what: the level of an access (R348, R318), and what every access does to its port's hold
registers (R9) and session (R353). -/

namespace Sys2Proof.Machine

/-- The port of a number. -/
def portIdx : Port → Fin 3
  | .spi => 0
  | .twoWire => 1
  | .debug => 2

/-- The levels of Table 14-1 in rising order. -/
inductive Level where
  | none
  | observe
  | operate
  | engineer
  | custodian
deriving DecidableEq, Repr

/-- The order of the levels. -/
def Level.rank : Level → Nat
  | .none => 0
  | .observe => 1
  | .operate => 2
  | .engineer => 3
  | .custodian => 4

/-- The level of an access: that of the port's session. The supervisor's accesses carry every right (assumption 21). -/
def srcLevel (d : Device) : Src → Nat
  | .sup => 4
  | .port p =>
    let s := bankGet d.sg.ports (portIdx p)
    if s.state = .opened then s.level.toNat + 1 else 0

/-- The ports answer from the end of start-up step 3 on (Table 2-6, R48). -/
def answers (d : Device) : Bool :=
  match d.sys.step with
  | .held | .filter | .wipe | .waitPll => false
  | .recovery | .pfailHold | .apply | .bringUp | .ready => true

/-- Does an access of a source reach the registers at all: the debug port's needs an authorisation (R359)? -/
def reaches (d : Device) : Src → Bool
  | .sup => true
  | .port .debug => answers d && decide (d.sg.auth ≠ .none)
  | .port _ => answers d

/-- May an access from a source that needs a level reach a block outside SYS, CLK, SG and HSP (R46, R318)? Before READY only
the supervisor's can. -/
def may (d : Device) (src : Src) (least : Level) : Bool :=
  decide (least.rank ≤ srcLevel d src) && reaches d src && (decide (src = .sup) || decide (d.sys.step = .ready))

/-- May an access from a source that needs a level reach a window that answers before READY (R48): SYS, CLK, SG and HSP? -/
def mayEarly (d : Device) (src : Src) (least : Level) : Bool :=
  decide (least.rank ≤ srcLevel d src) && reaches d src

/-- The supervisor counts as running while it has written HS.HEARTBEAT within the last 3 ticks, and is neither in reset nor
halted (R243). -/
def supRunning (tm : TimeBase) (d : Device) : Bool :=
  !d.fw.supReset && !d.fw.supHalted && (match d.hs.heartbeat with
    | some t => decide (tm.time.toNat - t < 2400000)
    | none => false)

/-- Image, coefficient, auto-tune and firmware commands act in COMMISSION and MAINTAIN alone (Table 14-1). -/
def lifeAllows (d : Device) : Bool := decide (d.sg.lc = .commission) || decide (d.sg.lc = .maintain)

/-- An access from a port: it restarts the session's idle time (R353), and it discards both holds of its port (R9). -/
def touch (tm : TimeBase) (src : Src) (d : Device) : Device :=
  match src with
  | .sup => d
  | .port p => if !reaches d src then d else { d with
      sg := { d.sg with ports := bankUpd d.sg.ports (portIdx p) fun s => { s with lastUse := tm.us.toNat } }
      ports := bankUpd d.ports (portIdx p) fun x => { x with readHold := none, writeHold := none } }

/-! ### The register windows (Table 12-5) -/

/-- Does the LCLK branch of a quadrant run (R32)? -/
def quadUp (d : Device) (q : Fin 4) : Bool := d.clk.lclkOn && bankGet d.clk.qclk q && !bankGet d.pwr.qoff q

/-- Where a register lies, as an access meets it. -/
inductive Window where
  /-- SYS, CLK, SG and HSP, which answer before READY (R48). -/
  | early
  /-- A window of BCLK or HCLK. -/
  | running
  /-- A partner register that the supervisor serves (R279). -/
  | served
  /-- A LANE or SLOT word: LCLK of its quadrant. -/
  | quad (q : Fin 4)
  /-- LCLK core. -/
  | core
  /-- ECLK. -/
  | engine
  /-- SCLK. -/
  | store
deriving DecidableEq, Repr

/-- The window of a word address. -/
def accessWindow (a : Nat) : Window :=
  if a < 0x500 then .early
  else if 0x1000 ≤ a ∧ a < 0x1800 then .quad (quadOfLane (Fin.ofNat 64 ((a - 0x1000) / 32)))
  else if 0x2000 ≤ a ∧ a < 0x3000 then .quad (quadOf (Fin.ofNat 512 ((a - 0x2000) / 8)))
  else if (0x1800 ≤ a ∧ a < 0x2000) ∨ (0x3000 ≤ a ∧ a < 0x5000) ∨ (0x8400 ≤ a ∧ a < 0x8800) then .core
  else if 0x5000 ≤ a ∧ a < 0x7000 then .engine
  else if (0x9000 ≤ a ∧ a < 0x9400) ∨ (0x9800 ≤ a ∧ a < 0xA000) then .store
  else if (0x7800 ≤ a ∧ a < 0x8000) ∨ (0x7010 ≤ a ∧ a < 0x7014) then .served
  else .running

/-- Is a window not yet accessible to a port: before READY all but SYS, CLK, SG and HSP (R48); and, while the supervisor does not
run, the partner registers that it serves (R279, R15)? -/
def Window.shut (tm : TimeBase) (d : Device) : Window → Bool
  | .early => false
  | .served => decide (d.sys.step ≠ .ready) || !supRunning tm d
  | .running | .quad _ | .core | .engine | .store => decide (d.sys.step ≠ .ready)

/-- Does the clock of a window run (Table 12-5)? -/
def Window.runs (d : Device) : Window → Bool
  | .early | .running | .served => true
  | .quad q => quadUp d q
  | .core => d.clk.lclkOn
  | .engine => d.clk.eclkOn
  | .store => d.clk.sclkOn

/-! ### The level of a command -/

/-- What a write does that takes effect only from a level on. -/
def byLevel (src : Src) (least : Level) (f : Device → Device) (d : Device) : Device := if may d src least then f d else d

/-- A command that a source without the level ends with a result of its own. -/
def byLevelOr (src : Src) (least : Level) (denied f : Device → Device) (d : Device) : Device :=
  if may d src least then f d else if may d src .none then denied d else d

end Sys2Proof.Machine
end

