-- ==== Sys2Proof/Machine/LoopMath.lean ====
section
/-! DEFINITION. The loop engine's arithmetic (R157 to R163, R165): exact integers in the Q formats, saturated where the
spec saturates. -/

namespace Sys2Proof.Machine

/-- Saturation to 32 bits (R161). -/
def sat32 (x : Int) : Int := clampInt (-(2 ^ 31)) (2 ^ 31 - 1) x

/-- Saturation to 72 bits (R161). -/
def sat72 (x : Int) : Int := clampInt (-(2 ^ 71)) (2 ^ 71 - 1) x

/-- A coefficient's shift, taken into -24 to 8 (R160). -/
def coefShift (c : Coef) : Int := clampInt (-24) 8 c.s.toInt

/-- One multiply-accumulate (R161). -/
def mac (acc : Int) (c : Coef) (x : Int) : Int :=
  let p := c.m.toInt * x
  let s := coefShift c
  let t := if s ≥ -1 then p * 2 ^ (s + 1).toNat else p / 2 ^ (-s - 1).toNat
  sat72 (acc + t)

/-- Did sat72 act in a multiply-accumulate (R164)? -/
def macActed (acc : Int) (c : Coef) (x : Int) : Bool :=
  let p := c.m.toInt * x
  let s := coefShift c
  let t := if s ≥ -1 then p * 2 ^ (s + 1).toNat else p / 2 ^ (-s - 1).toNat
  decide (sat72 (acc + t) ≠ acc + t)

/-- Q9.63 to Q1.31, nearest, halves upward (R161). -/
def finish (acc : Int) : Int := sat32 ((acc + 2 ^ 31) / 2 ^ 32)

/-- What sat32 has to hold within its range there. -/
def finishRaw (acc : Int) : Int := (acc + 2 ^ 31) / 2 ^ 32

/-- Terms added in their order: the sum, and whether sat72 acted. -/
def macAll (terms : List (Coef × Int)) : Int × Bool :=
  terms.foldl (fun a t => (mac a.1 t.1 t.2, a.2 || macActed a.1 t.1 t.2)) (0, false)

/-- What an evaluation answers: its output, the history that it stores, and whether a limit or sat72 acted (R164). -/
structure LoopOut where
  out : Int
  stored : Int
  limited : Bool
  saturated : Bool
deriving DecidableEq, Repr

/-- The outer error (Table 6-1). -/
def outerError (target v : Int) : Int := sat32 ((target - v) * 2048)

/-- The terms of the outer compensator in their order (R162): three b and two a of template 0, four and three of
template 1. -/
def outerTerms (template : Bool) (c : Bank 8 Coef) (e0 e1 e2 e3 y1 y2 y3 : Int) : List (Coef × Int) :=
  let b := [(bankGet c 0, e0), (bankGet c 1, e1), (bankGet c 2, e2)]
  let a := [(bankGet c 4, y1), (bankGet c 5, y2)]
  if template then b ++ [(bankGet c 3, e3)] ++ a ++ [(bankGet c 6, y3)] else b ++ a

/-- A feed-forward term (R162, R163, R185). -/
def ffTerm (on : Bool) (c : Coef) (x : Int) : Int := if on then finish (mac 0 c x) else 0

/-- A compensator sum with its term and limits (R162, R163): the output, its history less the term, and whether a limit or
sat32 changed the output or sat72 acted in the sum or in the term (R164). -/
def limitOut (terms : List (Coef × Int)) (on : Bool) (c : Coef) (x lo hi : Int) : LoopOut :=
  let a := macAll terms
  let ff := ffTerm on c x
  let o := min (max (sat32 (finish a.1 + ff)) lo) hi
  let free := finishRaw a.1 + (if on then finishRaw (mac 0 c x) else 0)
  ⟨o, sat32 (o - ff), decide (o ≠ free), a.2 || (on && macActed 0 c x)⟩

/-- The duty of an inner output (R163). -/
def dutyOf (u : Int) : Nat := ((u + 16384) / 32768).toNat

/-- The set-point of a phase from the demand and its share, held within its limit in mA (R165). -/
def irefOf (dem : Int) (share limitMa : Nat) : Int :=
  let top : Int := (limitMa : Int) * 16384
  clampInt (-top) top (sat32 ((dem * share + 2 ^ 23) / 2 ^ 24))

/-- A phase's share of the acceleration current A in mA (R191). -/
def xaccOf (a : Int) (share : Nat) : Int := sat32 ((a * 128 * share + 2 ^ 23) / 2 ^ 24)

/-- A full weight: weights count in 1/720,720, which every HANDOVER from 1 to 16 divides. -/
def fullWeight : Nat := 720720

/-- The share f(x) (R165): round(2^24 × 128 × w / W), halves upward. -/
def shareOf (w total : Nat) : Nat := if total = 0 then 0 else (2 * (2 ^ 31 * w) + total) / (2 * total)

/-- The mean of 16 currents in mA, rounded half up, in the scale of imeas (R157, R158). -/
def imeasOf (ma : List Int) : Int := sat32 (((ma.foldl (· + ·) 0 * 2 + 16) / 32) * 16384)

/-- The depth D of a period (Table 6-3). -/
def depthOf (p : Nat) : Nat := if p ≥ 2512 then 1 else if p ≥ 1023 then 2 else 3

/-- The mean of some values, rounded half up. -/
def meanUp (sum count : Nat) : Nat := if count = 0 then 0 else (2 * sum + count) / (2 * count)

/-- A VSENSE result in set-point LSBs (R159). -/
def vsenseLsb (d : DeviceSect) (n : Fin 8) (code : BitVec 16) : Nat :=
  (clampInt 0 0xFFFFF (roundUp (code.toNat * bankGet d.vsScale n) 200 + bankGet d.vsOffset n)).toNat

end Sys2Proof.Machine
end

