-- ==== Sys2Proof/Machine/Timebase.lean ====
section
/-! DEFINITION. The timebase's carriers and ring tracker (R138 to R140, R149 to R153), the placed sets and their angles
(R142, R145 to R148, R451), and the building of EDGE cells (R143, R144). -/

namespace Sys2Proof.Machine

/-! ### Carriers -/

/-- Is a group ring-locked (R152)? -/
def ringLocked (d : Device) (g : Fin 8) : Bool :=
  d.tbi.ringlock.getLsbD g.val && decide (d.tbi.ring.state ≠ .standalone)

/-- H of R152. -/
def stretchOf (p : Nat) : Nat := max 1 (ceilDiv p 4096)

/-- Ring time of a local TIME (R150), which can be below zero for a member that started first. -/
def ringTime (d : Device) (t : Nat) : Int :=
  if d.tbi.ring.state = .reference then t else roundUp (32 * (t : Int) - d.tbi.ring.eps) 32

/-- The grid point nearest to a ring time, ties to the later point (R152, R153). -/
def gridNearest (rofs step : Nat) (t : Int) : Int :=
  let a := t - rofs
  rofs + (2 * a + step) / (2 * step) * step

/-- C(k+2) from C(k+1) (R153), and whether the group is on the grid. -/
def planCarrier (d : Device) (g : Fin 8) (c1 : Nat) : Nat × Bool :=
  let p := groupPeriod d g
  if !ringLocked d g then (c1 + p, false) else
  let h := stretchOf p
  match d.tbi.ring.state with
  | .locked | .holdover | .reference =>
    let r1 := ringTime d c1
    let goal := gridNearest (bankGet d.tbi.carriers g).rofs.toNat (p + h) (r1 + p + h)
    let len := clampInt p (p + 2 * h) (goal - r1)
    (c1 + len.toNat, decide (goal - r1 = p + h))
  | .standalone | .acquiring => (c1 + p + h, false)

/-- The start of the carrier period of an index, when it is fixed. -/
def carrierAt (c : Carrier) (k : Nat) : Option Nat :=
  if !c.started then none
  else if k = c.k then some c.c0 else if k = c.k + 1 then some c.c1 else if k = c.k + 2 then some c.c2 else none

/-- One carrier changed. -/
def Device.onCarrier (d : Device) (g : Fin 8) (f : Carrier → Carrier) : Device :=
  { d with tbi := { d.tbi with carriers := bankUpd d.tbi.carriers g f } }

/-- The carriers of all enabled groups start together at a T-tick (R140); a member in LOCKED starts each ring-locked
group at the first grid point after it (R153). -/
def startCarriers (t : Nat) (d : Device) : Device :=
  (List.finRange 8).foldl (fun d g =>
    if !bankGet d.str.device.body.fgEnable g then d else
    let p := groupPeriod d g
    let c0 :=
      if ringLocked d g ∧ d.tbi.ring.state = .locked then
        let step := p + stretchOf p
        let r := ringTime d t
        let rofs := (bankGet d.tbi.carriers g).rofs.toNat
        let goal := rofs + ((r - rofs) / step + 1) * step
        t + (goal - r).toNat
      else t
    let c1 := planCarrier d g c0
    let c2 := planCarrier d g c1.1
    d.onCarrier g fun c => { c with started := true, k := 0, c0 := c0, c1 := c1.1, c2 := c2.1, locked := c2.2 }) d

/-- A carrier goes on to its next period (R153). -/
def advanceCarrier (g : Fin 8) (d : Device) : Device :=
  let c := bankGet d.tbi.carriers g
  let p := planCarrier d g c.c2
  d.onCarrier g fun c => { c with k := c.k + 1, c0 := c.c1, c1 := c.c2, c2 := p.1, locked := p.2, vs := bankFill 8 (0, 0) }

/-! ### The ring tracker -/

/-- The tracker restarts (Table 5-2). -/
def restartTracker (r : Tracker) : Tracker :=
  { r with state := .acquiring, first := true, second := false, goodRun := 0, badRun := 0 }

/-- An ash record of the ring: EVENT 1 holdover entered, 2 tracker restarted (Table 16-2). -/
def raiseRing (tm : TimeBase) (event : Nat) (d : Device) : Device :=
  let r := d.tbi.ring
  let st := match r.state with
    | .standalone => 0 | .reference => 1 | .acquiring => 2 | .locked => 3 | .holdover => 4
  raise tm 0x21 (leBytes 1 event ++ leBytes 1 st ++ leBytes 2 (satInt 16 r.err).toNat ++ leBytes 2 (satInt 16 r.rate).toNat) d

/-- One measurement of a member that follows (R150): the tracker with its new error, and whether an error was formed. -/
def measureEpoch (r : Tracker) (e ta : Int) : Tracker × Bool :=
  let m := ta - r.syncDelay.toNat - e * 25600000
  if r.first then ({ r with epoch := e, eps := m, rate := 0, first := false, second := true }, false)
  else if r.second then ({ r with epoch := e, rate := m - r.eps, eps := m, second := false }, false)
  else
    let pred := r.eps + r.rate
    let err := m - pred
    ({ r with epoch := e, err := err, eps := pred + err / 4, rate := r.rate + err / 32 }, true)

/-- SYNCIN is forwarded to the member's own SYNCOUT (R149). No row gives its falling edge: the pulse lasts as long as the
reference's (DESIGN CHOICE, assumption 93). -/
def forwardSync (now : Nat) (r : Tracker) : Tracker :=
  match r.state with
  | .standalone | .reference => r
  | .acquiring | .locked | .holdover => { r with syncout := true, syncEnd := some (now + 80) }

/-- A SYNCIN edge at a T-tick and fine part (R150, R151). -/
def syncEdge (tm : TimeBase) (fine : Nat) (d : Device) : Device :=
  let r := forwardSync tm.time.toNat d.tbi.ring
  let ta : Int := 32 * tm.time.toNat + fine
  let put (r : Tracker) : Device := { d with tbi := { d.tbi with ring := r } }
  match r.state with
  | .standalone | .reference => d
  | .acquiring =>
    match r.linkEpoch with
    | none => put r
    | some e =>
      let m := measureEpoch r e ta
      if !m.2 then put m.1 else
      let run := if m.1.err.natAbs ≤ 32 then m.1.goodRun + 1 else 0
      if run ≥ 16 then put { m.1 with state := .locked, locks := m.1.locks + 1, goodRun := 0, badRun := 0 }
      else put { m.1 with goodRun := run }
  | .locked | .holdover =>
    let e := r.epoch + 1
    let pred := r.eps + r.rate
    let err := ta - r.syncDelay.toNat - e * 25600000 - pred
    let follow : Device :=
      if err.natAbs > 3200 then
        let held := { r with epoch := e, err := err, eps := pred }
        match r.state with
        | .holdover =>
          if r.badRun + 1 ≥ 8 then raiseRing tm 2 (put (restartTracker held))
          else put { held with badRun := r.badRun + 1, goodRun := 0 }
        | _ => raiseRing tm 1 (put { held with state := .holdover, holdovers := r.holdovers + 1, badRun := 0, goodRun := 0 })
      else
        let m := (measureEpoch r e ta).1
        let run := if err.natAbs ≤ 32 then r.goodRun + 1 else 0
        if r.state = .holdover ∧ run ≥ 16 then put { m with state := .locked, locks := m.locks + 1, goodRun := 0, badRun := 0 }
        else put { m with goodRun := run, badRun := 0 }
    -- a link that reports no number disagrees with none
    match r.linkEpoch with
    | some n => if (n : Int) ≠ e then raiseRing tm 2 (put (restartTracker r)) else follow
    | none => follow

/-- A missing pulse (R151): LOCKED goes to HOLDOVER, and in HOLDOVER the offset runs on at its rate (R150). -/
def syncMissing (tm : TimeBase) (d : Device) : Device :=
  let r := d.tbi.ring
  let coast := { r with epoch := r.epoch + 1, eps := r.eps + r.rate }
  match r.state with
  | .locked => raiseRing tm 1 { d with tbi := { d.tbi with
      ring := { coast with state := .holdover, holdovers := r.holdovers + 1, badRun := 0, goodRun := 0 } } }
  | .holdover => { d with tbi := { d.tbi with ring := { coast with goodRun := 0 } } }
  | _ => d

/-! ### Placed sets -/

/-- The phases of a rail's list. -/
def railPhases (d : Device) (r : Fin 64) : List (Fin 512) :=
  match d.sect r with
  | some b => b.phases
  | none => []

/-- Phases that have left a rail's list and are still placed: they hand their current over (R82, R148). -/
def leaversOf (d : Device) (r : Fin 64) : List (Fin 512) :=
  (bankGet d.tbi.rails r).leavers.filter fun g =>
    (d.phase g).placed && decide ((d.slot g).owner = some r) && !(railPhases d r).contains g

/-- The placed set of a rail in list order (R142); those that have left the list follow it. -/
def placedOf (d : Device) (r : Fin 64) : List (Fin 512) :=
  ((railPhases d r).filter fun g => (d.phase g).placed && decide ((d.slot g).owner = some r)) ++ leaversOf d r

/-- The period P of a rail's group. -/
def railPeriod (d : Device) (r : Fin 64) : Nat :=
  match d.sect r with
  | some b => groupPeriod d b.fgroup
  | none => 0

/-- The carrier of a rail. -/
def railCarrier (d : Device) (r : Fin 64) : Carrier :=
  match d.sect r with
  | some b => bankGet d.tbi.carriers b.fgroup
  | none => Carrier.reset

/-- HO in periods (Table 5-5). -/
def handoverOf (d : Device) : Nat := max 1 (min 16 d.tbi.handover.toNat)

/-- One step of a weight ramp. -/
def weightStep (d : Device) : Nat := fullWeight / handoverOf d

/-- The new angles of a placed set (R146). A host write of the base gives the base itself and rho 0. -/
def recompute (r : Fin 64) (written : Option Nat) (d : Device) : Device :=
  let p := railPeriod d r
  let set := placedOf d r
  let n := set.length
  if n = 0 ∨ p = 0 then d else
  let base := match written with
    | some b => b % p
    | none => (bankGet d.tbi.rails r).base
  let h2 := p / 2
  let items := (List.range n).zip set
  let u (j : Nat) : Nat := (base + (j * p) / n) % p
  let olds := items.filterMap fun (j, g) =>
    let ph := d.phase g
    if ph.angled then some ((((ph.angle : Int) - u j + h2) % p) - h2) else none
  let rho : Int := match written, olds with
    | some _, _ => 0
    | none, [] => 0
    | none, o :: os => os.foldl max o
  let base' := (((base : Int) + rho) % p).toNat
  let d := { d with tbi := { d.tbi with rails := bankUpd d.tbi.rails r fun t => { t with base := base' } } }
  items.foldl (fun d (j, g) =>
    let target := (((u j : Int) + rho) % p).toNat
    d.onPhase g fun ph =>
      if ph.angled then { ph with move := (target + p - ph.angle % p) % p } else { ph with angle := target, move := 0 }) d

/-- Work in the engine's window: waiting there or running on a slice (R171). -/
def windowCount (e : Engine) : Nat := e.window.length + bankCount e.slices (·.isSome)

/-- Evaluations move from the admission queue into the window while it has room; WINDOW_HW keeps the most that it held. -/
def refillFrom : Nat → Engine → Engine
  | 0, e => e
  | k + 1, e =>
    match e.queue with
    | [] => e
    | q :: qs =>
      if windowCount e < 128 then
        refillFrom k { e with
          window := e.window ++ [q], queue := qs, windowHw := byte (max e.windowHw.toNat (windowCount e + 1)) }
      else e

/-- The window takes what it has room for (R171). -/
def refillWindow (e : Engine) : Engine := refillFrom e.queue.length e

/-- The evaluations that a test picks are cancelled wherever they wait or run, and the window fills up again (R171). -/
def cancelEvals (pick : Eval → Bool) (e : Engine) : Engine :=
  refillWindow { e with
    window := e.window.filter fun x => !pick x
    queue := e.queue.filter fun x => !pick x
    slices := bankMap e.slices fun _ s => match s with
      | some x => if pick x then none else some x
      | none => none }

/-- Evaluations of a phase in flight or waiting are cancelled (R178). -/
def cancelInner (g : Fin 512) (e : Engine) : Engine :=
  cancelEvals (fun x => decide (x.loop = .inner g)) { e with results := e.results.filter fun x => decide (x.loop ≠ .inner g) }

/-- Every evaluation of a rail in flight or waiting is discarded (R170). -/
def cancelRail (r : Fin 64) (e : Engine) : Engine :=
  cancelEvals (fun x => decide (x.rail = r)) { e with results := e.results.filter fun x => decide (x.rail ≠ r) }

/-- The duty of a phase in the carrier period before the one that begins now (R178): its last build may already be for
the period that begins. -/
def dutyBefore (d : Device) (r : Fin 64) (g : Fin 512) : Nat :=
  let ph := d.phase g
  if (railCarrier d r).k ≤ ph.builtFor then ph.dutyWas else ph.prevDuty

/-- The mean duty of a rail's full-weight phases in the previous carrier period, rounded down; the preset duty when there is
none (R178). -/
def joinDuty (d : Device) (r : Fin 64) : Nat :=
  let full := (placedOf d r).filter fun g => decide ((d.phase g).weight = fullWeight)
  match full with
  | [] => (d.loop r).preset
  | _ => (full.foldl (fun a g => a + dutyBefore d r g) 0) / full.length

/-- An ordered join (Table 5-1): the phase is placed with weight 0 and its ramp begins; its histories start as R178
gives. A join of a phase whose leave is ramping cancels the leave (R148). -/
def orderedJoin (r : Fin 64) (g : Fin 512) (d : Device) : Device :=
  let ph := d.phase g
  let step := weightStep d
  if ph.placed then
    match ph.ramp with
    | .down _ => if (d.slot g).owner = some r then d.onPhase g fun p => { p with ramp := .up step, after := .admitted } else d
    | _ => d
  else
    let duty := joinDuty d r
    let d := d.onPhase g fun p => { Phase.reset with
      placed := true
      ramp := .up step
      startDue := true
      prevDuty := duty
      dutyWas := duty
      duty := p.duty
      y1 := duty * 32768
      y2 := duty * 32768
      dir := p.dir
      nopulse := p.nopulse
      -- a STOP that is still owed goes before START (R128)
      stopAt := p.stopAt }
    recompute r none d

/-- An ordered leave (Table 5-1, R148): the weight ramps down from its present value. -/
def orderedLeave (g : Fin 512) (after : AfterLeave) (d : Device) : Device :=
  let step := weightStep d
  d.onPhase g fun p => if p.placed then { p with ramp := .down step, after := after } else p

/-- A phase is unplaced: its histories are discarded and its evaluations cancelled (R178). A STOP is owed from the end of
its last period (R128), unless the slot takes none. A phase over-current of it clears (Table 11-1). -/
def unplace (g : Fin 512) (stopAt : Option Nat) (d : Device) : Device :=
  let d := if (d.phase g).placed then
      clearSources (fun e => decide (e.source = 1) && decide (e.srcIndex = g.val)) d else d
  let d := d.onSlot g fun s => { s with owner := namingRail d g }
  let d := d.onPhase g fun p => { p with
    placed := false, angled := false, weight := 0, ramp := .steady, firstAt := none, move := 0, startDue := false
    stopAt := stopAt, newDuty := none, e1 := 0, e2 := 0, y1 := 0, y2 := 0, share := 0, periods := [] }
  { d with le := cancelInner g d.le }

/-- The ramp of one weight at a boundary; a phase whose weight reaches 0 is unplaced. Answers whether it was. -/
def stepWeight (k : Nat) (g : Fin 512) (d : Device) : Device × Bool :=
  let ph := d.phase g
  match ph.ramp with
  | .steady => (d, false)
  | .up s =>
    if !ph.angled || (match ph.firstAt with | some f => decide (k < f) | none => false) then (d, false) else
    let w := min fullWeight (ph.weight + s)
    (d.onPhase g fun p => { p with weight := w, ramp := if w = fullWeight then .steady else .up s }, false)
  | .down s =>
    if ph.weight ≤ s then (unplace g (some ph.pstart) d, true)
    else (d.onPhase g fun p => { p with weight := p.weight - s }, false)

/-- The weights of a rail's phases in list order, each unplacing followed by its recompute (R148). -/
def stepWeights (r : Fin 64) (d : Device) : Device :=
  let k := (railCarrier d r).k
  (placedOf d r).foldl (fun d g =>
    let s := stepWeight k g d
    if s.2 then recompute r none s.1 else s.1) d

/-- The joiners of this boundary take their angles: the first cell lies in this carrier period or in the next one
(R451). -/
def settleJoiners (r : Fin 64) (d : Device) : Device :=
  let c := railCarrier d r
  (placedOf d r).foldl (fun d g =>
    if (d.phase g).angled then d else
    let a := (d.phase g).angle
    let k := if a ≥ 800 then c.k else c.k + 1
    let start := (if a ≥ 800 then c.c0 else c.c1) + a
    let d := d.onPhase g fun p => { p with angled := true, firstAt := some k, kNext := k, pstart := start }
    if a ≥ 800 then (stepWeight c.k g d).1 else d) d

/-- W of R165, in weight units. -/
def weightSum (d : Device) (r : Fin 64) : Nat := (placedOf d r).foldl (fun a g => a + (d.phase g).weight) 0

/-- Is a weight of the rail ramping? -/
def rampingRail (d : Device) (r : Fin 64) : Bool := (placedOf d r).any fun g => decide ((d.phase g).ramp ≠ .steady)

/-- Is a move of the rail unfinished? -/
def movingRail (d : Device) (r : Fin 64) : Bool := (placedOf d r).any fun g => decide ((d.phase g).move ≠ 0)

/-- W, Lmin, hi, lo and the shares for the carrier period that begins here (R165). -/
def fixShares (r : Fin 64) (d : Device) : Device :=
  match d.sect r with
  | none => d
  | some b =>
    let set := placedOf d r
    let w := weightSum d r
    let limits := set.map fun g => (d.slot g).limit.toNat * 10
    let lmin := match limits with | [] => 0 | l :: ls => ls.foldl min l
    let ilim := (d.rail r).ilimNow.toNat * 100
    let hi := sat32 (((min ilim (w * lmin / fullWeight) : Nat) : Int) * 128)
    let d := d.onLoop r fun l => { l with w := w, lmin := lmin, hi := hi, lo := if b.bidir then -hi else 0 }
    let k := (bankGet d.tbi.carriers b.fgroup).k
    set.foldl (fun d g =>
      let f := shareOf (d.phase g).weight w
      d.onPhase g fun p => { p with
        share := f
        periods := p.periods.map fun x =>
          if x.carrier = k then { x with share := f, limit := (d.slot g).limit.toNat * 10 } else x }) d

/-! ### Building a cell -/

/-- The width of the active interval in fine units, held within the slot's minimum off time (R144). -/
def pulseWidth (frac len p minoff : Nat) : Nat := min ((frac * 32 * len + 32768) / 65536) (32 * (p - minoff))

/-- ON_OFS, OFF_OFS and NOPULSE of a cell (R144). -/
def pulseFields (frac len p minoff minpulse : Nat) : Nat × Nat × Bool :=
  let w := pulseWidth frac len p minoff
  if w = 0 ∨ w < 32 * minpulse then (0, 0, true) else (0, w, false)

/-- The PSTART after the next one: a move stretches the period by at most P div 8 (R147). Answers the new angle, what is
left of the move, the carrier period of the new PSTART and the new PSTART. -/
def nextStart (c : Carrier) (p : Nat) (ph : Phase) : Option (Nat × Nat × Nat × Nat) :=
  match carrierAt c (ph.kNext + 1) with
  | none => none
  | some start =>
    let step := min ph.move (p / 8)
    let a := ph.angle + step
    some (if a ≥ p then a - p else a, ph.move - step, if a ≥ p then ph.kNext + 2 else ph.kNext + 1, start + a)

/-- The slot enters SERVING when the TBI builds its first cell after a join (R203). -/
def enterServing (g : Fin 512) (d : Device) : Device :=
  match (d.slot g).state with
  | .admitted => setSlot g .serving .none (d.onSlot g fun s => { s with sampledAt := none })
  | _ => d

/-- Does the first cell of a join still wait for the lane's receiver to wake (R362)? -/
def awaitsReceiver (now : Nat) (g : Fin 512) (d : Device) : Bool :=
  (d.phase g).startDue && (match (d.lane (laneOf g)).wokeAt with
    | some t => decide (now < t + 800 * min 10 Config.laneWake)
    | none => false)

/-- The EDGE cell of a placed phase's next period (R143, R144), with START before its first cell (R128). -/
def buildEdge (now : Nat) (g : Fin 512) (d : Device) : Device :=
  let ph := d.phase g
  match (d.slot g).owner with
  | none => d
  | some r =>
    match d.sect r with
    | none => d
    | some b =>
      if !ph.placed || !ph.angled || decide ((d.lane (laneOf g)).state ≠ .up) then d else
      let p := groupPeriod d b.fgroup
      match nextStart (bankGet d.tbi.carriers b.fgroup) p ph with
      | none => d
      | some (angle, left, k, next) =>
        if awaitsReceiver now g d then
          d.onPhase g fun q => { q with angle := angle, move := left, kNext := k, pstart := next, firstAt := some k }
        else
        let duty := ph.newDuty.getD ph.prevDuty
        let dir := b.bidir && ph.demNeg
        let f := pulseFields (if dir then 65536 - duty else duty) (next - ph.pstart) p (d.slot g).rep.minoff.toNat
          d.tbi.minPulse.toNat
        let d := if ph.startDue then
            enterServing g (sendCmd g 1 (if ph.stopAt.isSome then sendStop g d else d)) else d
        let d := sendCell (laneOf g) (.edge (slotOf g) (BitVec.ofNat 24 ph.pstart) (BitVec.ofNat 21 f.1)
          (BitVec.ofNat 21 f.2.1) f.2.2 dir) ph.pstart d
        d.onPhase g fun q => { q with
          angle := angle
          move := left
          kNext := k
          pstart := next
          prevDuty := duty
          builtFor := ph.kNext
          dutyWas := ph.prevDuty
          newDuty := none
          stopAt := none
          startDue := false
          firstAt := none
          dir := dir
          nopulse := f.2.2
          periods := q.periods ++ [⟨ph.pstart, next, ph.kNext, q.share, (d.slot g).limit.toNat * 10⟩] }

/-- STOPs that are due at a boundary instant (R128): the slot then is ADMITTED, or RETIRED where it is being retired. -/
def emitStops (now : Nat) (gs : List (Fin 512)) (d : Device) : Device :=
  gs.foldl (fun d g =>
    match (d.phase g).stopAt with
    | some t =>
      if t ≤ now ∧ (!(d.phase g).placed || (d.phase g).startDue) then
        let after := (d.phase g).after
        let d := sendStop g (d.onPhase g fun p => { p with stopAt := none, after := .admitted })
        if (d.slot g).state = .serving then
          match after with
          | .admitted => setSlot g .admitted .none d
          | .retired => setSlot g .retired .none d
        else d
      else d
    | none => d) d

end Sys2Proof.Machine
end

