-- ==== Sys2Proof/Machine/Engine.lean ====
section
/-! DEFINITION. The loop engine's evaluations (R156 to R176, R180 to R182), the acceleration track (R190, R191) and the
presets of output histories (R177, R186). Reports to the rail manager are made by the callers. -/

namespace Sys2Proof.Machine

/-! ### What the engine reads -/

/-- Has an auto-tune run been started on a rail, begun or not (R195)? -/
def tuneAsked (d : Device) (r : Fin 64) : Bool :=
  match d.tune.run with
  | some t => decide (t.rail = r)
  | none => false

/-- Is an auto-tune run in progress on a rail? It begins at the next sample instant of the tuned loop (R195). -/
def tuning (d : Device) (r : Fin 64) : Bool :=
  match d.tune.run with
  | some t => decide (t.rail = r) && !t.waiting
  | none => false

/-- The mode of a rail's evaluations (Table 6-5). -/
def railMode (d : Device) (r : Fin 64) : Option EvalMode :=
  match (d.rail r).state with
  | .precharge | .ramp | .hold => some .immediate
  | .regulate => some (if tuning d r then .immediate else .fixed)
  | .off | .armed | .fault | .safe => none

/-- What was in force at an instant that has passed: of the changes after it, newest first with their TIME and the value before
them, the first one's value; the present value where there is none. -/
def valueAt {α : Type} (log : List (Nat × α)) (present : α) (instant : Nat) : α :=
  log.foldl (fun v x => if instant < x.1 then x.2 else v) present

/-- A change is noted with its TIME; what is older than 10 ms bears on no evaluation. -/
def noteChange {α : Type} (now : Nat) (was : α) (log : List (Nat × α)) : List (Nat × α) :=
  (now, was) :: log.filter fun x => decide (now - x.1 < 8000000)

/-- The mode of a rail at an instant that has passed (R169). -/
def railModeAt (d : Device) (r : Fin 64) (instant : Nat) : Option EvalMode := valueAt (d.loop r).modeLog (railMode d r) instant

/-- A change of mode between two states of the device is noted with its TIME (R170). -/
def noteMode (tm : TimeBase) (r : Fin 64) (before after : Device) : Device :=
  if railMode before r = railMode after r then after
  else after.onLoop r fun l => { l with modeLog := noteChange tm.time.toNat (railMode before r) l.modeLog }

/-- The section of a rail at an instant that has passed (R79). -/
def sectAt (d : Device) (r : Fin 64) (instant : Nat) : Option RailSect :=
  (d.sect r).map fun b => valueAt (d.loop r).sectLog b instant

/-- The ACC of one ledger entry at a device time, signed 10 mA (R190): the segment that covers the time, between the
entry's start and the end of its last segment. -/
def entryAcc (e : Entry) (t : Word) : Int :=
  match e.start, e.state with
  | some s, .granted | some s, .active =>
    let startUs : Word := word (s * 1000)
    if !notEarlierUs t startUs then 0 else
    let el := (t - word (e.first * 1000)).toNat
    if el ≥ 2 ^ 31 then 0 else
    let find := e.segs.foldl (fun (acc : Nat × Option Int) seg =>
      let stop := acc.1 + seg.dur * 1000
      (stop, if acc.2.isNone ∧ el < stop then some seg.acc.toInt else acc.2)) (0, none)
    find.2.getD 0
  | _, _ => 0

/-- The track of a rail at a device time, in mA (R190). -/
def trackAt (d : Device) (r : Fin 64) (t : Word) : Int :=
  let sum := d.hs.ledger.toList.foldl (fun a e => if e.rail = some r then a + entryAcc e t else a) 0
  let top : Int := match d.sect r with | some b => (b.ilimRail : Int) * 100 | none => 0
  clampInt (-top) top (sum * 10)

/-- The lookup time of the inner evaluation whose result is for the period that starts at PSTART (R191). -/
def lookupTime (d : Device) (r : Fin 64) (pstart : Nat) : Word :=
  word ((pstart + 800 * (bankGet d.le.ffs r).accLead.toNat) / 800)

/-- vin after the window (R188). -/
def vinFf (d : Device) (r : Fin 64) (vin : Nat) : Nat :=
  let f := bankGet d.le.ffs r
  min (max vin f.vinLo.toNat) f.vinHi.toNat

/-- The coefficients of a loop as they stood at an instant (R180): what arrived at it or later taken back. -/
def coefsAt (l : LoopSt) (outer : Bool) (t : Nat) : Bank 8 Coef :=
  l.coefLog.foldl (fun c w => if w.2.1 = outer ∧ w.1 ≥ t then bankSet c w.2.2.1 w.2.2.2.1 else c)
    (if outer then l.outer else l.inner)

/-- The demand in force for the carrier period of an index (R166). -/
def demFor (l : LoopSt) (k : Nat) : Int :=
  match l.demNext.find? fun x => decide (x.1 ≤ k) with
  | some x => x.2
  | none => l.dem

/-- The newest MEAS of a slot received before an instant. -/
def measBefore (s : Slot) (instant : Nat) : Option MeasView :=
  match s.meas with
  | some m => if m.when < instant then some m else s.measWas
  | none => none

/-- The mean over the placed phases of the newest MEAS received before the outer sample instant C(j) and no more than 256
carrier periods before it (R159). -/
def stageMean (d : Device) (r : Fin 64) (f : MeasView → Nat) (j instant : Nat) : Option Nat :=
  let vs := (placedOf d r).filterMap fun g =>
    match measBefore (d.slot g) instant with
    | some m => if j ≤ m.carrier + 256 then some (f m) else none
    | none => none
  match vs with
  | [] => none
  | _ => some (meanUp (vs.foldl (· + ·) 0) vs.length)

/-- A voltage of a source at an outer sample instant (R159): the mean of the conversions that ended within the carrier
period, the newest one where none did, or the stages' mean. -/
def sourceVoltage (d : Device) (r : Fin 64) (src : VSource) (f : MeasView → Nat) (vs : Bank 8 (Nat × Nat)) (j instant : Nat) :
    Option Nat :=
  match src with
  | some n =>
    let a := bankGet vs n
    if a.1 ≠ 0 then some (meanUp a.2 a.1) else
    some (match bankGet d.le.vsense n with
      | some c => vsenseLsb d.str.device.body n c
      | none => 0)
  | none => stageMean d r f j instant

/-! ### The window, the queue and the slices (R171) -/

/-- Which of two evaluations a slice takes first (R171). -/
def evalBefore (a b : Eval) : Bool :=
  let key (x : Eval) : Nat × Nat × Nat × Nat := match x.loop with
    | .outer r => (x.deadline, 0, r.val, 0)
    | .inner g => (x.deadline, 1, x.rail.val, g.val)
  let ka := key a; let kb := key b
  if ka.1 ≠ kb.1 then decide (ka.1 < kb.1)
  else if ka.2.1 ≠ kb.2.1 then decide (ka.2.1 < kb.2.1)
  else if ka.2.2.1 ≠ kb.2.2.1 then decide (ka.2.2.1 < kb.2.2.1) else decide (ka.2.2.2 < kb.2.2.2)

/-- The evaluation that goes first, and the others. -/
def takeFirst : List Eval → Option (Eval × List Eval)
  | [] => none
  | x :: xs =>
    match takeFirst xs with
    | none => some (x, [])
    | some (b, rest) => if evalBefore b x then some (b, x :: rest) else some (x, b :: rest)

/-- An arrival (R171, R173): into the window or the queue; none when the queue is full. -/
def admitEval (x : Eval) (e : Engine) : Option Engine :=
  if windowCount e < 128 ∧ e.queue = [] then
    let e := { e with window := e.window ++ [x] }
    some { e with windowHw := byte (max e.windowHw.toNat (windowCount e)) }
  else if e.queue.length < 1024 then
    let e := { e with queue := e.queue ++ [x] }
    some { e with queueHw := BitVec.ofNat 11 (max e.queueHw.toNat e.queue.length) }
  else none

/-- The start of the n-th period of a phase after the period that starts at an instant (R191): fixed ones as they are, later
ones at the nominal length (DEDUCED, assumption 105). -/
def laterStart (d : Device) (g : Fin 512) (b : RailSect) (instant n : Nat) : Nat :=
  let ph := d.phase g
  let p := groupPeriod d b.fgroup
  let step := if ringLocked d b.fgroup then p + stretchOf p else p
  let known := (ph.periods.filter fun x => decide (instant ≤ x.start)).map (·.next)
  match known[n - 1]? with
  | some t => t
  | none =>
    let last := known.getLast?.getD instant
    let more := n - known.length
    match nextStart (bankGet d.tbi.carriers b.fgroup) p ph with
    | some (_, _, _, t) => if ph.pstart = last then t + (more - 1) * step else last + more * step
    | none => last + more * step

/-- What an inner evaluation takes when it starts: mode, coefficients, limits and terms as its sample instant has them (R169,
R180, R79), the demand by its mode (R166, R168), and the track as it stands (R191, R192). None where its rail was not evaluated
at its sample instant. -/
def bindInner (d : Device) (g : Fin 512) (x : Eval) : Option Eval :=
  match railModeAt d x.rail x.instant, sectAt d x.rail x.instant with
  | some mode, some b =>
    let l := d.loop x.rail
    let dem := match mode with
      | .immediate => l.dem
      | .fixed => demFor l x.carrier
    let look := lookupTime d x.rail (laterStart d g b x.instant (depthOf (groupPeriod d b.fgroup)))
    let live := match (d.rail x.rail).state with
      | .precharge | .ramp => false
      | _ => true
    some { x with
      mode := mode
      target := irefOf dem x.share x.limit.toNat
      coefs := coefsAt l false x.instant
      template := b.template
      ff := b.ffAcc
      lookup := look
      acc := if live then trackAt d x.rail look else 0
      lo := (b.dmin : Int) * 32768
      hi := (b.dmax : Int) * 32768 }
  | _, _ => none

/-- What an evaluation takes when it starts; an outer one has taken everything at its sample instant. -/
def bindEval (d : Device) (x : Eval) : Option Eval :=
  match x.loop with
  | .inner g => bindInner d g x
  | .outer _ => some x

/-- An evaluation starts on a slice (R171): the first of those whose sample instant has come. One whose samples are decoded
earlier waits for it, since mode and coefficients are taken as they stand there (DEDUCED, assumption 106). -/
def startEval (now : Nat) (slice : Fin 8) (d : Device) : Device :=
  if (bankGet d.le.slices slice).isSome then d else
  match takeFirst (d.le.window.filter fun x => decide (x.instant ≤ now)) with
  | none => d
  | some (x, _) =>
    let rest := d.le.window.erase x
    match bindEval d x with
    | none => { d with le := refillWindow { d.le with window := rest } }
    | some y =>
      let ffs := match y.loop with
        | .inner _ => bankUpd d.le.ffs y.rail fun f => { f with acc := y.acc }
        | .outer _ => d.le.ffs
      { d with le := refillWindow { d.le with window := rest, slices := bankSet d.le.slices slice (some y), ffs := ffs } }

/-! ### Results -/

/-- A duty is released (R143, R168); never after a result of a later sample instant. -/
def releaseDuty (g : Fin 512) (instant : Nat) (u : Int) (d : Device) : Device :=
  d.onPhase g fun p =>
    if (match p.releasedAt with | some t => decide (t > instant) | none => false) then p else
    let duty := dutyOf u
    { p with newDuty := some duty, duty := duty, releasedAt := some instant }

/-- A demand is released: it is dem from a carrier period on (R166, R168). -/
def releaseDem (r : Fin 64) (instant useFrom : Nat) (o : Int) (d : Device) : Device :=
  d.onLoop r fun l =>
    if (match l.lastRelease with | some t => decide (t > instant) | none => false) then l else
    { l with dem := o, demNext := ((useFrom, o) :: l.demNext).take 8, lastRelease := some instant }

/-- A waiting result is released. -/
def releaseWaited (w : Waited) (d : Device) : Device :=
  match w.loop with
  | .inner g => releaseDuty g w.instant w.value d
  | .outer r => releaseDem r w.instant w.useFrom w.value d

/-- Results in order of sample instant. -/
def sortWaited : List Waited → List Waited
  | [] => []
  | w :: ws =>
    let rec put (w : Waited) : List Waited → List Waited
      | [] => [w]
      | x :: xs => if w.instant < x.instant then w :: x :: xs else x :: put w xs
    put w (sortWaited ws)

/-- Every result of a rail that waits is released at once, in order of sample instant (R170). -/
def releaseAll (r : Fin 64) (d : Device) : Device :=
  let mine := sortWaited (d.le.results.filter fun w => decide (w.rail = r))
  let d := { d with le := { d.le with results := d.le.results.filter fun w => decide (w.rail ≠ r) } }
  mine.foldl (fun d w => releaseWaited w d) d

/-- Results of one loop whose time has come, up to a carrier period, are released. -/
def releaseDue (loop : LoopRef) (k : Nat) (d : Device) : Device :=
  let due (w : Waited) : Bool := decide (w.loop = loop) && decide (w.useFrom ≤ k)
  let mine := sortWaited (d.le.results.filter due)
  let d := { d with le := { d.le with results := d.le.results.filter fun w => !due w } }
  mine.foldl (fun d w => releaseWaited w d) d

/-- The oldest waiting result of one loop is released (R168). -/
def releaseOldest (loop : LoopRef) (d : Device) : Device :=
  match sortWaited (d.le.results.filter fun w => decide (w.loop = loop)) with
  | [] => d
  | w :: _ => releaseWaited w { d with le := { d.le with results := d.le.results.erase w } }

/-! ### Computing -/

/-- The outer evaluation (R162): the device with its histories moved on, and what the loop answers. -/
def runOuter (x : Eval) (d : Device) : Device × LoopOut :=
  let l := d.loop x.rail
  let e0 := outerError x.target x.input
  let o := limitOut (outerTerms x.template x.coefs e0 l.e1 l.e2 l.e3 l.y1 l.y2 l.y3) x.ff (bankGet x.coefs 7)
    ((x.vinFf : Int) * 2048) x.lo x.hi
  (d.onLoop x.rail fun l => { l with e1 := e0, e2 := l.e1, e3 := l.e2, y1 := o.stored, y2 := l.y1, y3 := l.y2 }, o)

/-- The inner evaluation (R163). -/
def runInner (g : Fin 512) (x : Eval) (d : Device) : Device × LoopOut :=
  let p := d.phase g
  let c := x.coefs
  let e0 := sat32 (x.target - x.input)
  let xacc := xaccOf x.acc x.share
  let o := limitOut [(bankGet c 0, e0), (bankGet c 1, p.e1), (bankGet c 2, p.e2), (bankGet c 3, p.y1),
    (bankGet c 4, p.y2)] x.ff (bankGet c 5) xacc x.lo x.hi
  (d.onPhase g fun p => { p with
    iref := x.target, imeas := x.input, demNeg := decide (x.target < 0), xacc := xacc
    e1 := e0, e2 := p.e1, y1 := o.stored, y2 := p.y1 }, o)

/-- An evaluation completes on its slice (R156, R164, R168): the result is released, or waits when FIXED. -/
def completeEval (now : Nat) (slice : Fin 8) (d : Device) : Device :=
  match bankGet d.le.slices slice with
  | none => d
  | some x =>
    let slack := satNat 16 (x.deadline - now)
    let least := decide (slack.toNat < d.le.minSlack.toNat)
    let e := { d.le with
      slices := bankSet d.le.slices slice none
      evals := d.le.evals + 1
      minSlack := if least then slack else d.le.minSlack
      minRail := if least then BitVec.ofNat 6 x.rail.val else d.le.minRail }
    let d := { d with le := refillWindow e }
    let r := match x.loop with
      | .outer _ => runOuter x d
      | .inner g => runInner g x d
    let o := r.2
    let d := r.1.onLoop x.rail fun l => { l with
      satOut := if o.limited then satInc l.satOut else l.satOut
      satAcc := if o.saturated then satInc l.satAcc else l.satAcc
      slack := if slack.toNat < l.slack.toNat then slack else l.slack
      intStatus := if o.limited then setBit l.intStatus 3 else l.intStatus }
    match x.mode with
    | .immediate =>
      match x.loop with
      | .outer r => releaseDem r x.instant (railCarrier d r).k o.out d
      | .inner g => releaseDuty g x.instant o.out d
    | .fixed => { d with le := { d.le with results := d.le.results ++ [⟨x.loop, x.rail, x.instant, x.useFrom, o.out⟩] } }

/-- An overrun of a loop is counted (R173, R174). Answers whether the rail's OVERRUN_LIMIT is reached by it. -/
def countOverrun (r : Fin 64) (inner : Bool) (d : Device) : Device × Bool :=
  let l := d.loop r
  let run := if l.ovrNow then l.ovrRun else satInc l.ovrRun
  let limit := match d.sect r with | some b => b.overrunLimit | none => 0
  let hit := !l.ovrNow && decide (run.toNat = limit)
  let d := d.onLoop r fun l => { l with
    innerOvr := if inner then satInc l.innerOvr else l.innerOvr
    outerOvr := if inner then l.outerOvr else satInc l.outerOvr
    ovrRun := run
    ovrNow := true
    intStatus := if hit then setBit (setBit l.intStatus 0) 1 else setBit l.intStatus 0 }
  ({ d with le := { d.le with ovrTotal := d.le.ovrTotal + 1, ovrRails := setBit d.le.ovrRails r.val } }, hit)

/-- Is an evaluation of this loop in the window, the queue or on a slice? -/
def inFlight (loop : LoopRef) (e : Engine) : Bool :=
  e.window.any (fun x => decide (x.loop = loop)) || e.queue.any (fun x => decide (x.loop = loop))
    || (bankCount e.slices fun s => match s with | some x => decide (x.loop = loop) | none => false) ≠ 0

/-- The evaluations of one loop that have not completed are cancelled (R173). -/
def cancelLoop (loop : LoopRef) (e : Engine) : Engine := cancelEvals (fun x => decide (x.loop = loop)) e

/-! ### Admission of the two kinds -/

/-- The inner evaluation of a period whose samples are complete (R158, R166, R171). What it takes at its start stands empty until
then. Answers false where the admission queue is full. -/
def admitInner (g : Fin 512) (r : Fin 64) (b : RailSect) (q : Period) (ma : List Int) (mode : EvalMode) (d : Device) :
    Device × Bool :=
  let p := groupPeriod d b.fgroup
  let depth := depthOf p
  let next := (d.phase g).periods.find? fun x => decide (x.start = q.next)
  let deadline := match depth, next with
    | 1, some x => x.next - 800
    | _, _ => q.start + (1 + depth) * p - 800
  let x : Eval := {
    loop := .inner g
    rail := r
    instant := q.next
    deadline := deadline
    mode := mode
    useFrom := q.carrier + 1 + depth
    carrier := q.carrier
    input := imeasOf ma
    target := 0
    vinFf := 0
    coefs := (d.loop r).inner
    template := b.template
    ff := b.ffAcc
    lookup := 0
    acc := 0
    share := q.share
    limit := q.limit
    lo := (b.dmin : Int) * 32768
    hi := (b.dmax : Int) * 32768 }
  match admitEval x d.le with
  | some e => ({ d with le := e }, true)
  | none => (d, false)

/-- C(j + n) of a rail's group from C(j) on: fixed up to C(j + 2), then planned as the ring stands (R153). -/
def carrierAhead (d : Device) (g : Fin 8) (n : Nat) : Nat :=
  let c := bankGet d.tbi.carriers g
  match n with
  | 0 => c.c0
  | 1 => c.c1
  | 2 => c.c2
  | _ => (planCarrier d g c.c2).1

/-- The outer evaluation at an outer sample instant (R166, R171), after v and vin are formed. -/
def admitOuter (r : Fin 64) (b : RailSect) (j instant target v : Nat) (mode : EvalMode) (d : Device) : Device × Bool :=
  let l := d.loop r
  let depth := depthOf (groupPeriod d b.fgroup)
  let x : Eval := {
    loop := .outer r
    rail := r
    instant := instant
    deadline := carrierAhead d b.fgroup depth
    mode := mode
    useFrom := j + depth
    carrier := j
    input := v
    target := target
    vinFf := vinFf d r l.vin.toNat
    coefs := coefsAt l true instant
    template := b.template
    ff := b.ffVin
    lookup := 0
    acc := 0
    share := 0
    limit := 0
    lo := l.lo
    hi := l.hi }
  let d := d.onLoop r fun l => { l with target := BitVec.ofNat 20 target, vfb := BitVec.ofNat 20 v }
  match admitEval x d.le with
  | some e => ({ d with le := e }, true)
  | none => (d, false)

/-- C(k + 2) of a group has been fixed: it is the deadline of the outer evaluations whose output it awaits (R171). -/
def retimeOuter (g : Fin 8) (d : Device) : Device :=
  let c := bankGet d.tbi.carriers g
  let mine (x : Eval) : Bool := match x.loop, d.sect x.rail with
    | .outer _, some b => decide (b.fgroup = g) && decide (x.useFrom = c.k + 2)
    | _, _ => false
  let put (x : Eval) : Eval := if mine x then { x with deadline := c.c2 } else x
  { d with le := { d.le with
    window := d.le.window.map put, queue := d.le.queue.map put, slices := bankMap d.le.slices fun _ s => s.map put } }

/-! ### Presets (R177, R186, R187) -/

/-- The input-voltage term from the last vin formed. -/
def outerTermNow (d : Device) (r : Fin 64) (b : RailSect) : Int :=
  let l := d.loop r
  ffTerm b.ffVin (bankGet l.outer 7) ((vinFf d r l.vin.toNat : Int) * 2048)

/-- The acceleration term of a phase for its next period, as the track stands (R186). -/
def innerTermNow (d : Device) (r : Fin 64) (b : RailSect) (g : Fin 512) : Int :=
  let live := match (d.rail r).state with | .precharge | .ramp => false | _ => true
  let ph := d.phase g
  ffTerm (b.ffAcc && live) (bankGet (d.loop r).inner 5)
    (xaccOf (trackAt d r (lookupTime d r ph.pstart)) ph.share)

/-- The outer histories are preset to an output, limited as the loop limits it (R186). -/
def presetOuter (r : Fin 64) (b : RailSect) (out : Int) (d : Device) : Device :=
  let l := d.loop r
  let y := sat32 (min (max out l.lo) l.hi - outerTermNow d r b)
  d.onLoop r fun l => { l with e1 := 0, e2 := 0, e3 := 0, y1 := y, y2 := y, y3 := y }

/-- One phase's histories are preset to a duty, limited as the loop limits it (R186). -/
def presetInner (r : Fin 64) (b : RailSect) (g : Fin 512) (duty : Nat) (d : Device) : Device :=
  let y := sat32 (((min (max duty b.dmin) b.dmax : Nat) : Int) * 32768 - innerTermNow d r b g)
  d.onPhase g fun p => { p with e1 := 0, e2 := 0, y1 := y, y2 := y }

/-- The rail current I in mA (R204). -/
def railCurrent (d : Device) (r : Fin 64) : Int :=
  (placedOf d r).foldl (fun a g => a + (d.phase g).imeas / 16384) 0

/-- |I| of R204. -/
def railCurrentAbs (d : Device) (r : Fin 64) : Nat := (railCurrent d r).natAbs

/-- The capacity of some phases in mA (R204). -/
def capacityOf (d : Device) (gs : List (Fin 512)) : Nat := gs.foldl (fun a g => a + (d.slot g).limit.toNat * 10) 0

/-- The placed phases of a rail at full weight. -/
def fullPhases (d : Device) (r : Fin 64) : List (Fin 512) :=
  (placedOf d r).filter fun g => decide ((d.phase g).weight = fullWeight)

end Sys2Proof.Machine
end

