-- ==== Sys2Proof/Machine/Tune.lean ====
section
/-! DEFINITION. Relay auto-tune (R194 to R201): the start checks, the relay, the end of a run and its figures. Quotients
that are no integers are rounded to the nearest (assumption 20). -/

namespace Sys2Proof.Machine

/-- The nearest integer to a / b of natural numbers, halves upward. -/
def nearest (a b : Nat) : Nat := if b = 0 then 0 else (2 * a + b) / (2 * b)

/-- Table 7-11. -/
inductive TuneResult where
  | done
  | stopped
  | aborted
  | deviation
  | nocycle
  | timeout
  | irregular
  | state
  | motion
  | phases
  | apply
  | clipped
  | refused
  | denied
deriving DecidableEq, Repr

/-- The code of a result (Table 7-11). -/
def TuneResult.code : TuneResult → Byte
  | .done => 1 | .stopped => 2 | .aborted => 3 | .deviation => 4 | .nocycle => 5 | .timeout => 6 | .irregular => 7
  | .state => 8 | .motion => 9 | .phases => 0xA | .apply => 0xB | .clipped => 0xC | .refused => 0xD | .denied => 0xE

/-- The shift of a normalised magnitude a / den: the least s from -24 with a / den < 2^s. -/
def normShift (a den : Nat) : Int :=
  match (List.range 33).find? fun i => decide (a * 2 ^ 24 < den * 2 ^ i) with
  | some i => (i : Int) - 24
  | none => 8

/-- A mantissa at the edge of the normalised range moves to the next shift. -/
def normEdge (negative : Bool) (m : Nat) (s : Int) : Nat × Int :=
  if negative then
    if m > 2 ^ 31 then (2 ^ 31, s) else if m = 2 ^ 30 ∧ s > -24 then (2 ^ 31, s - 1) else (m, s)
  else if m ≥ 2 ^ 31 then (if s < 8 then (2 ^ 30, s + 1) else (2 ^ 31 - 1, s))
  else (m, s)

/-- A rational number to the nearest normalised mantissa and shift of Table 6-2, halves away from zero (R200); values
outside the range are taken at its ends. -/
def normCoef (num : Int) (den : Nat) : Coef :=
  if num = 0 ∨ den = 0 then ⟨0, 0⟩ else
  let a := num.natAbs
  let s := normShift a den
  let m := nearest (a * (2 ^ 55 / 2 ^ (s + 24).toNat)) den
  let e := normEdge (decide (num < 0)) m s
  ⟨BitVec.ofInt 32 (if num < 0 then -(e.1 : Int) else e.1), BitVec.ofInt 8 e.2⟩

/-- The value of a coefficient times 2^55. -/
def coefScaled (c : Coef) : Int := c.m.toInt * 2 ^ (coefShift c + 24).toNat

/-- π to 60 digits, times 10^60. -/
def piScaled : Nat := 3141592653589793238462643383279502884197169399375105820974944

/-- The output that the tuned loop holds: dem, or each phase's duty. -/
def tuneRailList (d : Device) (r : Fin 64) : List (Fin 512 × Int) :=
  (placedOf d r).map fun g => (g, ((d.phase g).duty : Int))

/-- Is an entry of the rail GRANTED or ACTIVE? -/
def motionOn (d : Device) (r : Fin 64) : Bool :=
  d.hs.ledger.toList.any fun e => decide (e.rail = some r) && (decide (e.state = .granted) || decide (e.state = .active))

/-- Is a set-point change of the rail in progress (R213)? `goal` is the goal in force. -/
def changing (d : Device) (r : Fin 64) (goal : Nat) : Bool := decide ((d.rail r).ramp ≠ goal * 20)

/-- The first check of Table 7-2 that fails, in order. -/
def tuneCheck (d : Device) (r : Fin 64) (inner : Bool) (goal : Nat) : Option Nat :=
  let t := d.tune
  let l := d.loop r
  let h : Int := t.h.toNat
  let (dmin, dmax) : Int × Int := match d.sect r with | some b => (b.dmin, b.dmax) | none => (0, 0)
  let fits :=
    if inner then (placedOf d r).all fun g =>
      let u : Int := (d.phase g).duty
      decide (dmin ≤ u - h ∧ u + h ≤ dmax)
    else decide (l.lo ≤ l.dem - h * 128 ∧ l.dem + h * 128 ≤ l.hi)
  let ranges := decide (1 ≤ t.h.toNat) && (!inner || decide (t.h.toNat ≤ 6554)) && decide (1 ≤ t.devMax.toNat)
    && decide (1 ≤ t.settle.toNat ∧ t.settle.toNat ≤ 8) && decide (2 ≤ t.cycles.toNat)
    && decide (2 ≤ t.halfMax.toNat) && decide (1 ≤ t.runMax.toNat ∧ t.runMax.toNat ≤ 10000)
  if railMode d r ≠ some .fixed then some 1
  else if motionOn d r then some 2
  else if movingRail d r || rampingRail d r || !(d.rail r).stack.isEmpty then some 3
  else if changing d r goal then some 4
  else if !fits then some 5
  else if !ranges then some 6
  else none

/-- The figures of the measured cycles (R199, R200): Tu, a and the spread, in the registers' units, the result, and with
DONE also Ku and the proposal. -/
def tuneFigures (d : Device) (t : TuneRun) (cycles : List (Nat × Int)) : Tune :=
  let tune := d.tune
  let n := cycles.length
  let sumT := cycles.foldl (fun a c => a + c.1) 0
  let sumA := cycles.foldl (fun a c => a + c.2.toNat) 0
  let spreadN := cycles.foldl (fun a c => max a (if n * c.1 ≥ sumT then n * c.1 - sumT else sumT - n * c.1)) 0
  let eps := tune.eps.toNat
  let irregular := decide (4 * spreadN > sumT) || decide (sumA ≤ 16 * eps * n)
  if irregular then { tune with result := TuneResult.irregular.code, run := none } else
  let hs : Nat := if t.inner then 32768 else 128
  let as : Nat := if t.inner then 16384 else 2048
  -- aq = sumA / (16 n) * as; under the root both over 16 n
  let root2 := (sumA * sumA - (16 * n * eps) * (16 * n * eps)) * as * as
  let root := sqrtNat 400 (root2 * 2 ^ 200)            -- times 2^100
  let kuNum : Nat := 4 * tune.h.toNat * hs * (16 * n) * 10 ^ 60 * 2 ^ 100
  let kuDen : Nat := piScaled * root
  let ku := normCoef kuNum kuDen
  let l := d.loop t.rail
  let (p, nest, template) : Nat × Nat × Bool := match d.sect t.rail with
    | some b => (groupPeriod d b.fgroup, b.nestN, b.template)
    | none => (0, 1, false)
  let ts := if t.inner then p else nest * p
  let as' := if t.inner then [bankGet l.inner 3, bankGet l.inner 4]
    else if template then [bankGet l.outer 4, bankGet l.outer 5, bankGet l.outer 6]
    else [bankGet l.outer 4, bankGet l.outer 5]
  let sum := as'.foldl (fun a c => a + coefScaled c) 0          -- times 2^55
  let q1 : Int := ((List.range as'.length).zip as').foldl (fun a c => a + ((c.1 + 1 : Nat) : Int) * coefScaled c.2) 0
  let noint := decide ((2 ^ 55 - sum).natAbs * 2 ^ 20 > 2 ^ 55)
  -- Kp = Ku * kpN / kpD and Ti = Tu * tiN / tiD (Table 7-4); Tu = sumT / n
  let (kpN, kpD, tiN, tiD) : Nat × Nat × Nat × Nat := if t.rule = 0 then (10, 32, 22, 10) else (45, 100, 10, 12)
  let propose := decide (t.rule.toNat < 2) && !noint
  let num1 : Int := q1 * ((kuNum * kpN : Nat) : Int)
  let den1 := kuDen * kpD * 2 ^ 55
  let b0 := if propose then normCoef (num1 * ((sumT * tiN + ts * tiD * n : Nat) : Int)) (den1 * (sumT * tiN)) else ⟨0, 0⟩
  let b1 := if propose then normCoef (-num1) den1 else ⟨0, 0⟩
  { tune with
    result := TuneResult.done.code
    run := none
    tu := word (nearest sumT n)
    amp := word (nearest sumA n)
    spread := word (nearest spreadN n)
    short := decide (sumT < 20 * depthOf p * p * n)
    noint := noint
    ku := ku
    b0 := if noint ∨ t.rule.toNat ≥ 2 then (if noint then ⟨0, 0⟩ else tune.b0) else b0
    b1 := if noint ∨ t.rule.toNat ≥ 2 then (if noint then ⟨0, 0⟩ else tune.b1) else b1 }

/-- The record of a run (R201). -/
def raiseTune (tm : TimeBase) (r : Fin 64) (inner : Bool) (d : Device) : Device :=
  let t := d.tune
  raise tm 0x30 (leBytes 1 r.val ++ leBytes 1 (bit inner) ++ [t.result, t.ku.s] ++ leBytes 4 t.tu.toNat
    ++ leBytes 4 t.ku.m.toNat) d

/-- A run ends with a result (R198, R201): the tuned loop resumes from the output in force, where the run has begun. -/
def endTune (tm : TimeBase) (res : TuneResult) (cycles : List (Nat × Int)) (d : Device) : Device :=
  match d.tune.run with
  | none => d
  | some t =>
    let tune := match res with
      | .done => tuneFigures d t cycles
      | _ => { d.tune with result := res.code, run := none }
    -- BUSY falls (Table 12-11)
    let d := noteMode tm t.rail d { d with tune := tune, hsp := { d.hsp with evt := setBit d.hsp.evt 2 } }
    let d := match d.sect t.rail with
      | none => d
      | some b =>
        if t.waiting then d
        else if t.inner then (placedOf d t.rail).foldl (fun d g => presetInner t.rail b g (d.phase g).duty d) d
        else presetOuter t.rail b (d.loop t.rail).dem d
    raiseTune tm t.rail t.inner d

/-- A run on a rail ends with a result; a run on another rail goes on. -/
def endTuneOn (tm : TimeBase) (r : Fin 64) (res : TuneResult) (d : Device) : Device :=
  if tuneAsked d r then endTune tm res [] d else d

/-- A run that waits begins at a sample instant of its loop (R195): the rail goes to IMMEDIATE mode (R169, R170), evaluations of
the loops that are formed no more are cancelled (R197), and the bias is the output in force (R196). -/
def beginTune (tm : TimeBase) (now target : Nat) (d : Device) : Device :=
  match d.tune.run with
  | none => d
  | some t =>
    if !t.waiting then d else
    let e := releaseAll t.rail d
    let e := { e with le := if t.inner then cancelRail t.rail e.le else cancelLoop (.outer t.rail) e.le }
    noteMode tm t.rail d { e with tune := { e.tune with run := some { t with
      waiting := false
      start := now
      target := target
      bias := (e.loop t.rail).dem
      biases := tuneRailList e t.rail } } }

/-- One relay step of a run in progress at a sample instant of the tuned loop (R196). `v` is the voltage feedback. A half cycle
counts its sample instants, that of the switch among them. -/
def relayStep (tm : TimeBase) (now : Nat) (v : Nat) (d : Device) : Device :=
  match d.tune.run with
  | none => d
  | some t =>
    if t.waiting then d else
    let set := placedOf d t.rail
    let mean (f : Phase → Int) : Int :=
      if set.isEmpty then 0 else roundUp (set.foldl (fun a g => a + f (d.phase g)) 0) (16384 * set.length)
    let imeas := mean (·.imeas)
    let e : Int := if t.inner then mean (·.iref) - imeas else t.target - v
    let m : Int := if t.inner then imeas else v
    let eps : Int := d.tune.eps.toNat
    if ((v : Int) - t.target).natAbs > d.tune.devMax.toNat then endTune tm .deviation [] d
    else
      let high := if t.first then decide (e ≥ 0) else if !t.high && decide (e > eps) then true
        else if t.high && decide (e < -eps) then false else t.high
      let rising := !t.first && !t.high && high
      let switched := !t.first && decide (high ≠ t.high)
      let half := if t.first || switched then 1 else t.half + 1
      -- a cycle ends at a rising switch
      let closed : Option (Nat × Int) := match rising, t.lastRise with
        | true, some at' => some (now - at', (t.maxMeas - t.minMeas) * 8)
        | _, _ => none
      let done := if closed.isSome then t.done + 1 else t.done
      let cycles := match closed with
        | some c => if done > d.tune.settle.toNat then t.cycles ++ [c] else t.cycles
        | none => t.cycles
      let fresh := t.first || rising
      let t' := { t with
        first := false
        high := high
        half := half
        lastRise := if rising then some now else t.lastRise
        maxMeas := if fresh then m else max t.maxMeas m
        minMeas := if fresh then m else min t.minMeas m
        cycles := cycles
        done := done }
      let d := { d with tune := { d.tune with run := some t', cycle := satNat 4 done } }
      if cycles.length ≥ d.tune.cycles.toNat then endTune tm .done cycles d
      else if half > d.tune.halfMax.toNat then endTune tm .nocycle [] d
      else
        let h : Int := d.tune.h.toNat
        let l := d.loop t.rail
        let b := d.sect t.rail
        let (dmin, dmax) : Int × Int := match b with | some b => (b.dmin, b.dmax) | none => (0, 0)
        if t.inner then
          let outs := t'.biases.map fun (g, u) => (g, if high then u + h else u - h)
          if outs.any fun (_, u) => decide (u < dmin ∨ u > dmax) then endTune tm .clipped [] d
          else outs.foldl (fun d (g, u) => releaseDuty g now (u * 32768) d) d
        else
          let o := if high then t'.bias + h * 128 else t'.bias - h * 128
          if o < l.lo ∨ o > l.hi then endTune tm .clipped [] d
          else releaseDem t.rail now (railCarrier d t.rail).k o d

end Sys2Proof.Machine
end

