-- ==== Sys2Proof/Machine/RailState.lean ====
section
/-! DEFINITION. The rail manager's shared operations (spec 08_rails.md): which phases are available (R203), entering a
state with all that this does (Table 8-2), the goal and the ramp (R213 to R215), and Kindling's records (R224 to R227). -/

namespace Sys2Proof.Machine

/-! ### Codes -/

/-- Table 8-5. -/
def RailState.code : RailState → Nat
  | .off => 0 | .armed => 1 | .precharge => 2 | .ramp => 3 | .regulate => 4 | .hold => 5 | .fault => 6 | .safe => 7

/-- Table 8-3. -/
def RailCause.code : RailCause → Nat
  | .none => 0 | .overrun => 1 | .stale => 2 | .capacity => 3 | .phases => 4 | .pmFault => 5 | .pmSafe => 6
  | .rampTimeout => 7 | .holdTimeout => 8 | .novin => 9 | .hostStop => 10 | .quadrant => 11

/-- Table 8-7. -/
inductive CmdResult where
  | ok
  | state
  | denied
  | phases
  | novin
  | capacity
  | position
  | source
  | badOp
  | busy
  | lifecycle
deriving DecidableEq, Repr

/-- The code of a command result (Table 8-7). -/
def CmdResult.code : CmdResult → Byte
  | .ok => 0 | .state => 1 | .denied => 2 | .phases => 3 | .novin => 4 | .capacity => 5 | .position => 6 | .source => 7
  | .badOp => 8 | .busy => 9 | .lifecycle => 0xA

/-- Do the placed phases of a rail in this state switch (Table 8-1)? -/
def RailState.runs : RailState → Bool
  | .precharge | .ramp | .regulate | .hold => true
  | .off | .armed | .fault | .safe => false

/-! ### Phases -/

/-- Is the quadrant of a phase leaving: in or entering SMOULDER, or with a reset pending (R203)? -/
def quadLeaving (d : Device) (q : Fin 4) : Bool :=
  bankGet d.pwr.smoulder q || (bankGet d.pwr.entering q).isSome || (bankGet d.clk.quadReset q).isSome

/-- Is a phase of the rail available (R203, R219, R220)? It must be the rail's own (R18). -/
def available (d : Device) (r : Fin 64) (g : Fin 512) : Bool :=
  let s := d.slot g
  s.state.usable && decide (s.owner = some r) && !s.heldBack && !s.fresh
    && !(d.rail r).retiring.any (fun x => decide (x.phase = g)) && !(d.rail r).tripped.contains g
    && !quadLeaving d (quadOf g)

/-- The available phases of a rail in list order. -/
def availablePhases (d : Device) (r : Fin 64) : List (Fin 512) := (railPhases d r).filter (available d r)

/-- The available phases that are not placed, in list order. -/
def unplacedPhases (d : Device) (r : Fin 64) : List (Fin 512) :=
  (availablePhases d r).filter fun g => !(d.phase g).placed

/-- MIN_PHASES of the rail's section. -/
def minPhases (d : Device) (r : Fin 64) : Nat := match d.sect r with | some b => b.minPhases | none => 1

/-- ADD_HI in mA. -/
def addHiMa (d : Device) (r : Fin 64) : Nat := match d.sect r with | some b => b.addHi * 10 | none => 0

/-- SHED_LO in mA. -/
def shedLoMa (d : Device) (r : Fin 64) : Nat := match d.sect r with | some b => b.shedLo * 10 | none => 0

/-- Is a phase held as a Kindling addition? -/
def isAddition (d : Device) (r : Fin 64) (g : Fin 512) : Bool := (d.rail r).stack.any fun x => decide (x.phase = g)

/-- Is shedding suspended (R217, R197)? -/
def shedSuspended (d : Device) (r : Fin 64) : Bool :=
  !(d.rail r).stack.isEmpty || !(d.rail r).unwinding.isEmpty || tuning d r

/-- The rail on which an entry acts (R286): TARGET, or for 0xFF the rail that owns the source. -/
def entryRail (d : Device) (e : ProtEntry) : Option (Fin 64) :=
  match e.target with
  | some r => some r
  | none =>
    if e.source.val = 1 then (fin? 512 e.srcIndex).bind fun g => (d.slot g).owner
    else if 2 ≤ e.source.val ∧ e.source.val ≤ 4 then fin? 64 e.srcIndex
    else none

/-- Is a protection source of the rail active (R288)? -/
def railSourceActive (d : Device) (r : Fin 64) : Bool :=
  d.hkt.tsd || (d.pm.entries.zip d.pm.st).any fun (e, s) =>
    s.active && (decide (entryRail d e = some r) || decide (e.action = 4))

/-! ### The goal -/

/-- The window of a rail (R214). -/
def windowOf (d : Device) (r : Fin 64) : Nat × Nat :=
  let (lo, hi) : Nat × Nat := match d.sect r with | some b => (b.vmin, b.vmax) | none => (0, 0)
  let c := (d.rail r).cfg
  let l := max lo c.winLo.toNat
  (l, max l (min hi c.winHi.toNat))

/-- A value clamped into the window (R214); the upper bound is applied last. -/
def clampWindow (d : Device) (r : Fin 64) (v : Nat) : Nat :=
  let w := windowOf d r
  min (max v w.1) w.2

/-- The highest active request of a rail, the first of equals (R215). -/
def topRequest (reqs : List VRequest) : Option VRequest :=
  reqs.foldl (fun best q => match best with
    | none => some q
    | some b => if q.value > b.value then some q else some b) none

/-- The goal of a rail, in set-point LSBs (R215). -/
def goalOf (d : Device) (r : Fin 64) : Nat :=
  let x := d.rail r
  if x.stopping then 0
  else if x.cfg.vreqEn then
    match topRequest x.requests with
    | some q => clampWindow d r q.value
    | none => clampWindow d r x.cfg.vset.toNat
  else clampWindow d r x.cfg.vset.toNat

/-- Where the goal comes from (Table 8-8, GSRC). -/
def goalSource (x : Rail) : Nat := if x.stopping then 2 else if x.cfg.vreqEn && !x.requests.isEmpty then 1 else 0

/-- The target of a rail (R213). -/
def targetOf (x : Rail) : Nat := (x.ramp + 10) / 20

/-- Is a rail held (R216)? -/
def railHeld (d : Device) (r : Fin 64) : Bool :=
  match (d.rail r).state with
  | .precharge | .hold => true
  | _ => tuning d r

/-! ### Kindling's records -/

/-- Events of an unwind (R230, Table 16-2). -/
def raiseUnwind (tm : TimeBase) (r : Fin 64) (e : Fin 128) (unwound released : Nat) (d : Device) : Device :=
  if unwound = 0 ∧ released = 0 then d else
  raise tm 0x42 [byte r.val, byte e.val, byte unwound, byte released] d

/-- Records counted as unwound (Table 8-12). -/
def countUnwound (r : Fin 64) (n : Nat) (d : Device) : Device :=
  if n = 0 then d else
  d.onRail r fun x => { x with unwinds := x.unwinds + BitVec.ofNat 8 n, intStatus := setBit x.intStatus 5 }

/-- The UNWIND records of an operation on addition records (R230): one for each entry of which a record was unwound or whose
unwind released one, in the order of the stack. -/
def raiseUnwinds (tm : TimeBase) (r : Fin 64) (unwound released : List (Fin 128)) (d : Device) : Device :=
  (unwound ++ released).eraseDups.foldl (fun d e => raiseUnwind tm r e (unwound.count e) (released.count e) d) d

/-- What an unwind decides for its records, in stack order (R227): the phases that leave, and the entry of each record that
is unwound or released. -/
structure UnwindPlan where
  leaves : List (Fin 512)
  unwound : List (Fin 128)
  released : List (Fin 128)
deriving DecidableEq, Repr

/-- The unwind's loop over the records, last made first (R227). `early` says that now is before the start of the record's entry;
`w` counts in weight units. -/
def planUnwind (i : Nat) (w : Int) (addHi : Nat) (bySection : Bool) (early : Fin 128 → Bool) :
    List AddRecord → UnwindPlan → UnwindPlan
  | [], p => p
  | x :: xs, p =>
    match x.step with
    | .chosen => planUnwind i w addHi bySection early xs { p with unwound := p.unwound ++ [x.entry] }
    | .biased => planUnwind i w addHi bySection early xs { p with unwound := p.unwound ++ [x.entry] }
    | .joined =>
      let left : Int := w - (p.leaves.length + 1) * fullWeight
      if early x.entry || bySection || decide ((i : Int) * 8 * fullWeight ≤ left * addHi * 7) then
        planUnwind i w addHi bySection early xs
          { p with leaves := p.leaves ++ [x.phase], unwound := p.unwound ++ [x.entry] }
      else planUnwind i w addHi bySection early xs { p with released := p.released ++ [x.entry] }

/-- The records that satisfy a test are unwound together, last made first (R23, R226, R227); the leaves follow one a boundary.
Leaves that an earlier unwind has decided and no boundary has taken yet count as made (DEDUCED, assumption 107). -/
def unwindWhere (tm : TimeBase) (r : Fin 64) (bySection : Bool) (pick : AddRecord → Bool) (d : Device) : Device :=
  let x := d.rail r
  let mine := x.stack.filter pick
  let early (k : Fin 128) : Bool := match (bankGet d.hs.ledger k).start with
    | some s => laterUs (word (s * 1000)) (word tm.us.toNat)
    | none => true
  let w : Int := (weightSum d r : Int) - x.unwinding.length * fullWeight
  let p := planUnwind (railCurrentAbs d r) w (addHiMa d r) bySection early mine ⟨[], [], []⟩
  let d := d.onRail r fun x => { x with
    stack := x.stack.filter fun y => !pick y
    unwinding := x.unwinding ++ p.leaves.map UnwindLeave.mk
    dwell := if p.released.isEmpty then x.dwell else 0 }
  raiseUnwinds tm r p.unwound p.released (countUnwound r p.unwound.length d)

/-- Every record of an entry is unwound, and its warming stops (R226). -/
def unwindEntry (tm : TimeBase) (e : Fin 128) (d : Device) : Device :=
  match (bankGet d.hs.ledger e).rail with
  | none => d
  | some r =>
    let d := d.onRail r fun x => { x with warming := x.warming.filter fun w => decide (w.entry ≠ e) }
    unwindWhere tm r false (fun y => decide (y.entry = e)) d

/-- Every record of a rail is unwound in one unwind (R23, R226). -/
def unwindRail (tm : TimeBase) (r : Fin 64) (bySection : Bool) (d : Device) : Device :=
  (unwindWhere tm r bySection (fun _ => true) d).onRail r fun x => { x with warming := [] }

/-- Records leave the stack without an unwind's leaves: what was joined is released, and a record without a placed phase is
counted as unwound (R225). A release alone is no unwind and has no record (R230). -/
def releaseRecords (tm : TimeBase) (r : Fin 64) (pick : AddRecord → Bool) (d : Device) : Device :=
  let mine := (d.rail r).stack.filter pick
  if mine.isEmpty then d else
  let un := (mine.filter fun y => decide (y.step ≠ .joined)).map (·.entry)
  let kept := (mine.filter fun y => decide (y.step = .joined) && un.contains y.entry).map (·.entry)
  let d := d.onRail r fun x => { x with stack := x.stack.filter fun y => !pick y, dwell := 0 }
  raiseUnwinds tm r un kept (countUnwound r un.length d)

/-- Records leave the stack because their phases do (R219, R224): they count as unwound, with a record. -/
def dropRecords (tm : TimeBase) (r : Fin 64) (pick : AddRecord → Bool) (d : Device) : Device :=
  let mine := ((d.rail r).stack.filter pick).map (·.entry)
  let d := d.onRail r fun x => { x with stack := x.stack.filter fun y => !pick y }
  raiseUnwinds tm r mine [] (countUnwound r mine.length d)

/-- Every record of a rail is discarded (R225). The discard is recorded as R24 asks, by an UNWIND record for each entry
(DESIGN CHOICE, assumption 108); COUNTS.UNWINDS leaves it out, since no record is unwound. -/
def discardRecords (tm : TimeBase) (r : Fin 64) (d : Device) : Device :=
  let mine := (d.rail r).stack.map (·.entry)
  raiseUnwinds tm r mine [] <|
    d.onRail r fun x => { x with stack := [], warming := [], unwinding := [], ended := [] }

/-! ### Entering a state -/

/-- The record of a state change (R230): RAIL, FROM, TO, CAUSE and I. -/
def raiseRail (tm : TimeBase) (r : Fin 64) (from' to' : RailState) (cause : RailCause) (i : Int) (d : Device) : Device :=
  raise tm 0x40 ([byte r.val, byte from'.code, byte to'.code, byte cause.code] ++ leBytes 4 (satInt 32 i).toNat) d

/-- CAUSE is written on entry to ARMED from a running state, and to HOLD, FAULT or SAFE (R206). -/
def causeAfter (x : Rail) (to' : RailState) (cause : RailCause) : RailCause :=
  match to' with
  | .hold | .fault | .safe => cause
  | .armed => if x.state.runs then cause else x.cause
  | _ => x.cause

/-- The change of STATE itself, with its record and interrupt bits (Tables 8-5 and 8-12). -/
def changeState (tm : TimeBase) (r : Fin 64) (to' : RailState) (cause : RailCause) (d : Device) : Device :=
  let x := d.rail r
  let i := railCurrent d r
  let bits := fun (v : BitVec 7) =>
    let v := setBit v 0
    match to' with
    | .hold => setBit v 1
    | .fault | .safe => setBit v 2
    | _ => v
  let d := noteMode tm r d <| d.onRail r fun y => { y with
    state := to', cause := causeAfter x to' cause, since := tm.time.toNat, goodRun := 0, intStatus := bits y.intStatus }
  -- the under-voltage sources are armed in REGULATE and HOLD alone (R212)
  let d := match to' with
    | .regulate | .hold => d
    | _ => clearSources (fun e => decide (e.source = 4) && decide (e.srcIndex = r.val)) d
  -- a rail in OFF places its phases anew (R142)
  let d := if to' = .off then
      { d with tbi := { d.tbi with rails := bankUpd d.tbi.rails r fun t => { t with hasPlaced := false } } } else d
  raiseRail tm r x.state to' cause i d

/-- The placed set of a rail is emptied. Under protection the cells that wait are dropped and STOP follows at once (R22,
R290); otherwise STOP is owed from the end of each phase's last period (R128). -/
def emptyPlaced (atOnce : Bool) (r : Fin 64) (d : Device) : Device :=
  (placedOf d r).foldl (fun d g =>
    if atOnce then
      let d := unplace g none d
      let d := d.onLane (laneOf g) fun l => { l with queue := l.queue.filter fun q => match q.cell with
        | .edge s _ _ _ _ _ => decide (s ≠ slotOf g)
        | _ => true }
      let after := (d.phase g).after
      let d := sendStop g (d.onPhase g fun p => { p with after := .admitted })
      if (d.slot g).state ≠ .serving then d else
      match after with
      | .admitted => setSlot g .admitted .none d
      | .retired => setSlot g .retired .none d
    else unplace g (some (d.phase g).pstart) d) d

/-- A command ends with a result (Table 8-6). -/
def endCmd (r : Fin 64) (res : CmdResult) (d : Device) : Device :=
  d.onRail r fun x => { x with cmdBusy := false, cmdResult := res.code, intStatus := setBit x.intStatus 3 }

/-- The record of a RETIRE or RESTORE (Table 16-2). -/
def raiseRetire (tm : TimeBase) (r : Fin 64) (pos op : Nat) (res : CmdResult) (g : Nat) (d : Device) : Device :=
  raise tm 0x41 ([byte r.val, byte pos, byte op, res.code] ++ leBytes 2 g) d

/-- A protection trip discards what waits for the rail's next boundary (R24, Table 1-4 row 1): a START in progress ends with
SOURCE, and a RETIRE whose leave has not been decided with STATE and its record (DESIGN CHOICE, assumption 108). -/
def discardPending (tm : TimeBase) (r : Fin 64) (d : Device) : Device :=
  let x := d.rail r
  let d := if x.meas.isSome || x.ready.isSome then endCmd r .source d else d
  let d := (x.retiring.filter fun t => !t.leaving).foldl (fun d t =>
    raiseRetire tm r t.pos.val 7 .state t.phase.val (endCmd r .state d)) d
  d.onRail r fun x => { x with retiring := x.retiring.filter fun t => t.leaving }

/-- A rail leaves its running state for ARMED, FAULT or SAFE, or stays out of it (Table 8-2): evaluations discarded (R170),
additions discarded (R225), the placed set emptied, an auto-tune run ended (R198). -/
def leaveRunning (tm : TimeBase) (r : Fin 64) (atOnce : Bool) (to' : RailState) (cause : RailCause) (d : Device) : Device :=
  let d := endTuneOn tm r .state d
  let d := changeState tm r to' cause d
  let d := discardRecords tm r d
  let d := emptyPlaced atOnce r d
  let d := { d with le := cancelRail r d.le }
  let d := match cause with
    | .pmFault | .pmSafe => discardPending tm r d
    | _ => d
  d.onRail r fun x => { x with stopping := false, meas := none, ready := none }

/-- FAULT with a cause (Table 8-2). -/
def enterFault (tm : TimeBase) (r : Fin 64) (cause : RailCause) (d : Device) : Device :=
  captureTrigger tm .railFault r.val (leaveRunning tm r true .fault cause d)

/-- SAFE with a cause (Table 8-2). -/
def enterSafe (tm : TimeBase) (r : Fin 64) (cause : RailCause) (d : Device) : Device :=
  captureTrigger tm .railFault r.val (leaveRunning tm r true .safe cause d)

/-- TRIM ends (Table 14-5): every lane receiver is woken. -/
def leaveTrim (now : Nat) (d : Device) : Device :=
  let d := { d with pwr := { d.pwr with mode := .run } }
  (List.finRange 64).foldl (fun d n => wakeLane now n d) d

/-- A change of power state is recorded (R371). -/
def raisePower (tm : TimeBase) (was is cause : Nat) (d : Device) : Device :=
  let q := (List.finRange 4).foldl (fun a q => a + flag (bankGet d.pwr.smoulder q) q.val) 0
  raise tm 0xA4 [byte was, byte is, byte cause, byte q] d

/-- HOLD with a cause (Table 8-2, R170, R225); with OVERRUN it ends TRIM (Table 14-5). -/
def enterHold (tm : TimeBase) (r : Fin 64) (cause : RailCause) (d : Device) : Device :=
  let d := if cause = .overrun ∧ d.pwr.mode = .trim then raisePower tm 1 0 0 (leaveTrim tm.time.toNat d) else d
  let d := endTuneOn tm r .state d
  let d := releaseRecords tm r (fun _ => true) (releaseAll r d)
  changeState tm r .hold cause (d.onRail r fun x => { x with warming := [] })

/-- A report of persistent overrun or stale feedback (R174, R176, Table 8-2). -/
def reportEngine (tm : TimeBase) (r : Fin 64) (cause : RailCause) (d : Device) : Device :=
  match (d.rail r).state with
  | .regulate => enterHold tm r cause d
  | .precharge | .ramp => enterFault tm r cause d
  | _ => d

/-- A rail whose placed set has become empty while it runs enters FAULT (Table 8-2). -/
def checkEmpty (tm : TimeBase) (r : Fin 64) (d : Device) : Device :=
  if (d.rail r).state.runs && (placedOf d r).isEmpty then enterFault tm r .phases d else d

/-- An immediate leave (Table 5-1): the phase is unplaced at once, the rest takes new angles at the next boundary, and an
auto-tune run ends (R198). -/
def immediateLeave (tm : TimeBase) (g : Fin 512) (d : Device) : Device :=
  match (d.slot g).owner with
  | none => unplace g none d
  | some r =>
    if !(d.phase g).placed then d else
    let d := endTuneOn tm r .phases d
    let d := unplace g none d
    let d := dropRecords tm r (fun y => decide (y.phase = g)) d
    let d := d.onRail r fun x => { x with unwinding := x.unwinding.filter fun y => decide (y.phase ≠ g) }
    let d := { d with tbi := { d.tbi with rails := bankUpd d.tbi.rails r fun t => { t with recompute := true } } }
    checkEmpty tm r d

/-- A slot enters LOST (R129, R132, R133, R450). -/
def loseSlot (tm : TimeBase) (g : Fin 512) (why : SlotReason) (d : Device) : Device :=
  let d := setSlot g .lost why d
  immediateLeave tm g (d.onSlot g fun s => { s with cal := none, disc := none })

/-! ### Commands -/

/-- Is a rail allowed to leave ARMED or OFF in the life-cycle state (R207)? -/
def lifecycleRuns (d : Device) : Bool :=
  match d.sg.lc with
  | .retired | .returned => false
  | _ => true

/-- START (R207): BIAS to every available phase and the start measurement begins, or the refusal. -/
def startRail (tm : TimeBase) (r : Fin 64) (d : Device) : Device × CmdResult :=
  let av := availablePhases d r
  if !lifecycleRuns d then (d, .lifecycle)
  else if railSourceActive d r then (d, .source)
  else if (d.sect r).isNone || decide (av.length < minPhases d r) then (d, .phases)
  else
    let d := av.foldl (fun d g => sendBias tm g d) d
    (d.onRail r fun x => { x with meas := some ⟨tm.time.toNat, av, []⟩, ready := none }, .ok)

/-- k of R208: the smallest of 1, 2, 4 and 8 that leaves every input voltage at or below 0xF_FFFE. -/
def strapScale (raws : List Nat) : Option Nat :=
  [1, 2, 4, 8].find? fun k => raws.all fun v => decide ((roundUp v (200 * k)).toNat ≤ 0xFFFFE)

/-- d0 of R207 step 4. -/
def presetDuty (v0 vin ratio dmin dmax : Nat) : Nat :=
  (clampInt dmin dmax (roundUp (65536 * v0 * 4096) (vin * ratio))).toNat

/-- The start measurement ends (R207 steps 3 and 4, R208, Table 8-2). -/
def endMeasurement (r : Fin 64) (d : Device) : Device :=
  match (d.rail r).meas, d.sect r with
  | some m, some b =>
    let got := m.got
    let mean (f : MeasView → Nat) : Nat := meanUp (got.foldl (fun a x => a + f x.2) 0) got.length
    let newest (n : Fin 8) : Nat := match bankGet d.le.vsense n with
      | some c => vsenseLsb d.str.device.body n c
      | none => 0
    let v0 := match b.voutSrc with | some n => newest n | none => mean (·.vout)
    let raws := got.map fun x => x.2.vinRaw.toNat * (d.slot x.1).rep.vscaleIn.toNat
    let scale := if d.sys.strapMode then (strapScale raws).getD 0 else 1
    let vin := match b.vinSrc with
      | some n => newest n
      | none => if d.sys.strapMode then
          (if scale = 0 then 0 else
            meanUp (raws.foldl (fun a v => a + (roundUp v (200 * scale)).toNat) 0) raws.length)
        else mean (·.vin)
    let d := if d.sys.strapMode ∧ scale ≠ 0 then
        d.onRail r fun x => { x with cfg := { x.cfg with vinRatio := BitVec.ofNat 16 (scale * 4096) } } else d
    let ratio := (d.rail r).cfg.vinRatio.toNat
    let d := d.onRail r fun x => { x with meas := none }
    let d := d.onLoop r fun l => { l with vin := BitVec.ofNat 20 vin }
    let fewMeas := decide (got.length < b.minPhases)
    let needsMeas := fewMeas
    if decide (vin < 1 ∨ vin > 0xFFFFE) then
      endCmd r .novin (d.onRail r fun x => { x with cause := .novin })
    else if needsMeas then endCmd r .phases (d.onRail r fun x => { x with cause := .phases })
    else
      let d0 := presetDuty v0 vin (if ratio = 0 then 4096 else ratio) b.dmin b.dmax
      d.onRail r fun x => { x with ready := some ⟨v0, d0, vin⟩, d0 := BitVec.ofNat 16 d0 }
  | _, _ => d

end Sys2Proof.Machine
end

