-- ==== Sys2Proof/Machine/Boundary.lean ====
section
/-! DEFINITION. What happens at a rail's period boundary (R24, R145) and at its outer sample instants (R166, R209, R210,
R217), and Kindling's warm start (R222 to R224). -/

namespace Sys2Proof.Machine

/-! ### Kindling -/

/-- The largest power of an entry's profile in mW. -/
def peakPower (e : Entry) : Nat := e.segs.foldl (fun a s => max a s.power) 0

/-- The phases that an entry needs (R222), before the limit to what is free. -/
def phasesNeeded (d : Device) (r : Fin 64) (e : Entry) : Nat :=
  let t := targetOf (d.rail r)
  let hi := addHiMa d r
  if t = 0 ∨ hi = 0 then 0 else ceilDiv (ceilDiv (peakPower e * 5000) t) hi

/-- The conditions of R222 for a rail. -/
def kindlingOn (d : Device) (r : Fin 64) : Bool :=
  (match d.sect r with | some b => decide (b.lead > 0) | none => false)
    && (d.rail r).cfg.kindleEn && decide (addHiMa d r > 0) && decide ((d.rail r).state = .regulate)

/-- Records for up to k more phases of an entry (R223, R224): those first in list order that are available, unplaced and
no additions, while the rail holds fewer than 16. -/
def makeRecords (r : Fin 64) (e : Fin 128) (k : Nat) (d : Device) : Device × List (Fin 512) :=
  let free := 16 - (d.rail r).stack.length
  let cands := (unplacedPhases d r).filter fun g => !isAddition d r g
  let chosen := cands.take (min k free)
  (d.onRail r fun x => { x with
    stack := (chosen.map fun g => (⟨e, g, .chosen⟩ : AddRecord)).reverse ++ x.stack
    warms := x.warms + BitVec.ofNat 8 chosen.length }, chosen)

/-- Records for k more phases of an entry, with tw now and tj halfway to the start; a start that has passed makes them due at
once (R223, R226). Records made before keep their own join instant. -/
def warmPhases (tm : TimeBase) (r : Fin 64) (e : Fin 128) (s k : Nat) (d : Device) : Device :=
  let m := makeRecords r e k d
  if m.2.isEmpty then d else
  let now := word tm.us.toNat
  let ts := word (s * 1000)
  let tj := if laterUs ts now then now + word ((ts - now).toNat / 2) else now
  m.1.onRail r fun y => { y with warming := y.warming ++ [⟨e, tj, m.2⟩] }

/-- The warm start of an entry that is GRANTED (R223 step 1); the conditions of R222 must have held when it reached GRANTED, and
are tested again here. -/
def warmStart (tm : TimeBase) (e : Fin 128) (d : Device) : Device :=
  let x := bankGet d.hs.ledger e
  match x.rail, x.start with
  | some r, some s =>
    if x.state ≠ .granted then d else
    let d := { d with hs := { d.hs with ledger := bankSet d.hs.ledger e { x with warmed := true } } }
    if !x.kindle || !kindlingOn d r then d else warmPhases tm r e s (phasesNeeded d r x) d
  | _, _ => d

/-- A reversed entry whose warm start has come (R226): k is computed again from the reversed profile; records beyond it are
unwound, last made first, and more are made where it is larger. -/
def rewarm (tm : TimeBase) (e : Fin 128) (d : Device) : Device :=
  let x := bankGet d.hs.ledger e
  match x.rail, x.start with
  | some r, some s =>
    if !x.warmed then d else
    let mine := (d.rail r).stack.filter fun y => decide (y.entry = e)
    let k := phasesNeeded d r x
    if mine.length > k then
      let beyond := (mine.take (mine.length - k)).map (·.phase)
      unwindWhere tm r false (fun y => decide (y.entry = e) && beyond.contains y.phase) d
    else if mine.length < k ∧ x.kindle ∧ kindlingOn d r then warmPhases tm r e s (k - mine.length) d
    else d
  | _, _ => d

/-- Records of entries that have reached DONE are released at the first boundary after (R225). -/
def releaseEnded (tm : TimeBase) (r : Fin 64) (d : Device) : Device :=
  let d := (d.rail r).ended.foldl (fun d e => releaseRecords tm r (fun y => decide (y.entry = e))
    (d.onRail r fun x => { x with warming := x.warming.filter fun w => decide (w.entry ≠ e) })) d
  d.onRail r fun x => { x with ended := [] }

/-- The step of one record changes. -/
def setStep (r : Fin 64) (g : Fin 512) (s : AddStep) (d : Device) : Device :=
  d.onRail r fun x => { x with stack := x.stack.map fun y => if y.phase = g then { y with step := s } else y }

/-- Does a warming still hold a record of a phase that has not joined? -/
def warmingHolds (x : Rail) (w : Warming) (g : Fin 512) : Bool :=
  x.stack.any fun y => decide (y.entry = w.entry) && decide (y.phase = g) && decide (y.step ≠ .joined)

/-- The records whose join is due, in order (R223 step 2). -/
def dueRecords (now : Word) (x : Rail) : List (Fin 512) :=
  (x.warming.filter fun w => notEarlierUs now w.tj).flatMap fun w => w.phases.filter (warmingHolds x w)

/-- One warming join (R223 step 2): the first due record whose phase is still available takes the boundary; those before it are
removed. -/
def joinDue (tm : TimeBase) (r : Fin 64) : List (Fin 512) → Device → Device
  | [], d => d
  | g :: gs, d =>
    if available d r g then setStep r g .joined (orderedJoin r g (endTuneOn tm r .phases d))
    else joinDue tm r gs (dropRecords tm r (fun y => decide (y.phase = g)) d)

/-- One Kindling decision at a boundary (R228): an unwind's leave first, then the next warming join. Warmings without records
left to join are over. -/
def kindlingBoundary (tm : TimeBase) (r : Fin 64) (d : Device) : Device :=
  match (d.rail r).unwinding with
  | u :: us => orderedLeave u.phase .admitted (endTuneOn tm r .phases (d.onRail r fun x => { x with unwinding := us }))
  | [] =>
    let d := joinDue tm r (dueRecords (word tm.us.toNat) (d.rail r)) d
    d.onRail r fun x => { x with warming := x.warming.filter fun w => w.phases.any (warmingHolds x w) }

/-! ### Retirement and quadrants -/

/-- Joins in list order until a test on the joined phases holds or no phase is left (R218, R219): the device and the phases that
were joined. -/
def joinUntil (ok : List (Fin 512) → Device → Bool) (r : Fin 64) :
    List (Fin 512) → List (Fin 512) → Device → Device × List (Fin 512)
  | [], js, d => (d, js)
  | g :: gs, js, d => if ok js d then (d, js) else joinUntil ok r gs (js ++ [g]) (orderedJoin r g d)

/-- Is an ordered leave of a phase under way? -/
def isLeaving (d : Device) (g : Fin 512) : Bool := match (d.phase g).ramp with
  | .down _ => true
  | _ => false

/-- The placed phases that remain at full weight (R204). -/
def stayingPhases (d : Device) (r : Fin 64) : List (Fin 512) := (fullPhases d r).filter fun g => !isLeaving d g

/-- A retirement is over (R219): the slot is RETIRED and the command ends. -/
def finishRetire (tm : TimeBase) (r : Fin 64) (t : Retiring) (d : Device) : Device :=
  let g := t.phase
  let d := d.onRail r fun x => { x with
    retiring := x.retiring.filter fun y => decide (y.phase ≠ g), intStatus := setBit x.intStatus 4 }
  let d := if (d.slot g).state = .absent then d else setSlot g .retired .none d
  raiseRetire tm r t.pos.val 7 .ok g.val (endCmd r .ok d)

/-- Retirements whose phase is unplaced and has been sent its STOP are over (R128, R219). -/
def retirementsEnd (tm : TimeBase) (r : Fin 64) (d : Device) : Device :=
  ((d.rail r).retiring.filter fun t => t.leaving && !(d.phase t.phase).placed && (d.phase t.phase).stopAt.isNone).foldl
    (fun d t => finishRetire tm r t d) d

/-- The leave of a phase that retires has been decided: its slot will be RETIRED when its STOP is sent. -/
def markLeaving (r : Fin 64) (g : Fin 512) (d : Device) : Device :=
  (d.onRail r fun x => { x with
    retiring := x.retiring.map fun y => if y.phase = g then { y with leaving := true } else y }).onPhase g
    fun p => { p with after := .retired }

/-- A retirement that waits for this boundary (R219). -/
def retireBoundary (tm : TimeBase) (r : Fin 64) (t : Retiring) (d : Device) : Device :=
  let g := t.phase
  if t.leaving then d
  else if !(d.phase g).placed then
    if (d.phase g).stopAt.isSome then markLeaving r g d else finishRetire tm r t d
  else
    let i := railCurrentAbs d r
    let enough (js : List (Fin 512)) (d : Device) : Bool :=
      decide (i ≤ capacityOf d ((stayingPhases d r).filter (fun x => decide (x ≠ g)) ++ js))
        && decide (minPhases d r ≤ ((placedOf d r).filter fun x => decide (x ≠ g) && !isLeaving d x).length)
    let j := joinUntil enough r (unplacedPhases d r) [] d
    if enough j.2 j.1 then orderedLeave g .retired (markLeaving r g (endTuneOn tm r .phases j.1))
    else
      let d := j.1.onRail r fun x => { x with retiring := x.retiring.filter fun y => decide (y.phase ≠ g) }
      raiseRetire tm r t.pos.val 7 .capacity g.val (endCmd r .capacity (if j.2.isEmpty then d else endTuneOn tm r .phases d))

/-- A quadrant that leaves takes its placed phases with it (R218): capacity is made up first from outside the quadrant, by
the phases that remain at full weight (R204) and those that join now; where it falls short the rail enters HOLD. -/
def quadrantBoundary (tm : TimeBase) (r : Fin 64) (d : Device) : Device :=
  let leaving := (placedOf d r).filter fun g => quadLeaving d (quadOf g) && !isLeaving d g
  if leaving.isEmpty then d else
  let i := railCurrentAbs d r
  let enough (js : List (Fin 512)) (d : Device) : Bool :=
    decide (i ≤ capacityOf d ((stayingPhases d r).filter (fun g => !quadLeaving d (quadOf g)) ++ js))
  let j := joinUntil enough r (unplacedPhases d r) [] (endTuneOn tm r .phases d)
  let d := leaving.foldl (fun d g => orderedLeave g (if (d.rail r).retiring.any fun t => decide (t.phase = g) then .retired
    else .admitted) d) j.1
  if enough j.2 d then d else
  match (d.rail r).state with
  | .regulate => enterHold tm r .quadrant d
  | _ => d

/-! ### Shedding and adding -/

/-- The rule of R217 at an outer sample instant. Ts is NEST_N × P T-ticks, and the dwell counts in T-ticks. Joins made while
shedding and adding are off are no adds decided, and COUNTS.ADDS leaves them out (DEDUCED, assumption 28). During auto-tune
neither half acts, and the dwell starts anew as in the rule's last line. -/
def shedAdd (tm : TimeBase) (r : Fin 64) (b : RailSect) (d : Device) : Device :=
  if tuning d r then d.onRail r fun x => { x with dwell := 0 } else
  let x := d.rail r
  let w := weightSum d r
  let hi := b.addHi * 10
  let free := (unplacedPhases d r).filter fun g => !isAddition d r g
  let count (n : Nat) (d : Device) : Device := d.onRail r fun x => { x with adds := x.adds + BitVec.ofNat 8 n, dwell := 0 }
  if !x.cfg.shedEn || hi = 0 then
    count 0 (free.foldl (fun d g => orderedJoin r g d) d)
  else
    let i := railCurrentAbs d r
    match free with
    | g :: _ =>
      if i * fullWeight > w * hi then count 1 (orderedJoin r g d) else shed x w hi i d
    | [] => shed x w hi i d
where
  /-- The shedding half of the rule. -/
  shed (x : Rail) (w hi i : Nat) (d : Device) : Device :=
    let low := decide (i * fullWeight < w * (b.shedLo * 10))
    if decide (x.state = .regulate) && !shedSuspended d r && low && decide (w > b.minPhases * fullWeight)
        && decide (i * 8 * fullWeight ≤ (w - fullWeight) * hi * 7) then
      let dwell := x.dwell + b.nestN * groupPeriod d b.fgroup
      let last := ((placedOf d r).filter fun g => !isAddition d r g).getLast?
      match last with
      | some g =>
        if dwell ≥ b.shedDwell * 800000 ∧ !rampingRail d r then
          orderedLeave g .admitted (endTuneOn tm r .phases (d.onRail r fun x => { x with dwell := 0, sheds := x.sheds + 1 }))
        else d.onRail r fun x => { x with dwell := dwell }
      | none => d.onRail r fun x => { x with dwell := dwell }
    else d.onRail r fun x => { x with dwell := 0 }

/-! ### The outer sample instant -/

/-- Is the target within PG_WIN of a voltage? -/
def withinPg (d : Device) (r : Fin 64) (v target : Nat) : Bool :=
  decide (((v : Int) - target).natAbs ≤ (d.rail r).cfg.pgWin.toNat)

/-- The rail's rules at an outer sample instant (Table 8-2, R209, R210). `v` is none where the evaluation is stale. -/
def outerRules (tm : TimeBase) (r : Fin 64) (b : RailSect) (v : Option Nat) (d : Device) : Device :=
  let x := d.rail r
  let target := targetOf x
  let i := railCurrentAbs d r
  let avail := (availablePhases d r).length
  match x.state with
  | .precharge =>
    let n := x.instants + 1
    let d := d.onRail r fun x => { x with instants := n }
    if n ≥ 8 ∧ !rampingRail d r then changeState tm r .ramp .none d else d
  | .ramp =>
    match v with
    | none => d
    | some v =>
      if x.stopping then d else
      let good := decide (x.ramp = goalOf d r * 20) && withinPg d r v target
      let run := if good then x.goodRun + 1 else 0
      if run ≥ max 1 x.cfg.pgCount.toNat then
        changeState tm r .regulate .none (d.onRail r fun x => { x with dwell := 0 })
      else d.onRail r fun x => { x with goodRun := run }
  | .regulate =>
    if i > capacityOf d (fullPhases d r) then enterHold tm r .capacity d
    else if avail < b.minPhases then enterHold tm r .phases d
    else d
  | .hold =>
    match v with
    | none => d
    | some v =>
      let l := d.loop r
      let clean := decide (l.ovrRun = 0) && decide (l.staleRun = 0) && decide (i ≤ capacityOf d (placedOf d r))
        && decide (b.minPhases ≤ avail) && withinPg d r v target
      let run := if clean then x.goodRun + 1 else 0
      if run ≥ 16 then changeState tm r .regulate .none (d.onRail r fun x => { x with dwell := 0 })
      else d.onRail r fun x => { x with goodRun := run }
  | _ => d

/-- v and vin of an outer sample instant; vin keeps its last value where no phase contributes (R176). -/
def formVoltages (r : Fin 64) (b : RailSect) (vs : Bank 8 (Nat × Nat)) (j instant : Nat) (d : Device) :
    Device × Option Nat :=
  let vin := sourceVoltage d r b.vinSrc (·.vin) vs j instant
  let d := match vin with
    | some n => d.onLoop r fun l => { l with vin := BitVec.ofNat 20 n }
    | none => d
  (d, sourceVoltage d r b.voutSrc (·.vout) vs j instant)

/-- A stale outer sample instant is counted (R176). Answers whether it is the eighth in a row, which is reported. -/
def countStale (r : Fin 64) (d : Device) : Device × Bool :=
  let run := satInc (d.loop r).staleRun
  (d.onLoop r fun l => { l with
    stale := true, staleRun := run, intStatus := if run = 8 then setBit l.intStatus 2 else l.intStatus }, decide (run = 8))

/-- The rail's rules and a report of the engine that come at one outer sample instant, in the order of Table 8-2: the eighth
instant of PRECHARGE stands before a report, and a report before the rules of the other states. -/
def rulesAndReport (tm : TimeBase) (r : Fin 64) (b : RailSect) (v : Option Nat) (report : Option RailCause) (d : Device) :
    Device :=
  let told (d : Device) : Device := match report with
    | some c => reportEngine tm r c d
    | none => d
  match (d.rail r).state with
  | .precharge => told (outerRules tm r b v d)
  | _ => outerRules tm r b v (told d)

/-- The outer sample instant C(j) of a rail (R166, R171, R176): the outer evaluation, or the relay of a run on it, and
then the rail's rules. -/
def outerInstant (tm : TimeBase) (r : Fin 64) (b : RailSect) (vs : Bank 8 (Nat × Nat)) (j instant : Nat) (d : Device) :
    Device :=
  match railMode d r with
  | none => d
  | some mode =>
    let f := formVoltages r b vs j instant d
    let d := f.1
    let target := targetOf (d.rail r)
    match f.2 with
    | none =>
      let c := countStale r d
      rulesAndReport tm r b none (if c.2 then some .stale else none) c.1
    | some v =>
      let d := d.onLoop r fun l => { l with stale := false, staleRun := 0 }
      let seen (d : Device) : Device :=
        d.onLoop r fun l => { l with vfb := BitVec.ofNat 20 v, target := BitVec.ofNat 20 target }
      if tuning d r then
        let d := seen d
        rulesAndReport tm r b (some v) none (if d.tune.run.any (·.inner) then d else relayStep tm instant v d)
      else
        let a := admitOuter r b j instant target v mode d
        if a.2 then rulesAndReport tm r b (some v) none a.1 else
        let c := countOverrun r false a.1
        rulesAndReport tm r b (some v) (if c.2 then some .overrun else none) c.1

/-- A run that waits on a rail begins at a sample instant of its loop (R195). -/
def beginTuneOn (tm : TimeBase) (r : Fin 64) (inner : Bool) (now : Nat) (d : Device) : Device :=
  match d.tune.run with
  | some t => if t.rail = r ∧ t.inner = inner then beginTune tm now (targetOf (d.rail r)) d else d
  | none => d

/-! ### The boundary -/

/-- PRECHARGE begins at the boundary after the start measurement (R207 step 5, R177, R186). -/
def beginPrecharge (tm : TimeBase) (r : Fin 64) (b : RailSect) (s : StartReady) (d : Device) : Device :=
  let joiners := availablePhases d r
  let d := changeState tm r .precharge .none (endCmd r .ok d)
  let d := { d with tbi := { d.tbi with rails := bankUpd d.tbi.rails r fun t =>
    if t.hasPlaced then t else
    { t with hasPlaced := true, base := if d.sys.strapMode then 0 else (r.val % 8) * groupPeriod d b.fgroup / 8 } } }
  let d := d.onRail r fun x => { x with
    ready := none, ramp := s.v0 * 20, rampSince := tm.time.toNat, instants := 0, goodRun := 0, dwell := 0 }
  let d := d.onLoop r fun l => { l with
    preset := s.d0, dem := 0, demNext := [], lastRelease := none, presetDue := false
    ovrRun := 0, staleRun := 0, stale := false, ovrNow := false }
  let d := joiners.foldl (fun d g => orderedJoin r g d) d
  presetOuter r b 0 d

/-- The rows of Table 1-4 that are decided at this boundary, in order: retirement and admission, quadrants, the start of
PRECHARGE, Kindling, and the base that the host wrote. The trip (row 1) has acted already, and a section (row 2) takes
effect as its own step. -/
def boundaryDecisions (tm : TimeBase) (r : Fin 64) (b : RailSect) (d : Device) : Device :=
  let d := (d.rail r).retiring.foldl (fun d t => retireBoundary tm r t d) d
  let d := b.phases.foldl (fun d g => if (d.slot g).fresh then d.onSlot g fun s => { s with fresh := false } else d) d
  let d := quadrantBoundary tm r d
  let d := match (d.rail r).ready with
    | some s => if (d.rail r).state = .armed && decide (d.sys.step = .ready) then beginPrecharge tm r b s d else d
    | none => d
  let d := releaseEnded tm r d
  let d := if (d.rail r).state = .regulate ∨ (d.rail r).state = .hold ∨ (d.rail r).state = .ramp
    then kindlingBoundary tm r d else d
  let t := bankGet d.tbi.rails r
  match t.baseSet with
  | some v =>
    let d := { d with tbi := { d.tbi with rails := bankSet d.tbi.rails r { t with baseSet := none, base := v % max 1 (groupPeriod d b.fgroup) } } }
    recompute r (some v) d
  | none => d

/-- A section that cleared the histories presets them once the limits of the period are fixed (R82, R177, R186). -/
def presetCleared (r : Fin 64) (b : RailSect) (d : Device) : Device :=
  if !(d.loop r).presetDue then d else
  let d := presetOuter r b (d.loop r).dem (d.onLoop r fun l => { l with presetDue := false })
  (placedOf d r).foldl (fun d g => presetInner r b g (d.phase g).duty d) d

/-- The phases whose first cell lies in the carrier period that begins here: their histories are preset with the share of that
period (R178, R186). -/
def presetStarters (r : Fin 64) (b : RailSect) (k : Nat) (d : Device) : Device :=
  ((placedOf d r).filter fun g => decide ((d.phase g).firstAt = some k)).foldl
    (fun d g => presetInner r b g (d.phase g).prevDuty d) d

/-- One rail at the start of a carrier period: the rail manager's decisions, then the timebase's steps, then the loop
engine (DEDUCED from Table 1-4 and R145, assumption 29). `vs` holds the conversions of the period that ends here. -/
def railBoundary (tm : TimeBase) (r : Fin 64) (b : RailSect) (vs : Bank 8 (Nat × Nat)) (d : Device) : Device :=
  let c := bankGet d.tbi.carriers b.fgroup
  -- overruns of the period that ends (R174)
  let d := d.onLoop r fun l => { l with ovrRun := if l.ovrNow then l.ovrRun else 0, ovrNow := false }
  -- demands that take effect here (R166)
  let d := releaseDue (.outer r) c.k d
  -- an immediate leave's angles (Table 5-1)
  let t := bankGet d.tbi.rails r
  let d := if t.recompute then
      recompute r none { d with tbi := { d.tbi with rails := bankSet d.tbi.rails r { t with recompute := false } } }
    else d
  let outer := decide (c.k % max 1 b.nestN = 0)
  -- what the rail manager decides (Table 1-4, R217), with the weights of the period that ends
  let d := boundaryDecisions tm r b d
  let d := if outer then
      match (d.rail r).state with
      | .regulate | .hold => shedAdd tm r b d
      | _ => d
    else d
  -- every ramp takes its step, and joiners their angles (R145, R451)
  let d := stepWeights r d
  let d := settleJoiners r d
  let d := fixShares r d
  let d := presetStarters r b c.k (presetCleared r b d)
  -- an empty placed set comes first of what the rail manager decides from here on (Table 8-2)
  let d := checkEmpty tm r d
  -- a run of auto-tune begins at a sample instant of its loop (R195)
  let d := beginTuneOn tm r true c.c0 (if outer then beginTuneOn tm r false c.c0 d else d)
  -- the loop engine (R166), and what follows in the rail manager from its voltage (Table 8-2)
  let d := if outer then outerInstant tm r b vs c.k c.c0 d else d
  -- LOOP 1 of auto-tune is evaluated at each carrier start (R195, R196)
  let d := match d.tune.run with
    | some x => if x.rail = r ∧ x.inner then relayStep tm c.c0 (d.loop r).vfb.toNat d else d
    | none => d
  retirementsEnd tm r (emitStops c.c0 (b.phases ++ (bankGet d.tbi.rails r).leavers) d)

end Sys2Proof.Machine
end

