-- ==== Sys2Proof/Machine/Protect.lean ====
section
/-! DEFINITION. The protection matrix (R283 to R290): the entries in force, the sources as values arrive, what an entry
that fires does, the latches and the fault pins. -/

namespace Sys2Proof.Machine

/-! ### Entries in force -/

/-- The implicit entries of a rail (R283). -/
def implicitOf (r : Fin 64) : List ProtEntry :=
  [2, 3, 4].map fun s => ⟨s, 2, r.val, none, if r.val < 8 then BitVec.ofNat 8 (2 ^ r.val) else 0, 0⟩

/-- The entries of the structure in force: those of PROTECT, or the implicit ones (R283). -/
def protEntries (s : Structure) : List ProtEntry × Bool :=
  match s.protect with
  | some p => (p.body, false)
  | none => (((List.finRange 64).filter fun r => (bankGet s.rails r).isSome).flatMap implicitOf, true)

/-- The matrix takes the entries of the structure in force. Entries that stay the same keep their state: only the implicit
entries of a rail whose section comes or goes can change outside a reset. -/
def loadProtect (d : Device) : Device :=
  let e := protEntries d.str
  if e.1 = d.pm.entries ∧ e.2 = d.pm.implicit then d else
  let old := d.pm.entries.zip d.pm.st
  { d with pm := { d.pm with
      entries := e.1
      implicit := e.2
      st := e.1.map fun x => match old.find? fun o => decide (o.1 = x) with
        | some o => o.2
        | none => ⟨0, false, false⟩
      refusedClear := [] } }

/-! ### Actions -/

/-- Does a rail in this state take a protection action 2, 3 or 4 (Table 8-2)? -/
def RailState.tripped : RailState → Bool
  | .armed | .precharge | .ramp | .regulate | .hold => true
  | .off | .fault | .safe => false

/-- The phases that an entry with ACTION 1 stops (Table 11-2); none where it acts as ACTION 2. -/
def phaseTrips (d : Device) (e : ProtEntry) : Option (List (Fin 512)) :=
  match e.source.val with
  | 1 => (fin? 512 e.srcIndex).map fun g => [g]
  | 8 => (fin? 64 e.srcIndex).map fun n => (laneSlots n).filter fun g => (d.slot g).owner.isSome
  | 7 =>
    match (d.str.hkeep.map (·.body)).bind fun l => l[e.srcIndex]? with
    | some h => if h.source = 1 then (fin? 512 h.srcIndex).map fun g => [g] else none
    | none => none
  | _ => none

/-- The action that an entry takes on a rail: 0 none, 2 FAULT, 3 SAFE, 4 SAFE (Table 11-2, R286). -/
def railAction (d : Device) (e : ProtEntry) (r : Fin 64) : Nat :=
  match e.action.val with
  | 4 => 4
  | 3 => if entryRail d e = some r then 3 else 0
  | 2 => if entryRail d e = some r then 2 else 0
  | 1 => if (phaseTrips d e).isNone ∧ entryRail d e = some r then 2 else 0
  | _ => 0

/-- A rail takes the highest action of a cycle (R287). -/
def actOnRail (tm : TimeBase) (r : Fin 64) (a : Nat) (d : Device) : Device :=
  if !(d.rail r).state.tripped then d
  else if a ≥ 3 then enterSafe tm r .pmSafe d
  else if a = 2 then enterFault tm r .pmFault d
  else d

/-- A phase is stopped at once (R290): no further EDGE cell, those that wait discarded, STOP where its lane is not lost. -/
def stopPhase (tm : TimeBase) (g : Fin 512) (d : Device) : Device :=
  let was := (d.phase g).placed
  let lost := (d.lane (laneOf g)).lossActive
  let d := immediateLeave tm g d
  if !was then d else
  let d := d.onLane (laneOf g) fun l => { l with queue := l.queue.filter fun q => match q.cell with
    | .edge s _ _ _ _ _ => decide (s ≠ slotOf g)
    | _ => true }
  let d := d.onPhase g fun p => { p with stopAt := none }
  if lost then d else
  let d := sendStop g d
  if (d.slot g).state = .serving then setSlot g .admitted .none d else d

/-- ACTION 1 on one phase: the immediate leave, and its bit in TRIPPED (R221). -/
def tripPhase (tm : TimeBase) (g : Fin 512) (d : Device) : Device :=
  let d := match (d.slot g).owner with
    | some r =>
      let d := d.onRail r fun x => { x with tripped := if x.tripped.contains g then x.tripped else x.tripped ++ [g] }
      phaseGone r (endTuneOn tm r .state d)
    | none => d
  stopPhase tm g d

/-- An entry fires: its latch, its counts, its record and the capture trigger (R286, R308, R421). -/
def fireEntry (tm : TimeBase) (i : Nat) (e : ProtEntry) (d : Device) : Device :=
  let pm := d.pm
  let pm := { pm with
    st := pm.st.modify i fun s => { s with latch := true }
    trips := pm.trips + 1
    intStatus := setBit pm.intStatus 0
    first := match pm.first with
      | some f => some f
      | none => fin? 256 i
    firstTime := if pm.first.isSome then pm.firstTime else word tm.us.toNat }
  let target := match e.target with | some r => r.val | none => 0xFF
  let d := raise tm 0x70 (leBytes 2 i ++ [byte e.source.val, byte e.action.val] ++ leBytes 2 e.srcIndex
    ++ [byte target, e.fltMask]) { d with pm := pm }
  if e.action = 0 then d else captureTrigger tm .protection i d

/-- The entries that fire in one LCLK cycle act together (R287). -/
def fireAll (tm : TimeBase) (fired : List (Nat × ProtEntry)) (d : Device) : Device :=
  match fired with
  | [] => d
  | _ =>
    let d := fired.foldl (fun d x => fireEntry tm x.1 x.2 d) d
    let act (r : Fin 64) : Nat := fired.foldl (fun a x => max a (railAction d x.2 r)) 0
    let acts := (List.finRange 64).map fun r => (r, act r)
    let trips := fired.flatMap fun x => if x.2.action = 1 then (phaseTrips d x.2).getD [] else []
    let d := acts.foldl (fun d x => actOnRail tm x.1 x.2 d) d
    trips.foldl (fun d g => tripPhase tm g d) d

/-- Every source takes its new state, and the entries whose source asserts while their latch is clear fire (R286). -/
def updateSources (tm : TimeBase) (f : ProtEntry → ProtSt → ProtSt) (d : Device) : Device :=
  let old := d.pm.entries.zip d.pm.st
  let new := old.map fun x => f x.1 x.2
  let fired := ((old.zip new).zipIdx.filter fun x => x.1.2.active && !x.1.1.2.active && !x.1.1.2.latch).map
    fun x => (x.2, x.1.1.1)
  fireAll tm fired { d with pm := d.pm.withSt new }

/-! ### Sources -/

/-- A count that a value advances or ends (Table 11-1, sources 2 to 6): asserted after n values in a row. -/
def countValue (n : Nat) (hit : Bool) (s : ProtSt) : ProtSt :=
  if hit then { s with count := s.count + 1, active := s.active || decide (s.count + 1 ≥ max 1 n) }
  else { s with count := 0, active := false }

/-- Threshold of SOURCE 2: RAIL_OC_PCT × ILIM_RAIL in mA (Table 11-1, Table 11-8). -/
def railOcMa (d : Device) (r : Fin 64) : Nat :=
  match d.sect r with
  | some b => max 100 d.pm.railOcPct.toNat * b.ilimRail
  | none => 0

/-- SOURCE 2 of the rails of a group at their carrier boundary. -/
def railCurrentValues (tm : TimeBase) (rs : List (Fin 64)) (d : Device) : Device :=
  updateSources tm (fun e s =>
    match fin? 64 e.srcIndex with
    | some r =>
      if e.source = 2 ∧ rs.contains r then countValue d.pm.fCount.toNat (decide (railCurrentAbs d r > railOcMa d r)) s
      else s
    | none => s) d

/-- Is the under-voltage source of a rail armed (R212)? -/
def uvArmed (d : Device) (r : Fin 64) : Bool :=
  match (d.rail r).state with
  | .regulate | .hold => true
  | _ => false

/-- SOURCES 3 and 4 of some rails at one feedback value (R285). -/
def feedbackValue (d : Device) (rs : List (Fin 64)) (v : Nat) (e : ProtEntry) (s : ProtSt) : ProtSt :=
  match fin? 64 e.srcIndex with
  | some r =>
    if !rs.contains r then s else
    match d.sect r with
    | none => s
    | some b =>
      if e.source = 3 then countValue d.pm.vCount.toNat (decide (v > b.ov)) s
      else if e.source = 4 then
        if uvArmed d r then countValue d.pm.vCount.toNat (decide (v < b.uv)) s else { s with count := 0, active := false }
      else s
  | none => s

/-- A VSENSE conversion: SOURCES 5 and 6 of the input, and the feedback of every rail that it senses, in one cycle. -/
def vsenseSources (tm : TimeBase) (n : Fin 8) (code : BitVec 16) (d : Device) : Device :=
  let rs := (List.finRange 64).filter fun r => match d.sect r with
    | some b => decide (b.voutSrc = some n)
    | none => false
  let v := vsenseLsb d.str.device.body n code
  updateSources tm (fun e s =>
    if e.srcIndex = n.val ∧ e.source = 5 then countValue d.pm.vsCount.toNat (decide (code.toNat > e.level)) s
    else if e.srcIndex = n.val ∧ e.source = 6 then countValue d.pm.vsCount.toNat (decide (code.toNat < e.level)) s
    else feedbackValue d rs v e s) d

/-- A MEAS VOUT of a placed phase whose rail takes stage-reported feedback (R285). -/
def measSources (tm : TimeBase) (g : Fin 512) (v : Nat) (d : Device) : Device :=
  match (d.slot g).owner with
  | none => d
  | some r =>
    match d.sect r with
    | none => d
    | some b => if (d.phase g).placed && decide (b.voutSrc = none) then updateSources tm (feedbackValue d [r] v) d else d

/-- PH_OC_PCT × LIMIT in units of 1/10 mA: the sample threshold of SOURCE 1 times ten. -/
def phaseOcMa10 (d : Device) (g : Fin 512) : Nat := max 100 d.pm.phOcPct.toNat * (d.slot g).limit.toNat

/-- The samples of a period one by one: the run above the threshold, and whether it reached OC_COUNT. -/
def ocRuns (limit10 n : Nat) : List Int → Nat × Bool → Nat × Bool
  | [], a => a
  | i :: is, (run, hit) =>
    let run := if i.natAbs * 10 > limit10 then run + 1 else 0
    ocRuns limit10 n is (run, hit || decide (run ≥ max 1 n))

/-- SOURCE 1 at a SAMPLE cell of a slot (Table 11-1, R285): its F, and its samples in mA where they are exact. -/
def sampleSources (tm : TimeBase) (g : Fin 512) (f : Bool) (ma : Option (List Int)) (d : Device) : Device :=
  let placed := (d.phase g).placed
  let fRun := if f then bankGet d.pm.fRun g + 1 else 0
  let limit := phaseOcMa10 d g
  let oc := match ma with
    | some l => ocRuns limit d.pm.ocCount.toNat l (bankGet d.pm.ocRun g, false)
    | none => (bankGet d.pm.ocRun g, false)
  let clean := !f && (match ma with | some l => l.all fun i => decide (i.natAbs * 10 ≤ limit) | none => false)
  let assert' := placed && (decide (fRun ≥ max 1 d.pm.fCount.toNat) || oc.2)
  let d := { d with pm := { d.pm with fRun := bankSet d.pm.fRun g fRun, ocRun := bankSet d.pm.ocRun g oc.1 } }
  updateSources tm (fun e s =>
    if e.source = 1 ∧ e.srcIndex = g.val then
      if assert' then { s with active := true } else if clean then { s with active := false } else s
    else s) d

/-- SOURCE 8 of a lane asserts, or clears when the lane is UP again. -/
def laneSource (tm : TimeBase) (n : Fin 64) (lost : Bool) (d : Device) : Device :=
  updateSources tm (fun e s => if e.source = 8 ∧ e.srcIndex = n.val then { s with active := lost } else s)
    (d.onLane n fun l => { l with lossActive := lost })

/-- SOURCE 7 of every channel at the end of a round. -/
def channelSources (tm : TimeBase) (d : Device) : Device :=
  updateSources tm (fun e s =>
    if e.source = 7 then
      match fin? 96 e.srcIndex with
      | some c => { s with active := decide ((bankGet d.hkt.chans c).level = 3) }
      | none => s
    else s) d

/-! ### Latches and pins -/

/-- A write of ones to PM.LATCH[i] (R288): a latch clears where its source is clear; CLEARABLE follows later for one that
stays. -/
def clearLatches (i : Fin 8) (data : Word) (d : Device) : Device :=
  let pick (k : Nat) : Bool := decide (k / 32 = i.val) && data.getLsbD (k % 32)
  let pm := d.pm
  let st := pm.st.mapIdx fun k s => if pick k && s.latch && !s.active then { s with latch := false } else s
  let kept := (pm.st.zipIdx.filter fun x => pick x.2 && x.1.latch && x.1.active && !pm.refusedClear.contains x.2).map (·.2)
  { d with pm := { pm with st := st, refusedClear := pm.refusedClear ++ kept } }

/-- FIRST and FIRST_TIME are cleared (Table 11-9). -/
def clearFirst (d : Device) : Device := { d with pm := { d.pm with first := none, firstTime := 0 } }

/-- FLT_N[n] is low (R289). -/
def fltLow (d : Device) (n : Fin 8) : Bool :=
  let pm := d.pm
  let mine := (pm.entries.zip pm.st).filter fun x => x.1.fltMask.getLsbD n.val
  (if pm.fltMode.getLsbD n.val then mine.any fun x => x.2.active else mine.any fun x => x.2.latch)
    || pm.fltForce.getLsbD n.val || d.hkt.tsd || pm.clockLoss || decide (d.sys.step ≠ .ready)

/-- PM.STATUS.FLT_LOW (Table 11-7). -/
def fltLowMask (d : Device) : Nat := (List.finRange 8).foldl (fun a n => a + flag (fltLow d n) n.val) 0

end Sys2Proof.Machine
end

