-- ==== Sys2Proof/Machine/Crypto.lean ====
section
/-! DEFINITION. SHA-256 and HMAC-SHA-256 (R352), and ECDSA verification over P-256 (R366), as their public
standards give them; the spec names them without restating them (assumption 9). -/

namespace Sys2Proof.Machine

/-- Rotation of a 32-bit number to the right. -/
def rotr32 (x k : Nat) : Nat := (x / 2 ^ k) ||| (x * 2 ^ (32 - k) % 2 ^ 32)

/-- Round constants 0 to 31. -/
def shaConstsLow : List Nat := [
  0x428A2F98, 0x71374491, 0xB5C0FBCF, 0xE9B5DBA5, 0x3956C25B, 0x59F111F1, 0x923F82A4, 0xAB1C5ED5,
  0xD807AA98, 0x12835B01, 0x243185BE, 0x550C7DC3, 0x72BE5D74, 0x80DEB1FE, 0x9BDC06A7, 0xC19BF174,
  0xE49B69C1, 0xEFBE4786, 0x0FC19DC6, 0x240CA1CC, 0x2DE92C6F, 0x4A7484AA, 0x5CB0A9DC, 0x76F988DA,
  0x983E5152, 0xA831C66D, 0xB00327C8, 0xBF597FC7, 0xC6E00BF3, 0xD5A79147, 0x06CA6351, 0x14292967]

/-- Round constants 32 to 63. -/
def shaConstsHigh : List Nat := [
  0x27B70A85, 0x2E1B2138, 0x4D2C6DFC, 0x53380D13, 0x650A7354, 0x766A0ABB, 0x81C2C92E, 0x92722C85,
  0xA2BFE8A1, 0xA81A664B, 0xC24B8B70, 0xC76C51A3, 0xD192E819, 0xD6990624, 0xF40E3585, 0x106AA070,
  0x19A4C116, 0x1E376C08, 0x2748774C, 0x34B0BCB5, 0x391C0CB3, 0x4ED8AA4A, 0x5B9CCA4F, 0x682E6FF3,
  0x748F82EE, 0x78A5636F, 0x84C87814, 0x8CC70208, 0x90BEFFFA, 0xA4506CEB, 0xBEF9A3F7, 0xC67178F2]

/-- The eight working words. -/
structure ShaRegs where
  a : Nat
  b : Nat
  c : Nat
  d : Nat
  e : Nat
  f : Nat
  g : Nat
  h : Nat
deriving DecidableEq, Repr

/-- The initial hash value. -/
def shaInit : ShaRegs := ⟨0x6A09E667, 0xBB67AE85, 0x3C6EF372, 0xA54FF53A,
  0x510E527F, 0x9B05688C, 0x1F83D9AB, 0x5BE0CD19⟩

/-- One round with its schedule word and constant. -/
def shaRound (r : ShaRegs) (wk : Nat × Nat) : ShaRegs :=
  let s1 := rotr32 r.e 6 ^^^ rotr32 r.e 11 ^^^ rotr32 r.e 25
  let ch := (r.e &&& r.f) ^^^ ((0xFFFFFFFF ^^^ r.e) &&& r.g)
  let t1 := r.h + s1 + ch + wk.1 + wk.2
  let s0 := rotr32 r.a 2 ^^^ rotr32 r.a 13 ^^^ rotr32 r.a 22
  let maj := (r.a &&& r.b) ^^^ (r.a &&& r.c) ^^^ (r.b &&& r.c)
  ⟨(t1 + s0 + maj) % 2 ^ 32, r.a, r.b, r.c, (r.d + t1) % 2 ^ 32, r.e, r.f, r.g⟩

/-- The message schedule, newest word first. -/
def shaExtend : Nat → List Nat → List Nat
  | 0, ws => ws
  | k + 1, ws =>
    let w2 := ws.getD 1 0
    let w15 := ws.getD 14 0
    let s0 := rotr32 w15 7 ^^^ rotr32 w15 18 ^^^ (w15 / 2 ^ 3)
    let s1 := rotr32 w2 17 ^^^ rotr32 w2 19 ^^^ (w2 / 2 ^ 10)
    shaExtend k ((ws.getD 15 0 + s0 + ws.getD 6 0 + s1) % 2 ^ 32 :: ws)

/-- The words of a byte string, most significant byte first. -/
def beWords : Nat → List Byte → List Nat
  | 0, _ => []
  | k + 1, bs => beAt bs 0 4 :: beWords k (bs.drop 4)

/-- One block of 64 bytes into the hash. -/
def shaBlock (r : ShaRegs) (block : List Byte) : ShaRegs :=
  let ws := (shaExtend 48 (beWords 16 block).reverse).reverse
  let o := (ws.zip (shaConstsLow ++ shaConstsHigh)).foldl shaRound r
  ⟨(r.a + o.a) % 2 ^ 32, (r.b + o.b) % 2 ^ 32, (r.c + o.c) % 2 ^ 32, (r.d + o.d) % 2 ^ 32,
    (r.e + o.e) % 2 ^ 32, (r.f + o.f) % 2 ^ 32, (r.g + o.g) % 2 ^ 32, (r.h + o.h) % 2 ^ 32⟩

/-- All blocks of a padded message. -/
def shaBlocks : Nat → List Byte → ShaRegs → ShaRegs
  | 0, _, r => r
  | k + 1, bs, r => shaBlocks k (bs.drop 64) (shaBlock r (bs.take 64))

/-- SHA-256 of a byte string: 32 bytes. -/
def sha256 (m : List Byte) : List Byte :=
  let pad := (119 - m.length % 64) % 64
  let padded := m ++ [0x80] ++ List.replicate pad 0 ++ beBytes 8 (8 * m.length)
  let r := shaBlocks (padded.length / 64) padded shaInit
  [r.a, r.b, r.c, r.d, r.e, r.f, r.g, r.h].flatMap (beBytes 4)

/-- HMAC-SHA-256 with a key of at most 64 bytes. -/
def hmac (key m : List Byte) : List Byte :=
  let k := key.takeD 64 0
  sha256 (k.map (· ^^^ 0x5C) ++ sha256 (k.map (· ^^^ 0x36) ++ m))

/-! ### ECDSA over P-256 -/

/-- The field prime. -/
def p256P : Nat := 2 ^ 256 - 2 ^ 224 + 2 ^ 192 + 2 ^ 96 - 1

/-- The order of the base point. -/
def p256N : Nat := 0xFFFFFFFF00000000FFFFFFFFFFFFFFFFBCE6FAADA7179E84F3B9CAC2FC632551

/-- The base point. -/
def p256G : Nat × Nat :=
  (0x6B17D1F2E12C4247F8BCE6E563A440F277037D812DEB33A0F4A13945D898C296,
   0x4FE342E2FE1A7F9B8EE7EB4A7C0F9E162BCE33576B315ECECBB6406837BF51F5)

/-- The coefficient b of the curve. -/
def p256B : Nat := 0x5AC635D8AA3A93E7B3EBBD55769886BC651D06B0CC53B0F63BCE3C3E27D2604B

/-- A power modulo m over 256 bits of exponent. -/
def powMod : Nat → Nat → Nat → Nat → Nat
  | 0, _, _, _ => 1
  | k + 1, b, e, m =>
    let h := powMod k b (e / 2) m
    let s := h * h % m
    if e % 2 = 1 then s * b % m else s

/-- The inverse modulo a prime. -/
def invMod (x m : Nat) : Nat := powMod 256 (x % m) (m - 2) m

/-- Addition of points; none is the point at infinity. -/
def p256Add : Option (Nat × Nat) → Option (Nat × Nat) → Option (Nat × Nat)
  | none, q => q
  | p, none => p
  | some (x1, y1), some (x2, y2) =>
    let finish (l : Nat) : Nat × Nat :=
      let x := (l * l + 2 * p256P - x1 - x2) % p256P
      (x, (l * (x1 + p256P - x) + p256P - y1) % p256P)
    if x1 = x2 then
      if (y1 + y2) % p256P = 0 then none
      else some (finish ((3 * x1 * x1 + p256P - 3) * invMod (2 * y1) p256P % p256P))
    else some (finish ((y2 + p256P - y1) * invMod (x2 + p256P - x1) p256P % p256P))

/-- Multiplication of a point by a number, over k bits. -/
def p256Mul : Nat → Nat → Option (Nat × Nat) → Option (Nat × Nat)
  | 0, _, _ => none
  | k + 1, n, q =>
    let h := p256Mul k (n / 2) q
    let d := p256Add h h
    if n % 2 = 1 then p256Add d q else d

/-- Does a signature (r, s) of a digest verify under a public key? -/
def ecdsaVerify (key : Nat × Nat) (digest : List Byte) (r s : Nat) : Bool :=
  let onCurve := decide (key.1 < p256P ∧ key.2 < p256P ∧
    key.2 * key.2 % p256P = (key.1 * key.1 * key.1 + (p256P - 3) * key.1 + p256B) % p256P)
  if !onCurve || r = 0 || s = 0 || r ≥ p256N || s ≥ p256N then false else
  let w := invMod s p256N
  match p256Add (p256Mul 256 (beNat digest * w % p256N) (some p256G)) (p256Mul 256 (r * w % p256N) (some key)) with
  | none => false
  | some (x, _) => decide (x % p256N = r)

end Sys2Proof.Machine
end

