-- ==== Sys2Proof/Machine/Flash.lean ====
section
/-! DEFINITION. The flash array of the on-chip store: reads, margin reads, programs and erases (R372 to R375), and the
records in it (R378, R380). The bytes are listed in rising address order where they are not 0xFF. -/

namespace Sys2Proof.Machine

/-- The byte listed at an address. -/
def cellsGet : List Host.Cell → Nat → Byte
  | [], _ => 0xFF
  | (k, v) :: t, a => if k = a then v else cellsGet t a

/-- A byte written at an address, keeping the canonical form. -/
def cellsSet : List Host.Cell → Nat → Byte → List Host.Cell
  | [], a, b => if b = 0xFF then [] else [(a, b)]
  | (k, v) :: t, a, b =>
    if a < k then (if b = 0xFF then (k, v) :: t else (a, b) :: (k, v) :: t)
    else if a = k then (if b = 0xFF then t else (a, b) :: t)
    else (k, v) :: cellsSet t a b

/-- The canonical form: addresses strictly rising, and no byte 0xFF listed. -/
def cellsWf : List Host.Cell → Bool
  | [] => true
  | [(_, v)] => decide (v ≠ 0xFF)
  | (k, v) :: (k', v') :: t => decide (k < k') && decide (v ≠ 0xFF) && cellsWf ((k', v') :: t)

/-- The physical sector of an address, of 128. -/
def sectorOf (a : Nat) : Fin 128 := Fin.ofNat 128 (a / 4096)

/-- Was the last program or erase of this byte interrupted? -/
def byteOpen (nv : NonVol) (a : Nat) : Bool := nv.partials.contains a || nv.cut.contains (sectorOf a)

/-- A normal read of a byte (R374): indeterminate where a program or an erase was interrupted. `k` numbers the read. -/
def flashByte (k : Nat) (nv : NonVol) (a : Nat) : Byte :=
  if byteOpen nv a then Config.indeterminate k a else cellsGet nv.flash a

/-- A normal read of n bytes. -/
def flashRead (k : Nat) (nv : NonVol) (a n : Nat) : List Byte := (List.range n).map fun i => flashByte k nv (a + i)

/-- A byte reads 0xFF under erase-verify (R375). -/
def erasedAt (nv : NonVol) (a : Nat) : Bool :=
  (!byteOpen nv a || (nv.unmoved.contains a && !nv.cut.contains (sectorOf a))) && decide (cellsGet nv.flash a = 0xFF)

/-- A byte reads 0x00 under program-verify (R375). -/
def programmedAt (nv : NonVol) (a : Nat) : Bool := !byteOpen nv a && decide (cellsGet nv.flash a = 0)

/-- A group of n bytes is ERASED. -/
def groupErased (nv : NonVol) (a n : Nat) : Bool := (List.range n).all fun i => erasedAt nv (a + i)

/-- A group of n bytes is PROGRAMMED. -/
def groupProgrammed (nv : NonVol) (a n : Nat) : Bool := (List.range n).all fun i => programmedAt nv (a + i)

/-- A group of n bytes is PARTIAL. -/
def groupPartial (nv : NonVol) (a n : Nat) : Bool := !groupErased nv a n && !groupProgrammed nv a n

/-- One byte programmed: bits move from 1 to 0 only, and 0xFF leaves it as it is (R373). -/
def programByte (nv : NonVol) (a : Nat) (b : Byte) : NonVol :=
  if b = 0xFF then nv else
  { nv with
    flash := cellsSet nv.flash a (cellsGet nv.flash a &&& b)
    partials := nv.partials.filter fun x => decide (x ≠ a)
    unmoved := nv.unmoved.filter fun x => decide (x ≠ a) }

/-- Bytes programmed from an address on. -/
def programBytes : NonVol → Nat → List Byte → NonVol
  | nv, _, [] => nv
  | nv, a, b :: bs => programBytes (programByte nv a b) (a + 1) bs

/-- A chunk program that has ended (R373). -/
def programChunk (nv : NonVol) (c : ChunkProg) : NonVol := programBytes nv c.addr c.bytes

/-- A byte whose program was interrupted (R374, R375): its bits have not moved, have all moved, or stand between; a byte that is
not fully programmed reads indeterminate values. `k` numbers the interruption. -/
def interruptByte (k : Nat) (nv : NonVol) (a : Nat) (b : Byte) : NonVol :=
  if b = 0xFF then nv
  else if Config.marginLeft k a = 2 ∧ b = 0 then programByte nv a b
  else
    { nv with
      partials := if nv.partials.contains a then nv.partials else nv.partials ++ [a]
      unmoved := if Config.marginLeft k a = 0 ∧ erasedAt nv a then nv.unmoved.filter (fun x => decide (x ≠ a)) ++ [a]
        else nv.unmoved.filter fun x => decide (x ≠ a) }

/-- Bytes whose program was interrupted, from an address on. -/
def interruptBytes (k : Nat) : NonVol → Nat → List Byte → NonVol
  | nv, _, [] => nv
  | nv, a, b :: bs => interruptBytes k (interruptByte k nv a b) (a + 1) bs

/-- A chunk program that was interrupted: the bytes that it changes are open, the others are as they were (R374). -/
def interruptChunk (nv : NonVol) (c : ChunkProg) : NonVol :=
  interruptBytes nv.interrupts { nv with interrupts := nv.interrupts + 1 } c.addr c.bytes

/-- An erase that has ended: every byte of the sector is 0xFF (R372). -/
def eraseSector (nv : NonVol) (p : Fin 128) : NonVol :=
  { nv with
    flash := nv.flash.filter fun c => decide (c.1 / 4096 ≠ p.val)
    partials := nv.partials.filter fun a => decide (a / 4096 ≠ p.val)
    unmoved := nv.unmoved.filter fun a => decide (a / 4096 ≠ p.val)
    cut := nv.cut.filter fun q => decide (q ≠ p) }

/-- An erase that was interrupted: every byte of the sector reads indeterminate values (R374). -/
def interruptErase (nv : NonVol) (p : Fin 128) : NonVol :=
  { nv with cut := if nv.cut.contains p then nv.cut else nv.cut ++ [p] }

/-! ### Records -/

/-- A record read from the store. -/
structure StoredRec where
  kind : Nat
  chunks : Nat
  seq : Nat
  key : Nat
  subkey : Nat
  body : List Byte
  loc : Nat
deriving DecidableEq, Repr

/-- The kinds of Table 15-3. -/
def kindListed (k : Nat) : Bool :=
  [0x01, 0x02, 0x03, 0x04, 0x05, 0x06, 0x10, 0x20, 0x30, 0x31, 0x40, 0x50].contains k

/-- The number of chunks of a record with a body of n bytes (Table 15-2). -/
def chunksFor (n : Nat) : Nat := ceilDiv (n + 28) 64

/-- The bytes of a record with MARK and VOID unwritten (Table 15-2). -/
def encodeRecord (r : RecordReq) (seq : Nat) : List Byte :=
  let n := chunksFor r.body.length
  let head := leBytes 1 r.kind ++ leBytes 1 n ++ leBytes 2 r.body.length ++ leBytes 4 seq
    ++ leBytes 8 r.key.toNat ++ [r.subkey, 0, 0, 0] ++ r.body
  let covered := head.takeD (64 * n - 8) 0
  covered ++ leBytes 4 (crc32c covered) ++ [0xFF, 0xFF, 0xFF, 0xFF]

/-- A byte string cut into chunks. -/
def chunksOf : Nat → List Byte → List (List Byte)
  | 0, _ => []
  | k + 1, bs => bs.take 64 :: chunksOf k (bs.drop 64)

/-- The chunk programs of a byte string at a chunk address, in ascending order. -/
def chunkProgs (addr : Nat) (bs : List Byte) : List ChunkProg :=
  let cs := chunksOf (ceilDiv bs.length 64) bs
  ((List.range cs.length).zip cs).map fun (i, c) => ⟨addr + 64 * i, c⟩

/-- A program of a few bytes inside one chunk, the others supplied as 0xFF. -/
def byteProg (addr off : Nat) (bs : List Byte) : ChunkProg :=
  ⟨addr, List.replicate off 0xFF ++ bs ++ List.replicate (64 - off - bs.length) 0xFF⟩

/-- The program of MARK of a record of n chunks (R379). -/
def markProg (loc n : Nat) : ChunkProg := byteProg (loc + 64 * (n - 1)) 60 [0, 0]

/-- The program of VOID of a record of n chunks (R381). -/
def voidProg (loc n : Nat) : ChunkProg := byteProg (loc + 64 * (n - 1)) 62 [0, 0]

/-- The chunks that a location's header claims, when its kind is listed and it lies within one page. -/
def claimedChunks (k : Nat) (nv : NonVol) (loc : Nat) : Option Nat :=
  let n := (flashByte k nv (loc + 1)).toNat
  if kindListed (flashByte k nv loc).toNat && decide (1 ≤ n ∧ loc / 64 % 4 + n ≤ 4) then some n else none

/-- The record at a location, when it is valid (R380). -/
def validRecord (k : Nat) (nv : NonVol) (doubt : List Nat) (loc : Nat) : Option StoredRec :=
  match claimedChunks k nv loc with
  | none => none
  | some n =>
    let bs := flashRead k nv loc (64 * n)
    let len := leAt bs 2 2
    if decide (leAt bs (64 * n - 4) 2 = 0) && decide (leAt bs (64 * n - 2) 2 = 0xFFFF) && !doubt.contains loc
        && decide (crc32c (bs.take (64 * n - 8)) = leAt bs (64 * n - 8) 4) && decide (len ≤ 64 * n - 28) then
      some ⟨leAt bs 0 1, n, leAt bs 4 4, leAt bs 8 8, leAt bs 16 1, slice bs 20 len, loc⟩
    else none

/-- The record locations of a sector from a chunk on, each with the chunks it claims (1 where the header is not a
record's). -/
def locations (k : Nat) (nv : NonVol) (base : Nat) : Nat → Nat → List (Nat × Nat)
  | 0, _ => []
  | fuel + 1, c =>
    if c ≥ 64 then [] else
    let loc := base + 64 * c
    let n := (claimedChunks k nv loc).getD 1
    (loc, n) :: locations k nv base fuel (c + n)

/-- The valid records of a physical sector in ascending location. -/
def sectorRecords (k : Nat) (nv : NonVol) (doubt : List Nat) (p : Fin 128) : List StoredRec :=
  (locations k nv (4096 * p.val) 64 0).filterMap fun l => validRecord k nv doubt l.1

/-- The newest of some records (R380). -/
def newestOf : List StoredRec → Option StoredRec
  | [] => none
  | r :: rs =>
    match newestOf rs with
    | none => some r
    | some m => if m.seq > r.seq then some m else some r

/-! ### Event records -/

/-- The bytes of an event record with COMMIT and VOID unwritten (Table 16-1). -/
def encodeEvent (seq : Word) (time : BitVec 48) (tgen : BitVec 6) (unset : Bool) (code : Byte) (payload : List Byte) :
    List Byte :=
  let head := leBytes 4 seq.toNat ++ leBytes 6 time.toNat ++ [byte (tgen.toNat + flag unset 6), code]
    ++ payload.takeD 16 0
  head ++ leBytes 2 (crc16 head) ++ [0xFF, 0xFF]

/-- An event record as read, when it is valid (R400). -/
def eventValid (bs : List Byte) : Bool :=
  decide (bs.length = 32) && decide (leAt bs 30 1 = 0) && decide (leAt bs 31 1 = 0xFF)
    && decide (crc16 (bs.take 28) = leAt bs 28 2)

end Sys2Proof.Machine
end

