-- ==== Sys2Proof/Machine/Store.lean ====
section
/-! DEFINITION. The on-chip store at work (spec 15_on_chip_store.md): placing records, the queue of R392, programs and
erases as they end, compaction (R384), the erase journal (R383), wear and spares (R394, R395). A job is a list of steps;
the head step of the current job is the program or erase in progress. -/

namespace Sys2Proof.Machine

/-! ### Places -/

/-- The physical sector of a logical sector. -/
def physOf (st : Store) (l : Fin 128) : Option (Fin 128) := bankGet st.map l

/-- The logical sectors of a region. -/
def regionSectors (st : Store) (r : Fin 11) : List (Fin 128) := bankWhere st.region fun x => decide (x = r)

/-- Physical sectors that a region's records lie in. -/
def regionPhys (st : Store) (r : Fin 11) : List (Fin 128) := (regionSectors st r).filterMap (physOf st)

/-- The raw sectors of an image slot (Table 15-1). -/
def rawLogical (l : Fin 128) : Bool := decide ((1 ≤ l.val ∧ l.val ≤ 15) ∨ (17 ≤ l.val ∧ l.val ≤ 31))

/-- Event sectors hold event records behind their header (R376). -/
def eventRegion (r : Fin 11) : Bool := decide (r = 6 ∨ r = 7 ∨ r = 8)

/-- The worn sectors of a region whose records are not yet all copied (R394). -/
def movingOf (nv : NonVol) (st : Store) (r : Fin 11) : List (Fin 128) :=
  (nv.moving.filter fun x => decide (x.2 = r) && !(regionPhys st r).contains x.1).map (·.1)

/-- All valid records of a region. -/
def regionRecords (k : Nat) (nv : NonVol) (st : Store) (r : Fin 11) : List StoredRec :=
  (regionPhys st r ++ movingOf nv st r).flatMap (sectorRecords k nv st.doubt)

/-- The record that holds a value (R380, the newest-valid rule). -/
def lookupRecord (k : Nat) (nv : NonVol) (st : Store) (r : Fin 11) (kind key subkey : Nat) : Option StoredRec :=
  newestOf ((regionRecords k nv st r).filter fun x =>
    decide (x.kind = kind) && decide (x.key = key) && decide (x.subkey = subkey))

/-- The active sector of a region: the newest in use. -/
def activeOf (st : Store) (r : Fin 11) : Option (Fin 128) := (bankGet st.used r).getLast?

/-- The chunks that a record takes in its region: a CARRY record takes its block of two, aligned (R385). -/
def roomFor (r : RecordReq) : Nat × Bool := if r.kind = 0x30 then (2, true) else (chunksFor r.body.length, false)

/-- The first chunk from c on where n erased chunks lie within one page. -/
def findRoom (nv : NonVol) (base n : Nat) (aligned : Bool) : Nat → Nat → Option Nat
  | 0, _ => none
  | fuel + 1, c =>
    if c + n > 64 then none
    else if (c % 4 + n ≤ 4) ∧ (aligned = false ∨ c % 2 = 0) ∧ groupErased nv (base + 64 * c) (64 * n) then some c
    else findRoom nv base n aligned fuel (c + 1)

/-- Where a record goes: into its named sector's chunk 0, or at the active sector's next free place. -/
def placeFor (nv : NonVol) (st : Store) (r : RecordReq) : Option (Nat × Nat) :=
  match r.sector with
  | some p => if groupErased nv (4096 * p.val) 64 then some (4096 * p.val, 0) else none
  | none =>
    match (activeOf st r.region).bind (physOf st) with
    | none => none
    | some p =>
      let room := roomFor r
      (findRoom nv (4096 * p.val) room.1 room.2 64 (bankGet st.next r.region)).map fun c =>
        (4096 * p.val + 64 * c, c + room.1)

/-! ### Records that the store writes for itself -/

/-- MAP: logical sector l is physical sector p; 0xFF when the region has given it up. -/
def mapRec (l : Fin 128) (p : Option (Fin 128)) : RecordReq :=
  ⟨0x02, BitVec.ofNat 64 l.val, 0, [byte (match p with | some q => q.val | none => 0xFF)], 5, none⟩

/-- ERASE_INTENT with the count before the erase. -/
def intentRec (p : Fin 128) (n : Nat) : RecordReq := ⟨0x03, BitVec.ofNat 64 p.val, 0, leBytes 4 n, 5, none⟩

/-- ERASE_DONE with the count after it. -/
def doneRec (p : Fin 128) (n : Nat) : RecordReq := ⟨0x04, BitVec.ofNat 64 p.val, 0, leBytes 4 n, 5, none⟩

/-- SECTOR_HDR in chunk 0 of page 0. -/
def headerRec (p l : Fin 128) (r : Fin 11) (n : Nat) : RecordReq :=
  ⟨0x01, BitVec.ofNat 64 p.val, 0, [byte r.val, byte l.val] ++ leBytes 4 n, r, some p⟩

/-- SLOT_STATE of an image slot (R75). -/
def slotRec (s : Fin 2) (state gen len : Nat) : RecordReq :=
  ⟨0x10, 0, 0, leBytes 1 state ++ leBytes 4 gen ++ leBytes 4 len, if s = 0 then 0 else 1, none⟩

/-- CARRY of a counter. -/
def carryRec (k : Fin 16) (base : Nat) : RecordReq := ⟨0x30, BitVec.ofNat 64 k.val, 0, leBytes 6 base, 3, none⟩

/-- LIFECYCLE with its PENDING mask. -/
def lifecycleRec (state pending : Nat) : RecordReq := ⟨0x05, 0, 0, leBytes 1 state ++ leBytes 2 pending, 5, none⟩

/-- The erase of a physical sector under the journal (R383). -/
def eraseSteps (st : Store) (p l : Fin 128) : List JobStep :=
  let n := (bankGet st.eraseCount p).toNat
  let hdr := if rawLogical l then [] else [JobStep.record (headerRec p l (bankGet st.region l) (n + 1))]
  [.record (intentRec p n), .erase p 2 false] ++ hdr ++ [.record (doneRec p (n + 1))]

/-! ### The queue -/

/-- Is the job's next program the MARK of a record whose body is written, or the COMMIT of an event record (R379, R400)? -/
def markNext (j : Job) : Bool :=
  match j.tag, j.steps with
  | _, .mark _ _ :: _ => true
  | .event _, [.bytes _] | .permanent, [.bytes _] | .cleared _, [.bytes _] | .shutdown, [.bytes _] | .copied, [.bytes _, .bytes _] => true
  | _, _ => false

/-- The rank of a job in R392; a mark whose body is written ranks third, an erase sixth. A body program whose first chunks are
written goes on before all else: only an erase is interrupted. -/
def jobRank (j : Job) : Nat :=
  let own := match j.prio with
    | .recovery => 1 | .shutdown => 2 | .marks => 3 | .counter | .counterKept => 4 | .record => 5 | .upkeep => 6
  match j.steps with
  | .body _ _ _ :: _ => 0
  | .erase _ _ _ :: _ => max own 6
  | _ => if markNext j then min own 3 else own

/-- May the job's next program start? Outside the store window, and in thermal shutdown, only the shutdown record (R305, R391); while PFAIL_N is low
only marks, counter programs already queued, and the event records of R412 (R389); nothing while recovery runs. -/
def jobAllowed (window pfail recovering : Bool) (j : Job) : Bool :=
  if recovering then false
  else if decide (j.prio = .shutdown) then !pfail
  else if !window then false
  else if pfail then
    markNext j || decide (j.prio = .counterKept) || (match j.tag with | .event _ => true | _ => false)
  else true

/-- The best allowed job and the others, in their order. -/
def pickJob (ok : Job → Bool) (js : List Job) : Option (Job × List Job) :=
  match (js.filter ok).foldl (fun best j =>
      match best with
      | none => some j
      | some b => if jobRank j < jobRank b then some j else some b) (none : Option Job) with
  | none => none
  | some j => some (j, js.erase j)

/-- A region goes read-only (R395). -/
def setReadonly (tm : TimeBase) (r : Fin 11) (d : Device) : Device :=
  if d.ocs.readonly.getLsbD r.val then d else
  let er := if r = 7 then { d.er with permRo := true }
    else if r = 8 then { d.er with bogOnly := true, intStatus := setBit d.er.intStatus 1 } else d.er
  raise tm 0xB0 (leBytes 1 6 ++ leBytes 1 r.val)
    { d with er := er, ocs := { d.ocs with
      readonly := setBit d.ocs.readonly r.val
      intStatus := setBit d.ocs.intStatus 2 } }

/-- The spares that are free: logical sectors of region 10, in physical order, not worn. -/
def freeSpares (nv : NonVol) (st : Store) : List (Fin 128 × Fin 128) :=
  let pairs := (regionSectors st 10).filterMap fun l => (physOf st l).map fun p => (l, p)
  (List.finRange 128).filterMap fun p =>
    (pairs.find? fun x => decide (x.2 = p) && !nv.worn.contains p)

/-- Another erased sector for a region, taken from the circulating area when no spare remains and the region is
control, keys or counters (R395). -/
def takeCirculating (st : Store) : Option (Fin 128) :=
  let ls := regionSectors st 8
  if ls.length ≤ 8 then none else ls.getLast?

/-- Do a sector's records count as long as they are not copied: is it a record sector without event records? -/
def holdsRecords (st : Store) (l : Fin 128) : Bool := !rawLogical l && !eventRegion (bankGet st.region l)

/-- Logical sector l, whose physical sector p is worn, takes physical sector q from logical sector o, by one MAP record; what p
still holds is copied then (R394). A sector that is not erased is erased first. -/
def takeSector (p l q o : Fin 128) (blank : Bool) (st : Store) : Store :=
  let r := bankGet st.region l
  let st := { st with
    map := bankSet (bankSet st.map l (some q)) o none
    next := if activeOf st r = some l then bankSet st.next r 4 else st.next
    used := if blank then st.used else bankUpd st.used r fun u => u.filter fun x => decide (x ≠ l)
    intStatus := setBit st.intStatus 1 }
  let copy : List Job := if holdsRecords st l then [⟨[.compact p], .upkeep, .moved p, false⟩] else []
  let first := if blank then [] else [(⟨eraseSteps st q l, .upkeep, .erased q, false⟩ : Job)]
  { st with jobs := st.jobs ++ [⟨[.record (mapRec l (some q))], .upkeep, .none, false⟩] ++ first ++ copy }

/-- A worn sector is replaced (R394, R395). -/
def wearOut (tm : TimeBase) (nv : NonVol) (p : Fin 128) (d : Device) : NonVol × Device :=
  if nv.worn.contains p then (nv, d) else
  let nv := { nv with worn := nv.worn ++ [p] }
  match (List.finRange 128).find? fun l => decide (physOf d.ocs l = some p) with
  | none => (nv, raise tm 0xB0 (leBytes 1 3 ++ leBytes 1 10 ++ leBytes 1 p.val) d)
  | some l =>
    let r := bankGet d.ocs.region l
    let d := raise tm 0xB0 (leBytes 1 3 ++ leBytes 1 r.val ++ leBytes 1 p.val) d
    let moving := if holdsRecords d.ocs l then { nv with moving := nv.moving ++ [(p, r)] } else nv
    let event (n : Nat) (q : Fin 128) (d : Device) : Device := raise tm 0xB0 (leBytes 1 n ++ leBytes 1 r.val ++ leBytes 1 q.val) d
    match freeSpares nv d.ocs with
    | (sl, sp) :: _ => (moving, event 4 sp { d with ocs := takeSector p l sp sl true d.ocs })
    | [] =>
      if r = 3 ∨ r = 4 ∨ r = 5 then
        match takeCirculating d.ocs with
        | some cl =>
          match physOf d.ocs cl with
          | some q =>
            let blank := (bankGet d.ocs.erased 8).contains cl
            let ocs := { d.ocs with
              region := bankSet d.ocs.region cl 10
              used := bankUpd d.ocs.used 8 fun u => u.filter fun x => decide (x ≠ cl)
              erased := bankUpd d.ocs.erased 8 fun u => u.filter fun x => decide (x ≠ cl) }
            (moving, event 5 q { d with
              ocs := takeSector p l q cl blank ocs
              er := raiseIn tm 0xC5 ([0, 0] ++ leBytes 2 (d.er.sectors.toNat - 1)
                  ++ leBytes 4 ((d.er.sectors.toNat - 3) * 120 + 24))
                { d.er with sectors := d.er.sectors - 1, intStatus := setBit d.er.intStatus 1 } })
          | none => (nv, setReadonly tm r d)
        | none => (nv, setReadonly tm r d)
      else (moving, setReadonly tm r { d with ocs := { d.ocs with
        map := bankSet d.ocs.map l none
        jobs := d.ocs.jobs ++ [⟨[.record (mapRec l none)], .upkeep, .none, false⟩] } })

/-- The active sector of a region is full: the ready sector becomes active, and when no other erased sector is left the
oldest one is to be compacted and erased (R384). None when no erased sector can be had. -/
def rollRegion (r : Fin 11) (st : Store) : Option Store :=
  match bankGet st.erased r with
  | [] => none
  | e :: es =>
    let u := bankGet st.used r
    let st := { st with
      used := bankSet st.used r (u ++ [e])
      erased := bankSet st.erased r es
      next := bankSet st.next r 4 }
    match es, u with
    | [], o :: _ =>
      match physOf st o with
      | some p => some { st with jobs := st.jobs ++ [⟨.compact p :: eraseSteps st p o, .upkeep, .erased p, false⟩] }
      | none => some st
    | _, _ => some st

/-- Is an ERASE_INTENT still open: no later ERASE_DONE for its sector? -/
def intentOpen (all : List StoredRec) (x : StoredRec) : Bool :=
  !(all.any fun y => decide (y.kind = 0x04) && decide (y.key = x.key) && decide (y.seq > x.seq))

/-- The record of a sector that still holds a value, first in location order (R384). Of the erase journal, the open
intents do. -/
def liveRecord (nv : NonVol) (st : Store) (p : Fin 128) : Option StoredRec :=
  let all := (List.finRange 11).flatMap fun r => if decide (r.val ≥ 6 ∧ r.val ≤ 8) then [] else regionRecords 0 nv st r
  (sectorRecords 0 nv st.doubt p).find? fun x =>
    decide (x.kind ≠ 0x01) && decide (x.kind ≠ 0x04) && (decide (x.kind ≠ 0x03) || intentOpen all x) &&
      (match newestOf (all.filter fun y =>
        decide (y.kind = x.kind) && decide (y.key = x.key) && decide (y.subkey = x.subkey)) with
       | some m => decide (m.loc = x.loc)
       | none => false)

/-- The block in force of a counter (R385): its CARRY location and BASE. -/
def counterBlock (k : Nat) (nv : NonVol) (st : Store) (c : Fin 16) : Option (Nat × Nat) :=
  let carries := (regionRecords k nv st 3).filter fun x => decide (x.kind = 0x30) && decide (x.key = c.val)
  (carries.foldl (fun best x =>
    let b := leAt x.body 0 6
    match best with
    | none => some (x.loc, b, x.seq)
    | some (_, b', s') => if b > b' ∨ (b = b' ∧ x.seq > s') then some (x.loc, b, x.seq) else best)
    (none : Option (Nat × Nat × Nat))).map fun x => (x.1, x.2.1)

/-- The number of programmed cells of a block, in order. -/
def cellsProgrammed (nv : NonVol) (loc : Nat) : Nat :=
  ((List.range 64).takeWhile fun i => !erasedAt nv (loc + 64 + i)).length

/-- What a counter change is to program: a cell, or a CARRY record (R386). -/
def counterStep (nv : NonVol) (st : Store) (c : Fin 16) (base : Option Nat) : JobStep :=
  match base with
  | some v => .record (carryRec c v)
  | none =>
    match counterBlock 0 nv st c with
    | none => .record (carryRec c 1)
    | some (loc, b) =>
      let n := cellsProgrammed nv loc
      if n < 64 then .bytes [byteProg (loc + 64) n [0]] else .record (carryRec c (b + 65))

/-- A job ready to run: its head step is a placed program or an erase. None when it must wait for a sector. The device
answered has the job's places taken. `fuel` bounds the steps that need no program. -/
def readyJob (nv : NonVol) : Nat → Store → Job → Option (Store × Job)
  | 0, _, _ => none
  | fuel + 1, st, j =>
    match j.steps with
    | [] => some (st, j)
    | .record r :: rest =>
      -- the reserved SEQ numbers are used up: SEQRES advances first (R382); its own CARRY takes the first of the next ones
      if st.nextSeq = st.seqEnd ∧ !(r.kind = 0x30 ∧ r.key = 1) then
        readyJob nv fuel st { j with steps := .counter 1 none :: .record r :: rest } else
      match placeFor nv st r with
      | some (loc, next) =>
        let seq := st.nextSeq.toNat
        let bs := encodeRecord r seq
        let n := chunksFor r.body.length
        let st := { st with
          nextSeq := st.nextSeq + 1
          next := if r.sector.isSome then st.next else bankSet st.next r.region next }
        some (st, { j with steps := .body (chunkProgs loc bs) (markProg loc n) r :: rest })
      | none =>
        if r.sector.isSome then readyJob nv fuel st { j with steps := rest } else
        match rollRegion r.region st with
        | some st => readyJob nv fuel st j
        | none => none
    | .counter c base :: rest =>
      readyJob nv fuel st { j with steps := counterStep nv st c base :: rest }
    | .compact p :: rest =>
      match liveRecord nv st p with
      | none => readyJob nv fuel st { j with steps := rest }
      | some x =>
        let l := (List.finRange 128).find? fun l => decide (physOf st l = some p)
        let region := if x.kind ≥ 0x02 ∧ x.kind ≤ 0x06 then 5
          else if x.kind = 0x20 then 2 else if x.kind = 0x30 ∨ x.kind = 0x31 then 3
          else if x.kind = 0x40 then 4 else if x.kind = 0x50 then 9
          else match l with | some q => bankGet st.region q | none => 5
        let step := if x.kind = 0x30 then
            JobStep.counter (Fin.ofNat 16 x.key) (some (leAt x.body 0 6 + cellsProgrammed nv x.loc))
          else .record ⟨x.kind, BitVec.ofNat 64 x.key, byte x.subkey, x.body, region, none⟩
        readyJob nv fuel st { j with steps := step :: .compact p :: rest }
    | _ => some (st, j)

/-- Start the best job that can start. Jobs whose record finds no sector wait; their region is looked at again when an
erase ends. A job that finds nothing to copy is over. -/
def startBest (nv : NonVol) (ok : Job → Bool) : Nat → List Job → Store → Store
  | 0, _, st => st
  | fuel + 1, cands, st =>
    match pickJob ok cands with
    | none => st
    | some (j, others) =>
      match readyJob nv 8 st j with
      | some (st', j') =>
        let st' := { st' with jobs := st'.jobs.erase j }
        if j'.steps.isEmpty then startBest nv ok fuel others st' else { st' with current := some j' }
      | none => startBest nv ok fuel others st

/-- Whether the current work is an erase, which a higher operation interrupts (R392). -/
def erasing (st : Store) : Bool :=
  match st.current with
  | some j => (match j.steps with | .erase _ _ _ :: _ => true | _ => false)
  | none => false

/-- An erase that is stopped has begun. -/
def markBegun (j : Job) : Job :=
  match j.steps with
  | .erase p t _ :: rest => { j with steps := .erase p t true :: rest }
  | _ => j

/-- The store goes on, while its clock runs: with nothing in progress it starts the best job; an erase gives way to a higher one and resumes
later (R392). -/
def storePump (nv : NonVol) (d : Device) : Device :=
  if !d.clk.sclkOn then d else
  let ok := jobAllowed (d.hkt.storeWin && !d.hkt.tsd) d.ocs.pfail d.ocs.recovering
  match d.ocs.current with
  | none => { d with ocs := startBest nv ok (d.ocs.jobs.length + 1) d.ocs.jobs d.ocs }
  | some j =>
    if !erasing d.ocs then d else
    let higher := d.ocs.jobs.filter fun x => decide (jobRank x < jobRank j)
    let st := startBest nv ok (higher.length + 1) higher { d.ocs with current := none }
    if st.current.isSome then { d with ocs := { st with jobs := markBegun j :: st.jobs } } else d

/-- Is an erase in progress or suspended (R392, Table 11-5)? -/
def eraseOpen (st : Store) : Bool :=
  erasing st || st.jobs.any fun j => match j.steps with | .erase _ _ b :: _ => b | _ => false

/-- Sectors whose erase is in progress or suspended. -/
def openErases (st : Store) : List (Fin 128) :=
  (st.current.toList ++ st.jobs).filterMap fun j => match j.steps with
    | .erase p _ b :: _ => if b || st.current = some j then some p else none
    | _ => none

/-- An erase in progress or suspended is stopped, by PFAIL_N, the store window or thermal shutdown (R389, R305, R307): the sector
stays as an interrupted erase leaves it, and the erase waits to be made again. -/
def stopErase (nv : NonVol) (d : Device) : NonVol × Device :=
  let jobs := d.ocs.jobs.map markStopped
  let ocs := if erasing d.ocs then { d.ocs with current := none, jobs := d.ocs.current.toList ++ jobs }
    else { d.ocs with jobs := jobs }
  ((openErases d.ocs).foldl interruptErase nv, { d with ocs := ocs })
where
  /-- A suspended erase that is stopped begins anew. -/
  markStopped (j : Job) : Job :=
    match j.steps with
    | .erase p t true :: rest => { j with steps := .erase p t false :: rest }
    | _ => j

/-- A job joins the queue. -/
def addJob (j : Job) (d : Device) : Device := { d with ocs := { d.ocs with jobs := d.ocs.jobs ++ [j] } }

/-- Is a program or erase in progress (OCS.STATUS.BUSY)? -/
def storeBusy (st : Store) : Bool := st.current.isSome

/-- Can a record of this region be had? -/
def regionWritable (st : Store) (r : Fin 11) : Bool := !st.readonly.getLsbD r.val

/-- The head program of a job. -/
def headProg (j : Job) : Option ChunkProg :=
  match j.steps with
  | .body (c :: _) _ _ :: _ => some c
  | .mark m _ :: _ => some m
  | .bytes (c :: _) :: _ => some c
  | _ => none

/-- A job whose head program has ended well: the next program, or the next step. -/
def advanceJob (j : Job) : Job :=
  match j.steps with
  | .body (_ :: []) m r :: rest => { j with steps := .mark m r :: rest }
  | .body (_ :: cs) m r :: rest => { j with steps := .body cs m r :: rest }
  | .bytes (_ :: []) :: rest => { j with steps := rest }
  | .bytes (_ :: cs) :: rest => { j with steps := .bytes cs :: rest }
  | _ :: rest => { j with steps := rest }
  | [] => j

/-- The counter whose value a program of this address changes. -/
def counterOfProg (nv : NonVol) (st : Store) (a : Nat) : Option (Fin 16) :=
  (List.finRange 16).find? fun c =>
    match counterBlock 0 nv st c with
    | some (loc, _) => decide (a / 128 = loc / 128)
    | none => false

/-- The value of a counter (R385), saturating at 2^48 - 1. -/
def counterValue (nv : NonVol) (st : Store) (c : Fin 16) : Nat :=
  match counterBlock 0 nv st c with
  | none => 0
  | some (loc, b) => min (b + cellsProgrammed nv loc) (2 ^ 48 - 1)

/-- The counters as the flash holds them, and the end of the reserved store SEQ numbers (R382). -/
def refreshStore (nv : NonVol) (st : Store) : Store :=
  let st := { st with counters := bankOf fun c => BitVec.ofNat 48 (counterValue nv st c) }
  { st with seqEnd := BitVec.ofNat 32 (1024 * ((bankGet st.counters 1).toNat + 1)) }

/-- The device's counters as the flash holds them. -/
def refreshCounters (nv : NonVol) (d : Device) : Device := { d with ocs := refreshStore nv d.ocs }

/-- A program that failed verification (R394): the record goes to the next location, the failed one is voided, and a
second failure at another location of a sector wears it out; a worn sector is programmed no more. -/
def programFailed (tm : TimeBase) (nv : NonVol) (j : Job) (c : ChunkProg) (d : Device) : NonVol × Device × Job :=
  let p := sectorOf c.addr
  let st := { d.ocs with intStatus := setBit d.ocs.intStatus 3 }
  let mine := d.ocs.failed.filter fun a => decide (sectorOf a = p)
  let again := mine.any fun a => decide (a ≠ c.addr)
  let st := { st with failed :=
    if again then st.failed.filter (fun a => decide (sectorOf a ≠ p)) else if mine.isEmpty then st.failed ++ [c.addr] else st.failed }
  let retry (m : ChunkProg) (r : RecordReq) (rest : List JobStep) : Job :=
    let last := if again then [] else [JobStep.bytes [byteProg m.addr 62 [0, 0]]]
    { j with steps := last ++ .record r :: rest }
  let j' := match j.steps with
    | .body _ m r :: rest => retry m r rest
    | .mark m r :: rest => retry m r rest
    | _ => j
  if again then
    let w := wearOut tm nv p { d with ocs := st }
    (w.1, w.2, j')
  else (nv, { d with ocs := st }, j')

/-- A chunk program ends (R379, R392). Answers the tag of the job that it completes, if it does. -/
def chunkEnd (tm : TimeBase) (verified : Bool) (nv : NonVol) (d : Device) : NonVol × Device × StoreTag :=
  match d.ocs.current with
  | none => (nv, d, .none)
  | some j =>
    match headProg j with
    | none => (nv, d, .none)
    | some c =>
      if verified then
        let nv := programChunk nv c
        let j := advanceJob j
        let d := refreshCounters nv { d with ocs := { d.ocs with current := none } }
        match j.steps with
        | [] => (nv, d, j.tag)
        | _ => (nv, { d with ocs := { d.ocs with jobs := j :: d.ocs.jobs } }, .none)
      else
        let (nv, d, j) := programFailed tm (interruptChunk nv c) j c { d with ocs := { d.ocs with current := none } }
        -- image data are no records: they have no next location, and their SEAL ends with STORE (R77)
        if j.tag = .imageData then (nv, { d with img := { d.img with dataFailed := true } }, .none) else
        (nv, { d with ocs := { d.ocs with jobs := j :: d.ocs.jobs } }, .none)

/-- An erased sector joins its region again as the newest erased one, and leaves the sectors in use (R384). -/
def sectorReady (p : Fin 128) (d : Device) : Device :=
  match (List.finRange 128).find? fun l => decide (physOf d.ocs l = some p) with
  | none => d
  | some l =>
    let r := bankGet d.ocs.region l
    if rawLogical l then d else
    { d with ocs := { d.ocs with
      used := bankUpd d.ocs.used r fun u => u.filter fun x => decide (x ≠ l)
      erased := bankUpd d.ocs.erased r fun u => u.filter (fun x => decide (x ≠ l)) ++ [l] } }

/-- A sector is worn as its erase ends (R394): it held nothing any more, and a spare that has replaced it is the erased sector. -/
def wornErase (tm : TimeBase) (nv : NonVol) (p : Fin 128) (d : Device) : NonVol × Device :=
  let l := (List.finRange 128).find? fun l => decide (physOf d.ocs l = some p)
  let x := wearOut tm nv p d
  let d := match l.bind (physOf x.2.ocs) with
    | some q => if (bankGet x.2.ocs.erased 8).contains q ∨ x.2.ocs.jobs.any (fun j => decide (j.tag = .erased q)) then x.2 else sectorReady q x.2
    | none => x.2
  ({ x.1 with moving := x.1.moving.filter fun y => decide (y.1 ≠ p) }, d)

/-- What is left of the journal of a sector that is worn: no header is programmed into it. -/
def wornRest (p : Fin 128) (rest : List JobStep) : List JobStep :=
  rest.filter fun s => match s with | .record r => decide (r.sector ≠ some p) | _ => true

/-- A sector erase ends (R383). -/
def eraseEnd (tm : TimeBase) (verified : Bool) (nv : NonVol) (d : Device) : NonVol × Device × StoreTag :=
  match d.ocs.current with
  | none => (nv, d, .none)
  | some j =>
    match j.steps with
    | .erase p tries _ :: rest =>
      let idle := { d with ocs := { d.ocs with current := none } }
      if verified then
        let nv := eraseSector nv p
        let n : BitVec 17 := bankGet idle.ocs.eraseCount p + 1
        let d := { idle with ocs := { idle.ocs with eraseCount := bankSet idle.ocs.eraseCount p n } }
        let out := decide (n.toNat ≥ 100000)
        let (nv, d) := if out then wornErase tm nv p d else (nv, d)
        let rest := if out then wornRest p rest else rest
        match rest with
        | [] => (nv, d, j.tag)
        | _ => (nv, { d with ocs := { d.ocs with jobs := { j with steps := rest } :: d.ocs.jobs } }, .none)
      else
      let idle := { idle with ocs := { idle.ocs with intStatus := setBit idle.ocs.intStatus 3 } }
      if tries = 0 then
        let (nv, d) := wornErase tm nv p idle
        -- a wipe goes on with its other sectors
        let more := rest.dropWhile fun s => match s with | .record r => decide (r.kind ≠ 0x03) | _ => true
        match j.tag with
        | .wiped _ _ => if more.isEmpty then (nv, d, j.tag)
          else (nv, { d with ocs := { d.ocs with jobs := { j with steps := more } :: d.ocs.jobs } }, .none)
        | _ => (nv, d, .none)
      else (nv, { idle with ocs := { idle.ocs with jobs := { j with steps := .erase p (tries - 1) false :: rest } :: idle.ocs.jobs } },
        .none)
    | _ => (nv, d, .none)

/-! ### Programs and erases that recovery makes at once (R388) -/

/-- Records and counter changes of recovery: each step is programmed at once. -/
def runNow (nv : NonVol) : Nat → Store → List JobStep → NonVol × Store
  | 0, st, _ => (nv, st)
  | fuel + 1, st, steps =>
    match readyJob nv 8 st ⟨steps, .recovery, .none, false⟩ with
    | none => (nv, st)
    | some (st, j) =>
      match j.steps with
      | [] => (nv, st)
      | .body cs m _ :: rest =>
        let nv := programChunk (cs.foldl programChunk nv) m
        runNow nv fuel (refreshStore nv st) rest
      | .mark m _ :: rest => runNow (programChunk nv m) fuel st rest
      | .bytes cs :: rest =>
        let nv := cs.foldl programChunk nv
        runNow nv fuel (refreshStore nv st) rest
      | .erase p _ _ :: rest =>
        runNow (eraseSector nv p) fuel { st with eraseCount := bankUpd st.eraseCount p (· + 1) } rest
      | .record _ :: rest | .counter _ _ :: rest | .compact _ :: rest => runNow nv fuel st rest

end Sys2Proof.Machine
end

