-- ==== Sys2Proof/Machine/Housekeep.lean ====
section
/-! DEFINITION. Housekeeping and thermal management (R292 to R308): the value of a channel, its level and flags, the
throttle of a rail, thermal shutdown and the temperature window of the store. -/

namespace Sys2Proof.Machine

/-! ### Thermistors (R294) -/

/-- Fixed point of the logarithm: 128 fraction bits. -/
def lnOne : Nat := 2 ^ 128

/-- The series of atanh y: the sum of y^(2i+1) / (2i+1), `p` being the present power. -/
def atanhSum : Nat → Nat → Nat → Nat → Nat
  | 0, _, _, _ => 0
  | k + 1, i, p, y2 => p / (2 * i + 1) + atanhSum k (i + 1) (p * y2 / lnOne) y2

/-- ln (a / b) for a / b from 1 to 2. -/
def lnNear (a b : Nat) : Nat :=
  let y := (a - b) * lnOne / (a + b)
  2 * atanhSum 48 0 y (y * y / lnOne)

/-- ln (a / b) for natural numbers above 0. -/
def lnRatio (a b : Nat) : Int :=
  let k : Int := (Nat.log2 a : Int) - Nat.log2 b
  let a' := if k < 0 then a * 2 ^ k.natAbs else a
  let b' := if k < 0 then b else b * 2 ^ k.natAbs
  let (a', b', k) := if a' < b' then (2 * a', b', k - 1) else (a', b', k)
  k * lnNear 2 1 + lnNear a' b'

/-- A thermistor's value in 1/16 °C (R294): of the two codes within 1/16 °C of the formula, the one that the conversion
gives is open. -/
def thermistorValue (t : Thermistor) (c : Nat) : Option Int :=
  let rb := max 1 t.rb.toNat
  let beta := max 1 t.beta.toNat
  let r25 := t.r25.toNat
  if c < 16 ∨ c > 4079 ∨ r25 = 0 then none else
  let l := lnRatio (rb * c) ((4096 - c) * r25)
  let den : Int := 100 * (beta * lnOne : Nat) + 29815 * l
  if den ≤ 0 then none else
  let num : Int := 160 * 29815 * (beta * lnOne : Nat) - 43704 * den
  let low := num / (10 * den)
  let v := if Config.thermistorUpper c r25 rb beta then low + 1 else low
  if v < -32768 ∨ v > 32767 then none else some v

/-! ### Channels -/

/-- The entries in force: HKEEP, or the defaults of R62 and R300. -/
def hkEntries (d : Device) : List HkEntry :=
  match d.str.hkeep with
  | some h => h.body
  | none => (List.range 8).map fun k => ⟨2, false, k, 1680, 1840, 2000, 80, 0, 3, none⟩

/-- The entry of a channel; SOURCE 0 is unused. -/
def channelEntry (d : Device) (c : Fin 96) : Option HkEntry :=
  (hkEntries d)[c.val]?.bind fun e => if e.source = 0 then none else some e

/-- The device acts as two-wire controller (R339). -/
def controllerRole (d : Device) : Bool :=
  d.twp.pollEn && (match d.str.periph with | some p => !p.body.entries.isEmpty | none => false)

/-- Is SRC_INDEX beyond the range of its SOURCE (R293)? -/
def indexBeyond (e : HkEntry) : Bool :=
  match e.source.val with
  | 1 => decide (e.srcIndex ≥ 512)
  | 2 => decide (e.srcIndex ≥ 8)
  | 3 | 4 => decide (e.srcIndex ≥ 4)
  | _ => false

/-- Idle (Table 11-4). -/
def channelIdle (d : Device) (e : HkEntry) : Bool :=
  if indexBeyond e then false else
  match e.source.val with
  | 1 =>
    match fin? 512 e.srcIndex with
    | some g => (match (d.slot g).state with | .calibrating | .admitted | .serving => false | _ => true)
    | none => false
  | 3 =>
    match fin? 4 e.srcIndex with
    | some i => decide ((bankGet d.hkt.thms i).r25 = 0)
    | none => false
  | 5 =>
    match d.str.periph with
    | some p => !controllerRole d || decide (e.srcIndex ≥ p.body.entries.length)
    | none => true
  | _ => false

/-- The value of a peripheral by its FORMAT (Table 11-4). -/
def peripheralValue (p : PeriphEntry) (bytes : List Byte) : Int :=
  let raw : BitVec 16 := match bytes with
    | [b] => Config.oneByteValue b
    | _ => BitVec.ofNat 16 (beAt bytes 0 2)
  if p.format = 2 then min 32767 (raw.toNat / 2 : Nat) else raw.toInt

/-- Vnom of a supply monitor in µV (Table 11-4). -/
def supplyNominal (m : Fin 4) : Nat :=
  match m.val with
  | 0 => 850000
  | 1 => 1800000
  | 2 => 1800000
  | _ => 3300000

/-- T-ticks by the device microsecond, which runs on in STANDBY (R138, R139). -/
def ticksNow (tm : TimeBase) : Nat := 800 * tm.us.toNat + tm.phase.val

/-- The value of a channel at a round start; none when invalid (Table 11-4). -/
def channelValue (tm : TimeBase) (d : Device) (e : HkEntry) : Option Int :=
  if indexBeyond e then none else
  match e.source.val with
  | 1 =>
    (fin? 512 e.srcIndex).bind fun g =>
      match (d.slot g).meas with
      | some m => if ticksNow tm - m.when ≤ 8000000 ∧ m.temp ≠ 0x8000 then some m.temp.toInt else none
      | none => none
  | 2 =>
    (fin? 8 e.srcIndex).bind fun k =>
      let x := bankGet d.hkt.dies k
      if x.valid then some x.temp.toInt else none
  | 3 => (fin? 4 e.srcIndex).bind fun i => thermistorValue (bankGet d.hkt.thms i) (bankGet d.hkt.thms i).code.toNat
  | 4 =>
    (fin? 4 e.srcIndex).map fun m =>
      roundUp ((((bankGet d.hkt.supUv m).toNat : Int) - supplyNominal m).natAbs) 500
  | 5 =>
    match d.str.periph with
    | some p =>
      match p.body.entries[e.srcIndex]?, fin? 32 e.srcIndex with
      | some x, some k =>
        let s := bankGet d.twp.per k
        match s.okAt with
        | some t => if ticksNow tm - t ≤ (2 * x.period + 1) * 8000000 then some (peripheralValue x s.value) else none
        | none => none
      | _, _ => none
    | none => none
  | _ => none

/-- A round starts (R292): the supplies and thermistors are read and one value a channel is captured. -/
def roundStart (tm : TimeBase) (thm : Vector (BitVec 12) 4) (uv : Vector (BitVec 24) 4) (d : Device) : Device :=
  let d := { d with hkt := { d.hkt with
    inRound := true
    thms := bankMap d.hkt.thms fun i t => { t with code := thm[i.val] }
    supUv := uv
    supMv := bankMap uv fun _ v => BitVec.ofInt 16 (roundUp v.toNat 1000) } }
  let capture (c : Fin 96) (x : Channel) : Channel :=
    match channelEntry d c with
    | some e => { x with captured := channelValue tm d e, capIdle := channelIdle d e }
    | none => { x with captured := none, capIdle := true }
  { d with hkt := { d.hkt with chans := bankMap d.hkt.chans capture } }

/-- A list of integers in rising order. -/
def sortInts : List Int → List Int
  | [] => []
  | x :: xs => put x (sortInts xs)
where
  /-- One value at its place. -/
  put (x : Int) : List Int → List Int
    | [] => [x]
    | y :: ys => if x ≤ y then x :: y :: ys else y :: put x ys

/-- The median of the neighbours of a cross-checked channel, when there are two or more (R297). -/
def neighbourMedian (d : Device) (c : Fin 96) (e : HkEntry) : Option Int :=
  if !e.xcheck || decide (e.source ≠ 1) then none else
  let vs := (List.finRange 96).filterMap fun j =>
    if j = c then none else
    match channelEntry d j with
    | some x =>
      let ch := bankGet d.hkt.chans j
      if x.source = 1 ∧ x.srcIndex / 8 = e.srcIndex / 8 ∧ ch.capIdle = false then ch.captured else none
    | none => none
  if vs.length < 2 then none else (sortInts vs)[(vs.length - 1) / 2]?

/-- A counter that saturates at 15 (R295). -/
def up15 (n : Nat) : Nat := min 15 (n + 1)

/-- One threshold in one round (R295). -/
def stepThreshold (v thr hyst : Int) (persist : Nat) (t : Threshold) : Threshold :=
  let t := if v ≥ thr then { t with up := up15 t.up, dn := 0 }
    else if v < thr - hyst then { t with dn := up15 t.dn, up := 0 }
    else { t with up := 0, dn := 0 }
  let t := if t.up ≥ persist then { t with set := true } else t
  if t.dn ≥ persist then { t with set := false } else t

/-- A flag that needs a run of rounds to set and another to clear. -/
def runFlag (flag hit miss : Bool) (persist : Nat) (runs : Nat × Nat) : Bool × Nat × Nat :=
  let up := if hit then up15 runs.1 else 0
  let dn := if miss then up15 runs.2 else 0
  ((flag || decide (up ≥ persist)) && !decide (dn ≥ persist), up, dn)

/-- SUSPECT with its counts, in a round whose own reading is valid and whose check is ready (R297). -/
def stepSuspect (d : Device) (e : HkEntry) (v m : Int) (ch : Channel) : Channel :=
  let far := decide ((v - m).natAbs > max 16 d.hkt.xdev.toNat)
  let r := runFlag ch.suspect far (!far) e.persist (ch.susUp, ch.susDn)
  { ch with suspect := r.1, susUp := r.2.1, susDn := r.2.2 }

/-- The rate of rise (R296). -/
def stepRate (e : HkEntry) (v : Int) (ch : Channel) : Channel :=
  let ch := if e.riseMax = 0 then { ch with rate := false, rateUp := 0, rateDn := 0 } else
    match ch.hist[9]? with
    | some old =>
      let rise := (v - old) * 10
      let r := runFlag ch.rate (decide (rise > e.riseMax)) (decide (rise ≤ e.riseMax / 2)) e.persist (ch.rateUp, ch.rateDn)
      { ch with rate := r.1, rateUp := r.2.1, rateDn := r.2.2 }
    | none => ch
  { ch with hist := (v :: ch.hist).take 10 }

/-- A channel's thresholds and level in a round with a value (R295). -/
def stepLevel (e : HkEntry) (v : Int) (ch : Channel) : Channel :=
  let t1 := stepThreshold v e.warn e.hyst e.persist ch.t1
  let t2 := stepThreshold v e.throttle e.hyst e.persist ch.t2
  let t3 := stepThreshold v e.shutdown e.hyst e.persist ch.t3
  let level : Fin 4 := if t3.set then 3 else if t2.set then 2 else if t1.set then 1 else 0
  { ch with t1 := t1, t2 := t2, t3 := t3, level := level, value := v, bad := 0, failed := false }

/-- A valid channel in a round: its level, and the rate of rise (R295, R296). -/
def stepLevels (e : HkEntry) (v : Int) (ch : Channel) : Channel := stepRate e v (stepLevel e v ch)

/-- A channel that has been idle starts anew (R295, R297). -/
def idleChannel (ch : Channel) : Channel :=
  { ch with
    idle := true, level := 0, t1 := ⟨false, 0, 0⟩, t2 := ⟨false, 0, 0⟩, t3 := ⟨false, 0, 0⟩
    bad := 0, failed := false, rate := false, suspect := false, hist := []
    rateUp := 0, rateDn := 0, susUp := 0, susDn := 0, subst := false }

/-- round(ch) of R295. -/
def stepChannel (d : Device) (c : Fin 96) (ch : Channel) : Channel :=
  match channelEntry d c with
  | none => idleChannel ch
  | some e =>
    if ch.capIdle then idleChannel ch else
    let ch := { ch with idle := false, subst := false }
    let med := neighbourMedian d c e
    match ch.captured, med with
    | none, none =>
      let bad := min 255 (ch.bad + 1)
      { ch with invalids := satInc ch.invalids, bad := bad, failed := ch.failed || decide (bad ≥ e.persist) }
    -- an invalid round adds nothing to the history (R296), whose text stands above the pseudocode's last line
    | none, some m => stepLevel e m { ch with invalids := satInc ch.invalids, subst := true }
    | some v, none => stepLevels e v ch
    | some v, some m =>
      let ch := stepSuspect d e v m ch
      if ch.suspect ∧ v < m then stepLevels e m { ch with subst := true } else stepLevels e v ch

/-- The counters of entries to a level (Table 11-16). -/
def countLevel (old new : Channel) : Channel :=
  if new.level ≤ old.level then new else
  match new.level.val with
  | 1 => { new with warns := new.warns + 1 }
  | 2 => { new with throttles := new.throttles + 1 }
  | _ => { new with shutdowns := new.shutdowns + 1 }

/-- The effective level of a channel (R298). -/
def effectiveLevel (ch : Channel) : Nat := if ch.rate || ch.failed then max 2 ch.level.val else ch.level.val

/-! ### Throttling -/

/-- The rails that own a phase in a quadrant. -/
def railsIn (d : Device) (q : Nat) : List (Fin 64) :=
  (List.finRange 64).filter fun r => (railPhases d r).any fun g => decide ((quadOf g).val = q)

/-- The target rails of a channel (R299). -/
def channelRails (d : Device) (e : HkEntry) : List (Fin 64) :=
  match e.trail with
  | some r => [r]
  | none =>
    if e.source = 1 ∧ e.srcIndex < 512 then railsIn d (e.srcIndex / 128)
    else if e.source = 2 ∧ e.srcIndex < 4 then railsIn d e.srcIndex
    else List.finRange 64

/-- The channels that demand a throttle of a rail, in rising order. -/
def demandChannels (d : Device) (r : Fin 64) : List (Fin 96) :=
  (List.finRange 96).filter fun c =>
    match channelEntry d c with
    | some e => decide (effectiveLevel (bankGet d.hkt.chans c) ≥ 2) && (channelRails d e).contains r
    | none => false

/-- STEP_PCT as it acts (Table 11-12). -/
def stepPct (h : Housekeeping) : Nat := max 1 (min 50 h.stepPct.toNat)

/-- STEPS as it acts: no more than 9 and than 90 div STEP_PCT (R301, Table 11-12). -/
def stepLimit (h : Housekeeping) : Nat := min (min 9 h.steps.toNat) (90 / stepPct h)

/-- throttle(rail) of R301, but for ILIM_NOW. -/
def stepThrottle (h : Housekeeping) (demand : List (Fin 96)) (t : Throttle) : Throttle :=
  match demand with
  | c :: _ =>
    let t := { t with demand := true, ch := c, calm := 0 }
    let t := if t.wait = 0 then
        let t := if t.step < stepLimit h then { t with step := t.step + 1 } else { t with exhausted := true }
        { t with wait := max 1 h.stepRounds.toNat }
      else t
    { t with wait := t.wait - 1 }
  | [] =>
    let t := { t with demand := false, ch := 0, wait := 0, calm := t.calm + 1 }
    if t.calm ≥ max 1 h.relaxRounds.toNat then
      { t with calm := 0, exhausted := false, step := t.step - 1 }
    else t

/-- ILIM_NOW of R301, in 100 mA. -/
def ilimNow (h : Housekeeping) (ilimRail step : Nat) : Nat := max 1 (ilimRail * (100 - step * stepPct h) / 100)

/-- ILIM_NOW of a rail takes its value from the section and the step (R301). -/
def setIlim (r : Fin 64) (d : Device) : Device :=
  match d.sect r with
  | some b => d.onRail r fun x => { x with
      ilimNow := BitVec.ofNat 16 (ilimNow d.hkt b.ilimRail (bankGet d.hkt.rails r).step) }
  | none => d

/-- EXHAUSTED of a rail is reported to the scheduler, which takes it at its next tick (R302, R247, and the worked example of
11_protection_thermal.md). -/
def reportExhausted (tm : TimeBase) (r : Fin 64) (e : Bool) (d : Device) : Device :=
  if bankGet d.hs.exhausted r = e then d else
  { d with hs := { d.hs with
      exhausted := bankSet d.hs.exhausted r e
      pauseDue := bankSet d.hs.pauseDue r e
      pauseFrom := bankSet d.hs.pauseFrom r (tm.time.toNat / 800000 + 1) } }

/-- The throttle of every rail at the end of a round (R301, R302). -/
def throttleRails (tm : TimeBase) (d : Device) : Device :=
  let d' := { d with hkt := { d.hkt with
    rails := bankMap d.hkt.rails fun r t => stepThrottle d.hkt (demandChannels d r) t } }
  (List.finRange 64).foldl (fun d r =>
    reportExhausted tm r (bankGet d.hkt.rails r).exhausted (setIlim r d)) d'

/-! ### The store window and thermal shutdown -/

/-- Bits of the rails that are in PRECHARGE to HOLD (Table 11-5). -/
def runningRails (d : Device) : Nat :=
  (List.finRange 64).foldl (fun a r => a + flag (d.rail r).state.runs r.val) 0

/-- Table 11-5. -/
def shutdownPayload (cause index : Nat) (temp : BitVec 16) (d : Device) : List Byte :=
  let chunk := d.ocs.current.isSome && !erasing d.ocs
  leBytes 1 cause ++ leBytes 1 index ++ leBytes 2 temp.toNat ++ leBytes 2 d.hkt.jmax.toNat
    ++ [byte (flag chunk 0 + flag (eraseOpen d.ocs) 1), 0] ++ leBytes 8 (runningRails d)

/-- Thermal shutdown is entered (R304, R305): rails to SAFE, the store stopped, and its record waiting to be written. -/
def enterShutdown (tm : TimeBase) (cause : Nat) (index : Nat) (temp : BitVec 16) (nv : NonVol) (d : Device) :
    NonVol × Device :=
  let payload := shutdownPayload cause index temp d
  let d := { d with
    pm := { d.pm with intStatus := setBit d.pm.intStatus 2 }
    hkt := { d.hkt with
      tsd := true, tsdCount := satInc d.hkt.tsdCount, tsdCause := BitVec.ofNat 2 cause
      tsdTime := word tm.us.toNat, shutdown := some payload } }
  let d := captureTrigger tm .shutdown 0 d
  let d := (List.finRange 64).foldl (fun d r => actOnRail tm r 4 d) d
  stopErase nv d

/-- An event of the store window (R308). -/
def raiseWindow (tm : TimeBase) (opened : Bool) (d : Device) : Device :=
  raise tm 0x84 ([byte (bit opened), 0] ++ leBytes 2 d.hkt.jmax.toNat) d

/-- The window closes (R307). -/
def closeWindow (tm : TimeBase) (nv : NonVol) (d : Device) : NonVol × Device :=
  if !d.hkt.storeWin then (nv, d) else
  stopErase nv (raiseWindow tm false { d with hkt := { d.hkt with
    storeWin := false, intStatus := setBit d.hkt.intStatus 7 } })

/-- The window opens (R307). -/
def openWindow (tm : TimeBase) (nv : NonVol) (d : Device) : Device :=
  if d.hkt.storeWin then d else
  storePump nv (raiseWindow tm true { d with hkt := { d.hkt with storeWin := true } })

/-- JMAX: the highest valid reading, 0x8000 without one (R303). -/
def junctionMax (dies : Bank 8 Die) : BitVec 16 :=
  let vs := (dies.toList.filter (·.valid)).map (·.temp.toInt)
  match vs with
  | [] => 0x8000
  | v :: rest => BitVec.ofInt 16 (rest.foldl max v)

/-- One sensor's reading (R303, R306); none where its self-test failed. -/
def readDie (t : Option (BitVec 16)) (x : Die) : Die :=
  match t with
  | some v => { temp := v, valid := true
                hotRun := if v.toInt ≥ 2080 then min 3 (x.hotRun + 1) else 0
                coolRun := if v.toInt < 1840 then min 100 (x.coolRun + 1) else 0 }
  | none => { x with valid := false, hotRun := 0, coolRun := min 100 (x.coolRun + 1) }

/-- An on-die sample (R303, R307): JMAX, the window and the trigger at +130 °C. -/
def dieSample (tm : TimeBase) (temps : Vector (Option (BitVec 16)) 8) (nv : NonVol) (d : Device) : NonVol × Device :=
  let dies := bankMap d.hkt.dies fun k x => readDie temps[k.val] x
  let j := junctionMax dies
  let any := dies.toList.any (·.valid)
  let out := !any || decide (j.toInt > 1760) || decide (j.toInt < -480)
  let within := any && decide (-432 ≤ j.toInt ∧ j.toInt ≤ 1712)
  let first := d.hkt.firstSample
  let d := { d with hkt := { d.hkt with
    dies := dies
    jmax := j
    firstSample := false
    inRange := if within then some (d.hkt.inRange.getD (ticksNow tm)) else none } }
  let (nv, d) := if out then closeWindow tm nv d
    else if first && within then (nv, openWindow tm nv d) else (nv, d)
  match (List.finRange 8).find? fun k => decide ((bankGet dies k).hotRun ≥ 3) with
  | some k => if d.hkt.tsd then (nv, d) else enterShutdown tm 2 k.val (bankGet dies k).temp nv d
  | none => (nv, d)

/-- JMAX has stayed within the range for 10 ms, and the window opens (R307). -/
def windowOpens (tm : TimeBase) (nv : NonVol) (d : Device) : Device :=
  match d.hkt.inRange with
  | some t => if ticksNow tm - t ≥ 8000000 then openWindow tm nv d else d
  | none => d

/-! ### The end of a round -/

/-- Records and interrupts of one channel's changes (R308, Table 11-12). -/
def channelEvents (tm : TimeBase) (c : Fin 96) (old new : Channel) (d : Device) : Device :=
  let mark (b : Bool) (i : Nat) (d : Device) : Device :=
    if b then { d with hkt := { d.hkt with intStatus := setBit d.hkt.intStatus i } } else d
  let d := if old.level = new.level then d else
    mark (decide (old.level < new.level)) (new.level.val - 1)
      (raise tm 0x80 ([byte c.val, byte old.level.val, byte new.level.val, 0] ++ leBytes 2 (BitVec.ofInt 16 new.value).toNat) d)
  let flag' (was is : Bool) (n : Nat) (d : Device) : Device :=
    if was = is then d else mark is (n + 2) (raise tm 0x81 [byte c.val, byte n, byte (bit is)] d)
  flag' old.failed new.failed 3 (flag' old.suspect new.suspect 2 (flag' old.rate new.rate 1 d))

/-- Records and interrupts of the rails whose steps became exhausted or free again (R308). -/
def exhaustedEvents (tm : TimeBase) (old : Bank 64 Throttle) (d : Device) : Device :=
  (List.finRange 64).foldl (fun d r =>
    let now := (bankGet d.hkt.rails r).exhausted
    if (bankGet old r).exhausted = now then d else
    let d := raise tm 0x81 [byte r.val, 4, byte (bit now)] d
    if now then { d with hkt := { d.hkt with intStatus := setBit d.hkt.intStatus 6 } } else d) d

/-- A SOURCE 2 channel. -/
def isDieChannel (d : Device) (c : Fin 96) : Bool :=
  match channelEntry d c with
  | some e => decide (e.source = 2)
  | none => false

/-- May thermal shutdown end (R306)? -/
def shutdownOver (d : Device) : Bool :=
  (List.finRange 96).all (fun c => !isDieChannel d c || decide (effectiveLevel (bankGet d.hkt.chans c) < 2))
    && d.hkt.dies.toList.all fun x => !x.valid || decide (x.coolRun ≥ 100)

/-- The end of a round's evaluation, with its effects in the order of R292. -/
def roundEnd (tm : TimeBase) (nv : NonVol) (d : Device) : NonVol × Device :=
  if !d.hkt.inRound then (nv, d) else
  let old := d.hkt.chans
  let oldRails := d.hkt.rails
  -- 1. levels and flags
  let d := { d with hkt := { d.hkt with
    inRound := false
    rounds := d.hkt.rounds + 1
    chans := bankMap old fun c x => countLevel x (stepChannel d c x) } }
  -- 2. SOURCE 7
  let d := channelSources tm d
  -- 3. thermal shutdown
  let hot := (List.finRange 96).find? fun c => isDieChannel d c && decide ((bankGet d.hkt.chans c).level = 3)
  let leaving := d.hkt.tsd && shutdownOver d
  let (nv, d) := match hot with
    | some c => if d.hkt.tsd then (nv, d) else
        enterShutdown tm 1 c.val (BitVec.ofInt 16 (bankGet d.hkt.chans c).value) nv d
    | none => (nv, d)
  let d := if leaving then { d with hkt := { d.hkt with tsd := false } } else d
  -- 4. throttle steps
  let d := throttleRails tm d
  -- 5. events and interrupts
  let d := (List.finRange 96).foldl (fun d c => channelEvents tm c (bankGet old c) (bankGet d.hkt.chans c) d) d
  let d := exhaustedEvents tm oldRails d
  let d := if leaving then
      raise tm 0x83 (leBytes 2 d.hkt.jmax.toNat ++ leBytes 4 ((word tm.us.toNat - d.hkt.tsdTime).toNat / 1000)) d else d
  (nv, storePump nv d)

/-- A HKEEP section takes effect at a round start (R86): a channel whose SOURCE and SRC_INDEX stay keeps its state. -/
def applyHkeep (new : Option (InForce (List HkEntry))) (d : Device) : Device :=
  let key (d : Device) (c : Fin 96) : Option (Fin 6 × Nat) := (channelEntry d c).map fun e => (e.source, e.srcIndex)
  let d' := { d with str := { d.str with hkeep := new } }
  { d' with hkt := { d'.hkt with chans := bankMap d.hkt.chans fun c x => if key d c = key d' c then x else Channel.reset } }

/-- BIAS 1 ms before a round start (R293): one for each channel of a stage temperature whose slot is admitted, not serving, and
not in a SMOULDER quadrant. -/
def housekeepingBias (tm : TimeBase) (d : Device) : Device :=
  let gs := ((List.finRange 96).filterMap fun c =>
    match channelEntry d c with
    | some e => if e.source = 1 then fin? 512 e.srcIndex else none
    | none => none)
  gs.foldl (fun d g =>
    if (d.slot g).state = .admitted ∧ bankGet d.pwr.smoulder (quadOf g) = false then sendBias tm g d else d) d

end Sys2Proof.Machine
end

