-- ==== Sys2Proof/Machine/Lane.lean ====
section
/-! DEFINITION. The phase lanes at work (spec 04_phase_lanes.md): discovery, admission and calibration of slots (R123 to
R125), samples, measurements and reports (R113 to R117, R126, R129, R132, R450), training and retraining (R101, R131 to
R136). -/

namespace Sys2Proof.Machine

/-! ### Discovery and admission -/

/-- Discovery of a slot begins: its registers 0x10 to 0x18 are read in turn (R123). -/
def discoverSlot (tm : TimeBase) (g : Fin 512) (d : Device) : Device :=
  sendRead g 0x10 ((wakeFor tm g d).onSlot g fun s => { s with
    disc := some [], cal := none, readAt := tm.time.toNat, heldBack := false })

/-- The current limit of a slot: the lower of the applied ILIM_PHASE and the reported rating (R73). -/
def slotLimit (d : Device) (g : Fin 512) : BitVec 16 :=
  let rating := (d.slot g).rep.rating
  match (namingRail d g).bind d.sect with
  | some b => BitVec.ofNat 16 (min b.ilimPhase rating.toNat)
  | none => rating

/-- The checks of R124: refused with the first failure's reason, or admitted to calibration when `accepts` holds. A slot of which
no module has been discovered afresh keeps nothing of RETAKE (R220). While the supervisor is not running, a slot that fails a
check is refused all the same, and the host's ADMIT still admits one that passes (DESIGN CHOICE, assumption 109). -/
def checkSlot (accepts : Bool) (g : Fin 512) (d : Device) : Device :=
  match admissionFailure d g with
  | some why => setSlot g .refused why d
  | none =>
    if accepts then
      let l := slotLimit d g
      setSlot g .calibrating .none (d.onSlot g fun s => { s with limit := l, cal := none, heldBack := false })
    else setSlot g .found .none d

/-- Is a slot that is FOUND admitted without a command (R124): by hardware before READY, by the running supervisor after
it? -/
def admitsItself (tm : TimeBase) (d : Device) (g : Fin 512) : Bool :=
  decide (d.sys.step ≠ .ready) || ((d.lane (laneOf g)).autoAdmit && supRunning tm d)

/-- A slot with its rating report read enters FOUND and is checked (R123, R124). -/
def slotFound (tm : TimeBase) (g : Fin 512) (d : Device) : Device :=
  checkSlot (admitsItself tm d g) g (setSlot g .found .none (d.onSlot g fun s => { s with disc := none }))

/-- Every FOUND slot that the running supervisor may now accept (R124). -/
def admitFound (tm : TimeBase) (d : Device) : Device :=
  (List.finRange 512).foldl (fun d g =>
    if (d.slot g).state = .found ∧ (d.slot g).disc = none ∧ admitsItself tm d g then checkSlot true g d else d) d

/-! ### Calibration -/

/-- The slot's gains from the calibration region, or the defaults (R125 step 1). -/
def loadGains (nv : NonVol) (g : Fin 512) (d : Device) : Device :=
  let key := (d.lane (laneOf g)).serial.toNat
  let r := lookupRecord d.draws nv d.ocs 2 0x20 key (slotOf g).val
  let (ig, vg, vo) : Nat × Nat × Nat := match r with
    | some x => (leAt x.body 0 2, leAt x.body 2 2, leAt x.body 4 2)
    | none => (0x4000, 0x4000, 0)
  { d.onSlot g (fun s => { s with
      igain := BitVec.ofNat 16 ig, vgain := BitVec.ofNat 16 vg, vofs := BitVec.ofNat 16 vo }) with draws := d.draws + 1 }

/-- The WRITE of CFG_PERIOD, CFG_MODE or CFG_OCTRIP (R125 step 2, R112, R110). -/
def sendConfig (tm : TimeBase) (i : Fin 3) (g : Fin 512) (d : Device) : Device :=
  let p := slotPeriod d g
  let s := d.slot g
  let form := sampleForm p
  let (addr, v, d) : Nat × BitVec 16 × Device := match i with
    | 0 => (0x40, BitVec.ofNat 16 p, d)
    | 1 => (0x41, BitVec.ofNat 16 (cfgMode s p), d.onSlot g fun s => { s with compressed := form.1, aux := BitVec.ofNat 2 form.2 })
    | 2 => (0x42, BitVec.ofNat 16 (octripFor s), d.onSlot g fun s => { s with octrip := BitVec.ofNat 14 (octripFor s) })
  let w := sendWrite g addr v (wakeFor tm g d)
  w.1.onSlot g fun s => { s with cal := some (.writing i w.2 tm.time.toNat) }

/-- Calibration of a slot begins with its first WRITE (R125). In a SMOULDER quadrant, where no EDGE cell is sent (R130), it waits
for the quadrant to leave it (DEDUCED, assumption 109). -/
def startCalibration (tm : TimeBase) (nv : NonVol) (g : Fin 512) (d : Device) : Device :=
  if (d.slot g).state = .calibrating ∧ (d.slot g).cal = none ∧ bankGet d.pwr.smoulder (quadOf g) = false then sendConfig tm 0 g (loadGains nv g d) else d

/-- The PSTART of the next calibration period: within the window of tLEAD from now (Table 4-11), and a period after the
last one. -/
def calStart (tm : TimeBase) (p prev : Nat) : Nat :=
  max (prev + p) (tm.time.toNat + 800 + Config.calibrationLead tm.time.toNat % (p - 339))

/-- The next EDGE cell with NOPULSE of a calibration (R125 step 3). -/
def sendNoPulse (tm : TimeBase) (g : Fin 512) (cells exact : Nat) (sum : Int) (prev : Nat) (d : Device) : Device :=
  let t := calStart tm (slotPeriod d g) prev
  sendCell (laneOf g) (.edge (slotOf g) (BitVec.ofNat 24 t) 0 0 true false) t
    (d.onSlot g fun s => { s with cal := some (.collecting cells exact sum t) })

/-- A calibration ends: STOP, and the slot is admitted or refused (R125 steps 4 and 5). -/
def endCalibration (g : Fin 512) (ok : Bool) (d : Device) : Device :=
  let d := sendStop g (d.onSlot g fun s => { s with cal := none, fresh := ok })
  if ok then setSlot g .admitted .none d else setSlot g .refused .fault d

/-- One calibration period is over, exact samples or not (R125 step 3). -/
def calPeriod (tm : TimeBase) (g : Fin 512) (samples : Option (List Int)) (d : Device) : Device :=
  match (d.slot g).cal with
  | some (.collecting cells exact sum prev) =>
    let (exact, sum) := match samples with
      | some l => (exact + 1, sum + l.foldl (· + ·) 0)
      | none => (exact, sum)
    let cells := cells + 1
    if exact ≥ 32 then
      let iofs := roundUp sum 512
      endCalibration g (decide (iofs.natAbs ≤ 512)) (d.onSlot g fun s => { s with iofs := BitVec.ofInt 16 iofs })
    else if cells ≥ 64 then endCalibration g false d
    else sendNoPulse tm g cells exact sum prev d
  | _ => d

/-- A REPLY of a slot (R105): the next step of its discovery or of its calibration. -/
def reply (tm : TimeBase) (g : Fin 512) (addr tag : Byte) (data : BitVec 16) (result : Byte) (d : Device) : Device :=
  if (d.lane (laneOf g)).state ≠ .up then d else
  let s := d.slot g
  match s.disc, s.cal with
  | some regs, _ =>
    if addr.toNat ≠ 0x10 + regs.length ∨ tag + 1 ≠ s.tag then d
    else if result ≠ 0 then setSlot g .refused .protocol (d.onSlot g fun s => { s with disc := none })
    else
      let regs := regs ++ [data]
      if regs.length < 9 then
        sendRead g (0x10 + regs.length) (d.onSlot g fun s => { s with disc := some regs, readAt := tm.time.toNat })
      else
        let rep := ratingOf regs
        let d := d.onSlot g fun s => { s with disc := none, rep := rep }
        if ratingInRange rep then slotFound tm g d else setSlot g .refused .protocol d
  | none, some (.writing i t _) =>
    if addr.toNat ≠ 0x40 + i.val ∨ tag ≠ t then d
    else if result ≠ 0 then setSlot g .refused .protocol (d.onSlot g fun s => { s with cal := none })
    else match i with
      | 0 => sendConfig tm 1 g d
      | 1 => sendConfig tm 2 g d
      | 2 => sendNoPulse tm g 0 0 0 0 (sendCmd g 1 d)
  | none, _ => d

/-- No REPLY has come within 20 µs (R117, R125, R123). -/
def replyTimeout (tm : TimeBase) (g : Fin 512) (d : Device) : Device :=
  let s := d.slot g
  let late (t : Nat) : Bool := decide (tm.time.toNat - t ≥ 16000)
  let refuse (d : Device) : Device := setSlot g .refused .protocol (d.onSlot g fun s => { s with disc := none, cal := none })
  match s.disc, s.cal with
  | some _, _ => if late s.readAt then refuse d else d
  | none, some (.writing _ _ t) => if late t then refuse d else d
  | none, _ => d

/-! ### Commands of SLOT.CMD -/

/-- ADMIT (R127): the checks again, from the rating report onward: on the report that the slot holds, without reading its
registers again, also where a failed discovery has left an old or no report (DESIGN CHOICE, assumption 109). -/
def admitSlot (g : Fin 512) (d : Device) : Device :=
  match (d.slot g).state with
  | .found | .refused | .lost => checkSlot true g d
  | _ => d

/-- REFUSE (R127). -/
def refuseSlot (g : Fin 512) (d : Device) : Device :=
  match (d.slot g).state, (d.slot g).owner with
  | .found, _ => setSlot g .refused .host d
  | .admitted, none => setSlot g .refused .host d
  | _, _ => d

/-- RECAL (R125): steps 2 to 5 again, on an admitted slot that is not serving. -/
def recalSlot (tm : TimeBase) (g : Fin 512) (d : Device) : Device :=
  if (d.slot g).state = .admitted ∧ (d.phase g).placed = false then sendConfig tm 0 g (setSlot g .calibrating .none d) else d

/-- CAL_SAVE (R125): the gains and the offset as a CAL record. While PFAIL_N is low it writes nothing (R389). -/
def saveCalibration (nv : NonVol) (g : Fin 512) (d : Device) : Device :=
  let s := d.slot g
  if d.ocs.pfail || !regionWritable d.ocs 2 then d else
  storePump nv (addJob ⟨[.record ⟨0x20, (d.lane (laneOf g)).serial, byte (slotOf g).val,
    leBytes 2 s.igain.toNat ++ leBytes 2 s.vgain.toNat ++ leBytes 2 s.vofs.toNat, 2, none⟩], .record, .cal g, true⟩ d)

/-- A write of SLOT.CAL_I or SLOT.CAL_V sets both of its fields together (R126). -/
def writeSlotCal (g : Fin 512) (voltage : Bool) (data : Word) (d : Device) : Device :=
  let lo := data.setWidth 16
  let hi : BitVec 16 := BitVec.ofNat 16 (data.toNat / 65536)
  d.onSlot g fun s => if voltage then { s with vofs := lo, vgain := hi } else { s with iofs := lo, igain := hi }

/-! ### Samples -/

/-- The rail of a phase that the loop engine evaluates, with its section and mode. -/
def servingRail (d : Device) (g : Fin 512) : Option (Fin 64 × RailSect) :=
  match (d.slot g).owner with
  | some r => (d.sect r).map fun b => (r, b)
  | none => none

/-- The loop engine's part of a period's samples (R158, R171, R175): the evaluation, the measurement of a run on the inner
loop, or the skip of an inexact period. A phase that has left the placed set is evaluated no more (R178). -/
def sampleToEngine (tm : TimeBase) (g : Fin 512) (q : Period) (exact : Bool) (ma : List Int) (d : Device) : Device :=
  if !(d.phase g).placed then d else
  match servingRail d g with
  | none => d
  | some (r, b) =>
    match railModeAt d r q.next with
    | none => d
    | some mode =>
      if !exact && !(d.loop r).useInexact then d.onLoop r fun l => { l with inexact := satInc l.inexact }
      else if tuning d r && d.tune.run.any (·.inner) then
        let target := irefOf (d.loop r).dem q.share q.limit
        d.onPhase g fun p => { p with imeas := imeasOf ma, iref := target }
      else
        let a := admitInner g r b q ma mode d
        if a.2 then a.1 else
        let c := countOverrun r true a.1
        if c.2 then reportEngine tm r .overrun c.1 else c.1

/-- Could a SAMPLE cell that is decoded now, and is not late, still be the cell of a period (R111, R118, Table 6-4)? Sample
15 lies 15/16 of P after PSTART, and Table 6-4's items bound what follows it. DEDUCED (assumption 26). -/
def mayBeCellOf (now p : Nat) (q : Period) : Bool :=
  decide (now ≤ q.start + 15 * p / 16 + (if p ≥ 1600 then 1469 else 909))

/-- The period a SAMPLE cell belongs to: the oldest still waited for whose time has not run out; a late cell, or one that
fits none, belongs to the oldest (assumption 26). -/
def cellPeriod (now p : Nat) (late : Bool) (qs : List Period) : Option Period :=
  if late then qs.head? else
  match qs.find? (mayBeCellOf now p) with
  | some q => some q
  | none => qs.head?

/-- A SAMPLE cell (R113 to R116, R126, R285): its counters, the protection matrix, and then the loop engine or the
calibration in progress. -/
def deliverSamples (tm : TimeBase) (n : Fin 64) (slot : Fin 8) (f late sat : Bool) (samples : List Int) (d : Device) :
    Device :=
  if (d.lane n).state ≠ .up then d else
  let g := globalSlot n slot
  let d := if late then d.onLane n fun l => { l with upLate := satInc l.upLate } else d
  let d := d.onSlot g fun s => { s with
    errOc := if f then satInc s.errOc else s.errOc
    errSat := if sat then satInc s.errSat else s.errSat }
  let s := d.slot g
  let ma := samples.map (sampleMa s)
  let d := sampleSources tm g f (if sat then none else some ma) d
  match s.cal with
  | some (.collecting _ _ _ start) => calPeriod tm g (if sat then none else some samples) (d.onSlot g fun s => { s with
      missRun := 0, sampledAt := some start })
  | _ =>
    let qs := (d.phase g).periods
    let period := match servingRail d g with
      | some (_, b) => groupPeriod d b.fgroup
      | none => 0
    match cellPeriod tm.time.toNat period late qs with
    | none => d.onSlot g fun s => { s with missRun := 0 }
    | some q =>
      let d := d.onSlot g fun s => { s with
        missRun := if qs.head? = some q then 0 else s.missRun, sampledAt := some q.start }
      sampleToEngine tm g q (!sat) ma (d.onPhase g fun p => { p with periods := p.periods.filter fun x => decide (x ≠ q) })

/-- A SAMPLE cell has failed to arrive (R129): that of the oldest period still waited for. A run of missing cells ends where
the next period's cell has already come. -/
def missSample (tm : TimeBase) (g : Fin 512) (d : Device) : Device :=
  let d := d.onSlot g fun s => { s with errMissing := satInc s.errMissing, missRun := s.missRun + 1 }
  match (d.slot g).cal with
  | some (.collecting ..) => calPeriod tm g none d
  | _ =>
    if (d.slot g).state ≠ .serving then d else
    let broken := match (d.phase g).periods with
      | q :: x :: _ => decide (x.start ≠ q.next)
      | _ => false
    let d := match (d.phase g).periods, servingRail d g with
      | _ :: rest, some (r, _) =>
        let d := d.onPhase g fun p => { p with periods := rest }
        if (railMode d r).isSome && (d.phase g).placed then d.onLoop r fun l => { l with missing := satInc l.missing } else d
      | _, _ => d
    if (d.slot g).missRun ≥ 3 then sendStop g (loseSlot tm g .missing d)
    else if broken then d.onSlot g fun s => { s with missRun := 0 } else d

/-! ### MEAS and STATUS -/

/-- A MEAS cell (R126): its values in set-point LSBs, with the instants at which they were received and sampled; the rail's start
measurement and SOURCES 3 and 4. The sample instant of a slot in SWITCHING is sample 0 of the period that the MEAS follows
(Table 4-7); otherwise it is that of its arrival (DEDUCED, assumption 109). -/
def takeMeas (tm : TimeBase) (n : Fin 64) (slot : Fin 8) (vout vin temp : BitVec 16) (d : Device) : Device :=
  if (d.lane n).state ≠ .up then d else
  let g := globalSlot n slot
  let s := d.slot g
  let now := tm.time.toNat
  let switching := decide (s.state = .serving) || decide (s.state = .calibrating)
  let carrier := match s.owner with | some r => (railCarrier d r).k | none => 0
  let m : MeasView := ⟨measVout s vout, measVin s vin, vin, temp, now, if switching then s.sampledAt.getD now else now, carrier⟩
  let d := d.onSlot g fun s => { s with meas := some m, measWas := s.meas, temp := temp }
  let d := match s.owner with
    | some r => d.onRail r fun x => match x.meas with
      | some q => if q.phases.contains g then
          { x with meas := some { q with got := q.got.filter (fun y => decide (y.1 ≠ g)) ++ [(g, m)] } } else x
      | none => x
    | none => d
  measSources tm g m.vout d

/-- Retraining of an UP lane begins (R133, Table 4-15): EDGE cells stop, and every slot not ABSENT, REFUSED or RETIRED is
LOST with reason LANE. -/
def startRetrain (tm : TimeBase) (n : Fin 64) (d : Device) : Device :=
  if (d.lane n).state ≠ .up then d else
  let d := dropEdges n d
  let d := d.onLane n fun l => { l with
    state := .retrain, attempt := 0, retrains := satInc l.retrains, intStatus := setBit l.intStatus 1
    errTimes := [], dnTimes := [], train := some ⟨0, tm.time.toNat, tm.time.toNat, []⟩ }
  (laneSlots n).foldl (fun d g =>
    match (d.slot g).state with
    | .absent | .refused | .retired => d.onSlot g fun s => { s with disc := none, cal := none }
    | _ => (loseSlot tm g .lane d).onPhase g fun p => { p with stopAt := none }) d

/-- ERR_LIMIT as it acts (Table 4-17). -/
def errLimit (l : Lane) : Nat := max 1 l.errLimit.toNat

/-- Retraining on a cause, unless the receiver sleeps (R134, R362). -/
def causeRetrain (tm : TimeBase) (n : Fin 64) (d : Device) : Device :=
  if (d.lane n).asleep then d else startRetrain tm n d

/-- A slot leaves MODSLOTS (R132). -/
def slotRemoved (tm : TimeBase) (g : Fin 512) (d : Device) : Device :=
  match (d.slot g).state with
  | .absent => d
  | .admitted | .serving => setSlot g .absent .removed (loseSlot tm g .removed (d.onSlot g fun s => { s with heldBack := false }))
  | _ => setSlot g .absent .removed (d.onSlot g fun s => { s with cal := none, disc := none, heldBack := false })

/-- FITTED changes (Tables 4-16 and 4-20): slots that left and slots that came (R132, R123). -/
def setFitted (tm : TimeBase) (n : Fin 64) (mask : BitVec 8) (d : Device) : Device :=
  let old := (d.lane n).fitted
  if old = mask then d else
  let d := d.onLane n fun l => { l with fitted := mask, intStatus := setBit l.intStatus 3 }
  (List.finRange 8).foldl (fun d s =>
    let g := globalSlot n s
    if old.getLsbD s.val && !mask.getLsbD s.val then slotRemoved tm g d
    else if !old.getLsbD s.val && mask.getLsbD s.val then discoverSlot tm g d
    else d) d

/-- An advance of DN_CRC (Table 4-18), and whether ERR_LIMIT is reached within 1 ms (R134). -/
def countDnCrc (tm : TimeBase) (n : Fin 64) (dnCrc : Byte) (d : Device) : Device × Bool :=
  let l := d.lane n
  let adv := match l.dnSeen with
    | some o => (dnCrc - o).toNat
    | none => 0
  let now := tm.time.toNat
  let times := (if adv = 0 then [] else [(now, adv)]) ++ l.dnTimes.filter fun x => decide (now - x.1 < 800000)
  let hit := decide (adv > 0) && decide (times.foldl (fun a x => a + x.2) 0 ≥ errLimit l)
  (d.onLane n fun l => { l with dnSeen := some dnCrc, dnErr := l.dnErr + BitVec.ofNat 32 adv, dnTimes := times }, hit)

/-- A serving slot reports HALTED (R450). -/
def slotHalted (tm : TimeBase) (g : Fin 512) (fault : Byte) (d : Device) : Device :=
  if (d.slot g).state ≠ .serving then d else
  let lineOnly := decide (fault &&& 0x30 ≠ 0) && decide (fault &&& ~~~(0x30 : Byte) = 0)
  if lineOnly then d else
  let why : SlotReason := if fault.getLsbD 2 && !fault.getLsbD 0 && !fault.getLsbD 1 then .timeout else .fault
  loseSlot tm g why d

/-- A STATUS cell (R117, R132, R134, R450). -/
def takeStatus (tm : TimeBase) (n : Fin 64) (slot : Fin 8) (modslots dnCrc late fault st : Byte) (d : Device) : Device :=
  if (d.lane n).state ≠ .up then d else
  let g := globalSlot n slot
  let adv := match (d.slot g).lateSeen with
    | some o => (late - o).toNat
    | none => 0
  let d := d.onSlot g fun s => { s with lateSeen := some late, errLate := satAdd s.errLate adv, modState := st }
  let d := d.onLane n fun l => { l with dnLate := satAdd l.dnLate adv }
  let d := setFitted tm n modslots d
  let c := countDnCrc tm n dnCrc d
  let d := if st = 5 then slotHalted tm g fault c.1 else c.1
  if c.2 || fault.getLsbD 4 then causeRetrain tm n d else d

/-- Symbol errors of an upstream pair that no counter holds yet: those inside cells, and those between them (R134). -/
def countSymbols (n : Fin 64) (symbols : Byte) (d : Device) : Device :=
  d.onLane n fun l => { l with symErr := l.symErr + symbols.setWidth 32 }

/-- Upstream loss of lock (R134): the errors that declare it are counted, and an UP lane retrains. -/
def upstreamLost (tm : TimeBase) (n : Fin 64) (symbols : Byte) (d : Device) : Device :=
  match (d.lane n).state with
  | .unused => d
  | _ => causeRetrain tm n (countSymbols n symbols d)

/-- An upstream cell is discarded (R97, R134). -/
def cellError (tm : TimeBase) (n : Fin 64) (symbols : Byte) (d : Device) : Device :=
  match (d.lane n).state with
  | .unused => d
  | _ =>
    let now := tm.time.toNat
    let times := now :: (d.lane n).errTimes.filter fun t => decide (now - t < 800000)
    let d := (countSymbols n symbols d).onLane n fun l => { l with crcErr := l.crcErr + 1, errTimes := times }
    if (d.lane n).state = .up ∧ times.length ≥ errLimit (d.lane n) then causeRetrain tm n d else d

/-! ### Training -/

/-- Training of a DOWN lane begins (R131, R101). -/
def startTraining (tm : TimeBase) (n : Fin 64) (d : Device) : Device :=
  if (d.lane n).state ≠ .down then d else
  d.onLane n fun l => { l with state := .training, attempt := 0, train := some ⟨0, tm.time.toNat, tm.time.toNat, []⟩ }

/-- The next ECHO of step 2 (Table 4-3). -/
def sendEcho (tm : TimeBase) (n : Fin 64) (t : Training) (d : Device) : Device :=
  sendCell n (.echo (byte t.rtd.length)) 0
    (d.onLane n fun l => { l with train := some { t with step := 1, stepAt := tm.time.toNat } })

/-- Upstream lock (R131, Table 4-3 step 1): a DOWN lane starts training, and the training goes on to its ECHO cells. -/
def upstreamLock (tm : TimeBase) (n : Fin 64) (d : Device) : Device :=
  let d := startTraining tm n d
  match (d.lane n).train with
  | some t => if t.step = 0 then sendEcho tm n t d else d
  | none => d

/-- A training that fails (Table 4-15). -/
def trainingFails (n : Fin 64) (d : Device) : Device :=
  d.onLane n fun l => { l with state := .down, train := none }

/-- A lane loss (R135): counted, recorded, and SOURCE 8 asserts. -/
def laneLoss (tm : TimeBase) (n : Fin 64) (d : Device) : Device :=
  let d := d.onLane n fun l => { l with losses := satInc l.losses, intStatus := setBit l.intStatus 2 }
  let l := d.lane n
  laneSource tm n true (raise tm 0x20 ([byte n.val, 0] ++ leBytes 2 l.retrains.toNat ++ leBytes 8 l.serial.toNat) d)

/-- A retraining attempt fails (Table 4-15). -/
def retrainFails (tm : TimeBase) (n : Fin 64) (d : Device) : Device :=
  let k := (d.lane n).attempt + 1
  if k ≥ 3 then laneLoss tm n (d.onLane n fun l => { l with state := .down, attempt := k, train := none })
  else d.onLane n fun l => { l with attempt := k, train := some ⟨0, tm.time.toNat, tm.time.toNat, []⟩ }

/-- The attempt in progress fails, in training or in retraining. -/
def attemptFails (tm : TimeBase) (n : Fin 64) (d : Device) : Device :=
  match (d.lane n).state with
  | .training => trainingFails n d
  | .retrain => retrainFails tm n d
  | _ => d

/-- The limit of a training step has passed (Table 4-3): 1.5 ms for lock, 2 µs a reply, 2 ms for the whole. -/
def stepExpired (now : Nat) (t : Training) : Bool :=
  decide (now - t.start ≥ 1600000) || (decide (t.step = 0) && decide (now - t.stepAt ≥ 1200000))
    || (decide (t.step = 1) && decide (now - t.stepAt ≥ 1600))

/-- A training step exceeds its limit. -/
def trainingTimeout (tm : TimeBase) (n : Fin 64) (d : Device) : Device :=
  match (d.lane n).train with
  | some t => if stepExpired tm.time.toNat t then attemptFails tm n d else d
  | none => d

/-- An ECHO_REPLY (R101 steps 2 and 3): after the eighth the delay is fixed, TIME is sent and the identity is read. -/
def echoReply (tm : TimeBase) (n : Fin 64) (tag : Byte) (turn rtd : BitVec 16) (d : Device) : Device :=
  match (d.lane n).train with
  | none => d
  | some t =>
    if t.step ≠ 1 ∨ tag.toNat ≠ t.rtd.length then d else
    let t := { t with rtd := t.rtd ++ [(rtd, turn)] }
    if t.rtd.length < 8 then sendEcho tm n t d else
    let sum : Nat := t.rtd.foldl (fun a x => a + x.1.toNat) 0
    let delay := roundUp ((sum : Int) - 8 * turn.toNat) 16
    if delay > 1536 then attemptFails tm n d else
    let d := d.onLane n fun l => { l with
      delay := BitVec.ofInt 16 delay, turn := turn, train := some { t with step := 3, stepAt := tm.time.toNat } }
    let d := sendCell n (.time 0 0) 0 d
    (List.range 9).foldl (fun d a => sendRead (globalSlot n 0) a d) d

/-- The identity read in step 4 goes into the LANE registers (Table 4-19). -/
def takeIdentity (n : Fin 64) (i : ModIdent) (d : Device) : Device :=
  d.onLane n fun l => { l with vendor := i.vendor, product := i.product, serial := i.serial, proto := i.proto }

/-- The lane enters UP: SOURCE 8 clears. -/
def enterUp (tm : TimeBase) (n : Fin 64) (d : Device) : Device :=
  laneSource tm n false (d.onLane n fun l => { l with
    state := .up, train := none, attempt := 0, intStatus := setBit l.intStatus 0, errTimes := [], dnTimes := []
    idleSince := tm.time.toNat, asleep := false, wokeAt := none })

/-- Every fitted slot of a lane for which a test holds is discovered, and slots no longer fitted become ABSENT. -/
def discoverFitted (tm : TimeBase) (n : Fin 64) (mask : BitVec 8) (pick : Slot → Bool) (d : Device) : Device :=
  let changed := decide ((d.lane n).fitted ≠ mask)
  let d := d.onLane n fun l => { l with
    fitted := mask, intStatus := if changed then setBit l.intStatus 3 else l.intStatus }
  (List.finRange 8).foldl (fun d s =>
    let g := globalSlot n s
    if !mask.getLsbD s.val then slotRemoved tm g d
    else if pick (d.slot g) then discoverSlot tm g d
    else d) d

/-- Does a slot keep its state when its lane comes up with the same module (R123)? -/
def keepsState (s : Slot) : Bool :=
  decide (s.state = .retired) || (decide (s.state = .refused) && decide (s.reason = .host))

/-- Training ends and the lane enters UP (R123). -/
def trainingEnds (tm : TimeBase) (n : Fin 64) (i : ModIdent) (d : Device) : Device :=
  match (d.lane n).state, (d.lane n).train with
  | .training, some t =>
    if t.step ≠ 3 then d else
    let same := decide ((d.lane n).serial = i.serial) && decide ((d.lane n).serial ≠ 0)
    let d := enterUp tm n (takeIdentity n i (d.onLane n fun l => { l with dnSeen := none }))
    discoverFitted tm n i.slots (fun s => !(same && keepsState s)) d
  | _, _ => d

/-- A slot LOST with reason LANE returns to ADMITTED with its calibration (Table 4-15); with RETAKE 0 its rail does not take
it back (R220). -/
def returnSlot (g : Fin 512) (d : Device) : Device :=
  if (d.slot g).state = .lost ∧ (d.slot g).reason = .lane then
    let held := match (d.slot g).owner with
      | some r => !(d.rail r).cfg.retake
      | none => false
    setSlot g .admitted .none (d.onSlot g fun s => { s with heldBack := held })
  else d

/-- A retraining attempt ends (Table 4-15). -/
def retrainEnds (tm : TimeBase) (n : Fin 64) (res : Option ModIdent) (d : Device) : Device :=
  match (d.lane n).state, (d.lane n).train, res with
  | .retrain, _, none => retrainFails tm n d
  | .retrain, some t, some i =>
    if t.step ≠ 3 then d else
    let same := decide ((d.lane n).serial = i.serial)
    let d := enterUp tm n (takeIdentity n i d)
    if same then
      let d := (laneSlots n).foldl (fun d g => returnSlot g d) d
      setFitted tm n i.slots d
    else
      let d := (laneSlots n).foldl (fun d g =>
        if (d.slot g).state = .lost ∧ (d.slot g).reason = .lane then d.onSlot g fun s => { s with reason := .identity } else d) d
      discoverFitted tm n i.slots (fun _ => true) (d.onLane n fun l => { l with dnSeen := none })
  | _, _, _ => d

/-- LANE.CTRL.RETRAIN (Table 4-17). -/
def laneRetrain (tm : TimeBase) (n : Fin 64) (d : Device) : Device :=
  match (d.lane n).state with
  | .down => if (d.lane n).mode = 0 then d else startTraining tm n d
  | .up => startRetrain tm n d
  | _ => d

/-! ### UNUSED and DOWN -/

/-- Does a slot of the lane serve? -/
def laneServes (d : Device) (n : Fin 64) : Bool := (laneSlots n).any fun g => decide ((d.slot g).state = .serving)

/-- A quadrant's power domain is off while every lane of it is UNUSED (R361). -/
def settleDomain (q : Fin 4) (d : Device) : Device :=
  let used := (List.finRange 64).any fun n => decide (quadOfLane n = q) && decide ((d.lane n).state ≠ .unused)
  if used then d else { d with pwr := { d.pwr with qoff := bankSet d.pwr.qoff q true } }

/-- The lane goes to UNUSED (Table 4-15): STOP to every slot, the slots ABSENT, the pairs idle. -/
def laneUnused (tm : TimeBase) (n : Fin 64) (d : Device) : Device :=
  let d := (laneSlots n).foldl (fun d g =>
    let d := immediateLeave tm g (sendStop g (d.onSlot g fun s => { s with cal := none, disc := none, heldBack := false }))
    if (d.slot g).state = .absent then d else setSlot g .absent .none d) d
  settleDomain (quadOfLane n) (d.onLane n fun l => { l with state := .unused, train := none })

/-- A DISABLE that waits takes effect once no slot of the lane serves (R133). -/
def disableTakesEffect (tm : TimeBase) (n : Fin 64) (d : Device) : Device :=
  if (d.lane n).disable && decide ((d.lane n).state ≠ .unused) && !laneServes d n then laneUnused tm n d else d

/-- An unused lane of mode 1 or 2 enters DOWN once its quadrant's domain is on (Table 4-15, R361). -/
def laneDown (n : Fin 64) (d : Device) : Device :=
  let l := d.lane n
  if l.state = .unused ∧ l.mode ≠ 0 ∧ l.disable = false ∧ bankGet d.pwr.qoff (quadOfLane n) = false then
    d.onLane n fun l => { l with state := .down } else d

/-- Every lane of a quadrant whose domain has come on enters DOWN as its mode has it. -/
def domainOn (q : Fin 4) (d : Device) : Device :=
  let wanted := (List.finRange 64).any fun n =>
    decide (quadOfLane n = q) && decide ((d.lane n).mode ≠ 0) && !(d.lane n).disable
  if !wanted then d else
  let d := { d with pwr := { d.pwr with qoff := bankSet d.pwr.qoff q false } }
  (List.finRange 64).foldl (fun d n => if quadOfLane n = q then laneDown n d else d) d

/-- A write of LANE.CTRL.DISABLE (Table 4-17). -/
def writeDisable (tm : TimeBase) (n : Fin 64) (v : Bool) (d : Device) : Device :=
  let d := d.onLane n fun l => { l with disable := v }
  if v then disableTakesEffect tm n d else laneDown n d

/-! ### Timers of the lanes -/

/-- A TIME cell on each UP lane (R102). -/
def timeCells (d : Device) : Device :=
  (List.finRange 64).foldl (fun d n => if (d.lane n).state = .up then sendCell n (.time 0 0) 0 d else d) d

/-- BIAS every tBIAS (R130, R223): to the admitted and serving slots of SMOULDER quadrants, but not in thermal shutdown
(R304), and to the phases of Kindling records that are not yet joined. -/
def biasTimer (tm : TimeBase) (d : Device) : Device :=
  let smoulder := if d.hkt.tsd then [] else (List.finRange 512).filter fun g =>
    bankGet d.pwr.smoulder (quadOf g) && (bankGet d.pwr.entering (quadOf g)).isNone &&
      (decide ((d.slot g).state = .admitted) || decide ((d.slot g).state = .serving))
  let d := smoulder.foldl (fun d g => sendBias tm g d) d
  (List.finRange 64).foldl (fun d r =>
    let due := (d.rail r).stack.filter fun y => decide (y.step ≠ .joined)
    let d := due.foldl (fun d y => sendBias tm y.phase d) d
    if due.isEmpty then d else
    d.onRail r fun x => { x with stack := x.stack.map fun y => if y.step = .chosen then { y with step := .biased } else y }) d

/-- In TRIM, the receiver of an UP lane sleeps once no slot of it has served or been calibrated for 1 ms (R362). -/
def receiverSleeps (tm : TimeBase) (n : Fin 64) (d : Device) : Device :=
  let busy := (laneSlots n).any fun g => decide ((d.slot g).state = .serving) || decide ((d.slot g).state = .calibrating)
  if d.pwr.mode = .trim ∧ d.clk.trim = true ∧ (d.lane n).state = .up ∧ busy = false ∧ tm.time.toNat - (d.lane n).idleSince ≥ 800000 then
    d.onLane n fun l => { l with asleep := true } else d

end Sys2Proof.Machine
end

