-- ==== Sys2Proof/Machine/Rails.lean ====
section
/-! DEFINITION. The commands and timers of rails (spec 08_rails.md), of the loop engine (06_loop_engine.md) and of auto-tune
(07_feedforward_autotune.md), and the start of a carrier period (R145). -/

namespace Sys2Proof.Machine

/-! ### RAIL.CMD -/

/-- A command that ends at once with a result; its POS is kept (Table 8-6). -/
def finishCmd (r : Fin 64) (pos : Nat) (res : CmdResult) (d : Device) : Device :=
  endCmd r res (d.onRail r fun x => { x with cmdPos := BitVec.ofNat 7 pos })

/-- A command that is refused, below its level or beside another one in progress, which goes on (Table 8-6, R229). -/
def refuseCmd (r : Fin 64) (pos : Nat) (res : CmdResult) (d : Device) : Device :=
  d.onRail r fun x => { x with
    cmdPos := BitVec.ofNat 7 pos, cmdResult := res.code, intStatus := setBit x.intStatus 3 }

/-- A command of RAIL.CMD: refused with DENIED below its level and with BUSY while one is in progress (R229). -/
def railCommand (src : Src) (least : Level) (r : Fin 64) (pos : Nat) (f : Device → Device) (d : Device) : Device :=
  byLevelOr src least (refuseCmd r pos .denied)
    (fun d => if (d.rail r).cmdBusy then refuseCmd r pos .busy d
      else f (d.onRail r fun x => { x with cmdPos := BitVec.ofNat 7 pos })) d

/-- Has start-up reached READY? Before it no rail is armed and none leaves ARMED by a command (R46, R51). -/
def isReady (d : Device) : Bool := decide (d.sys.step = .ready)

/-- ARM (Table 8-2). -/
def armRail (tm : TimeBase) (r : Fin 64) (d : Device) : Device :=
  if (d.rail r).state ≠ .off ∨ (d.sect r).isNone ∨ isReady d = false then endCmd r .state d
  else if !lifecycleRuns d then endCmd r .lifecycle d
  else endCmd r .ok (changeState tm r .armed .none d)

/-- DISARM (Table 8-2). -/
def disarmRail (tm : TimeBase) (r : Fin 64) (d : Device) : Device :=
  if (d.rail r).state = .armed ∧ isReady d then endCmd r .ok (discardRecords tm r (changeState tm r .off .none d))
  else endCmd r .state d

/-- START of an ARMED rail (R207): the command lasts until PRECHARGE or the refusal. -/
def commandStart (tm : TimeBase) (r : Fin 64) (d : Device) : Device :=
  if (d.rail r).state ≠ .armed ∨ isReady d = false then endCmd r .state d else
  let s := startRail tm r d
  if s.2 = .ok then s.1.onRail r fun x => { x with cmdBusy := true } else endCmd r s.2 s.1

/-- STOP (Table 8-2). -/
def stopRail (tm : TimeBase) (r : Fin 64) (d : Device) : Device :=
  if (d.rail r).state.runs then endCmd r .ok (leaveRunning tm r true .armed .hostStop d) else endCmd r .state d

/-- SOFTSTOP (Table 8-2, R226): in REGULATE the mode becomes IMMEDIATE, and what waits is released (R170). -/
def softStop (tm : TimeBase) (r : Fin 64) (d : Device) : Device :=
  match (d.rail r).state with
  | .ramp => endCmd r .ok (unwindRail tm r false (d.onRail r fun x => { x with stopping := true }))
  | .regulate =>
    let d := unwindRail tm r false (releaseAll r (endTuneOn tm r .state d))
    endCmd r .ok (changeState tm r .ramp .none (d.onRail r fun x => { x with stopping := true }))
  | _ => endCmd r .state d

/-- CLEAR (Table 8-2); but in FAULT it needs ENGINEER (R229). -/
def clearRail (tm : TimeBase) (src : Src) (r : Fin 64) (d : Device) : Device :=
  let go (d : Device) : Device :=
    if railSourceActive d r then endCmd r .source d
    else endCmd r .ok (changeState tm r .armed .none (d.onRail r fun x => { x with retries := 0 }))
  match (d.rail r).state with
  | .fault => go d
  | .safe => if may d src .engineer then go d else endCmd r .denied d
  | _ => if may d src .engineer then endCmd r .state d else endCmd r .denied d

/-- The phase at a list position. -/
def phaseAt (d : Device) (r : Fin 64) (pos : Nat) : Option (Fin 512) := (railPhases d r)[pos]?

/-- RETIRE (R219): the phase is unavailable at once, and the next boundary takes it out of service. -/
def retirePhase (tm : TimeBase) (r : Fin 64) (pos : Fin 128) (d : Device) : Device :=
  match phaseAt d r pos.val with
  | none => endCmd r .position d
  | some g =>
    let was := available d r g
    let d := d.onRail r fun x => { x with
      cmdBusy := true
      retiring := x.retiring ++ [⟨g, pos, false⟩]
      unwinding := x.unwinding.filter fun y => decide (y.phase ≠ g) }
    let d := dropRecords tm r (fun y => decide (y.phase = g)) d
    if was then phaseGone r d else d

/-- RESTORE (R220). -/
def restorePhase (tm : TimeBase) (r : Fin 64) (pos : Fin 128) (d : Device) : Device :=
  match phaseAt d r pos.val with
  | none => raiseRetire tm r pos.val 8 .position 0 (endCmd r .position d)
  | some g =>
    let s := d.slot g
    let l := d.lane (laneOf g)
    let busy := (d.rail r).retiring.any fun x => decide (x.phase = g)
    let freed := d.onSlot g fun s => { s with heldBack := false }
    let (res, d) : CmdResult × Device :=
      if s.state = .retired ∧ l.fitted.getLsbD (slotOf g).val ∧ l.state = .up ∧ busy = false then
        (.ok, setSlot g .admitted .none (d.onSlot g fun s => { s with fresh := true, heldBack := false }))
      else if s.state = .admitted ∧ s.heldBack ∧ available freed r g then (.ok, freed)
      else (.position, d)
    raiseRetire tm r pos.val 8 res g.val (endCmd r res d)

/-! ### Set-points -/

/-- A write of VSET (R214). -/
def writeVset (r : Fin 64) (data : Word) (d : Device) : Device :=
  let v := clampWindow d r (bits data.toNat 19 0)
  d.onRail r fun x => { x with cfg := { x.cfg with vset := BitVec.ofNat 20 v } }

/-- A write of VNEXT and QVALID (R213, R214). -/
def writeVnext (r : Fin 64) (data : Word) (d : Device) : Device :=
  let v := clampWindow d r (bits data.toNat 19 0)
  d.onRail r fun x => { x with cfg := { x.cfg with vnext := BitVec.ofNat 20 v, qvalid := data.getLsbD 31 } }

/-- A write of WIN_LO or WIN_HI (R214). -/
def writeWindow (r : Fin 64) (high : Bool) (data : Word) (d : Device) : Device :=
  let (vmin, vmax) : Nat × Nat := match d.sect r with | some b => (b.vmin, b.vmax) | none => (0, 0)
  let v := min (max (bits data.toNat 19 0) vmin) vmax
  d.onRail r fun x => { x with cfg :=
    if high then { x.cfg with winHi := BitVec.ofNat 20 (max v x.cfg.winLo.toNat) }
    else { x.cfg with winLo := BitVec.ofNat 20 v, winHi := BitVec.ofNat 20 (max v x.cfg.winHi.toNat) } }

/-- ramp_step of one rail (R213). -/
def rampRail (tm : TimeBase) (r : Fin 64) (d : Device) : Device :=
  let x := d.rail r
  if railHeld d r || !(decide (x.state = .ramp) || decide (x.state = .regulate)) then d else
  match d.sect r with
  | none => d
  | some b =>
    let g := goalOf d r * 20
    let up := if x.state = .ramp then b.ssRate else b.slewUp
    let dn := if x.state = .ramp then b.ssRate else b.slewDn
    let ramp := if x.ramp < g then min (x.ramp + up) g else if x.ramp > g then max (x.ramp - dn) g else x.ramp
    let take := decide (x.state = .regulate) && decide (ramp = g) && x.cfg.qvalid
    let v := clampWindow d r x.cfg.vnext.toNat
    let d := d.onRail r fun y => { y with
      ramp := ramp
      cfg := if take then { y.cfg with vset := BitVec.ofNat 20 v, qvalid := false } else y.cfg }
    if x.stopping ∧ x.state = .ramp ∧ ramp = 0 then leaveRunning tm r false .armed .hostStop d else d

/-- One device microsecond of every ramp (R213). -/
def rampAll (tm : TimeBase) (d : Device) : Device := (List.finRange 64).foldl (fun d r => rampRail tm r d) d

/-! ### Timers of a rail -/

/-- T-ticks since the rail's state was entered. -/
def sinceState (tm : TimeBase) (x : Rail) : Nat := tm.time.toNat - x.since

/-- T-ticks of some milliseconds. -/
def msTicks (ms : Nat) : Nat := ms * 800000

/-- RAMP_MAX ms have passed since entry to PRECHARGE (Table 8-2). -/
def rampExpires (tm : TimeBase) (r : Fin 64) (d : Device) : Device :=
  let x := d.rail r
  let due := decide (tm.time.toNat - x.rampSince ≥ msTicks (max 1 x.cfg.rampMax.toNat))
  match x.state with
  | .precharge | .ramp => if due && !x.stopping then enterFault tm r .rampTimeout d else d
  | _ => d

/-- HOLD_MAX × 10 ms have passed since entry to HOLD (Table 8-2). -/
def holdExpires (tm : TimeBase) (r : Fin 64) (d : Device) : Device :=
  let x := d.rail r
  if x.state = .hold ∧ sinceState tm x ≥ msTicks (10 * max 1 x.cfg.holdMax.toNat) then enterFault tm r .holdTimeout d else d

/-- The retry timer ends (R211): to ARMED, with START issued as the host would. -/
def retryRail (tm : TimeBase) (r : Fin 64) (d : Device) : Device :=
  let x := d.rail r
  if x.state = .fault ∧ sinceState tm x ≥ msTicks x.cfg.retryDelay.toNat ∧ x.retries.toNat < x.cfg.retryMax.toNat
      ∧ railSourceActive d r = false ∧ isReady d then
    let d := changeState tm r .armed .none (d.onRail r fun x => { x with retries := x.retries + 1 })
    let s := startRail tm r d
    match s.2 with
    | .ok => s.1.onRail r fun x => { x with cmdBusy := true }
    | .phases => endCmd r .phases (s.1.onRail r fun x => { x with cause := .phases })
    | res => endCmd r res s.1
  else d

/-- After 10 s in REGULATE, RETRIES returns to zero. -/
def resetRetries (tm : TimeBase) (r : Fin 64) (d : Device) : Device :=
  if (d.rail r).state = .regulate ∧ sinceState tm (d.rail r) ≥ msTicks 10000 then
    d.onRail r fun x => { x with retries := 0 } else d

/-- The start measurement has every MEAS, or 100 µs have passed (R207 step 2). -/
def measurementEnds (tm : TimeBase) (r : Fin 64) (d : Device) : Device :=
  match (d.rail r).meas with
  | some m =>
    if m.phases.all (fun g => m.got.any fun x => decide (x.1 = g)) || decide (tm.time.toNat - m.start ≥ 80000) then
      endMeasurement r d else d
  | none => d

/-- The strap rail's START, 100 ms after READY with a stage admitted (R54, R208). -/
def strapStart (tm : TimeBase) (d : Device) : Device :=
  let some' := (List.finRange 512).any fun g => decide ((d.slot g).state = .admitted) || decide ((d.slot g).state = .serving)
  if d.sys.strapMode ∧ d.sys.step = .ready ∧ tm.time.toNat - d.sys.readyAt ≥ msTicks 100 ∧ some' ∧
      (d.rail 0).state = .armed ∧ (d.rail 0).cmdBusy = false then commandStart tm 0 d else d

/-- Ones written to RAIL.TRIPPED[i] (R221): the phases at those list positions are available again. -/
def clearTripped (r : Fin 64) (i : Fin 4) (data : Word) (d : Device) : Device :=
  let list := railPhases d r
  let picked := (List.range 32).filterMap fun j => if data.getLsbD j then list[32 * i.val + j]? else none
  d.onRail r fun x => { x with tripped := x.tripped.filter fun g => !picked.contains g }

/-- A partner voltage request is not renewed within REQ_TTL × 100 ms (R215). -/
def expireRequest (tm : TimeBase) (r : Fin 64) (h : Fin 256) (d : Device) : Device :=
  let ttl := 100 * max 1 (d.rail r).cfg.reqTtl.toNat
  d.onRail r fun x => { x with requests := x.requests.filter fun q =>
    !(decide (q.handle = h) && decide (tm.time.toNat - q.renewed ≥ msTicks ttl)) }

/-- The warm start of an entry at tw (R223): the later of L ms before the start and the grant. -/
def warmStartDue (tm : TimeBase) (e : Fin 128) (d : Device) : Device :=
  let x := bankGet d.hs.ledger e
  match x.rail, x.start with
  | some r, some s =>
    let lead := match d.sect r with | some b => b.lead | none => 0
    if !x.warmed && notEarlierUs (word tm.us.toNat) (word (s * 1000) - word (lead * 1000)) then warmStart tm e d else d
  | _, _ => d

/-! ### Carrier periods -/

/-- The rails of a frequency group, with their sections. -/
def groupRails (d : Device) (g : Fin 8) : List (Fin 64 × RailSect) :=
  (List.finRange 64).filterMap fun r =>
    match d.sect r with
    | some b => if b.fgroup = g then some (r, b) else none
    | none => none

/-- The carrier of one group starts (R140, R153). -/
def startCarrier (g : Fin 8) (t : Nat) (d : Device) : Device :=
  let e := startCarriers t d
  d.onCarrier g fun _ => bankGet e.tbi.carriers g

/-- A group's carrier reaches a period start (R145): the carriers begin at TBI's start instant; afterwards the next length
is planned, rail over-current is judged, and each rail of the group takes its boundary. -/
def carrierPeriod (tm : TimeBase) (g : Fin 8) (d : Device) : Device :=
  if !bankGet d.str.device.body.fgEnable g then d else
  let c := bankGet d.tbi.carriers g
  let go (vs : Bank 8 (Nat × Nat)) (d : Device) : Device :=
    let rs := groupRails d g
    let d := railCurrentValues tm (rs.map (·.1)) d
    rs.foldl (fun d x => railBoundary tm x.1 x.2 vs d) d
  if c.started then go c.vs (retimeOuter g (advanceCarrier g d))
  else match d.tbi.startAt with
    | some t => go (bankFill 8 (0, 0)) (startCarrier g t d)
    | none => d

/-- A VSENSE conversion ends (R442): its code feeds the loops' means and the protection matrix. -/
def vsenseEnds (tm : TimeBase) (v : Fin 8) (code : BitVec 16) (d : Device) : Device :=
  let x := vsenseLsb d.str.device.body v code
  let d := { d with
    le := { d.le with vsense := bankSet d.le.vsense v (some code) }
    tbi := { d.tbi with carriers := bankMap d.tbi.carriers fun _ c =>
      if c.started then { c with vs := bankUpd c.vs v fun a => (a.1 + 1, a.2 + x) } else c } }
  vsenseSources tm v code d

/-- A write of TBI.RAILBASE (R146): the base moves from the next boundary on. -/
def writeBase (r : Fin 64) (base : BitVec 16) (d : Device) : Device :=
  { d with tbi := { d.tbi with rails := bankUpd d.tbi.rails r fun t => { t with baseSet := some base.toNat } } }

/-! ### The loop engine -/

/-- Is an evaluation of a loop past its deadline (R173)? -/
def overdue (now : Nat) (loop : LoopRef) (x : Eval) : Bool := decide (x.loop = loop) && decide (x.deadline ≤ now)

/-- Evaluations of a loop that have not completed at their deadline are cancelled (R173). -/
def cancelOverdue (now : Nat) (loop : LoopRef) (e : Engine) : Engine := cancelEvals (overdue now loop) e

/-- The rail that a loop belongs to. -/
def loopRail (d : Device) (loop : LoopRef) : Option (Fin 64) :=
  match loop with
  | .outer r => some r
  | .inner g => (d.slot g).owner

/-- An evaluation's deadline passes (R173, R174). -/
def deadlinePasses (tm : TimeBase) (loop : LoopRef) (d : Device) : Device :=
  let now := tm.time.toNat
  let late := d.le.window.any (overdue now loop) || d.le.queue.any (overdue now loop)
    || d.le.slices.toList.any fun s => match s with | some x => overdue now loop x | none => false
  if !late then d else
  let d := { d with le := cancelOverdue now loop d.le }
  match loopRail d loop with
  | none => d
  | some r =>
    let c := countOverrun r (match loop with | .inner _ => true | .outer _ => false) d
    if c.2 then reportEngine tm r .overrun c.1 else c.1

/-- LOOP.CTRL.CLEAR (Table 6-7). -/
def clearLoop (r : Fin 64) (d : Device) : Device :=
  d.onLoop r fun l => { l with
    innerOvr := 0, outerOvr := 0, missing := 0, inexact := 0, satOut := 0, satAcc := 0, slack := 0xFFFF }

/-- LE.CTRL.CLEAR (Table 6-13). -/
def clearEngine (d : Device) : Device :=
  { d with le := { d.le with windowHw := 0, queueHw := 0, minSlack := 0xFFFF } }

/-- May a single coefficient write not be taken while the rail runs (R181, R187)? -/
def coefLocked (outer : Bool) (k : Fin 8) : Bool := if outer then decide (4 ≤ k.val) else decide (3 ≤ k.val ∧ k.val ≤ 5)

/-- A committed coefficient reaches the engine (R180 to R182): the mantissa where one was written, and the shift. -/
def writeCoef (tm : TimeBase) (r : Fin 64) (outer : Bool) (k : Fin 8) (m : Option Word) (s : Byte) (d : Device) : Device :=
  if (d.rail r).state.runs && coefLocked outer k then
    d.onLoop r fun l => { l with intStatus := setBit l.intStatus 4 }
  else
    let now := tm.time.toNat
    let arrives := now + (if Config.coefSlow now then 6 else 4)
    d.onLoop r fun l =>
      let old := bankGet (if outer then l.outer else l.inner) k
      let new : Coef := ⟨m.getD old.m, BitVec.ofInt 8 (clampInt (-24) 8 s.toInt)⟩
      { l with
        outer := if outer then bankSet l.outer k new else l.outer
        inner := if outer then l.inner else bankSet l.inner k new
        coefSeq := l.coefSeq + 1
        diverged := true
        coefLog := (arrives, outer, k, old, new) :: l.coefLog.filter fun x => decide (now - x.1 < 8000000) }

/-! ### Auto-tune -/

/-- A run that ends before it begins: REFUSED or DENIED, with its record (R194, R195, R201). -/
def noRun (tm : TimeBase) (r : Fin 64) (inner : Bool) (res : TuneResult) (check : Nat) (d : Device) : Device :=
  raiseTune tm r inner { d with tune := { d.tune with
    result := res.code, check := BitVec.ofNat 4 check, loop := inner, rail := r } }

/-- AT.CMD START (R194, R195). -/
def startTune (tm : TimeBase) (src : Src) (r : Fin 64) (inner : Bool) (rule : BitVec 2) (d : Device) : Device :=
  if d.tune.run.isSome then { d with tune := { d.tune with ignored := true } }
  else if !(may d src .engineer && lifeAllows d) then noRun tm r inner .denied 0 d
  else match tuneCheck d r inner (goalOf d r) with
    | some c => noRun tm r inner .refused c d
    | none =>
      -- the run begins at the next sample instant of its loop
      { d with tune := { d.tune with
        result := 0, check := 0, cycle := 0, ignored := false, loop := inner, rail := r
        run := some ⟨r, inner, if rule = 3 then 2 else rule, tm.time.toNat, true, 0, true, false, 0, [], 0, 0, none, 0, [], 0⟩ } }

/-- AT.CMD STOP (R198). -/
def stopTune (tm : TimeBase) (d : Device) : Device := endTune tm .stopped [] d

/-- RUN_MAX ms since the run began (R198). -/
def tuneExpires (tm : TimeBase) (d : Device) : Device :=
  match d.tune.run with
  | some t => if !t.waiting && decide (tm.time.toNat - t.start ≥ msTicks d.tune.runMax.toNat) then endTune tm .timeout [] d else d
  | none => d

end Sys2Proof.Machine
end

