-- ==== Sys2Proof/Machine/Recorder.lean ====
section
/-! DEFINITION. The event recorder at work (spec 16_ash_and_bog.md, R399 to R415): places of records, the write of an event,
its commit with the copies that follow, the calendar, reading and clearing; and the shutdown record of R305 and R391. -/

namespace Sys2Proof.Machine

/-! ### Places -/

/-- The address of event record i, 0 to 119, of a physical sector (R376). -/
def eventAddr (p : Fin 128) (i : Nat) : Nat := 4096 * p.val + 256 + 32 * i

/-- The two programs of an event record at an address (R400). -/
def eventSteps (addr : Nat) (bs : List Byte) : List JobStep :=
  let off := addr % 64
  [.bytes [byteProg (addr - off) off (bs.take 30)], .bytes [byteProg (addr - off) (off + 30) [0]]]

/-- SEQ of a record. -/
def seqOf (bs : List Byte) : Nat := leAt bs 0 4

/-- The valid records of an event sector in ascending position (R400). -/
def sectorEvents (k : Nat) (nv : NonVol) (p : Fin 128) : List (List Byte) :=
  ((List.range 120).map fun i => flashRead k nv (eventAddr p i) 32).filter eventValid

/-- The valid records of an event region. -/
def regionEvents (k : Nat) (nv : NonVol) (st : Store) (r : Fin 11) : List (List Byte) :=
  (regionPhys st r).flatMap (sectorEvents k nv)

/-- The physical sector of the shutdown region. -/
def shutdownSector (st : Store) : Option (Fin 128) := physOf st 50

/-- The chunks of the shutdown region: their addresses (R391). -/
def shutdownChunks (st : Store) : List Nat :=
  match shutdownSector st with
  | some p => (List.range 60).map fun i => 4096 * p.val + 256 + 64 * i
  | none => []

/-- The valid shutdown records, with their chunks. -/
def shutdownRecords (k : Nat) (nv : NonVol) (st : Store) : List (Nat × List Byte) :=
  ((shutdownChunks st).map fun a => (a, flashRead k nv a 32)).filter fun x => eventValid x.2

/-- The first chunk after the last written one whose bytes 0x00 to 0x1F are ERASED (R391). -/
def shutdownPlace (nv : NonVol) (st : Store) : Option Nat :=
  let free := ((shutdownChunks st).reverse.takeWhile fun a => groupErased nv a 32).reverse
  free.head?

/-- The next place of the circulating area: in its active sector, or in the ready sector, which becomes active (R406). -/
def circulatingPlace (st : Store) : Option (Store × Nat) :=
  let i := bankGet st.next 8
  match (if i < 120 then (activeOf st 8).bind (physOf st) else none) with
  | some p => some ({ st with next := bankSet st.next 8 (i + 1) }, eventAddr p i)
  | none =>
    match bankGet st.erased 8 with
    | [] => none
    | l :: ls => (physOf st l).map fun p =>
      ({ st with
        used := bankUpd st.used 8 (· ++ [l])
        erased := bankSet st.erased 8 ls
        next := bankSet st.next 8 1 }, eventAddr p 0)

/-- The place of a permanent position, 0 to 599 (R405): sectors 51 to 55. -/
def permanentPlace (st : Store) (i : Nat) : Option Nat :=
  (physOf st (Fin.ofNat 128 (51 + i / 120))).map fun p => eventAddr p (i % 120)

/-- The erase of a physical sector under the journal, after which it is the ready one of its region. -/
def eraseJob (st : Store) (p l : Fin 128) : Job := ⟨eraseSteps st p l, .upkeep, .erased p, false⟩

/-- Sectors of the circulating area whose erase is queued or runs. -/
def circulatingErases (st : Store) : List (Fin 128) :=
  (st.current.toList ++ st.jobs).filterMap fun j => match j.tag with
    | .erased p =>
      if (regionPhys st 8).contains p then some p else none
    | _ => none

/-! ### Sequence numbers (R402) -/

/-- EVTRES advances before the next record when the reserved numbers are used up; at the end of the numbers the recorder
stops. -/
def reserveSeq (nv : NonVol) (d : Device) : Device :=
  let v := (bankGet d.ocs.counters 3).toNat + 1
  if 1024 * v > 0xFFFF_FC00 then { d with er := { d.er with seqEnd := true } }
  else if (d.ocs.current.toList ++ d.ocs.jobs).any (fun j => decide (j.tag = .counter 3)) then d
  else storePump nv (addJob ⟨[.counter 3 none], .counter, .counter 3, false⟩ d)

/-- The numbers that EVTRES at V gives the recorder (R402): of its 1,024 those above the highest SEQ committed, so that none is
used twice even where an increment was lost (R29). -/
def seqGrant (v : Nat) (e : Recorder) : Recorder :=
  { e with
    seqNext := BitVec.ofNat 32 (min (1024 * v + 1024) (max (1024 * v) (e.head.toNat + 1)))
    seqLimit := BitVec.ofNat 32 (1024 * v + 1024) }

/-- EVTRES has advanced: its numbers are the recorder's (R402). -/
def seqReserved (d : Device) : Device := { d with er := seqGrant (bankGet d.ocs.counters 3).toNat d.er }

/-- The recorder's numbers at start-up, EVTRES having been `was` before it was advanced (R402): none where it could not be
advanced (R29), and the end of the numbers. -/
def seqAtStart (was v : Nat) (e : Recorder) : Recorder :=
  if 1024 * v > 0xFFFF_FC00 then { e with seqEnd := true, seqNext := 0xFFFF_FFFF, seqLimit := 0xFFFF_FFFF }
  else if v ≤ was then { e with seqNext := 0, seqLimit := 0 }
  else seqGrant v e

/-! ### Writing an event (R400, R402, R412) -/

/-- The SEQ of an event is known: REPEATS events and chains that refer to it take it (R411). -/
def resolveSeq (id : Nat) (seq : Word) (e : Recorder) : Recorder :=
  { e with
    queue := e.queue.map fun x => if x.ref = some id then
      { x with ref := none, payload := leBytes 4 seq.toNat ++ x.payload.drop 4 } else x
    chains := e.chains.map fun c => if c.first = id ∧ c.seq = none then { c with seq := some seq } else c }

/-- The oldest queued event is dropped, as R408 gives where neither area can take it. -/
def dropOldest (tm : TimeBase) (e : Recorder) : Recorder :=
  { e with
    queue := e.queue.drop 1
    dropped := satInc e.dropped
    pendDrop := e.pendDrop + 1
    firstDrop := if e.pendDrop = 0 then tm.cal else e.firstDrop
    lastDrop := tm.cal }

/-- The bytes of the oldest queued event under a SEQ, with its time fixed now (R402 to R404). -/
def eventBytes (tm : TimeBase) (e : Recorder) (x : Event) : List Byte :=
  let t := x.stamp.getD (tm.cal, e.tgen, e.unset)
  encodeEvent e.seqNext t.1 t.2.1 t.2.2 x.code.toNat x.payload

/-- May the recorder write: not in recovery, in a clear, with the window closed or in thermal shutdown, past the end of the
numbers, or beyond the four writes of a power failure? -/
def mayRecord (d : Device) : Bool :=
  !d.ocs.recovering && d.er.clearSeq.isNone && d.hkt.storeWin && !d.hkt.tsd && !d.er.seqEnd
    && !(d.er.pfail && decide (d.er.pfailLeft = 0)) && d.er.writing.isNone && d.er.started

/-- The write of the oldest queued event begins. -/
def writeEvent (tm : TimeBase) (nv : NonVol) (d : Device) : Device :=
  match d.er.queue with
  | [] => d
  | x :: _ =>
    if !mayRecord d then d
    else if d.er.seqNext = d.er.seqLimit then reserveSeq nv d
    else if d.er.bogOnly then
      -- records go only to the bog log, through its buffer (R408, R419)
      if d.bog.state ≠ .ready ∨ (!supRunning tm d ∧ 126 ≤ d.bog.buffer.length) then { d with er := dropOldest tm d.er }
      else if 126 ≤ d.bog.buffer.length then d
      else
        let seq := d.er.seqNext
        let bs := (eventBytes tm d.er x).take 30 ++ [0, 0xFF]
        { d with
          er := resolveSeq x.id seq { d.er with queue := d.er.queue.drop 1, seqNext := seq + 1 }
          bog := { d.bog with buffer := d.bog.buffer ++ [bs], oldest := some (d.bog.oldest.getD tm.time.toNat) } }
    else
      match circulatingPlace d.ocs with
      | none => if (circulatingErases d.ocs).isEmpty then setReadonly tm 8 d else d
      | some (st, addr) =>
        let seq := d.er.seqNext
        let bs := eventBytes tm d.er x
        let er := resolveSeq x.id seq { d.er with
          seqNext := seq + 1
          writing := some (x, seq, bs)
          pfailLeft := if d.er.pfail then d.er.pfailLeft - 1 else d.er.pfailLeft }
        let t := storePump nv (addJob ⟨eventSteps addr bs, .record, .event seq, false⟩ { d with ocs := st, er := er })
        -- SEQ is assigned at the start of the first program: the write waits while the store is not free for it
        if t.ocs.current.any fun j => decide (j.tag = .event seq) then t else d

/-! ### After a commit -/

/-- States of the life cycle in which records are copied to the permanent area (R405). -/
def permanentState (lc : LifeCycle) : Bool :=
  match lc with
  | .service | .maintain | .retired | .returned => true
  | .blank | .commission => false

/-- Is a committed record the LIFECYCLE record of the change to SERVICE (Table 14-3)? -/
def opensPermanent (bs : List Byte) : Bool :=
  decide (leAt bs 11 1 = 0xA2) && decide (leAt bs 12 1 = 1) && decide (leAt bs 13 1 = 2)

/-- Does a record, whose commit finds so many permanent copies, go to the permanent area (R405)? -/
def goesPermanent (lc : LifeCycle) (count used : Nat) (bs : List Byte) : Bool :=
  let special := [0xA2, 0xC3, 0xC4].contains (leAt bs 11 1)
  permanentState lc && (decide (0 < count) || opensPermanent bs)
    && (decide (count < 512) || (special && decide (used < 600)))

/-- The permanent copy of a committed record (R405). -/
def copyPermanent (nv : NonVol) (bs : List Byte) (d : Device) : Device :=
  let e := d.er
  if e.permRo || !goesPermanent d.sg.lc e.permCount e.permUsed.toNat bs then d else
  match permanentPlace d.ocs e.permUsed.toNat with
  | none => d
  | some addr => storePump nv (addJob ⟨eventSteps addr bs, .record, .permanent, false⟩
      { d with er := { e with permUsed := e.permUsed + 1, permCount := min 512 (e.permCount + 1) } })

/-- When the active sector of the circulating area holds 24 committed records and no other sector is erased, the oldest is
erased (R406). -/
def rotateCirculating (nv : NonVol) (d : Device) : Device :=
  match bankGet d.ocs.erased 8, bankGet d.ocs.used 8, (activeOf d.ocs 8).bind (physOf d.ocs) with
  | [], o :: _ :: _, some a =>
    match physOf d.ocs o with
    | some p =>
      if (sectorEvents d.draws nv a).length ≥ 24 ∧ !(circulatingErases d.ocs).contains p then
        storePump nv (addJob (eraseJob d.ocs p o) d)
      else d
    | none => d
  | _, _, _ => d

/-- LOST is raised when the queue has fallen to 32 entries and drops are pending (R410). -/
def raiseLost (tm : TimeBase) (d : Device) : Device :=
  let e := d.er
  if e.queue.length ≤ 32 ∧ e.pendDrop ≠ 0 then
    raise tm 0xC0 (leBytes 4 e.pendDrop.toNat ++ leBytes 6 e.firstDrop.toNat ++ leBytes 6 e.lastDrop.toNat)
      { d with er := { e with pendDrop := 0, intStatus := setBit e.intStatus 0 } }
  else d

/-- A command of the recorder ends. -/
def endEr (res : Nat) (d : Device) : Device :=
  { d with er := { d.er with busy := false, result := byte res, intStatus := setBit d.er.intStatus 2 } }

/-- CLEARED is written as the first record of the ready sector (R415 step 2); without one the clear ends with STORE. -/
def writeCleared (tm : TimeBase) (nv : NonVol) (clear : Word) (d : Device) : Device :=
  let fail := endEr 5 { d with er := { d.er with clearSeq := none, clearAreas := 0 } }
  match (bankGet d.ocs.erased 8).head?.bind (physOf d.ocs) with
  | none => fail
  | some p =>
    if !regionWritable d.ocs 8 then fail else
    let seq := d.er.seqNext
    let bs := encodeEvent seq tm.cal d.er.tgen d.er.unset 0xC4
      (leBytes 1 d.er.clearAreas.toNat ++ [0, 0, 0] ++ leBytes 4 clear.toNat)
    storePump nv (addJob ⟨eventSteps (eventAddr p 0) bs, .record, .cleared seq, false⟩
      { d with er := { d.er with seqNext := seq + 1, clearSeq := some clear } })

/-- A record of the circulating area has committed (R405, R406, R409): its entry is freed, and what follows from it. -/
def eventCommitted (tm : TimeBase) (nv : NonVol) (d : Device) : Device :=
  match d.er.writing with
  | none => d
  | some (x, seq, bs) =>
    let e := { d.er with
      writing := none
      head := seq
      queue := d.er.queue.filter fun y => decide (y.id ≠ x.id) }
    let cap := if x.code = 0xD1 ∧ leAt x.payload 0 4 = d.cap.lastId.toNat then { d.cap with trigSeq := seq } else d.cap
    let d := { d with er := e, cap := cap, bog := { d.bog with oldest := some (d.bog.oldest.getD tm.time.toNat) } }
    let d := rotateCirculating nv (copyPermanent nv (bs.take 30 ++ [0, 0xFF]) (raiseLost tm d))
    if x.code = 0xC3 ∧ d.er.busy then
      if d.er.clearAreas.getLsbD 0 then
        -- with the reserved numbers used up, CLEARED waits for the next ones
        if d.er.seqNext = d.er.seqLimit then reserveSeq nv { d with er := { d.er with clearSeq := some seq } }
        else writeCleared tm nv seq d
      else { d with er := { d.er with clearSeq := some seq } }
    else d

/-- CLEARED has committed: its sector is the active one, TAIL is its SEQ, and the others are erased (R415). -/
def clearCommitted (nv : NonVol) (seq : Word) (d : Device) : Device :=
  match bankGet d.ocs.erased 8 with
  | [] => d
  | l :: ls =>
    let old := bankGet d.ocs.used 8
    let st := { d.ocs with
      used := bankSet d.ocs.used 8 (old ++ [l])
      erased := bankSet d.ocs.erased 8 ls
      next := bankSet d.ocs.next 8 1 }
    let d := { d with ocs := st, er := { d.er with head := seq, tail := seq, clearing := !old.isEmpty } }
    let d := old.foldl (fun d o => match physOf d.ocs o with
      | some p => if (circulatingErases d.ocs).contains p then d else addJob (eraseJob d.ocs p o) d
      | none => d) d
    let bs := match physOf d.ocs l with
      | some p => flashRead d.draws nv (eventAddr p 0) 32
      | none => []
    storePump nv (copyPermanent nv bs d)

/-- The intent of an erase of a circulating sector is written: TAIL passes the sector's records (R406). -/
def passTail (k : Nat) (nv : NonVol) (p : Fin 128) (d : Device) : Device :=
  if !(regionPhys d.ocs 8).contains p then d else
  let top := (sectorEvents k nv p).foldl (fun a b => max a (seqOf b + 1)) 0
  { d with er := { d.er with tail := BitVec.ofNat 32 (max d.er.tail.toNat top) } }

/-- A program of an event record that failed verification: the record goes to the next place, and the failed one is voided
(R394). `st` has the new place taken. -/
def relocateEvent (nv : NonVol) (st : Store) (addr : Nat) (j : Job) : Store × Job :=
  let bs (old : Nat) : List Byte := match j.steps with
    | .bytes [c] :: .bytes _ :: _ => slice c.bytes (old % 64) 30
    | _ => flashRead 0 nv old 30
  match j.steps.getLast? with
  | some (.bytes [c]) =>
    let off := (c.bytes.takeWhile fun b => decide (b = 0xFF)).length
    let old := c.addr + off - 30
    (st, { j with steps := .bytes [byteProg c.addr (off + 1) [0]] :: eventSteps addr (bs old) })
  | _ => (st, j)

/-! ### The calendar (R403, R404) -/

/-- The code of a source in a record: its port, or 3 for the supervisor. -/
def srcCode : Src → Nat
  | .port .spi => 0
  | .port .twoWire => 1
  | .port .debug => 2
  | .sup => 3

/-- TIME_SET (R404): the calendar's new value, and the recorder. Events raised before it keep the time and generation in
force. -/
def timeSet (tm : TimeBase) (src : Src) (d : Device) : TimeBase × Device :=
  let e := d.er
  let new := e.timeNew
  let tm' := { tm with cal := new }
  let e := { e with
    tgen := e.tgen + 1
    unset := false
    queue := e.queue.map fun x => if x.stamp.isSome then x else { x with stamp := some (tm.cal, d.er.tgen, d.er.unset) } }
  let e := (pushEvent tm' false 0xC2 (leBytes 6 tm.cal.toNat ++ leBytes 6 new.toNat ++ leBytes 1 (srcCode src)) none
    (some (new, e.tgen, false)) (endChains tm e)).1
  (tm', endEr 0 { d with er := e })

/-! ### Reading (R413) -/

/-- The lowest record at or above a SEQ, of several lists in their order of preference. -/
def lowestRecord (sel : Nat) (lists : List (Nat × List (List Byte))) : Option (Nat × List Byte) :=
  (lists.flatMap fun x => (x.2.filter fun b => decide (sel ≤ seqOf b)).map fun b => (x.1, b)).foldl (fun best x =>
    match best with
    | none => some x
    | some y => if seqOf x.2 < seqOf y.2 then some x else some y) none

/-- What SELECT finds on the chip. -/
def selectOnChip (nv : NonVol) (areas : BitVec 4) (d : Device) : Option (Nat × List Byte) :=
  let k := d.draws
  let circ := if areas.getLsbD 0 then
    (regionEvents k nv d.ocs 8).filter fun b => decide (d.er.tail.toNat ≤ seqOf b) else []
  let perm := if areas.getLsbD 1 then regionEvents k nv d.ocs 7 else []
  lowestRecord d.er.sel.toNat [(0, circ), (1, perm), (3, (shutdownRecords k nv d.ocs).map (·.2))]

/-- SELECT ends with what it found. -/
def selectEnds (res : Nat) (x : Option (Nat × List Byte)) (d : Device) : Device :=
  let e := d.er
  let e := match x with
    | some (area, bs) => { e with found := true, area := BitVec.ofNat 3 area, rd := bs }
    | none => { e with found := false }
  endEr res { d with er := e }

/-- SELECT (R413); with the bog log among the areas it waits for a read of the archive. -/
def selectRecord (nv : NonVol) (areas : BitVec 4) (d : Device) : Device :=
  let here := selectOnChip nv areas d
  if areas.getLsbD 2 then
    if d.bog.state = .ready ∧ d.bog.op = none then
      { d with
        er := { d.er with busy := true, clearAreas := areas }
        bog := { d.bog with op := some .select } }
    else if d.bog.state = .ready then endEr 1 d
    else selectEnds 4 here d
  else selectEnds 0 here d

/-- The archive's record for a SELECT: the lower of it and what the chip holds, the chip's first of equals. -/
def selectFromBog (nv : NonVol) (bytes : List Byte) (d : Device) : Device :=
  let bog := if eventValid bytes ∧ d.bog.logFloor.toNat ≤ seqOf bytes ∧ d.er.sel.toNat ≤ seqOf bytes then [bytes] else []
  let here := (selectOnChip nv d.er.clearAreas d).toList.map fun x => (x.1, [x.2])
  selectEnds 0 (lowestRecord d.er.sel.toNat (here ++ [(2, bog)])) { d with er := { d.er with clearAreas := 0 } }

/-! ### Clearing (R415) -/

/-- CLEAR begins with its record. A CLEAR that finds no queue entry ends with STORE. -/
def startClear (tm : TimeBase) (src : Src) (areas : BitVec 4) (d : Device) : Device :=
  if d.sg.lc = .returned then endEr 2 d
  else if areas.getLsbD 1 then endEr 3 d
  else if (areas.getLsbD 2 || areas.getLsbD 3) && decide (d.bog.state ≠ .ready) then endEr 4 d
  else if d.er.bogOnly && areas.getLsbD 0 then endEr 5 d
  else
    let r := pushEvent tm false 0xC3 ([byte areas.toNat, byte (srcCode src), 0, 0] ++ leBytes 4 d.er.head.toNat) none none
      (endChains tm d.er)
    if r.2 then { d with er := { r.1 with busy := true, clearAreas := areas } } else endEr 5 { d with er := r.1 }

/-! ### The shutdown record (R305, R391) -/

/-- A shutdown record is lost: it is not written (R305). -/
def shutdownLost (d : Device) : Device := { d with hkt := { d.hkt with shutdown := none, tsdLost := satInc d.hkt.tsdLost } }

/-- SHUTDOWN_RECORD_WRITE: the record is put before every other operation, once a chunk program in progress has ended. -/
def writeShutdown (tm : TimeBase) (nv : NonVol) (d : Device) : Device :=
  match d.hkt.shutdown with
  | none => d
  | some payload =>
    if (d.ocs.current.toList ++ d.ocs.jobs).any fun j => decide (j.tag = .shutdown) then d
    else if (d.hkt.jmax.toInt > 2160) || !regionWritable d.ocs 6 || decide (d.er.seqNext = d.er.seqLimit) || d.er.seqEnd then
      shutdownLost d
    else
      match shutdownPlace nv d.ocs with
      | none => shutdownLost d
      | some addr =>
        let seq := d.er.seqNext
        let bs := encodeEvent seq tm.cal d.er.tgen d.er.unset 0x82 payload
        storePump nv (addJob ⟨eventSteps addr bs, .shutdown, .shutdown, false⟩
          { d with er := { d.er with seqNext := seq + 1, toCopy := d.er.toCopy ++ [(addr, bs.take 30 ++ [0, 0xFF])] } })

/-- The shutdown record is written. -/
def shutdownWritten (d : Device) : Device :=
  match d.er.toCopy.getLast? with
  | some x => { d with
      hkt := { d.hkt with shutdown := none }
      er := { d.er with head := BitVec.ofNat 32 (max d.er.head.toNat (seqOf x.2)) } }
  | none => d

/-- With the window open, each shutdown record is copied into the circulating area, and then its COPIED byte is written
(R305, R391). -/
def copyShutdowns (nv : NonVol) (d : Device) : Device :=
  if !d.hkt.storeWin || d.hkt.tsd || d.ocs.recovering || d.er.bogOnly
      || (d.ocs.current.toList ++ d.ocs.jobs).any (fun j => decide (j.tag = .copied) || decide (j.tag = .shutdown)) then d else
  match d.er.toCopy with
  | [] => d
  | (chunk, bs) :: _ =>
    match circulatingPlace d.ocs with
    | none => d
    | some (st, addr) =>
      storePump nv (addJob ⟨eventSteps addr bs ++ [.bytes [byteProg chunk 32 [0]]], .record, .copied, false⟩ { d with ocs := st })

/-- A shutdown record has been copied: its permanent copy follows, the next one is taken, and with fewer than four erased
chunks and all copied the region is erased (R391). -/
def shutdownCopied (nv : NonVol) (d : Device) : Device :=
  let done := d.er.toCopy.head?
  let d := { d with er := { d.er with toCopy := d.er.toCopy.drop 1 } }
  let d := match done with
    | some x => rotateCirculating nv (copyPermanent nv x.2 d)
    | none => d
  let left := ((shutdownChunks d.ocs).filter fun a => groupErased nv a 32).length
  let d := match shutdownSector d.ocs with
    | some p => if left < 4 ∧ d.er.toCopy.isEmpty then storePump nv (addJob (eraseJob d.ocs p 50) d) else d
    | none => d
  copyShutdowns nv d

/-! ### Power failure (R412) -/

/-- PFAIL_N falls: at most four record writes, the first of them BROWNOUT, unless the brownout goes on (R37). -/
def recorderFails (tm : TimeBase) (first : Bool) (d : Device) : Device :=
  let n := d.er.queue.length
  let d := if first then
      { d with er := { d.er with pfail := true, pfailLeft := 4, pfailAt := tm.us.toNat, pfailLow := 0 } }
    else { d with er := { d.er with pfail := true, pfailAt := tm.us.toNat } }
  if first then raiseHead tm 0x02 (leBytes 1 n) d else d

/-- PFAIL_N rises: the time that it was low. -/
def recorderRises (tm : TimeBase) (d : Device) : Device :=
  { d with er := { d.er with pfailLow := d.er.pfailLow + (tm.us.toNat - d.er.pfailAt) } }

/-- PFAIL_N has been high for 10 ms: BROWNOUT_END. -/
def recorderRecovers (tm : TimeBase) (d : Device) : Device :=
  raise tm 0x03 (leBytes 4 (min d.er.pfailLow 0xFFFF_FFFF)) { d with er := { d.er with pfail := false } }

end Sys2Proof.Machine
end

