-- ==== Sys2Proof/Machine/Archive.lean ====
section
/-! DEFINITION. The archive and the waveform capture (spec 16_ash_and_bog.md, R416 to R423): discovery, the geometry, log
blocks, worn blocks, detaching and clearing; sampling, freezing and the copy. The archive flash is outside the device: the model
holds the blocks that the operation in progress writes, and the flash's answer is the operand of ARCHIVE_FLASH_OPERATION_END. -/

namespace Sys2Proof.Machine

/-! ### Geometry (R416, R417) -/

/-- Is a device used: SFDP of major version 1, a 4 KB erase, 8 MB to 64 MB? -/
def flashUsable (f : FlashInfo) : Bool :=
  f.sfdp && decide (f.major = 1) && f.erase4k && decide (2048 ≤ f.blocks.toNat) && decide (f.blocks.toNat ≤ 16384)

/-- All blocks of the archive. -/
def bogTotal (b : Bog) : Nat := (bankGet b.blocks 0).toNat + (bankGet b.blocks 1).toNat

/-- The spares at the end. -/
def bogSpares (total : Nat) : Nat := ceilDiv total 64

/-- The log's blocks at FORMAT. -/
def bogLog (total pct : Nat) : Nat := max 16 (pct * (total - 2 - bogSpares total) / 100)

/-- LOG_PCT as FORMAT uses it. -/
def formatPct (b : Bog) : Nat := max 10 (min 90 b.logPct.toNat)

/-- The logical blocks of the log start at block 2, those of the captures follow. -/
def inLog (b : Bog) (logical : Nat) : Bool := decide (2 ≤ logical) && decide (logical < 2 + b.logNominal.toNat)

/-- Dropped blocks of a region. -/
def droppedIn (b : Bog) (log : Bool) : Nat :=
  (b.remaps.filter fun m => decide (m.physical = 0xFFFF_FFFF) && (inLog b m.logical.toNat == log)).length

/-- The spares that a remap has taken. -/
def takenSpares (b : Bog) : List Nat := (b.remaps.filter fun m => decide (m.physical ≠ 0xFFFF_FFFF)).map fun m => m.physical.toNat

/-- The lowest free spare. -/
def lowestSpare (b : Bog) : Option Nat :=
  let t := bogTotal b
  ((List.range (bogSpares t)).map fun i => t - bogSpares t + i).find? fun x => !(takenSpares b).contains x

/-- The registers of the geometry, from the blocks, LOG_PCT and the remaps in force. -/
def settleBog (b : Bog) : Bog :=
  let t := bogTotal b
  let log := bogLog t b.pct
  let b := { b with logNominal := BitVec.ofNat 16 log }
  { b with
    logBlocks := BitVec.ofNat 16 (log - droppedIn b true)
    capBlocks := BitVec.ofNat 16 (t - 2 - bogSpares t - log - droppedIn b false)
    spares := BitVec.ofNat 16 (bogSpares t - (takenSpares b).length)
    worn := BitVec.ofNat 16 b.remaps.length
    captures := BitVec.ofNat 16 b.capParts.length }

/-! ### Blocks (R417, R418, Table 16-3) -/

/-- A block of the archive, COMMIT written. -/
def bogBlock (d : Device) (kind count part first : Nat) (bseq : Word) (body : List Byte) : List Byte :=
  let head := [0x45, 0x48, 0x42, 0x47] ++ leBytes 1 kind ++ leBytes 1 count ++ leBytes 2 part ++ leBytes 4 bseq.toNat
    ++ leBytes 4 first ++ leBytes 8 Config.uid.toNat ++ leBytes 8 d.str.installId.toNat ++ body.takeD 4056 0
  head ++ leBytes 4 (crc32c head) ++ [0, 0, 0, 0]

/-- The body of a control block. -/
def controlBody (b : Bog) (x : BogPlan) : List Byte :=
  leBytes 2 1 ++ leBytes 1 (bit (b.present.getLsbD 0) + bit (b.present.getLsbD 1)) ++ leBytes 1 x.pct
    ++ leBytes 4 (bankGet b.blocks 0).toNat ++ leBytes 4 (bankGet b.blocks 1).toNat
    ++ leBytes 4 x.logFloor.toNat ++ leBytes 4 x.capFloor.toNat ++ leBytes 2 x.remaps.length ++ [0, 0]
    ++ x.remaps.flatMap fun m => leBytes 4 m.logical.toNat ++ leBytes 4 m.physical.toNat

/-- A written control block is in force. -/
def takePlan (b : Bog) : Bog :=
  match b.plan with
  | some x => { b with plan := none, pct := x.pct, logFloor := x.logFloor, capFloor := x.capFloor, remaps := x.remaps }
  | none => b

/-- The differences of R422 as nibbles, oldest sample first. -/
def deltaNibbles (prev : BitVec 16) : List (BitVec 16) → List Nat
  | [] => []
  | x :: xs =>
    let v := (x - prev).toInt
    (if -7 ≤ v ∧ v ≤ 7 then [(v + 7).toNat]
     else [0xF, x.toNat / 4096, x.toNat / 256 % 16, x.toNat / 16 % 16, x.toNat % 16]) ++ deltaNibbles x xs

/-- The stream of one channel (R422). -/
def capStream : List (BitVec 16) → List Byte
  | [] => []
  | x :: xs => leBytes 2 x.toNat ++ packNibbles (deltaNibbles x xs)

/-- CHANNELS: 0 is taken as 1, and no more than 16 are there. -/
def capChannels (c : Capture) : Nat := max 1 (min 16 c.channels.toNat)

/-- The buffer's samples, oldest first. Places that the capture has not filled hold zero since the wipe (R38); what is left in them
of an earlier capture is free. -/
def capSamples (c : Capture) : List (List (BitVec 16)) :=
  let missing := c.len.toNat - c.samples.length
  let place (i k : Nat) : BitVec 16 := if c.wiped then 0 else Config.unfilledSample c.lastId i k
  ((List.range missing).map fun i => (List.range (capChannels c)).map (place i)) ++ c.samples.reverse

/-- A capture as it is stored: the header and the streams (R422). -/
def capBytes (c : Capture) : List Byte :=
  let samples := capSamples c
  let streams := (List.range (capChannels c)).map fun k => capStream (samples.map fun s => s.getD k 0)
  let parts := ceilDiv (160 + (streams.map (·.length)).sum) 4056
  let head := leBytes 4 c.trigSeq.toNat ++ leBytes 6 c.trigTime.toNat ++ leBytes 1 (capChannels c) ++ [0]
    ++ leBytes 2 (max 1 c.div.toNat) ++ leBytes 2 c.pre.toNat ++ leBytes 2 c.len.toNat ++ leBytes 2 parts
  head.takeD 32 0
    ++ (List.finRange 16).flatMap (fun i =>
      let s := bankGet c.sources i
      leBytes 1 s.kind.toNat ++ [0] ++ leBytes 2 s.index.toNat)
    ++ (List.range 16).flatMap (fun i => leBytes 4 (streams.getD i []).length)
    ++ streams.flatten

/-- Bytes cut into parts. -/
def cutParts : Nat → List Byte → List (List Byte)
  | 0, _ => []
  | fuel + 1, bs => if bs.isEmpty then [] else bs.take 4056 :: cutParts fuel (bs.drop 4056)

/-! ### Commands and their end -/

/-- A bog command ends. -/
def endBog (res : Nat) (d : Device) : Device :=
  { d with bog := { d.bog with cmdBusy := false, result := byte res } }

/-- A BOG event (Table 16-2). -/
def raiseBog (tm : TimeBase) (event device block detail : Nat) (d : Device) : Device :=
  let d := { d with er := { d.er with intStatus := setBit d.er.intStatus 3 } }
  raise tm 0xD0 (leBytes 1 event ++ leBytes 1 device ++ [0, 0] ++ leBytes 4 block ++ leBytes 4 detail) d

/-- The device that holds a block. -/
def blockDevice (b : Bog) (block : Nat) : Nat := if block < (bankGet b.blocks 0).toNat then 0 else 1

/-- A CLEAR's part on the chip is done or was not asked for (R415): the archive's part waits, or the command ends. -/
def finishClear (d : Device) : Device :=
  if d.er.clearAreas.getLsbD 2 || d.er.clearAreas.getLsbD 3 then
    { d with er := { d.er with clearAreas := clearBit d.er.clearAreas 0 } }
  else endEr 0 { d with er := { d.er with clearSeq := none, clearAreas := 0 } }

/-- CLEAR waits for the archive's control block. -/
def clearWaitsBog (d : Device) : Bool :=
  d.er.busy && d.er.clearSeq.isSome && !d.er.clearAreas.getLsbD 0
    && (d.er.clearAreas.getLsbD 2 || d.er.clearAreas.getLsbD 3)

/-- The archive fails (R420): what waits for it ends. -/
def bogFail (tm : TimeBase) (device : Nat) (d : Device) : Device :=
  let op := d.bog.op
  let d := { d with
    bog := { d.bog with
      state := .failed
      op := none
      resume := none
      plan := none
      controlDue := false
      tries := 0
      out := []
      intStatus := setBit d.bog.intStatus 4 }
    cap := { d.cap with copying := false } }
  let d := raiseBog tm 7 device 0 0 d
  let d := if d.bog.cmdBusy then endBog 5 d else d
  if op = some .select ∨ clearWaitsBog d then
    endEr 4 { d with er := { d.er with found := false, clearSeq := none, clearAreas := 0 } }
  else d

/-! ### What the archive does next -/

/-- The control block is written next: with the floors that a CLEAR asks for (R415 step 4). -/
def startControl (resume : Option BogOp) (d : Device) : Device :=
  let b := d.bog
  let clears := clearWaitsBog d
  let x : BogPlan := {
    pct := b.pct
    logFloor := if clears && d.er.clearAreas.getLsbD 2 then d.er.clearSeq.getD 0 else b.logFloor
    capFloor := if clears && d.er.clearAreas.getLsbD 3 then d.cap.lastId + 1 else b.capFloor
    remaps := b.remaps }
  { d with bog := { b with
    op := some .control
    resume := resume
    plan := some x
    tries := 0
    out := [bogBlock d 3 0 0 0 (b.bseq + 1) (controlBody b x)] } }

/-- The copy of a frozen buffer begins (R421, R422). -/
def startCopy (d : Device) : Device :=
  let parts := cutParts 64 (capBytes d.cap)
  let blocks := parts.zipIdx.map fun x =>
    bogBlock d 2 0 x.2 d.cap.lastId.toNat (d.bog.bseq + BitVec.ofNat 32 (x.2 + 1)) x.1
  { d with
    bog := { d.bog with op := some .capture, tries := 0, out := blocks }
    cap := { d.cap with copying := true, copyDue := false } }

/-- With the bus free, the archive writes an owed control block, or copies a frozen buffer; but transfers pause while the supervisor
does not run (R16). -/
def bogPump (tm : TimeBase) (d : Device) : Device :=
  if d.bog.op.isSome then d
  else if d.bog.state ≠ .ready then
    if clearWaitsBog d then endEr 4 { d with er := { d.er with clearSeq := none, clearAreas := 0 } } else d
  else if !supRunning tm d then d
  else if d.bog.controlDue || clearWaitsBog d then startControl none d
  else if d.cap.copyDue && decide (d.cap.state = .frozen) then startCopy d
  else d

/-! ### Discovery (R416, R417) -/

/-- Discovery starts: after READY and on DISCOVER. -/
def startDiscover (d : Device) : Device :=
  { d with bog := { d.bog with state := .discovering, op := some (.discover d.bog.state), tries := 0 } }

/-- What the device takes of the flash devices that discovery read. -/
def takeFlash (d0 d1 : Option FlashInfo) (b : Bog) : Bog :=
  let use (x : Option FlashInfo) : Option FlashInfo := match x with
    | some f => if flashUsable f then some f else none
    | none => none
  let pick (i : Fin 2) : Option FlashInfo := if i = 0 then use d0 else use d1
  { b with
    present := BitVec.ofNat 2 (bit (use d0).isSome + 2 * bit (use d1).isSome)
    blocks := bankOf fun i => match pick i with | some f => f.blocks | none => 0
    mfr := bankOf fun i => match pick i with | some f => f.mfr | none => 0
    quad := bankOf fun i => match pick i with | some f => f.quad | none => false }

/-- FORMAT writes both control blocks (R417); until they are written the archive is as it was. -/
def startFormat (d : Device) : Device :=
  let b := d.bog
  let x : BogPlan := {
    pct := formatPct b
    logFloor := 0
    capFloor := 0
    remaps := if b.state = BogState.ready then b.remaps else [] }
  { d with bog := { b with
    op := some .format
    plan := some x
    tries := 0
    out := [bogBlock d 3 0 0 0 (b.bseq + 1) (controlBody b x), bogBlock d 3 0 0 0 (b.bseq + 2) (controlBody b x)] } }

/-- Discovery ends (R416, R417). -/
def discovered (tm : TimeBase) (d0 d1 : Option FlashInfo) (control : Option ControlInfo) (d : Device) : Device :=
  let b := takeFlash d0 d1 { d.bog with op := none, out := [] }
  let found (b : Bog) : Bog := { b with intStatus := setBit b.intStatus 0 }
  if b.present.getLsbD 0 = false then
    match d0 with
    | none => endBog (if d.bog.cmdBusy then 5 else d.bog.result.toNat)
        { d with bog := { b with state := .absent, present := 0, blocks := bankFill 2 0 } }
    | some _ => bogFail tm 0 { d with bog := { b with present := 0 } }
  else
    match control with
    | some c =>
      if c.uid ≠ Config.uid then endBog 0 (raiseBog tm 3 0 0 0 { d with bog := found { b with state := .foreign } })
      else
        let b := settleBog { b with
          state := .ready
          bseq := c.bseq
          pct := c.logPct.toNat
          logFloor := c.logFloor
          capFloor := c.capFloor
          remaps := c.remaps.take 500
          logHead := c.logHead
          logTail := c.logTail
          capParts := c.captures.map (·.toNat) }
        bogPump tm (endBog 0 (raiseBog tm 1 0 0 0 { d with bog := found b }))
    | none =>
      let d := { d with bog := found { b with state := .foreign } }
      if d.bog.autoformat then startFormat (raiseBog tm 1 0 0 0 d) else endBog 0 (raiseBog tm 1 0 0 0 d)

/-- FORMAT ends: the regions are set and hold nothing. -/
def formatted (tm : TimeBase) (d : Device) : Device :=
  let b := settleBog { takePlan d.bog with
    op := none
    out := []
    state := .ready
    bseq := d.bog.bseq + 2
    logHead := 0
    logTail := 0
    capParts := [] }
  bogPump tm (endBog 0 (raiseBog tm 4 0 0 0 { d with bog := b }))

/-! ### The log (R418, R419) -/

/-- FLUSH in seconds. -/
def flushOf (b : Bog) : Nat := max 1 b.flush.toNat

/-- A list of records by SEQ. -/
def insertBySeq (x : List Byte) : List (List Byte) → List (List Byte)
  | [] => [x]
  | y :: ys => if seqOf x ≤ seqOf y then x :: y :: ys else y :: insertBySeq x ys

/-- The first SEQ that the log still needs: behind its head, and not below the circulating TAIL. -/
def logFrom (d : Device) : Nat := max (d.bog.logHead.toNat + 1) d.er.tail.toNat

/-- The records that wait for the log, by SEQ. -/
def logWaiting (nv : NonVol) (d : Device) : List (List Byte) :=
  if d.er.bogOnly then d.bog.buffer
  else ((regionEvents d.draws nv d.ocs 8).filter fun b => decide (logFrom d ≤ seqOf b)).foldr insertBySeq []

/-- A log block begins; records that the circulating area no longer has are skipped, and recorded so (R419). -/
def startLog (tm : TimeBase) (nv : NonVol) (detach : Bool) (d : Device) : Device :=
  let rs := (logWaiting nv d).take 126
  match rs.getLast? with
  | none => d
  | some last =>
    let skipped := logFrom d - (d.bog.logHead.toNat + 1)
    let d := if skipped > 0 ∧ !d.er.bogOnly then raiseBog tm 8 0 0 skipped d else d
    { d with bog := { d.bog with
      op := some (.log rs (word (seqOf last)) detach)
      tries := 0
      out := [bogBlock d 1 rs.length 0 (seqOf (rs.headD [])) (d.bog.bseq + 1) rs.flatten] } }

/-- BOG_BLOCK_WRITE: with 126 records waiting, or FLUSH seconds after the oldest; writing pauses while the supervisor is not
running. -/
def writeLogBlock (tm : TimeBase) (nv : NonVol) (d : Device) : Device :=
  let due : Bool := match d.bog.oldest with
    | some t => decide (t + flushOf d.bog * 800000000 ≤ tm.time.toNat)
    | none => false
  if d.bog.state ≠ .ready ∨ d.bog.op.isSome ∨ !supRunning tm d then d
  else if due ∨ 126 ≤ (logWaiting nv d).length then startLog tm nv false d
  else d

/-- A log block is written; `reused` is the highest SEQ that the block it took over held. Under BOG_ONLY this commits its
records, whose permanent copies follow (R405, R408). -/
def logWritten (tm : TimeBase) (nv : NonVol) (records : List (List Byte)) (last : Word) (detach : Bool) (reused : Option Word)
    (d : Device) : Device :=
  let only := d.er.bogOnly
  let b := { d.bog with
    op := none
    out := []
    bseq := d.bog.bseq + 1
    logHead := last
    logTail := match reused with
      | some x => if d.bog.logTail.toNat ≤ x.toNat then x + 1 else d.bog.logTail
      | none => d.bog.logTail
    buffer := if only then d.bog.buffer.filter (fun x => !records.contains x) else d.bog.buffer }
  let d := { d with bog := b, er := if only then { d.er with head := last } else d.er }
  let left := !(logWaiting nv d).isEmpty
  let d := { d with bog := { d.bog with oldest := if left then some tm.time.toNat else none } }
  let d := if only then records.foldl (fun d r => copyPermanent nv r d) d else d
  if detach then raiseBog tm 2 0 0 0 (endBog 0 { d with bog := { d.bog with state := .detached } })
  else bogPump tm d

/-! ### Worn blocks (R420) -/

/-- The logical block that stands at a physical one. -/
def logicalOf (b : Bog) (block : Nat) : Word :=
  match b.remaps.reverse.find? fun m => decide (m.physical.toNat = block) with
  | some m => m.logical
  | none => word block

/-- A block has failed twice: it is worn, and its place goes to a spare or is dropped. -/
def wornBlock (tm : TimeBase) (block : Nat) (d : Device) : Device :=
  let dev := blockDevice d.bog block
  let logical := logicalOf d.bog block
  let d := raiseBog tm 5 dev block 0 { d with bog := { d.bog with intStatus := setBit d.bog.intStatus 1, tries := 0 } }
  let op := d.bog.op
  if op = some .control ∨ op = some .format ∨ block < 2 ∨ d.bog.remaps.length ≥ 500 then bogFail tm dev d else
  match lowestSpare d.bog with
  | some s =>
    let b := settleBog { d.bog with remaps := d.bog.remaps ++ [⟨logical, word s⟩], controlDue := true }
    startControl op (raiseBog tm 6 (blockDevice d.bog s) s 0 { d with bog := b })
  | none =>
    let b := settleBog { d.bog with
      remaps := d.bog.remaps ++ [⟨logical, 0xFFFF_FFFF⟩]
      controlDue := true
      intStatus := setBit d.bog.intStatus 2 }
    let log := inLog b logical.toNat
    let units := if log then b.logBlocks.toNat else b.capBlocks.toNat
    let area := if log then 2 else 3
    let d := { d with bog := b, er := { d.er with intStatus := setBit d.er.intStatus 1 } }
    let d := raise tm 0xC5 ([byte area, 0] ++ leBytes 2 units ++ leBytes 4 (Config.bogWindow area units).toNat) d
    if b.logBlocks.toNat < 16 then bogFail tm dev d else startControl op d

/-! ### The capture's copy -/

/-- Captures that stay when one of p parts joins them: the oldest are reused first (R422). -/
def keepCaptures (room p : Nat) : List Nat → List Nat
  | [] => []
  | x :: xs => if (x :: xs).sum + p ≤ room then x :: xs else keepCaptures room p xs

/-- The buffer is armed afresh: what the last capture left stays in it. -/
def rearm (c : Capture) : Capture :=
  { c with state := .armed, samples := [], postLeft := 0, wiped := c.wiped && c.samples.isEmpty }

/-- CAPTURE_COPY_COMPLETE: the copy is in the capture region, and the buffer is armed again with AUTO_REARM. -/
def copyComplete (tm : TimeBase) (d : Device) : Device :=
  if d.bog.op ≠ some .capture ∨ supRunning tm d = false then d else
  let p := d.bog.out.length
  let room := d.bog.capBlocks.toNat
  let parts := if p ≤ room then keepCaptures room p d.bog.capParts ++ [p] else []
  let cap := { d.cap with copying := false }
  bogPump tm { d with
    bog := settleBog { d.bog with op := none, out := [], bseq := d.bog.bseq + BitVec.ofNat 32 p, capParts := parts }
    cap := if cap.state = .frozen ∧ cap.autoRearm then rearm cap else cap }

/-! ### ARCHIVE_FLASH_OPERATION_END -/

/-- The control block in force has been written: what waited for it goes on. -/
def controlWritten (tm : TimeBase) (d : Device) : Device :=
  let clear := clearWaitsBog d
  let caps := clear && d.er.clearAreas.getLsbD 3
  let b := settleBog { takePlan d.bog with
    op := d.bog.resume
    resume := none
    controlDue := false
    bseq := d.bog.bseq + 1
    out := []
    capParts := if caps then [] else d.bog.capParts }
  let d := { d with bog := b }
  let d := if clear then endEr 0 { d with er := { d.er with clearSeq := none, clearAreas := 0 } } else d
  match d.bog.op with
  | some (.log rs last det) => { d with bog := { d.bog with
      op := some (.log rs last det)
      out := [bogBlock d 1 rs.length 0 (seqOf (rs.headD [])) (d.bog.bseq + 1) rs.flatten] } }
  | some .capture => startCopy d
  | _ => bogPump tm d

/-- A quad SPI operation ends (R416 to R420); none does while the supervisor does not run (R16). An answer of a kind that the
operation in progress does not have changes nothing. -/
def archiveEnd (tm : TimeBase) (nv : NonVol) (res : ArchiveResult) (d : Device) : Device :=
  if !supRunning tm d then d else
  match d.bog.op, res with
  | some (.discover _), .discovered d0 d1 c => discovered tm d0 d1 c d
  | some .format, .done => formatted tm d
  | some .control, .done => controlWritten tm d
  | some (.log rs last det), .done => logWritten tm nv rs last det none d
  | some (.log rs last det), .reused x => logWritten tm nv rs last det (some x) d
  | some .readBlock, .bytes bs =>
    bogPump tm (endBog 0 { d with bog := { d.bog with op := none, rbuf := slice bs 0 4096 } })
  | some .select, .bytes bs => bogPump tm (selectFromBog nv bs { d with bog := { d.bog with op := none } })
  | some .format, .failed b | some .control, .failed b | some (.log _ _ _), .failed b | some .capture, .failed b =>
    if d.bog.tries = 0 then { d with bog := { d.bog with tries := 1 } } else wornBlock tm b.toNat d
  | _, _ => d

/-! ### Commands of BOG.CMD -/

/-- A bog command: BUSY while one is in progress or the bus is in use. -/
def bogCommand (f : Device → Device) (d : Device) : Device :=
  if d.bog.cmdBusy || d.bog.op.isSome then { d with bog := { d.bog with result := 1 } }
  else f d

/-- DISCOVER. -/
def bogDiscover (d : Device) : Device :=
  bogCommand (fun d => startDiscover { d with bog := { d.bog with cmdBusy := true } }) d

/-- DETACH: any waiting log block is written first. -/
def bogDetach (tm : TimeBase) (nv : NonVol) (d : Device) : Device :=
  bogCommand (fun d =>
    if d.bog.state ≠ .ready then endBog 4 d
    else if (logWaiting nv d).isEmpty then
      raiseBog tm 2 0 0 0 (endBog 0 { d with bog := { d.bog with state := .detached } })
    else startLog tm nv true { d with bog := { d.bog with cmdBusy := true } }) d

/-- FORMAT. -/
def bogFormat (d : Device) : Device :=
  bogCommand (fun d =>
    if d.bog.state = .ready ∨ d.bog.state = .foreign then startFormat { d with bog := { d.bog with cmdBusy := true } }
    else endBog 4 d) d

/-- READ_BLOCK. -/
def bogReadBlock (block : Nat) (d : Device) : Device :=
  bogCommand (fun d =>
    if d.bog.state ≠ .ready then endBog 4 d
    else if bogTotal d.bog ≤ block then endBog 5 d
    else { d with bog := { d.bog with cmdBusy := true, op := some .readBlock } }) d

/-- READ_CAPBUF: 4 KB of the capture buffer; where a sample stands in it is free (assumption 1). -/
def bogReadCapbuf (part : Nat) (d : Device) : Device :=
  bogCommand (fun d =>
    if part > 31 then endBog 5 d
    else
      let c := d.cap
      let run := (capSamples c).flatten.flatMap fun x => leBytes 2 x.toNat
      let data := (List.range 4096).map fun i =>
        run.getD (Config.captureLayout (capChannels c) c.len.toNat (4096 * part + i)) 0
      endBog 0 { d with bog := { d.bog with rbuf := data } }) d

/-- ABORT of FUNC 0x04 (R423): was an operation stopped? The archive is as it was before it (R26). -/
def bogAbort (d : Device) : Device × Bool :=
  match d.bog.op with
  | none => (d, false)
  | some op =>
    let stop := { d with bog := { d.bog with op := none, resume := none, plan := none, tries := 0, out := [] } }
    let dropCopy (d : Device) : Device := { d with cap := rearm { d.cap with copying := false } }
    let cmd (d : Device) : Device := if d.bog.cmdBusy then endBog 3 d else d
    (match op with
      | .discover was => cmd { stop with bog := { stop.bog with state := was } }
      | .capture => dropCopy stop
      | .select => endEr 4 { stop with er := { stop.er with found := false, clearAreas := 0 } }
      | .control =>
        let d := if clearWaitsBog stop then endEr 4 { stop with er := { stop.er with clearSeq := none, clearAreas := 0 } } else stop
        cmd (if d.cap.copying then dropCopy d else d)
      | .format | .log _ _ _ | .readBlock => cmd stop, true)

/-! ### Capture (R421) -/

/-- A sample of a source (Table 16-4); a KIND or INDEX that the table does not have gives a free value. -/
def capSample (d : Device) (s : CapSource) : BitVec 16 :=
  let free := Config.capUnlisted s.kind s.index
  let rail (f : Fin 64 → BitVec 16) : BitVec 16 := match fin? 64 s.index.toNat with
    | some r => f r
    | none => free
  let ph := d.phase (Fin.ofNat 512 s.index.toNat)
  match s.kind.toNat with
  | 0 => 0
  | 1 => rail fun r => BitVec.ofNat 16 ((d.loop r).vfb.toNat / 16)
  | 2 => rail fun r => BitVec.ofNat 16 (targetOf (d.rail r) / 16)
  | 3 => rail fun r => satInt 16 (railCurrent d r / 100)
  | 4 => rail fun r => BitVec.ofInt 16 ((d.loop r).dem / 65536)
  | 5 => satInt 16 (ph.imeas / 16384)
  | 6 => BitVec.ofNat 16 ph.duty
  | 7 => match fin? 8 s.index.toNat with
    | some v => (bankGet d.le.vsense v).getD 0
    | none => free
  | 8 => match fin? 96 s.index.toNat with
    | some n => BitVec.ofInt 16 (bankGet d.hkt.chans n).value
    | none => free
  | _ => free

/-- The samples of all channels now. -/
def capRow (d : Device) : List (BitVec 16) :=
  ((List.finRange 16).take (capChannels d.cap)).map fun i => capSample d (bankGet d.cap.sources i)

/-- CAPTURE_SAMPLE: one sample of every channel; after the last one the buffer freezes and its copy begins. -/
def takeSample (tm : TimeBase) (d : Device) : Device :=
  let c := d.cap
  match c.state with
  | .armed => { d with cap := { c with samples := (capRow d :: c.samples).take c.pre.toNat } }
  | .post =>
    let c := { c with samples := (capRow d :: c.samples).take c.len.toNat, postLeft := c.postLeft - 1 }
    if c.postLeft = 0 then bogPump tm { d with cap := { c with state := .frozen, copyDue := true } }
    else { d with cap := c }
  | .stopped | .frozen => d

/-- ARM: from STOPPED, or from FROZEN with no copy in progress. -/
def capArm (d : Device) : Device :=
  if (d.cap.state = .stopped ∨ d.cap.state = .frozen) ∧ !d.cap.copying then
    { d with cap := { rearm d.cap with copyDue := false } }
  else d

/-- STOP. -/
def capStop (d : Device) : Device := { d with cap := { d.cap with state := .stopped, copyDue := false } }

/-- The highest LEN for a number of channels. -/
def capLenMax (channels : Nat) : Nat := min 65535 (65536 / max 1 channels)

/-- Writes of the configuration act only in STOPPED; LEN and PRE are clamped. -/
def capConfigure (f : Capture → Capture) (d : Device) : Device :=
  if d.cap.state ≠ .stopped then d else
  let c := f d.cap
  let len := max 1 (min (capLenMax (capChannels c)) c.len.toNat)
  { d with cap := { c with len := BitVec.ofNat 16 len, pre := BitVec.ofNat 16 (min c.pre.toNat (len - 1)) } }

end Sys2Proof.Machine
end

