-- ==== Sys2Proof/Machine/Billet.lean ====
section
/-! DEFINITION. The structure image (spec 03_structure_image.md, R57 to R74): its header and section frames, the checks of
each body, the clamp of every field with its report, and the engine load. -/

namespace Sys2Proof.Machine

/-! ### Result codes and reasons -/

/-- Results of a loader command (Table 3-15). -/
inductive ImgResult where
  | ok
  | header
  | target
  | sectionCrc
  | order
  | struct
  | reference
  | load
  | owned
  | capacity
  | startupOnly
  | tripped
  | aborted
  | busy
  | state
  | denied
  | store
  | unconfirmable
  | badOp
deriving DecidableEq, Repr

/-- Table 3-15. -/
def ImgResult.code : ImgResult → Byte
  | .ok => 0x00 | .header => 0x01 | .target => 0x02 | .sectionCrc => 0x03 | .order => 0x04 | .struct => 0x05
  | .reference => 0x06 | .load => 0x07 | .owned => 0x08 | .capacity => 0x09 | .startupOnly => 0x0A | .tripped => 0x0B
  | .aborted => 0x0C | .busy => 0x0D | .state => 0x0E | .denied => 0x0F | .store => 0x10 | .unconfirmable => 0x11
  | .badOp => 0x12

/-- A clamp of one field before it stands in a report (R72): offset and width of the field, value in the image, value in
force and reason. -/
structure Mark where
  off : Nat
  width : Nat
  written : Int
  applied : Int
  reason : Nat
deriving DecidableEq, Repr

/-- Checking fields in order, with the clamps so far. -/
abbrev Chk := StateM (List Mark)

/-- One clamp is noted. -/
def noteMark (m : Mark) : Chk Unit := modify (· ++ [m])

/-! ### Fields (R71, R72) -/

/-- One side of a range: a fixed bound, a bound taken from another field's applied value, or both. -/
inductive Limit where
  | fixed (v : Int)
  | other (v : Int)
  | both (v w : Int)
deriving DecidableEq, Repr

/-- The lower bound, and whether it is the other field's. -/
def Limit.low : Limit → Int × Bool
  | .fixed v => (v, false)
  | .other v => (v, true)
  | .both v w => if w > v then (w, true) else (v, false)

/-- The upper bound, and whether it is the other field's. -/
def Limit.high : Limit → Int × Bool
  | .fixed v => (v, false)
  | .other v => (v, true)
  | .both v w => if w < v then (w, true) else (v, false)

/-- A value checked against its range (R71, R72). `raw` is what the image holds. -/
def checkRange (off w : Nat) (raw v : Int) (lo hi : Limit) : Chk Int :=
  if v < lo.low.1 then do
    noteMark ⟨off, w, raw, lo.low.1, if lo.low.2 then 4 else 1⟩
    return lo.low.1
  else if v > hi.high.1 then do
    noteMark ⟨off, w, raw, hi.high.1, if hi.high.2 then 4 else 2⟩
    return hi.high.1
  else return v

/-- An unsigned field. -/
def uField (b : List Byte) (off w : Nat) (lo hi : Limit) : Chk Nat := do
  let raw := leAt b off w
  return (← checkRange off w raw raw lo hi).toNat

/-- A signed field. -/
def sField (b : List Byte) (off w : Nat) (lo hi : Limit) : Chk Int :=
  let raw := leSigned b off w
  checkRange off w raw raw lo hi

/-- A field with reserved bits: those outside `low` bits are cleared first. -/
def bitField (b : List Byte) (off w low : Nat) : Chk Nat :=
  let raw := leAt b off w
  let v := raw % 2 ^ low
  if v = raw then return v else do
    noteMark ⟨off, w, raw, v, 5⟩
    return v

/-- A set-point field: bits [31:20] are reserved. -/
def setPoint (b : List Byte) (off : Nat) (lo hi : Limit) : Chk Nat := do
  let v ← bitField b off 4 20
  return (← checkRange off 4 (leAt b off 4) v lo hi).toNat

/-- An enumerated field. -/
def enumField (b : List Byte) (off w : Nat) (ok : Nat → Bool) (other : Nat) : Chk Nat :=
  let raw := leAt b off w
  if ok raw then return raw else do
    noteMark ⟨off, w, raw, other, 3⟩
    return other

/-- A source field: an input 0 to 7, or none under its code. -/
def srcField (b : List Byte) (off code : Nat) : Chk VSource := do
  return fin? 8 (← enumField b off 1 (fun v => decide (v < 8) || decide (v = code)) code)

/-- A rail field: 0 to 63, or none as 0xFF. -/
def railField (b : List Byte) (off : Nat) : Chk (Option (Fin 64)) := do
  return fin? 64 (← enumField b off 1 (fun v => decide (v < 64) || decide (v = 0xFF)) 0xFF)

/-- Actions on the indices 0 to n - 1 in order, as a bank. -/
def bankM {n : Nat} {α : Type} (dflt : α) (f : Fin n → Chk α) : Chk (Bank n α) :=
  (List.finRange n).foldlM (fun b i => do return bankSet b i (← f i)) (bankFill n dflt)

/-! ### Bodies -/

/-- DEVICE (R63). -/
def clampDevice (b : List Byte) : Chk DeviceSect := do
  let feed ← uField b 0x00 4 (.fixed 1000000) (.fixed 2000000000)
  let alone ← uField b 0x04 4 (.fixed 0) (.other feed)
  let size ← uField b 0x08 1 (.fixed 1) (.fixed 8)
  let pos ← uField b 0x09 1 (.fixed 0) (.other (size - 1))
  let smoulder ← bitField b 0x0A 1 4
  let stor ← srcField b 0x0B 0xFF
  let fsrc ← srcField b 0x0C 0xFF
  let groups ← bankM (n := 8) (0, false) fun g => do
    let p ← uField b (0x10 + 4 * g.val) 2 (.fixed 800) (.fixed 40000)
    let e ← enumField b (0x12 + 4 * g.val) 1 (fun v => decide (v < 2)) 0
    return (p, decide (e = 1))
  let vs ← bankM (n := 8) (0, 0) fun v => do
    let s ← uField b (0x30 + 8 * v.val) 4 (.fixed 1) (.fixed 100000)
    let o ← sField b (0x34 + 8 * v.val) 4 (.fixed (-262144)) (.fixed 262143)
    return (s, o)
  return {
    feedLimit := feed
    standalone := alone
    ringSize := size
    ringPos := pos
    smoulder := BitVec.ofNat 4 smoulder
    storageSrc := stor
    feedSrc := fsrc
    fgPeriod := bankMap groups fun _ g => g.1
    fgEnable := bankMap groups fun _ g => g.2
    vsScale := bankMap vs fun _ v => v.1
    vsOffset := bankMap vs fun _ v => v.2 }

/-- An entry of LANES (R64) at an offset. -/
def clampLane (b : List Byte) (at' : Nat) : Chk LaneEntry := do
  let mode ← enumField b at' 1 (fun v => decide (v < 3)) 1
  let rating ← uField b (at' + 2) 2 (.fixed 0) (.fixed 10000)
  return ⟨Fin.ofNat 3 mode, byte (leAt b (at' + 1) 1), rating⟩

/-- A mantissa that no template uses is set to zero (R65). -/
def unusedField (b : List Byte) (off : Nat) (unused : Bool) : Chk Word :=
  let raw := leSigned b off 4
  if unused && decide (raw ≠ 0) then do
    noteMark ⟨off, 4, raw, 0, 7⟩
    return 0
  else return BitVec.ofInt 32 raw

/-- A shift of a coefficient; one that FF_EN leaves ignored is not checked (R65). -/
def shiftField (b : List Byte) (off : Nat) (ignored : Bool) : Chk Byte := do
  if ignored then return byte (leAt b off 1) else
  return BitVec.ofInt 8 (← sField b off 1 (.fixed (-24)) (.fixed 8))

/-- RAIL (R65): `n` is the phase count. -/
def clampRail (b : List Byte) (n : Nat) : Chk RailSect := do
  let vmin ← setPoint b 0x00 (.fixed 0) (.fixed 0xFFFFF)
  let vmax ← setPoint b 0x04 (.other vmin) (.fixed 0xFFFFF)
  let vset ← setPoint b 0x08 (.other vmin) (.other vmax)
  let slewUp ← uField b 0x0C 2 (.fixed 10) (.fixed 10000)
  let slewDn ← uField b 0x0E 2 (.fixed 10) (.fixed 10000)
  let ssRate ← uField b 0x10 2 (.fixed 10) (.fixed 10000)
  let template ← enumField b 0x13 1 (fun v => decide (v < 2)) 0
  let nest ← uField b 0x14 1 (.fixed 1) (.fixed 16)
  let ff ← bitField b 0x15 1 2
  let vin ← srcField b 0x16 0xF0
  let vout ← srcField b 0x17 0xF0
  let dir ← enumField b 0x18 1 (fun v => decide (v < 2)) 0
  let lead ← uField b 0x19 1 (.fixed 0) (.fixed 50)
  let minPh ← uField b 0x1A 1 (.fixed 1) (.other n)
  let dwell ← uField b 0x1B 1 (.fixed 1) (.fixed 255)
  let ilim ← uField b 0x1C 2 (.fixed 10) (.fixed 10000)
  let ilimRail ← uField b 0x1E 2 (.fixed 1) (.both 65535 ((n * ilim / 10 : Nat) : Int))
  let ov ← setPoint b 0x20 (.other vmax) (.fixed 0xFFFFF)
  let uv ← setPoint b 0x24 (.fixed 0) (.other vmin)
  let addHi ← uField b 0x28 2 (.fixed 0) (.other ilim)
  let shedLo ← uField b 0x2A 2 (.fixed 0) (.other ((addHi * 3 / 4 : Nat) : Int))
  let dmax ← uField b 0x2C 2 (.fixed 0) (.fixed 64225)
  let dmin ← uField b 0x2E 2 (.fixed 0) (.other dmax)
  let ovr ← uField b 0x30 1 (.fixed 1) (.fixed 64)
  let outerM ← bankM (n := 8) 0 fun k =>
    unusedField b (0x34 + 4 * k.val) (decide (template = 0) && (decide (k = 3) || decide (k = 6)))
  let outerS ← bankM (n := 8) 0 fun k => shiftField b (0x54 + k.val) (decide (k = 7) && decide (bits ff 0 0 = 0))
  let innerM ← bankM (n := 8) 0 fun k => unusedField b (0x5C + 4 * k.val) (decide (k = 6) || decide (k = 7))
  let innerS ← bankM (n := 8) 0 fun k => shiftField b (0x7C + k.val) (decide (k = 5) && decide (bits ff 1 1 = 0))
  return {
    vmin := vmin
    vmax := vmax
    vset := vset
    slewUp := slewUp
    slewDn := slewDn
    ssRate := ssRate
    fgroup := Fin.ofNat 8 (leAt b 0x12 1)
    template := decide (template = 1)
    nestN := nest
    ffVin := decide (bits ff 0 0 = 1)
    ffAcc := decide (bits ff 1 1 = 1)
    vinSrc := vin
    voutSrc := vout
    bidir := decide (dir = 1)
    lead := lead
    minPhases := minPh
    shedDwell := dwell
    ilimPhase := ilim
    ilimRail := ilimRail
    ov := ov
    uv := uv
    addHi := addHi
    shedLo := shedLo
    dmax := dmax
    dmin := dmin
    overrunLimit := ovr
    outer := bankMap outerM fun k m => ⟨m, bankGet outerS k⟩
    inner := bankMap innerM fun k m => ⟨m, bankGet innerS k⟩
    phases := (List.range n).map fun i => Fin.ofNat 512 (leAt b (0x84 + 2 * i) 2) }

/-- An entry of PROTECT (R66). -/
def clampProt (b : List Byte) (at' : Nat) : Chk ProtEntry := do
  let source := leAt b at' 1
  let action ← enumField b (at' + 1) 1 (fun v => decide (v < 5)) 3
  let target ← railField b (at' + 4)
  let raw := leAt b (at' + 6) 2
  let used := decide (source = 5) || decide (source = 6)
  if !used && decide (raw ≠ 0) then noteMark ⟨at' + 6, 2, raw, 0, 4⟩
  return ⟨Fin.ofNat 9 source, Fin.ofNat 5 action, leAt b (at' + 2) 2, target, byte (leAt b (at' + 5) 1),
    if used then raw else 0⟩

/-- SCHED (R67). -/
def clampSched (b : List Byte) : Chk SchedSect := do
  let b0 ← uField b 0x00 2 (.fixed 0) (.fixed 0)
  let b1 ← uField b 0x02 2 (.fixed 0) (.fixed 2047)
  let b2 ← uField b 0x04 2 (.other b1) (.fixed 2047)
  let reserve ← uField b 0x08 4 (.fixed 0) (.fixed 100000000)
  let cap ← uField b 0x0C 4 (.fixed 1) (.fixed 1000000)
  let bv ← setPoint b 0x10 (.fixed 0) (.fixed 0xFFFFF)
  let pmin ← uField b 0x14 2 (.fixed 1) (.fixed 100)
  let pmax ← uField b 0x16 2 (.other pmin) (.fixed 1000)
  let timeout ← bankM (n := 3) 0 fun c => uField b (0x18 + 2 * c.val) 2 (.fixed 10) (.fixed 10000)
  return ⟨bankSet (bankSet (bankFill 3 b0) 1 b1) 2 b2, reserve, cap, bv, pmin, pmax, timeout⟩

/-- An entry of PARTNERS (R68, R71). -/
def clampPartner (b : List Byte) (at' : Nat) : Chk PartnerEntry := do
  let first := leAt b at' 2
  let base := leAt b (at' + 4) 1
  let last ← uField b (at' + 2) 2 (.other first) (.other ((first + 255 - base : Nat) : Int))
  let ceil ← enumField b (at' + 5) 1 (fun v => decide (v < 3)) 2
  let rail ← railField b (at' + 6)
  let pflags ← bitField b (at' + 7) 1 1
  let peak ← uField b (at' + 8) 2 (.fixed 1) (.fixed 65535)
  return ⟨first, last, base, Fin.ofNat 3 ceil, rail, decide (pflags = 1), peak⟩

/-- An entry of HKEEP (R69, R71). -/
def clampHkeep (b : List Byte) (at' : Nat) : Chk HkEntry := do
  let die := decide (leAt b at' 1 = 2)
  let shutdown ← sField b (at' + 8) 2 (.fixed (-640)) (.both 2400 (if die then 2080 else 2400))
  let throttle ← sField b (at' + 6) 2 (.fixed (-640)) (.other shutdown)
  let warn ← sField b (at' + 4) 2 (.fixed (-640)) (.other throttle)
  let source ← enumField b at' 1 (fun v => decide (v < 6)) 0
  let hflags ← bitField b (at' + 1) 1 1
  let hyst ← uField b (at' + 10) 2 (.fixed 16) (.fixed 320)
  let rise ← uField b (at' + 12) 2 (.fixed 0) (.fixed 3200)
  let persist ← uField b (at' + 14) 1 (.fixed 3) (.fixed 15)
  let trail ← railField b (at' + 15)
  return ⟨Fin.ofNat 6 source, decide (hflags = 1), leAt b (at' + 2) 2, warn, throttle, shutdown, hyst, rise, persist, trail⟩

/-- The ranges of TLOW, THIGH, TSUDAT and THDDAT for a mode (Table 13-2). -/
def timingRange (speed : Nat) : (Nat × Nat) × (Nat × Nat) × (Nat × Nat) × (Nat × Nat) :=
  match speed with
  | 0 => ((118, 4095), (100, 4095), (7, 255), (1, 83))
  | 1 => ((33, 4095), (15, 4095), (3, 255), (1, 19))
  | _ => ((13, 4095), (7, 4095), (2, 255), (1, 8))

/-- An entry of PERIPH (R70). -/
def clampPeriphEntry (b : List Byte) (at' : Nat) : Chk PeriphEntry := do
  let addr ← uField b at' 1 (.fixed 0x08) (.fixed 0x77)
  let xf ← bitField b (at' + 1) 1 2
  let len ← uField b (at' + 4) 1 (.fixed 1) (.fixed 32)
  let period ← uField b (at' + 5) 1 (.fixed 1) (.fixed 255)
  let format ← enumField b (at' + 6) 1 (fun v => decide (v < 3)) 0
  return ⟨BitVec.ofNat 7 addr, decide (bits xf 0 0 = 1), decide (bits xf 1 1 = 1), BitVec.ofNat 16 (leAt b (at' + 2) 2), len,
    period, Fin.ofNat 3 format⟩

/-- Actions on n entries of a size from an offset on, in order. -/
def entriesM {α : Type} (f : Nat → Chk α) (base size n : Nat) : Chk (List α) :=
  (List.range n).mapM fun i => f (base + size * i)

/-- PERIPH (R70). The bounds of a timing field that follow the mode in SPEED are that field's; the others are fixed. -/
def clampPeriph (b : List Byte) (n : Nat) : Chk PeriphSect := do
  let speed ← enumField b 0x00 1 (fun v => decide (v < 3)) 0
  let own ← uField b 0x01 1 (.fixed 0x08) (.fixed 0x77)
  let r := timingRange speed
  let tlow ← uField b 0x02 2 (.other r.1.1) (.fixed 4095)
  let thigh ← uField b 0x04 2 (.other r.2.1.1) (.fixed 4095)
  let tsu ← uField b 0x06 2 (.other r.2.2.1.1) (.fixed 255)
  let thd ← uField b 0x08 2 (.fixed 1) (.other r.2.2.2.2)
  let entries ← entriesM (clampPeriphEntry b) 12 8 n
  return ⟨Fin.ofNat 3 speed, BitVec.ofNat 7 own, tlow, thigh, tsu, thd, entries⟩

/-! ### Frames (R59, R60) -/

/-- A section as its frame gives it. -/
structure Frame where
  kind : Nat
  index : Nat
  sver : Nat
  blen : Nat
  entries : Nat
  body : List Byte
  scrc : Word
deriving DecidableEq, Repr

/-- Fixed part, entry size and the range of ENTRIES of a kind (Tables 3-4 to 3-11). -/
def kindShape (kind : Nat) : Option (Nat × Nat × Nat × Nat) :=
  match kind with
  | 0x01 => some (112, 0, 0, 0)
  | 0x02 => some (0, 4, 64, 64)
  | 0x10 => some (132, 2, 1, 128)
  | 0x20 => some (0, 8, 0, 256)
  | 0x30 => some (32, 0, 0, 0)
  | 0x31 => some (0, 12, 0, 64)
  | 0x40 => some (0, 16, 0, 96)
  | 0x48 => some (12, 8, 0, 32)
  | _ => none

/-- The next frame and what follows it: its length, and its SCRC. -/
def readFrame (bs : List Byte) : Except ImgResult (Frame × List Byte) :=
  let blen := leAt bs 4 2
  let covered := 8 + blen + (4 - blen % 4) % 4
  if bs.length < covered + 4 then .error .order else
  let scrc := leAt bs covered 4
  if crc32c (bs.take covered) ≠ scrc then .error .sectionCrc else
  .ok (⟨leAt bs 0 1, leAt bs 1 1, leAt bs 2 1, blen, leAt bs 6 2, slice bs 8 blen, word scrc⟩, bs.drop (covered + 4))

/-- The frame's own rules: kind, SVER, INDEX, BODY_LEN and its place after the frame before it (R60). -/
def checkFrame (prev : Option (Nat × Nat)) (f : Frame) : Except ImgResult Unit :=
  match kindShape f.kind with
  | none => .error .order
  | some (fixed, size, least, most) =>
    if f.sver ≠ 1 then .error .order
    else if f.index > (if f.kind = 0x10 then 63 else 0) then .error .order
    else if f.blen ≠ fixed + f.entries * size ∨ (size = 0 ∧ f.entries ≠ 0) then .error .order
    else if (match prev with
      | none => decide (f.kind ≠ 0x01)
      | some (k, i) => !(decide (k < f.kind) || (decide (k = f.kind) && decide (i < f.index)))) then .error .order
    else if f.entries < least ∨ most < f.entries then .error .struct
    else .ok ()

/-- The phase list of a RAIL body, one phase after another: numbers above 511 and repeats (R65), and slots that LANES does
not expect (R64). -/
def checkPhases (lanes : Option (List LaneEntry)) : List Nat → List Nat → Except ImgResult Unit
  | _, [] => .ok ()
  | seen, g :: gs =>
    if g > 511 ∨ seen.contains g then .error .struct else
    let expected := match lanes with
      | none => true
      | some es => match es[g / 8]? with
        | some e => decide (e.mode ≠ 0) && e.slotMask.getLsbD (g % 8)
        | none => false
    if expected then checkPhases lanes (g :: seen) gs else .error .reference

/-- The structural rules of a RAIL body (R64, R65). -/
def checkRailBody (dev : DeviceSect) (lanes : Option (List LaneEntry)) (f : Frame) : Except ImgResult Unit :=
  match fin? 8 (leAt f.body 0x12 1) with
  | none => .error .reference
  | some g =>
    if !bankGet dev.fgEnable g then .error .reference else
    checkPhases lanes [] ((List.range f.entries).map fun i => leAt f.body (0x84 + 2 * i) 2)

/-- Do two ranges meet? -/
def rangesMeet (a b c d : Nat) : Bool := decide (a ≤ d) && decide (c ≤ b)

/-- Two PARTNERS entries whose unit ranges or handle ranges overlap (R68). R68 does not say whether the ranges as written or as
clamped are meant: the clamped ones are compared (DESIGN CHOICE, assumption 110). -/
def partnersOverlap : List PartnerEntry → Bool
  | [] => false
  | e :: es => (es.any fun f =>
      rangesMeet e.unitFirst e.unitLast f.unitFirst f.unitLast ||
      rangesMeet e.handleBase (e.handleBase + (e.unitLast - e.unitFirst)) f.handleBase
        (f.handleBase + (f.unitLast - f.unitFirst))) || partnersOverlap es

/-! ### Sections -/

/-- A section with its clamped body. -/
inductive Section where
  | device (b : DeviceSect)
  | lanes (es : List LaneEntry)
  | rail (r : Fin 64) (b : RailSect)
  | protect (es : List ProtEntry)
  | sched (b : SchedSect)
  | partners (es : List PartnerEntry)
  | hkeep (es : List HkEntry)
  | periph (b : PeriphSect)
deriving DecidableEq, Repr

/-- The clamps of a section as report entries (R89). -/
def reportOf (f : Frame) (ms : List Mark) : List ClampEntry :=
  ms.map fun m => ⟨byte f.kind, byte f.index, BitVec.ofNat 16 m.off, BitVec.ofInt 32 m.written, BitVec.ofInt 32 m.applied,
    byte m.reason, byte m.width, 0⟩

/-- The body of a checked frame: its structural rules, its fields and its clamps. DEVICE and LANES are those that a RAIL
body refers to. A PERIPH entry's ADDR is compared with OWN_ADDR as both are applied, since R70 does not say which values it means
(DESIGN CHOICE, assumption 110). -/
def readBody (dev : DeviceSect) (lanes : Option (List LaneEntry)) (f : Frame) :
    Except ImgResult (Section × List ClampEntry) :=
  let b := f.body
  let done (x : Section × List Mark) : Except ImgResult (Section × List ClampEntry) := .ok (x.1, reportOf f x.2)
  match f.kind with
  | 0x01 => done (((clampDevice b).map .device).run [])
  | 0x02 => done (((entriesM (clampLane b) 0 4 f.entries).map .lanes).run [])
  | 0x10 =>
    match checkRailBody dev lanes f with
    | .error e => .error e
    | .ok _ => done (((clampRail b f.entries).map (.rail (Fin.ofNat 64 f.index))).run [])
  | 0x20 =>
    if (List.range f.entries).any fun i => decide (leAt b (8 * i) 1 = 0 ∨ 8 < leAt b (8 * i) 1) then .error .struct
    else done (((entriesM (clampProt b) 0 8 f.entries).map .protect).run [])
  | 0x30 => done (((clampSched b).map .sched).run [])
  | 0x31 =>
    let x := (entriesM (clampPartner b) 0 12 f.entries).run []
    if partnersOverlap x.1 then .error .struct else done (.partners x.1, x.2)
  | 0x40 => done (((entriesM (clampHkeep b) 0 16 f.entries).map .hkeep).run [])
  | _ =>
    let x := (clampPeriph b f.entries).run []
    if x.1.entries.any fun e => decide (e.addr = x.1.ownAddr) then .error .struct else done (.periph x.1, x.2)

/-- A section put into a structure. -/
def putSection (scrc : Word) (x : Section) (s : Structure) : Structure :=
  match x with
  | .device b => { s with device := ⟨b, scrc⟩ }
  | .lanes es => { s with lanes := some ⟨es, scrc⟩ }
  | .rail r b => { s with rails := bankSet s.rails r (some ⟨b, scrc⟩) }
  | .protect es => { s with protect := some ⟨es, scrc⟩ }
  | .sched b => { s with sched := some ⟨b, scrc⟩ }
  | .partners es => { s with partners := some ⟨es, scrc⟩ }
  | .hkeep es => { s with hkeep := some ⟨es, scrc⟩ }
  | .periph b => { s with periph := some ⟨b, scrc⟩ }

/-! ### Engine load (R74) -/

/-- load_r of one rail, rounded up. -/
def railLoad (period : Bank 8 Nat) (b : RailSect) : Nat :=
  let a := bit b.ffAcc
  let c := if b.template then 9 else 7
  let den := bankGet period b.fgroup * b.nestN
  if den = 0 then 0 else ceilDiv ((b.phases.length * (7 + a) * b.nestN + c + bit b.ffVin) * 800000000) den

/-- The engine load of a configuration in slots per second. -/
def engineLoad (period : Bank 8 Nat) (rails : Bank 64 (Option (InForce RailSect))) : Nat :=
  (List.finRange 64).foldl (fun a r => a + match bankGet rails r with
    | some b => railLoad period b.body
    | none => 0) 0

/-- 90 % of the engine's capacity, and the cap for TRIM. -/
def loadCap : Nat := 2880000000
def trimCap : Nat := 1440000000

/-- The load in 0.01 % of 3,200,000,000 slots per second, rounded up (Table 3-21). -/
def loadUnits (slots : Nat) : BitVec 16 := BitVec.ofNat 16 (ceilDiv (slots * 10000) 3200000000)

/-! ### Images -/

/-- A checked image. -/
structure Billet where
  gen : Word
  noLive : Bool
  len : Nat
  str : Structure
  clamps : List ClampEntry
deriving DecidableEq, Repr

/-- The header's checks in the order of its fields (Table 3-1, R60). -/
def checkHeader (h : List Byte) : Except ImgResult Unit :=
  let len := leAt h 0x08 4
  let gen := leAt h 0x0C 4
  if slice h 0 4 ≠ [0x45, 0x48, 0x42, 0x4C] then .error .header
  else if leAt h 0x04 2 ≠ 2 ∨ leAt h 0x06 2 ≠ 64 then .error .header
  else if len < 188 ∨ 61440 < len ∨ len % 4 ≠ 0 then .error .header
  else if gen = 0 ∨ gen = 0xFFFFFFFF then .error .header
  else if leAt h 0x10 2 ≠ 0x5120 ∨ bits (leAt h 0x12 2) 0 0 = 0 then .error .target
  else if leAt h 0x14 2 = 0 ∨ 80 < leAt h 0x14 2 then .error .header
  else if crc32c (h.take 0x3C) ≠ leAt h 0x3C 4 then .error .header
  else .ok ()

/-- The sections of an image in order, into the structure they describe. -/
def readSections : Nat → Option (Nat × Nat) → List Byte → Structure → List ClampEntry →
    Except ImgResult (Structure × List ClampEntry)
  | 0, _, bs, s, ms => if bs.isEmpty then .ok (s, ms) else .error .order
  | n + 1, prev, bs, s, ms =>
    match readFrame bs with
    | .error e => .error e
    | .ok (f, rest) =>
      match checkFrame prev f with
      | .error e => .error e
      | .ok _ =>
        match readBody s.device.body (s.lanes.map (·.body)) f with
        | .error e => .error e
        | .ok (x, m) => readSections n (some (f.kind, f.index)) rest (putSection f.scrc x s) (ms ++ m)

/-- The whole check of R60, R71 and R74 over an image's bytes. -/
def checkImage (bs : List Byte) : Except ImgResult Billet :=
  match checkHeader (slice bs 0 64) with
  | .error e => .error e
  | .ok _ =>
    let len := leAt bs 0x08 4
    let empty := { Structure.none with installId := BitVec.ofNat 64 (leAt bs 0x30 8) }
    match readSections (leAt bs 0x14 2) none (slice bs 64 (len - 64)) empty [] with
    | .error e => .error e
    | .ok (s, ms) =>
      if engineLoad s.device.body.fgPeriod s.rails > loadCap then .error .load else
      .ok ⟨word (leAt bs 0x0C 4), decide (bits (leAt bs 0x16 2) 0 0 = 1), len, s, ms⟩

/-! ### Image slots in the store -/

/-- The address of a byte of an image slot: sectors 1 to 15 of slot A and 17 to 31 of slot B (Table 15-1). -/
def imageAddr (st : Store) (s : Fin 2) (off : Nat) : Option Nat :=
  (physOf st (Fin.ofNat 128 ((if s = 0 then 1 else 17) + off / 4096))).map fun p => 4096 * p.val + off % 4096

/-- n bytes of an image slot from its start; a sector that the region has given up reads erased. -/
def imageBytes (k : Nat) (nv : NonVol) (st : Store) (s : Fin 2) (n : Nat) : List Byte :=
  (List.range n).map fun off => match imageAddr st s off with
    | some a => flashByte k nv a
    | none => 0xFF

/-- The image in a slot, checked. -/
def readSlot (k : Nat) (nv : NonVol) (st : Store) (s : Fin 2) : Except ImgResult Billet :=
  let h := imageBytes k nv st s 64
  match checkHeader h with
  | .error e => .error e
  | .ok _ => checkImage (imageBytes k nv st s (leAt h 0x08 4))

end Sys2Proof.Machine
end

