-- ==== Sys2Proof/Machine/Frames.lean ====
section
/-! DEFINITION. Frames of the partner bus (spec 10_partner_bus.md): identifiers and layouts (R258 to R260), the transmit queues
(R262, R276), and a handle's memory of tags (R272). -/

namespace Sys2Proof.Machine

/-! ### Identifiers -/

/-- The bus of a number. -/
def busIdx : Bus → Fin 2
  | .a => 0
  | .b => 1

/-- Device-to-partner frames with their TYPE and PRIO (Table 10-4). -/
inductive FrameKind where
  | sync
  | joinAck
  | joinRefuse
  | leaveAck
  | pending
  | defer
  | grant
  | revoke
  | refuse
  | reverseAck
  | ended
  | vreqAck
deriving DecidableEq, Repr

/-- TYPE of a frame (Table 10-4). -/
def FrameKind.type : FrameKind → Nat
  | .sync => 0x00 | .joinAck => 0x02 | .joinRefuse => 0x03 | .leaveAck => 0x05 | .pending => 0x09 | .defer => 0x0A
  | .grant => 0x0B | .revoke => 0x0C | .refuse => 0x0D | .reverseAck => 0x10 | .ended => 0x12 | .vreqAck => 0x15

/-- PRIO of a frame (Table 10-4). -/
def FrameKind.prio : FrameKind → Nat
  | .sync => 0 | .joinAck => 2 | .joinRefuse => 2 | .leaveAck => 5 | .pending => 2 | .defer => 2
  | .grant => 1 | .revoke => 1 | .refuse => 2 | .reverseAck => 1 | .ended => 2 | .vreqAck => 6

/-- The identifier of a frame (R258); `low` is bits [16:0]. -/
def frameId (prio type node low : Nat) : BitVec 29 :=
  BitVec.ofNat 29 (prio * 2 ^ 26 + type * 2 ^ 21 + node % 16 * 2 ^ 17 + low % 2 ^ 17)

/-- The identifier of a frame for a handle. -/
def handleId (d : Device) (k : FrameKind) (h : Nat) : BitVec 29 := frameId k.prio k.type d.pp.node.toNat (h * 2 ^ 9)

/-- The TYPE of an identifier. -/
def idType (id : BitVec 29) : Nat := bits id.toNat 25 21

/-! ### Transmit queues -/

/-- A change of one bus. -/
def Device.onBus (d : Device) (b : Fin 2) (f : CanBus → CanBus) : Device :=
  { d with pp := { d.pp with buses := bankUpd d.pp.buses b f } }

/-- A change of one handle. -/
def Device.onPartner (d : Device) (h : Fin 256) (f : Partner → Partner) : Device :=
  { d with pp := { d.pp with partners := bankUpd d.pp.partners h f } }

/-- A frame joins the transmit queue of a bus. -/
def queueFrame (tm : TimeBase) (b : Fin 2) (id : BitVec 29) (payload : List Byte) (start : Option Word) (d : Device) : Device :=
  d.onBus b fun c => { c with queue := c.queue ++ [⟨id, payload, tm.time.toNat, false, start, decide (idType id = 0), false, false⟩] }

/-- The bus on which a frame for a handle goes (R276): the home bus, or the other while the home bus is error-passive or
bus-off. -/
def homeBus (d : Device) (h : Fin 256) : Fin 2 :=
  let b : Fin 2 := if (bankGet d.pp.partners h).home then 1 else 0
  let c := bankGet d.pp.buses b
  match c.state with
  | .passive | .busOff => if c.en then (if b = 0 then 1 else 0) else b
  | .active | .disabled => b

/-- A frame for a handle is queued (R276). -/
def sendTo (tm : TimeBase) (h : Fin 256) (id : BitVec 29) (payload : List Byte) (start : Option Word) (d : Device) : Device :=
  let d := if idType id = FrameKind.refuse.type then d.onPartner h fun p =>
      if p.held then { p with refusals := p.refusals + 1 } else p
    else d
  if d.pp.both then queueFrame tm 1 id payload start (queueFrame tm 0 id payload start d)
  else queueFrame tm (homeBus d h) id payload start d

/-- A frame for a handle of a kind. -/
def sendKind (tm : TimeBase) (k : FrameKind) (h : Fin 256) (payload : List Byte) (start : Option Word) (d : Device) : Device :=
  sendTo tm h (handleId d k h.val) payload start d

/-! ### Layouts (Table 10-5), multi-byte fields most significant byte first -/

def pendingBytes (tag entry cls : Nat) (early : Word) : List Byte :=
  [byte tag, byte entry, byte cls, 0] ++ beBytes 4 early.toNat

def deferBytes (tag entry : Nat) (planned last : Word) : List Byte :=
  [byte tag, byte entry, 0, 0] ++ beBytes 4 planned.toNat ++ beBytes 4 last.toNat

def grantBytes (tag entry cls : Nat) (start stop : Word) : List Byte :=
  [byte tag, byte entry, byte cls, 0] ++ beBytes 4 start.toNat ++ beBytes 4 stop.toNat

/-- REVOKE and ENDED share one layout: TAG, ENTRY, REASON and a device time. -/
def reasonBytes (tag entry reason : Nat) (t : Word) : List Byte :=
  [byte tag, byte entry, byte reason, 0] ++ beBytes 4 t.toNat

def refuseBytes (tag entry reason rtype hint : Nat) : List Byte :=
  [byte tag, byte entry, byte reason, byte rtype] ++ beBytes 2 hint ++ [0, 0]

def reverseAckBytes (tag entry : Nat) (cut : Bool) (from' stop : Word) : List Byte :=
  [byte tag, byte entry, byte (bit cut), 0] ++ beBytes 4 from'.toNat ++ beBytes 4 stop.toNat

def vreqAckBytes (tag result : Nat) (goal : Word) : List Byte :=
  [byte tag, byte result, 0, 0] ++ beBytes 4 goal.toNat

/-! ### Reason codes -/

/-- Reason codes of frames (Table 10-6). -/
inductive FrameReason where
  | ok
  | notConfigured
  | busy
  | oversize
  | far
  | window
  | budget
  | nofit
  | limit
  | notJoined
  | badFrame
  | full
  | notAllowed
  | noRail
  | cancel
  | done
  | timeout
  | lifecycle
  | protocol
  | state
  | left
deriving DecidableEq, Repr

/-- Table 10-6. -/
def FrameReason.code : FrameReason → Nat
  | .ok => 0 | .notConfigured => 1 | .busy => 2 | .oversize => 3 | .far => 4 | .window => 5 | .budget => 6 | .nofit => 7
  | .limit => 8 | .notJoined => 9 | .badFrame => 10 | .full => 11 | .notAllowed => 12 | .noRail => 13 | .cancel => 14
  | .done => 15 | .timeout => 16 | .lifecycle => 17 | .protocol => 18 | .state => 19 | .left => 20

/-- No retry hint. -/
def noHint : Nat := 0xFFFF

/-! ### The memory of tags (R272) -/

/-- The item of a handle's memory with a tag. -/
def tagItem (p : Partner) (tag : Byte) : Option TagMem := p.tags.reverse.find? fun x => decide (x.tag = tag)

/-- An accepted tag joins the last four; its entry is not known before intake. -/
def keepTag (h : Fin 256) (tag : Byte) (d : Device) : Device :=
  d.onPartner h fun p =>
    let l := p.tags ++ [⟨tag, 0xFF, 0, []⟩]
    { p with tags := l.drop (l.length - 4) }

/-- A frame about an entry is the last one sent for the entry's tag. -/
def noteFrame (h : Fin 256) (tag entry : Byte) (id : BitVec 29) (payload : List Byte) (d : Device) : Device :=
  d.onPartner h fun p => { p with tags := p.tags.map fun x =>
    if x.tag = tag ∧ x.entry = entry ∧ entry ≠ 0xFF then { x with id := id, payload := payload } else x }

/-- The frame that answers a request at its intake is the first one sent for its tag, and names its entry; none is made where it
is 0xFF. -/
def noteIntake (h : Fin 256) (tag entry : Byte) (id : BitVec 29) (payload : List Byte) (d : Device) : Device :=
  d.onPartner h fun p => { p with tags := p.tags.map fun x =>
    if x.tag = tag ∧ x.payload = [] then { x with entry := entry, id := id, payload := payload } else x }

/-- A frame about an entry of a handle, kept in the handle's memory (R271, R272). -/
def tellEntry (tm : TimeBase) (k : FrameKind) (h : Fin 256) (tag entry : Nat) (payload : List Byte) (start : Option Word)
    (d : Device) : Device :=
  let id := handleId d k h.val
  sendTo tm h id payload start (noteFrame h (byte tag) (byte entry) id payload d)

/-- The answer to a request at its intake, kept in the handle's memory (R271, R272). -/
def tellIntake (tm : TimeBase) (k : FrameKind) (h : Fin 256) (tag entry : Nat) (payload : List Byte) (d : Device) : Device :=
  let id := handleId d k h.val
  sendTo tm h id payload none (noteIntake h (byte tag) (byte entry) id payload d)

/-! ### PARTNERS (R68) -/

/-- The PARTNERS entries in force. -/
def partnerEntries (d : Device) : List PartnerEntry :=
  match d.str.partners with
  | some p => p.body
  | none => []

/-- The entry that names a unit. -/
def listingOf (d : Device) (unit : Nat) : Option PartnerEntry :=
  (partnerEntries d).find? fun p => decide (p.unitFirst ≤ unit ∧ unit ≤ p.unitLast)

/-- The handle that an entry gives a unit. -/
def listedHandle (p : PartnerEntry) (unit : Nat) : Nat := p.handleBase + unit - p.unitFirst

/-- Does a handle lie in the range of an entry? -/
def inRange (d : Device) (h : Nat) : Bool :=
  (partnerEntries d).any fun p => decide (p.handleBase ≤ h ∧ h ≤ p.handleBase + p.unitLast - p.unitFirst)

/-- What a unit with a handle may claim (R265 steps 5 and 6, R62, R86): its ceiling, rail, PFLAGS bit 0 and PEAK_MAX. -/
structure Standing where
  listed : Bool
  ceil : Fin 3
  rail : Option (Fin 64)
  vreqOk : Bool
  peakMax : Nat
deriving DecidableEq, Repr

/-- The standing of a unit under the PARTNERS section in force. A handle whose unit's new entry gives another handle is treated as
unlisted from its next request on: R86 says only that it takes the new class ceiling and rail (DESIGN CHOICE, assumption 110). -/
def standingOf (d : Device) (h unit : Nat) : Standing :=
  let unlisted : Standing := ⟨false, if d.str.partners.isSome then 2 else 0, none, false, 65535⟩
  match listingOf d unit with
  | some p => if listedHandle p unit = h then ⟨true, p.classCeil, p.rail, p.vreqOk, p.peakMax⟩ else unlisted
  | none => unlisted

end Sys2Proof.Machine
end

