-- ==== Sys2Proof/Machine/Hearth.lean ====
section
/-! DEFINITION. The energy scheduler Hearth (spec 09_hearth.md): the ledger (R238 to R240), the horizon (R232, R233), the budget
(R241), the steps of a tick (Table 9-5), the planner and its commands (R244, R245), and the ring link (R248 to R251). -/

namespace Sys2Proof.Machine

/-! ### Ticks (R231) -/

/-- The present tick. -/
def tickNow (tm : TimeBase) : Nat := tm.time.toNat / 800000

/-- The device microsecond of a tick. -/
def tickUs (n : Nat) : Word := word (n * 1000)

/-- How far a device microsecond lies after that of tick n, signed (R11). -/
def usAfter (n : Nat) (t : Word) : Int := (t - tickUs n).toInt

/-- The first tick at or after a device microsecond. -/
def tickAtOrAfter (n : Nat) (t : Word) : Int := n + -((-usAfter n t) / 1000)

/-- The last tick at or before a device microsecond. -/
def tickAtOrBefore (n : Nat) (t : Word) : Int := n + usAfter n t / 1000

/-! ### Codes -/

/-- Table 9-13. -/
def LedState.code : LedState → Nat
  | .free => 0 | .queued => 1 | .planned => 2 | .granted => 3 | .active => 4 | .done => 5 | .squashed => 6 | .revoked => 7

/-- Table 9-15. -/
def LedReason.code : LedReason → Nat
  | .none => 0 | .cancel => 1 | .left => 2 | .window => 3 | .budget => 4 | .timeout => 5 | .busy => 6 | .nofit => 7
  | .reverseCut => 8

/-- Plan command results (Table 9-8). -/
inductive PlanResult where
  | ok
  | state
  | window
  | budget
  | denied
  | badOp
deriving DecidableEq, Repr

/-- Table 9-8. -/
def PlanResult.code : PlanResult → Byte
  | .ok => 0 | .state => 1 | .window => 2 | .budget => 3 | .denied => 4 | .badOp => 5

/-- Has an entry ended? -/
def LedState.ended : LedState → Bool
  | .done | .squashed | .revoked => true
  | .free | .queued | .planned | .granted | .active => false

/-! ### Profiles and charges -/

/-- L, the total duration in ms. -/
def totalMs (segs : List Seg) : Nat := segs.foldl (fun a s => a + s.dur) 0

/-- The largest segment power. -/
def peakOf (segs : List Seg) : Nat := segs.foldl (fun a s => max a s.power) 0

/-- The energy of a profile in mJ, rounded up (Table 9-13). -/
def energyOf (segs : List Seg) : Nat := ceilDiv (segs.foldl (fun a s => a + s.dur * s.power) 0) 1000

/-- The power of the segment that covers millisecond j; 0 past the end. -/
def powerAt : List Seg → Nat → Nat
  | [], _ => 0
  | s :: ss, j => if j < s.dur then s.power else powerAt ss (j - s.dur)

/-- A profile cut to its first ms (R239). -/
def cutProfile : List Seg → Nat → List Seg
  | [], _ => []
  | s :: ss, ms => if ms = 0 then [] else { s with dur := min s.dur ms } :: cutProfile ss (ms - s.dur)

/-- The charges of a profile from a tick on (R232). -/
def chargesFrom (e : Fin 128) (planned : Bool) : Nat → List Seg → List Charge
  | _, [] => []
  | t, s :: ss => ⟨e, t, t + s.dur, s.power, planned⟩ :: chargesFrom e planned (t + s.dur) ss

/-- Charges of an entry are taken back from a tick on; what comes before it stays (R233). -/
def uncharge (e : Fin 128) (from' : Nat) (cs : List Charge) : List Charge :=
  cs.filterMap fun c =>
    if c.entry = e then (if c.start < from' then some { c with stop := min c.stop from' } else none) else some c

/-- The sum of the charges of one kind on a bin. -/
def binSum (cs : List Charge) (planned : Bool) (m : Nat) : Nat :=
  cs.foldl (fun a c => if c.planned = planned ∧ c.start ≤ m ∧ m < c.stop then a + c.power else a) 0

/-- The COMMITTED charge that an entry has on a bin. -/
def entryCharge (cs : List Charge) (e : Fin 128) (m : Nat) : Nat :=
  cs.foldl (fun a c => if c.entry = e ∧ c.planned = false ∧ c.start ≤ m ∧ m < c.stop then a + c.power else a) 0

/-- One entry of the ledger. -/
def Device.led (d : Device) (e : Fin 128) : Entry := bankGet d.hs.ledger e

/-- A ledger operation (R238): the entry takes its new value and the operation's number. -/
def ledgerOp (e : Fin 128) (f : Entry → Entry) (d : Device) : Device :=
  let n := d.hs.opSeq + 1
  { d with hs := { d.hs with opSeq := n, ledger := bankUpd d.hs.ledger e fun x => { f x with opSeq := n } } }

/-- A change of the charges. -/
def onCharges (f : List Charge → List Charge) (d : Device) : Device :=
  { d with hs := { d.hs with charges := f d.hs.charges } }

/-- An interrupt bit of HS.INT_STATUS. -/
def hsInt (i : Nat) (d : Device) : Device := { d with hs := { d.hs with intStatus := setBit d.hs.intStatus i } }

/-- The event of R254 about an entry. -/
def raiseLedger (tm : TimeBase) (event : Nat) (e : Fin 128) (d : Device) : Device :=
  let x := d.led e
  raise tm 0x50 ([byte event, byte e.val, byte x.handle.val, byte x.cls.val, byte x.reason.code, 0, 0, 0]
    ++ leBytes 4 d.hs.opSeq.toNat) d

/-- The event of R254 about the scheduler. -/
def raiseHearth (tm : TimeBase) (event : Nat) (d : Device) : Device :=
  raise tm 0x50 ([byte event, 0, 0, 0, 0, 0, 0, 0] ++ leBytes 4 d.hs.opSeq.toNat) d

/-- The entries in a state, in rising number. -/
def entriesIn (d : Device) (p : LedState → Bool) : List (Fin 128) := bankWhere d.hs.ledger fun x => p x.state

/-- The end of an entry: the tick after its last bin. -/
def endTick (x : Entry) : Nat := x.first + totalMs x.segs

/-! ### The budget (R241) -/

/-- The profile power of an entry on a bin: of its segments, or of the part that a reversal replaced, whose begun bins keep
their COMMITTED charge (R233, R239). -/
def entryPower (d : Device) (e : Fin 128) (m : Nat) : Nat :=
  let x := d.led e
  if x.first ≤ m then powerAt x.segs (m - x.first) else entryCharge d.hs.charges e m

/-- load(m) over the horizon of tick n. -/
def loads (d : Device) (n : Nat) (xs : List (Fin 128)) : List Nat :=
  (List.range 2048).map fun j => xs.foldl (fun a e => a + entryPower d e (n + j)) 0

/-- S as step 1 of a tick takes it (Table 9-6, R304). -/
def storagePower (d : Device) : Nat :=
  if d.hkt.tsd ∨ d.str.device.body.storageSrc = none then 0 else d.hs.storPmax.toNat

/-- Does a set with these loads fit (R241)? Without a SCHED section the only budget test is against F (R62). -/
def fitsLoads (d : Device) (l : List Nat) : Bool :=
  match d.str.sched with
  | none => l.all fun v => decide (v ≤ d.hs.feed)
  | some _ => l.all (fun v => decide (v ≤ d.hs.avail + d.hs.storS))
    && decide (ceilDiv (l.foldl (fun a v => a + (v - d.hs.avail)) 0) 1000 ≤ d.hs.storE)

/-- Loads with one more profile from a tick on. -/
def addProfile (n s : Nat) (segs : List Seg) (l : List Nat) : List Nat :=
  l.zipIdx.map fun x => if s ≤ n + x.2 then x.1 + powerAt segs (n + x.2 - s) else x.1

/-- F (Table 9-6, R304): the feed limit in force. -/
def feedInForce (d : Device) : Nat :=
  if d.hkt.tsd then 0
  else if d.str.device.body.ringSize = 1 then d.str.device.body.feedLimit
  else match d.ring.shareNow with
    | some v => v.toNat
    | none => d.str.device.body.standalone

/-- E (Table 9-6). -/
def storageEnergy (d : Device) : Nat :=
  match d.str.device.body.storageSrc, d.str.sched with
  | some v, some s =>
    if d.hkt.tsd then 0 else
    let b := s.body
    let x := match bankGet d.le.vsense v with
      | some c => vsenseLsb d.str.device.body v c
      | none => 0
    if x ≤ b.bankVmin then 0 else b.bankCap * (x * x - b.bankVmin * b.bankVmin) / 50000000 - b.reserve
  | _, _ => 0

/-- TARGET × |IRAIL| div 5,000 of a rail in PRECHARGE to HOLD, in mW. -/
def railPower (d : Device) (r : Fin 64) : Nat :=
  if (d.rail r).state.runs then targetOf (d.rail r) * railCurrentAbs d r / 5000 else 0

/-- The profile power of ACTIVE entries that satisfy a test on a bin. -/
def activePower (d : Device) (m : Nat) (p : Entry → Bool) : Nat :=
  (entriesIn d (fun s => decide (s = .active))).foldl
    (fun a e => if p (d.led e) then a + entryPower d e m else a) 0

/-- B of the present tick (Table 9-6). -/
def baseNow (d : Device) (n : Nat) : Nat :=
  let sum := (List.finRange 64).foldl (fun a r => match d.sect r with
    | some b => if b.bidir then a else a + railPower d r
    | none => a) 0
  sum - (if n = 0 then 0 else activePower d (n - 1) fun _ => true)

/-- K(r) (Table 9-6). -/
def heatCap (d : Device) (n : Nat) (r : Fin 64) : Nat :=
  let x := d.rail r
  if x.state = .regulate then
    let own := railPower d r - (if n = 0 then 0 else activePower d (n - 1) fun y => decide (y.rail = some r))
    x.ilimNow.toNat * 100 * targetOf x / 5000 - own
  else 0

/-- The share that a frame of an earlier epoch brought is F from this tick on (R251). -/
def takeShare (n : Nat) (d : Device) : Device :=
  match d.ring.shareNext with
  | some (k, v) => if k < n then { d with ring := { d.ring with shareNow := some v, shareNext := none } } else d
  | none => d

/-- p(r) at step 1 (R247): a report of EXHAUSTED since the last tick raises it to PAUSE_MIN. -/
def takePause (n : Nat) (r : Fin 64) (d : Device) : Device :=
  if !(bankGet d.hs.pauseDue r && decide (bankGet d.hs.pauseFrom r ≤ n)) then d else
  { d with hs := { d.hs with
      pauseDue := bankSet d.hs.pauseDue r false
      pause := match d.str.sched with
        | some s => bankSet d.hs.pause r (max (bankGet d.hs.pause r) s.body.pauseMin)
        | none => d.hs.pause } }

/-- Step 1: the bin that ended leaves, and the quantities of Table 9-6 are taken. -/
def takeQuantities (n : Nat) (d0 : Device) : Device :=
  let d := (List.finRange 64).foldl (fun d r => takePause n r d) (takeShare n d0)
  let hist := (baseNow d n :: d.hs.baseHist).take 255
  let f := feedInForce d
  let b := (hist.take (max 1 d.hs.baseWin.toNat)).foldl max 0
  { d with hs := { d.hs with
      charges := d.hs.charges.filter fun c => decide (n < c.stop)
      baseHist := hist
      feed := f
      base := b
      avail := f - b - d.hs.margin.toNat
      storS := storagePower d
      storE := storageEnergy d
      shareLive := d.ring.shareNow.isSome && decide (d.str.device.body.ringSize ≠ 1)
      railCap := bankOf fun r => heatCap d n r
      tick := n } }

/-! ### Ends of entries -/

/-- What a rail does as an entry of it reaches GRANTED: a run of auto-tune ends with MOTION (R198), and whether the conditions
of Kindling hold is noted (R222). -/
def grantOnRail (tm : TimeBase) (e : Fin 128) (d : Device) : Device :=
  match (d.led e).rail with
  | none => d
  | some r =>
    let d := endTuneOn tm r .motion d
    { d with hs := { d.hs with ledger := bankUpd d.hs.ledger e fun x => { x with kindle := kindlingOn d r } } }

/-- GRANTED, with the frame (Table 9-4, R271). -/
def grantEntry (tm : TimeBase) (e : Fin 128) (s : Nat) (d : Device) : Device :=
  let x := d.led e
  let d := onCharges (fun cs => uncharge e (tickNow tm + 1) cs ++ chargesFrom e false s x.segs) d
  let d := ledgerOp e (fun x => { x with state := .granted, start := some s, first := s }) d
  let d := grantOnRail tm e d
  let d := hsInt 0 { d with hs := { d.hs with grants := d.hs.grants + 1 } }
  let stop := tickUs (s + totalMs x.segs)
  tellEntry tm .grant x.handle x.tag.toNat e.val (grantBytes x.tag.toNat e.val x.cls.val (tickUs s) stop) (some (tickUs s)) d

/-- REVOKED (R246, R267): charges of unbegun bins leave; Kindling's records are unwound (Table 9-7). -/
def revokeEntry (tm : TimeBase) (e : Fin 128) (why : LedReason) (d : Device) : Device :=
  let x := d.led e
  let d := onCharges (uncharge e (tickNow tm + 1)) d
  let d := ledgerOp e (fun x => { x with state := .revoked, reason := why, endedAt := tickNow tm }) d
  let d := hsInt 1 { d with hs := { d.hs with revokes := d.hs.revokes + 1 } }
  let d := raiseLedger tm 1 e (unwindEntry tm e d)
  match why, x.start with
  | .budget, some s => tellEntry tm .revoke x.handle x.tag.toNat e.val
      (reasonBytes x.tag.toNat e.val FrameReason.budget.code (tickUs s)) none d
  | _, _ => d

/-- SQUASHED, with the refusal and the record that some reasons bring (Table 9-4, R254, R271). -/
def squashEntry (tm : TimeBase) (e : Fin 128) (why : LedReason) (hint : Nat) (d : Device) : Device :=
  let x := d.led e
  let d := onCharges (uncharge e (tickNow tm + 1)) d
  let d := ledgerOp e (fun x => { x with state := .squashed, reason := why, endedAt := tickNow tm }) d
  let d := hsInt 2 { d with hs := { d.hs with squashes := d.hs.squashes + 1 } }
  let d := unwindEntry tm e d
  let refuse (r : FrameReason) (d : Device) : Device :=
    tellEntry tm .refuse x.handle x.tag.toNat e.val (refuseBytes x.tag.toNat e.val r.code 0x08 hint) none
      (raiseLedger tm 2 e d)
  match why with
  | .window => refuse .window d
  | .busy => refuse .busy d
  | .nofit => refuse .nofit d
  | _ => d

/-- DONE (Table 9-4): charges of unbegun bins leave; Kindling's records are released at the rail's next boundary (R225). -/
def finishEntry (tm : TimeBase) (e : Fin 128) (why : LedReason) (d : Device) : Device :=
  let x := d.led e
  let d := onCharges (uncharge e (tickNow tm + 1)) d
  let d := ledgerOp e (fun x => { x with state := .done, reason := why, endedAt := tickNow tm }) d
  match x.rail with
  | some r => d.onRail r fun y => { y with ended := y.ended ++ [e] }
  | none => d

/-- PLANNED back to QUEUED (Table 9-4). -/
def unplanEntry (tm : TimeBase) (e : Fin 128) (d : Device) : Device :=
  ledgerOp e (fun x => { x with state := .queued, start := none }) (onCharges (uncharge e (tickNow tm + 1)) d)

/-! ### Intake (R234 to R237) -/

/-- Why a request is refused, with its hint (Table 9-3), or its e and l. -/
def intakeCheck (tm : TimeBase) (n : Nat) (q : Request) (d : Device) : Except (FrameReason × Nat) (Nat × Nat × Nat) :=
  let len := totalMs q.segs
  let peak := peakOf q.segs
  let e := (max (tickAtOrAfter n q.earliest) (n + 1)).toNat
  let bound := match d.str.sched with | some s => bankGet s.body.bound q.cls | none => 0
  let lt := (tickAtOrBefore n q.latest).toNat
  let l := if q.cls = 0 then e else min lt (e + bound)
  let fitsAt (s : Nat) : Bool := (List.range len).all fun j =>
    decide (binSum d.hs.charges false (s + j) + powerAt q.segs j ≤ d.hs.feed)
  if d.hs.mode = 2 ∧ q.cls ≠ 0 then .error (.notConfigured, noHint)
  else if q.cls ≠ 0 ∧ d.hs.mode ≠ 1 ∧ !supRunning tm d then .error (.busy, 100)
  else if (entriesIn d fun s => decide (s = .free)).isEmpty then .error (.busy, 10)
  else if len > 2000 ∨ peak > (standingOf d q.handle.val q.unit.toNat).peakMax * 10000 then .error (.oversize, noHint)
  else if q.cls = 0 ∧ peak > d.hs.feed then .error (.oversize, noHint)
  else if e + len > n + 2048 then .error (.far, min (e + len - (n + 2048)) 0xFFFE)
  else if q.cls ≠ 0 ∧ l < e then .error (.window, noHint)
  else if d.hs.mode = 1 ∧ q.cls ≠ 0 ∧ !fitsAt e then
    .error (.budget, match (List.range (n + 2048 - len - e)).find? fun j => fitsAt (e + 1 + j) with
      | some j => e + 1 + j - n
      | none => noHint)
  else .ok (e, l, lt)

/-- One request at step 5 (Table 9-4). -/
def intakeOne (tm : TimeBase) (n : Nat) (d : Device) (q : Request) : Device :=
  match intakeCheck tm n q d, entriesIn d (fun s => decide (s = .free)) with
  | .error (why, hint), _ =>
    tellIntake tm .refuse q.handle q.tag.toNat 0xFF (refuseBytes q.tag.toNat 0xFF why.code 0x08 hint) d
  | .ok _, [] => d
  | .ok (e, l, lt), k :: _ =>
    let d := ledgerOp k (fun _ => { Entry.free with
      state := .queued, cls := q.cls, handle := q.handle, tag := q.tag, early := e, last := l, latest := lt
      rail := (standingOf d q.handle.val q.unit.toNat).rail, segs := q.segs, order := d.hs.order + 1 })
      { d with hs := { d.hs with order := d.hs.order + 1 } }
    let d := tellIntake tm .pending q.handle q.tag.toNat k.val (pendingBytes q.tag.toNat k.val q.cls.val (tickUs e)) d
    if q.cls = 0 ∨ d.hs.mode = 1 then grantEntry tm k e d else d

/-! ### The other steps of a tick -/

/-- Step 2. -/
def activate (n : Nat) (d : Device) : Device :=
  (entriesIn d fun s => decide (s = .granted)).foldl (fun d e =>
    if (d.led e).start = some n then ledgerOp e (fun x => { x with state := .active }) d else d) d

/-- TIMEOUT of a class in ms (R62). -/
def timeoutMs (d : Device) (c : Fin 3) : Nat :=
  match d.str.sched with
  | some s => bankGet s.body.timeout c
  | none => 1000

/-- Step 3 for one entry: an ACTIVE entry whose end plus TIMEOUT has come is DONE, and ENDED is sent. -/
def completionTimeout (tm : TimeBase) (n : Nat) (e : Fin 128) (d : Device) : Device :=
  let x := d.led e
  if x.state = .active ∧ n ≥ endTick x + timeoutMs d x.cls then
    tellEntry tm .ended x.handle x.tag.toNat e.val
      (reasonBytes x.tag.toNat e.val FrameReason.timeout.code (tickUs n)) none (finishEntry tm e .timeout d)
  else d

/-- Step 4. -/
def freeEnded (n : Nat) (d : Device) : Device :=
  (entriesIn d LedState.ended).foldl (fun d e =>
    if (d.led e).endedAt < n then ledgerOp e (fun _ => Entry.free) d else d) d

/-- The entries whose profiles count as committed. -/
def committedEntries (d : Device) : List (Fin 128) := entriesIn d fun s => decide (s = .granted) || decide (s = .active)

/-- Which of two GRANTED entries is revoked first (R246). -/
def revokedBefore (d : Device) (a b : Fin 128) : Bool :=
  let x := d.led a
  let y := d.led b
  if x.cls ≠ y.cls then decide (x.cls > y.cls)
  else if x.start ≠ y.start then decide (x.start.getD 0 > y.start.getD 0)
  else decide (a > b)

/-- Step 6 (R246); the fuel is the number of entries. -/
def committedCheck (tm : TimeBase) (n : Nat) : Nat → Device → Device
  | 0, d => d
  | fuel + 1, d =>
    if fitsLoads d (loads d n (committedEntries d)) then { d with hs := { d.hs with overdraw := false } } else
    let cands := (entriesIn d fun s => decide (s = .granted)).filter fun e =>
      decide ((d.led e).cls ≠ 0) && decide ((d.led e).start.getD 0 > n)
    match cands with
    | [] => raiseHearth tm 4 (hsInt 4 { d with hs := { d.hs with overdraw := true } })
    | c :: cs => committedCheck tm n fuel (revokeEntry tm (cs.foldl (fun b x => if revokedBefore d x b then x else b) c) .budget d)

/-- PLANNED entries, most recently planned first. -/
def plannedNewestFirst (d : Device) : List (Fin 128) :=
  let rec insert (e : Fin 128) : List (Fin 128) → List (Fin 128)
    | [] => [e]
    | y :: ys => if (d.led e).plannedOrder > (d.led y).plannedOrder then e :: y :: ys else y :: insert e ys
  (entriesIn d fun s => decide (s = .planned)).foldl (fun l e => insert e l) []

/-- Step 7 (R246). -/
def plannedCheck (tm : TimeBase) (n : Nat) (d : Device) : Device :=
  if fitsLoads d (loads d n (committedEntries d ++ plannedNewestFirst d)) then d else
  let d := (plannedNewestFirst d).foldl (fun d e => unplanEntry tm e d) d
  raiseHearth tm 3 (hsInt 3 { d with hs := { d.hs with invalids := d.hs.invalids + 1 } })

/-- Step 8. -/
def windowSquashes (tm : TimeBase) (n : Nat) (d : Device) : Device :=
  (entriesIn d fun s => decide (s = .queued)).foldl (fun d e =>
    let x := d.led e
    if x.last < n + 1 then squashEntry tm e .window noHint d
    else if x.cls ≠ 0 ∧ !supRunning tm d then squashEntry tm e .busy 100 d
    else d) d

/-- Does an entry's start keep the distance p(r) from the starts of other entries in given states (R242, R244)? A reversal
counts as a start at its FROM (R247). -/
def pauseOk (d : Device) (e : Fin 128) (s : Nat) (among : LedState → Bool) : Bool :=
  match (d.led e).rail with
  | none => true
  | some r =>
    let p := bankGet d.hs.pause r
    (entriesIn d among).all fun y =>
      decide (y = e) || decide ((d.led y).rail ≠ some r) || (match (d.led y).start with
        | some t => decide (((t : Int) - s).natAbs ≥ p) && decide ((((d.led y).first : Int) - s).natAbs ≥ p)
        | none => true)

/-- Entries to consider at step 9, in ascending start and entry number. -/
def startOrder (d : Device) (es : List (Fin 128)) : List (Fin 128) :=
  let before (a b : Fin 128) : Bool :=
    let x := (d.led a).start.getD 0
    let y := (d.led b).start.getD 0
    if x ≠ y then decide (x < y) else decide (a < b)
  let rec insert (e : Fin 128) : List (Fin 128) → List (Fin 128)
    | [] => [e]
    | y :: ys => if before e y then e :: y :: ys else y :: insert e ys
  es.foldl (fun l e => insert e l) []

/-- Step 9 (R242). -/
def confirmEntries (tm : TimeBase) (n : Nat) (d : Device) : Device :=
  let lead := max 1 d.hs.commitLead.toNat
  let planned := entriesIn d fun s => decide (s = .planned)
  let late := planned.filter fun e => decide ((d.led e).start.getD 0 ≤ n)
  let due := planned.filter fun e => decide (n < (d.led e).start.getD 0 ∧ (d.led e).start.getD 0 ≤ n + lead)
  let d := late.foldl (fun d e => unplanEntry tm e d) d
  (startOrder d due).foldl (fun d e =>
    let x := d.led e
    let s := x.start.getD 0
    let l := addProfile n s x.segs (loads d n (committedEntries d))
    if fitsLoads d l && pauseOk d e s fun t => decide (t = .granted) || decide (t = .active) then grantEntry tm e s d
    else unplanEntry tm e d) d

/-! ### The supervisor's presence (R243, R254) -/

/-- The start of an absence is recorded once; none is recorded before the first heartbeat. -/
def noteAbsence (tm : TimeBase) (d : Device) : Device :=
  if d.hs.supOk && !supRunning tm d then
    raiseHearth tm 7 (hsInt 5 { d with hs := { d.hs with supOk := false } })
  else d

/-- Steps 1 to 10 of the present tick, run once for each tick (R243). -/
def hearthTick (tm : TimeBase) (d : Device) : Device :=
  let n := tickNow tm
  if d.hs.ranTick = some n ∨ d.pwr.mode = .standby then d else
  let d := noteAbsence tm { d with hs := { d.hs with ranTick := some n } }
  let d := activate n (takeQuantities n d)
  let d := (entriesIn d fun s => decide (s = .active)).foldl (fun d e => completionTimeout tm n e d) d
  let d := freeEnded n d
  let reqs := d.hs.requests
  let d := reqs.foldl (intakeOne tm n) { d with hs := { d.hs with requests := [] } }
  let d := committedCheck tm n 129 d
  let d := if supRunning tm d then plannedCheck tm n d else d
  let d := windowSquashes tm n d
  if supRunning tm d then confirmEntries tm n d else d

/-- At every 100th tick since the report a thermal pause changes (R247). -/
def pauseUpdate (tm : TimeBase) (r : Fin 64) (d : Device) : Device :=
  match d.str.sched with
  | none => d
  | some s =>
    let from' := bankGet d.hs.pauseFrom r
    if tickNow tm < from' + 100 then d else
    let p := bankGet d.hs.pause r
    let p := if bankGet d.hs.exhausted r then min (2 * p) s.body.pauseMax
      else if p / 2 < s.body.pauseMin then 0 else p / 2
    { d with hs := { d.hs with pause := bankSet d.hs.pause r p, pauseFrom := bankSet d.hs.pauseFrom r (from' + 100) } }

/-! ### Planning (R244, R245) -/

/-- The result of a planning command. -/
def planResult (r : PlanResult) (d : Device) : Device := { d with hs := { d.hs with planResult := r.code } }

/-- An entry is PLANNED at a tick, with the DEFER of R271. -/
def planEntry (tm : TimeBase) (e : Fin 128) (s : Nat) (d : Device) : Device :=
  let x := d.led e
  let tell := decide (x.deferred ≠ some s) && (decide (s > x.early) || x.deferred.isSome)
  let d := onCharges (fun cs => cs ++ chargesFrom e true s x.segs)
    { d with hs := { d.hs with order := d.hs.order + 1 } }
  let d := ledgerOp e (fun x => { x with
    state := .planned, start := some s, first := s, plannedOrder := d.hs.order
    deferred := if tell then some s else x.deferred }) d
  if tell then
    tellEntry tm .defer x.handle x.tag.toNat e.val (deferBytes x.tag.toNat e.val (tickUs s) (tickUs x.last)) none d
  else d

/-- The PLAN command (R245). -/
def planCommand (tm : TimeBase) (e : Fin 128) (start : Word) (d0 : Device) : Device :=
  let d := { d0 with hs := { d0.hs with planStart := start } }
  let n := tickNow tm
  let x := d.led e
  let s := (tickAtOrAfter n start).toNat
  let len := totalMs x.segs
  if x.state ≠ .queued ∨ !supRunning tm d then planResult .state d
  else if s < x.early ∨ x.last < s ∨ s < n + 1 ∨ n + 2048 < s + len then planResult .window d
  else if !fitsLoads d (addProfile n s x.segs (loads d n (committedEntries d ++ plannedNewestFirst d))) then
    planResult .budget d
  else planResult .ok (planEntry tm e s d)

/-- The INVALIDATE command (Table 9-4). -/
def invalidateCommand (tm : TimeBase) (e : Fin 128) (d : Device) : Device :=
  if (d.led e).state = .planned ∧ supRunning tm d then planResult .ok (unplanEntry tm e d) else planResult .state d

/-- The SQUASH command (Table 9-4). -/
def squashCommand (tm : TimeBase) (e : Fin 128) (hint : Nat) (d : Device) : Device :=
  match (d.led e).state with
  | .queued | .planned => planResult .ok (squashEntry tm e .nofit hint d)
  | _ => planResult .state d

/-- rail_fits of R244. -/
def railFits (d : Device) (e : Fin 128) (s : Nat) : Bool :=
  let x := d.led e
  match x.rail with
  | none => true
  | some r =>
    let mine := (committedEntries d ++ plannedNewestFirst d).filter fun y => decide ((d.led y).rail = some r)
    (List.range (totalMs x.segs)).all fun j =>
      decide (mine.foldl (fun a y => a + entryPower d y (s + j)) 0 + powerAt x.segs j ≤ bankGet d.hs.railCap r)

/-- The first start that the planner finds for an entry. -/
def findStart (d : Device) (n : Nat) (e : Fin 128) : Option Nat :=
  let x := d.led e
  let base := loads d n (committedEntries d ++ plannedNewestFirst d)
  let lo := max x.early (n + 1)
  let hi := min x.last (n + 2048 - totalMs x.segs)
  ((List.range (hi + 1 - lo)).map (lo + ·)).find? fun s =>
    fitsLoads d (addProfile n s x.segs base) && railFits d e s
      && pauseOk d e s fun t => decide (t = .granted) || decide (t = .active) || decide (t = .planned)

/-- QUEUED entries of class 1 and 2 by l, class and order of intake. -/
def planOrder (d : Device) : List (Fin 128) :=
  let before (a b : Fin 128) : Bool :=
    let x := d.led a
    let y := d.led b
    if x.last ≠ y.last then decide (x.last < y.last)
    else if x.cls ≠ y.cls then decide (x.cls < y.cls) else decide (x.order < y.order)
  let rec insert (e : Fin 128) : List (Fin 128) → List (Fin 128)
    | [] => [e]
    | y :: ys => if before e y then e :: y :: ys else y :: insert e ys
  ((entriesIn d fun s => decide (s = .queued)).filter fun e => decide ((d.led e).cls ≠ 0)).foldl (fun l e => insert e l) []

/-- One pass of the planner (R244): plans of a rail whose K fell or whose p rose are taken back, and then each queued entry
is placed. -/
def planPass (tm : TimeBase) (d : Device) : Device :=
  if d.hs.mode ≠ 0 ∨ !supRunning tm d then d else
  let n := tickNow tm
  let worse (r : Fin 64) : Bool :=
    decide (bankGet d.hs.railCap r < bankGet d.hs.lastCap r) || decide (bankGet d.hs.pause r > bankGet d.hs.lastPause r)
  let back := (plannedNewestFirst d).filter fun e => match (d.led e).rail with
    | some r => worse r
    | none => false
  let d := back.foldl (fun d e => invalidateCommand tm e d)
    { d with hs := { d.hs with lastCap := d.hs.railCap, lastPause := d.hs.pause } }
  (planOrder d).foldl (fun d e => match findStart d n e with
    | some s => planCommand tm e (tickUs s) d
    | none => d) d

/-! ### What frames do to the ledger (R238, R239, R267) -/

/-- A cancel frame (Table 9-4). -/
def cancelEntry (tm : TimeBase) (e : Fin 128) (d : Device) : Option Device :=
  match (d.led e).state with
  | .queued | .planned | .granted | .active => some (squashEntry tm e .cancel noHint d)
  | _ => none

/-- A completion frame (Table 9-4). -/
def completeEntry (tm : TimeBase) (e : Fin 128) (d : Device) : Option Device :=
  match (d.led e).state with
  | .active => some (finishEntry tm e .none d)
  | _ => none

/-- A reverse frame (R239): FROM, the new end and whether the profile was cut. -/
def reverseEntry (tm : TimeBase) (e : Fin 128) (segs : List Seg) (d : Device) : Option (Device × Nat × Nat × Bool) :=
  let x := d.led e
  let n := tickNow tm
  let act (from' : Nat) : Device × Nat × Nat × Bool :=
    let room := n + 2048 - from'
    let cut := decide (totalMs segs > room)
    let new := if cut then cutProfile segs room else segs
    let d := onCharges (fun cs => uncharge e from' cs ++ chargesFrom e false from' new) d
    let d := ledgerOp e (fun x => { x with
      segs := new, first := from', reason := if cut then .reverseCut else x.reason }) d
    (rewarm tm e d, from', from' + totalMs new, cut)
  match x.state, x.start with
  | .active, _ => some (act (n + 1))
  | .granted, some s => some (act s)
  | _, _ => none

/-- A handle leaves (Table 9-4, R267). -/
def handleLeaves (tm : TimeBase) (h : Fin 256) (d : Device) : Device :=
  (bankWhere d.hs.ledger fun x => decide (x.handle = h)).foldl (fun d e =>
    match (d.led e).state with
    | .queued | .planned => squashEntry tm e .left noHint d
    | .granted => revokeEntry tm e .left d
    | _ => d) d

/-- The scheduler's mode (Table 9-2). -/
def modeFor (d : Device) : Fin 3 :=
  if d.sys.strapMode then (if d.sys.strap.getLsbD 3 then 1 else 2) else if d.str.sched.isSome then 0 else 2

/-- A SCHED section takes effect at a tick (R86): entries that are QUEUED or PLANNED are planned again under the new bounds. -/
def applySched (tm : TimeBase) (new : Option (InForce SchedSect)) (d : Device) : Device :=
  let d := { d with str := { d.str with sched := new } }
  let d := { d with hs := { d.hs with
    mode := modeFor d
    pause := if new.isSome then d.hs.pause else bankFill 64 0 } }
  let d := (plannedNewestFirst d).foldl (fun d e => unplanEntry tm e d) d
  (entriesIn d fun s => decide (s = .queued)).foldl (fun d e =>
    let x := d.led e
    if x.cls = 0 then d else
    let bound := match new with | some s => bankGet s.body.bound x.cls | none => 0
    ledgerOp e (fun x => { x with last := min x.latest (x.early + bound) }) d) d

/-! ### The ring link -/

/-- A number into a frame, most significant byte first. -/
def putBe (bs : List Byte) (off n v : Nat) : List Byte := bs.take off ++ beBytes n v ++ bs.drop (off + n)

/-- FLOOR and DEMAND of this position (R250). -/
def ringDemand (d : Device) (n : Nat) : Nat × Nat :=
  let bins := (List.range 64).map (· + n + 2)
  let com := bins.foldl (fun a m => max a (binSum d.hs.charges false m)) 0
  let both := bins.foldl (fun a m => max a (binSum d.hs.charges false m + binSum d.hs.charges true m)) 0
  let queued := (entriesIn d fun s => decide (s = .queued)).foldl (fun a e => a + peakOf (d.led e).segs) 0
  let own := d.hs.base + d.hs.margin.toNat
  let floor := own + com
  (floor, max floor (own + both + queued))

/-- This position's DEMAND and FLOOR written into a frame, with its CRC. -/
def fillFrame (d : Device) (n : Nat) (bs : List Byte) : List Byte :=
  let p := d.str.device.body.ringPos
  let fd := ringDemand d n
  let bs := putBe (putBe bs (0x10 + 12 * p) 4 (min fd.2 0xFFFFFFFF)) (0x14 + 12 * p) 4 (min fd.1 0xFFFFFFFF)
  putBe bs 0x6C 4 (crc32c (bs.take 0x6C))

/-- Does the ring link run: the device is in a ring, and SCLK runs (R248)? -/
def ringLive (d : Device) : Bool := decide (d.str.device.body.ringSize ≥ 2) && decide (d.pwr.mode ≠ .standby)

/-- The frame that position 0 starts at an epoch (R249). -/
def ringStart (tm : TimeBase) (d : Device) : Device :=
  let s := d.str.device.body
  if !ringLive d ∨ s.ringPos ≠ 0 then d else
  let n := tickNow tm
  let head := [0xE1, byte s.ringSize] ++ beBytes 6 (n + 1) ++ beBytes 4 s.feedLimit
  let body := (List.finRange 8).flatMap fun p =>
    (if p.val < s.ringSize then beBytes 4 (bankGet d.ring.shares p).toNat else beBytes 4 0) ++ List.replicate 8 0
  { d with ring := { d.ring with out := fillFrame d n ((head ++ body).takeD 112 0), unsent := true } }

/-- One T-tick of the transmitter of RLKOUT (R248): ten bits of a code group in 80 T-ticks. A frame that waits starts with its
SOC; between frames the pair carries IDLE; outside a ring it is idle. -/
def ringLinkTick (live : Bool) (r : RingLink) : RingLink :=
  if !live then { r with unsent := false, line := lineOff r.line }
  else if r.line.left ≠ 0 then { r with line := { r.line with left := r.line.left - 1 } }
  else if !r.line.rest.isEmpty then { r with line := lineLoad 80 r.line.rest r.line }
  else if r.unsent && !idleDue r.line 113 then { r with unsent := false, line := lineLoad 80 (symCell r.out) r.line }
  else { r with line := lineIdle 80 r.line }

/-- The bit that RLKOUT carries in the present T-tick; logic 0 while the pair is idle (R248). -/
def ringBit (r : RingLink) : Bool := lineBit r.line (r.line.left / 8)

/-- Is a frame valid here (R249)? -/
def ringValid (d : Device) (bs : List Byte) : Bool :=
  decide (bs.length = 112) && decide (beAt bs 0 1 = 0xE1) && decide (beAt bs 1 1 = d.str.device.body.ringSize)
    && decide (beAt bs 0x6C 4 = crc32c (bs.take 0x6C))

/-- The shares that position 0 forms (R251). -/
def ringShares (bs : List Byte) : Bank 8 Word :=
  let k := beAt bs 1 1
  let l := beAt bs 8 4
  let dem (p : Nat) : Nat := beAt bs (0x10 + 12 * p) 4
  let flo (p : Nat) : Nat := beAt bs (0x14 + 12 * p) 4
  let ps := List.range k
  let fs := ps.foldl (fun a p => a + flo p) 0
  let ds := ps.foldl (fun a p => a + max (flo p) (dem p)) 0
  bankOf fun p =>
    if p.val ≥ k then 0
    else word (if fs ≥ l then l * flo p.val / fs
      else if ds ≤ l then max (flo p.val) (dem p.val) + (l - ds) / k
      else flo p.val + (l - fs) * (max (flo p.val) (dem p.val) - flo p.val) / (ds - fs))

/-- A frame arrives on RLKIN (R249 to R251). -/
def ringFrame (tm : TimeBase) (bs : List Byte) (d : Device) : Device :=
  let s := d.str.device.body
  if !ringLive d then d
  else if !ringValid d bs then { d with ring := { d.ring with errors := d.ring.errors + 1 } }
  else
    let n := tickNow tm
    let share := word (beAt bs (0x0C + 12 * s.ringPos) 4)
    let back := d.ring.lost
    let d : Device := { d with tbi := { d.tbi with ring := { d.tbi.ring with linkEpoch := some (beAt bs 2 6) } } }
    let d := { d with ring := { d.ring with
      frames := d.ring.frames + 1
      share := share
      nextEpoch := BitVec.ofNat 48 (beAt bs 2 6)
      heardAt := some tm.time.toNat
      shareNext := some (n, share)
      lost := false
      shares := if s.ringPos = 0 then ringShares bs else d.ring.shares
      out := if s.ringPos = 0 then d.ring.out else fillFrame d n bs
      unsent := d.ring.unsent || decide (s.ringPos ≠ 0) } }
    if back then raiseHearth tm 6 d else d

/-- The ring link reports no epoch number when no valid frame has arrived within the last two epochs (R249). -/
def freshLink (tm : TimeBase) (d : Device) : Device :=
  match d.ring.heardAt with
  | some t => if tm.time.toNat - t ≤ 1600000 then d else
      { d with tbi := { d.tbi with ring := { d.tbi.ring with linkEpoch := none } } }
  | none => d

/-- 100 ms without a share or a returned frame: F falls back to STANDALONE_LIMIT (R20, R251). -/
def ringTimeout (tm : TimeBase) (d : Device) : Device :=
  match d.ring.heardAt with
  | some t =>
    if d.ring.lost ∨ tm.time.toNat - t < 80000000 then d else
    raiseHearth tm 5 (hsInt 6 { d with ring := { d.ring with shareNow := none, shareNext := none, lost := true } })
  | none => d

end Sys2Proof.Machine
end

