-- ==== Sys2Proof/Machine/Partner.lean ====
section
/-! DEFINITION. The partner ports (spec 10_partner_bus.md): joining and leaving (R265 to R269), requests and the frames that act
on entries (R270 to R274), voltage requests (R275), SYNC (R262), and the two controllers (R255 to R257, R276, R278). -/

namespace Sys2Proof.Machine

/-! ### Settings -/

/-- LEASE in ms (Table 10-9). -/
def leaseMs (d : Device) : Nat := min (max 100 d.pp.lease.toNat) 60000

/-- HOLDOFF in ms (Table 10-9). -/
def holdoffMs (d : Device) : Nat := min d.pp.holdoff.toNat 60000

/-- MAX_OPEN (Table 10-9). -/
def maxOpen (d : Device) : Nat := min (max 1 d.pp.maxOpen.toNat) 8

/-- BOOT_ID (R260, Table 15-4). -/
def bootId (d : Device) : Nat := (bankGet d.ocs.counters 0).toNat % 65536

/-- An interrupt bit of PP.INT_STATUS. -/
def ppInt (i : Nat) (d : Device) : Device := { d with pp := { d.pp with intStatus := setBit d.pp.intStatus i } }

/-- The event of R282. -/
def raisePartner (tm : TimeBase) (event h b : Nat) (reason : FrameReason) (unit : Nat) (d : Device) : Device :=
  raise tm 0x60 ([byte event, byte h, byte b, byte reason.code] ++ leBytes 2 unit) d

/-- Do the ports send and receive frames (R255, R363)? -/
def portsLive (d : Device) : Bool := decide (d.sys.step = .ready) && decide (d.pwr.mode ≠ .standby)

/-- Is a controller on its bus: enabled, from READY on, and not bus-off? -/
def busOn (d : Device) (b : Fin 2) : Bool :=
  let c := bankGet d.pp.buses b
  decide (d.sys.step = .ready) && c.en && (decide (c.state = .active) || decide (c.state = .passive))

/-- Does a controller receive? -/
def busListens (d : Device) (b : Fin 2) : Bool := portsLive d && busOn d b

/-- Does a controller send? -/
def busSends (d : Device) (b : Fin 2) : Bool := busListens d b && !(bankGet d.pp.buses b).listen

/-- Fault confinement (R256): an error-passive controller is error-active again once both counters are below 128. -/
def settleErrors (c : CanBus) : CanBus :=
  if c.state = .passive ∧ c.tecCount.toNat < 128 ∧ c.recCount.toNat < 128 then { c with state := .active } else c

/-- REC after a frame received without error (R256): one less; from above 127, a value of 119 to 127, which the standard leaves
free. -/
def recAfter (draw : Nat) (n : Byte) : Byte :=
  if n = 0 then 0 else if n.toNat < 128 then n - 1 else byte (119 + (Config.canReceived draw).val)

/-- A controller receives a frame without error (R256). -/
def received (b : Fin 2) (d : Device) : Device :=
  { d.onBus b (fun c => settleErrors { c with recCount := recAfter d.draws c.recCount }) with draws := d.draws + 1 }

/-- A frame arrives on a bus: one for this device is counted, and then acted on. One for another NODE is ignored (R259). -/
def arrived (b : Fin 2) (node : BitVec 4) (f : Device → Device) (d : Device) : Device :=
  if !busOn d b then d else
  let t := received b d
  if portsLive t && decide (node = t.pp.node) then f (t.onBus b fun c => { c with rx := c.rx + 1 }) else t

/-- A valid frame from a handle (R267, R276): it sets the home bus and renews the lease, unless it names another unit than the
holder's. -/
def heardFrom (tm : TimeBase) (b : Fin 2) (h : Fin 256) (unit : Option (BitVec 16)) (d : Device) : Device :=
  d.onPartner h fun p =>
    if !p.held then { p with home := decide (b = 1) }
    else if unit = none ∨ unit = some p.unit then
      { p with home := decide (b = 1), lastRx := word tm.us.toNat, leaseFrom := tm.time.toNat, frames := p.frames + 1 }
    else p

/-! ### Leaving -/

/-- Why a handle leaves. -/
inductive LeaveCause where
  | leave
  | evict
  | takeover
  | expiry
deriving DecidableEq, Repr

/-- The voltage requests of a handle are withdrawn (R215, R267). -/
def dropRequests (h : Fin 256) (d : Device) : Device :=
  { d with rails := bankMap d.rails fun _ x => { x with requests := x.requests.filter fun q => decide (q.handle ≠ h) } }

/-- A handle leaves (R267, R268, R282); its record stands before those of its entries (16_ash_and_bog.md, worked example). -/
def freeHandle (tm : TimeBase) (h : Fin 256) (why : LeaveCause) (d : Device) : Device :=
  let p := bankGet d.pp.partners h
  let d := d.onPartner h fun _ => { Partner.reset with
    home := p.home, holdoff := if p.listed then none else some (tm.time.toNat, p.unit) }
  let d := ppInt 1 d
  let b := bit p.home
  let d := match why with
    | .leave => { d with pp := { d.pp with leaves := d.pp.leaves + 1 } }
    | .evict => raisePartner tm 3 h.val b .left p.unit.toNat { d with pp := { d.pp with leaves := d.pp.leaves + 1 } }
    | .takeover => raisePartner tm 1 h.val b .left p.unit.toNat
        (ppInt 3 { d with pp := { d.pp with takeovers := d.pp.takeovers + 1 } })
    | .expiry => raisePartner tm 2 h.val b .timeout p.unit.toNat { d with pp := { d.pp with expiries := d.pp.expiries + 1 } }
  dropRequests h (handleLeaves tm h d)

/-- LEAVE (R267, R279). -/
def leaveFrame (tm : TimeBase) (b : Fin 2) (h : Fin 256) (unit : BitVec 16) (d : Device) : Device :=
  let d := heardFrom tm b h (some unit) d
  let p := bankGet d.pp.partners h
  let ack (d : Device) : Device := sendKind tm .leaveAck h (beBytes 2 unit.toNat ++ [0, 0]) none d
  if !p.held ∨ p.unit ≠ unit then ack d
  else if supRunning tm d then freeHandle tm h .leave (ack d)
  else { ack d with pp := { (ack d).pp with leavesWaiting := d.pp.leavesWaiting ++ [(h, unit)] } }

/-- KEEPALIVE (R267, R279). -/
def keepaliveFrame (tm : TimeBase) (b : Fin 2) (h : Fin 256) (unit : BitVec 16) (d : Device) : Device :=
  if supRunning tm d then heardFrom tm b h (some unit) d else d

/-- The lease check of one handle (R267). -/
def leaseExpires (tm : TimeBase) (h : Fin 256) (d : Device) : Device :=
  let p := bankGet d.pp.partners h
  if p.held ∧ supRunning tm d ∧ d.pwr.mode ≠ .standby ∧ tm.time.toNat - p.leaseFrom ≥ msTicks (leaseMs d) then freeHandle tm h .expiry d else d

/-- Is a handle in holdoff (R268)? -/
def inHoldoff (tm : TimeBase) (d : Device) (p : Partner) : Bool :=
  match p.holdoff with
  | some (t, _) => decide (tm.time.toNat - t < msTicks (holdoffMs d))
  | none => false

/-- A holdoff ends (R268). -/
def holdoffEnds (tm : TimeBase) (h : Fin 256) (d : Device) : Device :=
  if inHoldoff tm d (bankGet d.pp.partners h) then d else d.onPartner h fun p => { p with holdoff := none }

/-- LEASE ms after a supervisor start (R269). -/
def orphansLeave (tm : TimeBase) (d : Device) : Device :=
  if tm.time.toNat - d.pp.supStart < msTicks (leaseMs d) then d else
  ((List.finRange 256).filter fun h => !(bankGet d.pp.partners h).held &&
    (entriesIn d fun s => decide (s ≠ .free) && !s.ended).any fun e => decide ((d.led e).handle = h)).foldl
      (fun d h => dropRequests h (handleLeaves tm h d)) d

/-! ### Joining -/

/-- JOIN_ACK of a held handle (R265, R276). -/
def joinAck (tm : TimeBase) (h : Fin 256) (d : Device) : Device :=
  let p := bankGet d.pp.partners h
  let rail := match p.rail with | some r => r.val | none => 0xFF
  let bytes := beBytes 4 p.nonce.toNat ++ beBytes 2 p.unit.toNat ++ [byte h.val, byte p.ceil.val, byte rail, byte (bit p.vreqOk)]
    ++ beBytes 2 (leaseMs d) ++ beBytes 2 (bootId d) ++ [byte d.pp.htgen.toNat, 0]
  sendKind tm .joinAck h bytes none d

/-- A handle is given (R265). -/
def giveHandle (tm : TimeBase) (b : Fin 2) (h : Fin 256) (unit : BitVec 16) (nonce : Word) (d : Device) : Device :=
  let s := standingOf d h.val unit.toNat
  let now := word tm.us.toNat
  let d := d.onPartner h fun _ => { Partner.reset with
    held := true, home := decide (b = 1), listed := s.listed, ceil := s.ceil, vreqOk := s.vreqOk, rail := s.rail
    peakMax := s.peakMax, unit := unit, nonce := nonce, joined := now, lastRx := now, leaseFrom := tm.time.toNat }
  joinAck tm h (ppInt 0 { d with pp := { d.pp with joins := d.pp.joins + 1 } })

/-- JOIN_REFUSE (R258, R265). -/
def joinRefuse (tm : TimeBase) (b : Fin 2) (unit : BitVec 16) (nonce : Word) (why : FrameReason) (hint : Nat) (d : Device) :
    Device :=
  let k := FrameKind.joinRefuse
  queueFrame tm b (frameId k.prio k.type d.pp.node.toNat (unit.toNat * 2))
    (beBytes 4 nonce.toNat ++ beBytes 2 unit.toNat ++ [byte why.code, 0] ++ beBytes 2 hint ++ [0, 0]) none d

/-- The handle for an unlisted unit (R265 step 6). -/
def unlistedHandle (tm : TimeBase) (unit : BitVec 16) (rejoin : Bool) (prev : Fin 256) (d : Device) : Option (Fin 256) :=
  let ok (h : Fin 256) : Bool :=
    let p := bankGet d.pp.partners h
    !inRange d h.val && !p.held && !(inHoldoff tm d p && (match p.holdoff with
      | some (_, u) => decide (u ≠ unit)
      | none => false))
  if rejoin && ok prev then some prev else (List.finRange 256).find? ok

/-- The hint of FULL (R268). -/
def fullHint (tm : TimeBase) (d : Device) : Nat :=
  let lefts := (List.finRange 256).filterMap fun h =>
    let p := bankGet d.pp.partners h
    match p.holdoff with
    | some (t, _) => if inHoldoff tm d p then some (ceilDiv (t + msTicks (holdoffMs d) - tm.time.toNat) 800000) else none
    | none => none
  min 0xFFFE (match lefts with
    | [] => leaseMs d
    | x :: xs => xs.foldl min x)

/-- JOIN (R265, R266). A repeat changes nothing of what its handle was given, and is a valid frame from the handle as any other is
(R267, R276; assumption 43). -/
def joinFrame (tm : TimeBase) (b : Fin 2) (unit : BitVec 16) (nonce : Word) (rejoin : Bool) (prev : Fin 256) (proto : BitVec 16)
    (d : Device) : Device :=
  if proto ≠ 1 then joinRefuse tm b unit nonce .protocol noHint d
  else if !lifecycleRuns d then joinRefuse tm b unit nonce .lifecycle noHint d
  else if !supRunning tm d then joinRefuse tm b unit nonce .busy 100 d
  else match (bankWhere d.pp.partners fun p => p.held && decide (p.unit = unit)).head? with
    | some h =>
      if (bankGet d.pp.partners h).nonce = nonce then
        joinAck tm h (heardFrom tm b h (some unit) d)
      else giveHandle tm b h unit nonce (freeHandle tm h .takeover d)
    | none =>
      match (listingOf d unit.toNat).bind fun p => fin? 256 (listedHandle p unit.toNat) with
      | some h =>
        giveHandle tm b h unit nonce (if (bankGet d.pp.partners h).held then freeHandle tm h .takeover d else d)
      | none =>
        match unlistedHandle tm unit rejoin prev d with
        | some h => giveHandle tm b h unit nonce d
        | none => joinRefuse tm b unit nonce .full (fullHint tm d)
            (ppInt 2 { d with pp := { d.pp with fulls := satInc d.pp.fulls } })

/-! ### Requests -/

/-- Open entries of a handle with the requests that await intake (Table 10-7 check 4). -/
def openEntries (d : Device) (h : Fin 256) : Nat :=
  ((entriesIn d fun s => decide (s ≠ .free) && !s.ended).filter fun e => decide ((d.led e).handle = h)).length
    + (d.hs.requests.filter fun q => decide (q.handle = h)).length

/-- A discarded frame (R259). -/
def discardFrame (d : Device) : Device := ppInt 8 { d with pp := { d.pp with discards := satInc d.pp.discards } }

/-- The ledger's segments of a profile (R270). -/
def segsOf (p : List ProfileSeg) : List Seg := p.map fun s => ⟨s.dur.toNat, s.power.toNat * 10000, s.acc⟩

/-- Are the segments valid (Table 10-7 check 1, R274)? -/
def profileValid (segs : Nat) (p : List ProfileSeg) : Bool :=
  decide (1 ≤ segs ∧ segs ≤ 8) && p.all fun s => decide (1 ≤ s.dur.toNat ∧ s.dur.toNat ≤ 2000)

/-- Is the payload shorter than the layout that SEGS gives (R259)? -/
def profileShort (segs : Nat) (p : List ProfileSeg) : Bool := decide (1 ≤ segs ∧ segs ≤ 8) && decide (p.length < segs)

/-- The standing of a holder is taken up anew at a request (R86). -/
def refreshStanding (h : Fin 256) (d : Device) : Device :=
  let p := bankGet d.pp.partners h
  if !p.held then d else
  let s := standingOf d h.val p.unit.toNat
  d.onPartner h fun p => { p with listed := s.listed, ceil := s.ceil, vreqOk := s.vreqOk, rail := s.rail, peakMax := s.peakMax }

/-- MOTION_REQ (R270, R279). -/
def motionFrame (tm : TimeBase) (b : Fin 2) (h : Fin 256) (tag : Byte) (segs : Nat) (cls : Nat) (unit : BitVec 16)
    (earliest latest : Word) (profile : List ProfileSeg) (d : Device) : Device :=
  if profileShort segs profile then discardFrame d else
  let d := heardFrom tm b h (some unit) d
  let refuse (why : FrameReason) (hint : Nat) (d : Device) : Device :=
    sendKind tm .refuse h (refuseBytes tag.toNat 0xFF why.code 0x08 hint) none d
  let prof := profile.take segs
  let sup := supRunning tm d
  let p := bankGet d.pp.partners h
  let holds := if sup then p.held && decide (p.unit = unit)
    else match listingOf d unit.toNat with
      | some x => decide (listedHandle x unit.toNat = h.val)
      | none => false
  let s := standingOf d h.val unit.toNat
  let c : Fin 3 := max (Fin.ofNat 3 cls) s.ceil
  if !profileValid segs prof ∨ cls > 2 then refuse .badFrame noHint d
  else if !holds then refuse .notJoined noHint d
  else match tagItem p tag with
    | some x => if x.payload = [] then d else sendTo tm h x.id x.payload none d
    | none =>
      if openEntries d h ≥ maxOpen d then refuse .limit noHint d
      else if !sup ∧ c ≠ 0 then refuse .busy 100 d
      else
        let d := refreshStanding h (keepTag h tag d)
        { d with hs := { d.hs with requests := d.hs.requests ++ [⟨h, tag, c, unit, earliest, latest, segsOf prof⟩] } }

/-- The frames that act on an entry (R274). -/
inductive EntryFrame where
  | cancel
  | complete
  | reverse (segs : Nat) (profile : List ProfileSeg)
deriving DecidableEq, Repr

/-- TYPE of such a frame. -/
def EntryFrame.type : EntryFrame → Nat
  | .cancel => 0x0E
  | .complete => 0x11
  | .reverse _ _ => 0x0F

/-- The kind of the frame that answers it. -/
def EntryFrame.answer : EntryFrame → FrameKind
  | .cancel | .complete => .ended
  | .reverse _ _ => .reverseAck

/-- What such a frame does to the ledger, and the bytes of its answer; none where Table 9-4 has no row. -/
def actOnEntry (tm : TimeBase) (tag : Byte) (e : Fin 128) (f : EntryFrame) (d : Device) : Option (Device × List Byte) :=
  let at' := tickUs (tickNow tm)
  match f with
  | .cancel => (cancelEntry tm e d).map fun d => (d, reasonBytes tag.toNat e.val FrameReason.cancel.code at')
  | .complete => (completeEntry tm e d).map fun d => (d, reasonBytes tag.toNat e.val FrameReason.done.code at')
  | .reverse segs p => (reverseEntry tm e (segsOf (p.take segs)) d).map fun x =>
      (x.1, reverseAckBytes tag.toNat e.val x.2.2.2 (tickUs x.2.1) (tickUs x.2.2.1))

/-- CANCEL, COMPLETE and REVERSE (R272, R274, R279). -/
def entryFrame (tm : TimeBase) (b : Fin 2) (h : Fin 256) (tag entry : Byte) (f : EntryFrame) (d : Device) : Device :=
  let short := match f with
    | .reverse segs p => profileShort segs p
    | _ => false
  if short then discardFrame d else
  let d := heardFrom tm b h none d
  let refuse (why : FrameReason) : Device :=
    tellEntry tm .refuse h tag.toNat entry.toNat (refuseBytes tag.toNat entry.toNat why.code f.type noHint) none d
  let sup := supRunning tm d
  let p := bankGet d.pp.partners h
  let bad := match f with
    | .reverse segs q => !profileValid segs (q.take segs)
    | _ => false
  if sup ∧ !p.held then refuse .notJoined else
  let item := if sup then tagItem p tag else none
  match fin? 128 entry.toNat with
  | none => refuse .state
  | some e =>
    let mine := decide ((d.led e).handle = h)
    let matched := if sup then (match item with
        | some x => decide (x.entry = entry) && (mine || decide ((d.led e).state = .free))
        | none => false) else mine
    if !matched then refuse .state
    else match actOnEntry tm tag e f d with
      | some (d', bytes) => if bad then refuse .badFrame else tellEntry tm f.answer h tag.toNat e.val bytes none d'
      | none =>
        match item with
        | some x => if x.payload ≠ [] ∧ idType x.id = f.answer.type then sendTo tm h x.id x.payload none d else refuse .state
        | none => refuse .state

/-- VREQ (R275, R215). -/
def vreqFrame (tm : TimeBase) (b : Fin 2) (h : Fin 256) (tag : Byte) (value : Word) (d : Device) : Device :=
  let d := refreshStanding h (heardFrom tm b h none d)
  let p := bankGet d.pp.partners h
  let answer (why : FrameReason) (goal : Nat) (d : Device) : Device :=
    sendKind tm .vreqAck h (vreqAckBytes tag.toNat why.code (word goal)) none d
  let v := bits value.toNat 19 0
  if !p.held then answer .notJoined 0 d
  else if !supRunning tm d then answer .busy 0 d
  else if !p.vreqOk then answer .notAllowed 0 d
  else match p.rail with
    | none => answer .noRail 0 d
    | some r =>
      let rs := (d.rail r).requests
      if v = 0 then
        answer .ok 0 (d.onRail r fun x => { x with requests := x.requests.filter fun q => decide (q.handle ≠ h) })
      else if rs.any fun q => decide (q.handle = h) then
        answer .ok (clampWindow d r v) (d.onRail r fun x => { x with requests := x.requests.map fun q =>
          if q.handle = h then ⟨h, v, tm.time.toNat⟩ else q })
      else if rs.length ≥ 16 then answer .full 0 d
      else answer .ok (clampWindow d r v) (d.onRail r fun x => { x with requests := x.requests ++ [⟨h, v, tm.time.toNat⟩] })

/-- PARTNER.OP EVICT (R267). -/
def evictHandle (tm : TimeBase) (h : Fin 256) (d : Device) : Device :=
  if (bankGet d.pp.partners h).held then freeHandle tm h .evict d else d

/-! ### The supervisor -/

/-- A write of HS.HEARTBEAT (R243). When the supervisor comes back, every lease restarts, waiting LEAVEs are acted on, and
slots that wait for it are admitted (R124, R267, R279). -/
def heartbeat (tm : TimeBase) (d0 : Device) : Device :=
  if d0.fw.supReset ∨ d0.fw.supHalted then d0 else
  let was := supRunning tm d0
  let d := noteAbsence tm d0
  let d := if d.hs.everRan && !was then raiseHearth tm 8 d else d
  let d := { d with hs := { d.hs with heartbeat := some tm.time.toNat, everRan := true, supOk := true } }
  if was then d else
  let d := { d with pp := { d.pp with partners := bankMap d.pp.partners fun _ p => { p with leaseFrom := tm.time.toNat } } }
  let waiting := d.pp.leavesWaiting
  let d := waiting.foldl (fun d x =>
    let p := bankGet d.pp.partners x.1
    if p.held ∧ p.unit = x.2 then freeHandle tm x.1 .leave d else d) { d with pp := { d.pp with leavesWaiting := [] } }
  admitFound tm d

/-! ### SYNC and transmission -/

/-- Frames that have waited too long are dropped (R262, R276): SYNCs when `sync`, others otherwise. -/
def dropStale (tm : TimeBase) (sync : Bool) (b : Fin 2) (d : Device) : Device :=
  let old (f : TxFrame) : Bool := decide (f.sync = sync) && !f.started
    && decide (tm.time.toNat - f.queued ≥ msTicks (if sync then 5 else 20))
  let n := ((bankGet d.pp.buses b).queue.filter old).length
  if n = 0 then d else
  let d := d.onBus b fun c => { c with queue := c.queue.filter fun f => !old f }
  if sync then
    let d := { d with pp := if b = 0 then { d.pp with syncDropA := d.pp.syncDropA + BitVec.ofNat 8 n }
      else { d.pp with syncDropB := d.pp.syncDropB + BitVec.ofNat 8 n } }
    Nat.repeat (raisePartner tm 7 0 b.val .timeout 0) n d
  else { d with pp := { d.pp with txDrops := satAdd d.pp.txDrops n } }

/-- A GRANT whose START has come unsent is dropped (R276). -/
def dropGrant (tm : TimeBase) (e : Fin 128) (b : Fin 2) (d : Device) : Device :=
  let late (f : TxFrame) : Bool := !f.started && (match f.start with
    | some s => decide (beAt f.payload 1 1 = e.val) && notEarlierUs (word tm.us.toNat) s
    | none => false)
  let n := ((bankGet d.pp.buses b).queue.filter late).length
  if n = 0 then d else
  let d := d.onBus b fun c => { c with queue := c.queue.filter fun f => !late f }
  { d with pp := { d.pp with txDrops := satAdd d.pp.txDrops n } }

/-- SYNC at a 10 ms boundary (R262): SEQ advances whether or not one is sent. -/
def syncTimer (tm : TimeBase) (d : Device) : Device :=
  let d := { d with pp := { d.pp with seq := d.pp.seq + 1 } }
  let nominal := word (tm.us.toNat / 10000 * 10000)
  (List.finRange 2).foldl (fun d b =>
    let c := bankGet d.pp.buses b
    let d := d.onBus b fun c => { c with prevSent := false }
    if !busListens d b then d else
    let flags := flag c.prevSent 0 + flag (supRunning tm d) 1 + d.pp.htgen.toNat * 16
    let sof := if c.prevSent then c.syncSof else Config.unsentSof nominal
    queueFrame tm b (handleId d .sync 0)
      ([byte d.pp.seq.toNat, byte flags] ++ beBytes 2 (bootId d) ++ beBytes 4 sof.toNat ++ beBytes 4 nominal.toNat) none d) d

/-- The frame that goes first: the lowest identifier, the earliest of equals (R276). -/
def firstFrame : List TxFrame → Option TxFrame
  | [] => none
  | f :: fs =>
    match firstFrame fs with
    | none => some f
    | some g => if g.id.toNat < f.id.toNat then some g else some f

/-- A frame starts on a bus: a SYNC is stamped (R262). -/
def frameStarts (tm : TimeBase) (b : Fin 2) (d0 : Device) : Device :=
  let d := dropStale tm true b (dropStale tm false b d0)
  let c := bankGet d.pp.buses b
  if !busSends d b ∨ c.queue.any (·.started) then d else
  match firstFrame c.queue with
  | none => d
  | some f => d.onBus b fun c => { c with
      queue := { f with started := true, brs := c.brs, esi := decide (c.state = .passive) } :: c.queue.erase f
      syncSof := if f.sync then word tm.us.toNat else c.syncSof }

/-- The frame on a bus is complete; TEC falls by one (R256). -/
def frameEnds (b : Fin 2) (d : Device) : Device :=
  match (bankGet d.pp.buses b).queue.find? (·.started) with
  | none => d
  | some f => d.onBus b fun c => settleErrors { c with
      queue := c.queue.erase f
      tx := c.tx + 1
      tecCount := if c.tecCount = 0 then 0 else c.tecCount - 1
      prevSent := c.prevSent || f.sync }

/-! ### Received frames that are discarded (R259) -/

/-- The payload length that a partner type needs; none for another type. -/
def layoutLength (type : Nat) (payload : List Byte) : Option Nat :=
  let profile : Nat :=
    let s := bits (beAt payload 1 1) 7 4
    if 1 ≤ s ∧ s ≤ 8 then 12 + 6 * s else 12
  match type with
  | 0x01 => some 16
  | 0x04 | 0x06 | 0x0E | 0x11 => some 4
  | 0x08 | 0x0F => some profile
  | 0x14 => some 8
  | _ => none

/-- Is a frame one that R259 discards? -/
def frameBad (id : BitVec 29) (payload : List Byte) : Bool :=
  let reserved := if idType id = 0x01 then bits id.toNat 0 0 else bits id.toNat 8 0
  decide (reserved ≠ 0) || (match layoutLength (idType id) payload with
    | none => true
    | some n => decide (payload.length < n))

/-- A frame that is discarded, counted and not answered. -/
def frameDiscarded (b : Fin 2) (id : BitVec 29) (payload : List Byte) (d : Device) : Device :=
  arrived b (BitVec.ofNat 4 (bits id.toNat 20 17)) (fun d => if frameBad id payload then discardFrame d else d) d

/-! ### The controllers -/

/-- The error counters as a controller changes state: what the bus made of them (R256). -/
def drawErrors (b : Fin 2) (d : Device) : Device :=
  let x := Config.canCounts d.draws
  let rec' := if x.1.toNat < 128 then x.2 ||| 0x80 else x.2
  let e : BitVec 3 := BitVec.ofNat 3 ((Config.canError d.draws).val + 1)
  { d.onBus b (fun c => { c with tecCount := x.1, recCount := rec', lec := e }) with draws := d.draws + 1 }

/-- A controller enters error-passive (R278). -/
def busPassive (tm : TimeBase) (b : Fin 2) (d : Device) : Device :=
  if (bankGet d.pp.buses b).state ≠ .active ∨ !busOn d b then d else
  let d := (drawErrors b d).onBus b fun c => { c with state := .passive, passives := satInc c.passives }
  raisePartner tm 6 0 b.val .ok 0 (ppInt (4 + b.val) d)

/-- A controller enters bus-off (R278). -/
def enterBusOff (tm : TimeBase) (b : Fin 2) (d : Device) : Device :=
  if !busOn d b then d else
  let d := (drawErrors b d).onBus b fun c => { c with
    state := .busOff, busOffs := satInc c.busOffs, recovering := d.pp.autoRecover
    queue := c.queue.map fun f => { f with started := false } }
  raisePartner tm 4 0 b.val .ok 0 (ppInt (6 + b.val) d)

/-- PP.BUS[b].CTRL.RESTART (R278). -/
def restartBus (b : Fin 2) (d : Device) : Device :=
  d.onBus b fun c => if c.state = .busOff then { c with recovering := true } else c

/-- PP.CTRL.AUTO_RECOVER: while it is 1 every controller that is bus-off recovers (R278). -/
def autoRecover (d : Device) : Device :=
  if !d.pp.autoRecover then d else { d with pp := { d.pp with buses := bankMap d.pp.buses fun _ c =>
    if c.state = .busOff ∧ c.en then { c with recovering := true } else c } }

/-- Bus-off recovery ends (R256, R282). -/
def busRecovered (tm : TimeBase) (b : Fin 2) (d : Device) : Device :=
  let c := bankGet d.pp.buses b
  if c.state = .busOff ∧ c.recovering ∧ c.en then
    raisePartner tm 5 0 b.val .ok 0 (d.onBus b fun c => { c with
      state := .active, recovering := false, tecCount := 0, recCount := 0 })
  else d

/-- A write of NBT, DBT or TDC (R257, Table 10-12). -/
def writeBitTiming (b : Fin 2) (which : Fin 3) (data : Word) (d : Device) : Device :=
  d.onBus b fun c =>
    if c.en then c else
    match which with
    | 0 => { c with nbt := data &&& 0x0FFFFFFF }
    | 1 => { c with dbt := data &&& 0x0003FFFF }
    | 2 => { c with tdco := data.setWidth 8, tdcEn := data.getLsbD 8 }

/-- A controller takes part in traffic from READY on while EN is 1 (R255, Table 10-12). One without EN keeps its error counters,
and one that is bus-off stays so: recovery alone ends that (R278). -/
def settleBus (b : Fin 2) (d : Device) : Device :=
  let live := decide (d.sys.step = .ready)
  autoRecover (d.onBus b fun c =>
    if c.en ∧ live then (if c.state = .disabled then { c with state := .active } else c)
    else { c with
      state := if c.state = .active ∨ !live then .disabled else c.state
      recovering := false
      queue := c.queue.map fun f => { f with started := false } })

/-- A write of PP.BUS[b].CTRL (Table 10-12). -/
def writeBusCtrl (b : Fin 2) (data : Word) (d : Device) : Device :=
  let d := settleBus b (d.onBus b fun c => { c with en := data.getLsbD 0, brs := data.getLsbD 1, listen := data.getLsbD 2 })
  if data.getLsbD 3 then restartBus b d else d

/-- A PARTNERS section takes effect at a tick (R86). -/
def applyPartners (new : Option (InForce (List PartnerEntry))) (d : Device) : Device :=
  { d with str := { d.str with partners := new } }

end Sys2Proof.Machine
end

