-- ==== Sys2Proof/Machine/Loader.lean ====
section
/-! DEFINITION. The image loader at work (spec 03_structure_image.md, R75 to R92): image slots and their state records, the
commands of IMG.CMD, a section that takes effect, the trial, its confirmation and its rollback. -/

namespace Sys2Proof.Machine

/-! ### Slots, results and records -/

/-- Table 3-19. -/
def SlotPhase.code : SlotPhase → Nat
  | .empty => 0 | .written => 1 | .trial => 2 | .confirmed => 3 | .rejected => 4

/-- The state of an image slot, as IMG.SLOT and IMG.GEN show it. -/
def slotView (d : Device) (s : Fin 2) : SlotView := bankGet d.img.view s

/-- The region of an image slot. -/
def imageRegion (s : Fin 2) : Fin 11 := if s = 0 then 0 else 1

/-- A slot takes a state, shown at once and recorded in the store (R75). -/
def setImageSlot (nv : NonVol) (s : Fin 2) (p : SlotPhase) (gen : Word) (len : Nat) (d : Device) : Device :=
  let v : SlotView := ⟨p, BitVec.ofNat 16 (ceilDiv len 1024), gen⟩
  let d := { d with img := { d.img with view := bankSet d.img.view s v } }
  storePump nv (addJob ⟨[.record (slotRec s p.code gen.toNat len)], .record, .slotState s p gen len, true⟩ d)

/-- A slot goes on to another state with the same image. -/
def moveImageSlot (nv : NonVol) (s : Fin 2) (p : SlotPhase) (d : Device) : Device :=
  let v := slotView d s
  setImageSlot nv s p v.gen (v.lenKb.toNat * 1024) d

/-- An IMAGE event (R90, Table 16-2). -/
def raiseImage (tm : TimeBase) (op : Nat) (s : Fin 2) (kind index : Byte) (res : ImgResult) (d : Device) : Device :=
  raise tm 0x10 ([byte op, byte s.val, kind, index, res.code, 0] ++ leBytes 2 d.img.clampTotal.toNat
    ++ leBytes 4 (slotView d s).gen.toNat) d

/-- A command ends with a result: BUSY falls (Table 12-11). -/
def closeImg (res : ImgResult) (d : Device) : Device :=
  { d with
    img := { d.img with busy := false, cmd := none, storeWait := false, result := res.code }
    hsp := { d.hsp with evt := if d.img.busy then setBit d.hsp.evt 1 else d.hsp.evt } }

/-- The clamp report is replaced (R89). -/
def setReport (applyNo : Word) (es : List ClampEntry) (d : Device) : Device :=
  { d with img := { d.img with
    report := (es.take 128).map fun e => { e with applyNo := applyNo.setWidth 16 }
    clampTotal := satNat 16 es.length
    reportOvf := decide (128 < es.length) } }

/-- One more entry joins the report. -/
def addReport (e : ClampEntry) (d : Device) : Device :=
  let full := decide (d.img.report.length ≥ 128)
  { d with img := { d.img with
    report := if full then d.img.report else d.img.report ++ [e]
    clampTotal := satInc d.img.clampTotal
    reportOvf := d.img.reportOvf || full } }

/-- The value in the image of a field: that of its clamp entry, or the value in force where it was not clamped. -/
def writtenOf (es : List ClampEntry) (kind index : Byte) (off : Nat) (inForce : Word) : Word :=
  match es.find? fun e => decide (e.kind = kind) && decide (e.index = index) && decide (e.off = BitVec.ofNat 16 off) with
  | some e => e.written
  | none => inForce

/-- The RATING entry of a rail (R73): the lowest limit among its phases that are admitted now, where it lies below
ILIM_PHASE. -/
def ratingEntry (d : Device) (r : Fin 64) (b : RailSect) (es : List ClampEntry) : Option ClampEntry :=
  let limits := (b.phases.filter fun g => decide ((d.slot g).state = .admitted) || decide ((d.slot g).state = .serving)).map
    fun g => (d.slot g).rep.rating.toNat
  match limits with
  | [] => none
  | l :: ls =>
    let low := ls.foldl min l
    if low < b.ilimPhase then
      some ⟨0x10, byte r.val, 0x1C, writtenOf es 0x10 (byte r.val) 0x1C (word b.ilimPhase), word low, 6, 2, 0⟩
    else none

/-- IMG.LOAD.RUN of the configuration in force. -/
def updateLoad (d : Device) : Device :=
  { d with img := { d.img with loadRun := loadUnits (engineLoad d.str.device.body.fgPeriod d.str.rails) } }

/-! ### Images as the loader reads them -/

/-- The store's contents with the image bytes that are still on their way into it: the check of a slot sees every word that
IMG.DATA has taken. -/
def withImageData (nv : NonVol) (d : Device) : NonVol :=
  (d.ocs.current.toList ++ d.ocs.jobs).foldl (fun nv j =>
    match j.tag with
    | .imageData => j.steps.foldl (fun nv s => match s with
      | .bytes cs => cs.foldl programChunk nv
      | _ => nv) nv
    | _ => nv) nv

/-- The checked image of a slot. -/
def slotImage (nv : NonVol) (d : Device) (s : Fin 2) : Except ImgResult Billet :=
  readSlot d.draws (withImageData nv d) d.ocs s

/-- The frame of a section in an image, found by its lengths; its SCRC is checked where it stands (R79). -/
def findFrame (kind index : Nat) : Nat → List Byte → Option (Except ImgResult Frame)
  | 0, _ => none
  | fuel + 1, bs =>
    if bs.length < 12 then none else
    if leAt bs 0 1 = kind ∧ leAt bs 1 1 = index then
      some (match readFrame bs with
        | .ok x => .ok x.1
        | .error e => .error e)
    else
      let blen := leAt bs 4 2
      findFrame kind index fuel (bs.drop (12 + blen + (4 - blen % 4) % 4))

/-- The frame of a section in a slot; none when the image does not hold it. -/
def slotFrame (nv : NonVol) (d : Device) (s : Fin 2) (kind index : Byte) : Option (Except ImgResult Frame) :=
  let nv := withImageData nv d
  let h := imageBytes d.draws nv d.ocs s 64
  let bs := imageBytes d.draws nv d.ocs s (min 61440 (leAt h 0x08 4))
  findFrame kind.toNat index.toNat (leAt h 0x14 2) (bs.drop 64)

/-- Does the configuration in force hold a section? -/
def inForceHolds (d : Device) (kind index : Byte) : Bool :=
  if kind = 0x10 then (match fin? 64 index.toNat with
    | some r => (bankGet d.str.rails r).isSome
    | none => false)
  else decide (index = 0) && (match kind.toNat with
    | 0x01 => true
    | 0x02 => d.str.lanes.isSome
    | 0x20 => d.str.protect.isSome
    | 0x30 => d.str.sched.isSome
    | 0x31 => d.str.partners.isSome
    | 0x40 => d.str.hkeep.isSome
    | 0x48 => d.str.periph.isSome
    | _ => false)

/-- DEVICE, LANES and PROTECT take effect only at start-up (Table 3-3). -/
def wholeOnly (kind : Byte) : Bool := decide (kind = 0x01) || decide (kind = 0x02) || decide (kind = 0x20)

/-- The CONFIRMED slot of highest generation. -/
def confirmedSlot (d : Device) : Option (Fin 2) :=
  let a := slotView d 0
  let b := slotView d 1
  match a.phase, b.phase with
  | .confirmed, .confirmed => if b.gen.toNat > a.gen.toNat then some 1 else some 0
  | .confirmed, _ => some 0
  | _, .confirmed => some 1
  | _, _ => none

/-- The slot of the last whole apply (SYS.BOOT_STATUS.SLOT_APPLIED). -/
def appliedSlot (d : Device) : Option (Fin 2) :=
  if d.sys.slotApplied = 1 then some 0 else if d.sys.slotApplied = 2 then some 1 else none

/-! ### A RAIL section takes effect (R79 to R83) -/

/-- A rail with no switching phases and no start measurement in progress takes a section at once (R79). -/
def railIdle (x : Rail) : Bool :=
  match x.state with
  | .off | .fault | .safe => true
  | .armed => x.meas.isNone && x.ready.isNone
  | _ => false

/-- One slot after the rails' phase lists have changed (R203, R73, R110, R112, R120): its owner, unless a rail still has it
placed; its limit and CFG_OCTRIP; and CFG_PERIOD and CFG_MODE where it is admitted and its period may have changed. -/
def settleSlot (tm : TimeBase) (was : Device) (g : Fin 512) (d0 : Device) : Device :=
  let d := if (d0.phase g).placed then d0 else d0.onSlot g fun s => { s with owner := namingRail d0 g }
  match namingRail d g with
  | none => d
  | some r =>
    let live := decide ((d.slot g).state = .admitted) || decide ((d.slot g).state = .serving)
    let up := decide ((d.lane (laneOf g)).state = .up)
    let d := if live || decide ((d.slot g).state = .calibrating) then
        let l := slotLimit d g
        d.onSlot g fun s => { s with limit := l } else d
    let trip := BitVec.ofNat 14 (octripFor (d.slot g))
    let d := if live && up && decide (trip ≠ (d.slot g).octrip) then
        (sendWrite g 0x42 (trip.setWidth 16) (wakeFor tm g (d.onSlot g fun s => { s with octrip := trip }))).1 else d
    let p := slotPeriod d g
    if decide ((d.slot g).state = .admitted) && up && !(d.phase g).placed
        && (decide (p ≠ slotPeriod was g) || decide (namingRail was g ≠ some r)) then
      let form := sampleForm p
      let d := d.onSlot g fun s => { s with compressed := form.1, aux := BitVec.ofNat 2 form.2 }
      let d := (sendWrite g 0x40 (BitVec.ofNat 16 p) (wakeFor tm g d)).1
      (sendWrite g 0x41 (BitVec.ofNat 16 (cfgMode (d.slot g) p)) d).1
    else d

/-- One coefficient of a loop. -/
def coefOf (outer inner : Bank 8 Coef) (x : Bool × Fin 8) : Coef := bankGet (if x.1 then outer else inner) x.2

/-- The coefficients of both loops, each with its place. -/
def coefPlaces : List (Bool × Fin 8) := [true, false].flatMap fun o => (List.finRange 8).map fun k => (o, k)

/-- A single write that arrives after the boundary takes effect on top of the section, the earlier ones first (R182): the loop and
its log, whose entries for those writes go back to what they take effect on. -/
def writeOnTop (l : LoopSt) (w : Nat × Bool × Fin 8 × Coef × Coef) : LoopSt :=
  let k := w.2.2.1
  { l with
    outer := if w.2.1 then bankSet l.outer k w.2.2.2.2 else l.outer
    inner := if w.2.1 then l.inner else bankSet l.inner k w.2.2.2.2
    diverged := true
    coefLog := (w.1, w.2.1, k, coefOf l.outer l.inner (w.2.1, k), w.2.2.2.2) :: l.coefLog }

/-- The coefficients that a section loads at an instant (R180, R182): they replace every register, what was in force before them is
kept for evaluations of earlier sample instants, and the writes that are still on their way take effect on top. -/
def loadCoefs (now : Nat) (b : RailSect) (l : LoopSt) : LoopSt :=
  let coming := l.coefLog.filter fun w => decide (now < w.1)
  let was (x : Bool × Fin 8) : Coef := coming.foldl (fun c w => if w.2.1 = x.1 ∧ w.2.2.1 = x.2 then w.2.2.2.1 else c)
    (coefOf l.outer l.inner x)
  let l := { l with
    outer := b.outer
    inner := b.inner
    diverged := false
    coefLog := (coefPlaces.map fun x => (now - 1, x.1, x.2, was x, coefOf b.outer b.inner x))
      ++ l.coefLog.filter fun w => decide (w.1 ≤ now) && decide (now - w.1 < 8000000) }
  coming.reverse.foldl writeOnTop l

/-- The registers that a section loads (R182, R214, Table 8-12); `was` is the section that it replaces. -/
def loadRail (tm : TimeBase) (r : Fin 64) (was : Option RailSect) (b : RailSect) (d : Device) : Device :=
  let now := tm.time.toNat
  let d := d.onLoop r fun l => loadCoefs now b { l with sectLog := match was with
    | some o => noteChange now o l.sectLog
    | none => [] }
  let d := d.onRail r fun x => { x with
    dwell := 0
    cfg := { x.cfg with vset := BitVec.ofNat 20 b.vset, winLo := BitVec.ofNat 20 b.vmin, winHi := BitVec.ofNat 20 b.vmax } }
  setIlim r d

/-- The section of a rail is put into force or taken away: phases, limits, coefficients, window and implicit protection. -/
def putRail (tm : TimeBase) (r : Fin 64) (new : Option (InForce RailSect)) (d0 : Device) : Device :=
  let olds := railPhases d0 r
  let d := { d0 with str := { d0.str with rails := bankSet d0.str.rails r new } }
  let news := railPhases d r
  let lost := (d.rail r).retiring.filter fun t => !news.contains t.phase
  let d := lost.foldl (fun d t =>
    raiseRetire tm r t.pos.val 7 .position t.phase.val (finishCmd r t.pos.val .position d)) d
  let d := d.onRail r fun x => { x with
    tripped := x.tripped.filter fun g => news.contains g
    retiring := x.retiring.filter fun t => news.contains t.phase
    unwinding := x.unwinding.filter fun u => news.contains u.phase }
  let d := (news ++ olds.filter fun g => !news.contains g).foldl (fun d g => settleSlot tm d0 g d) d
  let d := match new with
    | some b => loadRail tm r (d0.sect r) b.body d
    | none => d.onRail r fun x => { x with ilimNow := 0, cfg := { x.cfg with vset := 0, winLo := 0, winHi := 0 } }
  updateLoad (loadProtect d)

/-- The capacity of the phases that remain at full weight under the new section (R82, R204): those that it names and that no leave
and no unwind takes away. -/
def remainingCapacity (d : Device) (r : Fin 64) (b : RailSect) : Nat :=
  ((stayingPhases d r).filter fun g => b.phases.contains g && !isAddition d r g
      && !(d.rail r).unwinding.any fun u => decide (u.phase = g)).foldl
    (fun a g => a + min b.ilimPhase (d.slot g).rep.rating.toNat * 10) 0

/-- A section that keeps the loop history and changes the gain or the FF_EN bit of a term adds (old term − new term), from the last
input formed, to every output history of that loop (R187). `was` is the device before the section, of which `old` was in force. -/
def keepHistories (r : Fin 64) (old b : RailSect) (was d : Device) : Device :=
  let l := was.loop r
  let vin : Int := (vinFf d r l.vin.toNat : Int) * 2048
  let gain := bankGet l.outer 7
  let outer := ffTerm old.ffVin gain vin - ffTerm b.ffVin (bankGet b.outer 7) vin
  let d := if old.ffVin = b.ffVin ∧ gain = bankGet b.outer 7 then d else
    d.onLoop r fun l => { l with y1 := sat32 (l.y1 + outer), y2 := sat32 (l.y2 + outer), y3 := sat32 (l.y3 + outer) }
  let gain := bankGet l.inner 5
  if old.ffAcc = b.ffAcc ∧ gain = bankGet b.inner 5 then d else
  (placedOf d r).foldl (fun d g => d.onPhase g fun p =>
    let inner := ffTerm old.ffAcc gain p.xacc - ffTerm b.ffAcc (bankGet b.inner 5) p.xacc
    { p with y1 := sat32 (p.y1 + inner), y2 := sat32 (p.y2 + inner) }) d

/-- A section takes effect on a rail whose phases switch (R82). None where its phases cannot carry the present current: the
additions then stay in place, and the unwind is part of what is discarded. The ramp is clamped into the new window in REGULATE;
in PRECHARGE, RAMP and HOLD it stays where it is, and the goal alone follows the window (DESIGN CHOICE, assumption 110). -/
def putRunning (tm : TimeBase) (r : Fin 64) (old : RailSect) (new : InForce RailSect) (was : Device) : Option Device :=
  let b := new.body
  if railCurrentAbs was r > remainingCapacity was r b then none else
  let d := unwindRail tm r true (endTuneOn tm r .apply was)
  let set := placedOf d r
  let gone := set.filter fun g => !b.phases.contains g
  let d := gone.foldl (fun d g => orderedLeave g .admitted d) d
  let d := { d with tbi := { d.tbi with rails := bankUpd d.tbi.rails r fun t => { t with leavers := gone } } }
  let d := putRail tm r (some new) d
  -- a phase that is listed again takes its place back, and a leave of it that still ramps is cancelled (R148)
  let joiners := b.phases.filter fun g => !old.phases.contains g && available d r g
  let d := joiners.foldl (fun d g => orderedJoin r g d) d
  -- the placed set changes with a join, or with the order of the list (R142, R146)
  let kept (l : List (Fin 512)) : List (Fin 512) := l.filter fun g => set.contains g && !gone.contains g
  let d := if kept set = kept (placedOf d r) then d else recompute r none d
  let d := if old.template = b.template ∧ old.nestN = b.nestN then keepHistories r old b was d
    else d.onLoop r fun l => { l with presetDue := true }
  some (if (d.rail r).state = .regulate then
      let w := windowOf d r
      d.onRail r fun x => { x with ramp := min (max x.ramp (w.1 * 20)) (w.2 * 20) }
    else d)

/-- Would the section change the frequency group of a rail with a phase in SERVING (R141)? -/
def groupBlocked (d : Device) (r : Fin 64) (b : RailSect) : Bool :=
  match d.sect r with
  | some o => decide (o.fgroup ≠ b.fgroup) && ((railPhases d r).any fun g => decide ((d.slot g).state = .serving))
  | none => false

/-- Did a protection trip stop the rail at this same boundary (R83)? -/
def trippedNow (tm : TimeBase) (d : Device) (r : Fin 64) : Bool :=
  let x := d.rail r
  let c := railCarrier d r
  let t := tm.time.toNat
  (decide (x.state = .fault) && decide (x.cause = .pmFault) || decide (x.state = .safe) && decide (x.cause = .pmSafe))
    && decide (x.since = t) && (decide (c.c0 = t) || decide (c.c1 = t))

/-- Does the boundary that begins now evaluate the outer loop under a section (R79)? The section takes effect before the rest of what
the boundary decides (R24, Table 1-4). -/
def outerDue (tm : TimeBase) (d : Device) (b : RailSect) : Bool :=
  let c := bankGet d.tbi.carriers b.fgroup
  c.started && decide (c.c1 ≤ tm.time.toNat) && decide ((c.k + 1) % max 1 b.nestN = 0)

/-- A waiting section at its boundary: none while its time has not come, else the device and the result. -/
def takeRail (tm : TimeBase) (r : Fin 64) (w : Waiting RailSect) (d : Device) : Option (Device × ImgResult) :=
  let x := d.rail r
  match w.body with
  | none => if x.state = .off then some (putRail tm r none d, .ok) else if w.rollback then none else some (d, .state)
  | some new =>
    if trippedNow tm d r then some (d, .tripped)
    else if groupBlocked d r new.body then some (d, .state)
    else if railIdle x then some (putRail tm r (some new) d, .ok)
    else if !x.state.runs then none
    else match d.sect r with
      | none => none
      | some old =>
        if !outerDue tm d old then none else
        match putRunning tm r old new d with
        | some d => some (d, .ok)
        | none => some (d, .capacity)

/-! ### The other live sections (R86) -/

/-- A PERIPH section loads the port's timing and address (R329, R330, R346); entries that change start without a value. -/
def applyPeriph (new : Option (InForce PeriphSect)) (d : Device) : Device :=
  let olds := match d.str.periph with | some p => p.body.entries | none => []
  let news := match new with | some p => p.body.entries | none => []
  let d := { d with str := { d.str with periph := new } }
  let twp := { d.twp with per := bankMap d.twp.per fun e x =>
    if olds[e.val]? = news[e.val]? then x else { x with okAt := none, value := [], due := false } }
  match new with
  | none => { d with twp := twp }
  | some p => { d with twp := { twp with
      speed := BitVec.ofNat 2 p.body.speed.val
      ownAddr := p.body.ownAddr
      tlow := BitVec.ofNat 16 p.body.tlow
      thigh := BitVec.ofNat 16 p.body.thigh
      tsudat := byte p.body.tsudat
      thddat := byte p.body.thddat } }

/-- A section, or the removal of one, waits for its boundary, tick, round or gap. -/
def stage (s : Fin 2) (rollback : Bool) (kind index : Byte) (x : Option (Section × Word)) (d : Device) : Device :=
  let img := d.img
  match x with
  | some (.rail r b, c) => { d with img := { img with waitRail := bankSet img.waitRail r (some ⟨some ⟨b, c⟩, s, rollback⟩) } }
  | some (.sched b, c) => { d with img := { img with waitSched := some ⟨some ⟨b, c⟩, s, rollback⟩ } }
  | some (.partners b, c) => { d with img := { img with waitPartners := some ⟨some ⟨b, c⟩, s, rollback⟩ } }
  | some (.hkeep b, c) => { d with img := { img with waitHkeep := some ⟨some ⟨b, c⟩, s, rollback⟩ } }
  | some (.periph b, c) => { d with img := { img with waitPeriph := some ⟨some ⟨b, c⟩, s, rollback⟩ } }
  | some _ => d
  | none =>
    match kind.toNat with
    | 0x10 => (match fin? 64 index.toNat with
      | some r => { d with img := { img with waitRail := bankSet img.waitRail r (some ⟨none, s, rollback⟩) } }
      | none => d)
    | 0x30 => { d with img := { img with waitSched := some ⟨none, s, rollback⟩ } }
    | 0x31 => { d with img := { img with waitPartners := some ⟨none, s, rollback⟩ } }
    | 0x40 => { d with img := { img with waitHkeep := some ⟨none, s, rollback⟩ } }
    | 0x48 => { d with img := { img with waitPeriph := some ⟨none, s, rollback⟩ } }
    | _ => d

/-! ### Rollback (R88) -/

/-- A life-cycle change commits by its LIFECYCLE record (R357). -/
def queueChange (nv : NonVol) (lc : LifeCycle) (d : Device) : Device :=
  storePump nv (addJob ⟨[.record (lifecycleRec lc.code (wipeMask lc))], .record, .lifecycle lc (word (wipeMask lc)), true⟩ d)

/-- The rollback is done: the trial slot is REJECTED, and a life-cycle change that waited for it commits. -/
def finishRollback (tm : TimeBase) (nv : NonVol) (d : Device) : Device :=
  let s := d.img.trialSlot
  let d := moveImageSlot nv s .rejected d
  let after := d.img.lcAfter
  let d := { d with img := { d.img with
    trialOpen := false
    loadTrial := 0
    liveOrder := []
    rollbackLeft := []
    lcAfter := none
    railSrc := bankMap d.img.railSrc fun _ x => ⟨x.slot, false, 0⟩
    running := appliedSlot d } }
  let d := closeImg .ok (raiseImage tm 5 s 0 0 .ok (raiseImage tm 4 s 0 0 .ok d))
  match after with
  | some c => queueChange nv (lifeOf c.val) d
  | none => d

/-- The next section of a rollback waits for its boundary; one that the CONFIRMED slot no longer gives intact is passed
over. -/
def rollOn (tm : TimeBase) (nv : NonVol) : List (Byte × Byte) → Device → Device
  | [], d => finishRollback tm nv d
  | (kind, index) :: rest, d =>
    let left := { d with img := { d.img with rollbackLeft := rest } }
    match confirmedSlot d with
    | none => rollOn tm nv rest d
    | some s =>
      match slotFrame nv d s kind index with
      | none => stage s true kind index none left
      | some (.error _) => rollOn tm nv rest d
      | some (.ok f) =>
        match readBody d.str.device.body (d.str.lanes.map (·.body)) f with
        | .error _ => rollOn tm nv rest d
        | .ok (x, _) => stage s true kind index (some (x, f.scrc)) left

/-- ROLLBACK begins: the sections of the live applies in reverse order, each once. -/
def startRollback (tm : TimeBase) (nv : NonVol) (d : Device) : Device :=
  rollOn tm nv d.img.liveOrder.eraseDups { d with img := { d.img with
    busy := true, cmd := some .rollback } }

/-- A command ends; a life-cycle change that has been waiting for it then rolls the open trial back. -/
def endImg (tm : TimeBase) (nv : NonVol) (res : ImgResult) (d : Device) : Device :=
  let d := closeImg res d
  if d.img.lcAfter.isSome && d.img.trialOpen then startRollback tm nv d else d

/-! ### A section has come into force, or has been discarded -/

/-- The end of a live apply, or the next section of a rollback (R79, R88, R90). -/
def sectionEnds (tm : TimeBase) (nv : NonVol) (rollback : Bool) (s : Fin 2) (kind index : Byte) (removed : Bool)
    (res : ImgResult) (d : Device) : Device :=
  let ok := decide (res = .ok)
  let order := d.img.liveOrder.length + 1
  let d := if ok then { d with img := { d.img with
      applyCount := d.img.applyCount + 1
      liveOrder := if rollback then d.img.liveOrder else (kind, index) :: d.img.liveOrder
      railSrc := match (if kind = 0x10 then fin? 64 index.toNat else none) with
        | some r => bankSet d.img.railSrc r
            (if removed then ⟨0, false, 0⟩ else ⟨BitVec.ofNat 2 (s.val + 1), !rollback, if rollback then 0 else byte order⟩)
        | none => d.img.railSrc } } else d
  if rollback then rollOn tm nv d.img.rollbackLeft d
  else endImg tm nv res (raiseImage tm 2 s kind index res d)

/-- RAIL_SECTION_TAKE_EFFECT (R79 to R83, R88): a section of a rollback that is discarded is tried again. -/
def railTakesEffect (tm : TimeBase) (nv : NonVol) (r : Fin 64) (d : Device) : Device :=
  match bankGet d.img.waitRail r with
  | none => d
  | some w =>
    match takeRail tm r w d with
    | none => d
    | some (e, res) =>
      if w.rollback ∧ res ≠ .ok then d else
      sectionEnds tm nv w.rollback w.slot 0x10 (byte r.val) w.body.isNone res
        { e with img := { e.img with waitRail := bankSet e.img.waitRail r none } }

/-- SCHED_SECTION_TAKE_EFFECT (R86): SCHED, and PARTNERS. -/
def schedTakesEffect (tm : TimeBase) (nv : NonVol) (d : Device) : Device :=
  let d := match d.img.waitSched with
    | none => d
    | some w => sectionEnds tm nv w.rollback w.slot 0x30 0 w.body.isNone .ok
        (applySched tm w.body { d with img := { d.img with waitSched := none } })
  match d.img.waitPartners with
  | none => d
  | some w => sectionEnds tm nv w.rollback w.slot 0x31 0 w.body.isNone .ok
      (applyPartners w.body { d with img := { d.img with waitPartners := none } })

/-- HKEEP_SECTION_TAKE_EFFECT (R86, R300). -/
def hkeepTakesEffect (tm : TimeBase) (nv : NonVol) (d : Device) : Device :=
  match d.img.waitHkeep with
  | none => d
  | some w => sectionEnds tm nv w.rollback w.slot 0x40 0 w.body.isNone .ok
      (applyHkeep w.body { d with img := { d.img with waitHkeep := none } })

/-- PERIPH_SECTION_TAKE_EFFECT (R86, R329, R330): between two polls. -/
def periphTakesEffect (tm : TimeBase) (nv : NonVol) (d : Device) : Device :=
  match d.img.waitPeriph with
  | none => d
  | some w => if d.twp.polling.isSome then d else sectionEnds tm nv w.rollback w.slot 0x48 0 w.body.isNone .ok
      (applyPeriph w.body { d with img := { d.img with waitPeriph := none } })

/-! ### Commands of IMG.CMD -/

/-- A command from a source (R77, R85): DENIED without the level or the life-cycle state, BUSY while another runs. -/
def imgCommand (src : Src) (f : Device → Device) (d : Device) : Device :=
  if !may d src .none then d
  else if !may d src .engineer || !lifeAllows d then { d with img := { d.img with result := ImgResult.denied.code } }
  else if d.img.busy then { d with img := { d.img with result := ImgResult.busy.code } }
  else f d

/-- A check begins; it ends at IMG_CHECK_END (R92). -/
def startCheck (c : LoaderCmd) (d : Device) : Device := { d with img := { d.img with busy := true, cmd := some c } }

/-- ERASE (R75, R77): the image area and the state sector, each under the erase journal. -/
def eraseImage (nv : NonVol) (s : Fin 2) (d : Device) : Device :=
  let only := decide ((slotView d s).phase = .confirmed) && decide ((slotView d (1 - s)).phase ≠ .confirmed)
  if decide (d.img.running = some s) || only then closeImg .state d
  else if d.ocs.pfail || !regionWritable d.ocs (imageRegion s) then closeImg .store d
  else
    let ls := (List.finRange 128).filter fun l => decide (l.val / 16 = s.val)
    let raw := ls.filter rawLogical ++ ls.filter fun l => !rawLogical l
    let steps := raw.flatMap fun l => match physOf d.ocs l with
      | some p => eraseSteps d.ocs p l
      | none => []
    storePump nv (addJob ⟨.counter (if s = 0 then 6 else 7) none :: steps, .record, .imageErase s, true⟩
      { startCheck (.erase s) d with img := { (startCheck (.erase s) d).img with storeWait := true } })

/-- The store has ended the erase of a slot: it is EMPTY, and IMG.DATA writes into it (R77). -/
def imageErased (tm : TimeBase) (nv : NonVol) (s : Fin 2) (d : Device) : Device :=
  let d := { d with img := { d.img with view := bankSet d.img.view s ⟨.empty, 0, 0⟩, fillSlot := some s, dataFailed := false } }
  let st := (List.finRange 128).filter fun l => decide (l.val = 16 * s.val)
  let d := st.foldl (fun d l => match physOf d.ocs l with
    | some p => sectorReady p d
    | none => d) d
  endImg tm nv .ok d

/-- An erase that the store gave up ends the command with STORE (R394). -/
def eraseLost (tm : TimeBase) (nv : NonVol) (tag : StoreTag) (d : Device) : Device :=
  match d.img.cmd with
  | some (.erase s) =>
    let waits := (d.ocs.current.toList ++ d.ocs.jobs).any fun j => decide (j.tag = .imageErase s)
    if d.img.storeWait && !waits && decide (tag ≠ .imageErase s) then endImg tm nv .store d else d
  | _ => d

/-- A write of IMG.DATA (R77): four bytes into the slot of the last ERASE while it is EMPTY, the least significant first;
OFFSET advances by 4. Data that the store refuses make the SEAL end with STORE. -/
def writeImageData (nv : NonVol) (data : Word) (d : Device) : Device :=
  let off := d.img.dataAddr.toNat
  let next := { d with img := { d.img with dataAddr := d.img.dataAddr + 4 } }
  match d.img.fillSlot with
  | none => next
  | some s =>
    let refused : Device := { next with img := { next.img with dataFailed := true } }
    if d.img.busy ∨ (slotView d s).phase ≠ .empty ∨ 61440 < off + 4 then next
    else if !regionWritable d.ocs (imageRegion s) then refused else
    match imageAddr d.ocs s off with
    | none => refused
    | some a => storePump nv (addJob ⟨[.bytes [byteProg (a - a % 64) (a % 64) (leBytes 4 data.toNat)]], .record, .imageData, true⟩
        next)

/-- Has the store refused or failed to take data of a slot since its ERASE (R77, R394)? -/
def dataLost (d : Device) (s : Fin 2) : Bool := d.img.dataFailed && decide (d.img.fillSlot = some s)

/-- SEAL (Table 3-14). -/
def sealImage (s : Fin 2) (d : Device) : Device :=
  if (slotView d s).phase ≠ .empty then closeImg .state d
  else if !regionWritable d.ocs (imageRegion s) || dataLost d s then closeImg .store d
  else startCheck (.seal s) d

/-- LIVE_OPEN (Table 3-14, R78). -/
def openImage (s : Fin 2) (d : Device) : Device :=
  if d.sys.strapMode ∨ (slotView d s).phase ≠ .written then closeImg .state d
  else if !regionWritable d.ocs (imageRegion s) then closeImg .store d
  else startCheck (.liveOpen s) d

/-- FLAGS.NO_LIVE of the image in a slot (Table 3-1). -/
def slotNoLive (nv : NonVol) (d : Device) (s : Fin 2) : Bool :=
  decide (bits (leAt (imageBytes d.draws (withImageData nv d) d.ocs s 64) 0x16 2) 0 0 = 1)

/-- APPLY (R78, R79, R81). -/
def applySection (nv : NonVol) (kind index : Byte) (d : Device) : Device :=
  if !d.img.trialOpen then closeImg .state d
  else if wholeOnly kind then closeImg .startupOnly d
  else if (slotFrame nv d d.img.trialSlot kind index).isNone && !inForceHolds d kind index then closeImg .state d
  else if slotNoLive nv d d.img.trialSlot then closeImg .startupOnly d
  else startCheck (.apply kind index) d

/-- Do two sections differ (R87)? -/
def differs {α : Type} (a b : Option (InForce α)) : Bool := decide (a.map (·.scrc) ≠ b.map (·.scrc))

/-- Do the live sections of two structures differ (R87)? -/
def liveDiffer (a b : Structure) : Bool :=
  ((List.finRange 64).any fun r => differs (bankGet a.rails r) (bankGet b.rails r))
    || differs a.sched b.sched || differs a.partners b.partners || differs a.hkeep b.hkeep || differs a.periph b.periph

/-- Do the whole-only sections differ (R87)? -/
def wholeDiffer (a b : Structure) : Bool :=
  decide (a.device.scrc ≠ b.device.scrc) || differs a.lanes b.lanes || differs a.protect b.protect

/-- CONFIRM (R87). The whole trial image is read and checked again, and CONFIRM ends with that check's error where it no longer
passes (DESIGN CHOICE, assumption 110). -/
def confirmImage (tm : TimeBase) (nv : NonVol) (d : Device) : Device :=
  if !d.img.trialOpen then closeImg .state d else
  let s := d.img.trialSlot
  match slotImage nv d s with
  | .error e => closeImg e d
  | .ok b =>
    if liveDiffer b.str d.str then closeImg .unconfirmable d
    else if !regionWritable d.ocs (imageRegion s) then closeImg .store d
    else
      let d := moveImageSlot nv s .confirmed d
      let d := { d with img := { d.img with
        trialOpen := false
        loadTrial := 0
        liveOrder := []
        running := some s
        restartPending := wholeDiffer b.str d.str
        railSrc := bankMap d.img.railSrc fun _ x => ⟨x.slot, false, 0⟩ } }
      closeImg .ok (raiseImage tm 3 s 0 0 .ok d)

/-- ROLLBACK (R88). -/
def rollbackImage (tm : TimeBase) (nv : NonVol) (d : Device) : Device :=
  if d.img.trialOpen then startRollback tm nv d else closeImg .state d

/-! ### The end of a check (R92) -/

/-- The check of a SEAL ends (R60, R74, Table 3-14). -/
def sealChecked (tm : TimeBase) (nv : NonVol) (s : Fin 2) (d : Device) : Device :=
  if dataLost d s then endImg tm nv .store d else
  match slotImage nv d s with
  | .error e => endImg tm nv e d
  | .ok b => endImg tm nv .ok (setImageSlot nv s .written b.gen b.len d)

/-- The check of a LIVE_OPEN ends (R78, Table 3-14). Its report replaces the former one whatever its result is (R89), with the
present APPLY_COUNT as APPLY_NO, since no apply goes with it (DESIGN CHOICE, assumption 110). A slot on trial before stays in TRIAL
until the next start-up; live applies and their order count from the new trial on (DEDUCED, assumption 50). -/
def openChecked (tm : TimeBase) (nv : NonVol) (s : Fin 2) (d : Device) : Device :=
  match slotImage nv d s with
  | .error e => endImg tm nv e (setReport d.img.applyCount [] d)
  | .ok b =>
    let d := setReport d.img.applyCount b.clamps d
    let above := match d.img.running with
      | some q => decide (b.gen.toNat > (slotView d q).gen.toNat)
      | none => true
    if !above then endImg tm nv .state d
    else if b.noLive then endImg tm nv .startupOnly d
    else
      let d := moveImageSlot nv s .trial d
      let d := { d with img := { d.img with
        trialOpen := true
        trialSlot := s
        running := some s
        liveOrder := []
        railSrc := bankMap d.img.railSrc fun _ x => ⟨x.slot, false, 0⟩
        loadTrial := loadUnits (engineLoad b.str.device.body.fgPeriod b.str.rails) } }
      endImg tm nv .ok (raiseImage tm 1 s 0 0 .ok d)

/-- The checks that a RAIL section alone has (R80, R74, R362, R141). -/
def railChecks (d : Device) (r : Fin 64) (b : RailSect) (scrc : Word) : Option ImgResult :=
  let cap := if d.pwr.mode = .trim then trimCap else loadCap
  if b.phases.any fun g => match namingRail d g with
    | some q => decide (q ≠ r)
    | none => false then some .owned
  else if engineLoad d.str.device.body.fgPeriod (bankSet d.str.rails r (some ⟨b, scrc⟩)) > cap then some .load
  else if groupBlocked d r b then some .state
  else none

/-- The check of an APPLY ends (R79 to R81, R89): the report is replaced, and the section or the removal waits. -/
def applyChecked (tm : TimeBase) (nv : NonVol) (kind index : Byte) (d : Device) : Device :=
  let s := d.img.trialSlot
  let no := d.img.applyCount + 1
  let fail (res : ImgResult) : Device := sectionEnds tm nv false s kind index false res (setReport no [] d)
  match slotFrame nv d s kind index with
  | none =>
    let off : Bool := match fin? 64 index.toNat with
      | some r => decide (kind ≠ 0x10) || decide ((d.rail r).state = .off)
      | none => false
    if off then stage s false kind index none (setReport no [] d) else fail .state
  | some (.error e) => fail e
  | some (.ok f) =>
    match readBody d.str.device.body (d.str.lanes.map (·.body)) f with
    | .error e => fail e
    | .ok (.rail r b, es) =>
      match railChecks d r b f.scrc with
      | some e => fail e
      | none => stage s false kind index (some (.rail r b, f.scrc)) (setReport no (es ++ (ratingEntry d r b es).toList) d)
    | .ok (x, es) => stage s false kind index (some (x, f.scrc)) (setReport no es d)

/-- Is the section of an APPLY checked and waiting? -/
def staged (img : Image) (kind index : Byte) : Bool :=
  match kind.toNat with
  | 0x10 => (match fin? 64 index.toNat with
    | some r => (bankGet img.waitRail r).isSome
    | none => false)
  | 0x30 => img.waitSched.isSome
  | 0x31 => img.waitPartners.isSome
  | 0x40 => img.waitHkeep.isSome
  | _ => img.waitPeriph.isSome

/-- Are bytes of IMG.DATA still on their way into the store? -/
def dataOnItsWay (d : Device) : Bool := (d.ocs.current.toList ++ d.ocs.jobs).any fun j => decide (j.tag = .imageData)

/-- IMG_CHECK_END (R92). The check of a SEAL ends only once the store has taken the data or failed to. -/
def checkEnds (tm : TimeBase) (nv : NonVol) (d : Device) : Device :=
  match d.img.cmd with
  | some (.seal s) => if dataOnItsWay d then d else sealChecked tm nv s d
  | some (.liveOpen s) => openChecked tm nv s d
  | some (.apply kind index) => if staged d.img kind index then d else applyChecked tm nv kind index d
  | _ => d

/-! ### ABORT (R84) -/

/-- An ABORT of the image apply of a rail: a section not yet in force is discarded. -/
def abortApply (tm : TimeBase) (nv : NonVol) (r : Fin 64) (d : Device) : Device × AbortResult :=
  match d.img.cmd with
  | some (.apply kind index) =>
    if kind = 0x10 ∧ index = byte r.val then
      let d := { setReport 0 [] d with img := { (setReport 0 [] d).img with waitRail := bankSet d.img.waitRail r none } }
      (endImg tm nv .aborted (raiseImage tm 2 d.img.trialSlot 0x10 index .aborted d), .aborted)
    else (d, .idle)
  | _ => (d, if d.img.liveOrder.head? = some (0x10, byte r.val) then .completed else .idle)

end Sys2Proof.Machine
end

