-- ==== Sys2Proof/Machine/Supervisor.lean ====
section
/-! DEFINITION. The supervisor as the hardware sees it (spec 02_clocks_reset_crossings.md, Table 2-3; 14_security_lifecycle.md,
R366 to R368): its reset, its start, and its firmware slots. What its firmware decides reaches the device as commands. -/

namespace Sys2Proof.Machine

/-- A supervisor reset (Table 2-3, R240): the core and its data RAM, the handle table and the planning registers. -/
def supervisorReset (d : Device) : Device :=
  { d with
    fw := { d.fw with supReset := true, supHalted := false, supRam := [], hung := none }
    pp := { d.pp with partners := bankFill 256 Partner.reset }
    hs := { d.hs with planStart := 0, planResult := 0, heartbeat := none } }

/-- A cause bit of SYS.RESET_CAUSE (Table 2-12). -/
def addCause (i : Nat) (d : Device) : Device := { d with sys := { d.sys with cause := setBit d.sys.cause i } }

/-- SUPERVISOR_START (R17, R269): the firmware runs; HTGEN advances, and the orphaned handles' time begins. -/
def supervisorStart (tm : TimeBase) (d : Device) : Device :=
  if !d.fw.supReset || d.fw.nosup || !([StartStep.apply, .bringUp, .ready].contains d.sys.step) then d else
  { d with
    fw := { d.fw with supReset := false, supHalted := false }
    pp := { d.pp with htgen := d.pp.htgen + 1, supStart := tm.time.toNat } }

/-! ### Packages (R366, R367) -/

/-- Results of firmware commands (Table 14-16). -/
inductive FwResult where
  | ok
  | header
  | signature
  | compat
  | svn
  | hash
  | state
  | busy
  | denied
  | badOp
  | power
deriving DecidableEq, Repr

/-- Table 14-16. -/
def FwResult.code : FwResult → Byte
  | .ok => 0 | .header => 1 | .signature => 2 | .compat => 3 | .svn => 4 | .hash => 5 | .state => 6 | .busy => 7
  | .denied => 8 | .badOp => 9 | .power => 10

/-- Bytes of a code slot. -/
def codeBytes (c : CodeSlot) (off n : Nat) : List Byte := (List.range n).map fun i => cellsGet c.bytes (off + i)

/-- The code behind a header matches CODE_SHA. -/
def codeHashOk (c : CodeSlot) : Bool :=
  decide (sha256 (codeBytes c 128 (leAt (codeBytes c 0 128) 8 4)) = codeBytes c 0x20 32)

/-- The signature over bytes 0x00 to 0x3F. -/
def codeSignatureOk (c : CodeSlot) : Bool :=
  ecdsaVerify ((Config.makerKey false).toNat, (Config.makerKey true).toNat) (sha256 (codeBytes c 0 64))
    (beNat (codeBytes c 0x40 32)) (beNat (codeBytes c 0x60 32))

/-- The checks of SEAL in their order (R367). -/
def sealCheck (svnMin : Nat) (c : CodeSlot) : FwResult :=
  let h := codeBytes c 0 128
  let len := leAt h 8 4
  if slice h 0 4 ≠ [0x45, 0x48, 0x46, 0x57] ∨ leAt h 4 2 ≠ 1 ∨ leAt h 6 2 ≠ 128 ∨ len < 4 ∨ 524160 < len ∨ len % 4 ≠ 0 then .header
  else if leAt h 0x14 2 % 2 = 0 then .compat
  else if leAt h 0x10 4 < svnMin ∨ leAt h 0x10 4 = 0 ∨ leAt h 0x10 4 = 0xFFFF_FFFF then .svn
  else if !codeHashOk c then .hash
  else if !codeSignatureOk c then .signature
  else .ok

/-- FW.SVN_MIN (Table 15-4). -/
def svnMin (d : Device) : Nat := (bankGet d.ocs.counters 4).toNat

/-- Does a CONFIRMED slot pass its start-up check (Table 14-9)? The package that the part was shipped with does (R1). -/
def bootable (c : CodeSlot) : Bool := decide (c.phase = .confirmed) && (c.shipped || (codeHashOk c && codeSignatureOk c))

/-- The slot that the supervisor boots: the bootable one of highest SVN; A of equals. -/
def bootSlot (nv : NonVol) : Option (Fin 2) :=
  let a := bankGet nv.code 0
  let b := bankGet nv.code 1
  if bootable a && (!bootable b || decide (b.svn.toNat ≤ a.svn.toNat)) then some 0
  else if bootable b then some 1 else none

/-- The event of a firmware slot that changes state (R371): FROM and TO as Table 14-16 codes them. -/
def raiseFirmware (tm : TimeBase) (op : Nat) (s : Fin 2) (was next : SlotPhase) (c : CodeSlot) (d : Device) : Device :=
  raise tm 0xB1 ([byte op, byte s.val, byte was.code, byte next.code] ++ leBytes 4 c.svn.toNat ++ leBytes 4 c.version.toNat) d

/-- A firmware slot takes a state. -/
def moveCode (tm : TimeBase) (op : Nat) (s : Fin 2) (p : SlotPhase) (x : NonVol × Device) : NonVol × Device :=
  let c := bankGet x.1.code s
  if c.phase = p then x else
  ({ x.1 with code := bankSet x.1.code s { c with phase := p } }, raiseFirmware tm op s c.phase p c x.2)

/-- The trial slot, while a trial is open. -/
def fwTrial (nv : NonVol) : Option (Fin 2) :=
  (List.finRange 2).find? fun s => decide ((bankGet nv.code s).phase = .trial)

/-- The supervisor is reset into a slot (R367). -/
def bootInto (s : Option (Fin 2)) (d : Device) : Device :=
  let d := supervisorReset d
  { d with fw := { d.fw with running := s.getD d.fw.running, nosup := s.isNone } }

/-- The trial ends with REJECTED, and the supervisor starts from the CONFIRMED slot (Table 14-9). -/
def rejectTrial (tm : TimeBase) (op : Nat) (x : NonVol × Device) : NonVol × Device :=
  match fwTrial x.1 with
  | none => x
  | some s =>
    let y := moveCode tm op s .rejected x
    (y.1, bootInto (bootSlot y.1) { y.2 with fw := { y.2.fw with trialAt := none } })

/-- Start-up's choice of firmware (R367): a trial is REJECTED, so is a CONFIRMED slot that fails its check, and the best one
boots. -/
def bootFirmware (tm : TimeBase) (x : NonVol × Device) : NonVol × Device :=
  let x := (List.finRange 2).foldl (fun x s =>
    let c := bankGet x.1.code s
    if c.phase = .trial ∨ (c.phase = .confirmed ∧ bootable c = false) then moveCode tm 0 s .rejected x else x) x
  let s := bootSlot x.1
  (x.1, { x.2 with fw := { x.2.fw with running := s.getD 0, nosup := s.isNone } })

/-! ### Firmware commands (Table 14-9) -/

/-- A firmware command ends. -/
def endFw (r : FwResult) (d : Device) : Device := { d with fw := { d.fw with busy := false, op := none, result := r.code } }

/-- A firmware command from a source. -/
def fwCommand (src : Src) (f : NonVol × Device → NonVol × Device) (x : NonVol × Device) : NonVol × Device :=
  let d := x.2
  let result (r : FwResult) : NonVol × Device := (x.1, { d with fw := { d.fw with result := r.code } })
  if !mayEarly d src .none then (x.1, d)
  else if !mayEarly d src .engineer || !lifeAllows d then result .denied
  else if d.fw.busy then result .busy
  else if d.pwr.mode = .standby then result .power
  else f (x.1, d)

/-- ERASE begins. -/
def fwEraseStart (s : Fin 2) (x : NonVol × Device) : NonVol × Device :=
  let only := decide ((bankGet x.1.code s).phase = .confirmed) && decide ((bankGet x.1.code (1 - s)).phase ≠ .confirmed)
  if (decide (x.2.fw.running = s) && !x.2.fw.nosup) || only then (x.1, endFw .state x.2)
  else (x.1, { x.2 with fw := { x.2.fw with busy := true, op := some (.erase s) } })

/-- SEAL begins. -/
def fwSealStart (s : Fin 2) (x : NonVol × Device) : NonVol × Device :=
  if (bankGet x.1.code s).phase ≠ .empty then (x.1, endFw .state x.2)
  else (x.1, { x.2 with fw := { x.2.fw with busy := true, op := some (.seal s) } })

/-- CODE_FLASH_OPERATION_END: the slot becomes EMPTY or WRITTEN, or SEAL ends with the check that failed. -/
def codeFlashEnd (tm : TimeBase) (x : NonVol × Device) : NonVol × Device :=
  match x.2.fw.op with
  | none => x
  | some (.erase s) =>
    let y := moveCode tm 1 s .empty x
    ({ y.1 with code := bankSet y.1.code s ⟨.empty, 0, 0, [], false⟩ },
      endFw .ok { y.2 with fw := { y.2.fw with fillSlot := some s } })
  | some (.seal s) =>
    let c := bankGet x.1.code s
    match sealCheck (svnMin x.2) c with
    | .ok =>
      let h := codeBytes c 0 128
      let c := { c with version := word (leAt h 0x0C 4), svn := word (leAt h 0x10 4) }
      let y := moveCode tm 2 s .written ({ x.1 with code := bankSet x.1.code s c }, x.2)
      (y.1, endFw .ok { y.2 with fw := { y.2.fw with fillSlot := none } })
    | r => (x.1, endFw r x.2)

/-- A write of FW.DATA (R367, as R77): four bytes into the slot of the last ERASE while it is EMPTY. -/
def writeFwData (data : Word) (x : NonVol × Device) : NonVol × Device :=
  let off := x.2.fw.dataAddr.toNat / 4 * 4
  let next := { x.2 with fw := { x.2.fw with dataAddr := BitVec.ofNat 20 (off + 4) } }
  match x.2.fw.fillSlot with
  | none => (x.1, next)
  | some s =>
    let c := bankGet x.1.code s
    if c.phase ≠ .empty ∨ x.2.fw.busy ∨ 524288 ≤ off + 3 then (x.1, next) else
    let bytes := (leBytes 4 data.toNat).zipIdx.foldl (fun m b =>
      cellsSet m (off + b.2) (cellsGet m (off + b.2) &&& b.1)) c.bytes
    ({ x.1 with code := bankSet x.1.code s { c with bytes := bytes } }, next)

/-- SWITCH: the slot goes on trial, and the supervisor is reset into it. -/
def fwSwitch (tm : TimeBase) (s : Fin 2) (x : NonVol × Device) : NonVol × Device :=
  let running := (bankGet x.1.code x.2.fw.running).phase
  if (bankGet x.1.code s).phase ≠ .written ∨ running ≠ .confirmed ∨ (fwTrial x.1).isSome then (x.1, endFw .state x.2)
  else
    let y := moveCode tm 3 s .trial x
    (y.1, endFw .ok (addCause 7 (bootInto (some s) { y.2 with fw := { y.2.fw with trialAt := some tm.us.toNat } })))

/-- CONFIRM: SVN_MIN rises to the slot's SVN, and the other slot is REJECTED below it. -/
def fwConfirm (tm : TimeBase) (x : NonVol × Device) : NonVol × Device :=
  match fwTrial x.1 with
  | none => (x.1, endFw .state x.2)
  | some s =>
    let y := moveCode tm 4 s .confirmed x
    let svn := (bankGet y.1.code s).svn.toNat
    let least := max (svnMin y.2) svn
    let d := { y.2 with fw := { y.2.fw with trialAt := none } }
    let d := if svnMin d < least then
        storePump y.1 (addJob ⟨[.counter 4 (some least)], .counter, .counter 4, false⟩ d) else d
    let other := bankGet y.1.code (1 - s)
    let z := if other.svn.toNat < least ∧ other.phase ≠ .empty then moveCode tm 4 (1 - s) .rejected (y.1, d) else (y.1, d)
    (z.1, endFw .ok z.2)

/-- ROLLBACK. -/
def fwRollback (tm : TimeBase) (x : NonVol × Device) : NonVol × Device :=
  if (fwTrial x.1).isNone then (x.1, endFw .state x.2)
  else
    let y := rejectTrial tm 5 x
    (y.1, endFw .ok (addCause 7 y.2))

/-- TRIAL_TIME in seconds. -/
def trialSeconds (d : Device) : Nat := max 10 (min 3600 d.fw.trialTime.toNat)

/-- FW_TRIAL_TIMEOUT. -/
def fwTrialTimeout (tm : TimeBase) (x : NonVol × Device) : NonVol × Device :=
  match x.2.fw.trialAt with
  | none => x
  | some t =>
    if t + trialSeconds x.2 * 1000000 ≤ tm.us.toNat then
      let y := rejectTrial tm 5 x
      (y.1, addCause 7 y.2)
    else x

/-- WATCHDOG_EXPIRY (R28, Table 2-3, Table 14-9): a fault, a supervisor reset, and the end of a firmware trial. -/
def watchdog (tm : TimeBase) (x : NonVol × Device) : NonVol × Device :=
  if x.2.fw.supReset then x else
  let d := addCause 6 (raiseFault tm 2 0xE (Config.faultDetail 2 0xE).toNat x.2)
  if (fwTrial x.1).isSome then rejectTrial tm 5 (x.1, d) else (x.1, supervisorReset d)

end Sys2Proof.Machine
end

