-- ==== Sys2Proof/Machine/Recovery.lean ====
section
/-! DEFINITION. Power-up recovery of the store (spec 15_on_chip_store.md, R387, R388, Table 15-5; R407, R391) and what it
loads: the sector map, the counters, the life cycle, keys, slots and the recorder's place. It is one step of the device
(STORE_RECOVERY_END); its programs and erases succeed. -/

namespace Sys2Proof.Machine

/-- What recovery has done so far (OCS.RECOVERY): marks and cells completed, records voided, erases and wipes made again, and
where stored values failed their check. -/
structure Recovered where
  completed : Nat
  cells : Nat
  voided : Nat
  erases : Nat
  wipes : Nat
  faults : List Nat
  /-- Steps 2, 3 and 5 changed something (SYS.BOOT_STATUS.RECOVERED). -/
  changed : Bool
deriving DecidableEq, Repr

/-- The store as recovery works on it. -/
structure Settling where
  nv : NonVol
  st : Store
  done : Recovered
deriving DecidableEq, Repr

/-! ### Settling records (Table 15-5 step 3, R407) -/

/-- One byte group programmed to zero. -/
def zeroBytes (nv : NonVol) (a n : Nat) : NonVol := programBytes nv a (List.replicate n 0)

/-- One group, with the byte that completes and the one that voids: `whole` is the record, `commit` and `void` are the
places of MARK and VOID (or COMMIT and VOID), and `good` says whether the check of the whole holds. -/
def settleGroup (whole size commit void n : Nat) (good : NonVol → Bool) (x : NonVol × Recovered) : NonVol × Recovered :=
  let nv := x.1
  let r := x.2
  let voidIt (nv : NonVol) (r : Recovered) : NonVol × Recovered := (zeroBytes nv void n, { r with voided := r.voided + 1 })
  if groupErased nv whole size then x
  else if groupPartial nv commit n then
    let nv := zeroBytes nv commit n
    let r := { r with completed := r.completed + 1 }
    if good nv then (if groupPartial nv void n then voidIt nv r else (nv, r)) else voidIt nv r
  else if groupErased nv commit n then (if groupProgrammed nv void n then x else voidIt nv r)
  else if groupPartial nv void n then voidIt nv r
  else x

/-- The check of a record of Table 15-2. -/
def recordChecks (loc n : Nat) (nv : NonVol) : Bool :=
  let bs := flashRead 0 nv loc (64 * n)
  decide (crc32c (bs.take (64 * n - 8)) = leAt bs (64 * n - 8) 4)

/-- Does anything stand in a sector? -/
def sectorTouched (nv : NonVol) (p : Fin 128) : Bool :=
  nv.cut.contains p || (nv.partials.any fun a => decide (a / 4096 = p.val)) || nv.flash.any fun c => decide (c.1 / 4096 = p.val)

/-- The record locations of a sector: the cells behind a CARRY are no location (R385). -/
def recordLocations (nv : NonVol) (base : Nat) : Nat → Nat → List (Nat × Nat)
  | 0, _ => []
  | fuel + 1, c =>
    if c ≥ 64 then [] else
    let loc := base + 64 * c
    let n := (claimedChunks 0 nv loc).getD 1
    let step := if flashByte 0 nv loc = 0x30 then 2 else n
    (loc, n) :: recordLocations nv base fuel (c + step)

/-- Every record location of a record sector is settled. -/
def settleRecords (p : Fin 128) (x : Settling) : Settling :=
  if !sectorTouched x.nv p || x.nv.cut.contains p then x else
  let y := (recordLocations x.nv (4096 * p.val) 64 0).foldl (fun y l =>
    let last := l.1 + 64 * l.2
    settleGroup l.1 (64 * l.2) (last - 4) (last - 2) 2 (recordChecks l.1 l.2) y) (x.nv, x.done)
  { x with nv := y.1, done := y.2 }

/-- Event records at some addresses are settled (R407). -/
def settleEvents (addrs : List Nat) (x : Settling) : Settling :=
  let y := addrs.foldl (fun y a =>
    settleGroup a 32 (a + 30) (a + 31) 1 (fun nv =>
      let bs := flashRead 0 nv a 32
      decide (crc16 (bs.take 28) = leAt bs 28 2)) y) (x.nv, x.done)
  { x with nv := y.1, done := y.2 }

/-- Check failures: records that are committed and not void whose check fails (R380). -/
def checkFaults (nv : NonVol) (p : Fin 128) : List Nat :=
  if !sectorTouched nv p || nv.cut.contains p then [] else
  ((recordLocations nv (4096 * p.val) 64 0).filter fun l =>
    (claimedChunks 0 nv l.1).isSome && groupProgrammed nv (l.1 + 64 * l.2 - 4) 2 && groupErased nv (l.1 + 64 * l.2 - 2) 2
      && !recordChecks l.1 l.2 nv).map (·.1)

/-! ### The sector map (Table 15-1, R376, R394) -/

/-- The region of a logical sector at manufacture. -/
def regionOf (l : Nat) : Nat :=
  if l < 16 then 0 else if l < 32 then 1 else if l < 42 then 2 else if l < 46 then 3 else if l < 48 then 4
  else if l < 50 then 5 else if l < 51 then 6 else if l < 56 then 7 else if l < 109 then 8 else if l < 121 then 9 else 10

/-- All valid records of a kind, wherever they stand. -/
def recordsOf (nv : NonVol) (kind : Nat) : List StoredRec :=
  (List.finRange 128).flatMap fun p =>
    if sectorTouched nv p && !nv.cut.contains p then (sectorRecords 0 nv [] p).filter fun x => decide (x.kind = kind) else []

/-- Where a logical sector lies by its own MAP records, with the age of the claim: one past the record's SEQ, 0 at manufacture. -/
def claimOf (maps : List StoredRec) (l : Fin 128) : Nat × Option (Fin 128) :=
  match newestOf (maps.filter fun x => decide (x.key = l.val)) with
  | some x => (x.seq + 1, fin? 128 (leAt x.body 0 1))
  | none => (0, some l)

/-- The sector map: a MAP record moves a logical sector, or gives it up; a sector that a newer record has given to another logical
sector is gone too (R394, R395). -/
def mapOf (maps : List StoredRec) (l : Fin 128) : Option (Fin 128) :=
  let own := claimOf maps l
  if maps.any fun x => decide (x.key ≠ l.val) && (match fin? 128 x.key with
      | some m => decide (own.1 < (claimOf maps m).1) && decide (own.2.isSome ∧ own.2 = (claimOf maps m).2)
      | none => false) then none
  else own.2

/-- Step 1: the map, with circulating sectors that were given up moved among the spares' numbers. -/
def loadMap (x : Settling) : Settling :=
  let maps := recordsOf x.nv 0x02
  { x with st := { x.st with
    map := bankOf fun l => mapOf maps l
    region := bankOf fun l =>
      if regionOf l.val = 8 ∧ (mapOf maps l).isNone then 10 else Fin.ofNat 11 (regionOf l.val) } }

/-- Has a record sector anything behind its header? -/
def sectorUsed (nv : NonVol) (p : Fin 128) : Bool :=
  nv.cut.contains p || (nv.partials.any fun a => decide (a / 4096 = p.val ∧ 256 ≤ a % 4096))
    || nv.flash.any fun c => decide (c.1 / 4096 = p.val ∧ 256 ≤ c.1 % 4096)

/-- The lowest SEQ of a sector's records. -/
def sectorSeq (nv : NonVol) (r : Fin 11) (p : Fin 128) : Nat :=
  let seqs := if eventRegion r then (sectorEvents 0 nv p).map seqOf
    else ((sectorRecords 0 nv [] p).filter fun x => decide (x.kind ≠ 0x01)).map (·.seq)
  seqs.foldl min 0xFFFF_FFFF

/-- Sectors with their SEQ, oldest first. -/
def insertSector (x : Nat × Fin 128) : List (Nat × Fin 128) → List (Nat × Fin 128)
  | [] => [x]
  | y :: ys => if x.1 < y.1 then x :: y :: ys else y :: insertSector x ys

/-- The next free chunk of a sector (4 to 64), or its next event record (0 to 120). -/
def nextFree (nv : NonVol) (r : Fin 11) (p : Fin 128) : Nat :=
  if eventRegion r then
    120 - ((List.range 120).reverse.takeWhile fun i => groupErased nv (eventAddr p i) 32).length
  else 64 - ((List.range 60).reverse.takeWhile fun i => groupErased nv (4096 * p.val + 256 + 64 * i) 64).length

/-- The sectors of each region in use and erased, and the places of the next records. -/
def loadSectors (x : Settling) : Settling :=
  let nv := x.nv
  let st := x.st
  let mine (r : Fin 11) : List (Fin 128) := (regionSectors st r).filter fun l => !rawLogical l && (physOf st l).isSome
  let inUse (r : Fin 11) : List (Fin 128) :=
    (((mine r).filterMap fun l => (physOf st l).bind fun p =>
      if sectorUsed nv p then some (sectorSeq nv r p, l) else none).foldr insertSector []).map (·.2)
  let used := bankOf fun r => inUse r
  { x with st := { st with
    used := used
    erased := bankOf fun r => (mine r).filter fun l => !(bankGet used r).contains l
    next := bankOf fun r => match ((bankGet used r).getLast?).bind (physOf st) with
      | some p => nextFree nv r p
      | none => if eventRegion r then 120 else 64 } }

/-- The erase counts: of SECTOR_HDR records, and of the slots' counters for raw sectors (R383). -/
def loadCounts (x : Settling) : Settling :=
  let hdrs := recordsOf x.nv 0x01
  let dones := recordsOf x.nv 0x04
  let raw (l : Fin 128) : Nat := (bankGet x.st.counters (if l.val < 16 then 6 else 7)).toNat
  let count (p : Fin 128) : Nat :=
    match newestOf (hdrs.filter fun h => decide (h.loc = 4096 * p.val)) with
    | some h => leAt h.body 2 4
    | none =>
      match (List.finRange 128).find? fun l => decide (physOf x.st l = some p) && rawLogical l with
      | some l => raw l
      | none => match newestOf (dones.filter fun h => decide (h.key = p.val)) with
        | some h => leAt h.body 0 4
        | none => 0
  let counts : Bank 128 (BitVec 17) := bankOf fun p => BitVec.ofNat 17 (count p)
  { x with st := { x.st with eraseCount := counts } }

/-! ### Programs of recovery -/

/-- Steps that recovery programs at once. -/
def settleRun (steps : List JobStep) (x : Settling) : Settling :=
  let y := runNow x.nv 4096 x.st steps
  { x with nv := y.1, st := y.2 }

/-- Step 2: every open ERASE_INTENT is made good. -/
def redoErases (x : Settling) : Settling :=
  let intents := recordsOf x.nv 0x03
  let dones := recordsOf x.nv 0x04
  let todo := ((List.finRange 128).filter fun p => !x.nv.worn.contains p).filterMap fun p =>
    match newestOf (intents.filter fun i => decide (i.key = p.val)) with
    | some i => if dones.any fun d => decide (d.key = p.val) && decide (d.seq > i.seq) then none else some (p, leAt i.body 0 4)
    | none => none
  todo.foldl (fun x t =>
    let l := ((List.finRange 128).find? fun l => decide (physOf x.st l = some t.1)).getD t.1
    let hdr := if rawLogical l then [] else [JobStep.record (headerRec t.1 l (bankGet x.st.region l) (t.2 + 1))]
    let x := { x with st := { x.st with eraseCount := bankSet x.st.eraseCount t.1 (BitVec.ofNat 17 t.2) } }
    let x := settleRun ([.erase t.1 0 false] ++ hdr ++ [.record (doneRec t.1 (t.2 + 1))]) x
    { x with done := { x.done with erases := x.done.erases + 1 } }) x

/-- Step 4 for one counter (R387): the partial cell is completed; cells past a gap are faults. -/
def settleCounter (c : Fin 16) (x : Settling) : Settling :=
  match counterBlock 0 x.nv x.st c with
  | none => x
  | some (loc, _) =>
    let cell (i : Nat) : Nat := loc + 64 + i
    let run := ((List.range 64).takeWhile fun i => !erasedAt x.nv (cell i)).length
    let half := (List.range run).filter fun i => !programmedAt x.nv (cell i)
    let past := ((List.range 64).drop (run + 1)).filter fun i => !erasedAt x.nv (cell i)
    { x with
      nv := (half ++ past).foldl (fun nv i => zeroBytes nv (cell i) 1) x.nv
      done := { x.done with cells := x.done.cells + half.length, faults := x.done.faults ++ past.map cell } }

/-! ### Wipes (R357, R358, Table 14-4) -/

/-- The keys that a change keeps (Table 14-4). -/
def keepsKey (lc : LifeCycle) (t : Nat) : Bool :=
  match lc with
  | .retired => decide (t = 0 ∨ t = 3 ∨ t = 4)
  | .returned => false
  | _ => true

/-- A KEY record (Table 15-3). -/
def keyRec (t : Nat) (gen : Word) (key : List Byte) : RecordReq :=
  ⟨0x40, BitVec.ofNat 64 t, 0, leBytes 4 gen.toNat ++ key, 4, none⟩

/-- The wipe of a region: the store with the region's sectors set aside, the steps, and the logical sectors that will be
erased. Keys that stay are written anew first. -/
def wipeRegion (nv : NonVol) (st : Store) (lc : LifeCycle) (r : Fin 11) : Store × List JobStep × List (Fin 128) :=
  let erase (ls : List (Fin 128)) : List JobStep := ls.flatMap fun l => match physOf st l with
    | some p => eraseSteps st p l
    | none => []
  if r = 0 ∨ r = 1 then
    let ls := regionSectors st r
    let k : Fin 16 := if r = 0 then 6 else 7
    ({ st with used := bankSet st.used r [], erased := bankSet st.erased r [] },
      .counter k none :: erase (ls.filter rawLogical) ++ erase (ls.filter fun l => !rawLogical l),
      ls.filter fun l => !rawLogical l)
  else
    let old := bankGet st.used r
    let kept : List JobStep := if r = 4 then
        ((List.range 5).filter (keepsKey lc)).filterMap fun t =>
          (lookupRecord 0 nv st 4 0x40 t 0).map fun x => JobStep.record (keyRec t (word (leAt x.body 0 4)) (slice x.body 4 32))
      else []
    ({ st with used := bankSet st.used r [], next := bankSet st.next r (if eventRegion r then 120 else 64) },
      kept ++ erase old, old)

/-- Erased sectors join their region again. -/
def regainSectors (r : Fin 11) (ls : List (Fin 128)) (st : Store) : Store :=
  { st with erased := bankUpd st.erased r fun e => e ++ ls.filter fun l => !e.contains l }

/-- A region whose active sector could not be followed by a ready one is compacted first (R384). -/
def finishCompaction (r : Fin 11) (x : Settling) : Settling :=
  match bankGet x.st.erased r, bankGet x.st.used r with
  | [], o :: a :: rest =>
    match physOf x.st o with
    | some p =>
      let x := settleRun (.compact p :: eraseSteps x.st p o) x
      { x with st := { x.st with used := bankSet x.st.used r (a :: rest), erased := bankSet x.st.erased r [o] } }
    | none => x
  | _, _ => x

/-- Step 5: the wipes that the newest LIFECYCLE record still names. -/
def redoWipes (x : Settling) : Settling :=
  match lookupRecord 0 x.nv x.st 5 0x05 0 0 with
  | none => x
  | some rec =>
    let lc := lifeOf (leAt rec.body 0 1)
    let mask := leAt rec.body 1 2
    if mask = 0 then x else
    let rs := (List.finRange 11).filter fun r => mask.testBit r.val
    let x := rs.foldl (fun x r =>
      let x := if r = 4 then finishCompaction 4 x else x
      let w := wipeRegion x.nv x.st lc r
      let y := settleRun w.2.1 { x with st := w.1 }
      { y with st := regainSectors r w.2.2 y.st, done := { y.done with wipes := y.done.wipes + 1 } }) x
    settleRun [.record (lifecycleRec lc.code 0)] x

/-- The copies out of worn sectors that a reset has cut short (R394). -/
def copyWorn (x : Settling) : Settling :=
  let y := x.nv.moving.foldl (fun y m => settleRun [.compact m.1] y) x
  ⟨{ y.nv with moving := [] }, y.st, y.done⟩

/-- After recovery every read is the same (R407): interrupted bytes that margin reads have found erased read so. -/
def closeErased (nv : NonVol) : NonVol :=
  { nv with partials := nv.partials.filter fun a => !nv.unmoved.contains a, unmoved := [] }

/-! ### The whole of recovery -/

/-- Sectors that hold event records: physical sectors of regions 7 and 8. -/
def eventSectors (st : Store) : List (Fin 128) := regionPhys st 7 ++ regionPhys st 8

/-- Table 15-5, and R415's erase of circulating sectors that a committed clear had left. -/
def recoverStore (nv : NonVol) (st0 : Store) : Settling :=
  let all := List.finRange 128
  let start : Settling := ⟨nv, { st0 with seqEnd := 0, nextSeq := 0 }, ⟨0, 0, 0, 0, 0, [], false⟩⟩
  -- a record region's sectors hold records of Table 15-2; an event sector holds one, its header
  let x := loadMap (((List.finRange 128).filter fun p => decide (p.val = 48 ∨ p.val = 49)).foldl (fun x p => settleRecords p x) start)
  let records := all.filter fun p =>
    let l := ((List.finRange 128).find? fun l => decide (physOf x.st l = some p)).getD p
    !rawLogical l && decide (bankGet x.st.region l ≠ 6) && !eventRegion (bankGet x.st.region l)
  let x := loadMap ((records.filter fun p => x.st.map.toList.contains (some p)).foldl (fun x p =>
    if (regionPhys x.st 5).contains p then settleRecords p x else x) x)
  let x := loadSectors x
  let x := { x with st := refreshStore x.nv x.st }
  let x := loadCounts { x with st := { x.st with nextSeq := x.st.seqEnd } }
  let x := loadSectors (redoErases x)
  let x := records.foldl (fun x p => settleRecords p x) x
  let x := (eventSectors x.st).foldl (fun x p =>
    if sectorTouched x.nv p then settleEvents ((List.range 120).map (eventAddr p)) x else x) x
  let x := loadSectors x
  let x := { x with done := { x.done with faults := x.done.faults ++ records.flatMap (checkFaults x.nv) } }
  let x := (List.finRange 16).foldl (fun x c => settleCounter c x) x
  let x := { x with st := refreshStore x.nv x.st }
  let x := settleRun [.counter 1 none, .counter 0 none] { x with st := { x.st with nextSeq := x.st.seqEnd } }
  let x := { x with st := refreshStore x.nv x.st }
  let x := { x with st := { x.st with nextSeq := BitVec.ofNat 32 (max x.st.nextSeq.toNat (x.st.seqEnd.toNat - 1024)) } }
  let x := copyWorn (redoWipes x)
  let changed := decide (x.done.completed ≠ 0 ∨ x.done.voided ≠ 0 ∨ x.done.erases ≠ 0 ∨ x.done.wipes ≠ 0)
  let x := { x with done := { x.done with changed := changed } }
  let x := settleEvents (shutdownChunks x.st) x
  -- R415: sectors whose records all lie below the newest CLEARED
  let cleared := ((regionEvents 0 x.nv x.st 8).filter fun b => decide (leAt b 11 1 = 0xC4)).foldl (fun a b => max a (seqOf b)) 0
  let stale := (bankGet x.st.used 8).filter fun l => match physOf x.st l with
    | some p => (sectorEvents 0 x.nv p).all fun b => decide (seqOf b < cleared)
    | none => false
  let x := stale.foldl (fun x l => match physOf x.st l with
    | some p =>
      let y := settleRun (eraseSteps x.st p l) x
      { y with st := regainSectors 8 [l] { y.st with used := bankUpd y.st.used 8 fun u => u.filter fun z => decide (z ≠ l) } }
    | none => x) x
  ⟨closeErased x.nv, refreshStore x.nv x.st, x.done⟩

end Sys2Proof.Machine
end

