-- ==== Sys2Proof/Machine/Startup.lean ====
section
/-! DEFINITION. Resets and start-up (spec 02_clocks_reset_crossings.md, R33 to R55; 03_structure_image.md, R76;
17_electrical_package.md, R428): what a reset leaves, the steps of Table 2-6, the selection of a slot, whole apply, strap mode and
READY; quadrant resets and power failure. -/

namespace Sys2Proof.Machine

/-! ### Resets (Table 2-3) -/

/-- The bit of SYS.RESET_CAUSE of a reset (Table 2-12). -/
def ResetKind.bit : ResetKind → Nat
  | .cold => 0 | .pin => 1 | .soft => 2 | .clkloss => 3 | .ramerr => 4 | .debug => 5

/-- The persistent memories as a reset leaves them: a chunk program in progress completes, but not past the supplies' end
(R33, R374); an erase is cut. -/
def resetFlash (cold : Bool) (nv : NonVol) (d : Device) : NonVol :=
  let nv := match d.ocs.current.bind headProg with
    | some c => if cold then interruptChunk nv c else programChunk nv c
    | none => nv
  let nv := (openErases d.ocs).foldl interruptErase nv
  match d.fw.op with
  | some (.erase s) => { nv with code := bankSet nv.code s ⟨.empty, 0, 0, [], false⟩ }
  | _ => nv

/-- Step 1 is held until the supplies are in range and RST_N is high; then its filter runs. -/
def firstStep (p : Pins) : StartStep := if p.supplyOk && p.rstN then .filter else .held

/-- A cold, warm or debug reset: everything but the pins, and SYS.RESET_CAUSE unless it is cold; the count of lost events is
kept (R39), so are the faults still to be recorded (R33), and PFAIL_N keeps its effect while it is low (R389, R412). A reset while step 1 is held is absorbed (R36). -/
def wholeReset (kind : ResetKind) (nv : NonVol) (d : Device) : NonVol × Device :=
  if d.sys.step = .held ∧ kind ≠ .cold then (nv, addCause kind.bit d) else
  let cold := decide (kind = .cold)
  let low := !d.pins.pfailN
  let lost := (if d.er.started then 0 else d.sys.lostEvents) + d.er.queue.length
  let fresh := Device.reset
  (resetFlash cold nv d, { fresh with
    pins := d.pins
    draws := d.draws
    sys := { fresh.sys with
      step := firstStep d.pins
      cause := if cold then 1 else setBit d.sys.cause kind.bit
      warmCount := if cold then 0 else satInc d.sys.warmCount
      lostEvents := if cold then 0 else lost
      faults := if cold then [] else d.sys.faults }
    ocs := { fresh.ocs with pfail := low }
    er := { fresh.er with pfail := low } })

/-- A reset on the whole state: time stops, and starts again at the end of step 3 (R138). -/
def resetState (kind : ResetKind) (s : State) : State :=
  let x := wholeReset kind s.nv s.dev
  { s with nv := x.1, dev := x.2, tm := if s.dev.sys.step = .held ∧ kind ≠ .cold then s.tm else TimeBase.reset }

/-- SUPPLY_TRIP (R428): the cold reset, held. -/
def supplyTrip (s : State) : State :=
  resetState .cold { s with dev := { s.dev with pins := { s.dev.pins with supplyOk := false } } }

/-- Step 1's filter begins once nothing holds it any more. -/
def releaseFilter (d : Device) : Device :=
  if d.sys.step = .held then { d with sys := { d.sys with step := firstStep d.pins } } else d

/-- RST_N low (R34). -/
def rstLow (s : State) : State :=
  resetState .pin { s with dev := { s.dev with pins := { s.dev.pins with rstN := false } } }

/-- A fault whose reset empties the event queue: its record is written in the following start-up (R28, R33). -/
def deferFault (kind source : Nat) (d : Device) : Device :=
  { d with sys := { d.sys with faults := d.sys.faults ++ [(kind, source)] } }

/-- The code nibble of a block in an INTERNAL_FAULT record; free where the command does not say which block it was. -/
def faultNibble (draws : Nat) : RamBlock → Nat
  | .le => 3 | .tbi => 2 | .pli => 2 | .hs => 5 | .other => (Config.faultBlock draws).toNat

/-- Clock loss (R33): the warm reset; FLT_N low; PLL0 in reset until REFCLK is back. -/
def clockLost (s : State) : State :=
  if !s.dev.clk.pllLock then s else
  let t := resetState .clkloss (s.onDev (deferFault 3 0))
  { t with dev := { t.dev with
    pins := { t.dev.pins with refclk := false }
    pm := { t.dev.pm with clockLoss := true }
    clk := { t.dev.clk with pllTrying := false } } }

/-- The record of a RAM error (R28). -/
def raiseRam (tm : TimeBase) (blk : RamBlock) (d : Device) : Device :=
  let n := faultNibble d.draws blk
  raiseFault tm 1 n (Config.faultDetail 1 n).toNat { d with draws := d.draws + 1 }

/-- A RAM error (R28, R34, R179): a correctable one is corrected, recorded, and in LE counted; an uncorrectable one is recorded,
and in LE, TBI, PLI and HS causes the warm reset. -/
def ramFails (blk : RamBlock) (correctable : Bool) (s : State) : State :=
  if correctable then
    s.onDev fun d => raiseRam s.tm blk (if blk = .le then { d with le := { d.le with ecc := satInc d.le.ecc } } else d)
  else match blk with
    | .other => s.onDev (raiseRam s.tm blk)
    | .le | .tbi | .pli | .hs => resetState .ramerr (s.onDev (deferFault 1 (faultNibble 0 blk)))

/-! ### Quadrant reset (R35, R133) -/

/-- Rails with a placed phase in a quadrant. -/
def quadRails (d : Device) (q : Fin 4) : List (Fin 64) :=
  (List.finRange 64).filter fun r => (placedOf d r).any fun g => decide (quadOf g = q)

/-- The lanes of a quadrant. -/
def quadLanes (q : Fin 4) : List (Fin 64) := (List.finRange 64).filter fun n => decide (quadOfLane n = q)

/-- The realign of the crossings of a quadrant, groups q and 6 (R44, Table 2-5): the pulses in flight are dropped and counted. -/
def realign (q : Fin 4) (d : Device) : Device :=
  let drop (b : Bank 16 XDrop) (g : Fin 16) : Bank 16 XDrop :=
    bankUpd b g fun x => { x with dropped := satAdd x.dropped (Config.pulsesInFlight d.draws g).val }
  { d with
    clk := { d.clk with xdrop := drop (drop d.clk.xdrop (Fin.ofNat 16 q.val)) 6 }
    draws := d.draws + 1 }

/-- The quadrant's lanes and slots return to their reset values. Its power domain is off with them, and once it is on again
(QUADRANT_DOMAIN_ON, R361) the lanes follow the structure from DOWN. -/
def resetQuadrant (tm : TimeBase) (q : Fin 4) (d : Device) : Device :=
  let d := realign q d
  let d := (quadLanes q).foldl (fun d n => laneUnused tm n d) d
  let d := (quadLanes q).foldl (fun d n =>
    let d := (laneSlots n).foldl (fun d g => d.onSlot g fun _ => { Slot.reset with owner := namingRail d g }) d
    d.onLane n fun l => { Lane.reset with mode := l.mode, idleSince := tm.time.toNat }) d
  { d with clk := { d.clk with quadReset := bankSet d.clk.quadReset q none } }

/-- The available phases of a quadrant are about to become unavailable (R203, Table 8-12). -/
def quadGone (q : Fin 4) (d : Device) : Device :=
  (List.finRange 64).foldl (fun d r =>
    if (availablePhases d r).any fun g => decide (quadOf g = q) then phaseGone r d else d) d

/-- RESET_CTRL with KIND 0b10: the quadrant is to leave (R35), and its phases are unavailable (R203). -/
def askQuadrantReset (tm : TimeBase) (q : Fin 4) (d : Device) : Device :=
  let d := quadGone q d
  { d with clk := { d.clk with quadReset := bankUpd d.clk.quadReset q fun x => some (x.getD tm.time.toNat) } }

/-- QUADRANT_RESET: once no rail has a phase there. -/
def quadrantResets (tm : TimeBase) (q : Fin 4) (d : Device) : Device :=
  if (bankGet d.clk.quadReset q).isSome ∧ (quadRails d q).isEmpty then resetQuadrant tm q d else d

/-- Every rail that still has phases in a quadrant enters HOLD (R35, Table 14-6). -/
def holdQuadrant (tm : TimeBase) (q : Fin 4) (d : Device) : Device :=
  (quadRails d q).foldl (fun d r =>
    if (d.rail r).state.runs ∧ (d.rail r).state ≠ .hold then enterHold tm r .quadrant d else d) d

/-- QUADRANT_RESET_TIMEOUT: 10 ms after the request. -/
def quadrantTimesOut (tm : TimeBase) (q : Fin 4) (d : Device) : Device :=
  match bankGet d.clk.quadReset q with
  | none => d
  | some t => if t + msTicks 10 ≤ tm.time.toNat then resetQuadrant tm q (holdQuadrant tm q d) else d

/-! ### Steps 1 to 4 -/

/-- STARTUP_FILTER_END: the straps are latched, the life-cycle state is read, and the wipe begins. -/
def filterEnds (nv : NonVol) (d : Device) : Device :=
  if d.sys.step ≠ .filter then d else
  let life := newestOf (recordsOf nv 0x05)
  let sg := match life with
    | some r => { d.sg with lc := lifeOf (leAt r.body 0 1), lcPending := decide (leAt r.body 1 2 ≠ 0) }
    | none => d.sg
  { d with sys := { d.sys with step := .wipe, strap := d.pins.straps }, sg := sg }

/-- Step 3 ends: TIME and the device microsecond start, and store recovery begins; what PFAIL_N is now decides R50. -/
def startTime (s : State) : State :=
  { s with
    tm := { TimeBase.reset with running := true, lclk := true }
    dev := { s.dev with sys := { s.dev.sys with step := .recovery, pfailAt4 := !s.dev.pins.pfailN } } }

/-- WIPE_END; step 3 waits for PLL0 (R49). -/
def wipeEnds (s : State) : State :=
  if s.dev.sys.step ≠ .wipe then s
  else if s.dev.clk.pllLock then startTime s
  else s.onDev fun d => { d with sys := { d.sys with step := .waitPll } }

/-- PLL0_LOCK: the clocks run. -/
def pllLocks (s : State) : State :=
  if s.dev.clk.pllLock ∨ !s.dev.clk.pllTrying ∨ s.dev.sys.step = .held ∨ s.dev.sys.step = .filter then s else
  let s := s.onDev fun d => { d with
    pins := { d.pins with refclk := true }
    pm := { d.pm with clockLoss := false }
    clk := { d.clk with
      pllLock := true, refOk := true, roscOnly := false, qclk := bankFill 4 true, lclkOn := true, eclkOn := true, sclkOn := true } }
  if s.dev.sys.step = .waitPll then startTime s else s

/-- PLL_LOCK_TIMEOUT: 10 ms after step 2 began, without lock (R49). -/
def lockIsLate (d : Device) : Device :=
  if (d.sys.step = .wipe ∨ d.sys.step = .waitPll) ∧ !d.clk.pllLock ∧ !d.sys.lockLate then
    addCause 3 { d with sys := { d.sys with lockLate := true } }
  else d

/-- REFCLK_PRESENT: present for 1 ms, so PLL0 tries to lock (R33, R49). -/
def refclkBack (d : Device) : Device :=
  { d with pins := { d.pins with refclk := true }, clk := { d.clk with refOk := true, pllTrying := true } }

/-! ### Slot selection (R76) -/

/-- The check of a slot at start-up; none where its state is EMPTY or REJECTED. -/
def startCheckOf (nv : NonVol) (d : Device) (s : Fin 2) : Option (Except ImgResult Billet) :=
  match (slotView d s).phase with
  | .written | .trial | .confirmed => some (readSlot d.draws nv d.ocs s)
  | .empty | .rejected => none

/-- The slot that start-up applies: a WRITTEN one above the CONFIRMED one, else the CONFIRMED one. In BLANK there is none
(Table 14-7). -/
def chosenSlot (nv : NonVol) (d : Device) : Option (Fin 2) :=
  if d.sg.lc = .blank then none else
  let good (p : SlotPhase) (s : Fin 2) : Bool := decide ((slotView d s).phase = p) && match startCheckOf nv d s with
    | some (.ok _) => true
    | _ => false
  let gen (s : Fin 2) : Nat := (slotView d s).gen.toNat
  let best (l : List (Fin 2)) : Option (Fin 2) := l.foldl (fun b s => match b with
    | none => some s
    | some t => if gen s > gen t then some s else some t) none
  let conf := best ((List.finRange 2).filter (good SlotPhase.confirmed))
  let least := match conf with | some c => gen c | none => 0
  match best ((List.finRange 2).filter fun s => good SlotPhase.written s && decide (gen s > least)) with
  | some w => some w
  | none => conf

/-- Step 6 begins: an open trial is REJECTED, a WRITTEN or CONFIRMED slot that fails its check is recorded (R28), and a WRITTEN slot that is chosen goes on
trial (R76, Table 3-14). -/
def selectSlot (tm : TimeBase) (nv : NonVol) (d : Device) : Device :=
  let pick := chosenSlot nv d
  let code (x : Option (Except ImgResult Billet)) : ImgResult := match x with
    | some (.error e) => e
    | _ => .ok
  let d := (List.finRange 2).foldl (fun d s =>
    match (slotView d s).phase with
    | .trial => raiseImage tm 5 s 0 0 (code (startCheckOf nv d s)) (moveImageSlot nv s .rejected d)
    | .written | .confirmed =>
      let res := code (startCheckOf nv d s)
      if res = .ok then d else raiseImage tm 0 s 0 0 res d
    | _ => d) d
  let d := match pick with
    | some s => if (slotView d s).phase = SlotPhase.written then
        let d := moveImageSlot nv s .trial d
        { d with img := { d.img with trialOpen := true, trialSlot := s } } else d
    | none => d
  { d with
    img := { d.img with running := pick }
    sys := { d.sys with strapMode := pick.isNone, step := .apply, pfailWait := false } }

/-! ### STORE_RECOVERY_END -/

/-- OCS.RECOVERY as a word (Table 15-9). -/
def Recovered.word (r : Recovered) : Nat :=
  min (r.completed + r.cells) 255 + 256 * min r.voided 255 + 65536 * min r.erases 15 + 1048576 * min r.wipes 15
    + 16777216 * min r.faults.length 255

/-- The store's registers after recovery. -/
def loadStore (x : Settling) : Store :=
  let st := x.st
  let bp := match lookupRecord 0 x.nv st 5 0x06 0 0 with | some r => leAt r.body 0 1 | none => 0
  let lost (r : Fin 11) : Bool :=
    if r = 8 then (List.finRange 128).any fun l => decide (regionOf l.val = 8) && (physOf st l).isNone &&
      (List.finRange 128).any fun m => decide (m > l) && decide (regionOf m.val = 8) && (physOf st m).isSome
    else decide (r ≠ 10) && (regionSectors st r).any fun l => (physOf st l).isNone
  { st with
    recovering := false
    bp := BitVec.ofNat 2 bp
    completed := satNat 8 (x.done.completed + x.done.cells)
    voided := satNat 8 x.done.voided
    erases := satNat 4 x.done.erases
    wipes := satNat 4 x.done.wipes
    faults := satNat 8 x.done.faults.length
    readonly := BitVec.ofNat 10 ((List.finRange 10).foldl (fun a r => a + flag (lost (Fin.ofNat 11 r.val)) r.val) 0) }

/-- The keys, the ports' failure counts, and the life cycle, from the store (R350, R355). -/
def loadGuard (tm : TimeBase) (nv : NonVol) (st : Store) (sg : Guard) : Guard :=
  let life := lookupRecord 0 nv st 5 0x05 0 0
  let keys : Bank 5 (Option KeySlot) := bankOf fun t =>
    (lookupRecord 0 nv st 4 0x40 t.val 0).map fun r => ⟨word (leAt r.body 0 4), slice r.body 4 32⟩
  let ports := bankMap sg.ports fun p s => match lookupRecord 0 nv st 3 0x31 p.val 0 with
    | some r => { s with
        fails := BitVec.ofNat 3 (leAt r.body 0 1)
        lockouts := BitVec.ofNat 4 (leAt r.body 1 1)
        lockedUntil := if leAt r.body 2 1 = 0 then none else some (tm.us.toNat + 2 ^ (leAt r.body 2 1 - 1) * 1000000) }
    | none => s
  { sg with
    keys := keys
    keysLoaded := true
    ports := ports
    lc := match life with | some r => lifeOf (leAt r.body 0 1) | none => .blank
    lcPending := false }

/-- The states of the image slots from their records. -/
def loadViews (nv : NonVol) (st : Store) : Bank 2 SlotView := bankOf fun s =>
  match lookupRecord 0 nv st (imageRegion s) 0x10 0 0 with
  | some r => ⟨match leAt r.body 0 1 with | 1 => .written | 2 => .trial | 3 => .confirmed | 4 => .rejected | _ => .empty,
      BitVec.ofNat 16 (ceilDiv (leAt r.body 5 4) 1024), word (leAt r.body 1 4)⟩
  | none => ⟨.empty, 0, 0⟩

/-- Circulating records that a power loss left without their permanent copy are copied now (R405). -/
def copyLate (lc : LifeCycle) (nv : NonVol) (st : Store) : NonVol × Nat × Nat :=
  let have' := regionEvents 0 nv st 7
  let top := (have'.map seqOf).foldl max 0
  let used := ((List.range 600).takeWhile fun i => match permanentPlace st i with
    | some a => !groupErased nv a 32
    | none => false).length
  let late := ((regionEvents 0 nv st 8).filter fun b => have'.isEmpty || decide (top < seqOf b)).foldr insertBySeq []
  late.foldl (fun x b =>
    if !goesPermanent lc x.2.2 x.2.1 b then x else
    match permanentPlace st x.2.1 with
    | some a => (programBytes x.1 a (b.take 30 ++ [0]), x.2.1 + 1, min 512 (x.2.2 + 1))
    | none => x) (nv, used, min 512 have'.length)

/-- The recorder's place in the store (R402, R405, R406, R391). -/
def loadRecorder (nv : NonVol) (st : Store) (perm : Nat × Nat) (e : Recorder) : Recorder :=
  let circ := regionEvents 0 nv st 8
  let all := circ ++ regionEvents 0 nv st 7 ++ (shutdownRecords 0 nv st).map (·.2)
  let top := (all.map seqOf).foldl max 0
  let newest := all.find? fun b => decide (seqOf b = top)
  let low := match circ with | [] => 0 | b :: bs => (bs.map seqOf).foldl min (seqOf b)
  { e with
    head := word top
    tail := word low
    prevSeq := word top
    permUsed := BitVec.ofNat 10 perm.1
    permCount := perm.2
    permRo := st.readonly.getLsbD 7
    bogOnly := st.readonly.getLsbD 8
    tgen := match newest with | some b => BitVec.ofNat 6 (leAt b 10 1 % 64) | none => 0
    sectors := byte ((regionPhys st 8).length)
    toCopy := (shutdownRecords 0 nv st).filter fun x => erasedAt nv (x.1 + 32) }

/-- The calendar restarts from the newest record's TIME (R51, R403). -/
def loadCalendar (nv : NonVol) (st : Store) : BitVec 48 :=
  let all := regionEvents 0 nv st 8 ++ regionEvents 0 nv st 7 ++ (shutdownRecords 0 nv st).map (·.2)
  let top := (all.map seqOf).foldl max 0
  match all.find? fun b => decide (seqOf b = top) with
  | some b => BitVec.ofNat 48 (leAt b 4 6)
  | none => 0

/-- CAPTURE_ID of the last capture: the highest that a record carries. -/
def loadCaptureId (nv : NonVol) (st : Store) : Word :=
  word ((((regionEvents 0 nv st 8 ++ regionEvents 0 nv st 7).filter fun b => decide (leAt b 11 1 = 0xD1)).map fun b =>
    leAt b 12 4).foldl max 0)

/-- START (R402): the first record of the start-up. -/
def raiseStart (tm : TimeBase) (nv : NonVol) (d : Device) : Device :=
  let install := match chosenSlot nv d with
    | some s => match readSlot d.draws nv d.ocs s with
      | .ok b => b.str.installId.toNat
      | .error _ => 0
    | none => 0
  let payload := leBytes 4 d.er.prevSeq.toNat ++ [d.sys.cause] ++ leBytes 1 (min d.sys.lostEvents 255)
    ++ leBytes 2 (bootId d) ++ leBytes 8 install
  { d with er := { (pushEvent tm true 0x00 payload none none d.er).1 with started := true } }

/-- The faults that ended in a reset are recorded, after START (R28, R33). -/
def raiseDeferred (tm : TimeBase) (d : Device) : Device :=
  let d' := d.sys.faults.foldl (fun d f => raiseFault tm f.1 f.2 (Config.faultDetail f.1 f.2).toNat d) d
  { d' with sys := { d'.sys with faults := [] } }

/-- The events of recovery (R398, R28). -/
def raiseRecovery (tm : TimeBase) (x : Settling) (d : Device) : Device :=
  let r := x.done
  let d := r.faults.foldl (fun d loc =>
    let p := sectorOf loc
    let region := match (List.finRange 128).find? fun l => decide (physOf x.st l = some p) with
      | some l => (bankGet x.st.region l).val
      | none => 10
    raise tm 0xB0 [2, byte region, byte p.val] (raiseFault tm 4 0xB (Config.faultDetail 4 0xB).toNat d)) d
  if r.changed || decide (r.completed + r.cells + r.voided ≠ 0) then raise tm 0xB0 ([1, 0, 0, 0] ++ leBytes 4 r.word) d else d

/-- The supervisor's release and slot selection. A start-up that reached step 4 with PFAIL_N low waits until it has been high
for 10 ms (R50). -/
def afterRecovery (tm : TimeBase) (nv : NonVol) (d : Device) : Device :=
  if d.sys.pfailAt4 && d.ocs.pfail then { d with sys := { d.sys with step := .pfailHold, pfailWait := true } }
  else copyShutdowns nv (selectSlot tm nv d)

/-- STORE_RECOVERY_END. Recovery waits while the store window is closed (R307). -/
def recoveryEnds (s : State) : State :=
  if s.dev.sys.step ≠ .recovery ∨ !s.dev.hkt.storeWin then s else
  let x := recoverStore s.nv s.dev.ocs
  let st := loadStore x
  let d := s.dev
  let sg := loadGuard s.tm x.nv st d.sg
  let perm := copyLate sg.lc x.nv st
  let nv := perm.1
  -- EVTRES advances (R402)
  let y := settleRun [.counter 3 none] ⟨nv, st, x.done⟩
  let was := (bankGet st.counters 3).toNat
  let st := refreshStore y.nv y.st
  let er := seqAtStart was (bankGet st.counters 3).toNat (loadRecorder y.nv st perm.2 d.er)
  let tm := { s.tm with cal := loadCalendar y.nv st }
  let d := { d with
    ocs := st
    sg := sg
    er := er
    img := { d.img with view := loadViews y.nv st }
    cap := { d.cap with lastId := loadCaptureId y.nv st }
    sys := { d.sys with recovered := x.done.changed } }
  let f := bootFirmware tm (y.nv, raiseRecovery tm x (raiseDeferred tm d))
  { s with tm := tm, nv := f.1, dev := afterRecovery tm f.1 (raiseStart tm f.1 f.2) }

/-! ### Strap mode (R53, R183, Tables 2-8 to 2-10) -/

/-- VSET of STRAP[2:0], in set-point LSBs (Table 2-9). -/
def strapSet (strap : BitVec 6) : Nat :=
  [0x1D4C0, 0x2BF20, 0x3A980, 0x493E0, 0x57E40, 0x75300, 0x86470, 0x927C0].getD (strap.toNat % 8) 0

/-- The feed limit of STRAP[5:4] in mW (Table 2-10). -/
def strapFeed (strap : BitVec 6) : Nat := [5000000, 12000000, 24000000, 48000000].getD (strap.toNat / 16) 0

/-- Rail 0 in strap mode. -/
def strapRail (strap : BitVec 6) : RailSect :=
  let v := strapSet strap
  let zero : Coef := ⟨0, 0⟩
  { vmin := v * 90 / 100, vmax := v, vset := v, slewUp := 1000, slewDn := 1000, ssRate := 1000
    fgroup := 0, template := false, nestN := 4, ffVin := false, ffAcc := false, vinSrc := none, voutSrc := none
    bidir := false, lead := 0, minPhases := 1, shedDwell := 0, ilimPhase := 10000, ilimRail := 0
    ov := v * 115 / 100, uv := v * 85 / 100, addHi := 0, shedLo := 0, dmax := 62259, dmin := 0, overrunLimit := 8
    outer := bankOf fun i => if i = 0 then ⟨0x40000000, 0xFC⟩ else if i = 1 then ⟨0x88000000, 0xFB⟩
      else if i = 4 then ⟨0x40000000, 0x01⟩ else zero
    inner := bankOf fun i => if i = 0 then ⟨0x40000000, 0xFF⟩ else if i = 1 then ⟨0x88000000, 0xFE⟩
      else if i = 3 then ⟨0x40000000, 0x01⟩ else zero
    phases := [] }

/-- The structure in strap mode. -/
def strapStructure (strap : BitVec 6) : Structure :=
  { Structure.none with
    device := ⟨{ DeviceSect.none with
      feedLimit := strapFeed strap
      standalone := strapFeed strap
      fgPeriod := bankOf fun g => if g = 0 then 8000 else 0
      fgEnable := bankOf fun g => decide (g = 0) }, 0⟩
    rails := bankOf fun r => if r = 0 then some ⟨strapRail strap, 0⟩ else none }

/-! ### Whole apply (step 6) and the lanes (step 7) -/

/-- The mode of a lane under the structure in force (R64, R62). -/
def laneModeFor (d : Device) (n : Fin 64) : Fin 3 :=
  if d.sys.strapMode then 2 else
  match d.str.lanes with
  | some _ => match laneEntry d n with
    | some e => e.mode
    | none => 0
  | none => if (laneSlots n).any fun g => (namingRail d g).isSome then 1 else 0

/-- The reset value of TBI.FG_ROFS (Table 5-8). -/
def ringOffset (x : DeviceSect) (g : Fin 8) : Nat :=
  let p := bankGet x.fgPeriod g
  if p = 0 then 0 else x.ringPos * (p + stretchOf p) / max 1 x.ringSize

/-- The ring state as an image is applied (Table 5-2). -/
def applyRing (tm : TimeBase) (x : DeviceSect) (d : Device) : Device :=
  let put (f : Tracker → Tracker) (d : Device) : Device := { d with tbi := { d.tbi with ring := f d.tbi.ring } }
  if x.ringSize < 2 then put (fun r => { r with state := .standalone, syncout := false }) d
  else if x.ringPos = 0 then put (fun r => { r with state := .reference }) d
  else raiseRing tm 2 (put restartTracker d)

/-- Everything that a whole apply puts into force. -/
def putStructure (tm : TimeBase) (str : Structure) (d : Device) : Device :=
  let d := { d with str := str }
  let d := { d with slots := bankMap d.slots fun g s => { s with owner := namingRail d g } }
  let d := (List.finRange 64).foldl (fun d r => match d.sect r with
    | some b => loadRail tm r none b d
    | none => d) d
  let d := applyPeriph str.periph (loadProtect d)
  let d := { d with
    hs := { d.hs with mode := modeFor d }
    pp := { d.pp with node := BitVec.ofNat 4 str.device.body.ringPos }
    pwr := { d.pwr with smoulder := bankOf fun q => str.device.body.smoulder.getLsbD q.val }
    tbi := { d.tbi with
      startAt := some ((tm.time.toNat / 800000 + 1) * 800000)
      carriers := bankMap d.tbi.carriers fun g c => { c with rofs := BitVec.ofNat 16 (ringOffset str.device.body g) } }
    lanes := bankMap d.lanes fun n l => { l with mode := laneModeFor d n, idleSince := tm.time.toNat } }
  let d := (List.finRange 64).foldl (fun d n => laneDown n d) (applyRing tm str.device.body d)
  updateLoad ((List.finRange 4).foldl (fun d q => settleDomain q d) d)

/-- Step 7 begins: every lane that the structure maps starts training (Tables 2-6 and 4-15). -/
def trainLanes (tm : TimeBase) (d : Device) : Device := (List.finRange 64).foldl (fun d n => startTraining tm n d) d

/-- WHOLE_APPLY_END (R46, R53, R89, R90). -/
def wholeApply (tm : TimeBase) (nv : NonVol) (d : Device) : Device :=
  if d.sys.step ≠ .apply then d else
  let next (d : Device) : Device := trainLanes tm { d with sys := { d.sys with step := .bringUp } }
  let strap (d : Device) : Device :=
    let d := { d with sys := { d.sys with strapMode := true }, img := { d.img with running := none } }
    next (putStructure tm (strapStructure d.sys.strap) d)
  match d.img.running with
  | none => strap d
  | some s =>
    match readSlot d.draws (withImageData nv d) d.ocs s with
    | .error e => strap (raiseImage tm 0 s 0 0 e d)
    | .ok b =>
      let d := setReport 1 b.clamps (putStructure tm b.str d)
      let d := { d with
        img := { d.img with
          applyCount := 1
          loadTrial := if d.img.trialOpen then d.img.loadRun else 0
          railSrc := bankOf fun r => if (d.sect r).isSome then ⟨BitVec.ofNat 2 (s.val + 1), false, 0⟩ else ⟨0, false, 0⟩ }
        sys := { d.sys with slotApplied := BitVec.ofNat 2 (s.val + 1), clamped := !b.clamps.isEmpty } }
      next (raiseImage tm 0 s 0 0 .ok d)

/-! ### READY (step 9) -/

/-- The stages that strap mode gives to rail 0 (R53), with their current limit. -/
def strapPhases (tm : TimeBase) (found : List (Fin 512)) (d : Device) : Device :=
  match d.sect 0 with
  | none => d
  | some b =>
    let mine := found.take 128
    let live := mine.filter fun g => decide ((d.slot g).state = .admitted)
    let lim := min 65535 (live.foldl (fun a g => a + (d.slot g).rep.rating.toNat) 0 / 10)
    let b' := { b with phases := mine, ilimRail := lim }
    let d' := putRail tm 0 (some ⟨b', 0⟩) d
    { d' with sys := { d'.sys with unassigned := decide (found.length > 128) } }

/-- READY (R46, R48, R73, R135, R206, R416). -/
def reachReady (tm : TimeBase) (d : Device) : Device :=
  if d.sys.step ≠ .bringUp then d else
  let found := (List.finRange 512).filter fun g => decide ((d.slot g).state ≠ .absent)
  let d := if d.sys.strapMode then strapPhases tm found d else d
  let d := { d with sys := { d.sys with step := .ready, readyAt := tm.time.toNat, stages := found.length } }
  let d := (List.finRange 64).foldl (fun d r => match d.sect r with
    | some _ => d.onRail r fun x => { x with state := .armed }
    | none => d) d
  let d := if d.sys.strapMode then d else (List.finRange 64).foldl (fun d r => match d.sect r with
    | some b => match ratingEntry d r b d.img.report with
      | some e => addReport { e with applyNo := 1 } { d with sys := { d.sys with clamped := true } }
      | none => d
    | none => d) d
  let d := (List.finRange 64).foldl (fun d n =>
    if (d.lane n).mode = 1 ∧ (d.lane n).state ≠ .up then laneLoss tm n d else d) d
  let d := { d with hsp := { d.hsp with evt := setBit d.hsp.evt 3 } }
  let d := settleBus 1 (settleBus 0 d)
  if d.bog.op.isSome then d else startDiscover d

/-! ### Power failure (R37, R50, R389, R412) -/

/-- A counter program that is queued as PFAIL_N falls is still made (R389). -/
def keepCounter (j : Job) : Job :=
  match j.prio, j.steps with
  | .counter, .counter _ _ :: _ => { j with prio := .counterKept }
  | _, _ => j

/-- PFAIL_N falls. -/
def pfailFalls (s : State) : State :=
  if !s.dev.pins.pfailN then s else
  let first := !s.dev.sys.brownout
  let d := { s.dev with
    pins := { s.dev.pins with pfailN := false }
    sys := { s.dev.sys with brownout := true }
    ocs := { s.dev.ocs with pfail := true, jobs := s.dev.ocs.jobs.map keepCounter } }
  let x := stopErase s.nv d
  { s with nv := x.1, dev := storePump x.1 (recorderFails s.tm first x.2) }

/-- PFAIL_N rises; its 10 ms begin. -/
def pfailRises (s : State) : State :=
  if s.dev.pins.pfailN then s else
  s.onDev fun d =>
    let d := { d with pins := { d.pins with pfailN := true } }
    if d.sys.brownout then recorderRises s.tm d else d

/-- PFAIL_RECOVERED: high for 10 ms. -/
def pfailOver (s : State) : State :=
  if !s.dev.pins.pfailN ∨ !s.dev.ocs.pfail then s else
  let d := s.dev
  let was := d.sys.brownout
  let d := { d with
    sys := { d.sys with brownout := false }
    ocs := { d.ocs with pfail := false }
    er := { d.er with pfail := false } }
  let d := if was then recorderRecovers s.tm d else d
  let d := storePump s.nv d
  { s with dev := if d.sys.step = .pfailHold then afterRecovery s.tm s.nv d else copyShutdowns s.nv d }

end Sys2Proof.Machine
end

