-- ==== Sys2Proof/Machine/Power.lean ====
section
/-! DEFINITION. Device and quadrant power states (spec 14_security_lifecycle.md, R361 to R364; R19, R32, R130, R139). -/

namespace Sys2Proof.Machine

/-- Results of power commands (PWR.STATE.RESULT, Table 14-15). -/
inductive PowerResult where
  | ok
  | load
  | rails
  | ledger
  | busy
  | denied
deriving DecidableEq, Repr

/-- Table 14-15. -/
def PowerResult.code : PowerResult → Byte
  | .ok => 0 | .load => 1 | .rails => 2 | .ledger => 3 | .busy => 4 | .denied => 5

/-- A power state as PWR.STATE shows it. -/
def PowerMode.code : PowerMode → Nat
  | .run => 0 | .trim => 1 | .standby => 2

/-- A power command ends with a result. -/
def endPower (r : PowerResult) (d : Device) : Device := { d with pwr := { d.pwr with result := r.code } }

/-! ### Quadrants (Table 14-6) -/

/-- Are phases of a quadrant placed? -/
def quadPlaced (d : Device) (q : Fin 4) : Bool := !(quadRails d q).isEmpty

/-- A calibration in a quadrant that enters SMOULDER ends: STOP where START has been sent (R130). It begins anew when the quadrant
leaves SMOULDER (DEDUCED, assumption 109). -/
def stopCalibration (g : Fin 512) (d : Device) : Device :=
  match (d.slot g).cal with
  | none => d
  | some c =>
    let d := d.onSlot g fun s => { s with cal := none }
    match c with
    | .collecting .. => sendStop g d
    | .writing .. => d

/-- R130 applies to a quadrant: STOP to every slot that is ARMED or SWITCHING, and no EDGE cell from then on. -/
def stopQuadrant (tm : TimeBase) (q : Fin 4) (d : Device) : Device :=
  let d := { d with pwr := { d.pwr with entering := bankSet d.pwr.entering q none } }
  let d := (quadLanes q).foldl (fun d n => dropEdges n d) d
  ((List.finRange 512).filter fun g => decide (quadOf g = q)).foldl (fun d g =>
    let d := stopCalibration g d
    if (d.phase g).placed ∨ (d.phase g).stopAt.isSome then
      let d := sendStop g (immediateLeave tm g d)
      let d := d.onPhase g fun p => { p with stopAt := none, after := .admitted }
      if (d.slot g).state = .serving then setSlot g .admitted .none d else d
    else d) d

/-- A quadrant that enters SMOULDER is there once no phase of it is placed. -/
def settleSmoulder (tm : TimeBase) (d : Device) : Device :=
  (List.finRange 4).foldl (fun d q =>
    if (bankGet d.pwr.entering q).isSome && !quadPlaced d q then stopQuadrant tm q d else d) d

/-- PWR.CMD QOP SMOULDER: the quadrant's phases become unavailable (R203) and leave (R218). -/
def smoulderQuadrant (tm : TimeBase) (q : Fin 4) (d : Device) : Device :=
  let d := endPower .ok d
  if bankGet d.pwr.smoulder q then d else
  let d := quadGone q d
  let d := { d with pwr := { d.pwr with
    smoulder := bankSet d.pwr.smoulder q true
    entering := bankSet d.pwr.entering q (some tm.time.toNat) } }
  settleSmoulder tm (raisePower tm d.pwr.mode.code d.pwr.mode.code 0 d)

/-- SMOULDER_TIMEOUT: 10 ms after the entry began, every rail that still holds a phase there enters HOLD. -/
def smoulderTimesOut (tm : TimeBase) (q : Fin 4) (d : Device) : Device :=
  match bankGet d.pwr.entering q with
  | none => d
  | some t => if t + msTicks 10 ≤ tm.time.toNat then stopQuadrant tm q (holdQuadrant tm q d) else d

/-- PWR.CMD QOP QRUN: BIAS stops, and the phases are available from each rail's next boundary. -/
def wakeQuadrant (tm : TimeBase) (q : Fin 4) (d : Device) : Device :=
  if d.pwr.mode = .standby then d else
  let d := endPower .ok d
  if !bankGet d.pwr.smoulder q then d else
  let d := { d with
    pwr := { d.pwr with smoulder := bankSet d.pwr.smoulder q false, entering := bankSet d.pwr.entering q none }
    slots := bankMap d.slots fun g s => if quadOf g = q ∧ s.state = .admitted then { s with fresh := true } else s }
  raisePower tm d.pwr.mode.code d.pwr.mode.code 0 d

/-- A carrier period with what it ends: quadrants that have come to SMOULDER, and quadrant resets are left to their own
event. -/
def carrierStarts (tm : TimeBase) (g : Fin 8) (d : Device) : Device := settleSmoulder tm (carrierPeriod tm g d)

/-! ### RUN and TRIM -/

/-- PWR.CMD TRIM (Table 14-5). -/
def enterTrim (tm : TimeBase) (d : Device) : Device :=
  match d.pwr.mode with
  | .standby => d
  | .trim => endPower .ok d
  | .run =>
    if d.img.loadRun.toNat > 4500 then endPower .load d else
    raisePower tm 0 1 0 (endPower .ok { d with
      pwr := { d.pwr with mode := .trim } })

/-! ### STANDBY and waking -/

/-- Is an operation in progress that keeps the device from STANDBY (R363)? -/
def operationRuns (d : Device) : Bool :=
  d.img.busy || d.tune.run.isSome || d.fw.busy || storeBusy d.ocs || d.ocs.cmdBusy || eraseOpen d.ocs
    || d.bog.op.isSome || d.bog.cmdBusy || (List.finRange 64).any fun n => (d.lane n).train.isSome

/-- May the rail stay as it is in STANDBY? -/
def railQuiet (d : Device) (r : Fin 64) : Bool :=
  decide ((d.rail r).state = .off) || decide ((d.rail r).state = .armed)

/-- Does the ledger hold a live entry? -/
def ledgerLive (d : Device) : Bool :=
  (List.finRange 128).any fun e => match (bankGet d.hs.ledger e).state with
    | .queued | .planned | .granted | .active => true
    | .free | .done | .squashed | .revoked => false

/-- What R363 refuses STANDBY with; none where it is entered. -/
def standbyBar (d : Device) : Option PowerResult :=
  if !(List.finRange 64).all (railQuiet d) then some .rails
  else if ledgerLive d then some .ledger
  else if operationRuns d || d.sg.bscan then some .busy
  else none

/-- The ports stop, and LCLK, ECLK and SCLK with them (R363, Table 2-2). -/
def stopClocks (d : Device) : Device :=
  settleBus 1 (settleBus 0 { d with
    pwr := { d.pwr with mode := .standby }
    clk := { d.clk with trim := false, qclk := bankFill 4 false, lclkOn := false, eclkOn := false, sclkOn := false }
    lanes := bankMap d.lanes fun _ l => { l with queue := [], sending := none, asleep := false, line := lineOff l.line } })

/-- PWR.CMD STANDBY (Table 14-5, R363). -/
def enterStandby (s : State) : State :=
  if s.dev.pwr.mode = .standby then s else
  match standbyBar s.dev with
  | some r => s.onDev (endPower r)
  | none =>
    { s with
      tm := { s.tm with lclk := false }
      dev := endPower .ok (stopClocks (raisePower s.tm s.dev.pwr.mode.code 2 0 s.dev)) }

/-- TIME as it is reloaded at a microsecond boundary, when LCLK runs again (R139). -/
def reloadTime (tm : TimeBase) : TimeBase := { tm with time := BitVec.ofNat 64 (800 * tm.us.toNat), lclk := true }

/-- What waking does to the device, at the reloaded TIME; `gap` is the time that STANDBY took from the scheduler (R364). -/
def resumeDevice (tm : TimeBase) (gap : Nat) (cause : Nat) (nv : NonVol) (d : Device) : Device :=
  let d := { d with
    pwr := { d.pwr with mode := .run, waking := none, cause := BitVec.ofNat 3 cause }
    clk := { d.clk with qclk := bankFill 4 true, lclkOn := true, eclkOn := true, sclkOn := true }
    lanes := bankMap d.lanes fun _ l => { l with idleSince := tm.time.toNat }
    hs := { d.hs with charges := [], heartbeat := d.hs.heartbeat.map (· + gap) }
    pp := { d.pp with partners := bankMap d.pp.partners fun _ p => { p with leaseFrom := tm.time.toNat } }
    tbi := { d.tbi with
      carriers := bankMap d.tbi.carriers fun _ c => { c with started := false }
      startAt := d.tbi.startAt.map fun _ => (tm.time.toNat / 800000 + 1) * 800000 } }
  let d := (List.finRange 64).foldl (fun d n => startRetrain tm n d) (settleBus 1 (settleBus 0 d))
  storePump nv (copyShutdowns nv (raisePower tm 2 0 cause d))

/-- The device wakes at a microsecond boundary (R139, R364). -/
def resumeNow (cause : Nat) (s : State) : State :=
  let tm := reloadTime s.tm
  { s with tm := tm, dev := resumeDevice tm (tm.time.toNat - s.tm.time.toNat) cause s.nv s.dev }

/-- A cause wakes the device (R364): at the microsecond boundary where it stands, or at the next one, where TIME can be reloaded
(R139). The first cause is the one that is kept. -/
def wakeDevice (cause : Nat) (s : State) : State :=
  if s.dev.pwr.mode ≠ .standby ∨ s.dev.pwr.waking.isSome then s
  else if s.tm.phase = 0 then resumeNow cause s
  else s.onDev fun d => { d with pwr := { d.pwr with waking := some cause } }

/-- The code of a wake's cause (Table 14-15), where its bit in PWR.WAKE lets it wake. -/
def wakeCode (d : Device) : WakeCause → Option Nat
  | .busA => if d.pwr.wakeA then some 2 else none
  | .busB => if d.pwr.wakeB then some 3 else none
  | .housekeeping => some 4
  | .thermal => some 5

/-- WAKE. -/
def wake (c : WakeCause) (s : State) : State :=
  match wakeCode s.dev c with
  | some k => wakeDevice k s
  | none => s

/-- Has a channel risen to THROTTLE or above (R364)? -/
def channelRose (old new : Device) : Bool :=
  (List.finRange 96).any fun c =>
    let was := effectiveLevel (bankGet old.hkt.chans c)
    let is := effectiveLevel (bankGet new.hkt.chans c)
    decide (was < is) && decide (2 ≤ is)

/-- A housekeeping round or an on-die sample wakes the device from STANDBY where it enters thermal shutdown, or where a channel
rises to THROTTLE or above (R364). A shutdown is the cause where both stand: R292 takes it up before the channel's event. -/
def wakeHot (was : Device) (s : State) : State :=
  if s.dev.hkt.tsd && !was.hkt.tsd then wakeDevice 5 s
  else if channelRose was s.dev then wakeDevice 4 s else s

/-- PWR.CMD RUN: TRIM ends, or the device wakes (Table 14-5, R364). -/
def enterRun (s : State) : State :=
  match s.dev.pwr.mode with
  | .run => s.onDev (endPower .ok)
  | .trim => s.onDev fun d => endPower .ok (raisePower s.tm 1 0 0 (leaveTrim s.tm.time.toNat d))
  | .standby => (wakeDevice 1 s).onDev (endPower .ok)

/-! ### The commands -/

/-- A power command from a source of a level. -/
def powerCommand (src : Src) (least : Level) (f : State → State) (s : State) : State :=
  if mayEarly s.dev src least then f s else if mayEarly s.dev src .none then s.onDev (endPower .denied) else s

end Sys2Proof.Machine
end

