-- ==== Sys2Proof/Machine/Guard.lean ====
section
/-! DEFINITION. The session guard (spec 14_security_lifecycle.md): sessions (R352 to R355), keys (R350, R351), the life cycle
(R356 to R358) and debug authorisation (R359, R360). -/

namespace Sys2Proof.Machine

/-! ### Results and shared operations -/

/-- Guard results (Table 14-12). -/
inductive GuardResult where
  | ok
  | badProof
  | locked
  | notInstalled
  | busy
  | state
  | badOp
  | kcv
  | denied
  | power
  | lifecycle
deriving DecidableEq, Repr

/-- Table 14-12. -/
def GuardResult.code : GuardResult → Byte
  | .ok => 0 | .badProof => 1 | .locked => 2 | .notInstalled => 3 | .busy => 4 | .state => 5 | .badOp => 6 | .kcv => 7
  | .denied => 8 | .power => 9 | .lifecycle => 0xA

/-- The session registers of a port. -/
def Device.session (d : Device) (p : Port) : Session := bankGet d.sg.ports (portIdx p)

/-- A change of one port's session registers. -/
def Device.onSession (d : Device) (p : Port) (f : Session → Session) : Device :=
  { d with sg := { d.sg with ports := bankUpd d.sg.ports (portIdx p) f } }

/-- A command of a port ends with a result. -/
def endSession (p : Port) (r : GuardResult) (d : Device) : Device := d.onSession p fun s => { s with result := r.code }

/-- A bit of SG.INT_STATUS. -/
def guardInt (i : Nat) (d : Device) : Device := { d with sg := { d.sg with intStatus := setBit d.sg.intStatus i } }

/-- The session reset (R353, Table 2-3): the session's own state. -/
def closeSession (p : Port) (d : Device) : Device :=
  d.onSession p fun s => { s with
    state := .closed, level := 0, ctr := 0, chal := [], resp := bankFill 8 0, dproof := [], opening := none }

/-- Is the port locked (R354)? -/
def portLocked (tm : TimeBase) (s : Session) : Bool :=
  match s.lockedUntil with
  | some t => decide (tm.us.toNat < t)
  | none => false

/-- Can the counter region be written at once (R355)? -/
def canCount (d : Device) : Bool :=
  d.sg.keysLoaded && d.clk.sclkOn && d.hkt.storeWin && !d.hkt.tsd && regionWritable d.ocs 3

/-- Are the counts of a port's failed proof or token being written (R355)? -/
def failureRuns (p : Port) (d : Device) : Bool :=
  (d.session p).failPending || (decide (p = .debug) && d.sg.dbgFailing.isSome)

/-- The PORT record of a port (Table 15-3). LOCKED is 0, or the exponent of a running lockout plus 1. -/
def portRec (p : Port) (fails lockouts locked : Nat) : RecordReq :=
  ⟨0x31, BitVec.ofNat 64 (portIdx p).val, 0, [byte fails, byte lockouts, byte locked], 3, none⟩

/-- The PORT record of a port joins the store's queue. -/
def writePort (nv : NonVol) (p : Port) (locked : Nat) (d : Device) : Device :=
  let s := d.session p
  storePump nv (addJob ⟨[.record (portRec p s.fails.toNat s.lockouts.toNat locked)], .counter, .port p, false⟩ d)

/-- A SESSION event (R371). -/
def raiseSession (tm : TimeBase) (p : Port) (event level fails lock : Nat) (d : Device) : Device :=
  raise tm 0xA0 ([byte event, byte (portIdx p).val, byte level, byte fails] ++ leBytes 4 lock) d

/-! ### Challenges (R352, R355) -/

/-- 32 bytes of the random source. -/
def drawNonce (d : Device) : List Byte × Device :=
  ((List.range 32).map (Config.random d.draws), { d with draws := d.draws + 1 })

/-- The next CTR of the reserved block, if one is left. -/
def takeCtr (d : Device) : Option (Word × Device) :=
  let c := d.sg.ctrNext
  if c = 0 then none else
  some (c, { d with sg := { d.sg with ctrNext := if c = d.sg.ctrEnd then 0 else c + 1 } })

/-- Does a challenge wait for a block? -/
def awaitsBlock (d : Device) : Bool := d.sg.dbgOpening || d.sg.ports.toList.any fun s => s.opening.isSome

/-- A block of 256 is reserved: CHALRES advances (R355). -/
def reserveBlock (nv : NonVol) (d : Device) : Device :=
  storePump nv (addJob ⟨[.counter 2 none], .counter, .counter 2, false⟩ d)

/-- The challenge of an OPEN is shown. -/
def showChallenge (p : Port) (level : BitVec 2) (d : Device) : Device :=
  match takeCtr d with
  | none => endSession p .busy (d.onSession p fun s => { s with opening := none })
  | some (c, d) =>
    let n := drawNonce d
    n.2.onSession p fun s => { s with
      state := .challenged, level := level, ctr := c, chal := n.1, result := GuardResult.ok.code, opening := none }

/-- The challenge of a DBG_CHAL. -/
def showDebugChallenge (d : Device) : Device :=
  match takeCtr d with
  | none => { d with sg := { d.sg with dbgOpening := false } }
  | some (c, d) =>
    let n := drawNonce d
    { n.2 with sg := { n.2.sg with dbgOpening := false, dbgNonce := n.1, dbgCtr := c } }

/-- A new block is reserved: its numbers go to the challenges that wait. CTR starts at 1; the last block ends at
0xFFFF_FFFF. -/
def blockReserved (d : Device) : Device :=
  let v := (bankGet d.ocs.counters 2).toNat
  let first := 256 * (v - 1) + 1
  let d := { d with sg := { d.sg with
    ctrNext := if first < 2 ^ 32 then word first else 0
    ctrEnd := word (min (256 * v) (2 ^ 32 - 1)) } }
  let d := [Port.spi, .twoWire, .debug].foldl (fun d p => match (d.session p).opening with
    | some level => showChallenge p level d
    | none => d) d
  if d.sg.dbgOpening then showDebugChallenge d else d

/-- OPEN (R352): the session on the port closes, and a challenge follows, at once or after a block is reserved. -/
def openSession (tm : TimeBase) (nv : NonVol) (p : Port) (level : BitVec 2) (d : Device) : Device :=
  if failureRuns p d then endSession p .busy d else
  let d := closeSession p d
  if portLocked tm (d.session p) then endSession p .locked d
  else if d.sg.ctrNext ≠ 0 then showChallenge p level d
  else if !canCount d then endSession p .busy d
  else
    let waits := awaitsBlock d
    let d := d.onSession p fun s => { s with opening := some level }
    if waits then d else reserveBlock nv d

/-! ### Proofs (R352, R354) -/

/-- The message M of Table 14-2. -/
def proofMessage (d : Device) (tag : List Byte) (port level : Nat) (nonce : List Byte) (ctr : Word) : List Byte :=
  tag ++ beBytes 8 Config.uid.toNat ++ [byte port, byte level, byte d.sg.lc.code, 0] ++ nonce ++ beBytes 4 ctr.toNat

/-- "EHS1", "EHT1", "EHD1", "EHW1" and "EHK1". -/
def tagEH (c : Nat) : List Byte := [0x45, 0x48, byte c, 0x31]

/-- RESP as bytes. -/
def respBytes (s : Session) : List Byte := s.resp.toList.flatMap fun w => beBytes 4 w.toNat

/-- A level's key, where one is installed. -/
def keyOf (d : Device) (t : Fin 5) : Option (List Byte) := (bankGet d.sg.keys t).map (·.key)

/-- A lockout of 2^k seconds begins (R354): the session of the port is reset. -/
def lockPort (tm : TimeBase) (p : Port) (level : Nat) (d : Device) : Device :=
  let k := (d.session p).lockouts.toNat
  let d := raiseSession tm p 4 level 0 (2 ^ k) d
  d.onSession p fun s => { s with
    fails := 0, lockouts := BitVec.ofNat 4 (min 10 (k + 1)), lockedUntil := some (tm.us.toNat + 2 ^ k * 1000000) }

/-- A failure on a port is counted, and the fifth in a row locks it (R354); its PORT record follows (R355). -/
def countFailure (tm : TimeBase) (nv : NonVol) (p : Port) (level : Nat) (d : Device) : Device :=
  let n := (d.session p).fails.toNat + 1
  let k := (d.session p).lockouts.toNat
  if n < 5 then writePort nv p 0 (d.onSession p fun s => { s with fails := BitVec.ofNat 3 n })
  else writePort nv p (k + 1) (lockPort tm p level d)

/-- A successful PROVE (R352, R354): both counts are zero, and the session opens. -/
def proofGood (tm : TimeBase) (nv : NonVol) (p : Port) (dproof : List Byte) (d : Device) : Device :=
  let s := d.session p
  let counted := decide (s.fails ≠ 0) || decide (s.lockouts ≠ 0)
  let d := d.onSession p fun s => { s with
    state := .opened, result := GuardResult.ok.code, fails := 0, lockouts := 0, lockedUntil := none, dproof := dproof
    lastUse := tm.us.toNat }
  let d := raiseSession tm p 1 s.level.toNat 0 0 (guardInt 0 d)
  if counted then writePort nv p 0 d else d

/-- DPROOF (R352). -/
def dproofOf (key : List Byte) (s : Session) : List Byte := hmac key (tagEH 0x44 ++ respBytes s)

/-- The key of a DPROOF in BLANK: the CUSTODIAN key in force, and where none is installed the 32 zero bytes that R351 gives for it
(DEDUCED, assumption 116). -/
def blankKey (d : Device) : List Byte := (keyOf d 3).getD (List.replicate 32 0)

/-- PROVE (R352 to R355): BUSY before the keys are loaded (R350) and while no failure could be counted (R355), whatever else
holds. -/
def prove (tm : TimeBase) (nv : NonVol) (p : Port) (d : Device) : Device :=
  let s := d.session p
  if failureRuns p d ∨ canCount d = false then endSession p .busy d
  else if s.state ≠ .challenged then endSession p .state d
  else if d.sg.lc = .blank ∧ s.level = 3 ∧ p ≠ .debug then proofGood tm nv p (dproofOf (blankKey d) s) d
  else if d.sg.lc = .returned then
    if s.level = 0 then
      proofGood tm nv p ((List.range 32).map (Config.unkeyedProof d.draws)) { d with draws := d.draws + 1 }
    else endSession p .notInstalled d
  else match keyOf d (Fin.ofNat 5 s.level.toNat) with
    | none => endSession p .notInstalled d
    | some key =>
      if hmac key (proofMessage d (tagEH 0x53) (portIdx p).val s.level.toNat s.chal s.ctr) = respBytes s then
        proofGood tm nv p (dproofOf key s) d
      else
        let d := raiseSession tm p 3 s.level.toNat (s.fails.toNat + 1) 0 (d.onSession p fun s => { s with failPending := true })
        countFailure tm nv p s.level.toNat d

/-- A token ends: its challenge is used up, and an event says so. -/
def tokenEnds (tm : TimeBase) (scope : BitVec 2) (r : GuardResult) (d : Device) : Device :=
  let d := { d with sg := { d.sg with dbgNonce := [], dbgCtr := 0 } }
  raise tm 0xA3 [byte scope.toNat, r.code] (guardInt 5 d)

/-- A failed proof of a port reports its result, and its challenge is used up. -/
def proofFailed (p : Port) (d : Device) : Device :=
  if (d.session p).failPending then
    guardInt 1 (endSession p .badProof (closeSession p (d.onSession p fun s => { s with failPending := false })))
  else d

/-- A failed token reports its result; a session that the lockout finds on the port is reset. -/
def tokenFailed (tm : TimeBase) (d : Device) : Device :=
  match d.sg.dbgFailing with
  | none => d
  | some scope =>
    let d := tokenEnds tm scope .badProof { d with sg := { d.sg with dbgFailing := none } }
    if (d.session .debug).fails = 0 then closeSession .debug d else d

/-- Does a later PORT record of a port wait to be written? -/
def portJobWaits (p : Port) (d : Device) : Bool :=
  (d.ocs.current.toList ++ d.ocs.jobs).any fun j => decide (j.tag = .port p)

/-- The PORT record of a port is written: a failed PROVE or DBG_TOKEN now reports its result, once no later record of the port
waits (R355, R359). -/
def portWritten (tm : TimeBase) (p : Port) (d : Device) : Device :=
  if !failureRuns p d || portJobWaits p d then d else
  let s := d.session p
  let d := proofFailed p d
  let d := if p = .debug then tokenFailed tm d else d
  if s.fails = 0 ∧ s.lockedUntil.isSome then guardInt 2 d else d

/-- CLOSE (R353). -/
def closeCommand (p : Port) (d : Device) : Device := endSession p .ok (closeSession p d)

/-- IDLE in seconds: 1 to 3,600 (Table 14-11). -/
def idleSeconds (s : Session) : Nat := max 1 (min 3600 s.idle.toNat)

/-- SESSION_IDLE_TIMEOUT (R353). -/
def sessionIdle (tm : TimeBase) (p : Port) (d : Device) : Device :=
  let s := d.session p
  if s.state = .opened ∧ s.lastUse + idleSeconds s * 1000000 ≤ tm.us.toNat then
    closeSession p (raiseSession tm p 2 s.level.toNat s.fails.toNat 0 d)
  else d

/-- LOCKOUT_END (R354): the port's record says so too. -/
def lockoutEnds (tm : TimeBase) (nv : NonVol) (p : Port) (d : Device) : Device :=
  match (d.session p).lockedUntil with
  | none => d
  | some t =>
    if t ≤ tm.us.toNat then writePort nv p 0 (d.onSession p fun s => { s with lockedUntil := none }) else d

/-! ### Keys (R351) -/

/-- A life-cycle or key command ends with a result. -/
def endGuard (r : GuardResult) (d : Device) : Device := { d with sg := { d.sg with lcResult := r.code } }

/-- The pad W of R351. -/
def wrapPad (d : Device) (target : Nat) (gen : Word) (nonce : List Byte) : List Byte :=
  let key := if d.sg.lc = .blank then List.replicate 32 0 else (keyOf d 3).getD (List.replicate 32 0)
  hmac key (tagEH 0x57 ++ beBytes 8 Config.uid.toNat ++ [byte target, 0, 0, 0] ++ beBytes 4 gen.toNat ++ nonce)

/-- KEYDATA as bytes. -/
def keydataBytes (d : Device) : List Byte := d.sg.keydata.toList.flatMap fun w => beBytes 4 w.toNat

/-- The present generation of a key. -/
def keyGen (d : Device) (t : Fin 5) : Word := match bankGet d.sg.keys t with | some k => k.gen | none => 0

/-- SG.KEY_CMD from the CUSTODIAN session of a port. -/
def installKey (nv : NonVol) (p : Port) (target : BitVec 3) (d : Device) : Device :=
  match fin? 5 target.toNat with
  | none => endGuard .badOp d
  | some t =>
    if d.sg.busy ∨ d.sg.keysLoaded = false ∨ regionWritable d.ocs 4 = false then endGuard .busy d else
    let gen := keyGen d t + 1
    let pad := wrapPad d t.val gen (d.session p).chal
    let key := List.zipWith (fun a b : Byte => a ^^^ b) (keydataBytes d) pad
    if beNat ((hmac key (tagEH 0x4B)).take 4) ≠ d.sg.kcv.toNat then guardInt 4 (endGuard .kcv d) else
    storePump nv (addJob ⟨[.record (keyRec t.val gen key)], .record, .key t gen key, false⟩
      { d with sg := { d.sg with busy := true } })

/-- KEY_CMD. -/
def keyCommand (nv : NonVol) (src : Src) (target : BitVec 3) (d : Device) : Device :=
  match src with
  | .sup => endGuard .denied d
  | .port p => if srcLevel d src < 4 then endGuard .denied d else installKey nv p target d

/-- The KEY record is written: the new key is in force. -/
def keyWritten (tm : TimeBase) (t : Fin 5) (gen : Word) (key : List Byte) (d : Device) : Device :=
  let d := { d with sg := { d.sg with keys := bankSet d.sg.keys t (some ⟨gen, key⟩), busy := false } }
  raise tm 0xA1 ([byte t.val, 0, 0, 0] ++ leBytes 4 gen.toNat) (guardInt 4 (endGuard .ok d))

/-! ### Life cycle (R356 to R358) -/

/-- Has Table 14-3 a row from one state to another? -/
def lifeRow : LifeCycle → LifeCycle → Bool
  | .blank, .commission => true
  | .commission, .service => true
  | .service, .maintain => true
  | .maintain, .service => true
  | .commission, .retired | .service, .retired | .maintain, .retired => true
  | .commission, .returned | .service, .returned | .maintain, .returned | .retired, .returned => true
  | _, _ => false

/-- The level that a change needs (Table 14-3). -/
def lifeLevel (old new : LifeCycle) : Level :=
  match new with
  | .maintain => .engineer
  | .service => if old = .commission then .custodian else .engineer
  | _ => .custodian

/-- What a condition of Table 14-3 ends the command with; none where the change may go on. -/
def lifeBar (nv : NonVol) (new : LifeCycle) (d : Device) : Option GuardResult :=
  match d.sg.lc, new with
  | .blank, .commission => if d.sg.keys.toList.all (·.isSome) then none else some .notInstalled
  | .commission, .service =>
    let confirmed := (List.finRange 2).any fun s => decide ((slotView d s).phase = .confirmed)
    if !confirmed || d.img.trialOpen || (fwTrial nv).isSome then some .state else none
  | .maintain, .service => if (fwTrial nv).isSome then some .state else none
  | .service, .maintain => none
  | _, _ => if (List.finRange 64).all (railQuiet d) then none else some .state

/-- The change goes on: an open image trial is rolled back first (Table 3-14). -/
def beginChange (tm : TimeBase) (nv : NonVol) (new : LifeCycle) (d : Device) : Device :=
  let d := { d with sg := { d.sg with busy := true } }
  if d.sg.lc = .maintain ∧ d.img.trialOpen = true then
    let d := { d with img := { d.img with lcAfter := some (Fin.ofNat 6 new.code) } }
    if d.img.busy then d else startRollback tm nv d
  else queueChange nv new d

/-- SG.LC_CMD (R356). -/
def changeLife (tm : TimeBase) (nv : NonVol) (src : Src) (new : LifeCycle) (d : Device) : Device :=
  if srcLevel d src < (lifeLevel d.sg.lc new).rank then endGuard .denied d
  else if d.sg.busy ∨ d.sg.keysLoaded = false then endGuard .busy d
  else if d.pwr.mode = .standby then endGuard .power d
  else if d.hkt.storeWin = false ∨ d.hkt.tsd = true ∨ regionWritable d.ocs 5 = false then endGuard .busy d
  else if !lifeRow d.sg.lc new then endGuard .lifecycle d
  else match lifeBar nv new d with
    | some r => endGuard r d
    | none => beginChange tm nv new d

/-- The wipe of one region is queued (R357). -/
def queueWipe (nv : NonVol) (lc : LifeCycle) (r : Fin 11) (d : Device) : Device :=
  let w := wipeRegion nv d.ocs lc r
  let d := { d with ocs := w.1 }
  if w.2.1.isEmpty then d else addJob ⟨w.2.1, .upkeep, .wiped r w.2.2, false⟩ d

/-- The volatile memories that a change to RETIRED or RETURN clears, and what it empties (Table 14-4). -/
def clearVolatile (lc : LifeCycle) (d : Device) : Device :=
  match lc with
  | .retired | .returned =>
    let d := supervisorReset d
    { d with
      cap := { d.cap with state := .stopped, samples := [], postLeft := 0, copyDue := false, wiped := true }
      img := { d.img with view := bankFill 2 ⟨.empty, 0, 0⟩, trialOpen := false, loadTrial := 0, liveOrder := [] }
      sg := { d.sg with keys := bankMap d.sg.keys fun t k => if keepsKey lc t.val then k else none } }
  | _ => d

/-- The LIFECYCLE record is written: the change takes effect (R353, R357, R358). -/
def lifeWritten (tm : TimeBase) (nv : NonVol) (lc : LifeCycle) (mask : Word) (d : Device) : Device :=
  let old := d.sg.lc.code
  let d := [Port.spi, .twoWire, .debug].foldl (fun d p => closeSession p d) d
  let d := { d with sg := { d.sg with
    lc := lc, lcPending := decide (mask ≠ 0), busy := decide (mask ≠ 0), auth := .none, bscan := false
    dbgNonce := [], dbgCtr := 0, dbgOpening := false, keydata := bankFill 8 0 } }
  let d := endGuard .ok (clearVolatile lc d)
  let changes := (bankGet d.ocs.counters 5).toNat + 1
  let d := addJob ⟨[.counter 5 none], .counter, .counter 5, false⟩ d
  let d := raise tm 0xA2 ([byte old, byte lc.code] ++ leBytes 2 (min changes 65535)) d
  let d := ((List.finRange 11).filter fun r => mask.toNat.testBit r.val).foldl (fun d r => queueWipe nv lc r d) d
  if mask = 0 then guardInt 3 d else d

/-- Are wipes still to be made? -/
def wipesRun (d : Device) : Bool :=
  (d.ocs.current.toList ++ d.ocs.jobs).any fun j => match j.tag with | .wiped _ _ => true | _ => false

/-- LC_WIPES_COMPLETE (R357): a record without wipes follows, and PENDING clears. -/
def wipesDone (nv : NonVol) (d : Device) : Device :=
  if !d.sg.lcPending || wipesRun d || d.ocs.recovering then d else
  let d := guardInt 3 { d with sg := { d.sg with lcPending := false, busy := false } }
  storePump nv (addJob ⟨[.record (lifecycleRec d.sg.lc.code 0)], .record, .none, false⟩ d)

/-! ### Debug (R359, R360, R447) -/

/-- An instruction is selected in the TAP: a drive instruction is then selected no more. -/
def selectIr (op : Nat) (d : Device) : Device :=
  { d with sg := { d.sg with tapIr := BitVec.ofNat 6 op, bscan := false } }

/-- TAP_RESET: IDCODE is selected, and the authorisation ends. -/
def tapReset (d : Device) : Device :=
  let d := selectIr 0x01 d
  { d with sg := { d.sg with auth := .none, dbgNonce := [], dbgCtr := 0, dbgOpening := false } }

/-- DEBUG_RESET: the TAP reset instruction, with debug authorised (Table 2-3). -/
def debugReset (s : State) : State := if s.dev.sg.auth = .none then s else resetState .debug s

/-- DBG_CHAL. -/
def debugChallenge (tm : TimeBase) (nv : NonVol) (d : Device) : Device :=
  if !answers d then d else
  let d := selectIr 0x20 d
  let d := { d with sg := { d.sg with dbgNonce := [], dbgCtr := 0 } }
  if portLocked tm (d.session .debug) then d
  else if d.sg.ctrNext ≠ 0 then showDebugChallenge d
  else if !canCount d then d
  else
    let waits := awaitsBlock d
    let d := { d with sg := { d.sg with dbgOpening := true } }
    if waits then d else reserveBlock nv d

/-- A token is accepted. -/
def tokenGood (tm : TimeBase) (scope : BitVec 2) (d : Device) : Device :=
  tokenEnds tm scope .ok { d with sg := { d.sg with auth := if scope = 2 then .full else .read } }

/-- The key of a debug token: the debug token key, or in RETURN the return key. -/
def tokenKey (d : Device) : Option (List Byte) :=
  if d.sg.lc = .returned then some ((List.finRange 32).map Config.returnKey) else keyOf d 4

/-- DBG_TOKEN (R359, Table 14-7). -/
def debugToken (tm : TimeBase) (nv : NonVol) (scope : BitVec 2) (token : BitVec 256) (d : Device) : Device :=
  if !answers d then d else
  let d := selectIr 0x21 d
  let busy (d : Device) : Device := raise tm 0xA3 [byte scope.toNat, GuardResult.busy.code] (guardInt 5 d)
  if d.sg.keysLoaded = false ∨ failureRuns .debug d then busy d
  else if scope = 0 ∨ scope = 3 then tokenEnds tm scope .badOp d
  else if scope = 2 ∧ (d.sg.lc = .service ∨ d.sg.lc = .retired) then tokenEnds tm scope .lifecycle d
  else if d.sg.lc = .blank then tokenGood tm scope d
  else if portLocked tm (d.session .debug) then tokenEnds tm scope .locked d
  else if !canCount d then busy d
  else if d.sg.dbgNonce.isEmpty then tokenEnds tm scope .state d
  else match tokenKey d with
    | none => tokenEnds tm scope .notInstalled d
    | some key =>
      if hmac key (proofMessage d (tagEH 0x54) 2 scope.toNat d.sg.dbgNonce d.sg.dbgCtr) = beBytes 32 token.toNat then
        tokenGood tm scope d
      else
        countFailure tm nv .debug scope.toNat
          { d with sg := { d.sg with dbgNonce := [], dbgCtr := 0, dbgFailing := some scope } }

/-- Opcodes of the drive instructions (R447). -/
def driveOpcode : DriveKind → Nat
  | .extest => 0x00
  | .clamp => 0x04
  | .intest => 0x05

/-- DRIVE_INSTRUCTION (R360): with FULL authorisation, while every rail is OFF or ARMED and the device is not in STANDBY. -/
def driveSelected (k : DriveKind) (d : Device) : Device :=
  if d.sg.auth = .full ∧ (List.finRange 64).all (railQuiet d) ∧ d.pwr.mode ≠ .standby then
    { d with sg := { d.sg with tapIr := BitVec.ofNat 6 (driveOpcode k), bscan := true } }
  else d

end Sys2Proof.Machine
end

