-- ==== Sys2Proof/Machine/StoreEnd.lean ====
section
/-! DEFINITION. The on-chip store's commands (spec 15_on_chip_store.md, R377, R390, R397) and the ends of its programs and
erases (R379, R383, R394): what each completed job brings about. -/

namespace Sys2Proof.Machine

/-! ### Commands (Table 15-9) -/

/-- Results of OCS.CMD. -/
inductive StoreResult where
  | ok
  | protected_
  | readonly
  | pfail
  | absent
  | denied
  | aborted
  | busy
  | badOp
deriving DecidableEq, Repr

/-- Table 15-9. -/
def StoreResult.code : StoreResult → Byte
  | .ok => 0 | .protected_ => 1 | .readonly => 2 | .pfail => 3 | .absent => 4 | .denied => 5 | .aborted => 6 | .busy => 7 | .badOp => 8

/-- A store command ends. -/
def endStore (r : StoreResult) (d : Device) : Device :=
  { d with ocs := { d.ocs with cmdBusy := false, result := r.code, intStatus := setBit d.ocs.intStatus 0 } }

/-- A command that finds one in progress (CMD_BUSY) or PFAIL_N low ends at once; the others go on. -/
def storeCommand (f : Device → Device) (d : Device) : Device :=
  if d.ocs.cmdBusy then { d with ocs := { d.ocs with result := StoreResult.busy.code } }
  else if d.ocs.pfail then endStore .pfail d
  else f d

/-- USER_READ: the block's newest valid record goes into UBUF, or zeros where there is none. -/
def userRead (nv : NonVol) (block : Fin 128) (d : Device) : Device :=
  match lookupRecord d.draws nv d.ocs 9 0x50 block.val 0 with
  | some r => endStore .ok { d with draws := d.draws + 1, ocs := { d.ocs with ubuf := bankOf fun w => word (leAt r.body (4 * w.val) 4) } }
  | none => endStore .absent { d with draws := d.draws + 1, ocs := { d.ocs with ubuf := bankFill 56 0 } }

/-- Is a user block protected at a level (R377)? -/
def blockProtected (bp : BitVec 2) (block : Fin 128) : Bool :=
  match bp.toNat with
  | 0 => false
  | 1 => decide (96 ≤ block.val)
  | 2 => decide (64 ≤ block.val)
  | _ => true

/-- USER_WRITE. -/
def userWrite (nv : NonVol) (block : Fin 128) (d : Device) : Device :=
  if d.sg.lc = .returned then endStore .denied d
  else if !regionWritable d.ocs 9 then endStore .readonly d
  else if blockProtected d.ocs.bp block then endStore .protected_ d
  else
    let body := d.ocs.ubuf.toList.flatMap fun w => leBytes 4 w.toNat
    storePump nv (addJob ⟨[.record ⟨0x50, BitVec.ofNat 64 block.val, 0, body, 9, none⟩], .record, .user block, true⟩
      { d with ocs := { d.ocs with cmdBusy := true } })

/-- The level that a PROTECT needs: a lower BP needs CUSTODIAN (R377). -/
def protectLevel (d : Device) (level : BitVec 2) : Level := if level.toNat < d.ocs.bp.toNat then .custodian else .engineer

/-- PROTECT. -/
def protectUser (nv : NonVol) (level : BitVec 2) (d : Device) : Device :=
  if d.sg.lc = .returned then endStore .denied d
  else if !regionWritable d.ocs 5 then endStore .readonly d
  else
    storePump nv (addJob ⟨[.record ⟨0x06, 0, 0, leBytes 1 level.toNat, 5, none⟩], .record, .protect level, true⟩
      { d with ocs := { d.ocs with cmdBusy := true } })

/-- The PROTECT record is written: BP is in force (R377, R398). -/
def protectWritten (tm : TimeBase) (level : BitVec 2) (d : Device) : Device :=
  let was := d.ocs.bp
  let d := endStore .ok { d with ocs := { d.ocs with bp := level } }
  if was = level then d else raise tm 0xB0 [7, 9, 0, byte level.toNat] d

/-! ### ABORT of a store operation (R390) -/

/-- Was a job started by a host command that the ABORT reaches: USER_WRITE, PROTECT or CAL_SAVE? -/
def hostJob (j : Job) : Bool :=
  match j.tag with
  | .user _ | .protect _ | .cal _ => true
  | _ => false

/-- The location that a job's head step has begun to write, with its chunks. -/
def placeBegun (j : Job) : Option (Nat × Nat) :=
  match j.steps with
  | .body _ m r :: _ | .mark m r :: _ =>
    let n := chunksFor r.body.length
    some (m.addr - 64 * (n - 1), n)
  | _ => none

/-- The location goes onto the doubt list, and is voided by the next operation that the store starts. -/
def putInDoubt (x : Nat × Nat) (d : Device) : Device :=
  { d with ocs := { d.ocs with
    doubt := d.ocs.doubt ++ [x.1]
    jobs := ⟨[.bytes [voidProg x.1 x.2]], .marks, .voided [x.1], false⟩ :: d.ocs.jobs } }

/-- ABORT of FUNC 0x03: queued operations are removed, a program in progress is terminated. Answers whether something was
stopped. -/
def abortStore (nv : NonVol) (d : Device) : NonVol × Device × Bool :=
  let cur := d.ocs.current.toList.filter hostJob
  let mine := cur ++ d.ocs.jobs.filter hostJob
  if mine.isEmpty then (nv, d, false) else
  let nv := match cur.head?.bind headProg with
    | some c => interruptChunk nv c
    | none => nv
  let d := { d with ocs := { d.ocs with
    current := if cur.isEmpty then d.ocs.current else none
    jobs := d.ocs.jobs.filter fun j => !hostJob j } }
  let d := (mine.filterMap placeBegun).foldl (fun d x => putInDoubt x d) d
  let d := if d.ocs.cmdBusy then endStore .aborted d else d
  (nv, storePump nv d, true)

/-! ### What a completed job brings about -/

/-- A CLEAR whose record has committed and that asks for nothing on the chip goes on with the archive, or ends (R415). -/
def clearGoesOn (tm : TimeBase) (d : Device) : Device :=
  if d.er.busy && d.er.clearSeq.isSome && !d.er.clearAreas.getLsbD 0 && !clearWaitsBog d then
    bogPump tm (finishClear d)
  else bogPump tm d

/-- EVTRES has advanced; a CLEARED that waited for numbers is written. -/
def numbersReserved (tm : TimeBase) (nv : NonVol) (d : Device) : Device :=
  let d := seqReserved d
  match d.er.clearSeq with
  | some c =>
    if d.er.clearAreas.getLsbD 0 && !(d.ocs.current.toList ++ d.ocs.jobs).any (fun j => match j.tag with
        | .cleared _ => true
        | _ => false) then writeCleared tm nv c d else d
  | none => d

/-- A counter has advanced. -/
def counterWritten (tm : TimeBase) (nv : NonVol) (k : Fin 16) (d : Device) : Device :=
  if k = 2 then blockReserved d else if k = 3 then numbersReserved tm nv d else d

/-- A sector is erased under the journal (R384, R406). -/
def sectorErased (p : Fin 128) (d : Device) : Device :=
  let d := sectorReady p d
  if (circulatingErases d.ocs).isEmpty then { d with er := { d.er with clearing := false } } else d

/-- The wipe of a region is done (R357): its sectors are ready again. An emptied circulating area holds no record. -/
def regionWiped (nv : NonVol) (r : Fin 11) (ls : List (Fin 128)) (d : Device) : Device :=
  let d := { d with ocs := regainSectors r ls d.ocs }
  if r ≠ 8 then d else
  let low := match regionEvents d.draws nv d.ocs 8 with
    | [] => 0
    | b :: bs => (bs.map seqOf).foldl min (seqOf b)
  { d with er := { d.er with tail := word low } }

/-- What the end of a job completes. -/
def jobDone (tm : TimeBase) (tag : StoreTag) (nv : NonVol) (d : Device) : Device :=
  match tag with
  | .none | .slotState _ _ _ _ | .imageData | .cal _ | .permanent | .moved _ => d
  | .imageErase s => imageErased tm nv s d
  | .key t gen key => keyWritten tm t gen key d
  | .lifecycle lc mask => lifeWritten tm nv lc mask d
  | .user _ => endStore .ok d
  | .protect level => protectWritten tm level d
  | .port p => portWritten tm p d
  | .event _ => clearGoesOn tm (eventCommitted tm nv d)
  | .shutdown => copyShutdowns nv (shutdownWritten d)
  | .copied => shutdownCopied nv d
  | .cleared seq => bogPump tm (finishClear (clearCommitted nv seq d))
  | .counter k => counterWritten tm nv k d
  | .erased p => sectorErased p d
  | .wiped r ls => regionWiped nv r ls d
  | .voided locs => { d with ocs := { d.ocs with doubt := d.ocs.doubt.filter fun x => !locs.contains x } }

/-! ### The ends of programs and erases -/

/-- The sector whose ERASE_INTENT the head program of a job commits, if it does. -/
def intentOf (j : Job) : Option (Fin 128) :=
  match j.steps with
  | .mark _ r :: _ => if r.kind = 0x03 then some (Fin.ofNat 128 r.key.toNat) else none
  | _ => none

/-- The next place of an event record whose program failed, by the area that it goes to. -/
def nextEventPlace (nv : NonVol) (tag : StoreTag) (d : Device) : Option (Store × Recorder × Nat) :=
  match tag with
  | .event _ | .copied => (circulatingPlace d.ocs).map fun x => (x.1, d.er, x.2)
  | .permanent => (permanentPlace d.ocs d.er.permUsed.toNat).map fun a => (d.ocs, { d.er with permUsed := d.er.permUsed + 1 }, a)
  | .shutdown => (shutdownPlace nv d.ocs).map fun a => (d.ocs, d.er, a)
  | _ => none

/-- An event record whose program failed goes to its next place (R394, R407). The COPIED byte of a shutdown record is
programmed again where it is. -/
def relocate (nv : NonVol) (d : Device) : Device :=
  match d.ocs.jobs with
  | [] => d
  | j :: js =>
    let tail := if j.tag = .copied then j.steps.drop (j.steps.length - 1) else []
    let own := if j.tag = .copied then j.steps.take (j.steps.length - 1) else j.steps
    if own.isEmpty then d else
    match nextEventPlace nv j.tag d with
    | none => d
    | some (st, er, addr) =>
      let x := relocateEvent nv { st with jobs := js } addr { j with steps := own }
      { d with ocs := { x.1 with jobs := { x.2 with steps := x.2.steps ++ tail } :: js }, er := er }

/-- A worn sector's records count until the job that copies them is over (R394). -/
def stillMoving (nv : NonVol) (d : Device) : NonVol :=
  { nv with moving := nv.moving.filter fun x =>
      (d.ocs.current.toList ++ d.ocs.jobs).any fun j => decide (j.tag = .moved x.1) }

/-- CHUNK_PROGRAM_COMPLETE (R379, R392). -/
def programEnds (tm : TimeBase) (verified : Bool) (x : NonVol × Device) : NonVol × Device :=
  let intent := if verified then x.2.ocs.current.bind intentOf else none
  let busy := (x.2.ocs.current.bind headProg).isSome
  let y := chunkEnd tm verified x.1 x.2
  let nv := y.1
  let d := y.2.1
  let d := match intent with
    | some p => passTail d.draws nv p d
    | none => d
  let d := if busy && !verified then relocate nv d else d
  let d := jobDone tm y.2.2 nv d
  let d := storePump nv d
  (stillMoving nv d, d)

/-- SECTOR_ERASE_COMPLETE (R383). -/
def eraseEnds (tm : TimeBase) (verified : Bool) (x : NonVol × Device) : NonVol × Device :=
  let y := eraseEnd tm verified x.1 x.2
  let d := jobDone tm y.2.2 y.1 (eraseLost tm y.1 y.2.2 y.2.1)
  (y.1, storePump y.1 d)

/-! ### The recorder's writes -/

/-- EVENT_RECORD_WRITE: the oldest queued event is written (R400), or goes to the archive's buffer (R408). -/
def recordEvent (tm : TimeBase) (nv : NonVol) (d : Device) : Device :=
  let d := writeEvent tm nv d
  if d.er.bogOnly then raiseLost tm d else d

/-- REPEAT_CHAIN_END (R411). -/
def chainsEnd (tm : TimeBase) (d : Device) : Device := { d with er := endChains tm d.er }

end Sys2Proof.Machine
end

