-- ==== Sys2Proof/Machine/TwoWirePort.lean ====
section
/-! DEFINITION. The two-wire port's own timing and its controller role: spec 13_two_wire_port.md R327 to R330, R336 to R347.
The target's register accesses are in HostPort.lean. -/

namespace Sys2Proof.Machine

/-- PollResult (Table 13-3). -/
def PollResult.code : PollResult → Nat
  | .none => 0 | .ok => 1 | .nackAddr => 2 | .nackData => 3 | .pec => 4 | .arb => 5 | .busErr => 6 | .timeout => 7
  | .aborted => 8 | .stuck => 9 | .busyLate => 10

/-- A change of the port. -/
def Device.onTwp (d : Device) (f : TwoWire → TwoWire) : Device := { d with twp := f d.twp }

/-- A change of one entry's status. -/
def Device.onPer (d : Device) (e : Fin 32) (f : PerStatus → PerStatus) : Device :=
  d.onTwp fun t => { t with per := bankUpd t.per e f }

/-- A bit of INT_STATUS sets. -/
def twpInt (i : Nat) (d : Device) : Device := d.onTwp fun t => { t with intStatus := setBit t.intStatus i }

/-! ### Timing fields (R329) -/

/-- A number clamped into a range. -/
def clampNat (lo hi n : Nat) : Nat := max lo (min hi n)

/-- The mode in force: SPEED, with 3 taken as 0 (Table 13-6). -/
def speedOf (n : Nat) : Nat := if n = 3 then 0 else n

/-- The four timing fields clamped into the ranges of the mode in force. -/
def clampTiming (t : TwoWire) : TwoWire :=
  let r := timingRange t.speed.toNat
  { t with
    tlow := BitVec.ofNat 16 (clampNat r.1.1 r.1.2 t.tlow.toNat)
    thigh := BitVec.ofNat 16 (clampNat r.2.1.1 r.2.1.2 t.thigh.toNat)
    tsudat := byte (clampNat r.2.2.1.1 r.2.2.1.2 t.tsudat.toNat)
    thddat := byte (clampNat r.2.2.2.1 r.2.2.2.2 t.thddat.toNat) }

/-- A write of TWP.TIMING, or of TWP.TIMING2. -/
def writeTiming (second : Bool) (data : Word) (t : TwoWire) : TwoWire :=
  let n := data.toNat
  clampTiming (
    if second then { t with
      tsudat := byte (bits n 7 0)
      thddat := byte (bits n 15 8)
      speed := BitVec.ofNat 2 (speedOf (bits n 17 16)) }
    else { t with
      tlow := BitVec.ofNat 16 (bits n 15 0)
      thigh := BitVec.ofNat 16 (bits n 31 16) })

/-- A write of TWP.ADDR (Table 13-6). -/
def writeOwnAddr (data : Word) (t : TwoWire) : TwoWire :=
  { t with ownAddr := BitVec.ofNat 7 (clampNat 0x08 0x77 (bits data.toNat 6 0)) }

/-! ### Polls (R339 to R343) -/

/-- The applied entries. -/
def pollEntries (d : Device) : List PeriphEntry := match d.str.periph with | some p => p.body.entries | none => []

/-- The applied entry of an index. -/
def pollEntry (d : Device) (e : Fin 32) : Option PeriphEntry := (pollEntries d)[e.val]?

/-- Does the device act as controller (R339)? -/
def controllerOn (d : Device) : Bool := d.twp.en && d.twp.pollEn && !(pollEntries d).isEmpty

/-- The entries that wait for a poll, in entry order; one that has lost arbitration goes first (R339, R341). -/
def waitingPolls (d : Device) : List (Fin 32) :=
  let due := bankWhere d.twp.per fun x => x.due
  (due.filter fun e => decide (0 < (bankGet d.twp.per e).attempts)) ++ due

/-- On a free bus the next poll starts. -/
def startPoll (d : Device) : Device :=
  if !controllerOn d || d.twp.busBusy || d.twp.recovery.isSome || d.twp.polling.isSome then d else
  match (waitingPolls d).find? fun e => (pollEntry d e).isSome with
  | none => d
  | some e => (d.onPer e fun x => { x with due := false }).onTwp fun t => { t with polling := some e, busBusy := true }

/-- A TWO_WIRE record (R347, Table 16-2); what no poll gives is free. -/
def raiseTwp (tm : TimeBase) (event : Nat) (e : Option (Fin 32)) (d : Device) : Device :=
  match e with
  | some e =>
    let x := bankGet d.twp.per e
    let addr := match pollEntry d e with | some p => p.addr.toNat | none => 0
    raise tm 0x91 ([byte event, byte e.val, byte addr, byte x.result.code] ++ leBytes 2 x.fails.toNat) d
  | none =>
    raise tm 0x91 (byte event :: leBytes 5 (Config.noPoll d.draws).toNat) { d with draws := d.draws + 1 }

/-- A poll fails: nothing is delivered (R340). -/
def pollFails (tm : TimeBase) (e : Fin 32) (res : PollResult) (d : Device) : Device :=
  let first := decide ((bankGet d.twp.per e).result = .ok)
  let d := d.onPer e fun x => { x with result := res, fails := satInc x.fails }
  let d := twpInt 0 d
  if first then raiseTwp tm 4 (some e) d else d

/-- A poll delivers its value. -/
def pollSucceeds (tm : TimeBase) (e : Fin 32) (value : List Byte) (d : Device) : Device :=
  let ended := decide (0 < (bankGet d.twp.per e).fails.toNat)
  let d := d.onPer e fun x => { x with
    result := .ok
    oks := x.oks + 1
    lastOk := tm.us.setWidth 32
    okAt := some (ticksNow tm)
    value := value }
  let d := if ended then raiseTwp tm 3 (some e) d else d
  d.onPer e fun x => { x with fails := 0 }

/-- The poll in progress is over. -/
def endPoll (e : Fin 32) (d : Device) : Device :=
  (d.onPer e fun x => { x with attempts := 0 }).onTwp fun t => { t with polling := none }

/-- How long a recovery lasts: its pulses with the TLOW and THIGH in force, and the STOP after the pulse that frees SDA (R343,
Table 13-4; assumption 113). -/
def recoveryTicks (t : TwoWire) (freedAt : Option (Fin 9)) : Nat :=
  let pulse := t.tlow.toNat + t.thigh.toNat
  32 * (match freedAt with
    | some n => (n.val + 1) * pulse + 2 * t.thigh.toNat
    | none => 9 * pulse)

/-- A recovery begins (R343); `freedAt` is the pulse after which SDA is high. The port does not clock while SCL is held low. -/
def startRecovery (tm : TimeBase) (e : Option (Fin 32)) (freedAt : Option (Fin 9)) (d : Device) : Device :=
  if !d.twp.en || d.twp.sclStuck || d.twp.recovery.isSome then d else
  d.onTwp fun t => { t with
    busBusy := true, retryFrom := none, recovery := some ⟨freedAt, e, ticksNow tm + recoveryTicks t freedAt⟩ }

/-- A recovery ends: with a STOP once SDA is high; or SDA is stuck, and the poll that needs the bus ends with STUCK (R343). -/
def busRecoveryEnds (tm : TimeBase) (x : Recovery) (d : Device) : Device :=
  let d := d.onTwp fun t => { t with recovery := none }
  match x.freedAt with
  | some _ => twpInt 3 (d.onTwp fun t => { t with recoveries := t.recoveries + 1, sdaStuck := false })
  | none =>
    let d := match x.entry with
      | some e =>
        if (bankGet d.twp.per e).due then pollFails tm e .stuck (d.onPer e fun x => { x with due := false, attempts := 0 }) else d
      | none => d
    raiseTwp tm 1 x.entry (twpInt 4 (d.onTwp fun t => { t with
      recoverFails := t.recoverFails + 1, sdaStuck := true, retryFrom := some tm.us.toNat }))

/-- A recovery that is over at this T-tick ends. -/
def tickRecovery (tm : TimeBase) (d : Device) : Device :=
  match d.twp.recovery with
  | some x => if x.endsAt ≤ ticksNow tm then busRecoveryEnds tm x d else d
  | none => d

/-- SCL is held low for tTIMEOUT (R337, R343): the port does not clock, and a recovery in progress stops. -/
def sclHeld (tm : TimeBase) (e : Option (Fin 32)) (d : Device) : Device :=
  let was := d.twp.sclStuck
  let d := twpInt 6 (d.onTwp fun t => { t with timeouts := t.timeouts + 1, sclStuck := true, recovery := none })
  if was then d else raiseTwp tm 2 e d

/-- The bytes of a poll up to its data (R340). -/
def pollHeader (p : PeriphEntry) : List Byte :=
  let a := 2 * p.addr.toNat
  byte a :: (if p.ptr2 then beBytes 2 p.pointer.toNat else [p.pointer.setWidth 8]) ++ [byte (a + 1)]

/-- A poll that needs a START finds SDA held low (R343): it is made once the bus is free. -/
def pollOutcomeHeld (tm : TimeBase) (e : Fin 32) (freedAt : Option (Fin 9)) (d : Device) : Device :=
  startRecovery tm (some e) freedAt ((d.onPer e fun x => { x with due := true }).onTwp fun t => { t with polling := none })

/-- How the poll in progress ends. -/
def pollOutcome (tm : TimeBase) (e : Fin 32) (p : PeriphEntry) (d : Device) : PollOutcome → Device
  | .data bytes =>
    if bytes.length ≠ p.len + bit p.pec then d
    else if p.pec ∧ crc8 (pollHeader p ++ bytes) ≠ 0 then
      pollFails tm e .pec (endPoll e (d.onTwp fun t => { t with pecErrs := t.pecErrs + 1 }))
    else pollSucceeds tm e (bytes.take p.len) (endPoll e d)
  | .nackAddr => pollFails tm e .nackAddr (endPoll e d)
  | .nackData => pollFails tm e .nackData (endPoll e d)
  | .arbLost =>
    let n := (bankGet d.twp.per e).attempts + 1
    let d := twpInt 1 (d.onTwp fun t => { t with arbLost := t.arbLost + 1 })
    if n < 3 then (d.onPer e fun x => { x with attempts := n, due := true }).onTwp fun t => { t with polling := none }
    else pollFails tm e .arb (endPoll e d)
  | .busError =>
    pollFails tm e .busErr (endPoll e (twpInt 2 (d.onTwp fun t => { t with busErrs := t.busErrs + 1 })))
  | .clockLow =>
    if !d.twp.smbTo then d else
    let d := pollFails tm e .timeout (endPoll e d)
    sclHeld tm (some e) d
  | .sdaHeld freedAt => pollOutcomeHeld tm e freedAt d

/-- A RECOVER that came while a poll ran is carried out once the poll is over (assumption 30). -/
def afterPoll (tm : TimeBase) (d : Device) : Device :=
  match d.twp.polling, d.twp.recoverAsked with
  | none, some freedAt => startRecovery tm none freedAt (d.onTwp fun t => { t with recoverAsked := none })
  | _, _ => d

/-- Is a poll of an entry in progress, or does it wait for a START on the bus? -/
def needsStart (d : Device) (e : Fin 32) : Bool :=
  decide (d.twp.polling = some e)
    || (controllerOn d && d.twp.polling.isNone && d.twp.recovery.isNone && decide ((waitingPolls d).head? = some e))

/-- PERIPH_POLL: the poll in progress ends; or one that waits for its START finds SDA held low (R343). -/
def pollRuns (tm : TimeBase) (e : Fin 32) (o : PollOutcome) (d : Device) : Device :=
  match pollEntry d e with
  | none => d
  | some p =>
    let goes : Bool := match o with
      | .sdaHeld _ => needsStart d e
      | .data _ | .nackAddr | .nackData | .arbLost | .busError | .clockLow => decide (d.twp.polling = some e)
    if goes then afterPoll tm (pollOutcome tm e p d o) else d

/-- Does an entry fall due now: at every device microsecond that is a multiple of 10,000 times its PERIOD (R339), once in each? -/
def fallsDue (tm : TimeBase) (e : Fin 32) (d : Device) : Bool :=
  match pollEntry d e with
  | some p => decide (tm.us.toNat % (10000 * p.period) = 0) && decide ((bankGet d.twp.per e).dueAt ≠ some tm.us.toNat)
  | none => false

/-- PERIPH_POLL_DUE (R339). -/
def pollDue (tm : TimeBase) (e : Fin 32) (d : Device) : Device :=
  if !controllerOn d || !fallsDue tm e d then d else
  let late := (bankGet d.twp.per e).due
  let d := d.onPer e fun x => { x with dueAt := some tm.us.toNat, due := true }
  if late then pollFails tm e .busyLate d else startPoll d

/-- POLL_NOW. -/
def pollNow (e : Fin 32) (d : Device) : Device :=
  if !controllerOn d || (pollEntry d e).isNone then d else startPoll (d.onPer e fun x => { x with due := true })

/-- TWP_BUS_FREE (R339): a bus that is free has SCL high. -/
def busFrees (d : Device) : Device :=
  startPoll (d.onTwp fun t => { t with busBusy := t.polling.isSome, sclStuck := false })

/-- RECOVERY_RETRY_TIMER (R343): 100 ms after a failed recovery. -/
def recoveryRetries (tm : TimeBase) (freedAt : Option (Fin 9)) (d : Device) : Device :=
  match d.twp.retryFrom with
  | some t => if t + 100000 ≤ tm.us.toNat then startRecovery tm none freedAt d else d
  | none => d

/-- RECOVER (R343). A bus on which a poll runs is recovered after the poll (assumption 30). -/
def recoverNow (tm : TimeBase) (freedAt : Option (Fin 9)) (d : Device) : Device :=
  if d.twp.polling.isSome then d.onTwp fun t => { t with recoverAsked := some freedAt } else startRecovery tm none freedAt d

/-- A reset of the port leaves SDA as it was: where it is low the bus is recovered (R343). What the pin shows is free. -/
def recoverAfterReset (tm : TimeBase) (d : Device) : Device :=
  let x := { d with draws := d.draws + 1 }
  match Config.sdaAfterReset d.draws with
  | some freedAt => startRecovery tm none freedAt x
  | none => x

/-- A page that a transaction does not commit (R332). -/
def discardPage (d : Device) : Device := twpInt 5 (d.onTwp fun t => { t with pageDiscards := t.pageDiscards + 1 })

/-- The page of a transaction that ends badly is discarded, where it is a write (R332). -/
def discardIf (writing : Bool) (d : Device) : Device := if writing then discardPage d else d

/-- TWP_BUS_ERROR (R336, R342): as target the page is discarded; as controller the poll ends. -/
def busError (tm : TimeBase) (role : TwpRole) (d : Device) : Device :=
  if !d.twp.en then d else
  match role with
  | .target writing => discardIf writing (twpInt 2 (d.onTwp fun t => { t with busErrs := t.busErrs + 1, busBusy := true }))
  | .controller =>
    match d.twp.polling with
    | some e => pollRuns tm e .busError d
    | none => d

/-- TWP_CLOCK_LOW_TIMEOUT (R337, R343). -/
def clockLowTimeout (tm : TimeBase) (role : TwpRole) (d : Device) : Device :=
  if !d.twp.en || !d.twp.smbTo then d else
  match role with
  | .target writing => discardIf writing (sclHeld tm none (d.onTwp fun t => { t with busBusy := true }))
  | .controller =>
    match d.twp.polling with
    | some e => pollRuns tm e .clockLow d
    | none => sclHeld tm none d

/-- The poll that an ABORT of FUNC 0x05 ends (R344): the one on the bus, or the one that waits to be tried again. -/
def openPoll (d : Device) : Option (Fin 32) :=
  match d.twp.polling with
  | some e => some e
  | none => (bankWhere d.twp.per fun x => decide (0 < x.attempts)).head?

/-- ABORT of FUNC 0x05 (R344): a STOP, or recovery where a target holds SDA. -/
def abortPoll (tm : TimeBase) (sdaHeld : Bool) (freedAt : Option (Fin 9)) (d : Device) : Device × Bool :=
  match openPoll d with
  | none => (d, false)
  | some e =>
    let d := pollFails tm e .aborted (endPoll e (d.onPer e fun x => { x with due := false }))
    (if sdaHeld then startRecovery tm (some e) freedAt d else afterPoll tm d, true)

end Sys2Proof.Machine
end

