-- ==== Sys2Proof/Machine/ExecStart.lean ====
section
/-! DEFINITION. Meanings of the rows of spec 02_clocks_reset_crossings.md: resets, clocks and start-up. The forms that all
meanings share stand first. -/

namespace Sys2Proof.Machine

/-- What a meaning answers. -/
abbrev Answer := Host.Outcome State Fault Refusal

/-- A meaning that acts on the device alone. -/
def onDevice (f : TimeBase → Device → Device) (s : State) : Answer := .next (s.onDev (f s.tm))

/-- A meaning that acts on the device, and reads the persistent memories. -/
def onDeviceNv (f : TimeBase → NonVol → Device → Device) (s : State) : Answer := .next (s.onDev (f s.tm s.nv))

/-- A meaning that acts on the persistent memories and the device. -/
def onBoth (f : TimeBase → NonVol × Device → NonVol × Device) (s : State) : Answer :=
  let x := f s.tm (s.nv, s.dev)
  .next { s with nv := x.1, dev := x.2 }

/-- At the end of step 3 the two-wire port, which a reset has left, recovers a bus on which SDA is low (R343). -/
def portsStart (s t : State) : State :=
  if answers t.dev && !answers s.dev then t.onDev (recoverAfterReset t.tm) else t

/-- SUPPLY_TRIP (R428, R34). -/
def execSupplyTrip (s : State) : Answer := .next (supplyTrip s)

/-- SUPPLY_RELEASE (R428): the supplies are back. -/
def execSupplyRelease (s : State) : Answer :=
  onDevice (fun _ d => releaseFilter { d with pins := { d.pins with supplyOk := true } }) s

/-- RST_N_LOW (R34). -/
def execRstNLow (s : State) : Answer := .next (rstLow s)

/-- RST_N rises (R34, R46). -/
def execRstNRise (s : State) : Answer :=
  onDevice (fun _ d => releaseFilter { d with pins := { d.pins with rstN := true } }) s

/-- QUADRANT_RESET (R35). -/
def execQuadrantReset (q : Fin 4) (s : State) : Answer := onDevice (fun tm => quadrantResets tm q) s

/-- QUADRANT_RESET_TIMEOUT (R35). -/
def execQuadrantResetTimeout (q : Fin 4) (s : State) : Answer := onDevice (fun tm => quadrantTimesOut tm q) s

/-- WATCHDOG_EXPIRY (R28). -/
def execWatchdogExpiry (s : State) : Answer := onBoth watchdog s

/-- RAM_ERROR (R28, R34, R179). -/
def execRamError (blk : RamBlock) (correctable : Bool) (s : State) : Answer := .next (ramFails blk correctable s)

/-- CLOCK_LOSS (R33). -/
def execClockLoss (s : State) : Answer := .next (clockLost s)

/-- REFCLK_PRESENT (R33, R49). -/
def execRefclkPresent (s : State) : Answer := onDevice (fun _ => refclkBack) s

/-- PLL0_LOCK (R46, R49). -/
def execPll0Lock (s : State) : Answer := .next (portsStart s (pllLocks s))

/-- PLL_LOCK_TIMEOUT (R49). -/
def execPllLockTimeout (s : State) : Answer := onDevice (fun _ => lockIsLate) s

/-- PFAIL_FALL (R37, R389, R412). -/
def execPfailFall (s : State) : Answer := .next (pfailFalls s)

/-- PFAIL_N rises (R37). -/
def execPfailNRise (s : State) : Answer := .next (pfailRises s)

/-- PFAIL_RECOVERED (R37, R50). -/
def execPfailRecovered (s : State) : Answer := .next (pfailOver s)

/-- STARTUP_FILTER_END (R46 steps 1 and 2). -/
def execStartupFilterEnd (s : State) : Answer := onDeviceNv (fun _ => filterEnds) s

/-- WIPE_END (R46 step 2). -/
def execWipeEnd (s : State) : Answer := .next (portsStart s (wipeEnds s))

/-- STORE_RECOVERY_END (R46 steps 4 and 5, R391). -/
def execStoreRecoveryEnd (s : State) : Answer := .next (recoveryEnds s)

/-- WHOLE_APPLY_END (R46 step 6). -/
def execWholeApplyEnd (s : State) : Answer := onDeviceNv wholeApply s

/-- READY (R46 step 9). -/
def execReady (s : State) : Answer := onDevice reachReady s

/-- STRAP_START_TIMER (R53). -/
def execStrapStartTimer (s : State) : Answer := onDevice strapStart s

/-- SUPERVISOR_START (R17, R46). -/
def execSupervisorStart (s : State) : Answer := onDevice supervisorStart s

/-- QUADRANT_DOMAIN_ON (R361): a quadrant's power domain has come on. -/
def execQuadrantDomainOn (q : Fin 4) (s : State) : Answer := onDevice (fun _ => domainOn q) s

end Sys2Proof.Machine
end

