-- ==== Sys2Proof/Machine/ExecGuard.lean ====
section
/-! DEFINITION. Meanings of the rows of spec 14_security_lifecycle.md: sessions, keys, life cycle, debug, power states and
firmware. -/

namespace Sys2Proof.Machine

/-- SESSION_IDLE_TIMEOUT (R353). -/
def execSessionIdleTimeout (p : Port) (s : State) : Answer := onDevice (fun tm => sessionIdle tm p) s

/-- LOCKOUT_END (R354). -/
def execLockoutEnd (p : Port) (s : State) : Answer := onDeviceNv (fun tm nv => lockoutEnds tm nv p) s

/-- LC_WIPES_COMPLETE (R357). -/
def execLcWipesComplete (s : State) : Answer := onDeviceNv (fun _ => wipesDone) s

/-- TAP_RESET (R359). -/
def execTapReset (s : State) : Answer := onDevice (fun _ => tapReset) s

/-- DEBUG_RESET (R34, R359). -/
def execDebugReset (s : State) : Answer := .next (debugReset s)

/-- DBG_CHAL (R359). -/
def execDbgChal (s : State) : Answer := onDeviceNv debugChallenge s

/-- DBG_TOKEN (R359). -/
def execDbgToken (scope : BitVec 2) (token : BitVec 256) (s : State) : Answer :=
  onDeviceNv (fun tm nv => debugToken tm nv scope token) s

/-- DRIVE_INSTRUCTION (R360). -/
def execDriveInstruction (kind : DriveKind) (s : State) : Answer := onDevice (fun _ => driveSelected kind) s

/-- SMOULDER_TIMEOUT (R361). -/
def execSmoulderTimeout (q : Fin 4) (s : State) : Answer := onDevice (fun tm => smoulderTimesOut tm q) s

/-- WAKE (R364). -/
def execWake (cause : WakeCause) (s : State) : Answer := .next (wake cause s)

/-- FW_TRIAL_TIMEOUT (R367). -/
def execFwTrialTimeout (s : State) : Answer := onBoth fwTrialTimeout s

/-- CODE_FLASH_OPERATION_END (R367). -/
def execCodeFlashOperationEnd (s : State) : Answer := onBoth codeFlashEnd s

end Sys2Proof.Machine
end

