-- ==== Sys2Proof/Machine/ExecHearth.lean ====
section
/-! DEFINITION. Meanings of the rows of spec 09_hearth.md and 10_partner_bus.md: the scheduler, the ring link and the
partner buses. -/

namespace Sys2Proof.Machine

/-- HEARTH_TICK (R243). -/
def execHearthTick (s : State) : Answer := onDevice hearthTick s

/-- ENTRY_COMPLETION_TIMEOUT (R238). -/
def execEntryCompletionTimeout (e : Fin 128) (s : State) : Answer :=
  onDevice (fun tm d => completionTimeout tm (tickNow tm) e d) s

/-- PAUSE_UPDATE (R247). -/
def execPauseUpdate (r : Fin 64) (s : State) : Answer := onDevice (fun tm => pauseUpdate tm r) s

/-- SUPERVISOR_ABSENCE (R243, R254). -/
def execSupervisorAbsence (s : State) : Answer := onDevice noteAbsence s

/-- PLAN_PASS (R244). -/
def execPlanPass (s : State) : Answer := onDevice planPass s

/-- RING_FRAME (R249 to R251). -/
def execRingFrame (bytes : List Byte) (s : State) : Answer := onDevice (fun tm => ringFrame tm bytes) s

/-- RING_SHARE_TIMEOUT (R20, R251). -/
def execRingShareTimeout (s : State) : Answer := onDevice ringTimeout s

/-- SYNC_TIMER (R262). -/
def execSyncTimer (s : State) : Answer := onDevice syncTimer s

/-- SYNC_DROP (R262). -/
def execSyncDrop (b : Bus) (s : State) : Answer := onDevice (fun tm => dropStale tm true (busIdx b)) s

/-- FRAME_TRANSMITTED (R262, R276): a frame starts, or the one on the bus is complete. -/
def execFrameTransmitted (b : Bus) (done : Bool) (s : State) : Answer :=
  onDevice (fun tm => if done then frameEnds (busIdx b) else frameStarts tm (busIdx b)) s

/-- TX_FRAME_TIMEOUT (R276). -/
def execTxFrameTimeout (b : Bus) (s : State) : Answer := onDevice (fun tm => dropStale tm false (busIdx b)) s

/-- GRANT_UNSENT_AT_START (R276). -/
def execGrantUnsentAtStart (e : Fin 128) (s : State) : Answer := onDevice (fun tm d => dropGrant tm e 1 (dropGrant tm e 0 d)) s

/-- PARTNER_FRAME_DISCARD (R259). -/
def execPartnerFrameDiscard (b : Bus) (id : BitVec 29) (payload : List Byte) (s : State) : Answer :=
  onDevice (fun _ => frameDiscarded (busIdx b) id payload) s

/-- JOIN (R265, R266). -/
def execJoin (b : Bus) (node : BitVec 4) (unit : BitVec 16) (nonce : BitVec 32) (jflags prevHandle : BitVec 8) (proto : BitVec 16)
    (s : State) : Answer :=
  onDevice (fun tm => arrived (busIdx b) node
    (joinFrame tm (busIdx b) unit nonce (jflags.getLsbD 0) (Fin.ofNat 256 prevHandle.toNat) proto)) s

/-- LEAVE (R267). -/
def execLeave (b : Bus) (node : BitVec 4) (handle : Fin 256) (unit : BitVec 16) (s : State) : Answer :=
  onDevice (fun tm => arrived (busIdx b) node (leaveFrame tm (busIdx b) handle unit)) s

/-- KEEPALIVE (R267). -/
def execKeepalive (b : Bus) (node : BitVec 4) (handle : Fin 256) (unit : BitVec 16) (s : State) : Answer :=
  onDevice (fun tm => arrived (busIdx b) node (keepaliveFrame tm (busIdx b) handle unit)) s

/-- MOTION_REQ (R270). -/
def execMotionReq (b : Bus) (node : BitVec 4) (handle : Fin 256) (tag : BitVec 8) (segs : BitVec 4) (cls : BitVec 2)
    (unit : BitVec 16) (earliest latest : BitVec 32) (profile : List ProfileSeg) (s : State) : Answer :=
  onDevice (fun tm => arrived (busIdx b) node
    (motionFrame tm (busIdx b) handle tag segs.toNat cls.toNat unit earliest latest profile)) s

/-- CANCEL (R274). -/
def execCancel (b : Bus) (node : BitVec 4) (handle : Fin 256) (tag entry : BitVec 8) (s : State) : Answer :=
  onDevice (fun tm => arrived (busIdx b) node (entryFrame tm (busIdx b) handle tag entry .cancel)) s

/-- REVERSE (R239, R274). -/
def execReverse (b : Bus) (node : BitVec 4) (handle : Fin 256) (tag : BitVec 8) (segs : BitVec 4) (entry : BitVec 8)
    (profile : List ProfileSeg) (s : State) : Answer :=
  onDevice (fun tm => arrived (busIdx b) node (entryFrame tm (busIdx b) handle tag entry (.reverse segs.toNat profile))) s

/-- COMPLETE (R274). -/
def execComplete (b : Bus) (node : BitVec 4) (handle : Fin 256) (tag entry : BitVec 8) (s : State) : Answer :=
  onDevice (fun tm => arrived (busIdx b) node (entryFrame tm (busIdx b) handle tag entry .complete)) s

/-- VREQ (R275). -/
def execVreq (b : Bus) (node : BitVec 4) (handle : Fin 256) (tag : BitVec 8) (value : BitVec 32) (s : State) : Answer :=
  onDevice (fun tm => arrived (busIdx b) node (vreqFrame tm (busIdx b) handle tag value)) s

/-- LEASE_EXPIRY (R267). -/
def execLeaseExpiry (h : Fin 256) (s : State) : Answer := onDevice (fun tm => leaseExpires tm h) s

/-- HOLDOFF_END (R268). -/
def execHoldoffEnd (h : Fin 256) (s : State) : Answer := onDevice (fun tm => holdoffEnds tm h) s

/-- ORPHAN_HANDLE_TIMEOUT (R269). -/
def execOrphanHandleTimeout (s : State) : Answer := onDevice orphansLeave s

/-- BUS_ERROR_PASSIVE (R278). -/
def execBusErrorPassive (b : Bus) (s : State) : Answer := onDevice (fun tm => busPassive tm (busIdx b)) s

/-- BUS_OFF (R278). -/
def execBusOff (b : Bus) (s : State) : Answer := onDevice (fun tm => enterBusOff tm (busIdx b)) s

/-- BUS_OFF_RECOVERY_END (R256, R278). -/
def execBusOffRecoveryEnd (b : Bus) (s : State) : Answer := onDevice (fun tm => busRecovered tm (busIdx b)) s

end Sys2Proof.Machine
end

