-- ==== Sys2Proof/Machine/RegsSys.lean ====
section
/-! DEFINITION. What a read of the windows SYS, CLK, SG, HSP and IMG returns (Tables 2-11 to 2-16, 3-17 to 3-25,
12-8 to 12-12, 14-11 to 14-17). `none` stands for an address that is not defined (R8); reserved bits and WO fields read
zero (Table 0-4). -/

namespace Sys2Proof.Machine

/-- A word made of fields, each at the place of its lowest bit. -/
def pack (fs : List (Nat × Nat)) : Nat := fs.foldr (fun f a => f.2 * 2 ^ f.1 + a) 0

/-- A signed number as the n bits of a field. -/
def signedBits (n : Nat) (x : Int) : Nat := (BitVec.ofInt n x).toNat

/-- A number held to the highest value of a field. -/
def capBits (n x : Nat) : Nat := min x (2 ^ n - 1)

/-- Some flags as bits, the first at bit 0. -/
def flagBits : List Bool → Nat
  | [] => 0
  | b :: bs => bit b + 2 * flagBits bs

/-- The part of an index range that a base address starts: the index, when the address lies in it. -/
def within (a base n : Nat) : Option (Fin n) := if base ≤ a then fin? n (a - base) else none

/-! ### SYS and CLK -/

/-- SYS (Tables 2-11 to 2-14, 12-8). -/
def readSys (d : Device) (a : Nat) : Option Nat :=
  if a = 0x00 then some 0x01B15120
  else if a = 0x04 then some (pack [(0, bit (decide (d.sys.step = .ready))), (1, bit d.sys.strapMode), (2, d.sys.slotApplied.toNat),
      (4, bit d.sys.recovered), (5, bit d.sys.clamped), (8, capBits 10 d.sys.stages), (18, bit d.sys.unassigned),
      (19, bit d.sys.pfailWait)])
  else if a = 0x05 then some (pack [(0, d.sys.cause.toNat), (16, d.sys.warmCount.toNat)])
  else if a = 0x06 then some d.sys.strap.toNat
  else if a = 0x08 then some 0
  else none

/-- CLK.STATUS (Table 2-15). -/
def clkStatus (d : Device) : Nat :=
  pack [(0, bit d.clk.pllLock), (1, bit d.clk.refOk), (2, bit d.clk.roscOnly), (3, bit d.clk.trim),
    (4, flagBits ((List.finRange 4).map fun q => bankGet d.clk.qclk q && !bankGet d.pwr.qoff q)),
    (8, bit d.clk.lclkOn), (9, bit d.clk.eclkOn), (10, bit d.clk.sclkOn)]

/-- PWR.STATE (Table 14-15): in STANDBY the power domain of every quadrant is off (R363). -/
def pwrState (d : Device) : Nat :=
  let standby := decide (d.pwr.mode = .standby)
  pack [(0, d.pwr.mode.code), (4, flagBits d.pwr.smoulder.toList),
    (8, flagBits ((List.finRange 4).map fun q => standby || bankGet d.pwr.qoff q)), (16, d.pwr.result.toNat)]

/-- The window of CLK and power (Tables 2-15, 2-16, 14-15). -/
def readClk (d : Device) (a : Nat) : Option Nat :=
  if a = 0x100 then some (clkStatus d)
  else if a = 0x120 then some 0
  else if a = 0x121 then some (pwrState d)
  else if a = 0x122 then some (pack [(0, bit d.pwr.wakeA), (1, bit d.pwr.wakeB), (8, d.pwr.cause.toNat)])
  else (within a 0x110 16).map fun g =>
      let x := bankGet d.clk.xdrop g
      pack [(0, x.dropped.toNat), (16, x.merged.toNat)]

/-! ### SG and FW -/

/-- SessionState (Table 14-11). -/
def SessionState.code : SessionState → Nat
  | .closed => 0 | .challenged => 1 | .opened => 2

/-- Debug authorisation (Table 14-14). -/
def DebugAuth.code : DebugAuth → Nat
  | .none => 0 | .read => 1 | .full => 2

/-- Seconds from now to a device microsecond, rounded up (assumption 22). -/
def secondsLeft (tm : TimeBase) (t : Option Nat) : Nat :=
  match t with
  | some t => ceilDiv (t - tm.us.toNat) 1000000
  | none => 0

/-- SG.PORT of one port (Table 14-11); a word of bytes carries the first in bits [31:24] (R352). -/
def readPort (tm : TimeBase) (s : Session) (off : Nat) : Option Nat :=
  if off = 0 then some 0
  else if off = 1 then some (pack [(0, s.state.code), (2, s.level.toNat), (8, s.result.toNat), (16, s.fails.toNat),
      (19, bit (portLocked tm s)), (20, s.lockouts.toNat)])
  else if off = 26 then some (pack [(0, s.idle.toNat), (16, capBits 16 (secondsLeft tm s.lockedUntil))])
  else if off = 27 then some s.ctr.toNat
  else
    if 2 ≤ off ∧ off ≤ 9 then some (beAt s.chal (4 * (off - 2)) 4)
    else if 10 ≤ off ∧ off ≤ 17 then some 0
    else if 18 ≤ off ∧ off ≤ 25 then some (beAt s.dproof (4 * (off - 18)) 4)
    else none

/-- The SG globals (Tables 14-13, 14-14). No register returns a key (R349). -/
def readGuard (tm : TimeBase) (d : Device) (a : Nat) : Option Nat :=
  if a = 0x260 then some (Config.uid.toNat % 2 ^ 32)
  else if a = 0x261 then some (Config.uid.toNat / 2 ^ 32)
  else if a = 0x262 then some (pack [(0, d.sg.lc.code), (3, bit d.sg.lcPending), (8, d.sg.lcResult.toNat),
      (16, capBits 16 (bankGet d.ocs.counters 5).toNat)])
  else if a = 0x263 then some 0
  else if a = 0x264 then some 0
  else if a = 0x265 then some d.sg.kcv.toNat
  else if a = 0x266 then some (flagBits (d.sg.keys.toList.map (·.isSome)))
  else if a = 0x278 then some (pack [(0, d.sg.auth.code), (2, bit d.sg.bscan)])
  else if a = 0x27C then some d.sg.intStatus.toNat
  else if a = 0x27D then some d.sg.intEnable.toNat
  else
    if a < 0x260 then readPort tm (bankGet d.sg.ports (Fin.ofNat 3 ((a - 0x200) / 32))) ((a - 0x200) % 32)
    else match within a 0x267 5 with
      | some t => some (keyGen d t).toNat
      | none => if 0x270 ≤ a ∧ a ≤ 0x277 then some 0 else none

/-- FW (Tables 14-16, 14-17). -/
def readFw (tm : TimeBase) (nv : NonVol) (d : Device) (a : Nat) : Option Nat :=
  let slot (s : Fin 2) : CodeSlot := bankGet nv.code s
  if a = 0x300 then some 0
  else if a = 0x301 then some (pack [(0, bit d.fw.busy), (1, d.fw.running.val), (2, bit (fwTrial nv).isSome), (3, bit d.fw.nosup),
      (8, d.fw.result.toNat),
      (16, capBits 16 (secondsLeft tm (d.fw.trialAt.map fun t => t + trialSeconds d * 1000000)))])
  else if a = 0x302 then some (slot 0).phase.code
  else if a = 0x303 then some (slot 1).phase.code
  else if a = 0x304 then some (slot 0).version.toNat
  else if a = 0x305 then some (slot 1).version.toNat
  else if a = 0x306 then some (slot 0).svn.toNat
  else if a = 0x307 then some (slot 1).svn.toNat
  else if a = 0x308 then some (capBits 32 (svnMin d))
  else if a = 0x30A then some d.fw.dataAddr.toNat
  else if a = 0x30B then some 0
  else if a = 0x30C then some d.fw.trialTime.toNat
  else none

/-! ### Interrupts (R321, Table 12-9) -/

/-- Some set and enabled bit. -/
def intOn {n : Nat} (status enable : BitVec n) : Bool := decide (status &&& enable ≠ 0)

/-- Lane n has an enabled bit set. -/
def laneInt (d : Device) (n : Fin 64) : Bool := intOn (d.lane n).intStatus (d.lane n).intEnable

/-- Rail r has an enabled bit set. -/
def railInt (d : Device) (r : Fin 64) : Bool := intOn (d.rail r).intStatus (d.rail r).intEnable

/-- LOOP[r] has an enabled bit set. -/
def loopInt (d : Device) (r : Fin 64) : Bool := intOn (d.loop r).intStatus (d.loop r).intEnable

/-- HSP.IRQ_SUM. -/
def irqSum (d : Device) : BitVec 17 :=
  BitVec.ofNat 17 (pack [(0, bit ((List.finRange 64).any (laneInt d))), (1, bit ((List.finRange 64).any (railInt d))),
    (2, bit ((List.finRange 64).any (loopInt d))), (3, bit (intOn d.hs.intStatus d.hs.intEnable)),
    (4, bit (intOn d.pp.intStatus d.pp.intEnable)), (5, bit (intOn d.pm.intStatus d.pm.intEnable)),
    (6, bit (intOn d.hkt.intStatus d.hkt.intEnable)), (7, bit (intOn d.sg.intStatus d.sg.intEnable)),
    (8, bit (intOn d.ocs.intStatus d.ocs.intEnable)), (9, bit (intOn d.er.intStatus d.er.intEnable)),
    (10, bit (intOn d.bog.intStatus d.bog.intEnable)), (11, bit (intOn d.twp.intStatus d.twp.intEnable)),
    (16, bit (intOn d.hsp.evt d.hsp.evtEn))])

/-- IRQ_N is driven low (R321): it is released from a reset until READY. -/
def irqLow (d : Device) : Bool := decide (d.sys.step = .ready) && decide (irqSum d &&& d.hsp.irqMask ≠ 0)

/-- The ALERT sources (R338). -/
def alertSum (d : Device) : BitVec 17 := irqSum d &&& d.twp.alertMask

/-- ALERT_ACKED as R338 clears it: no source is set but those of the acknowledged response, and one still is. -/
def alertAcked (d : Device) : Bool :=
  d.twp.alertAcked && decide (alertSum d &&& ~~~d.twp.ackedSum = 0) && decide (alertSum d ≠ 0)

/-- ALERT_N is driven low. -/
def alertLow (d : Device) : Bool := decide (alertSum d ≠ 0) && !alertAcked d

/-- The flag follows its rule (R338, assumption 23). -/
def settleAlert (d : Device) : Device := { d with twp := { d.twp with alertAcked := alertAcked d } }

/-! ### HSP -/

/-- AbortResult (Table 12-12). -/
def AbortResult.code : AbortResult → Nat
  | .none => 0 | .aborted => 1 | .idle => 2 | .completed => 3 | .denied => 4 | .badFunc => 5

/-- A session is open on a port. -/
def sessionOpen (d : Device) (p : Port) : Bool := decide ((d.session p).state = .opened)

/-- HSP.STATUS (Table 12-10). -/
def hspStatus (d : Device) : Nat :=
  let p := bankGet d.ports 0
  pack [(0, bit p.pending.isSome), (1, bit d.hsp.held.isSome), (2, bit d.hsp.lastWrite), (3, bit (sessionOpen d .spi)),
    (4, bit d.hsp.lastErr), (8, d.hsp.lastStatus.toNat), (16, d.hsp.lastAddr.toNat)]

/-- HSP (Tables 12-9 to 12-12). -/
def readHsp (d : Device) (a : Nat) : Option Nat :=
  let h := d.hsp
  if a = 0x400 then some (hspStatus d)
  else if a = 0x401 then some (pack [(0, h.crcErrs.toNat), (8, h.badCmds.toNat), (16, h.cuts.toNat), (24, h.releases.toNat)])
  else if a = 0x404 then some (irqSum d).toNat
  else if a = 0x405 then some h.irqMask.toNat
  else if a = 0x406 then some h.evt.toNat
  else if a = 0x407 then some h.evtEn.toNat
  else if a = 0x408 then some 0
  else if a = 0x409 then some (pack [(0, bit (h.flights.toList.any (·.isSome))), (1, bit h.abortDone), (2, (portIdx h.abortPort).val),
      (4, h.abortResult.code), (8, h.abortFunc.toNat), (16, h.abortIndex.toNat)])
  else if a = 0x40A then some h.abortElapsed.toNat
  else none

/-! ### IMG -/

/-- The word of IMG.CR (Table 3-25). -/
def clampWord (e : ClampEntry) (w : Nat) : Nat :=
  if w = 0 then pack [(0, e.kind.toNat), (8, e.index.toNat), (16, e.off.toNat)]
  else if w = 1 then e.written.toNat
  else if w = 2 then e.applied.toNat
  else pack [(0, e.reason.toNat), (8, e.width.toNat), (16, e.applyNo.toNat)]

/-- IMG (Tables 3-17 to 3-25). -/
def readImg (d : Device) (a : Nat) : Option Nat :=
  let m := d.img
  let slot (s : Fin 2) : Nat :=
    let v := slotView d s
    pack [(0, v.phase.code), (3, bit (decide (m.running = some s))), (16, v.lenKb.toNat)]
  if a = 0x800 then some 0
  else if a = 0x801 then some (pack [(0, bit m.busy), (1, bit m.trialOpen), (2, m.trialSlot.val), (3, bit m.restartPending),
      (4, bit m.reportOvf), (8, m.result.toNat), (16, capBits 8 m.report.length)])
  else if a = 0x802 then some (slot 0)
  else if a = 0x803 then some (slot 1)
  else if a = 0x804 then some (slotView d 0).gen.toNat
  else if a = 0x805 then some (slotView d 1).gen.toNat
  else if a = 0x806 then some (pack [(0, m.loadRun.toNat), (16, m.loadTrial.toNat)])
  else if a = 0x807 then some m.applyCount.toNat
  else if a = 0x808 then some m.clampTotal.toNat
  else if a = 0x80C then some m.dataAddr.toNat
  else if a = 0x80D then some 0
  else
    match within a 0x840 64 with
    | some r =>
      let x := bankGet m.railSrc r
      some (pack [(0, x.slot.toNat), (2, bit x.live), (8, x.order.toNat)])
    | none => (within a 0xC00 512).map fun i =>
        match m.report[i.val / 4]? with
        | some e => clampWord e (i.val % 4)
        | none => 0

end Sys2Proof.Machine
end

