-- ==== Sys2Proof/Machine/RegsPath.lean ====
section
/-! DEFINITION. What a read of the windows LANE, SLOT, TBI, RAIL, LOOP, LE and AT returns (Tables 4-16 to 4-23, 5-5 to 5-10,
6-7 to 6-14, 7-6 to 7-11, 8-5 to 8-13). -/

namespace Sys2Proof.Machine

/-- The low or high word of 64 flags. -/
def wordOf64 (f : Fin 64 → Bool) (high : Bool) : Nat :=
  flagBits (((List.finRange 64).drop (if high then 32 else 0)).take 32 |>.map f)

/-- Bits for the list positions 32i to 32i + 31 of some phases. -/
def maskWord (f : Fin 512 → Bool) (gs : List (Fin 512)) (i : Nat) : Nat := flagBits (((gs.drop (32 * i)).take 32).map f)

/-! ### LANE, PLI and SLOT -/

/-- LANE[n] (Tables 4-16 to 4-20). -/
def readLane (l : Lane) (off : Nat) : Option Nat :=
  if off = 0 then some (pack [(0, l.state.code), (4, l.mode.val), (8, l.fitted.toNat), (16, capBits 2 l.attempt)])
  else if off = 1 then some (pack [(1, bit l.autoAdmit), (2, bit l.disable), (8, l.errLimit.toNat)])
  else if off = 2 then some (pack [(0, l.delay.toNat), (16, l.turn.toNat)])
  else if off = 3 then some l.symErr.toNat
  else if off = 4 then some l.crcErr.toNat
  else if off = 5 then some l.dnErr.toNat
  else if off = 6 then some (pack [(0, l.retrains.toNat), (16, l.losses.toNat)])
  else if off = 7 then some (pack [(0, l.dnLate.toNat), (16, l.upLate.toNat)])
  else if off = 8 then some (pack [(0, l.vendor.toNat), (16, l.product.toNat)])
  else if off = 9 then some (l.serial.toNat % 2 ^ 32)
  else if off = 10 then some (l.serial.toNat / 2 ^ 32)
  else if off = 11 then some l.proto.toNat
  else if off = 12 then some l.intStatus.toNat
  else if off = 13 then some l.intEnable.toNat
  else none

/-- The PLI globals (Table 4-21). -/
def readPli (d : Device) (a : Nat) : Option Nat :=
  let up (n : Fin 64) : Bool := decide ((d.lane n).state = .up)
  if a = 0x1800 then some (wordOf64 up false)
  else if a = 0x1801 then some (wordOf64 up true)
  else if a = 0x1802 then some (wordOf64 (laneInt d) false)
  else if a = 0x1803 then some (wordOf64 (laneInt d) true)
  else none

/-- SLOT[g] (Tables 4-22 and 4-23). -/
def readSlotReg (s : Slot) (off : Nat) : Option Nat :=
  if off = 0 then
    let rail : Nat := match s.owner with | some r => r.val | none => 0
    some (pack [(0, s.state.code), (4, s.reason.code), (8, rail), (14, bit s.owner.isSome), (15, bit s.compressed),
      (16, s.aux.toNat)])
  else if off = 1 then some (pack [(0, s.rep.rating.toNat), (16, s.rep.iscale.toNat)])
  else if off = 2 then some (pack [(0, s.limit.toNat), (16, s.octrip.toNat)])
  else if off = 3 then some (pack [(0, s.iofs.toNat), (16, s.igain.toNat)])
  else if off = 4 then some (pack [(0, s.vofs.toNat), (16, s.vgain.toNat)])
  else if off = 5 then some 0
  else if off = 6 then some (pack [(0, s.errMissing.toNat), (8, s.errSat.toNat), (16, s.errOc.toNat), (24, s.errLate.toNat)])
  else if off = 7 then some (pack [(0, s.temp.toNat), (16, s.rep.kind.toNat % 256)])
  else none

/-! ### TBI -/

/-- RingState (Table 5-6). -/
def RingState.code : RingState → Nat
  | .standalone => 0 | .reference => 1 | .acquiring => 2 | .locked => 3 | .holdover => 4

/-- TBI.FG (Table 5-8). -/
def readGroup (d : Device) (g : Fin 8) : Nat :=
  let p := groupPeriod d g
  pack [(0, capBits 16 p), (16, bit (bankGet d.str.device.body.fgEnable g)), (17, bit (bankGet d.tbi.carriers g).locked),
    (20, if ringLocked d g then stretchOf p else 0)]

/-- TBI.PH (Table 5-10). -/
def readPhase (p : Phase) : Nat :=
  pack [(0, capBits 16 p.angle), (16, p.weight * 256 / fullWeight), (25, bit p.placed), (26, bit p.dir), (27, bit p.nopulse)]

/-- TBI (Tables 5-5 to 5-10). -/
def readTbi (tm : TimeBase) (d : Device) (a : Nat) : Option Nat :=
  let t := d.tbi
  if a = 0x3000 then some (tm.time.toNat % 2 ^ 32)
  else if a = 0x3001 then some (tm.time.toNat / 2 ^ 32)
  else if a = 0x3002 then some (pack [(0, t.handover.toNat), (8, t.minPulse.toNat), (16, t.ringlock.toNat)])
  else if a = 0x3003 then some (pack [(0, t.ring.state.code), (8, t.ring.locks.toNat), (16, t.ring.holdovers.toNat)])
  else if a = 0x3004 then some t.ring.syncDelay.toNat
  else if a = 0x3005 then some (pack [(0, (satInt 16 t.ring.err).toNat), (16, (satInt 16 t.ring.rate).toNat)])
  else if a < 0x3018 then (within a 0x3010 8).map (readGroup d)
  else if a < 0x3040 then (within a 0x3018 8).map fun g => (bankGet t.carriers g).rofs.toNat
  else if a < 0x3080 then (within a 0x3040 64).map fun r =>
    pack [(0, capBits 8 (placedOf d r).length), (8, bit (movingRail d r)), (9, bit (rampingRail d r)),
      (16, capBits 16 (bankGet t.rails r).base)]
  else if a < 0x3200 then (within a 0x3080 64).map fun _ => 0
  else (within a 0x3200 512).map fun g => readPhase (d.phase g)

/-! ### RAIL and RM -/

/-- IRAIL (Table 8-9). -/
def irailWord (d : Device) (r : Fin 64) : Nat := signedBits 32 (clampInt (-(2 ^ 31 - 1)) (2 ^ 31 - 1) (railCurrent d r))

/-- RAIL[r] (Tables 8-5 to 8-12). -/
def readRail (d : Device) (r : Fin 64) (off : Nat) : Option Nat :=
  let x := d.rail r
  let c := x.cfg
  if off = 0 then some (pack [(0, x.state.code), (4, x.cause.code), (8, bit (railHeld d r)), (9, bit (!x.stack.isEmpty)),
    (10, bit (shedSuspended d r)), (11, bit (uvArmed d r)), (12, bit x.stopping),
    (16, capBits 8 (availablePhases d r).length), (24, x.retries.toNat)])
  else if off = 1 then some 0
  else if off = 2 then some (pack [(0, bit x.cmdBusy), (8, x.cmdResult.toNat), (16, x.cmdPos.toNat)])
  else if off = 3 then some c.vset.toNat
  else if off = 4 then some (pack [(0, c.vnext.toNat), (31, bit c.qvalid)])
  else if off = 5 then some c.winLo.toNat
  else if off = 6 then some c.winHi.toNat
  else if off = 7 then some (pack [(0, capBits 20 (targetOf x)), (20, goalSource x)])
  else if off = 8 then some (capBits 20 (goalOf d r))
  else if off = 9 then
    let top : Nat := match topRequest x.requests with | some q => q.handle.val | none => 0
    some (pack [(0, bit c.vreqEn), (8, c.reqTtl.toNat), (16, capBits 5 x.requests.length), (24, top)])
  else if off = 10 then some (irailWord d r)
  else if off = 11 then some x.ilimNow.toNat
  else if off = 12 then some (capBits 24 (capacityOf d (fullPhases d r)))
  else if off = 13 then some (pack [(0, c.vinRatio.toNat), (16, x.d0.toNat)])
  else if off = 14 then some (pack [(0, c.pgWin.toNat), (16, c.pgCount.toNat), (20, c.holdMax.toNat)])
  else if off = 15 then some (pack [(0, c.rampMax.toNat), (12, c.retryMax.toNat), (16, c.retryDelay.toNat)])
  else if off = 16 then some (flagBits [c.retake, c.kindleEn, c.shedEn])
  else if off ≤ 20 then some (maskWord (available d r) (railPhases d r) (off - 17))
  else if off ≤ 24 then some (maskWord (fun g => x.stack.any fun s => decide (s.phase = g)) (railPhases d r) (off - 21))
  else if off ≤ 28 then some (maskWord (fun g => x.tripped.contains g) (railPhases d r) (off - 25))
  else if off = 29 then some (pack [(0, x.sheds.toNat), (8, x.adds.toNat), (16, x.warms.toNat), (24, x.unwinds.toNat)])
  else if off = 30 then some x.intStatus.toNat
  else if off = 31 then some x.intEnable.toNat
  else none

/-- RM (Table 8-13). -/
def readRm (d : Device) (a : Nat) : Option Nat :=
  if a = 0x4800 then some (wordOf64 (railInt d) false)
  else if a = 0x4801 then some (wordOf64 (railInt d) true)
  else none

/-! ### LOOP, LE, FF and AT -/

/-- A word of a coefficient bank: mantissa at even offsets, shift at odd ones. -/
def coefWord (c : Bank 8 Coef) (off : Nat) : Nat :=
  let x := bankGet c (Fin.ofNat 8 (off / 2))
  if off % 2 = 0 then x.m.toNat else x.s.toNat

/-- LOOP[r] (Tables 6-7 to 6-11). -/
def readLoop (d : Device) (r : Fin 64) (off : Nat) : Option Nat :=
  let l := d.loop r
  if off = 0 then some (pack [(1, bit l.useInexact)])
  else if off = 1 then some (pack [(0, match railMode d r with | none => 0 | some .immediate => 1 | some .fixed => 2), (2, if (d.sect r).isSome then depthOf (railPeriod d r) else 0),
    (4, bit l.diverged), (5, bit l.stale), (8, l.ovrRun.toNat), (16, l.staleRun.toNat)])
  else if off = 2 then some (pack [(0, l.innerOvr.toNat), (16, l.outerOvr.toNat)])
  else if off = 3 then some (pack [(0, l.missing.toNat), (16, l.inexact.toNat)])
  else if off = 4 then some (pack [(0, l.satOut.toNat), (16, l.satAcc.toNat)])
  else if off = 5 then some (pack [(0, l.coefSeq.toNat), (16, l.slack.toNat)])
  else if off = 6 then some l.intStatus.toNat
  else if off = 7 then some l.intEnable.toNat
  else if off = 8 then some l.target.toNat
  else if off = 9 then some l.vfb.toNat
  else if off = 10 then some (signedBits 32 l.dem)
  else if off = 11 then some (signedBits 32 l.hi)
  else if off = 12 then some l.vin.toNat
  else if off < 0x10 then none
  else if off < 0x20 then some (coefWord l.outer (off - 0x10))
  else if off < 0x30 then some (coefWord l.inner (off - 0x20))
  else none

/-- The LE globals, FF and PH (Tables 6-12 to 6-14, 7-6). -/
def readEngine (d : Device) (a : Nat) : Option Nat :=
  let e := d.le
  if a = 0x6000 then some (pack [(0, capBits 8 (windowCount e)), (8, e.windowHw.toNat), (16, e.queueHw.toNat)])
  else if a = 0x6001 then some e.evals.toNat
  else if a = 0x6002 then some e.ovrTotal.toNat
  else if a = 0x6003 then some (pack [(0, e.minSlack.toNat), (16, e.minRail.toNat)])
  else if a = 0x6004 then some e.ecc.toNat
  else if a = 0x6005 then some 0
  else if a = 0x6008 then some (e.ovrRails.toNat % 2 ^ 32)
  else if a = 0x6009 then some (e.ovrRails.toNat / 2 ^ 32)
  else if a < 0x6200 then (within a 0x6100 256).map fun i =>
    let f := bankGet e.ffs (Fin.ofNat 64 (i.val / 4))
    if i.val % 4 = 0 then f.accLead.toNat
    else if i.val % 4 = 1 then f.vinLo.toNat
    else if i.val % 4 = 2 then f.vinHi.toNat
    else signedBits 24 f.acc
  else if a < 0x6400 then (within a 0x6200 512).map fun g => capBits 16 (d.phase g).duty
  else if a < 0x6600 then (within a 0x6400 512).map fun g => signedBits 32 (d.phase g).iref
  else (within a 0x6600 512).map fun g => signedBits 32 (d.phase g).imeas

/-- AT (Tables 7-7 to 7-10). -/
def readTune (t : Tune) (a : Nat) : Option Nat :=
  if a = 0x6800 then some 0
  else if a = 0x6801 then some (pack [(0, t.h.toNat), (16, t.eps.toNat)])
  else if a = 0x6802 then some (pack [(0, t.devMax.toNat), (16, t.settle.toNat), (20, t.cycles.toNat)])
  else if a = 0x6803 then some (pack [(0, t.halfMax.toNat), (16, t.runMax.toNat)])
  else if a = 0x6804 then some (pack [(0, bit t.run.isSome), (1, bit t.short), (2, bit t.noint), (3, bit t.ignored),
    (4, t.check.toNat), (8, t.result.toNat), (16, t.cycle.toNat), (20, bit t.loop), (24, t.rail.val)])
  else if a = 0x6805 then some t.tu.toNat
  else if a = 0x6806 then some t.amp.toNat
  else if a = 0x6807 then some t.spread.toNat
  else if a = 0x6808 then some t.ku.m.toNat
  else if a = 0x6809 then some t.ku.s.toNat
  else if a = 0x680A then some t.b0.m.toNat
  else if a = 0x680B then some t.b0.s.toNat
  else if a = 0x680C then some t.b1.m.toNat
  else if a = 0x680D then some t.b1.s.toNat
  else none

end Sys2Proof.Machine
end

