-- ==== Sys2Proof/Machine/RegsEnergy.lean ====
section
/-! DEFINITION. What a read of the windows HS, PARTNER, PP, PM and HKT returns (Tables 9-11 to 9-15, 10-9 to 10-14,
11-7 to 11-16). -/

namespace Sys2Proof.Machine

/-! ### HS -/

/-- The start of an entry as its register shows it: 0 while it has none (Table 9-13). -/
def entryStart (x : Entry) : Word := match x.start with | some s => tickUs s | none => 0

/-- The end of an entry: its start plus L ms. -/
def entryEnd (x : Entry) : Word := if x.start.isSome then tickUs (endTick x) else word (totalMs x.segs * 1000)

/-- HS.LED[e] (Table 9-13). -/
def readEntry (x : Entry) (off : Nat) : Nat :=
  if off = 0 then
    let rail : Nat := match x.rail with | some r => r.val | none => 0
    pack [(0, x.state.code), (4, x.cls.val), (8, x.handle.val), (16, rail),
      (22, bit (decide (x.state ≠ .free) && x.rail.isNone)), (24, x.reason.code), (28, capBits 4 x.segs.length)]
  else if off = 1 then (tickUs x.early).toNat
  else if off = 2 then (tickUs x.last).toNat
  else if off = 3 then (entryStart x).toNat
  else if off = 4 then capBits 32 (peakOf x.segs)
  else if off = 5 then capBits 32 (energyOf x.segs)
  else if off = 6 then (entryEnd x).toNat
  else x.opSeq.toNat

/-- The segment that the segment port shows (Table 9-12). -/
def portSegment (d : Device) : Option Seg :=
  (d.led (Fin.ofNat 128 d.hs.segEntry.toNat)).segs[d.hs.seg.toNat]?

/-- HS (Tables 9-11, 9-12 and 9-14). -/
def readHearth (d : Device) (a : Nat) : Option Nat :=
  let h := d.hs
  let bin := h.tick + h.binSel.toNat
  if a = 0x7000 then some (pack [(0, bit h.supOk), (1, h.mode.val), (3, bit h.overdraw), (4, bit h.shareLive),
    (8, (entriesIn d fun s => decide (s = .free)).length), (16, (entriesIn d fun s => decide (s = .queued)).length)])
  else if a = 0x7001 then some (h.tick % 2 ^ 32)
  else if a = 0x7002 then some (pack [(0, h.commitLead.toNat), (8, h.baseWin.toNat)])
  else if a = 0x7003 then some h.margin.toNat
  else if a = 0x7004 then some h.storPmax.toNat
  else if a = 0x7005 then some (capBits 32 h.feed)
  else if a = 0x7006 then some (capBits 32 h.base)
  else if a = 0x7007 then some (capBits 32 h.avail)
  else if a = 0x7008 then some (capBits 32 h.storE)
  else if a = 0x7009 then some h.opSeq.toNat
  else if a = 0x700A then some (pack [(0, h.grants.toNat), (8, h.revokes.toNat), (16, h.squashes.toNat), (24, h.invalids.toNat)])
  else if a = 0x700B then some h.intStatus.toNat
  else if a = 0x700C then some h.intEnable.toNat
  else if a = 0x700D then some h.binSel.toNat
  else if a = 0x700E then some (capBits 32 (binSum h.charges false bin))
  else if a = 0x700F then some (capBits 32 (binSum h.charges true bin))
  else if a = 0x7010 then some h.planStart.toNat
  else if a = 0x7011 then some 0
  else if a = 0x7012 then some h.planResult.toNat
  else if a = 0x7013 then some 0
  else if a = 0x7018 then some (pack [(0, h.segEntry.toNat), (8, h.seg.toNat)])
  else if a = 0x7019 then
    some (match portSegment d with | some s => pack [(0, capBits 11 s.dur), (16, s.acc.toNat)] | none => 0)
  else if a = 0x701A then some (match portSegment d with | some s => capBits 32 s.power | none => 0)
  else if a = 0x7020 then some (pack [(0, d.ring.frames.toNat), (8, d.ring.errors.toNat)])
  else if a = 0x7021 then some d.ring.share.toNat
  else if a = 0x7022 then some (d.ring.nextEpoch.toNat % 2 ^ 32)
  else if a < 0x7080 then (within a 0x7040 64).map fun r => capBits 32 (bankGet h.railCap r)
  else if a < 0x70C0 then (within a 0x7080 64).map fun r =>
    pack [(0, capBits 11 (bankGet h.pause r)), (16, bit (bankGet h.exhausted r))]
  else (within a 0x7400 1024).map fun i => readEntry (d.led (Fin.ofNat 128 (i.val / 8))) (i.val % 8)

/-! ### PARTNER and PP -/

/-- PARTNER[h] (Table 10-14). -/
def readPartner (tm : TimeBase) (d : Device) (h : Fin 256) (off : Nat) : Option Nat :=
  let p := bankGet d.pp.partners h
  let rail : Nat := match p.rail with | some r => r.val | none => 0
  if off = 0 then some (pack [(0, bit p.held), (1, bit p.home), (2, bit (inHoldoff tm d p)), (3, bit p.listed), (4, p.ceil.val),
    (6, bit p.vreqOk), (7, bit (p.held && p.rail.isNone)), (8, rail), (16, p.unit.toNat)])
  else if off = 1 then some p.nonce.toNat
  else if off = 2 then some p.joined.toNat
  else if off = 3 then some p.lastRx.toNat
  else if off = 4 then some (pack [(0, capBits 4 (openEntries d h)), (8, p.frames.toNat), (16, p.refusals.toNat)])
  else if off = 5 then some 0
  else none

/-- CanState (Table 10-13). -/
def CanState.code : CanState → Nat
  | .disabled => 0 | .active => 1 | .passive => 2 | .busOff => 3

/-- PP.BUS[b] (Tables 10-12 and 10-13). -/
def readBus (c : CanBus) (off : Nat) : Option Nat :=
  if off = 0 then some (flagBits [c.en, c.brs, c.listen])
  else if off = 1 then some c.nbt.toNat
  else if off = 2 then some c.dbt.toNat
  else if off = 3 then some (pack [(0, c.tdco.toNat), (8, bit c.tdcEn)])
  else if off = 4 then some (pack [(0, if c.en then c.state.code else 0), (8, c.tecCount.toNat), (16, c.recCount.toNat), (24, c.lec.toNat)])
  else if off = 5 then some c.rx.toNat
  else if off = 6 then some c.tx.toNat
  else if off = 7 then some (pack [(0, c.busOffs.toNat), (16, c.passives.toNat)])
  else if off = 8 then some c.syncSof.toNat
  else none

/-- PP (Tables 10-9 to 10-13). -/
def readPorts (d : Device) (a : Nat) : Option Nat :=
  let p := d.pp
  if a = 0x8000 then some (pack [(0, p.node.toNat), (4, bit p.both), (5, bit p.autoRecover), (8, p.maxOpen.toNat)])
  else if a = 0x8001 then some (pack [(0, bankCount p.partners (·.held)), (12, p.htgen.toNat), (16, bootId d)])
  else if a = 0x8002 then some (pack [(0, p.lease.toNat), (16, p.holdoff.toNat)])
  else if a = 0x8004 then some p.intStatus.toNat
  else if a = 0x8005 then some p.intEnable.toNat
  else if a = 0x8006 then some (pack [(0, p.joins.toNat), (8, p.leaves.toNat), (16, p.expiries.toNat), (24, p.takeovers.toNat)])
  else if a = 0x8007 then some (pack [(0, p.fulls.toNat), (16, p.discards.toNat)])
  else if a = 0x8008 then some (pack [(0, p.syncDropA.toNat), (8, p.syncDropB.toNat), (16, p.txDrops.toNat)])
  else (within a 0x8010 32).bind fun i => readBus (bankGet p.buses (Fin.ofNat 2 (i.val / 16))) (i.val % 16)

/-! ### PM and HKT -/

/-- Bits for the protection entries 32i to 32i + 31. -/
def protWord (pm : Protect) (f : ProtSt → Bool) (i : Nat) : Nat := flagBits (((pm.st.drop (32 * i)).take 32).map f)

/-- PM.ENTRY (Table 11-11). -/
def readProtEntry (e : ProtEntry) (second : Bool) : Nat :=
  if second then
    let target : Nat := match e.target with | some r => r.val | none => 0xFF
    pack [(0, target), (8, e.fltMask.toNat), (16, capBits 16 e.level)]
  else pack [(0, e.source.val), (8, e.action.val), (16, capBits 16 e.srcIndex)]

/-- PM (Tables 11-7 to 11-11). -/
def readProtect (d : Device) (a : Nat) : Option Nat :=
  let pm := d.pm
  if a = 0x8400 then some (pack [(0, bit (pm.st.any (·.active))), (1, bit (pm.st.any (·.latch))), (2, bit pm.implicit),
    (8, fltLowMask d), (16, capBits 9 pm.entries.length)])
  else if a = 0x8401 then some (pack [(0, pm.phOcPct.toNat), (8, pm.railOcPct.toNat), (16, pm.fCount.toNat),
    (20, pm.ocCount.toNat), (24, pm.vCount.toNat), (28, pm.vsCount.toNat)])
  else if a = 0x8402 then some (pack [(0, pm.fltMode.toNat), (8, pm.fltForce.toNat)])
  else if a = 0x8403 then some pm.intStatus.toNat
  else if a = 0x8404 then some pm.intEnable.toNat
  else if a = 0x8405 then some (match pm.first with | some e => e.val | none => 0x1FF)
  else if a = 0x8406 then some pm.firstTime.toNat
  else if a = 0x8407 then some pm.trips.toNat
  else if a < 0x8418 then (within a 0x8410 8).map fun i => protWord pm (·.active) i.val
  else if a < 0x8420 then (within a 0x8418 8).map fun i => protWord pm (·.latch) i.val
  else (within a 0x8500 512).map fun i =>
    match pm.entries[i.val / 2]? with
    | some e => readProtEntry e (decide (i.val % 2 = 1))
    | none => 0

/-- HKT.CH (Table 11-16). -/
def readChannel (c : Channel) (second : Bool) : Nat :=
  if second then pack [(0, c.warns.toNat), (8, c.throttles.toNat), (16, c.shutdowns.toNat), (24, c.invalids.toNat)]
  else pack [(0, signedBits 16 c.value), (16, c.level.val), (18, bit c.rate), (19, bit c.suspect), (20, bit c.failed),
    (21, bit c.idle), (22, bit c.subst)]

/-- HKT (Tables 11-12 to 11-16). -/
def readHousekeeping (d : Device) (a : Nat) : Option Nat :=
  let h := d.hkt
  if a = 0x8800 then some (pack [(0, bit h.tsd), (1, bit h.storeWin), (2, bit (h.rails.toList.any (·.demand))),
    (3, bit (h.rails.toList.any (·.exhausted))), (16, h.jmax.toNat)])
  else if a = 0x8801 then some (pack [(0, h.steps.toNat), (4, h.stepPct.toNat), (12, h.stepRounds.toNat), (20, h.relaxRounds.toNat)])
  else if a = 0x8802 then some h.xdev.toNat
  else if a = 0x8803 then some h.rounds.toNat
  else if a = 0x8804 then some h.intStatus.toNat
  else if a = 0x8805 then some h.intEnable.toNat
  else if a < 0x8810 then (within a 0x8808 8).map fun k =>
    pack [(0, (bankGet h.dies k).temp.toNat), (16, bit (bankGet h.dies k).valid)]
  else if a < 0x8814 then (within a 0x8810 4).map fun i => (bankGet h.thms i).r25.toNat
  else if a < 0x8818 then (within a 0x8814 4).map fun i => (bankGet h.thms i).rb.toNat
  else if a < 0x881C then (within a 0x8818 4).map fun i =>
    pack [(0, (bankGet h.thms i).beta.toNat), (16, (bankGet h.thms i).code.toNat)]
  else if a < 0x8820 then (within a 0x881C 4).map fun m => (bankGet h.supMv m).toNat
  else if a = 0x8820 then some (pack [(0, h.tsdCount.toNat), (16, h.tsdLost.toNat), (24, h.tsdCause.toNat)])
  else if a = 0x8821 then some h.tsdTime.toNat
  else if a < 0x8880 then (within a 0x8840 64).map fun r =>
    let t := bankGet h.rails r
    pack [(0, capBits 4 t.step), (4, bit t.exhausted), (5, bit t.demand), (8, t.ch.val)]
  else (within a 0x8900 192).map fun i => readChannel (bankGet h.chans (Fin.ofNat 96 (i.val / 2))) (decide (i.val % 2 = 1))

end Sys2Proof.Machine
end

