-- ==== Sys2Proof/Machine/RegsStore.lean ====
section
/-! DEFINITION. What a read of the windows OCS, ER, BOG and TWP returns (Tables 15-8 to 15-12, 16-6 to 16-10, 13-5 to 13-9),
and the map of all windows (Table 12-5): what a read of any word address returns. -/

namespace Sys2Proof.Machine

/-! ### OCS -/

/-- OCS.SECT of a physical sector (Table 15-12). The logical sector and the region of a physical sector to which none is mapped
are not stated; they are free (assumption 1). -/
def readSector (nv : NonVol) (st : Store) (p : Fin 128) : Nat :=
  let erases := (bankGet st.eraseCount p).toNat
  match (List.finRange 128).find? fun l => decide (physOf st l = some p) with
  | none => pack [(0, erases), (17, 4), (20, (Config.unmappedSector p.val).toNat)]
  | some l =>
    let r := bankGet st.region l
    let state : Nat :=
      if nv.worn.contains p then 4
      else if rawLogical l then 5
      else if r = 10 then 3
      else if activeOf st r = some l then 0
      else if (bankGet st.erased r).contains l then 1
      else 2
    pack [(0, erases), (17, state), (20, l.val), (27, r.val)]

/-- The highest erase count of a sector in use (Table 15-10). -/
def maxErases (nv : NonVol) (st : Store) : Nat :=
  (List.finRange 128).foldl (fun a p => if nv.worn.contains p then a else max a (bankGet st.eraseCount p).toNat) 0

/-- OCS (Tables 15-8 to 15-12). -/
def readStore (nv : NonVol) (d : Device) (a : Nat) : Option Nat :=
  let st := d.ocs
  if a = 0x9000 then some (pack [(0, bit (storeBusy st)), (1, bit st.recovering), (2, bit d.hkt.storeWin), (3, bit st.pfail),
    (4, bit (!st.doubt.isEmpty)), (8, capBits 4 (freeSpares nv st).length), (16, st.readonly.toNat)])
  else if a = 0x9001 then some 0
  else if a = 0x9002 then some (pack [(0, st.result.toNat), (8, bit st.cmdBusy)])
  else if a = 0x9003 then some st.bp.toNat
  else if a = 0x9004 then some st.nextSeq.toNat
  else if a = 0x9005 then some (pack [(0, st.completed.toNat), (8, st.voided.toNat), (16, st.erases.toNat),
    (20, st.wipes.toNat), (24, st.faults.toNat)])
  else if a = 0x9006 then some (pack [(0, maxErases nv st), (17, capBits 7 nv.worn.length)])
  else if a = 0x9007 then some st.intStatus.toNat
  else if a = 0x9008 then some st.intEnable.toNat
  else if a < 0x9030 then (within a 0x9010 32).map fun i =>
    let v := (bankGet st.counters (Fin.ofNat 16 (i.val / 2))).toNat
    if i.val % 2 = 0 then v % 2 ^ 32 else v / 2 ^ 32
  else if a < 0x9078 then (within a 0x9040 56).map fun w => (bankGet st.ubuf w).toNat
  else (within a 0x9100 128).map (readSector nv st)

/-! ### ER -/

/-- The guaranteed circulating window of some sectors (R406). -/
def guaranteedRecords (sectors : Nat) : Nat := (sectors - 2) * 120 + 24

/-- ER (Tables 16-6 and 16-7). -/
def readRecorder (tm : TimeBase) (d : Device) (a : Nat) : Option Nat :=
  let e := d.er
  if a = 0x9400 then some (pack [(0, capBits 7 e.queue.length), (7, bit e.seqEnd), (8, bit (decide (512 ≤ e.permCount))),
    (9, bit e.permRo), (10, bit e.bogOnly), (11, bit e.unset), (12, bit e.clearing), (13, bit e.pfail), (16, e.tgen.toNat)])
  else if a = 0x9401 then some e.head.toNat
  else if a = 0x9402 then some e.tail.toNat
  else if a = 0x9403 then some e.permUsed.toNat
  else if a = 0x9404 then some (pack [(0, capBits 16 (guaranteedRecords e.sectors.toNat)), (16, e.sectors.toNat)])
  else if a = 0x9405 then some (pack [(0, e.dropped.toNat), (16, e.repeats.toNat)])
  else if a = 0x9406 then some (tm.cal.toNat % 2 ^ 32)
  else if a = 0x9407 then some (tm.cal.toNat / 2 ^ 32)
  else if a = 0x9408 then some (e.timeNew.toNat % 2 ^ 32)
  else if a = 0x9409 then some (e.timeNew.toNat / 2 ^ 32)
  else if a = 0x940A then some 0
  else if a = 0x940B then some (pack [(0, bit e.busy), (1, bit e.found), (2, e.area.toNat), (8, e.result.toNat)])
  else if a = 0x940C then some e.sel.toNat
  else if a = 0x9418 then some e.intStatus.toNat
  else if a = 0x9419 then some e.intEnable.toNat
  else (within a 0x9410 8).map fun w => leAt e.rd (4 * w.val) 4

/-! ### BOG -/

/-- BogState (Table 16-8). -/
def BogState.code : BogState → Nat
  | .absent => 0 | .discovering => 1 | .ready => 2 | .foreign => 3 | .detached => 4 | .failed => 5

/-- CapState (Table 16-10). -/
def CapState.code : CapState → Nat
  | .stopped => 0 | .armed => 1 | .post => 2 | .frozen => 3

/-- Writing to the archive pauses (R419). -/
def bogPaused (tm : TimeBase) (d : Device) : Bool := !supRunning tm d || decide (d.bog.state = .detached)

/-- Device d of the archive (Table 16-9). -/
def readFlash (b : Bog) (i : Fin 2) : Nat :=
  pack [(0, (bankGet b.blocks i).toNat), (16, (bankGet b.mfr i).toNat), (24, bit (bankGet b.quad i))]

/-- BOG (Tables 16-8 to 16-10): from 0x9810 on, unlisted addresses are reserved and read zero. -/
def readBog (tm : TimeBase) (d : Device) (a : Nat) : Option Nat :=
  let b := d.bog
  let c := d.cap
  if a = 0x9800 then some (pack [(0, b.state.code), (3, b.present.toNat), (5, bit b.cmdBusy), (6, bit (bogPaused tm d)),
    (8, b.result.toNat)])
  else if a = 0x9801 then some 0
  else if a = 0x9802 then some (pack [(0, b.logPct.toNat), (7, bit b.autoformat), (8, b.flush.toNat)])
  else if a = 0x9804 then some (readFlash b 0)
  else if a = 0x9805 then some (readFlash b 1)
  else if a = 0x9806 then some (pack [(0, b.logBlocks.toNat), (16, b.logNominal.toNat)])
  else if a = 0x9807 then some b.logHead.toNat
  else if a = 0x9808 then some b.logTail.toNat
  else if a = 0x9809 then some (pack [(0, b.capBlocks.toNat), (16, b.captures.toNat)])
  else if a = 0x980A then some (pack [(0, b.spares.toNat), (16, b.worn.toNat)])
  else if a = 0x980B then some b.intStatus.toNat
  else if a = 0x980C then some b.intEnable.toNat
  else if a < 0x9810 then none
  else if a = 0x9810 then some (pack [(4, bit c.tPm), (5, bit c.tRail), (6, bit c.tTsd), (7, bit c.autoRearm)])
  else if a = 0x9811 then some (pack [(0, c.state.code), (2, bit c.copying), (8, c.missed.toNat)])
  else if a = 0x9812 then some (pack [(0, c.channels.toNat), (16, c.div.toNat)])
  else if a = 0x9813 then some (pack [(0, c.len.toNat), (16, c.pre.toNat)])
  else if a = 0x9814 then some c.lastId.toNat
  else
    match within a 0x9820 16 with
    | some i => some (pack [(0, (bankGet c.sources i).kind.toNat), (16, (bankGet c.sources i).index.toNat)])
    | none => some (match within a 0x9C00 1024 with | some w => leAt b.rbuf (4 * w.val) 4 | none => 0)

/-! ### TWP -/

/-- TWP.PER[e] (Table 13-9): entries beyond the applied ENTRIES read zero. -/
def readPer (d : Device) (e : Fin 32) (off : Nat) : Nat :=
  match pollEntry d e with
  | none => 0
  | some p =>
    let x := bankGet d.twp.per e
    if off = 0 then pack [(0, p.addr.toNat), (7, bit p.pec), (8, bit p.ptr2), (9, p.format.val), (16, capBits 6 p.len),
      (24, capBits 8 p.period)]
    else if off = 1 then p.pointer.toNat
    else if off = 2 then pack [(0, x.result.code), (8, x.fails.toNat), (16, x.oks.toNat)]
    else x.lastOk.toNat

/-- TWP (Tables 13-5 to 13-9). -/
def readTwp (d : Device) (a : Nat) : Option Nat :=
  let t := d.twp
  if a = 0xA000 then some (pack [(0, bit t.en), (1, bit t.pecT), (2, bit t.araEn), (3, bit t.smbTo), (4, bit t.pollEn),
    (8, t.stretchMax.toNat)])
  else if a = 0xA001 then some (pack [(0, bit t.polling.isSome), (1, bit t.busBusy), (2, bit (bankGet d.ports 1).pending.isSome),
    (3, bit t.recovery.isSome), (4, bit t.sdaStuck), (5, bit t.sclStuck), (6, bit (alertAcked d)), (8, t.lastStatus.toNat),
    (16, t.lastAddr.toNat)])
  else if a = 0xA002 then some (pack [(0, t.tlow.toNat), (16, t.thigh.toNat)])
  else if a = 0xA003 then some (pack [(0, t.tsudat.toNat), (8, t.thddat.toNat), (16, t.speed.toNat)])
  else if a = 0xA004 then some t.ownAddr.toNat
  else if a = 0xA005 then some 0
  else if a = 0xA006 then some (pack [(0, t.arbLost.toNat), (8, t.busErrs.toNat), (16, t.recoveries.toNat),
    (24, t.recoverFails.toNat)])
  else if a = 0xA007 then some (pack [(0, t.pageDiscards.toNat), (8, t.partialWords.toNat), (16, t.pecErrs.toNat),
    (24, t.timeouts.toNat)])
  else if a = 0xA008 then some t.intStatus.toNat
  else if a = 0xA009 then some t.intEnable.toNat
  else if a = 0xA00A then some t.alertMask.toNat
  else if a = 0xA00B then some t.psel.toNat
  else if a < 0xA018 then (within a 0xA010 8).map fun k =>
    beAt (bankGet t.per (Fin.ofNat 32 t.psel.toNat)).value (4 * k.val) 4
  else (within a 0xA040 128).map fun i => readPer d (Fin.ofNat 32 (i.val / 4)) (i.val % 4)

/-! ### The map (R319, Table 12-5) -/

/-- What a read of a word address returns; `none` where the address is not defined (R8). The debug window is not part of the
map that a host reads (assumption 24). -/
def readWord (s : State) (a : Nat) : Option Nat :=
  let d := s.dev
  if a < 0x100 then readSys d a
  else if a < 0x200 then readClk d a
  else if a < 0x300 then readGuard s.tm d a
  else if a < 0x400 then readFw s.tm s.nv d a
  else if a < 0x500 then readHsp d a
  else if a < 0x800 then none
  else if a < 0x1000 then readImg d a
  else if a < 0x1800 then readLane (d.lane (Fin.ofNat 64 ((a - 0x1000) / 32))) (a % 32)
  else if a < 0x2000 then readPli d a
  else if a < 0x3000 then readSlotReg (d.slot (Fin.ofNat 512 ((a - 0x2000) / 8))) (a % 8)
  else if a < 0x4000 then readTbi s.tm d a
  else if a < 0x4800 then readRail d (Fin.ofNat 64 ((a - 0x4000) / 32)) (a % 32)
  else if a < 0x5000 then readRm d a
  else if a < 0x6000 then readLoop d (Fin.ofNat 64 ((a - 0x5000) / 64)) (a % 64)
  else if a < 0x6800 then readEngine d a
  else if a < 0x7000 then readTune d.tune a
  else if a < 0x7800 then readHearth d a
  else if a < 0x8000 then readPartner s.tm d (Fin.ofNat 256 ((a - 0x7800) / 8)) (a % 8)
  else if a < 0x8400 then readPorts d a
  else if a < 0x8800 then readProtect d a
  else if a < 0x9000 then readHousekeeping d a
  else if a < 0x9400 then readStore s.nv d a
  else if a < 0x9800 then readRecorder s.tm d a
  else if a < 0xA000 then readBog s.tm d a
  else if a < 0xA400 then readTwp d a
  else none

end Sys2Proof.Machine
end

