-- ==== Sys2Proof/Machine/Abort.lean ====
section
/-! DEFINITION. The ABORT command (spec 12_host_port.md R322 to R324, Table 12-6) and the release of an access that hangs on a
stopped clock (R45, R317, R320). -/

namespace Sys2Proof.Machine

/-- The status bits of Table 12-4. -/
def stCrc : Byte := 0x01
def stAddr : Byte := 0x02
def stDenied : Byte := 0x04
def stNotReady : Byte := 0x08
def stStopped : Byte := 0x10
def stBusy : Byte := 0x20
def stTimeout : Byte := 0x40

/-- A change of one access port. -/
def Device.onPort (d : Device) (p : Port) (f : PortState → PortState) : Device :=
  { d with ports := bankUpd d.ports (portIdx p) f }

/-- One access port. -/
def Device.port (d : Device) (p : Port) : PortState := bankGet d.ports (portIdx p)

/-- The response of an access or a frame, with its RCRC over header, body and STATUS (R314). -/
def responseOf (header body : List Byte) (status : Byte) : Response := ⟨body, status, crc8 (header ++ body ++ [status])⟩

/-- Words as the bytes of a response. -/
def wordBytes (ws : List Word) : List Byte := ws.flatMap fun w => beBytes 4 w.toNat

/-- The bytes that a target read sends for some words: with PEC, each word is followed by the CRC over the transaction so far
(R333, R334). -/
def targetBytes (pec : Bool) : List Byte → List Word → List Byte
  | _, [] => []
  | before, w :: ws =>
    let bs := beBytes 4 w.toNat
    let bs := if pec then bs ++ [crc8 (before ++ bs)] else bs
    bs ++ targetBytes pec (before ++ bs) ws

/-- An access of a port is over (R315, R317, R335): its words and its status. On the SPI port the result goes out in the frame, or
is held when CS_N has risen. -/
def finishAccess (p : Port) (acc : PendingAccess) (d : Device) : Device :=
  let d := d.onPort p fun x => { x with pending := none, data := acc.got.getLast?.getD 0, status := acc.status }
  match p with
  | .spi =>
    if acc.header.isEmpty then { d with hsp := { d.hsp with lastStatus := acc.status } } else
    let r := responseOf acc.header (if acc.write then [] else wordBytes acc.got) acc.status
    { d with hsp := { d.hsp with
        lastStatus := acc.status
        held := if acc.cut then some r else d.hsp.held
        response := if acc.cut then d.hsp.response else some r } }
  | .twoWire =>
    { d with twp := { d.twp with
        sent := if acc.write || acc.cut then d.twp.sent else targetBytes d.twp.pecT acc.header acc.got } }
  | .debug => d

/-- A register access of the two-wire port is over: TWP.STATUS shows its status and its address (R335). -/
def noteLast (p : Port) (a : Addr) (status : Byte) (d : Device) : Device :=
  match p with
  | .twoWire => { d with twp := { d.twp with lastStatus := status, lastAddr := a } }
  | .spi | .debug => d

/-- ABORT of FUNC 0x08: the access is released, its words that were not made with STOPPED and zero (R45, R320). -/
def releaseAccess (p : Port) (acc : PendingAccess) (d : Device) : Device :=
  let zeros : List Word := if acc.write then [] else acc.todo.map fun _ => 0
  let last : Addr := (acc.todo.getLast?.map (·.1)).getD 0
  let d := if p = .spi then { d with hsp := { d.hsp with releases := d.hsp.releases + 1 } } else d
  finishAccess p { acc with got := acc.got ++ zeros, status := acc.status ||| stStopped, todo := [] } (noteLast p last stStopped d)

/-- ABORT of FUNC 0x08 on a port: the answer of R323. An access with no word left is the one that is being made, which completes:
it wrote the ABORT itself. -/
def abortAccess (p : Port) (d : Device) : Device × AbortResult :=
  match (d.port p).pending with
  | some acc => if acc.todo.isEmpty then (d, .completed) else (releaseAccess p acc d, .aborted)
  | none => (d, if p = .spi ∧ d.hsp.held.isSome then .completed else .idle)

/-- ABORT of FUNC 0x06 (R136, Table 4-15): the lane is DOWN; from RETRAIN that is a lane loss. -/
def abortTraining (tm : TimeBase) (n : Fin 64) (d : Device) : Device × AbortResult :=
  match (d.lane n).state with
  | .training => (trainingFails n d, .aborted)
  | .retrain => (laneLoss tm n (trainingFails n d), .aborted)
  | .unused | .down | .up => (d, .idle)

/-- ABORT of FUNC 0x01 (R198, R201). -/
def abortTune (tm : TimeBase) (d : Device) : Device × AbortResult :=
  if d.tune.run.isSome then (endTune tm .aborted [] d, .aborted) else (d, .idle)

/-- ABORT of FUNC 0x07 (R353). -/
def abortSessionOf (p : Port) (d : Device) : Device × AbortResult :=
  if sessionOpen d p then (closeSession p d, .aborted) else (d, .idle)

/-- What of a function was stopped. -/
def abortedIf (b : Bool) : AbortResult := if b then .aborted else .idle

/-- The function of an ABORT with its index (Table 12-6). -/
inductive AbortFunc where
  | tune
  | railApply (r : Fin 64)
  | store
  | bog
  | twoWire
  | training (n : Fin 64)
  | session (p : Port)
  | access (p : Port)
  /-- A function whose INDEX names nothing. -/
  | nothing (least : Level)
  | global
  | bad
deriving DecidableEq, Repr

/-- The port of an index. -/
def portOf (i : Nat) : Option Port := if i = 0 then some .spi else if i = 1 then some .twoWire else if i = 2 then some .debug else none

/-- Table 12-6. -/
def abortFunc (func index : Byte) : AbortFunc :=
  let i := index.toNat
  if func = 0x01 then .tune
  else if func = 0x02 then (match fin? 64 i with | some r => .railApply r | none => .nothing .engineer)
  else if func = 0x03 then .store
  else if func = 0x04 then .bog
  else if func = 0x05 then .twoWire
  else if func = 0x06 then (match fin? 64 i with | some n => .training n | none => .nothing .engineer)
  else if func = 0x07 then (match portOf i with | some p => .session p | none => .nothing .custodian)
  else if func = 0x08 then (match portOf i with | some p => .access p | none => .nothing .engineer)
  else if func = 0xFF then .global
  else .bad

/-- The level that an ABORT from a port needs. -/
def abortLevel (p : Port) : AbortFunc → Level
  | .session q => if q = p then .none else .custodian
  | .access q => if q = p then .none else .engineer
  | .nothing l => l
  | .bad => .none
  | .tune | .railApply _ | .store | .bog | .twoWire | .training _ | .global => .engineer

/-- What an abort of one function does; SDA as the two-wire bus has it. -/
def abortOne (f : AbortFunc) (sda : Bool × Option (Fin 9)) (s : State) : State × AbortResult :=
  let dev (x : Device × AbortResult) : State × AbortResult := ({ s with dev := x.1 }, x.2)
  match f with
  | .tune => dev (abortTune s.tm s.dev)
  | .railApply r => dev (abortApply s.tm s.nv r s.dev)
  | .store =>
    let x := abortStore s.nv s.dev
    ({ s with nv := x.1, dev := x.2.1 }, abortedIf x.2.2)
  | .bog =>
    let x := bogAbort s.dev
    dev (x.1, abortedIf x.2)
  | .twoWire =>
    let x := abortPoll s.tm sda.1 sda.2 s.dev
    dev (x.1, abortedIf x.2)
  | .training n => dev (abortTraining s.tm n s.dev)
  | .session p => dev (abortSessionOf p s.dev)
  | .access p => dev (abortAccess p s.dev)
  | .nothing _ => (s, .idle)
  | .bad => (s, .badFunc)
  | .global => (s, .idle)

/-- The functions that FUNC 0xFF aborts. -/
def globalFuncs : List AbortFunc :=
  [.tune] ++ (List.finRange 64).map .railApply ++ [.store, .bog, .twoWire] ++ (List.finRange 64).map .training
    ++ [.access .spi, .access .twoWire, .access .debug]

/-- FUNC and INDEX of a function, INDEX 0 where it has none. -/
def AbortFunc.code : AbortFunc → Byte × Byte
  | .tune => (0x01, 0)
  | .railApply r => (0x02, byte r.val)
  | .store => (0x03, 0)
  | .bog => (0x04, 0)
  | .twoWire => (0x05, 0)
  | .training n => (0x06, byte n.val)
  | .session p => (0x07, byte (portIdx p).val)
  | .access p => (0x08, byte (portIdx p).val)
  | .nothing _ => (0, 0)
  | .global => (0xFF, 0)
  | .bad => (0, 0)

/-- Is a function in progress? -/
def inProgress (d : Device) : AbortFunc → Bool
  | .tune => d.tune.run.isSome
  | .railApply r => decide (d.img.cmd = some (.apply 0x10 (byte r.val)))
  | .store => d.ocs.current.toList.any hostJob || d.ocs.jobs.any hostJob
  | .bog => d.bog.op.isSome
  | .twoWire => (openPoll d).isSome
  | .training n => decide ((d.lane n).state = .training ∨ (d.lane n).state = .retrain)
  | .session p => sessionOpen d p
  | .access p => (d.port p).pending.isSome
  | .nothing _ | .global | .bad => false

/-- The functions in progress, which a BCLK cycle notes at its start. -/
def funcsRunning (d : Device) : List (Byte × Byte) :=
  ((globalFuncs ++ [Port.spi, .twoWire, .debug].map AbortFunc.session).filter (inProgress d)).map AbortFunc.code

/-- A function that the ABORT finds no longer in progress, but that was at the start of this BCLK cycle, has completed in it: the
ABORT ends with COMPLETED (R323). -/
def endedInCycle (d : Device) (f : AbortFunc) (r : AbortResult) : AbortResult :=
  if r = .idle ∧ d.hsp.busyFuncs.contains f.code then .completed else r

/-- FUNC 0xFF: ABORTED when something was aborted; and what was. -/
def abortAll (sda : Bool × Option (Fin 9)) (s : State) : State × AbortResult × List (Byte × Byte) :=
  globalFuncs.foldl (fun x f =>
    let y := abortOne f sda x.1
    if y.2 = .aborted then (y.1, .aborted, x.2.2 ++ [f.code]) else (y.1, x.2)) (s, .idle, [])

/-- HSP.ABORT shows the ABORT last decided (R324). -/
def showAbort (p : Port) (func index : Byte) (r : AbortResult) (d : Device) : Device :=
  { d with hsp := { d.hsp with
      abortDone := false, abortPort := p, abortResult := r, abortFunc := func, abortIndex := index } }

/-- An ABORT that ends at once. -/
def abortEnds (p : Port) (func index : Byte) (r : AbortResult) (d : Device) : Device :=
  let d := showAbort p func index r d
  { d with hsp := { d.hsp with abortDone := true, abortElapsed := 0, evt := setBit d.hsp.evt 0 } }

/-- Another port's ABORT in flight of the same function, by itself or within a FUNC 0xFF (R323). -/
def joined (d : Device) (p : Port) (f : AbortFunc) : Option AbortFlight :=
  ([Port.spi, .twoWire, .debug].filterMap fun q =>
    if q = p then none else bankGet d.hsp.flights (portIdx q)).find? fun x => x.funcs.contains f.code

/-- T-ticks of the clock that also runs in STANDBY. -/
def flightStart (tm : TimeBase) : Nat := ticksNow tm

/-- The flight of an ABORT starts; a global takes every other one with it, the earlier one of its own port too (R323). -/
def launch (p : Port) (f : AbortFlight) (d : Device) : Device :=
  let absorb (x : Option AbortFlight) : Option AbortFlight :=
    if f.func = 0xFF then x.map fun y => { y with result := f.result, leader := f.leader } else x
  let mine : List (Byte × Byte) := match bankGet d.hsp.flights (portIdx p) with
    | some y => y.absorbed ++ [(y.func, y.index)]
    | none => []
  showAbort p f.func f.index f.result { d with hsp := { d.hsp with
    flights := bankSet (bankMap d.hsp.flights fun _ x => absorb x) (portIdx p) (some { f with absorbed := mine }) } }

/-- An ABORT from a port (R322 to R324): the status bits of its answer and the next state. -/
def abortCommand (p : Port) (func index : Byte) (sda : Bool × Option (Fin 9)) (s : State) : Byte × State :=
  let d := s.dev
  let f := abortFunc func index
  if func ≠ 0xFF ∧ (bankGet d.hsp.flights (portIdx p)).isSome then (stBusy, s)
  else if f = .bad then (0, s.onDev (abortEnds p func index .badFunc))
  else if srcLevel d (.port p) < (abortLevel p f).rank then (stDenied, s.onDev (abortEnds p func index .denied))
  else
    let now := flightStart s.tm
    match joined d p f with
    | some j => (0, s.onDev (launch p ⟨func, index, j.result, now, j.leader, [f.code], []⟩))
    | none =>
      if f = .global then
        let x := abortAll sda s
        (0, x.1.onDev (launch p ⟨func, index, x.2.1, now, p, f.code :: x.2.2, []⟩))
      else
        let x := abortOne f sda s
        (0, x.1.onDev (launch p ⟨func, index, endedInCycle d f x.2, now, p, [f.code], []⟩))

/-- The record of an ABORT that ends with ABORTED (R324). -/
def recordFunc (tm : TimeBase) (p : Port) (r : AbortResult) (d : Device) (x : Byte × Byte) : Device :=
  raise tm 0x90 [x.1, x.2, byte (portIdx p).val, byte r.code] d

/-- The records of a flight that ends with ABORTED: its own, and one for each ABORT of its port that it absorbed. -/
def recordAbort (tm : TimeBase) (d : Device) (x : Port × Option AbortFlight) : Device :=
  match x.2 with
  | some f =>
    if f.result = .aborted then (f.absorbed ++ [(f.func, f.index)]).foldl (recordFunc tm x.1 f.result) d else d
  | none => d

/-- ABORT_DONE (R322): the flight of a port ends, with every flight that ends with it. -/
def abortDoneAt (tm : TimeBase) (p : Port) (d : Device) : Device :=
  match bankGet d.hsp.flights (portIdx p) with
  | none => d
  | some f =>
    let ends (x : Option AbortFlight) : Bool := match x with | some y => decide (y.leader = f.leader) | none => false
    let ended := ([Port.spi, .twoWire, .debug].map fun q => (q, bankGet d.hsp.flights (portIdx q))).filter fun x => ends x.2
    let shown := ended.find? fun x => decide (x.1 = d.hsp.abortPort)
    let h := { d.hsp with
      flights := bankMap d.hsp.flights fun _ x => if ends x then none else x
      evt := setBit d.hsp.evt 0 }
    let h := match shown with
      | some (_, some y) => { h with
          abortDone := true
          abortResult := y.result
          abortElapsed := satNat 16 ((ticksNow tm - y.start) / 32) }
      | _ => h
    ended.foldl (recordAbort tm) { d with hsp := h }

/-- What the model takes of SDA where a command does not say it: free (assumption 1). -/
def drawSda (d : Device) : (Bool × Option (Fin 9)) × Device := (Config.sdaState d.draws, { d with draws := d.draws + 1 })

/-- An ABORT that does not say how SDA stands. -/
def abortBlind (p : Port) (func index : Byte) (s : State) : Byte × State :=
  let x := drawSda s.dev
  abortCommand p func index x.1 { s with dev := x.2 }

/-- A write of HSP.ABORT_CMD; `none` where it does not say how SDA stands. -/
def abortWrite (p : Port) (func index : Byte) (sda : Option (Bool × Option (Fin 9))) (s : State) : Byte × State :=
  match sda with
  | some x => abortCommand p func index x s
  | none => abortBlind p func index s

end Sys2Proof.Machine
end

