-- ==== Sys2Proof/Machine/Acts.lean ====
section
/-! DEFINITION. What the writes do that are commands with a row of their own: the fields with an action in the register tables of
every chapter, under their conditions (R318, Table 14-1). A write answers the status bits of Table 12-4 that its own conditions
set, and the next state. -/

namespace Sys2Proof.Machine

/-- What a write of a word does. -/
abbrev WordWrite := State → Byte × State

/-- A write that its conditions refuse (R318). -/
def writeDenied : WordWrite := fun s => (stDenied, s)

/-- A write that takes effect only under a condition. -/
def writeState (ok : Device → Bool) (f : State → State) : WordWrite := fun s =>
  if ok s.dev then (0, f s) else (stDenied, s)

/-- Fields that take the values written, under a condition. -/
def writeFields (ok : Device → Bool) (f : Device → Device) : WordWrite := writeState ok fun s => s.onDev f

/-- A command, which keeps a refusal of its own; the access shows it too. -/
def writeCommand (ok : Device → Bool) (f : State → State) : WordWrite := fun s => (if ok s.dev then 0 else stDenied, f s)

/-- A write without effect, of words to which no level belongs: a source without a session has no right to it (R348). -/
def writeNothing (src : Src) : WordWrite := writeFields (fun d => mayEarly d src .observe) id

/-- Two actions of one write, in order. -/
def writeBoth (a b : WordWrite) : WordWrite := fun s =>
  let x := a s
  let y := b x.2
  (x.1 ||| y.1, y.2)

/-- An action that the write asks for only when a bit is set. -/
def writeIf (b : Bool) (a : WordWrite) : WordWrite := if b then a else fun s => (0, s)

/-- A change of the device and the persistent memories together. -/
def onStores (f : NonVol × Device → NonVol × Device) (s : State) : State :=
  let x := f (s.nv, s.dev)
  { s with nv := x.1, dev := x.2 }

/-! ### Conditions -/

/-- ENGINEER, in the windows from 0x1000 on. -/
def engineer (src : Src) (d : Device) : Bool := may d src .engineer

/-- OPERATE. -/
def operate (src : Src) (d : Device) : Bool := may d src .operate

/-- OBSERVE. -/
def observe (src : Src) (d : Device) : Bool := may d src .observe

/-- ENGINEER, in COMMISSION or MAINTAIN (Table 14-1). -/
def commissions (src : Src) (d : Device) : Bool := may d src .engineer && lifeAllows d

/-- ENGINEER, in a window that answers before READY (R48). -/
def engineerEarly (src : Src) (d : Device) : Bool := mayEarly d src .engineer

/-- OPERATE, in a window that answers before READY. -/
def operateEarly (src : Src) (d : Device) : Bool := mayEarly d src .operate

/-! ### SYS, PWR, SG and FW -/

/-- SYS.RESET_CTRL with KIND 0b00 (R34, Table 2-14). -/
def actResetWarm (src : Src) : WordWrite := writeState (engineerEarly src) (resetState .soft)

/-- SYS.RESET_CTRL with KIND 0b01: the supervisor is reset (Table 2-3). -/
def actResetSupervisor (src : Src) : WordWrite := writeFields (engineerEarly src) fun d => addCause 7 (supervisorReset d)

/-- SYS.RESET_CTRL with KIND 0b10 (R35). -/
def actResetQuadrant (src : Src) (q : Fin 4) : WordWrite :=
  writeState (engineerEarly src) fun s => s.onDev (askQuadrantReset s.tm q)

/-- PWR.CMD RUN (R361, R364). -/
def actPwrRun (src : Src) : WordWrite := writeCommand (operateEarly src) (powerCommand src .operate enterRun)

/-- PWR.CMD TRIM (R361). -/
def actPwrTrim (src : Src) : WordWrite :=
  writeCommand (operateEarly src) (powerCommand src .operate fun s => s.onDev (enterTrim s.tm))

/-- PWR.CMD STANDBY (R363). -/
def actPwrStandby (src : Src) : WordWrite := writeCommand (engineerEarly src) (powerCommand src .engineer enterStandby)

/-- PWR QOP SMOULDER (R218, R361). -/
def actQopSmoulder (src : Src) (q : Fin 4) : WordWrite :=
  writeCommand (engineerEarly src) (powerCommand src .engineer fun s => s.onDev (smoulderQuadrant s.tm q))

/-- PWR QOP QRUN (R361). -/
def actQopQrun (src : Src) (q : Fin 4) : WordWrite :=
  writeCommand (engineerEarly src) (powerCommand src .engineer fun s => s.onDev (wakeQuadrant s.tm q))

/-- A command of a port's own SG.PORT registers (R352): another source has no effect (R370). -/
def actSession (src : Src) (p : Port) (f : TimeBase → NonVol → Device → Device) : WordWrite :=
  writeState (fun d => decide (src = .port p) && mayEarly d src .none) fun s => s.onDev (f s.tm s.nv)

/-- SG.PORT OPEN (R352): a port opens sessions on itself alone. -/
def actOpen (src : Src) (p : Port) (level : BitVec 2) : WordWrite := actSession src p fun tm nv => openSession tm nv p level

/-- SG.PORT PROVE (R352, R354, R355). -/
def actProve (src : Src) (p : Port) : WordWrite := actSession src p fun tm nv => prove tm nv p

/-- SG.PORT CLOSE (R353). -/
def actClose (src : Src) (p : Port) : WordWrite := actSession src p fun _ _ => closeCommand p

/-- SG.KEY_CMD (R351): a refusal is kept as the command's result. -/
def actKey (src : Src) (target : BitVec 3) : WordWrite :=
  writeCommand (fun d => mayEarly d src .custodian) fun s => s.onDev (keyCommand s.nv src target)

/-- SG.LC_CMD to a state (R356): a refusal is kept as the command's result. -/
def actLife (src : Src) (new : LifeCycle) : WordWrite :=
  writeCommand (fun d => mayEarly d src (lifeLevel d.sg.lc new)) fun s => s.onDev (changeLife s.tm s.nv src new)

/-- ENGINEER, in COMMISSION or MAINTAIN, in a window that answers before READY. -/
def commissionsEarly (src : Src) (d : Device) : Bool := mayEarly d src .engineer && lifeAllows d

/-- FW.DATA (R367). -/
def actFwData (src : Src) (data : Word) : WordWrite := writeState (commissionsEarly src) (onStores (writeFwData data))

/-- A command of FW.CMD (R367). -/
def actFw (src : Src) (f : TimeBase → NonVol × Device → NonVol × Device) : WordWrite :=
  writeCommand (commissionsEarly src) fun s => onStores (fwCommand src (f s.tm)) s

/-- FW.CMD with an unlisted OP (R370). -/
def actFwBad (src : Src) : WordWrite := actFw src fun _ y => (y.1, endFw .badOp y.2)

/-! ### The image loader -/

/-- IMG.DATA (R77, Table 3-23). -/
def actImgData (src : Src) (data : Word) : WordWrite := writeState (commissions src) fun s => s.onDev (writeImageData s.nv data)

/-- A command of IMG.CMD (R77, Table 3-17). -/
def actImg (src : Src) (f : TimeBase → NonVol → Device → Device) : WordWrite :=
  writeCommand (commissions src) fun s => s.onDev (imgCommand src (f s.tm s.nv))

/-- IMG.CMD with an unlisted OP (Table 3-17). -/
def actImgBad (src : Src) : WordWrite := actImg src fun _ _ => closeImg .badOp

/-! ### Lanes, slots and the timebase -/

/-- LANE.CTRL.RETRAIN (Table 4-17). -/
def actRetrain (src : Src) (n : Fin 64) : WordWrite := writeState (engineer src) fun s => s.onDev (laneRetrain s.tm n)

/-- LANE.CTRL.DISABLE (R133). -/
def actDisable (src : Src) (n : Fin 64) (b : Bool) : WordWrite := writeState (engineer src) fun s => s.onDev (writeDisable s.tm n b)

/-- SLOT.CMD ADMIT (R128). -/
def actAdmit (src : Src) (g : Fin 512) : WordWrite := writeFields (engineer src) (admitSlot g)

/-- SLOT.CMD REFUSE (R128). -/
def actRefuse (src : Src) (g : Fin 512) : WordWrite := writeFields (engineer src) (refuseSlot g)

/-- SLOT.CMD RECAL (R128). -/
def actRecal (src : Src) (g : Fin 512) : WordWrite := writeState (engineer src) fun s => s.onDev (recalSlot s.tm g)

/-- SLOT.CMD CAL_SAVE (R127). -/
def actCalSave (src : Src) (g : Fin 512) : WordWrite := writeState (engineer src) fun s => s.onDev (saveCalibration s.nv g)

/-- SLOT.CMD IDENTIFY on, or off (Table 4-23). -/
def actIdentify (src : Src) (g : Fin 512) (on : Bool) : WordWrite := writeFields (engineer src) (sendCmd g (if on then 3 else 4))

/-- A write of SLOT.CAL_I or CAL_V (R126). -/
def actSlotCal (src : Src) (g : Fin 512) (voltage : Bool) (data : Word) : WordWrite :=
  writeFields (engineer src) (writeSlotCal g voltage data)

/-- A write of TBI.RAILBASE (R146). -/
def actBase (src : Src) (r : Fin 64) (base : BitVec 16) : WordWrite := writeFields (engineer src) (writeBase r base)

/-! ### Rails -/

/-- A command of RAIL.CMD below READY's level (Table 8-6, R229): a refusal is kept as the command's result. -/
def actRail (src : Src) (ok : Device → Bool) (least : Level) (r : Fin 64) (pos : Nat) (f : TimeBase → Device → Device) :
    WordWrite :=
  writeCommand ok fun s => s.onDev (railCommand src least r pos (f s.tm))

/-- OPERATE, in a life-cycle state in which rails run (Table 14-1). -/
def runsRails (src : Src) (d : Device) : Bool := may d src .operate && lifecycleRuns d

/-- RAIL.CMD ARM (R206). -/
def actArm (src : Src) (r : Fin 64) : WordWrite := actRail src (runsRails src) .operate r 0 fun tm => armRail tm r

/-- RAIL.CMD DISARM (R206). -/
def actDisarm (src : Src) (r : Fin 64) : WordWrite := actRail src (operate src) .operate r 0 fun tm => disarmRail tm r

/-- RAIL.CMD START (R206, R207). -/
def actStart (src : Src) (r : Fin 64) : WordWrite := actRail src (runsRails src) .operate r 0 fun tm => commandStart tm r

/-- RAIL.CMD STOP (R206). -/
def actStop (src : Src) (r : Fin 64) : WordWrite := actRail src (operate src) .operate r 0 fun tm => stopRail tm r

/-- RAIL.CMD SOFTSTOP (R206, R213). -/
def actSoftstop (src : Src) (r : Fin 64) : WordWrite := actRail src (operate src) .operate r 0 fun tm => softStop tm r

/-- The level that CLEAR needs: OPERATE from FAULT, else ENGINEER (Table 14-1, R229). -/
def clearLevel (r : Fin 64) (d : Device) : Level := if (d.rail r).state = .fault then .operate else .engineer

/-- RAIL.CMD CLEAR (R206, R229): the command's own operation checks its level. -/
def actClear (src : Src) (r : Fin 64) : WordWrite :=
  actRail src (fun d => may d src (clearLevel r d)) .operate r 0 fun tm => clearRail tm src r

/-- RAIL.CMD RETIRE (R219). -/
def actRetire (src : Src) (r : Fin 64) (pos : Fin 128) : WordWrite :=
  actRail src (engineer src) .engineer r pos.val fun tm => retirePhase tm r pos

/-- RAIL.CMD RESTORE (R220). -/
def actRestore (src : Src) (r : Fin 64) (pos : Fin 128) : WordWrite :=
  actRail src (engineer src) .engineer r pos.val fun tm => restorePhase tm r pos

/-- RAIL.CMD with an unlisted OP (R229). -/
def actRailBad (src : Src) (r : Fin 64) : WordWrite := actRail src (engineer src) .engineer r 0 fun _ => finishCmd r 0 .badOp

/-- A write of RAIL.VSET (R214). -/
def actVset (src : Src) (r : Fin 64) (data : Word) : WordWrite := writeFields (operate src) (writeVset r data)

/-- A write of RAIL.VNEXT (R213). -/
def actVnext (src : Src) (r : Fin 64) (data : Word) : WordWrite := writeFields (operate src) (writeVnext r data)

/-- A write of RAIL.WIN_LO or WIN_HI (R214). -/
def actWindow (src : Src) (r : Fin 64) (high : Bool) (data : Word) : WordWrite := writeFields (engineer src) (writeWindow r high data)

/-- A write of RAIL.TRIPPED (R221). -/
def actTripped (src : Src) (r : Fin 64) (i : Fin 4) (data : Word) : WordWrite := writeFields (engineer src) (clearTripped r i data)

/-! ### Loops, feed-forward and auto-tune -/

/-- LOOP.CTRL.CLEAR (Table 6-7). -/
def actLoopClear (src : Src) (r : Fin 64) : WordWrite := writeFields (engineer src) (clearLoop r)

/-- LE.CTRL.CLEAR (Table 6-13). -/
def actLeClear (src : Src) : WordWrite := writeFields (engineer src) clearEngine

/-- AT.CMD START (R194, R195): without the level or the life-cycle state it ends with DENIED. -/
def actAtStart (src : Src) (r : Fin 64) (loop : BitVec 1) (rule : BitVec 2) : WordWrite :=
  writeCommand (commissions src) fun s => s.onDev (byLevel src .none (startTune s.tm src r (decide (loop = 1)) rule))

/-- AT.CMD STOP (R198). -/
def actAtStop (src : Src) : WordWrite := writeState (engineer src) fun s => s.onDev (stopTune s.tm)

/-! ### The planner, partners and protection -/

/-- PLAN (R245), by the supervisor alone (R253). -/
def actPlan (e : Fin 128) (start : Word) : WordWrite := writeState (engineer .sup) fun s => s.onDev (planCommand s.tm e start)

/-- INVALIDATE (R238). -/
def actInvalidate (e : Fin 128) : WordWrite := writeState (engineer .sup) fun s => s.onDev (invalidateCommand s.tm e)

/-- SQUASH (R238). -/
def actSquash (e : Fin 128) (hint : BitVec 16) : WordWrite :=
  writeState (engineer .sup) fun s => s.onDev (squashCommand s.tm e hint.toNat)

/-- A write of HS.HEARTBEAT (R243): the transfers of the archive, which pause without the supervisor, go on (R16). -/
def actHeartbeat : WordWrite := writeState (engineer .sup) fun s => s.onDev fun d => bogPump s.tm (heartbeat s.tm d)

/-- PARTNER.OP EVICT (R267). -/
def actEvict (src : Src) (h : Fin 256) : WordWrite := writeState (engineer src) fun s => s.onDev (evictHandle s.tm h)

/-- PP.BUS.CTRL.RESTART (R278). -/
def actRestart (src : Src) (b : Bus) : WordWrite := writeFields (engineer src) (restartBus (busIdx b))

/-- A write of NBT, DBT or TDC (R257). -/
def actBitTiming (src : Src) (b : Bus) (which : Fin 3) (data : Word) : WordWrite :=
  writeFields (engineer src) (writeBitTiming (busIdx b) which data)

/-- A write of PM.LATCH (R288). -/
def actLatch (src : Src) (i : Fin 8) (data : Word) : WordWrite := writeFields (operate src) (clearLatches i data)

/-- PM FIRST_CLR (R309, Table 11-9). -/
def actFirst (src : Src) : WordWrite := writeFields (engineer src) clearFirst

/-! ### Store, recorder and archive -/

/-- A command of OCS.CMD without its privilege: it ends with DENIED, and leaves one in progress alone. -/
def storeDenied (d : Device) : Device :=
  if d.ocs.cmdBusy then { d with ocs := { d.ocs with result := StoreResult.denied.code } } else endStore .denied d

/-- OCS.CMD USER_READ (R377). -/
def actUserRead (src : Src) (block : Fin 128) : WordWrite :=
  writeCommand (observe src) fun s => s.onDev (byLevelOr src .observe storeDenied (storeCommand (userRead s.nv block)))

/-- Not in RETURN (R397). -/
def notReturned (d : Device) : Bool := decide (d.sg.lc ≠ .returned)

/-- OCS.CMD USER_WRITE (R377, R397). -/
def actUserWrite (src : Src) (block : Fin 128) : WordWrite :=
  writeCommand (fun d => engineer src d && notReturned d) fun s => s.onDev (byLevelOr src .engineer storeDenied fun d =>
    if notReturned d then storeCommand (userWrite s.nv block) d else storeDenied d)

/-- OCS.CMD PROTECT (R377, R397): the level depends on whether BP falls. -/
def actProtect (src : Src) (level : BitVec 2) : WordWrite :=
  writeCommand (fun d => may d src (protectLevel d level) && notReturned d) fun s =>
    s.onDev (byLevelOr src .engineer storeDenied fun d =>
      if notReturned d && may d src (protectLevel d level) then storeCommand (protectUser s.nv level) d else storeDenied d)

/-- OCS.CMD with an unlisted OP (R397). -/
def actOcsBad (src : Src) : WordWrite :=
  writeCommand (engineer src) fun s => s.onDev (byLevelOr src .engineer storeDenied fun d =>
    if d.ocs.cmdBusy then { d with ocs := { d.ocs with result := StoreResult.busy.code } } else endStore .badOp d)

/-- A command of ER.CMD from a source (R425): DENIED without the level, BUSY while another runs. -/
def erCommand (src : Src) (least : Level) (f : State → State) (s : State) : State :=
  let result (n : Byte) : State := s.onDev fun d => { d with er := { d.er with result := n } }
  if may s.dev src least then (if s.dev.er.busy then result 1 else f s)
  else if may s.dev src .none then result 2 else s

/-- ER.CMD TIME_SET (R404). -/
def actTimeSet (src : Src) : WordWrite :=
  writeCommand (operate src) (erCommand src .operate fun s =>
    let x := timeSet s.tm src s.dev
    { s with tm := x.1, dev := x.2 })

/-- ER.CMD CLEAR (R415). -/
def actErClear (src : Src) (areas : BitVec 4) : WordWrite :=
  writeCommand (fun d => may d src .custodian) (erCommand src .custodian fun s => s.onDev (startClear s.tm src areas))

/-- ER.CMD SELECT (R413). -/
def actSelect (src : Src) (areas : BitVec 4) : WordWrite :=
  writeCommand (observe src) (erCommand src .observe fun s => s.onDev (selectRecord s.nv areas))

/-- A command of BOG.CMD without its privilege (R425). -/
def bogDenied (d : Device) : Device := { d with bog := { d.bog with result := 2 } }

/-- A command of BOG.CMD (R425). -/
def actBog (src : Src) (least : Level) (f : TimeBase → NonVol → Device → Device) : WordWrite :=
  writeCommand (fun d => may d src least) fun s => s.onDev (byLevelOr src least bogDenied (f s.tm s.nv))

/-- BOG.CMD DISCOVER (R416). -/
def actDiscover (src : Src) : WordWrite := actBog src .engineer fun _ _ => bogDiscover

/-- BOG.CMD DETACH (R419). -/
def actDetach (src : Src) : WordWrite := actBog src .engineer bogDetach

/-- BOG.CMD FORMAT (R417). -/
def actFormat (src : Src) : WordWrite := actBog src .engineer fun _ _ => bogFormat

/-- BOG.CMD READ_BLOCK (R425). -/
def actReadBlock (src : Src) (block : BitVec 24) : WordWrite := actBog src .observe fun _ _ => bogReadBlock block.toNat

/-- BOG.CMD READ_CAPBUF (R425). -/
def actReadCapbuf (src : Src) (part : BitVec 24) : WordWrite := actBog src .observe fun _ _ => bogReadCapbuf part.toNat

/-- BOG.CMD with an unlisted OP (R425). -/
def actBogBad (src : Src) : WordWrite := actBog src .engineer fun _ _ => bogCommand (endBog 6)

/-- BOG.CAP ARM (R421). -/
def actCapArm (src : Src) : WordWrite := writeFields (engineer src) capArm

/-- BOG.CAP STOP (R421). -/
def actCapStop (src : Src) : WordWrite := writeFields (engineer src) capStop

/-- BOG.CAP TRIGGER (R421). -/
def actTrigger (src : Src) : WordWrite := writeState (engineer src) fun s => s.onDev (captureTrigger s.tm .host 0)

/-! ### The two-wire port -/

/-- TWP.CMD RECOVER (R343), with the recovery pulse after which SDA is high, if there is one. -/
def actRecover (src : Src) (freedAt : Option (Fin 9)) : WordWrite :=
  writeState (engineer src) fun s => s.onDev (recoverNow s.tm freedAt)

/-- TWP.CMD POLL_NOW (R339). -/
def actPollNow (src : Src) (e : Fin 32) : WordWrite := writeFields (engineer src) (pollNow e)

/-- A write of TWP.TIMING or TWP.TIMING2 (R329). -/
def actTwpTiming (src : Src) (second : Bool) (data : Word) : WordWrite :=
  writeFields (engineer src) fun d => d.onTwp (writeTiming second data)

end Sys2Proof.Machine
end

