-- ==== Sys2Proof/Machine/RegsWrite.lean ====
section
/-! DEFINITION. What a write of a word does (Table 0-4, the register tables of every chapter, Table 14-1). A write answers the
status bits of Table 12-4 that its own conditions set, and the next state. A field with an action of its own acts as its row does
(Acts.lean). The access itself (R9, R45, R48, R318) is in HostPort.lean. -/

namespace Sys2Proof.Machine

/-! ### SYS, CLK and power -/

/-- SYS (Tables 2-11 to 2-14). -/
def writeSys (src : Src) (a : Nat) (w : Word) : WordWrite :=
  let n := w.toNat
  if a = 0x05 then writeFields (operateEarly src) fun d => { d with sys := { d.sys with cause := w1c d.sys.cause w } }
  else if a = 0x08 then
    let ok (d : Device) : Bool := mayEarly d src .engineer
    if bits n 15 0 ≠ 0x5A3C then writeFields ok id
    else if bits n 17 16 = 0 then actResetWarm src
    else if bits n 17 16 = 1 then actResetSupervisor src
    else if bits n 17 16 = 2 then actResetQuadrant src (Fin.ofNat 4 (bits n 19 18))
    else writeFields ok id
  else writeNothing src

/-- CLK and power (Table 14-15). -/
def writeClk (src : Src) (a : Nat) (w : Word) : WordWrite :=
  let n := w.toNat
  let q : Fin 4 := Fin.ofNat 4 (bits n 9 8)
  if a = 0x120 then
    writeBoth
      (if bits n 1 0 = 1 then actPwrRun src
        else if bits n 1 0 = 2 then actPwrTrim src
        else if bits n 1 0 = 3 then actPwrStandby src
        else writeNothing src)
      (if bits n 11 10 = 1 then actQopQrun src q
        else if bits n 11 10 = 2 then actQopSmoulder src q
        else writeNothing src)
  else if a = 0x122 then writeFields (engineerEarly src) fun d => { d with pwr := { d.pwr with wakeA := w.getLsbD 0, wakeB := w.getLsbD 1 } }
  else writeNothing src

/-! ### SG and FW -/

/-- SG.PORT[p] from its own port (Table 14-11); from another source a write has no effect (R370). -/
def writePortRegs (src : Src) (p : Port) (off : Nat) (w : Word) : WordWrite :=
  let n := w.toNat
  let mine (d : Device) : Bool := decide (src = .port p) && mayEarly d src .none
  if src ≠ .port p then writeDenied
  else if off = 0 then
    if bits n 1 0 = 1 then actOpen src p (BitVec.ofNat 2 (bits n 9 8))
    else if bits n 1 0 = 2 then actProve src p
    else if bits n 1 0 = 3 then actClose src p
    else writeFields mine id
  else if off = 26 then writeFields mine fun d => d.onSession p fun s => { s with idle := BitVec.ofNat 12 (bits n 11 0) }
  else if 10 ≤ off ∧ off ≤ 17 then
    writeFields mine fun d => d.onSession p fun s => { s with resp := bankSet s.resp (Fin.ofNat 8 (off - 10)) w }
  else writeFields mine id

/-- SG.LC_CMD (Table 14-13): a state that does not exist is BAD_OP. -/
def writeLife (src : Src) (n : Nat) : WordWrite :=
  if bits n 31 16 ≠ 0xC3A5 then writeNothing src
  else if bits n 2 0 = 0 then actLife src .blank
  else if bits n 2 0 = 1 then actLife src .commission
  else if bits n 2 0 = 2 then actLife src .service
  else if bits n 2 0 = 3 then actLife src .maintain
  else if bits n 2 0 = 4 then actLife src .retired
  else if bits n 2 0 = 5 then actLife src .returned
  else writeFields (engineerEarly src) (endGuard .badOp)

/-- The SG window (Tables 14-11 to 14-14). -/
def writeGuard (src : Src) (a : Nat) (w : Word) : WordWrite :=
  let n := w.toNat
  let custodian (d : Device) : Bool := mayEarly d src .custodian
  if a < 0x220 then writePortRegs src .spi (a % 32) w
  else if a < 0x240 then writePortRegs src .twoWire (a % 32) w
  else if a < 0x260 then writePortRegs src .debug (a % 32) w
  else if a = 0x263 then writeLife src n
  else if a = 0x264 then actKey src (BitVec.ofNat 3 (bits n 2 0))
  else if a = 0x265 then writeFields custodian fun d => { d with sg := { d.sg with kcv := w } }
  else if 0x270 ≤ a ∧ a ≤ 0x277 then
    writeFields custodian fun d => { d with sg := { d.sg with keydata := bankSet d.sg.keydata (Fin.ofNat 8 (a - 0x270)) w } }
  else if a = 0x27C then
    writeFields (operateEarly src) fun d => { d with sg := { d.sg with intStatus := w1c d.sg.intStatus w } }
  else if a = 0x27D then
    writeFields (engineerEarly src) fun d => { d with sg := { d.sg with intEnable := w.setWidth 6 } }
  else writeNothing src

/-- FW (Tables 14-16, 14-17). Table 14-17 says of DATA_ADDR only that it is a multiple of 4: the two low bits of another value are
dropped (DESIGN CHOICE, assumption 110). -/
def writeFw (src : Src) (a : Nat) (w : Word) : WordWrite :=
  let n := w.toNat
  let slot : Fin 2 := Fin.ofNat 2 (bits n 3 3)
  if a = 0x300 then
    if bits n 2 0 = 1 then actFw src fun _ => fwEraseStart slot
    else if bits n 2 0 = 2 then actFw src fun _ => fwSealStart slot
    else if bits n 2 0 = 3 then actFw src fun tm => fwSwitch tm slot
    else if bits n 2 0 = 4 then actFw src fwConfirm
    else if bits n 2 0 = 5 then actFw src fwRollback
    else actFwBad src
  else if a = 0x30A then writeFields (commissionsEarly src) fun d => { d with fw := { d.fw with dataAddr := BitVec.ofNat 20 (bits n 19 2 * 4) } }
  else if a = 0x30B then actFwData src w
  else if a = 0x30C then writeFields (engineerEarly src) fun d => { d with fw := { d.fw with trialTime := w.setWidth 16 } }
  else writeNothing src

/-! ### HSP and IMG -/

/-- HSP (Tables 12-9 to 12-12). -/
def writeHsp (src : Src) (a : Nat) (w : Word) : WordWrite :=
  let observe (d : Device) : Bool := mayEarly d src .observe
  if a = 0x405 then writeFields observe fun d => { d with hsp := { d.hsp with irqMask := w.setWidth 17 &&& 0x10FFF } }
  else if a = 0x406 then
    writeFields (operateEarly src) fun d => { d with hsp := { d.hsp with evt := w1c d.hsp.evt w } }
  else if a = 0x407 then writeFields observe fun d => { d with hsp := { d.hsp with evtEn := w.setWidth 5 } }
  else if a = 0x408 then
    match src with
    | .port p => abortBlind p (w.setWidth 8) (byte (bits w.toNat 15 8))
    | .sup => fun s => (0, s)
  else writeNothing src

/-- IMG (Tables 3-17 to 3-25). -/
def writeImg (src : Src) (a : Nat) (w : Word) : WordWrite :=
  let n := w.toNat
  let slot : Fin 2 := Fin.ofNat 2 (bits n 4 4)
  if a = 0x800 then
    if bits n 3 0 = 1 then actImg src fun _ nv => eraseImage nv slot
    else if bits n 3 0 = 2 then actImg src fun _ _ => sealImage slot
    else if bits n 3 0 = 3 then actImg src fun _ _ => openImage slot
    else if bits n 3 0 = 4 then actImg src fun _ nv => applySection nv (byte (bits n 15 8)) (byte (bits n 23 16))
    else if bits n 3 0 = 5 then actImg src confirmImage
    else if bits n 3 0 = 6 then actImg src rollbackImage
    else actImgBad src
  else if a = 0x80C then writeFields (commissions src) fun d => { d with img := { d.img with dataAddr := BitVec.ofNat 16 (bits n 15 2 * 4) } }
  else if a = 0x80D then actImgData src w
  else writeNothing src

/-! ### Lanes and slots -/

/-- LANE[n] (Tables 4-16 to 4-20). A slot that is FOUND when AUTO_ADMIT is written 1 stays so: it is admitted by ADMIT, or when the
supervisor comes back (DESIGN CHOICE, assumption 109). -/
def writeLane (src : Src) (n : Fin 64) (off : Nat) (w : Word) : WordWrite :=
  if off = 1 then
    writeBoth
      (fun s => writeFields (engineer src) (fun d => writeDisable s.tm n (w.getLsbD 2)
        (d.onLane n fun l => { l with autoAdmit := w.getLsbD 1, errLimit := byte (bits w.toNat 15 8) })) s)
      (writeIf (w.getLsbD 0) (actRetrain src n))
  else if off = 12 then
    writeFields (operate src) fun d => d.onLane n fun l => { l with intStatus := w1c l.intStatus w }
  else if off = 13 then writeFields (engineer src) fun d => d.onLane n fun l => { l with intEnable := w.setWidth 5 }
  else writeFields (engineer src) id

/-- SLOT[g] (Tables 4-22 and 4-23). -/
def writeSlot (src : Src) (g : Fin 512) (off : Nat) (w : Word) : WordWrite :=
  if off = 3 then actSlotCal src g false w
  else if off = 4 then actSlotCal src g true w
  else if off = 5 then
    let op := bits w.toNat 3 0
    if op = 1 then actAdmit src g
    else if op = 2 then actRefuse src g
    else if op = 3 then actRecal src g
    else if op = 4 then actCalSave src g
    else if op = 5 then actIdentify src g true
    else if op = 6 then actIdentify src g false
    else writeFields (engineer src) id
  else writeFields (engineer src) id

/-! ### TBI -/

/-- FG_ROFS is taken modulo P + H (Table 5-8). -/
def writeRofs (g : Fin 8) (w : Word) (d : Device) : Device :=
  let p := groupPeriod d g
  d.onCarrier g fun c => { c with rofs := BitVec.ofNat 16 (bits w.toNat 15 0 % (p + stretchOf p)) }

/-- TBI (Tables 5-5 to 5-9). -/
def writeTbi (src : Src) (a : Nat) (w : Word) : WordWrite :=
  let n := w.toNat
  if a = 0x3002 then writeFields (engineer src) fun d => { d with tbi := { d.tbi with
    handover := BitVec.ofNat 5 (bits n 4 0), minPulse := byte (bits n 15 8), ringlock := byte (bits n 23 16) } }
  else if a = 0x3004 then
    writeFields (engineer src) fun d => { d with tbi := { d.tbi with ring := { d.tbi.ring with syncDelay := w.setWidth 20 } } }
  else match within a 0x3018 8 with
    | some g => writeFields (engineer src) (writeRofs g w)
    | none => match within a 0x3080 64 with
      | some r => actBase src r (w.setWidth 16)
      | none => writeFields (engineer src) id

/-! ### Rails -/

/-- RAIL.CMD (Table 8-6, R229): ARM and START also need a life-cycle state (Table 14-1). -/
def writeRailCmd (src : Src) (r : Fin 64) (n : Nat) : WordWrite :=
  let op := bits n 3 0
  let pos : Fin 128 := Fin.ofNat 128 (bits n 14 8)
  if op = 1 then actArm src r
  else if op = 2 then actDisarm src r
  else if op = 3 then actStart src r
  else if op = 4 then actStop src r
  else if op = 5 then actSoftstop src r
  else if op = 6 then actClear src r
  else if op = 7 then actRetire src r pos
  else if op = 8 then actRestore src r pos
  else actRailBad src r

/-- RAIL.CTRL (Table 8-10): with RETAKE the slots returned under R133 become available (R220). -/
def writeRailCtrl (r : Fin 64) (w : Word) (d : Device) : Device :=
  let d := d.onRail r fun x => { x with cfg := { x.cfg with retake := w.getLsbD 0, kindleEn := w.getLsbD 1, shedEn := w.getLsbD 2 } }
  if w.getLsbD 0 then (railPhases d r).foldl (fun d g => d.onSlot g fun s => { s with heldBack := false }) d else d

/-- RAIL[r] (Tables 8-5 to 8-12). -/
def writeRail (src : Src) (r : Fin 64) (off : Nat) (w : Word) : WordWrite :=
  let n := w.toNat
  let cfg (f : RailCfg → RailCfg) : WordWrite := writeFields (engineer src) fun d => d.onRail r fun x => { x with cfg := f x.cfg }
  if off = 1 then writeRailCmd src r n
  else if off = 3 then actVset src r w
  else if off = 4 then actVnext src r w
  else if off = 5 then actWindow src r false w
  else if off = 6 then actWindow src r true w
  else if off = 9 then cfg fun c => { c with vreqEn := w.getLsbD 0, reqTtl := byte (bits n 15 8) }
  else if off = 13 then cfg fun c => { c with vinRatio := w.setWidth 16 }
  else if off = 14 then cfg fun c => { c with
    pgWin := w.setWidth 16, pgCount := BitVec.ofNat 4 (bits n 19 16), holdMax := BitVec.ofNat 12 (bits n 31 20) }
  else if off = 15 then cfg fun c => { c with
    rampMax := BitVec.ofNat 12 (bits n 11 0), retryMax := BitVec.ofNat 4 (bits n 15 12), retryDelay := BitVec.ofNat 12 (bits n 27 16) }
  else if off = 16 then writeFields (engineer src) (writeRailCtrl r w)
  else if off = 30 then writeFields (engineer src) fun d => d.onRail r fun x => { x with intStatus := w1c x.intStatus w }
  else if off = 31 then writeFields (engineer src) fun d => d.onRail r fun x => { x with intEnable := w.setWidth 7 }
  else match within off 25 4 with
    | some i => actTripped src r i w
    | none => writeFields (engineer src) id

/-! ### LOOP, LE, FF and AT -/

/-- A committed coefficient (R180): with the mantissa held for it, or the shift alone (R9). -/
def writeShift (src : Src) (r : Fin 64) (outer : Bool) (k : Fin 8) (low : Option Word) (w : Word) : WordWrite := fun s =>
  writeFields (commissions src) (writeCoef s.tm r outer k low (w.setWidth 8)) s

/-- LOOP[r] (Tables 6-7 to 6-11). The mantissas are low words, which the access holds (R9). -/
def writeLoop (src : Src) (r : Fin 64) (off : Nat) (low : Option Word) (w : Word) : WordWrite :=
  if off = 0 then
    writeBoth (writeFields (engineer src) fun d => d.onLoop r fun l => { l with useInexact := w.getLsbD 1 })
      (writeIf (w.getLsbD 0) (actLoopClear src r))
  else if off = 6 then
    writeFields (operate src) fun d => d.onLoop r fun l => { l with intStatus := w1c l.intStatus w }
  else if off = 7 then writeFields (engineer src) fun d => d.onLoop r fun l => { l with intEnable := w.setWidth 5 }
  else if 0x10 ≤ off ∧ off < 0x30 then
    if off % 2 = 1 then writeShift src r (decide (off < 0x20)) (Fin.ofNat 8 (off % 16 / 2)) low w
    else writeFields (commissions src) id
  else writeFields (engineer src) id

/-- LE and FF (Tables 6-12, 6-13, 7-6). -/
def writeEngine (src : Src) (a : Nat) (w : Word) : WordWrite :=
  let n := w.toNat
  let ff (r : Fin 64) (f : FeedFwd → FeedFwd) : WordWrite :=
    writeFields (engineer src) fun d => { d with le := { d.le with ffs := bankUpd d.le.ffs r f } }
  if a = 0x6005 then (if w.getLsbD 0 then actLeClear src else writeFields (engineer src) id)
  else if a = 0x6008 then
    writeFields (engineer src) fun d => { d with le := { d.le with ovrRails := d.le.ovrRails &&& ~~~(w.setWidth 64) } }
  else if a = 0x6009 then
    writeFields (engineer src) fun d => { d with le := { d.le with ovrRails := d.le.ovrRails &&& ~~~(w.setWidth 64 <<< 32) } }
  else match within a 0x6100 256 with
    | some i =>
      let r : Fin 64 := Fin.ofNat 64 (i.val / 4)
      if i.val % 4 = 0 then ff r fun x => { x with accLead := BitVec.ofNat 11 (min 2000 (bits n 10 0)) }
      else if i.val % 4 = 1 then ff r fun x => { x with vinLo := w.setWidth 20 }
      else if i.val % 4 = 2 then ff r fun x => { x with vinHi := w.setWidth 20 }
      else writeFields (engineer src) id
    | none => writeFields (engineer src) id

/-- AT (Tables 7-7, 7-8). -/
def writeTune (src : Src) (a : Nat) (w : Word) : WordWrite :=
  let n := w.toNat
  let set (f : Tune → Tune) : WordWrite := writeFields (engineer src) fun d => { d with tune := f d.tune }
  if a = 0x6800 then
    if bits n 1 0 = 1 then
      actAtStart src (Fin.ofNat 64 (bits n 13 8)) (BitVec.ofNat 1 (bits n 16 16)) (BitVec.ofNat 2 (bits n 18 17))
    else if bits n 1 0 = 2 then actAtStop src
    else writeFields (engineer src) id
  else if a = 0x6801 then set fun t => { t with h := w.setWidth 16, eps := BitVec.ofNat 16 (bits n 31 16) }
  else if a = 0x6802 then set fun t => { t with
    devMax := w.setWidth 16, settle := BitVec.ofNat 4 (bits n 19 16), cycles := BitVec.ofNat 4 (bits n 23 20) }
  else if a = 0x6803 then set fun t => { t with halfMax := w.setWidth 16, runMax := BitVec.ofNat 16 (bits n 31 16) }
  else writeFields (engineer src) id

/-! ### HS, PARTNER and PP -/

/-- HS (Tables 9-11 and 9-12): the planning registers take writes from the supervisor alone (R253). -/
def writeHearth (src : Src) (a : Nat) (w : Word) : WordWrite := fun s =>
  let n := w.toNat
  let set (f : Hearth → Hearth) : WordWrite := writeFields (engineer src) fun d => { d with hs := f d.hs }
  let plan : WordWrite :=
    if src ≠ .sup then writeDenied
    else if a = 0x7010 then set fun h => { h with planStart := w }
    else if a = 0x7011 then
      let e : Fin 128 := Fin.ofNat 128 (bits n 14 8)
      if bits n 1 0 = 1 then actPlan e s.dev.hs.planStart
      else if bits n 1 0 = 2 then actInvalidate e
      else if bits n 1 0 = 3 then actSquash e (BitVec.ofNat 16 (bits n 31 16))
      else writeNothing src
    else if a = 0x7013 then actHeartbeat
    else writeNothing src
  (if a = 0x7002 then set fun h => { h with commitLead := byte (bits n 7 0), baseWin := byte (bits n 15 8) }
  else if a = 0x7003 then set fun h => { h with margin := w }
  else if a = 0x7004 then set fun h => { h with storPmax := w }
  else if a = 0x700B then
    writeFields (operate src) fun d => { d with hs := { d.hs with intStatus := w1c d.hs.intStatus w } }
  else if a = 0x700C then set fun h => { h with intEnable := w.setWidth 7 }
  else if a = 0x700D then set fun h => { h with binSel := w.setWidth 11 }
  else if 0x7010 ≤ a ∧ a ≤ 0x7013 then plan
  else if a = 0x7018 then set fun h => { h with segEntry := BitVec.ofNat 7 (bits n 6 0), seg := BitVec.ofNat 3 (bits n 10 8) }
  else writeFields (engineer src) id) s

/-- PARTNER[h] (Table 10-14). -/
def writePartner (src : Src) (h : Fin 256) (off : Nat) (w : Word) : WordWrite :=
  if off = 5 ∧ bits w.toNat 3 0 = 1 then actEvict src h else writeFields (engineer src) id

/-- PP (Tables 10-9 to 10-12). -/
def writePorts (src : Src) (a : Nat) (w : Word) : WordWrite :=
  let n := w.toNat
  let set (f : Ports → Ports) : WordWrite := writeFields (engineer src) fun d => { d with pp := f d.pp }
  if a = 0x8000 then writeFields (engineer src) fun d => autoRecover { d with pp := { d.pp with
    node := BitVec.ofNat 4 (bits n 3 0), both := w.getLsbD 4, autoRecover := w.getLsbD 5, maxOpen := BitVec.ofNat 4 (bits n 11 8) } }
  else if a = 0x8002 then set fun p => { p with lease := w.setWidth 16, holdoff := BitVec.ofNat 16 (bits n 31 16) }
  else if a = 0x8004 then set fun p => { p with intStatus := w1c p.intStatus w }
  else if a = 0x8005 then set fun p => { p with intEnable := w.setWidth 9 }
  else match within a 0x8010 32 with
    | some i =>
      let b : Bus := if i.val < 16 then .a else .b
      let off := i.val % 16
      if off = 0 then writeFields (engineer src) (writeBusCtrl (busIdx b) w)
      else if off = 1 then actBitTiming src b 0 w
      else if off = 2 then actBitTiming src b 1 w
      else if off = 3 then actBitTiming src b 2 w
      else writeFields (engineer src) id
    | none => writeFields (engineer src) id

/-! ### PM and HKT -/

/-- PM (Tables 11-7 to 11-10). -/
def writeProtect (src : Src) (a : Nat) (w : Word) : WordWrite :=
  let n := w.toNat
  let set (ok : Device → Bool) (f : Protect → Protect) : WordWrite := writeFields ok fun d => { d with pm := f d.pm }
  let four (i : Nat) : BitVec 4 := BitVec.ofNat 4 (bits n (i + 3) i)
  if a = 0x8401 then set (engineer src) fun p => { p with
    phOcPct := byte (bits n 7 0), railOcPct := byte (bits n 15 8), fCount := four 16, ocCount := four 20,
    vCount := four 24, vsCount := four 28 }
  else if a = 0x8402 then set (engineer src) fun p => { p with fltMode := byte (bits n 7 0), fltForce := byte (bits n 15 8) }
  else if a = 0x8403 then set (operate src) fun p => { p with intStatus := w1c p.intStatus w }
  else if a = 0x8404 then set (engineer src) fun p => { p with intEnable := w.setWidth 3 }
  else if a = 0x8405 then (if w.getLsbD 31 then actFirst src else writeFields (engineer src) id)
  else match within a 0x8418 8 with
    | some i => actLatch src i w
    | none => writeFields (engineer src) id

/-- HKT (Tables 11-12 and 11-13). -/
def writeHousekeeping (src : Src) (a : Nat) (w : Word) : WordWrite :=
  let n := w.toNat
  let set (f : Housekeeping → Housekeeping) : WordWrite := writeFields (engineer src) fun d => { d with hkt := f d.hkt }
  let thm (i : Fin 4) (f : Thermistor → Thermistor) : WordWrite := set fun h => { h with thms := bankUpd h.thms i f }
  if a = 0x8801 then set fun h => { h with
    steps := BitVec.ofNat 4 (bits n 3 0), stepPct := byte (bits n 11 4), stepRounds := byte (bits n 19 12),
    relaxRounds := byte (bits n 27 20) }
  else if a = 0x8802 then set fun h => { h with xdev := w.setWidth 12 }
  else if a = 0x8804 then
    writeFields (operate src) fun d => { d with hkt := { d.hkt with intStatus := w1c d.hkt.intStatus w } }
  else if a = 0x8805 then set fun h => { h with intEnable := w.setWidth 8 }
  else match within a 0x8810 12 with
    | some i =>
      let k : Fin 4 := Fin.ofNat 4 i.val
      if i.val < 4 then thm k fun t => { t with r25 := w }
      else if i.val < 8 then thm k fun t => { t with rb := w }
      else thm k fun t => { t with beta := w.setWidth 16 }
    | none => writeFields (engineer src) id

/-! ### OCS, ER, BOG and TWP -/

/-- OCS (Tables 15-9 to 15-11). -/
def writeStore (src : Src) (a : Nat) (w : Word) : WordWrite :=
  let n := w.toNat
  let block : Fin 128 := Fin.ofNat 128 (bits n 14 8)
  let bp : BitVec 2 := BitVec.ofNat 2 (bits n 5 4)
  if a = 0x9001 then
    if bits n 3 0 = 1 then actUserRead src block
    else if bits n 3 0 = 2 then actUserWrite src block
    else if bits n 3 0 = 3 then actProtect src bp
    else actOcsBad src
  else if a = 0x9007 then
    writeFields (operate src) fun d => { d with ocs := { d.ocs with intStatus := w1c d.ocs.intStatus w } }
  else if a = 0x9008 then writeFields (engineer src) fun d => { d with ocs := { d.ocs with intEnable := w.setWidth 4 } }
  else match within a 0x9040 56 with
    | some i => writeFields (engineer src) fun d => { d with ocs := { d.ocs with ubuf := bankSet d.ocs.ubuf i w } }
    | none => writeFields (engineer src) id

/-- ER.TIME_NEW: both words together, or the high word alone (R9). -/
def writeTimeNew (low : Option Word) (w : Word) (d : Device) : Device :=
  let lo : Word := match low with | some x => x | none => d.er.timeNew.setWidth 32
  { d with er := { d.er with timeNew := (w.setWidth 16 ++ lo) } }

/-- ER (Table 16-7). -/
def writeRecorder (src : Src) (a : Nat) (low : Option Word) (w : Word) : WordWrite :=
  let n := w.toNat
  let areas : BitVec 4 := BitVec.ofNat 4 (bits n 11 8)
  if a = 0x9408 then writeFields (operate src) id
  else if a = 0x9409 then writeFields (operate src) (writeTimeNew low w)
  else if a = 0x940A then
    if bits n 1 0 = 1 then actTimeSet src
    else if bits n 1 0 = 2 then actErClear src areas
    else if bits n 1 0 = 3 then actSelect src areas
    else writeFields (engineer src) id
  else if a = 0x940C then writeFields (observe src) fun d => { d with er := { d.er with sel := w } }
  else if a = 0x9418 then writeFields (operate src) fun d => { d with er := { d.er with intStatus := w1c d.er.intStatus w } }
  else if a = 0x9419 then writeFields (engineer src) fun d => { d with er := { d.er with intEnable := w.setWidth 4 } }
  else writeFields (engineer src) id

/-- BOG (Tables 16-8 to 16-10). -/
def writeBog (src : Src) (a : Nat) (w : Word) : WordWrite :=
  let n := w.toNat
  let bog (f : Bog → Bog) : WordWrite := writeFields (engineer src) fun d => { d with bog := f d.bog }
  let cap (f : Capture → Capture) : WordWrite := writeFields (engineer src) (capConfigure f)
  let arg : BitVec 24 := BitVec.ofNat 24 (bits n 31 8)
  if a = 0x9801 then
    if bits n 2 0 = 1 then actDiscover src
    else if bits n 2 0 = 2 then actDetach src
    else if bits n 2 0 = 3 then actFormat src
    else if bits n 2 0 = 4 then actReadBlock src arg
    else if bits n 2 0 = 5 then actReadCapbuf src arg
    else actBogBad src
  else if a = 0x9802 then bog fun b => { b with
    logPct := BitVec.ofNat 7 (bits n 6 0), autoformat := w.getLsbD 7, flush := byte (bits n 15 8) }
  else if a = 0x980B then
    writeFields (operate src) fun d => { d with bog := { d.bog with intStatus := w1c d.bog.intStatus w } }
  else if a = 0x980C then bog fun b => { b with intEnable := w.setWidth 5 }
  else if a = 0x9810 then
    writeBoth
      (cap fun c => { c with tPm := w.getLsbD 4, tRail := w.getLsbD 5, tTsd := w.getLsbD 6, autoRearm := w.getLsbD 7 })
      (if bits n 1 0 = 1 then actCapArm src
        else if bits n 1 0 = 2 then actCapStop src
        else if bits n 1 0 = 3 then actTrigger src
        else writeNothing src)
  else if a = 0x9812 then cap fun c => { c with channels := BitVec.ofNat 5 (bits n 4 0), div := BitVec.ofNat 16 (bits n 31 16) }
  else if a = 0x9813 then cap fun c => { c with len := w.setWidth 16, pre := BitVec.ofNat 16 (bits n 31 16) }
  else match within a 0x9820 16 with
    | some i => cap fun c => { c with
        sources := bankSet c.sources i ⟨BitVec.ofNat 4 (bits n 3 0), BitVec.ofNat 9 (bits n 24 16)⟩ }
    | none => writeFields (engineer src) id

/-- TWP.CMD RECOVER as a register write: how SDA stands is free. -/
def writeRecover (src : Src) : WordWrite := fun s =>
  let x := drawSda s.dev
  actRecover src x.1.2 { s with dev := x.2 }

/-- TWP (Tables 13-5 to 13-7). -/
def writeTwp (src : Src) (a : Nat) (w : Word) : WordWrite :=
  let n := w.toNat
  let set (f : TwoWire → TwoWire) : WordWrite := writeFields (engineer src) fun d => d.onTwp f
  if a = 0xA000 then set fun t => { t with
    en := w.getLsbD 0, pecT := w.getLsbD 1, araEn := w.getLsbD 2, smbTo := w.getLsbD 3, pollEn := w.getLsbD 4,
    stretchMax := byte (bits n 15 8) }
  else if a = 0xA002 then actTwpTiming src false w
  else if a = 0xA003 then actTwpTiming src true w
  else if a = 0xA004 then set (writeOwnAddr w)
  else if a = 0xA005 then
    if bits n 2 0 = 1 then writeRecover src
    else if bits n 2 0 = 2 then actPollNow src (Fin.ofNat 32 (bits n 12 8))
    else writeFields (engineer src) id
  else if a = 0xA008 then
    writeFields (operate src) fun d => d.onTwp fun t => { t with intStatus := w1c t.intStatus w }
  else if a = 0xA009 then set fun t => { t with intEnable := w.setWidth 7 }
  else if a = 0xA00A then set fun t => { t with alertMask := w.setWidth 17 &&& 0x10FFF }
  else if a = 0xA00B then set fun t => { t with psel := w.setWidth 5 }
  else writeFields (engineer src) id

/-! ### The map (R319, Table 12-5) -/

/-- What a write of a defined word address does; `low` is the low word held for it (R9). -/
def writeWord (src : Src) (a : Nat) (low : Option Word) (w : Word) : WordWrite :=
  if a < 0x100 then writeSys src a w
  else if a < 0x200 then writeClk src a w
  else if a < 0x300 then writeGuard src a w
  else if a < 0x400 then writeFw src a w
  else if a < 0x800 then writeHsp src a w
  else if a < 0x1000 then writeImg src a w
  else if a < 0x1800 then writeLane src (Fin.ofNat 64 ((a - 0x1000) / 32)) (a % 32) w
  else if a < 0x2000 then writeFields (engineer src) id
  else if a < 0x3000 then writeSlot src (Fin.ofNat 512 ((a - 0x2000) / 8)) (a % 8) w
  else if a < 0x4000 then writeTbi src a w
  else if a < 0x4800 then writeRail src (Fin.ofNat 64 ((a - 0x4000) / 32)) (a % 32) w
  else if a < 0x5000 then writeFields (engineer src) id
  else if a < 0x6000 then writeLoop src (Fin.ofNat 64 ((a - 0x5000) / 64)) (a % 64) low w
  else if a < 0x6800 then writeEngine src a w
  else if a < 0x7000 then writeTune src a w
  else if a < 0x7800 then writeHearth src a w
  else if a < 0x8000 then writePartner src (Fin.ofNat 256 ((a - 0x7800) / 8)) (a % 8) w
  else if a < 0x8400 then writePorts src a w
  else if a < 0x8800 then writeProtect src a w
  else if a < 0x9000 then writeHousekeeping src a w
  else if a < 0x9400 then writeStore src a w
  else if a < 0x9800 then writeRecorder src a low w
  else if a < 0xA000 then writeBog src a w
  else writeTwp src a w

end Sys2Proof.Machine
end

