-- ==== Sys2Proof/Machine/HostPort.lean ====
section
/-! DEFINITION. Register accesses (spec 00_scope.md R6 to R9, 02_clocks_reset_crossings.md R45 and R48, 12_host_port.md R315 to
R320), the frames of the SPI port (R310 to R317), the two-wire target (13_two_wire_port.md R330 to R338) and the debug port's
accesses (14_security_lifecycle.md R359). -/

namespace Sys2Proof.Machine

/-! ### What an access of a word meets -/

/-- The low words of pairs that can be read (R9). -/
def pairLow (a : Nat) : Bool :=
  decide (a = 0x260) || decide (a = 0x3000) || decide (a = 0x9406) || decide (a = 0x9408)
    || decide (a = 0x6808) || decide (a = 0x680A) || decide (a = 0x680C)
    || (decide (0x1000 ≤ a ∧ a < 0x1800) && decide (a % 32 = 9))
    || (decide (0x5000 ≤ a ∧ a < 0x6000) && decide (0x10 ≤ a % 64 ∧ a % 64 < 0x30) && decide (a % 2 = 0))
    || (decide (0x9010 ≤ a ∧ a < 0x9030) && decide (a % 2 = 0))

/-- The low words of pairs that can be written: the coefficients and ER.TIME_NEW. -/
def pairWritable (a : Nat) : Bool :=
  pairLow a && (decide (0x5000 ≤ a ∧ a < 0x6000) || decide (a = 0x9408))

/-- The high words of pairs. -/
def pairHigh (a : Nat) : Bool := decide (0 < a) && pairLow (a - 1)

/-- The debug window (Table 12-5). -/
def inDebugWindow (a : Nat) : Bool := decide (0xF000 ≤ a)

/-- The level that a port needs to read a word (R318, Table 14-1): none in SYS, CLK, HSP and its own SG.PORT registers. -/
def readLevel (p : Port) (a : Nat) : Level :=
  if a < 0x200 ∨ (0x400 ≤ a ∧ a < 0x500) then .none
  else if 0x200 + 32 * (portIdx p).val ≤ a ∧ a < 0x220 + 32 * (portIdx p).val then .none
  else .observe

/-- The present word of a defined address. -/
def presentWord (s : State) (a : Nat) : Word := word ((readWord s a).getD 0)

/-- The pulses that a crossing group has merged show in CLK.XDROP as it is read (R41); groups 12 to 15 have none. -/
def countMerged (a : Nat) (d : Device) : Device :=
  match within a 0x110 12 with
  | some i =>
    let g : Fin 16 := Fin.ofNat 16 i.val
    { d with
      clk := { d.clk with xdrop := bankUpd d.clk.xdrop g fun x => { x with
        merged := satAdd x.merged (Config.pulsesMerged d.draws g).toNat } }
      draws := d.draws + 1 }
  | none => d

/-- A read of a word that nothing refuses (R9). -/
def readPaired (p : Port) (a : Addr) (hold : Hold) (s : State) : Word × State :=
  let n := a.toNat
  let s := s.onDev (countMerged n)
  let v : Word := match hold with
    | some (lo, w) => if pairHigh n ∧ lo.toNat + 1 = n then w else presentWord s n
    | none => presentWord s n
  let latch : Hold := if pairLow n then some (a, presentWord s (n + 1)) else none
  (v, s.onDev fun d => d.onPort p fun x => { x with readHold := latch })

/-- A write of a word in an accessible window (R9): the low word of a pair is held, the high word takes the low word held for
it. -/
def writePaired (p : Port) (a : Addr) (w : Word) (hold : Hold) (s : State) : Byte × State :=
  let n := a.toNat
  let low : Option Word := match hold with
    | some (lo, x) => if lo.toNat + 1 = n then some x else none
    | none => none
  let x := writeWord (.port p) n low w s
  if pairWritable n ∧ x.1 = 0 then (x.1, x.2.onDev fun d => d.onPort p fun y => { y with writeHold := some (a, w) }) else x

/-- A word written into the supervisor's memory, its addresses strictly rising. -/
def ramSet : List (Nat × Word) → Nat → Word → List (Nat × Word)
  | [], a, w => [(a, w)]
  | (k, v) :: t, a, w =>
    if a < k then (a, w) :: (k, v) :: t else if a = k then (a, w) :: t else (k, v) :: ramSet t a w

/-- A word of the supervisor's own memories: its data RAM is zero from the wipe until the supervisor starts (R38). -/
def supervisorOwn (d : Device) (a : Nat) : Word :=
  if d.fw.supReset && Config.supervisorRam (BitVec.ofNat 32 a) then 0 else Config.supervisorMemory d.draws (BitVec.ofNat 32 a)

/-- A word of the supervisor's memories: what the debug window has written, else its own (R359). -/
def supervisorWord (d : Device) (a : Nat) : Word :=
  match d.fw.supRam.find? fun x => decide (x.1 = a) with
  | some x => x.2
  | none => supervisorOwn d a

/-- A word access to the debug window, which the debug port alone has (R359): FULL writes. -/
def debugWindow (a : Nat) (w : Option Word) (s : State) : Word × Byte × State :=
  match w with
  | none => (supervisorOwn s.dev a, 0, s.onDev fun d => { d with draws := d.draws + 1 })
  | some _ => (0, if s.dev.sg.auth = .full then 0 else stDenied, s)

/-- A word of a defined address in an open window. -/
def definedWord (p : Port) (a : Addr) (w : Option Word) (holds : PortState) (s : State) : Word × Byte × State :=
  match w with
  | none =>
    if srcLevel s.dev (.port p) < (readLevel p a.toNat).rank then (0, stDenied, s) else
    let x := readPaired p a holds.readHold s
    (x.1, 0, x.2)
  | some w =>
    let x := writePaired p a w holds.writeHold s
    (0, x.1, x.2)

/-- What an access to a window does: nothing before it is open (R48, R279), and nothing yet while its clock is stopped (R45). -/
def throughWindow (win : Window) (f : State → Word × Byte × State) (s : State) : Option (Word × Byte × State) :=
  if win.shut s.tm s.dev then some (0, stNotReady, s)
  else if !win.runs s.dev then none
  else some (f s)

/-- One register access from a port (R316): the word read, the status bits and the next state; `none` where it hangs on a
stopped clock (R45). -/
def accessWord (p : Port) (a : Addr) (w : Option Word) (s : State) : Option (Word × Byte × State) :=
  let n := a.toNat
  let t := s.onDev fun d => touch s.tm (.port p) (settleAlert d)
  if inDebugWindow n then
    if p = .debug then throughWindow (accessWindow n) (debugWindow n w) t else throughWindow (accessWindow n) (fun t => (0, stDenied, t)) t
  else if (readWord s n).isNone then some (0, stAddr, t)
  else throughWindow (accessWindow n) (definedWord p a w (s.dev.port p)) t

/-! ### Accesses of several words (R316, R317, R320) -/

/-- The words of an access, as far as they go without hanging. A reset that a word causes ends the access. -/
def runWords (p : Port) : List (Addr × Option Word) → PendingAccess → State → PendingAccess × State
  | [], acc, s => (acc, s)
  | (a, w) :: rest, acc, s =>
    if (s.dev.port p).pending.isNone then (acc, s) else
    match accessWord p a w s with
    | none => ({ acc with todo := (a, w) :: rest }, s)
    | some x => runWords p rest { acc with
        got := if w.isNone then acc.got ++ [x.1] else acc.got
        status := acc.status ||| x.2.1 } (x.2.2.onDev (noteLast p a x.2.1))

/-- An access goes on: it is pending while its words are made, and ends or hangs. -/
def runAccess (p : Port) (acc : PendingAccess) (s : State) : State :=
  let acc0 := { acc with todo := [] }
  let x := runWords p acc.todo acc0 (s.onDev fun d => d.onPort p fun y => { y with pending := some acc0 })
  if (x.2.dev.port p).pending.isNone then x.2.onDev settleAlert
  else if x.1.todo.isEmpty then x.2.onDev fun d => settleAlert (finishAccess p x.1 d)
  else x.2.onDev fun d => settleAlert (d.onPort p fun y => { y with pending := some x.1 })

/-- The addresses of a burst (R311, R316). -/
def burstAddrs (fixed : Bool) (a : Addr) (n : Nat) : List Addr :=
  (List.range n).map fun i => if fixed then a else a + BitVec.ofNat 16 i

/-- The last address of some words. -/
def lastAddrOf (todo : List (Addr × Option Word)) : Addr := (todo.getLast?.map (·.1)).getD 0

/-- An access of a port starts. -/
def startAccess (p : Port) (write : Bool) (todo : List (Addr × Option Word)) (header : List Byte) (s : State) : State :=
  runAccess p ⟨write, todo, [], 0, header, srcLevel s.dev (.port p), false⟩ s

/-- A transaction that the two-wire target takes part in. -/
def targetStarts (d : Device) : Device := d.onTwp fun t => { t with busBusy := true, acked := true }

/-- Does the target acknowledge its own address: not while an access is pending (R335), nor while the device itself sends the
address byte of a poll (R330)? -/
def targetListens (d : Device) : Bool :=
  answers d && d.twp.en && (d.port .twoWire).pending.isNone && d.twp.polling.isNone

/-- Does a port take an access of one word: the two-wire target listens (R330); the others have no access pending, and the SPI
port holds no result (R317)? -/
def takesAccess (p : Port) (d : Device) : Bool :=
  reaches d (.port p) && (match p with
    | .spi => (d.port .spi).pending.isNone && d.hsp.held.isNone
    | .twoWire => targetListens d
    | .debug => (d.port .debug).pending.isNone)

/-- An access of one word that the port does not take: the two-wire target does not acknowledge its address, the other ports
answer BUSY (R317). -/
def turnedAway (p : Port) (d : Device) : Device :=
  if !reaches d (.port p) then d else
  match p with
  | .twoWire => if d.twp.en then d.onTwp fun t => { t with acked := false } else d
  | .spi | .debug => d.onPort p fun y => { y with data := 0, status := stBusy }

/-- What a port shows of an access of one word that begins: LAST_ADDR (R317), or the transaction that carries its pointer (R331,
R333). -/
def wordStarts (p : Port) (a : Addr) (write : Bool) (d : Device) : Device :=
  match p with
  | .spi => { d with hsp := { d.hsp with lastAddr := a, lastWrite := write } }
  | .twoWire => (targetStarts d).onTwp fun t => { t with pointer := a + 1, sent := if write then t.sent else [] }
  | .debug => d

/-- The bytes of a read transaction before its data (R334): a repeated START follows the pointer, and the data bytes that a
write left behind it. -/
def readHeader (own : BitVec 7) (pointer : Option Addr) (data : List Byte) : List Byte :=
  let w : Byte := byte (2 * own.toNat)
  match pointer with
  | some a => [w] ++ beBytes 2 a.toNat ++ data ++ [w + 1]
  | none => [w + 1]

/-- An access with one word that does not come out of a frame or a transaction of its own row. -/
def singleAccess (p : Port) (a : Addr) (w : Option Word) (s : State) : State :=
  if !takesAccess p s.dev then s.onDev (turnedAway p) else
  let header : List Byte := match p with
    | .twoWire => if w.isSome then [] else readHeader s.dev.twp.ownAddr (some a) []
    | .spi | .debug => []
  startAccess p w.isSome [(a, w)] header (s.onDev (wordStarts p a w.isSome))

/-! ### Writes that are commands with a row of their own -/

/-- The pending access of a write of one word. -/
def wordAccess (p : Port) (d : Device) : PendingAccess := ⟨true, [], [], 0, [], srcLevel d (.port p), false⟩

/-- A write of one word from a source begins: it is pending while its word is made (R317), it restarts its port's session time
and discards its holds. -/
def rowStarts (src : Src) (a : Addr) (s : State) : State :=
  match src with
  | .sup => s.onDev settleAlert
  | .port p => s.onDev fun d =>
    touch s.tm src (settleAlert ((wordStarts p a true d).onPort p fun y => { y with pending := some (wordAccess p d) }))

/-- A write of one word is over, with its status. -/
def rowEnds (src : Src) (a : Addr) (status : Byte) (d : Device) : Device :=
  settleAlert (match src with
    | .sup => d
    | .port p => finishAccess p { wordAccess p d with status := status } (noteLast p a status d))

/-- A write of one word hangs on a stopped clock (R45). -/
def rowHangs (src : Src) (a : Addr) (w : Word) (s : State) : State :=
  match src with
  | .sup => s.onDev fun d => { d with fw := { d.fw with hung := some (a, w) } }
  | .port p => (s.onDev (wordStarts p a true)).onDev fun d => settleAlert (d.onPort p fun y => { y with
      pending := some { wordAccess p d with todo := [(a, some w)] } })

/-- May a source's write of a word begin: the supervisor makes no other while one hangs (R45)? -/
def takesWrite (src : Src) (d : Device) : Bool :=
  match src with
  | .sup => d.fw.hung.isNone
  | .port p => takesAccess p d

/-- Is a window shut for a source? The supervisor's own accesses find every window open (R48). -/
def shutFor (src : Src) (win : Window) (s : State) : Bool :=
  match src with
  | .sup => false
  | .port _ => win.shut s.tm s.dev

/-- The write of a word that is a command with a row of its own: the access as any other makes it (R45, R48, R317, R335), and what
the write does where it reaches its register. -/
def rowWrite (src : Src) (a : Addr) (w : Word) (win : Window) (f : WordWrite) (s : State) : State :=
  if !takesWrite src s.dev then (match src with
    | .sup => s
    | .port p => s.onDev (turnedAway p))
  else if shutFor src win s then (rowStarts src a s).onDev (rowEnds src a stNotReady)
  else if !win.runs s.dev then rowHangs src a w s
  else
    let x := f (rowStarts src a s)
    x.2.onDev (rowEnds src a x.1)

/-- A write that resets the device: the reset ends the access with it. -/
def rowResets (src : Src) (a : Addr) (f : WordWrite) (s : State) : State :=
  if !takesWrite src s.dev then (match src with
    | .sup => s
    | .port p => s.onDev (turnedAway p))
  else
    let x := f (rowStarts src a s)
    if x.1 = 0 then x.2 else x.2.onDev (rowEnds src a x.1)

/-- A register write of the supervisor: it has no hold registers (R9), and its accesses stall no port (R320). -/
def supWrite (a : Addr) (w : Word) (s : State) : State :=
  if s.dev.fw.hung.isSome ∨ (readWord s a.toNat).isNone then s
  else if !(accessWindow a.toNat).runs s.dev then rowHangs .sup a w s
  else ((writeWord .sup a.toNat none w (rowStarts .sup a s)).2).onDev settleAlert

/-- The write of the supervisor that hangs goes on once the clock that it waits for runs (R45). -/
def resumeSup (s : State) : State :=
  match s.dev.fw.hung with
  | none => s
  | some (a, w) =>
    if (accessWindow a.toNat).runs s.dev then supWrite a w (s.onDev fun d => { d with fw := { d.fw with hung := none } }) else s

/-! ### What becomes of an access that hangs -/

/-- A pending access goes on with the level that it started with (R353). -/
def withLevel (p : Port) (rank : Nat) (f : State → State) (s : State) : State :=
  let now := s.dev.session p
  let put (st : SessionState) (l : BitVec 2) (s : State) : State :=
    s.onDev fun d => { d with sg := { d.sg with ports := bankUpd d.sg.ports (portIdx p) fun x => { x with state := st, level := l } } }
  if srcLevel s.dev (.port p) = rank then f s else
  let t := if rank = 0 then put .closed 0 s else put .opened (BitVec.ofNat 2 (rank - 1)) s
  put now.state now.level (f t)

/-- A pending access goes on once the clock that its next word waits for runs (R45). -/
def resumeAccess (p : Port) (s : State) : State :=
  match (s.dev.port p).pending with
  | none => s
  | some acc => withLevel p acc.level (runAccess p acc) s

/-- The internal fault of a bus timeout (R28): the block that it names is free (assumption 1). -/
def busFault (s : State) : State :=
  let nibble := (Config.faultBlock s.dev.draws).toNat
  s.onDev fun d => raiseFault s.tm 5 nibble (Config.faultDetail 5 nibble).toNat { d with draws := d.draws + 1 }

/-- The bus timeout of an access from a port (R45): its word reads zero, with TIMEOUT. A pending access whose clock runs again
makes its other words. On a window with a stopped clock the timeout never fires. -/
def portTimesOut (p : Port) (s : State) : State :=
  match (s.dev.port p).pending with
  | none => (busFault s).onDev fun d =>
    let d := noteLast p d.twp.lastAddr stTimeout ((touch s.tm (.port p) d).onPort p fun y => { y with data := 0, status := stTimeout })
    match p with
    | .spi => { d with hsp := { d.hsp with lastStatus := stTimeout } }
    | .twoWire | .debug => d
  | some acc =>
    match acc.todo with
    | [] => s
    | (a, w) :: rest =>
      if !(accessWindow a.toNat).runs s.dev then s else
      let acc := { acc with
        todo := rest
        got := if w.isNone then acc.got ++ [0] else acc.got
        status := acc.status ||| stTimeout }
      withLevel p acc.level (runAccess p acc) ((busFault s).onDev (noteLast p a stTimeout))

/-- The bus timeout of an access of the supervisor: a write that hangs and whose clock runs again is dropped. -/
def supTimesOut (s : State) : State :=
  match s.dev.fw.hung with
  | none => busFault s
  | some (a, _) =>
    if !(accessWindow a.toNat).runs s.dev then s else busFault (s.onDev fun d => { d with fw := { d.fw with hung := none } })

/-! ### Frames of the SPI port -/

/-- The first byte of a frame on MISO (R314). -/
def pstatOf (d : Device) : Byte :=
  byte (pack [(0, bit (decide (d.sys.step = .ready))), (1, bit (irqLow d)), (2, bit (d.port .spi).pending.isSome),
    (3, bit (sessionOpen d .spi)), (4, bit d.hsp.lastErr)])

/-- CS_N has risen on an access whose frame was still being clocked (R317, R320). -/
def cutStalled (d : Device) : Device :=
  match (d.port .spi).pending with
  | some acc =>
    if acc.cut ∨ acc.header.isEmpty then d else
    let d := d.onPort .spi fun y => { y with pending := some { acc with cut := true } }
    { d with hsp := { d.hsp with cuts := d.hsp.cuts + 1, lastErr := true } }
  | none => d

/-- A frame starts: an earlier one that was still being clocked has ended. -/
def hostFrameStarts (d : Device) : Device :=
  let d := cutStalled d
  { d with hsp := { d.hsp with pstat := pstatOf d, response := none } }

/-- A frame that ended well, and what it sent after the token. -/
def frameAnswers (r : Response) (d : Device) : Device := { d with hsp := { d.hsp with response := some r, lastErr := false } }

/-- HCRC failed (R313). -/
def crcFails (header body : List Byte) (d : Device) : Device :=
  let d := { d with hsp := { d.hsp with crcErrs := d.hsp.crcErrs + 1, evt := setBit d.hsp.evt 4 } }
  frameAnswers (responseOf header body stCrc) d

/-- A malformed header (R312). -/
def malformed (d : Device) : Device :=
  { d with hsp := { d.hsp with badCmds := d.hsp.badCmds + 1, lastErr := true } }

/-- The header bytes of an access (Table 12-1). -/
def accessHeader : HostAccess → List Byte
  | .read fixed a len => [if fixed then 0x11 else 0x01] ++ beBytes 2 a.toNat ++ [len]
  | .write fixed a data => [if fixed then 0x12 else 0x02] ++ beBytes 2 a.toNat ++ [BitVec.ofNat 8 data.length]

/-- LEN of an access. -/
def accessLen : HostAccess → Nat
  | .read _ _ len => len.toNat
  | .write _ _ data => data.length

/-- The bytes that HCRC covers (R313). -/
def accessBytes : HostAccess → List Byte
  | .read fixed a len => accessHeader (.read fixed a len)
  | .write fixed a data => accessHeader (.write fixed a data) ++ wordBytes data

/-- The zero words that a READ answers with where it makes no access. -/
def zeroBody : HostAccess → List Byte
  | .read _ _ len => wordBytes (List.replicate len.toNat 0)
  | .write _ _ _ => []

/-- The words of an access. -/
def accessWords : HostAccess → List (Addr × Option Word)
  | .read fixed a len => (burstAddrs fixed a len.toNat).map fun x => (x, none)
  | .write fixed a data => (burstAddrs fixed a data.length).zip (data.map some)

/-- ADDR of an access. -/
def accessAddr : HostAccess → Addr
  | .read _ a _ => a
  | .write _ a _ => a

/-- Is it a WRITE? -/
def accessWrites : HostAccess → Bool
  | .read _ _ _ => false
  | .write _ _ _ => true

/-- Is the port taken by a pending access or a held result (R317)? -/
def portTaken (d : Device) : Bool := (d.port .spi).pending.isSome || d.hsp.held.isSome

/-- The access of a frame with a good HCRC (R317). -/
def makeAccess (acc : HostAccess) (s : State) : State :=
  let s := s.onDev fun d => { d with hsp := { d.hsp with lastAddr := accessAddr acc, lastWrite := accessWrites acc } }
  let t := startAccess .spi (accessWrites acc) (accessWords acc) (accessHeader acc) s
  t.onDev fun d => { d with hsp := { d.hsp with lastErr := false } }

/-- A READ or WRITE frame (R312 to R317). -/
def accessFrame (acc : HostAccess) (hcrc : Byte) (s : State) : State :=
  if !answers s.dev then s else
  let s := s.onDev hostFrameStarts
  if accessLen acc = 0 ∨ 16 < accessLen acc then s.onDev malformed
  else if crc8 (accessBytes acc) ≠ hcrc then s.onDev (crcFails (accessHeader acc) (zeroBody acc))
  else if portTaken s.dev then s.onDev (frameAnswers (responseOf (accessHeader acc) (zeroBody acc) stBusy))
  else makeAccess acc s

/-- The result of an access whose frame was cut off after HCRC is held (R317). -/
def holdResponse (d : Device) : Device :=
  let h := { d.hsp with cuts := d.hsp.cuts + 1, lastErr := true }
  match (d.port .spi).pending with
  | some acc => { (d.onPort .spi fun y => { y with pending := some { acc with cut := true } }) with hsp := h }
  | none => { d with hsp := { h with held := d.hsp.response, response := none } }

/-- A frame that CS_N cuts off (R317). -/
def cutFrame (stage : CutStage) (s : State) : State :=
  if !answers s.dev then s else
  match stage with
  | .beforeHcrc =>
    s.onDev fun d =>
      let d := hostFrameStarts d
      { d with hsp := { d.hsp with cuts := d.hsp.cuts + 1, lastErr := true } }
  | .stalled => s.onDev cutStalled
  | .afterHcrc acc hcrc =>
    let s := s.onDev hostFrameStarts
    if accessLen acc = 0 ∨ 16 < accessLen acc then s.onDev malformed
    else if crc8 (accessBytes acc) ≠ hcrc then
      s.onDev fun d =>
        let d := crcFails (accessHeader acc) (zeroBody acc) d
        { d with hsp := { d.hsp with response := none, cuts := d.hsp.cuts + 1, lastErr := true } }
    else if portTaken s.dev then
      s.onDev fun d => { d with hsp := { d.hsp with cuts := d.hsp.cuts + 1, lastErr := true } }
    else
      let t := makeAccess acc s
      if answers t.dev then t.onDev holdResponse else t

/-- A STATUS frame: it never waits (R314). -/
def statusFrame (hcrc : Byte) (d : Device) : Device :=
  if !answers d then d else
  let d := hostFrameStarts d
  if crc8 [0x03] ≠ hcrc then crcFails [0x03] [] d
  else frameAnswers (responseOf [0x03] (beBytes 4 (hspStatus d)) 0) d

/-- A FETCH frame (R317). -/
def fetchFrame (hcrc : Byte) (d : Device) : Device :=
  if !answers d then d else
  let d := hostFrameStarts d
  if crc8 [0x04] ≠ hcrc then crcFails [0x04] [] d
  else match d.hsp.held with
    | some r => frameAnswers r { d with hsp := { d.hsp with held := none } }
    | none => frameAnswers (responseOf [0x04] [] (if (d.port .spi).pending.isSome then stBusy else 0)) d

/-! ### ABORT from a port (R322) -/

/-- An ABORT frame (R322), after its HCRC (R313): it never waits. -/
def abortFrame (func index : Byte) (sda : Option (Bool × Option (Fin 9))) (hcrc : Byte) (s : State) : State :=
  if !answers s.dev then s else
  let s := s.onDev hostFrameStarts
  let header : List Byte := [0x05, func, index]
  if crc8 header ≠ hcrc then s.onDev (crcFails header []) else
  let x := abortWrite .spi func index sda s
  x.2.onDev fun d => settleAlert (frameAnswers (responseOf header [] x.1) d)

/-- A write of HSP.ABORT_CMD from the debug port while an access of that port is pending: it always gets through (R322). -/
def debugAborts (func index : Byte) (sda : Option (Bool × Option (Fin 9))) (s : State) : State :=
  let x := abortWrite .debug func index sda (s.onDev (touch s.tm (.port .debug)))
  x.2.onDev fun d => settleAlert (d.onPort .debug fun y => { y with data := 0, status := x.1 })

/-- Does an access of the debug port wait (R45)? -/
def debugWaits (d : Device) : Bool := reaches d (.port .debug) && (d.port .debug).pending.isSome

/-- An ABORT (R322); how SDA stands where it matters. -/
def abortFrom (way : AbortWay) (func index : Byte) (sda : Option (Bool × Option (Fin 9))) (s : State) : State :=
  match way with
  | .frame hcrc => abortFrame func index sda hcrc s
  | .write p =>
    if p = .debug ∧ debugWaits s.dev then debugAborts func index sda s
    else rowWrite (.port p) 0x408 (word (index.toNat * 256 + func.toNat)) .early (abortWrite p func index sda) s

/-! ### The two-wire target -/

/-- The byte of a page at a place counted from the first data byte: the latest written there (R331). -/
def pageByte (data : List Byte) (r : Nat) : Byte := (data[r + 32 * ((data.length - 1 - r) / 32)]?).getD 0

/-- How many words of a page are complete. -/
def pageWords (data : List Byte) : Nat := min 8 (data.length / 4)

/-- The words that a page commits, in page order (R332). -/
def pageCommit (pointer : Addr) (data : List Byte) : List (Addr × Option Word) :=
  (List.range (pageWords data)).map fun j =>
    let a := pointer.toNat / 8 * 8 + (pointer.toNat % 8 + j) % 8
    (BitVec.ofNat 16 a, some (word (beNat ((List.range 4).map fun k => pageByte data (4 * j + k)))))

/-- Is one word of the page left with only some bytes written? -/
def pagePartial (data : List Byte) : Bool := decide (data.length < 32) && decide (data.length % 4 ≠ 0)

/-- The commit of a page at the STOP. -/
def commitPage (pointer : Addr) (data : List Byte) (s : State) : State :=
  let todo := pageCommit pointer data
  let next : Addr := if todo.isEmpty then pointer else lastAddrOf todo + 1
  let s := s.onDev fun d => d.onTwp fun t => { t with
    pointer := next
    partialWords := if pagePartial data then t.partialWords + 1 else t.partialWords }
  if todo.isEmpty then s else startAccess .twoWire true todo [] s

/-- The pointer of a write transaction (R331). -/
def writePointer (bytes : List Byte) : Option Addr :=
  match bytes with
  | hi :: lo :: _ => some (BitVec.ofNat 16 (hi.toNat * 256 + lo.toNat))
  | _ => none

/-- A write transaction that ends with a repeated START (R332): its pointer stands, its data bytes are discarded. -/
def targetRestarts (bytes : List Byte) (d : Device) : Device :=
  match writePointer bytes with
  | some a => discardIf (decide (2 < bytes.length)) (d.onTwp fun t => { t with pointer := a })
  | none => d

/-- A write transaction to the device, with the bytes after the address byte, that ends with STOP, or with a repeated START (R331,
R332, R334). -/
def targetWrite (bytes : List Byte) (stop : Bool) (s : State) : State :=
  if !targetListens s.dev then s.onDev fun d => d.onTwp fun t => { t with acked := false } else
  let own : Byte := byte (2 * s.dev.twp.ownAddr.toNat)
  let pec := s.dev.twp.pecT
  let s := s.onDev targetStarts
  if !stop then s.onDev (targetRestarts bytes)
  else if pec ∧ bytes ≠ [] ∧ crc8 (own :: bytes) ≠ 0 then
    s.onDev fun d => discardPage (d.onTwp fun t => { t with pecErrs := t.pecErrs + 1 })
  else
    let bytes := if pec then bytes.dropLast else bytes
    match writePointer bytes with
    | some a => commitPage a (bytes.drop 2) s
    | none => s

/-- A read transaction: from the pointer that it carries, or from the pointer left (R333). Data bytes between the pointer and the
repeated START are a page that is discarded (R332). -/
def targetRead (pointer : Option Addr) (data : List Byte) (words : Nat) (s : State) : State :=
  if !targetListens s.dev then s.onDev fun d => d.onTwp fun t => { t with acked := false } else
  let first : Addr := match pointer with | some a => a | none => s.dev.twp.pointer
  let header := readHeader s.dev.twp.ownAddr pointer data
  let s := s.onDev fun d => discardIf (pointer.isSome && !data.isEmpty)
    ((targetStarts d).onTwp fun t => { t with sent := [], pointer := first + BitVec.ofNat 16 words })
  if words = 0 then s else
  let t := startAccess .twoWire false ((burstAddrs false first words).map fun a => (a, none)) header s
  match (t.dev.port .twoWire).pending with
  | some acc => t.onDev fun d => d.onTwp fun x => { x with sent := targetBytes x.pecT header acc.got }
  | none => t

/-- STRETCH_MAX has passed on a stalled read (R335): zero is sent for the word, and the access stays pending. -/
def stretchEnds (d : Device) : Device :=
  match (d.port .twoWire).pending with
  | some acc =>
    match acc.todo with
    | [] => d
    | (a, w) :: _ =>
      if acc.write ∨ acc.cut ∨ d.twp.stretchMax = 0 then d else
      let d := d.onTwp fun t => { t with sent := targetBytes t.pecT acc.header (acc.got ++ [0]), pointer := a + 1 }
      d.onPort .twoWire fun y => { y with pending := some { acc with cut := true, todo := [(a, w)] } }
  | none => d

/-- A read from the Alert Response Address (R338). -/
def alertResponse (won : Bool) (d0 : Device) : Device :=
  let d := settleAlert d0
  let t := d.twp
  if answers d ∧ t.en ∧ t.araEn ∧ t.ownAddr ≠ 0x0C ∧ alertLow d then
    d.onTwp fun t => { t with
      busBusy := true
      acked := true
      sent := [byte (2 * t.ownAddr.toNat)]
      alertAcked := won || t.alertAcked
      ackedSum := if won then alertSum d else t.ackedSum }
  else d.onTwp fun t => { t with acked := false }

/-! ### The debug port (R359) -/

/-- What a DBG_ACCESS that succeeds leaves in the port's data register. -/
def dbgDone (data : Word) (status : Byte) (d : Device) : Device := d.onPort .debug fun y => { y with data := data, status := status }

/-- An operation of the debug window that needs FULL. -/
def dbgFull (f : Device → Device) (s : State) : State :=
  s.onDev fun d => if d.sg.auth = .full then dbgDone 0 0 (f d) else dbgDone 0 stDenied d

/-- A use of the debug window: NOT_READY before READY (R48), as for any other window. -/
def dbgWindow (f : State → State) (s : State) : State :=
  let s := s.onDev (touch s.tm (.port .debug))
  if (accessWindow 0xF000).shut s.tm s.dev then s.onDev (dbgDone 0 stNotReady) else f s

/-- DBG_ACCESS, under the authorisation (R359). -/
def dbgAccess (op : DbgOp) (s : State) : State :=
  if !reaches s.dev (.port .debug) then s else
  match op with
  | .regRead a => singleAccess .debug a none s
  | .regWrite a w =>
    if a = 0x408 ∧ debugWaits s.dev then debugAborts (w.setWidth 8) ((w >>> 8).setWidth 8) none s
    else singleAccess .debug a (some w) s
  | .windowRead a => dbgWindow (fun s =>
      let x := debugWindow a.toNat none s
      x.2.2.onDev (dbgDone x.1 0)) s
  | .halt => dbgWindow (dbgFull fun d => { d with fw := { d.fw with supHalted := true } }) s
  | .step => dbgWindow (dbgFull id) s
  | .resume => dbgWindow (dbgFull fun d => { d with fw := { d.fw with supHalted := false } }) s
  | .memRead a => dbgWindow (fun s => s.onDev fun d =>
      if d.sg.auth = .full then dbgDone (supervisorWord d a.toNat) 0 { d with draws := d.draws + 1 } else dbgDone 0 stDenied d) s
  | .memWrite a w =>
    dbgWindow (dbgFull fun d => { d with fw := { d.fw with supRam := ramSet d.fw.supRam a.toNat w } }) s

end Sys2Proof.Machine
end

