-- ==== Sys2Proof/Machine/ExecHost.lean ====
section
/-! DEFINITION. Meanings of the rows of spec 00_scope.md (register accesses), 12_host_port.md, of the target rows of
13_two_wire_port.md, and of DBG_ACCESS of 14_security_lifecycle.md. -/

namespace Sys2Proof.Machine

/-! ### Register accesses -/

/-- REGISTER_WRITE (R6, R7, R8). -/
def execRegisterWrite (src : Src) (addr : Addr) (data : Word) (s : State) : Answer :=
  .next (match src with
    | .sup => supWrite addr data s
    | .port p => singleAccess p addr (some data) s)

/-- PAIR_LOW_READ (R9). -/
def execPairLowRead (p : Port) (addr : Addr) (s : State) : Answer :=
  .next (if pairLow addr.toNat then singleAccess p addr none s else s)

/-- PAIR_HIGH_READ (R9). -/
def execPairHighRead (p : Port) (addr : Addr) (s : State) : Answer :=
  .next (if pairHigh addr.toNat then singleAccess p addr none s else s)

/-- PAIR_LOW_WRITE (R9). -/
def execPairLowWrite (p : Port) (addr : Addr) (data : Word) (s : State) : Answer :=
  .next (if pairLow addr.toNat then singleAccess p addr (some data) s else s)

/-- PAIR_HIGH_WRITE (R9). -/
def execPairHighWrite (p : Port) (addr : Addr) (data : Word) (s : State) : Answer :=
  .next (if pairHigh addr.toNat then singleAccess p addr (some data) s else s)

/-- BUS_TIMEOUT (R45, R28): a detected internal fault; the access carries TIMEOUT. -/
def execBusTimeout (src : Src) (s : State) : Answer :=
  .next (match src with
    | .sup => supTimesOut s
    | .port p => if reaches s.dev (.port p) then portTimesOut p s else s)

/-- STALLED_ACCESS_COMPLETE (R45): nothing happens while the clock is still stopped. -/
def execStalledAccessComplete (p : Port) (s : State) : Answer := .next (resumeAccess p s)

/-! ### Frames of the SPI port -/

/-- HOST_READ (R314). -/
def execHostRead (fixed : Bool) (addr : Addr) (len : BitVec 8) (hcrc : Byte) (s : State) : Answer :=
  .next (accessFrame (.read fixed addr len) hcrc s)

/-- HOST_WRITE (R314). -/
def execHostWrite (fixed : Bool) (addr : Addr) (data : List Word) (hcrc : Byte) (s : State) : Answer :=
  .next (accessFrame (.write fixed addr data) hcrc s)

/-- HOST_STATUS (R314). -/
def execHostStatus (hcrc : Byte) (s : State) : Answer := .next (s.onDev (statusFrame hcrc))

/-- FETCH (R317). -/
def execFetch (hcrc : Byte) (s : State) : Answer := .next (s.onDev (fetchFrame hcrc))

/-- MALFORMED_FRAME (R312), whatever its command byte. -/
def execMalformedFrame (_cmd : Byte) (s : State) : Answer :=
  .next (s.onDev fun d => if answers d then malformed (hostFrameStarts d) else d)

/-- FRAME_CUT_OFF (R317). -/
def execFrameCutOff (stage : CutStage) (s : State) : Answer := .next (cutFrame stage s)

/-! ### ABORT -/

/-- ABORT of FUNC 0x01. -/
def execAbortAutotune (way : AbortWay) (s : State) : Answer := .next (abortFrom way 0x01 0 none s)

/-- ABORT of FUNC 0x02 (R84). -/
def execAbortRailApply (way : AbortWay) (r : Fin 64) (s : State) : Answer := .next (abortFrom way 0x02 (BitVec.ofNat 8 r.val) none s)

/-- ABORT of FUNC 0x03 (R390). -/
def execAbortStoreOperation (way : AbortWay) (s : State) : Answer := .next (abortFrom way 0x03 0 none s)

/-- ABORT of FUNC 0x04 (R423). -/
def execAbortBogTransfer (way : AbortWay) (s : State) : Answer := .next (abortFrom way 0x04 0 none s)

/-- ABORT of FUNC 0x05 (R344). -/
def execAbortTwoWire (way : AbortWay) (sdaHeld : Bool) (freedAt : Option (Fin 9)) (s : State) : Answer :=
  .next (abortFrom way 0x05 0 (some (sdaHeld, freedAt)) s)

/-- ABORT of FUNC 0x06 (R136). -/
def execAbortLaneTraining (way : AbortWay) (n : Fin 64) (s : State) : Answer :=
  .next (abortFrom way 0x06 (BitVec.ofNat 8 n.val) none s)

/-- ABORT of FUNC 0x07 (R322). -/
def execAbortSession (way : AbortWay) (target : Port) (s : State) : Answer :=
  .next (abortFrom way 0x07 (BitVec.ofNat 8 (portIdx target).val) none s)

/-- ABORT of FUNC 0x08 (R320). -/
def execAbortPendingAccess (way : AbortWay) (target : Port) (s : State) : Answer :=
  .next (abortFrom way 0x08 (BitVec.ofNat 8 (portIdx target).val) none s)

/-- ABORT of FUNC 0xFF (R322, R323). -/
def execAbortGlobal (way : AbortWay) (s : State) : Answer := .next (abortFrom way 0xFF 0 none s)

/-- BAD_FUNC (R322): a FUNC that Table 12-6 lists is no such command, and the row leaves the device as it is. -/
def execBadFunc (way : AbortWay) (func index : Byte) (s : State) : Answer :=
  .next (if (1 ≤ func.toNat ∧ func.toNat ≤ 8) ∨ func = 0xFF then s else abortFrom way func index none s)

/-- ABORT_DONE (R322, R324). -/
def execAbortDone (p : Port) (s : State) : Answer := onDevice (fun tm => abortDoneAt tm p) s

/-! ### The two-wire target -/

/-- TWP_TARGET_WRITE (R331, R332). -/
def execTwpTargetWrite (write : TargetWrite) (s : State) : Answer := .next (targetWrite write.bytes write.stop s)

/-- TWP_TARGET_READ (R333). -/
def execTwpTargetRead (pointer : Option TargetPointer) (words : BitVec 8) (s : State) : Answer :=
  .next (match pointer with
    | some p => targetRead (some p.addr) p.data words.toNat s
    | none => targetRead none [] words.toNat s)

/-- TWP_STRETCH_TIMEOUT (R335). -/
def execTwpStretchTimeout (s : State) : Answer := .next (s.onDev stretchEnds)

/-- ALERT_RESPONSE (R338). -/
def execAlertResponse (won : Bool) (s : State) : Answer := .next (s.onDev (alertResponse won))

/-! ### The debug port -/

/-- DBG_ACCESS (R359). -/
def execDbgAccess (op : DbgOp) (s : State) : Answer := .next (dbgAccess op s)

end Sys2Proof.Machine
end

