-- ==== Sys2Proof/Machine/ExecImage.lean ====
section
/-! DEFINITION. Meanings of the rows of spec 03_structure_image.md: the image loader. -/

namespace Sys2Proof.Machine

/-- RAIL_SECTION_TAKE_EFFECT (R81 to R84). -/
def execRailSectionTakeEffect (r : Fin 64) (s : State) : Answer := onDeviceNv (fun tm nv => railTakesEffect tm nv r) s

/-- SCHED_SECTION_TAKE_EFFECT (R86). -/
def execSchedSectionTakeEffect (s : State) : Answer := onDeviceNv schedTakesEffect s

/-- HKEEP_SECTION_TAKE_EFFECT (R86). -/
def execHkeepSectionTakeEffect (s : State) : Answer := onDeviceNv hkeepTakesEffect s

/-- PERIPH_SECTION_TAKE_EFFECT (R86, R329, R330). -/
def execPeriphSectionTakeEffect (s : State) : Answer := onDeviceNv periphTakesEffect s

/-- IMG_CHECK_END (R92): the check of a SEAL, LIVE_OPEN or APPLY ends. -/
def execImgCheckEnd (s : State) : Answer := onDeviceNv checkEnds s

end Sys2Proof.Machine
end

