-- ==== Sys2Proof/Machine/ExecLanes.lean ====
section
/-! DEFINITION. Meanings of the rows of spec 04_phase_lanes.md: lanes, cells, slots and calibration. -/

namespace Sys2Proof.Machine

/-- UPSTREAM_LOCK (R131, R101). -/
def execUpstreamLock (n : Fin 64) (s : State) : Answer := onDevice (fun tm => upstreamLock tm n) s

/-- TRAINING_POLL_TIMER (R131): a DOWN lane starts training. -/
def execTrainingPollTimer (n : Fin 64) (s : State) : Answer := onDevice (fun tm => startTraining tm n) s

/-- TRAINING_STEP_TIMEOUT (R101, Table 4-3). -/
def execTrainingStepTimeout (n : Fin 64) (s : State) : Answer := onDevice (fun tm => trainingTimeout tm n) s

/-- LANE_TRAINING_END (R101, R123). -/
def execLaneTrainingEnd (n : Fin 64) (ident : ModIdent) (s : State) : Answer := onDevice (fun tm => trainingEnds tm n ident) s

/-- UPSTREAM_LOSS_OF_LOCK (R134, Table 4-15). -/
def execUpstreamLossOfLock (loss : LossOfLock) (s : State) : Answer :=
  onDevice (fun tm => upstreamLost tm loss.lane loss.symbolErrors) s

/-- RETRAIN_ATTEMPT_END (R133, R135). -/
def execRetrainAttemptEnd (n : Fin 64) (result : Option ModIdent) (s : State) : Answer :=
  onDevice (fun tm => retrainEnds tm n result) s

/-- LANE_DISABLE_TAKE_EFFECT (R133). -/
def execLaneDisableTakeEffect (n : Fin 64) (s : State) : Answer := onDevice (fun tm => disableTakesEffect tm n) s

/-- TIME_CELL_TIMER (R102). -/
def execTimeCellTimer (s : State) : Answer := onDevice (fun _ => timeCells) s

/-- SAMPLE_RAW (R113, R115). -/
def execSampleRaw (n : Fin 64) (slot : Fin 8) (f late : Bool) (body : BitVec 224) (s : State) : Answer :=
  onDevice (fun tm => deliverSamples tm n slot f late false (rawSamples body)) s

/-- SAMPLE_CMP (R114, R115). -/
def execSampleCmp (n : Fin 64) (slot : Fin 8) (f late : Bool) (body : BitVec 112) (s : State) : Answer :=
  onDevice (fun tm => deliverSamples tm n slot f late (cmpSat body) (cmpSamples body)) s

/-- MEAS (R116). -/
def execMeas (n : Fin 64) (slot : Fin 8) (vout vin temp : BitVec 16) (s : State) : Answer :=
  onDevice (fun tm => takeMeas tm n slot vout vin temp) s

/-- STATUS (R117). -/
def execStatus (n : Fin 64) (slot : Fin 8) (modslots dnCrc late fault state : BitVec 8) (s : State) : Answer :=
  onDevice (fun tm => takeStatus tm n slot modslots dnCrc late fault state) s

/-- REPLY (R118, R123, R125). -/
def execReply (n : Fin 64) (slot : Fin 8) (addr tag : BitVec 8) (data : BitVec 16) (result : BitVec 8) (s : State) : Answer :=
  onDevice (fun tm => reply tm (globalSlot n slot) addr tag data result) s

/-- ECHO_REPLY (R101). -/
def execEchoReply (n : Fin 64) (tag : BitVec 8) (turn rtd : BitVec 16) (s : State) : Answer :=
  onDevice (fun tm => echoReply tm n tag turn rtd) s

/-- UPSTREAM_CELL_ERROR (R97, R134). -/
def execUpstreamCellError (n : Fin 64) (symbolErrors : BitVec 8) (s : State) : Answer :=
  onDevice (fun tm => cellError tm n symbolErrors) s

/-- REPLY_TIMEOUT (R123, R125). -/
def execReplyTimeout (g : Fin 512) (s : State) : Answer := onDevice (fun tm => replyTimeout tm g) s

/-- CALIBRATION (R125). -/
def execCalibration (g : Fin 512) (s : State) : Answer := onDeviceNv (fun tm nv => startCalibration tm nv g) s

/-- SAMPLE_MISSING (R115). -/
def execSampleMissing (g : Fin 512) (s : State) : Answer := onDevice (fun tm => missSample tm g) s

/-- BIAS_TIMER (R130, R223). -/
def execBiasTimer (s : State) : Answer := onDevice biasTimer s

/-- HOUSEKEEPING_BIAS (R292). -/
def execHousekeepingBias (s : State) : Answer := onDevice housekeepingBias s

/-- LANE_RECEIVER_SLEEP (R362). -/
def execLaneReceiverSleep (n : Fin 64) (s : State) : Answer := onDevice (fun tm => receiverSleeps tm n) s

end Sys2Proof.Machine
end

