-- ==== Sys2Proof/Machine/ExecLoop.lean ====
section
/-! DEFINITION. Meanings of the rows of spec 05_timebase_interleave.md, 06_loop_engine.md and 07_feedforward_autotune.md:
carriers, edges, the ring tracker, evaluations and auto-tune. -/

namespace Sys2Proof.Machine

/-- CARRIER_START (R145). -/
def execCarrierStart (g : Fin 8) (s : State) : Answer := onDevice (fun tm => carrierStarts tm g) s

/-- EDGE_BUILD (R144). -/
def execEdgeBuild (g : Fin 512) (s : State) : Answer := onDevice (fun tm => buildEdge tm.time.toNat g) s

/-- EPOCH_PULSE (R149, R249): the reference drives SYNCOUT and starts a ring frame. -/
def execEpochPulse (s : State) : Answer :=
  onDevice (fun tm d =>
    if d.tbi.ring.state = .reference then
      ringStart tm { d with tbi := { d.tbi with ring := { d.tbi.ring with syncout := true } } }
    else d) s

/-- SYNCIN_EDGE (R150, R151). -/
def execSyncinEdge (fine : Fin 32) (s : State) : Answer := onDevice (fun tm d => syncEdge tm fine.val (freshLink tm d)) s

/-- SYNC_PULSE_MISSING (R151). -/
def execSyncPulseMissing (s : State) : Answer := onDevice syncMissing s

/-- EVALUATION_START (R171). -/
def execEvaluationStart (slice : Fin 8) (s : State) : Answer := onDevice (fun tm => startEval tm.time.toNat slice) s

/-- EVALUATION_COMPLETE (R161, R164). -/
def execEvaluationComplete (slice : Fin 8) (s : State) : Answer := onDevice (fun tm => completeEval tm.time.toNat slice) s

/-- RESULT_RELEASE (R168). -/
def execResultRelease (loop : LoopRef) (s : State) : Answer := onDevice (fun _ => releaseOldest loop) s

/-- EVALUATION_DEADLINE (R173, R174). -/
def execEvaluationDeadline (loop : LoopRef) (s : State) : Answer := onDevice (fun tm => deadlinePasses tm loop) s

/-- AUTOTUNE_TIMEOUT (R198). -/
def execAutotuneTimeout (s : State) : Answer := onDevice tuneExpires s

end Sys2Proof.Machine
end

