-- ==== Sys2Proof/Machine/ExecProtect.lean ====
section
/-! DEFINITION. Meanings of the rows of spec 11_protection_thermal.md, and of VSENSE_CONVERSION (R442). -/

namespace Sys2Proof.Machine

/-- VSENSE_CONVERSION (R442, R285). -/
def execVsenseConversion (v : Fin 8) (code : BitVec 16) (s : State) : Answer := onDevice (fun tm => vsenseEnds tm v code) s

/-- HOUSEKEEPING_ROUND (R292). -/
def execHousekeepingRound (thm : Vector (BitVec 12) 4) (supplyUv : Vector (BitVec 24) 4) (s : State) : Answer :=
  onDevice (fun tm => roundStart tm thm supplyUv) s

/-- A meaning of the housekeeping, which may wake the device (R364). -/
def onHousekeeping (f : TimeBase → NonVol → Device → NonVol × Device) (s : State) : Answer :=
  let x := f s.tm s.nv s.dev
  .next (wakeHot s.dev { s with nv := x.1, dev := x.2 })

/-- HOUSEKEEPING_ROUND_END (R292): once thermal shutdown is over, its records are copied (R305). -/
def execHousekeepingRoundEnd (s : State) : Answer :=
  onHousekeeping (fun tm nv d =>
    let y := roundEnd tm nv d
    (y.1, copyShutdowns y.1 y.2)) s

/-- DIE_SAMPLE (R303, R307). -/
def execDieSample (temps : Vector (Option (BitVec 16)) 8) (s : State) : Answer := onHousekeeping (fun tm => dieSample tm temps) s

/-- SHUTDOWN_RECORD_WRITE (R305). -/
def execShutdownRecordWrite (s : State) : Answer := onDeviceNv writeShutdown s

/-- STORE_WINDOW_OPEN (R307, R305). -/
def execStoreWindowOpen (s : State) : Answer := onDeviceNv (fun tm nv d => copyShutdowns nv (windowOpens tm nv d)) s

end Sys2Proof.Machine
end

