-- ==== Sys2Proof/Machine/ExecRails.lean ====
section
/-! DEFINITION. Meanings of the rows of spec 08_rails.md. -/

namespace Sys2Proof.Machine

/-- START_MEASUREMENT_END (R207). -/
def execStartMeasurementEnd (r : Fin 64) (s : State) : Answer := onDevice (fun tm => measurementEnds tm r) s

/-- RAMP_STEP (R213). -/
def execRampStep (s : State) : Answer := onDevice rampAll s

/-- RAMP_TIMEOUT (R206). -/
def execRampTimeout (r : Fin 64) (s : State) : Answer := onDevice (fun tm => rampExpires tm r) s

/-- HOLD_TIMEOUT (R206). -/
def execHoldTimeout (r : Fin 64) (s : State) : Answer := onDevice (fun tm => holdExpires tm r) s

/-- RETRY_TIMER (R211). -/
def execRetryTimer (r : Fin 64) (s : State) : Answer := onDevice (fun tm => retryRail tm r) s

/-- RETRIES_RESET_TIMER (R206). -/
def execRetriesResetTimer (r : Fin 64) (s : State) : Answer := onDevice (fun tm => resetRetries tm r) s

/-- KINDLING_WARM_START (R223). -/
def execKindlingWarmStart (e : Fin 128) (s : State) : Answer := onDevice (fun tm => warmStartDue tm e) s

/-- VREQ_EXPIRY (R215). -/
def execVreqExpiry (r : Fin 64) (h : Fin 256) (s : State) : Answer := onDevice (fun tm => expireRequest tm r h) s

end Sys2Proof.Machine
end

