-- ==== Sys2Proof/Machine/ExecStore.lean ====
section
/-! DEFINITION. Meanings of the rows of spec 15_on_chip_store.md and 16_ash_and_bog.md: the store, the recorder, the archive
and the capture buffer. -/

namespace Sys2Proof.Machine

/-- CHUNK_PROGRAM_COMPLETE (R379). -/
def execChunkProgramComplete (verified : Bool) (s : State) : Answer := onBoth (fun tm => programEnds tm verified) s

/-- SECTOR_ERASE_COMPLETE (R383). -/
def execSectorEraseComplete (verified : Bool) (s : State) : Answer := onBoth (fun tm => eraseEnds tm verified) s

/-- EVENT_RECORD_WRITE (R400, R402). -/
def execEventRecordWrite (s : State) : Answer := onDeviceNv recordEvent s

/-- REPEAT_CHAIN_END (R411). -/
def execRepeatChainEnd (s : State) : Answer := onDevice chainsEnd s

/-- BOG_BLOCK_WRITE (R419). -/
def execBogBlockWrite (s : State) : Answer := onDeviceNv writeLogBlock s

/-- CAPTURE_SAMPLE (R421). -/
def execCaptureSample (s : State) : Answer := onDevice takeSample s

/-- CAPTURE_COPY_COMPLETE (R422). -/
def execCaptureCopyComplete (s : State) : Answer := onDevice copyComplete s

/-- ARCHIVE_FLASH_OPERATION_END (R416, R418, R420). -/
def execArchiveFlashOperationEnd (result : ArchiveResult) (s : State) : Answer :=
  onDeviceNv (fun tm nv => archiveEnd tm nv result) s

end Sys2Proof.Machine
end

