-- ==== Sys2Proof/Machine/ExecTwoWire.lean ====
section
/-! DEFINITION. Meanings of the rows of spec 13_two_wire_port.md, but for the target's register accesses. -/

namespace Sys2Proof.Machine

/-- TWP_BUS_ERROR (R336, R342). -/
def execTwpBusError (role : TwpRole) (s : State) : Answer := onDevice (fun tm => busError tm role) s

/-- TWP_CLOCK_LOW_TIMEOUT (R337, R343). -/
def execTwpClockLowTimeout (role : TwpRole) (s : State) : Answer := onDevice (fun tm => clockLowTimeout tm role) s

/-- PERIPH_POLL_DUE (R339). -/
def execPeriphPollDue (e : Fin 32) (s : State) : Answer := onDevice (fun tm => pollDue tm e) s

/-- PERIPH_POLL (R340 to R343). -/
def execPeriphPoll (e : Fin 32) (outcome : PollOutcome) (s : State) : Answer := onDevice (fun tm => pollRuns tm e outcome) s

/-- RECOVERY_RETRY_TIMER (R343). -/
def execRecoveryRetryTimer (sdaFreedAt : Option (Fin 9)) (s : State) : Answer :=
  onDevice (fun tm => recoveryRetries tm sdaFreedAt) s

/-- TWP_BUS_FREE (R339). -/
def execTwpBusFree (s : State) : Answer := onDevice (fun _ => busFrees) s

end Sys2Proof.Machine
end

