-- ==== Sys2Proof/Machine/Rows.lean ====
section
/-! DEFINITION. Meanings of the rows that are the write of one register: each is that write, at its address and with its word, as
any other access of the source makes it (rowWrite: R45, R48, R317, R335), and then what Acts.lean says of it. Fields beside the
one that the row names keep their values. -/

namespace Sys2Proof.Machine

/-- A word address. -/
def wordAt (base stride n : Nat) (off : Nat := 0) : Addr := BitVec.ofNat 16 (base + stride * n + off)

/-- The present word of a register, with bits set. -/
def withBits (s : State) (a : Addr) (n : Nat) : Word := presentWord s a.toNat ||| BitVec.ofNat 32 n

/-! ### SYS, PWR, SG and FW -/

/-- SYS.RESET_CTRL with KIND 0b00 (R34, Table 2-14). -/
def execResetCtrlWarm (src : Src) (s : State) : Answer := .next (rowResets src 0x0008 (actResetWarm src) s)

/-- SYS.RESET_CTRL with KIND 0b01: the supervisor is reset (Table 2-3). -/
def execResetCtrlSupervisor (src : Src) (s : State) : Answer :=
  .next (rowWrite src 0x0008 0x00015A3C .early (actResetSupervisor src) s)

/-- SYS.RESET_CTRL with KIND 0b10 (R35). -/
def execResetCtrlQuadrant (src : Src) (q : Fin 4) (s : State) : Answer :=
  .next (rowWrite src 0x0008 (word (0x25A3C + 0x40000 * q.val)) .early (actResetQuadrant src q) s)

/-- PWR.CMD RUN (R361, R364). -/
def execPwrRun (src : Src) (s : State) : Answer :=
  .next (rowWrite src 0x0120 1 .early (actPwrRun src) s)

/-- PWR.CMD TRIM (R361). -/
def execPwrTrim (src : Src) (s : State) : Answer :=
  .next (rowWrite src 0x0120 2 .early (actPwrTrim src) s)

/-- PWR.CMD STANDBY (R363). -/
def execPwrStandby (src : Src) (s : State) : Answer :=
  .next (rowWrite src 0x0120 3 .early (actPwrStandby src) s)

/-- PWR QOP SMOULDER (R218, R361). -/
def execQopSmoulder (src : Src) (q : Fin 4) (s : State) : Answer :=
  .next (rowWrite src 0x0120 (word (0x800 + 0x100 * q.val)) .early (actQopSmoulder src q) s)

/-- PWR QOP QRUN (R361). -/
def execQopQrun (src : Src) (q : Fin 4) (s : State) : Answer :=
  .next (rowWrite src 0x0120 (word (0x400 + 0x100 * q.val)) .early (actQopQrun src q) s)

/-- SG.PORT OPEN (R352). -/
def execOpenSession (p : Port) (level : BitVec 2) (s : State) : Answer :=
  .next (rowWrite (.port p) (wordAt 0x0200 32 (portIdx p).val) (word (1 + 0x100 * level.toNat)) .early (actOpen (.port p) p level) s)

/-- SG.PORT PROVE (R352, R354, R355). -/
def execProve (p : Port) (s : State) : Answer :=
  .next (rowWrite (.port p) (wordAt 0x0200 32 (portIdx p).val) 2 .early (actProve (.port p) p) s)

/-- SG.PORT CLOSE (R353). -/
def execClose (p : Port) (s : State) : Answer :=
  .next (rowWrite (.port p) (wordAt 0x0200 32 (portIdx p).val) 3 .early (actClose (.port p) p) s)

/-- SG.KEY_CMD (R351). -/
def execKeyCmd (src : Src) (target : BitVec 3) (s : State) : Answer :=
  .next (rowWrite src 0x0264 (word target.toNat) .early (actKey src target) s)

/-- SG.LC_CMD to COMMISSION (R356). -/
def execLcCommission (src : Src) (s : State) : Answer :=
  .next (rowWrite src 0x0263 0xC3A50001 .early (actLife src .commission) s)

/-- SG.LC_CMD to SERVICE (R356). -/
def execLcService (src : Src) (s : State) : Answer :=
  .next (rowWrite src 0x0263 0xC3A50002 .early (actLife src .service) s)

/-- SG.LC_CMD to MAINTAIN (R356). -/
def execLcMaintain (src : Src) (s : State) : Answer :=
  .next (rowWrite src 0x0263 0xC3A50003 .early (actLife src .maintain) s)

/-- SG.LC_CMD to RETIRED (R356). -/
def execLcRetired (src : Src) (s : State) : Answer :=
  .next (rowWrite src 0x0263 0xC3A50004 .early (actLife src .retired) s)

/-- SG.LC_CMD to RETURN (R356). -/
def execLcReturn (src : Src) (s : State) : Answer :=
  .next (rowWrite src 0x0263 0xC3A50005 .early (actLife src .returned) s)

/-- FW.DATA (R367). -/
def execFwDataWrite (src : Src) (data : Word) (s : State) : Answer :=
  .next (rowWrite src 0x030B data .early (actFwData src data) s)

/-- FW.CMD ERASE (R367). -/
def execFwErase (src : Src) (slot : Fin 2) (s : State) : Answer :=
  .next (rowWrite src 0x0300 (word (1 + 8 * slot.val)) .early (actFw src (fun _ => fwEraseStart slot)) s)

/-- FW.CMD SEAL (R367). -/
def execFwSeal (src : Src) (slot : Fin 2) (s : State) : Answer :=
  .next (rowWrite src 0x0300 (word (2 + 8 * slot.val)) .early (actFw src (fun _ => fwSealStart slot)) s)

/-- FW.CMD SWITCH (R367). -/
def execSwitch (src : Src) (slot : Fin 2) (s : State) : Answer :=
  .next (rowWrite src 0x0300 (word (3 + 8 * slot.val)) .early (actFw src (fun tm => fwSwitch tm slot)) s)

/-- FW.CMD CONFIRM (R367). -/
def execFwConfirm (src : Src) (s : State) : Answer :=
  .next (rowWrite src 0x0300 4 .early (actFw src fwConfirm) s)

/-- FW.CMD ROLLBACK (R367). -/
def execFwRollback (src : Src) (s : State) : Answer :=
  .next (rowWrite src 0x0300 5 .early (actFw src fwRollback) s)

/-- FW.CMD with an unlisted OP (R370). A listed OP is no such command, and the row leaves the device as it is. -/
def execFwBadOp (src : Src) (op : BitVec 3) (s : State) : Answer :=
  .next (if 1 ≤ op.toNat ∧ op.toNat ≤ 5 then s else rowWrite src 0x0300 (word op.toNat) .early (actFwBad src) s)

/-! ### The image loader -/

/-- IMG_DATA_WRITE (R77, Table 3-23). -/
def execImgDataWrite (src : Src) (data : Word) (s : State) : Answer :=
  .next (rowWrite src 0x080D data .running (actImgData src data) s)

/-- IMG.CMD ERASE (R75, R77). -/
def execImgErase (src : Src) (slot : Fin 2) (s : State) : Answer :=
  .next (rowWrite src 0x0800 (word (1 + 16 * slot.val)) .running (actImg src (fun _ nv => eraseImage nv slot)) s)

/-- IMG.CMD SEAL (R76). -/
def execImgSeal (src : Src) (slot : Fin 2) (s : State) : Answer :=
  .next (rowWrite src 0x0800 (word (2 + 16 * slot.val)) .running (actImg src (fun _ _ => sealImage slot)) s)

/-- IMG.CMD LIVE_OPEN (R79). -/
def execLiveOpen (src : Src) (slot : Fin 2) (s : State) : Answer :=
  .next (rowWrite src 0x0800 (word (3 + 16 * slot.val)) .running (actImg src (fun _ _ => openImage slot)) s)

/-- IMG.CMD APPLY (R79 to R83). -/
def execApply (src : Src) (kind index : BitVec 8) (s : State) : Answer :=
  .next (rowWrite src 0x0800 (word (4 + 0x100 * kind.toNat + 0x10000 * index.toNat)) .running (actImg src (fun _ nv => applySection nv kind index)) s)

/-- IMG.CMD CONFIRM (R87). -/
def execImgConfirm (src : Src) (s : State) : Answer :=
  .next (rowWrite src 0x0800 5 .running (actImg src confirmImage) s)

/-- IMG.CMD ROLLBACK (R88). -/
def execImgRollback (src : Src) (s : State) : Answer :=
  .next (rowWrite src 0x0800 6 .running (actImg src rollbackImage) s)

/-- IMG.CMD with an unlisted OP (Table 3-17). A listed OP is no such command, and the row leaves the device as it is. -/
def execImgBadOp (src : Src) (op : BitVec 4) (s : State) : Answer :=
  .next (if 1 ≤ op.toNat ∧ op.toNat ≤ 6 then s else rowWrite src 0x0800 (word op.toNat) .running (actImgBad src) s)

/-! ### Lanes, slots and the timebase -/

/-- LANE.CTRL.RETRAIN (Table 4-17). -/
def execLaneRetrain (src : Src) (n : Fin 64) (s : State) : Answer :=
  .next (rowWrite src (wordAt 0x1000 32 n.val 1) (withBits s (wordAt 0x1000 32 n.val 1) 1) (.quad (quadOfLane n)) (actRetrain src n) s)

/-- LANE.CTRL.DISABLE written 1 (R133). -/
def execLaneDisable (src : Src) (n : Fin 64) (s : State) : Answer :=
  .next (rowWrite src (wordAt 0x1000 32 n.val 1) (withBits s (wordAt 0x1000 32 n.val 1) 4) (.quad (quadOfLane n)) (actDisable src n true) s)

/-- SLOT.CMD ADMIT (R128). -/
def execSlotAdmit (src : Src) (g : Fin 512) (s : State) : Answer :=
  .next (rowWrite src (wordAt 0x2000 8 g.val 5) 1 (.quad (quadOf g)) (actAdmit src g) s)

/-- SLOT.CMD REFUSE (R128). -/
def execRefuse (src : Src) (g : Fin 512) (s : State) : Answer :=
  .next (rowWrite src (wordAt 0x2000 8 g.val 5) 2 (.quad (quadOf g)) (actRefuse src g) s)

/-- SLOT.CMD RECAL (R128). -/
def execRecal (src : Src) (g : Fin 512) (s : State) : Answer :=
  .next (rowWrite src (wordAt 0x2000 8 g.val 5) 3 (.quad (quadOf g)) (actRecal src g) s)

/-- SLOT.CMD CAL_SAVE (R127). -/
def execCalSave (src : Src) (g : Fin 512) (s : State) : Answer :=
  .next (rowWrite src (wordAt 0x2000 8 g.val 5) 4 (.quad (quadOf g)) (actCalSave src g) s)

/-- SLOT.CMD IDENTIFY on (Table 4-23). -/
def execIdentifyOn (src : Src) (g : Fin 512) (s : State) : Answer :=
  .next (rowWrite src (wordAt 0x2000 8 g.val 5) 5 (.quad (quadOf g)) (actIdentify src g true) s)

/-- SLOT.CMD IDENTIFY off (Table 4-23). -/
def execIdentifyOff (src : Src) (g : Fin 512) (s : State) : Answer :=
  .next (rowWrite src (wordAt 0x2000 8 g.val 5) 6 (.quad (quadOf g)) (actIdentify src g false) s)

/-- A write of SLOT.CAL_I or CAL_V (R126). -/
def execSlotCalWrite (src : Src) (g : Fin 512) (voltage : Bool) (data : Word) (s : State) : Answer :=
  .next (rowWrite src (wordAt 0x2000 8 g.val (if voltage then 4 else 3)) data (.quad (quadOf g)) (actSlotCal src g voltage data) s)

/-- A write of TBI.RAILBASE (R146). -/
def execBaseSet (src : Src) (r : Fin 64) (base : BitVec 16) (s : State) : Answer :=
  .next (rowWrite src (wordAt 0x3080 1 r.val) (base.setWidth 32) .core (actBase src r base) s)

/-! ### Rails -/

/-- RAIL.CMD ARM (R206). -/
def execArm (src : Src) (r : Fin 64) (s : State) : Answer :=
  .next (rowWrite src (wordAt 0x4000 32 r.val 1) 1 .core (actArm src r) s)

/-- RAIL.CMD DISARM (R206). -/
def execDisarm (src : Src) (r : Fin 64) (s : State) : Answer :=
  .next (rowWrite src (wordAt 0x4000 32 r.val 1) 2 .core (actDisarm src r) s)

/-- RAIL.CMD START (R206, R207). -/
def execStart (src : Src) (r : Fin 64) (s : State) : Answer :=
  .next (rowWrite src (wordAt 0x4000 32 r.val 1) 3 .core (actStart src r) s)

/-- RAIL.CMD STOP (R206). -/
def execStop (src : Src) (r : Fin 64) (s : State) : Answer :=
  .next (rowWrite src (wordAt 0x4000 32 r.val 1) 4 .core (actStop src r) s)

/-- RAIL.CMD SOFTSTOP (R206, R213). -/
def execSoftstop (src : Src) (r : Fin 64) (s : State) : Answer :=
  .next (rowWrite src (wordAt 0x4000 32 r.val 1) 5 .core (actSoftstop src r) s)

/-- RAIL.CMD CLEAR (R206, R229). -/
def execClear (src : Src) (r : Fin 64) (s : State) : Answer :=
  .next (rowWrite src (wordAt 0x4000 32 r.val 1) 6 .core (actClear src r) s)

/-- RAIL.CMD RETIRE (R219). -/
def execRetire (src : Src) (r : Fin 64) (pos : Fin 128) (s : State) : Answer :=
  .next (rowWrite src (wordAt 0x4000 32 r.val 1) (word (7 + 0x100 * pos.val)) .core (actRetire src r pos) s)

/-- RAIL.CMD RESTORE (R220). -/
def execRestore (src : Src) (r : Fin 64) (pos : Fin 128) (s : State) : Answer :=
  .next (rowWrite src (wordAt 0x4000 32 r.val 1) (word (8 + 0x100 * pos.val)) .core (actRestore src r pos) s)

/-- RAIL.CMD with an unlisted OP (R229). A listed OP is no such command, and the row leaves the device as it is. -/
def execRailBadOp (src : Src) (r : Fin 64) (op : BitVec 4) (s : State) : Answer :=
  .next (if 1 ≤ op.toNat ∧ op.toNat ≤ 8 then s else rowWrite src (wordAt 0x4000 32 r.val 1) (word op.toNat) .core (actRailBad src r) s)

/-- A write of RAIL.VSET (R214). -/
def execVsetWrite (src : Src) (r : Fin 64) (data : Word) (s : State) : Answer :=
  .next (rowWrite src (wordAt 0x4000 32 r.val 3) data .core (actVset src r data) s)

/-- A write of RAIL.VNEXT (R213). -/
def execVnextWrite (src : Src) (r : Fin 64) (data : Word) (s : State) : Answer :=
  .next (rowWrite src (wordAt 0x4000 32 r.val 4) data .core (actVnext src r data) s)

/-- A write of RAIL.WIN_LO or WIN_HI (R214). -/
def execWindowWrite (src : Src) (r : Fin 64) (high : Bool) (data : Word) (s : State) : Answer :=
  .next (rowWrite src (wordAt 0x4000 32 r.val (if high then 6 else 5)) data .core (actWindow src r high data) s)

/-- A write of RAIL.TRIPPED (R221). -/
def execTrippedClear (src : Src) (r : Fin 64) (i : Fin 4) (data : Word) (s : State) : Answer :=
  .next (rowWrite src (wordAt 0x4000 32 r.val (25 + i.val)) data .core (actTripped src r i data) s)

/-! ### Loops and auto-tune -/

/-- LOOP.CTRL.CLEAR (Table 6-7). -/
def execLoopClear (src : Src) (r : Fin 64) (s : State) : Answer :=
  .next (rowWrite src (wordAt 0x5000 64 r.val) (withBits s (wordAt 0x5000 64 r.val) 1) .engine (actLoopClear src r) s)

/-- LE.CTRL.CLEAR (Table 6-13). -/
def execLeClear (src : Src) (s : State) : Answer :=
  .next (rowWrite src 0x6005 1 .engine (actLeClear src) s)

/-- AT.CMD START (R194, R195). -/
def execAtStart (src : Src) (r : Fin 64) (loop : BitVec 1) (rule : BitVec 2) (s : State) : Answer :=
  .next (rowWrite src 0x6800 (word (1 + 0x100 * r.val + 0x10000 * loop.toNat + 0x20000 * rule.toNat)) .engine (actAtStart src r loop rule) s)

/-- AT.CMD STOP (R198). -/
def execAtStop (src : Src) (s : State) : Answer :=
  .next (rowWrite src 0x6800 2 .engine (actAtStop src) s)

/-! ### The planner, partners and protection -/

/-- HEARTBEAT (R243): a write of HS.HEARTBEAT, which the supervisor makes. -/
def execHeartbeat (s : State) : Answer :=
  .next (rowWrite .sup 0x7013 1 .served (actHeartbeat) s)

/-- PLAN (R245), after PLAN_START. -/
def execPlan (e : Fin 128) (start : BitVec 32) (s : State) : Answer :=
  .next (rowWrite .sup 0x7011 (word (1 + 0x100 * e.val)) .served (actPlan e start) s)

/-- INVALIDATE (R238). -/
def execInvalidate (e : Fin 128) (s : State) : Answer :=
  .next (rowWrite .sup 0x7011 (word (2 + 0x100 * e.val)) .served (actInvalidate e) s)

/-- SQUASH (R238). -/
def execSquash (e : Fin 128) (hint : BitVec 16) (s : State) : Answer :=
  .next (rowWrite .sup 0x7011 (word (3 + 0x100 * e.val + 0x10000 * hint.toNat)) .served (actSquash e hint) s)

/-- PARTNER.OP EVICT (R267). -/
def execEvict (src : Src) (h : Fin 256) (s : State) : Answer :=
  .next (rowWrite src (wordAt 0x7800 8 h.val 5) 1 .served (actEvict src h) s)

/-- PP.BUS.CTRL.RESTART (R278). -/
def execRestart (src : Src) (b : Bus) (s : State) : Answer :=
  .next (rowWrite src (wordAt 0x8010 16 (busIdx b).val) (withBits s (wordAt 0x8010 16 (busIdx b).val) 8) .running (actRestart src b) s)

/-- A write of NBT, DBT or TDC (R257). -/
def execBitTimingWrite (src : Src) (b : Bus) (which : Fin 3) (data : Word) (s : State) : Answer :=
  .next (rowWrite src (wordAt 0x8010 16 (busIdx b).val (1 + which.val)) data .running (actBitTiming src b which data) s)

/-- A write of PM.LATCH (R288). -/
def execLatchClear (src : Src) (i : Fin 8) (data : Word) (s : State) : Answer :=
  .next (rowWrite src (wordAt 0x8418 1 i.val) data .core (actLatch src i data) s)

/-- PM FIRST_CLR (R309, Table 11-9). -/
def execFirstClr (src : Src) (s : State) : Answer :=
  .next (rowWrite src 0x8405 0x80000000 .core (actFirst src) s)

/-! ### Store, recorder and archive -/

/-- OCS.CMD USER_READ (R377). -/
def execUserRead (src : Src) (block : Fin 128) (s : State) : Answer :=
  .next (rowWrite src 0x9001 (word (1 + 0x100 * block.val)) .store (actUserRead src block) s)

/-- OCS.CMD USER_WRITE (R377, R397). -/
def execUserWrite (src : Src) (block : Fin 128) (s : State) : Answer :=
  .next (rowWrite src 0x9001 (word (2 + 0x100 * block.val)) .store (actUserWrite src block) s)

/-- OCS.CMD PROTECT (R377, R397). -/
def execProtect (src : Src) (level : BitVec 2) (s : State) : Answer :=
  .next (rowWrite src 0x9001 (word (3 + 0x10 * level.toNat)) .store (actProtect src level) s)

/-- OCS.CMD with an unlisted OP (R397). A listed OP is no such command, and the row leaves the device as it is. -/
def execOcsBadOp (src : Src) (op : BitVec 4) (s : State) : Answer :=
  .next (if 1 ≤ op.toNat ∧ op.toNat ≤ 3 then s else rowWrite src 0x9001 (word op.toNat) .store (actOcsBad src) s)

/-- ER.CMD TIME_SET (R404). -/
def execTimeSet (src : Src) (s : State) : Answer :=
  .next (rowWrite src 0x940A 1 .running (actTimeSet src) s)

/-- ER.CMD CLEAR (R415). -/
def execErClear (src : Src) (areas : BitVec 4) (s : State) : Answer :=
  .next (rowWrite src 0x940A (word (2 + 0x100 * areas.toNat)) .running (actErClear src areas) s)

/-- ER.CMD SELECT (R413). -/
def execSelect (src : Src) (areas : BitVec 4) (s : State) : Answer :=
  .next (rowWrite src 0x940A (word (3 + 0x100 * areas.toNat)) .running (actSelect src areas) s)

/-- BOG.CMD DISCOVER (R416). -/
def execDiscover (src : Src) (s : State) : Answer :=
  .next (rowWrite src 0x9801 1 .store (actDiscover src) s)

/-- BOG.CMD DETACH (R419). -/
def execDetach (src : Src) (s : State) : Answer :=
  .next (rowWrite src 0x9801 2 .store (actDetach src) s)

/-- BOG.CMD FORMAT (R417). -/
def execFormat (src : Src) (s : State) : Answer :=
  .next (rowWrite src 0x9801 3 .store (actFormat src) s)

/-- BOG.CMD READ_BLOCK (R425). -/
def execReadBlock (src : Src) (block : BitVec 24) (s : State) : Answer :=
  .next (rowWrite src 0x9801 (word (4 + 0x100 * block.toNat)) .store (actReadBlock src block) s)

/-- BOG.CMD READ_CAPBUF (R425). -/
def execReadCapbuf (src : Src) (part : BitVec 24) (s : State) : Answer :=
  .next (rowWrite src 0x9801 (word (5 + 0x100 * part.toNat)) .store (actReadCapbuf src part) s)

/-- BOG.CMD with an unlisted OP (R425). A listed OP is no such command, and the row leaves the device as it is. -/
def execBogBadOp (src : Src) (op : BitVec 3) (s : State) : Answer :=
  .next (if 1 ≤ op.toNat ∧ op.toNat ≤ 5 then s else rowWrite src 0x9801 (word op.toNat) .store (actBogBad src) s)

/-- BOG.CAP ARM (R421). -/
def execCaptureArm (src : Src) (s : State) : Answer :=
  .next (rowWrite src 0x9810 (withBits s 0x9810 1) .store (actCapArm src) s)

/-- BOG.CAP STOP (R421). -/
def execCaptureStop (src : Src) (s : State) : Answer :=
  .next (rowWrite src 0x9810 (withBits s 0x9810 2) .store (actCapStop src) s)

/-- BOG.CAP TRIGGER (R421). -/
def execTrigger (src : Src) (s : State) : Answer :=
  .next (rowWrite src 0x9810 (withBits s 0x9810 3) .store (actTrigger src) s)

/-! ### The two-wire port -/

/-- TWP.CMD RECOVER (R343). -/
def execRecover (src : Src) (sdaFreedAt : Option (Fin 9)) (s : State) : Answer :=
  .next (rowWrite src 0xA005 1 .running (actRecover src sdaFreedAt) s)

/-- TWP.CMD POLL_NOW (R339). -/
def execPollNow (src : Src) (e : Fin 32) (s : State) : Answer :=
  .next (rowWrite src 0xA005 (word (2 + 0x100 * e.val)) .running (actPollNow src e) s)

/-- A write of TWP.TIMING or TWP.TIMING2 (R329). -/
def execTwpTimingWrite (src : Src) (second : Bool) (data : Word) (s : State) : Answer :=
  .next (rowWrite src (if second then 0xA003 else 0xA002) data .running (actTwpTiming src second data) s)

end Sys2Proof.Machine
end

