-- ==== Sys2Proof/Machine/Tick.lean ====
section
/-! DEFINITION. One T-tick of 1.25 ns in which no command comes: what the clocks move by themselves (spec
05_timebase_interleave.md R138, R139, 16_ash_and_bog.md R403, 04_phase_lanes.md R99). The model's own choice, assumption 25. -/

namespace Sys2Proof.Machine

/-- HCLK advances the calendar: 65,536 on every HCLK cycle of 32 T-ticks, with a carry at 25,000,000 (R403). -/
def tickCalendar (tm : TimeBase) : TimeBase :=
  if tm.hphase.val < 31 then { tm with hphase := tm.hphase + 1 } else
  let acc := tm.calAcc + 65536
  if acc < 25000000 then { tm with hphase := 0, calAcc := acc }
  else { tm with hphase := 0, calAcc := acc - 25000000, cal := tm.cal + 1 }

/-- TIME advances on LCLK (R138), the device microsecond every 800 T-ticks of PLL0 (R139). -/
def tickCounts (tm : TimeBase) : TimeBase :=
  let time := if tm.lclk then tm.time + 1 else tm.time
  if tm.phase.val < 799 then { tm with time := time, phase := tm.phase + 1 }
  else { tm with time := time, phase := 0, us := tm.us + 1 }

/-- One T-tick of time. -/
def tickTime (tm : TimeBase) : TimeBase := if tm.running then tickCalendar (tickCounts tm) else tm

/-- Does a slot of a lane serve or run a calibration? -/
def laneInUse (d : Device) (n : Fin 64) : Bool :=
  (laneSlots n).any fun g => decide ((d.slot g).state = .serving) || decide ((d.slot g).state = .calibrating)

/-- One T-tick of a lane: its transmitter, and since when it is out of use (R362). -/
def tickLane (now : Nat) (d : Device) (n : Fin 64) (l : Lane) : Lane :=
  if !quadUp d (quadOfLane n) then l else
  let l := laneTick now l
  if laneInUse d n then { l with idleSince := now } else l

/-- SYNCOUT's pulse lasts 80 T-ticks: from the epoch at the reference, and from the SYNCIN edge that it forwards at the other
members (R149). -/
def tickRing (now : Nat) (r : Tracker) : Tracker :=
  match r.syncEnd with
  | some t => if t ≤ now then { r with syncout := false, syncEnd := none } else r
  | none => if 80 ≤ now % 800000 then { r with syncout := false } else r

/-- A BCLK cycle of four T-ticks starts: the functions in progress then (R323). -/
def tickFuncs (tm : TimeBase) (d : Device) : Device :=
  if tm.phase.val % 4 = 0 then { d with hsp := { d.hsp with busyFuncs := funcsRunning d } } else d

/-- The engine's rate and the sleep of the lanes follow TRIM from the next device microsecond (Table 14-5, Table 2-2). -/
def tickTrim (tm : TimeBase) (d : Device) : Device :=
  if tm.phase = 0 then { d with clk := { d.clk with trim := decide (d.pwr.mode = .trim) } } else d

/-- One T-tick of the device. -/
def tickDevice (tm : TimeBase) (d : Device) : Device :=
  let now := tm.time.toNat
  let d := tickTrim tm <| tickFuncs tm (tickRecovery tm { d with lanes := bankMap d.lanes (tickLane now d) })
  settleAlert { d with
    tbi := { d.tbi with ring := tickRing now d.tbi.ring }
    ring := ringLinkTick (ringLive d) d.ring }

/-- One T-tick: none while PLL0 does not run. -/
def tick (s : State) : State :=
  if !s.tm.running then s else
  let tm := tickTime s.tm
  let t : State := resumeSup { s with tm := tm, dev := tickDevice tm s.dev }
  match t.dev.pwr.waking with
  | some cause => if tm.phase = 0 then resumeNow cause t else t
  | none => t

end Sys2Proof.Machine
end

