-- ==== Sys2Proof/Machine/Dispatch.lean ====
section
/-! DEFINITION. One arm per command: the meaning of each row of spec/opcode_table.json. -/

namespace Sys2Proof.Machine

def exec (i : Instr) (s : State) : Host.Outcome State Fault Refusal :=
  match i with
  | .registerWrite src addr data => Sys2Proof.Machine.execRegisterWrite src addr data s
  | .pairLowRead p addr => Sys2Proof.Machine.execPairLowRead p addr s
  | .pairHighRead p addr => Sys2Proof.Machine.execPairHighRead p addr s
  | .pairLowWrite p addr data => Sys2Proof.Machine.execPairLowWrite p addr data s
  | .pairHighWrite p addr data => Sys2Proof.Machine.execPairHighWrite p addr data s
  | .supplyTrip => Sys2Proof.Machine.execSupplyTrip s
  | .supplyRelease => Sys2Proof.Machine.execSupplyRelease s
  | .rstNLow => Sys2Proof.Machine.execRstNLow s
  | .resetCtrlWarm src => Sys2Proof.Machine.execResetCtrlWarm src s
  | .resetCtrlSupervisor src => Sys2Proof.Machine.execResetCtrlSupervisor src s
  | .resetCtrlQuadrant src q => Sys2Proof.Machine.execResetCtrlQuadrant src q s
  | .quadrantReset q => Sys2Proof.Machine.execQuadrantReset q s
  | .quadrantResetTimeout q => Sys2Proof.Machine.execQuadrantResetTimeout q s
  | .watchdogExpiry => Sys2Proof.Machine.execWatchdogExpiry s
  | .ramError blk correctable => Sys2Proof.Machine.execRamError blk correctable s
  | .busTimeout src => Sys2Proof.Machine.execBusTimeout src s
  | .stalledAccessComplete p => Sys2Proof.Machine.execStalledAccessComplete p s
  | .clockLoss => Sys2Proof.Machine.execClockLoss s
  | .refclkPresent => Sys2Proof.Machine.execRefclkPresent s
  | .pll0Lock => Sys2Proof.Machine.execPll0Lock s
  | .pllLockTimeout => Sys2Proof.Machine.execPllLockTimeout s
  | .pfailFall => Sys2Proof.Machine.execPfailFall s
  | .pfailRecovered => Sys2Proof.Machine.execPfailRecovered s
  | .startupFilterEnd => Sys2Proof.Machine.execStartupFilterEnd s
  | .wipeEnd => Sys2Proof.Machine.execWipeEnd s
  | .storeRecoveryEnd => Sys2Proof.Machine.execStoreRecoveryEnd s
  | .wholeApplyEnd => Sys2Proof.Machine.execWholeApplyEnd s
  | .ready => Sys2Proof.Machine.execReady s
  | .strapStartTimer => Sys2Proof.Machine.execStrapStartTimer s
  | .supervisorStart => Sys2Proof.Machine.execSupervisorStart s
  | .imgDataWrite src data => Sys2Proof.Machine.execImgDataWrite src data s
  | .imgErase src slot => Sys2Proof.Machine.execImgErase src slot s
  | .imgSeal src slot => Sys2Proof.Machine.execImgSeal src slot s
  | .liveOpen src slot => Sys2Proof.Machine.execLiveOpen src slot s
  | .apply src kind index => Sys2Proof.Machine.execApply src kind index s
  | .imgConfirm src => Sys2Proof.Machine.execImgConfirm src s
  | .imgRollback src => Sys2Proof.Machine.execImgRollback src s
  | .imgBadOp src op => Sys2Proof.Machine.execImgBadOp src op s
  | .railSectionTakeEffect r => Sys2Proof.Machine.execRailSectionTakeEffect r s
  | .schedSectionTakeEffect => Sys2Proof.Machine.execSchedSectionTakeEffect s
  | .hkeepSectionTakeEffect => Sys2Proof.Machine.execHkeepSectionTakeEffect s
  | .periphSectionTakeEffect => Sys2Proof.Machine.execPeriphSectionTakeEffect s
  | .upstreamLock n => Sys2Proof.Machine.execUpstreamLock n s
  | .trainingPollTimer n => Sys2Proof.Machine.execTrainingPollTimer n s
  | .trainingStepTimeout n => Sys2Proof.Machine.execTrainingStepTimeout n s
  | .laneTrainingEnd n ident => Sys2Proof.Machine.execLaneTrainingEnd n ident s
  | .upstreamLossOfLock loss => Sys2Proof.Machine.execUpstreamLossOfLock loss s
  | .retrainAttemptEnd n result => Sys2Proof.Machine.execRetrainAttemptEnd n result s
  | .laneRetrain src n => Sys2Proof.Machine.execLaneRetrain src n s
  | .laneDisable src n => Sys2Proof.Machine.execLaneDisable src n s
  | .laneDisableTakeEffect n => Sys2Proof.Machine.execLaneDisableTakeEffect n s
  | .timeCellTimer => Sys2Proof.Machine.execTimeCellTimer s
  | .sampleRaw n slot f late body => Sys2Proof.Machine.execSampleRaw n slot f late body s
  | .sampleCmp n slot f late body => Sys2Proof.Machine.execSampleCmp n slot f late body s
  | .meas n slot vout vin temp => Sys2Proof.Machine.execMeas n slot vout vin temp s
  | .status n slot modslots dnCrc late fault state => Sys2Proof.Machine.execStatus n slot modslots dnCrc late fault state s
  | .reply n slot addr tag data result => Sys2Proof.Machine.execReply n slot addr tag data result s
  | .echoReply n tag turn rtd => Sys2Proof.Machine.execEchoReply n tag turn rtd s
  | .upstreamCellError n symbolErrors => Sys2Proof.Machine.execUpstreamCellError n symbolErrors s
  | .replyTimeout g => Sys2Proof.Machine.execReplyTimeout g s
  | .calibration g => Sys2Proof.Machine.execCalibration g s
  | .sampleMissing g => Sys2Proof.Machine.execSampleMissing g s
  | .slotAdmit src g => Sys2Proof.Machine.execSlotAdmit src g s
  | .refuse src g => Sys2Proof.Machine.execRefuse src g s
  | .recal src g => Sys2Proof.Machine.execRecal src g s
  | .calSave src g => Sys2Proof.Machine.execCalSave src g s
  | .identifyOn src g => Sys2Proof.Machine.execIdentifyOn src g s
  | .identifyOff src g => Sys2Proof.Machine.execIdentifyOff src g s
  | .slotCalWrite src g voltage data => Sys2Proof.Machine.execSlotCalWrite src g voltage data s
  | .biasTimer => Sys2Proof.Machine.execBiasTimer s
  | .housekeepingBias => Sys2Proof.Machine.execHousekeepingBias s
  | .carrierStart g => Sys2Proof.Machine.execCarrierStart g s
  | .edgeBuild g => Sys2Proof.Machine.execEdgeBuild g s
  | .baseSet src r base => Sys2Proof.Machine.execBaseSet src r base s
  | .epochPulse => Sys2Proof.Machine.execEpochPulse s
  | .syncinEdge fine => Sys2Proof.Machine.execSyncinEdge fine s
  | .syncPulseMissing => Sys2Proof.Machine.execSyncPulseMissing s
  | .evaluationStart slice => Sys2Proof.Machine.execEvaluationStart slice s
  | .evaluationComplete slice => Sys2Proof.Machine.execEvaluationComplete slice s
  | .resultRelease loop => Sys2Proof.Machine.execResultRelease loop s
  | .evaluationDeadline loop => Sys2Proof.Machine.execEvaluationDeadline loop s
  | .loopClear src r => Sys2Proof.Machine.execLoopClear src r s
  | .leClear src => Sys2Proof.Machine.execLeClear src s
  | .atStart src r loop rule => Sys2Proof.Machine.execAtStart src r loop rule s
  | .atStop src => Sys2Proof.Machine.execAtStop src s
  | .autotuneTimeout => Sys2Proof.Machine.execAutotuneTimeout s
  | .arm src r => Sys2Proof.Machine.execArm src r s
  | .disarm src r => Sys2Proof.Machine.execDisarm src r s
  | .start src r => Sys2Proof.Machine.execStart src r s
  | .startMeasurementEnd r => Sys2Proof.Machine.execStartMeasurementEnd r s
  | .stop src r => Sys2Proof.Machine.execStop src r s
  | .softstop src r => Sys2Proof.Machine.execSoftstop src r s
  | .clear src r => Sys2Proof.Machine.execClear src r s
  | .retire src r pos => Sys2Proof.Machine.execRetire src r pos s
  | .restore src r pos => Sys2Proof.Machine.execRestore src r pos s
  | .railBadOp src r op => Sys2Proof.Machine.execRailBadOp src r op s
  | .vsetWrite src r data => Sys2Proof.Machine.execVsetWrite src r data s
  | .vnextWrite src r data => Sys2Proof.Machine.execVnextWrite src r data s
  | .windowWrite src r high data => Sys2Proof.Machine.execWindowWrite src r high data s
  | .rampStep => Sys2Proof.Machine.execRampStep s
  | .rampTimeout r => Sys2Proof.Machine.execRampTimeout r s
  | .holdTimeout r => Sys2Proof.Machine.execHoldTimeout r s
  | .retryTimer r => Sys2Proof.Machine.execRetryTimer r s
  | .retriesResetTimer r => Sys2Proof.Machine.execRetriesResetTimer r s
  | .trippedClear src r idx data => Sys2Proof.Machine.execTrippedClear src r idx data s
  | .kindlingWarmStart e => Sys2Proof.Machine.execKindlingWarmStart e s
  | .vreqExpiry r h => Sys2Proof.Machine.execVreqExpiry r h s
  | .hearthTick => Sys2Proof.Machine.execHearthTick s
  | .entryCompletionTimeout e => Sys2Proof.Machine.execEntryCompletionTimeout e s
  | .pauseUpdate r => Sys2Proof.Machine.execPauseUpdate r s
  | .supervisorAbsence => Sys2Proof.Machine.execSupervisorAbsence s
  | .heartbeat => Sys2Proof.Machine.execHeartbeat s
  | .planPass => Sys2Proof.Machine.execPlanPass s
  | .plan e start => Sys2Proof.Machine.execPlan e start s
  | .invalidate e => Sys2Proof.Machine.execInvalidate e s
  | .squash e hint => Sys2Proof.Machine.execSquash e hint s
  | .ringFrame bytes => Sys2Proof.Machine.execRingFrame bytes s
  | .ringShareTimeout => Sys2Proof.Machine.execRingShareTimeout s
  | .syncTimer => Sys2Proof.Machine.execSyncTimer s
  | .syncDrop bus => Sys2Proof.Machine.execSyncDrop bus s
  | .frameTransmitted bus done => Sys2Proof.Machine.execFrameTransmitted bus done s
  | .txFrameTimeout bus => Sys2Proof.Machine.execTxFrameTimeout bus s
  | .grantUnsentAtStart e => Sys2Proof.Machine.execGrantUnsentAtStart e s
  | .partnerFrameDiscard bus id payload => Sys2Proof.Machine.execPartnerFrameDiscard bus id payload s
  | .join bus node unit nonce jflags prevHandle proto => Sys2Proof.Machine.execJoin bus node unit nonce jflags prevHandle proto s
  | .leave bus node handle unit => Sys2Proof.Machine.execLeave bus node handle unit s
  | .keepalive bus node handle unit => Sys2Proof.Machine.execKeepalive bus node handle unit s
  | .motionReq bus node handle tag segs cls unit earliest latest profile => Sys2Proof.Machine.execMotionReq bus node handle tag segs cls unit earliest latest profile s
  | .cancel bus node handle tag entry => Sys2Proof.Machine.execCancel bus node handle tag entry s
  | .reverse bus node handle tag segs entry profile => Sys2Proof.Machine.execReverse bus node handle tag segs entry profile s
  | .complete bus node handle tag entry => Sys2Proof.Machine.execComplete bus node handle tag entry s
  | .vreq bus node handle tag value => Sys2Proof.Machine.execVreq bus node handle tag value s
  | .leaseExpiry h => Sys2Proof.Machine.execLeaseExpiry h s
  | .holdoffEnd h => Sys2Proof.Machine.execHoldoffEnd h s
  | .orphanHandleTimeout => Sys2Proof.Machine.execOrphanHandleTimeout s
  | .evict src h => Sys2Proof.Machine.execEvict src h s
  | .busErrorPassive bus => Sys2Proof.Machine.execBusErrorPassive bus s
  | .busOff bus => Sys2Proof.Machine.execBusOff bus s
  | .restart src bus => Sys2Proof.Machine.execRestart src bus s
  | .busOffRecoveryEnd bus => Sys2Proof.Machine.execBusOffRecoveryEnd bus s
  | .bitTimingWrite src bus which data => Sys2Proof.Machine.execBitTimingWrite src bus which data s
  | .vsenseConversion v code => Sys2Proof.Machine.execVsenseConversion v code s
  | .latchClear src idx data => Sys2Proof.Machine.execLatchClear src idx data s
  | .firstClr src => Sys2Proof.Machine.execFirstClr src s
  | .housekeepingRound thm supplyUv => Sys2Proof.Machine.execHousekeepingRound thm supplyUv s
  | .housekeepingRoundEnd => Sys2Proof.Machine.execHousekeepingRoundEnd s
  | .dieSample temps => Sys2Proof.Machine.execDieSample temps s
  | .shutdownRecordWrite => Sys2Proof.Machine.execShutdownRecordWrite s
  | .storeWindowOpen => Sys2Proof.Machine.execStoreWindowOpen s
  | .hostRead fixed addr len hcrc => Sys2Proof.Machine.execHostRead fixed addr len hcrc s
  | .hostWrite fixed addr data hcrc => Sys2Proof.Machine.execHostWrite fixed addr data hcrc s
  | .hostStatus hcrc => Sys2Proof.Machine.execHostStatus hcrc s
  | .fetch hcrc => Sys2Proof.Machine.execFetch hcrc s
  | .malformedFrame cmd => Sys2Proof.Machine.execMalformedFrame cmd s
  | .frameCutOff stage => Sys2Proof.Machine.execFrameCutOff stage s
  | .abortAutotune way => Sys2Proof.Machine.execAbortAutotune way s
  | .abortRailApply way r => Sys2Proof.Machine.execAbortRailApply way r s
  | .abortStoreOperation way => Sys2Proof.Machine.execAbortStoreOperation way s
  | .abortBogTransfer way => Sys2Proof.Machine.execAbortBogTransfer way s
  | .abortTwoWire way sdaHeld freedAt => Sys2Proof.Machine.execAbortTwoWire way sdaHeld freedAt s
  | .abortLaneTraining way n => Sys2Proof.Machine.execAbortLaneTraining way n s
  | .abortSession way target => Sys2Proof.Machine.execAbortSession way target s
  | .abortPendingAccess way target => Sys2Proof.Machine.execAbortPendingAccess way target s
  | .abortGlobal way => Sys2Proof.Machine.execAbortGlobal way s
  | .badFunc way func index => Sys2Proof.Machine.execBadFunc way func index s
  | .abortDone p => Sys2Proof.Machine.execAbortDone p s
  | .twpTargetWrite write => Sys2Proof.Machine.execTwpTargetWrite write s
  | .twpTargetRead pointer words => Sys2Proof.Machine.execTwpTargetRead pointer words s
  | .twpBusError role => Sys2Proof.Machine.execTwpBusError role s
  | .twpClockLowTimeout role => Sys2Proof.Machine.execTwpClockLowTimeout role s
  | .twpStretchTimeout => Sys2Proof.Machine.execTwpStretchTimeout s
  | .alertResponse won => Sys2Proof.Machine.execAlertResponse won s
  | .periphPollDue e => Sys2Proof.Machine.execPeriphPollDue e s
  | .periphPoll e outcome => Sys2Proof.Machine.execPeriphPoll e outcome s
  | .recover src sdaFreedAt => Sys2Proof.Machine.execRecover src sdaFreedAt s
  | .recoveryRetryTimer sdaFreedAt => Sys2Proof.Machine.execRecoveryRetryTimer sdaFreedAt s
  | .pollNow src e => Sys2Proof.Machine.execPollNow src e s
  | .twpTimingWrite src second data => Sys2Proof.Machine.execTwpTimingWrite src second data s
  | .openSession p level => Sys2Proof.Machine.execOpenSession p level s
  | .prove p => Sys2Proof.Machine.execProve p s
  | .close p => Sys2Proof.Machine.execClose p s
  | .sessionIdleTimeout p => Sys2Proof.Machine.execSessionIdleTimeout p s
  | .lockoutEnd p => Sys2Proof.Machine.execLockoutEnd p s
  | .keyCmd src target => Sys2Proof.Machine.execKeyCmd src target s
  | .lcCommission src => Sys2Proof.Machine.execLcCommission src s
  | .lcService src => Sys2Proof.Machine.execLcService src s
  | .lcMaintain src => Sys2Proof.Machine.execLcMaintain src s
  | .lcRetired src => Sys2Proof.Machine.execLcRetired src s
  | .lcReturn src => Sys2Proof.Machine.execLcReturn src s
  | .lcWipesComplete => Sys2Proof.Machine.execLcWipesComplete s
  | .tapReset => Sys2Proof.Machine.execTapReset s
  | .debugReset => Sys2Proof.Machine.execDebugReset s
  | .dbgChal => Sys2Proof.Machine.execDbgChal s
  | .dbgToken scope token => Sys2Proof.Machine.execDbgToken scope token s
  | .dbgAccess op => Sys2Proof.Machine.execDbgAccess op s
  | .driveInstruction kind => Sys2Proof.Machine.execDriveInstruction kind s
  | .pwrRun src => Sys2Proof.Machine.execPwrRun src s
  | .pwrTrim src => Sys2Proof.Machine.execPwrTrim src s
  | .pwrStandby src => Sys2Proof.Machine.execPwrStandby src s
  | .qopSmoulder src q => Sys2Proof.Machine.execQopSmoulder src q s
  | .qopQrun src q => Sys2Proof.Machine.execQopQrun src q s
  | .smoulderTimeout q => Sys2Proof.Machine.execSmoulderTimeout q s
  | .wake cause => Sys2Proof.Machine.execWake cause s
  | .laneReceiverSleep n => Sys2Proof.Machine.execLaneReceiverSleep n s
  | .fwDataWrite src data => Sys2Proof.Machine.execFwDataWrite src data s
  | .fwErase src slot => Sys2Proof.Machine.execFwErase src slot s
  | .fwSeal src slot => Sys2Proof.Machine.execFwSeal src slot s
  | .switch src slot => Sys2Proof.Machine.execSwitch src slot s
  | .fwConfirm src => Sys2Proof.Machine.execFwConfirm src s
  | .fwRollback src => Sys2Proof.Machine.execFwRollback src s
  | .fwBadOp src op => Sys2Proof.Machine.execFwBadOp src op s
  | .fwTrialTimeout => Sys2Proof.Machine.execFwTrialTimeout s
  | .chunkProgramComplete verified => Sys2Proof.Machine.execChunkProgramComplete verified s
  | .sectorEraseComplete verified => Sys2Proof.Machine.execSectorEraseComplete verified s
  | .userRead src block => Sys2Proof.Machine.execUserRead src block s
  | .userWrite src block => Sys2Proof.Machine.execUserWrite src block s
  | .protect src level => Sys2Proof.Machine.execProtect src level s
  | .ocsBadOp src op => Sys2Proof.Machine.execOcsBadOp src op s
  | .eventRecordWrite => Sys2Proof.Machine.execEventRecordWrite s
  | .repeatChainEnd => Sys2Proof.Machine.execRepeatChainEnd s
  | .timeSet src => Sys2Proof.Machine.execTimeSet src s
  | .erClear src areas => Sys2Proof.Machine.execErClear src areas s
  | .select src areas => Sys2Proof.Machine.execSelect src areas s
  | .bogBlockWrite => Sys2Proof.Machine.execBogBlockWrite s
  | .discover src => Sys2Proof.Machine.execDiscover src s
  | .detach src => Sys2Proof.Machine.execDetach src s
  | .format src => Sys2Proof.Machine.execFormat src s
  | .readBlock src block => Sys2Proof.Machine.execReadBlock src block s
  | .readCapbuf src part => Sys2Proof.Machine.execReadCapbuf src part s
  | .bogBadOp src op => Sys2Proof.Machine.execBogBadOp src op s
  | .captureArm src => Sys2Proof.Machine.execCaptureArm src s
  | .captureStop src => Sys2Proof.Machine.execCaptureStop src s
  | .trigger src => Sys2Proof.Machine.execTrigger src s
  | .captureSample => Sys2Proof.Machine.execCaptureSample s
  | .captureCopyComplete => Sys2Proof.Machine.execCaptureCopyComplete s
  | .rstNRise => Sys2Proof.Machine.execRstNRise s
  | .pfailNRise => Sys2Proof.Machine.execPfailNRise s
  | .imgCheckEnd => Sys2Proof.Machine.execImgCheckEnd s
  | .codeFlashOperationEnd => Sys2Proof.Machine.execCodeFlashOperationEnd s
  | .archiveFlashOperationEnd result => Sys2Proof.Machine.execArchiveFlashOperationEnd result s
  | .twpBusFree => Sys2Proof.Machine.execTwpBusFree s
  | .quadrantDomainOn q => Sys2Proof.Machine.execQuadrantDomainOn q s

end Sys2Proof.Machine
end

