-- ==== Sys2Proof/Safety.lean ====
section
/-! DEFINITION. The terms in which the statements speak: a command that completes, time that keeps R139, store memory in its
canonical form, the room of the event queue, and the part of the device that the energy side leaves alone. -/

namespace Sys2Proof.Machine

/-- A command completes in a state, with this next state. -/
abbrev Runs (c : Instr) (s t : State) : Prop := exec c s = .next t

/-- What only the host, the guard, resets and the clocks may change: SYS, the clock tree (but for TRIM), the pins, the structure in
force, the guard, the firmware, the host port (but for HSP.EVT, which an auto-tune run sets as it ends), the ports' accesses, the
two-wire port and the carriers. -/
def spare (d : Device) : Sys × Clk × Pins × Structure × Guard × Firmware × HostPort × Bank 3 PortState × TwoWire × Bank 8 Carrier :=
  (d.sys, { d.clk with trim := false }, d.pins, d.str, d.sg, d.fw, { d.hsp with evt := 0 }, d.ports, d.twp, d.tbi.carriers)

/-- The commands that are no register access: what modules, timers, the engine, partners and the ring bring about. -/
def energySide (c : Instr) : Bool :=
  match c with
  | .strapStartTimer | .upstreamLock _ | .trainingPollTimer _ | .trainingStepTimeout _ | .laneTrainingEnd _ _
  | .upstreamLossOfLock _ | .retrainAttemptEnd _ _ | .laneDisableTakeEffect _ | .timeCellTimer | .sampleRaw _ _ _ _ _
  | .sampleCmp _ _ _ _ _ | .meas _ _ _ _ _ | .status _ _ _ _ _ _ _ | .reply _ _ _ _ _ _ | .echoReply _ _ _ _
  | .upstreamCellError _ _ | .replyTimeout _ | .calibration _ | .sampleMissing _ | .biasTimer | .housekeepingBias
  | .edgeBuild _ | .epochPulse | .syncinEdge _ | .syncPulseMissing | .evaluationStart _ | .evaluationComplete _
  | .resultRelease _ | .evaluationDeadline _ | .autotuneTimeout | .startMeasurementEnd _ | .rampStep | .rampTimeout _
  | .holdTimeout _ | .retryTimer _ | .retriesResetTimer _ | .kindlingWarmStart _ | .vreqExpiry _ _ | .hearthTick
  | .entryCompletionTimeout _ | .pauseUpdate _ | .supervisorAbsence | .planPass
  | .ringFrame _ | .ringShareTimeout | .syncTimer | .syncDrop _ | .frameTransmitted _ _
  | .txFrameTimeout _ | .grantUnsentAtStart _ | .partnerFrameDiscard _ _ _ | .join _ _ _ _ _ _ _ | .leave _ _ _ _
  | .keepalive _ _ _ _ | .motionReq _ _ _ _ _ _ _ _ _ _ | .cancel _ _ _ _ _ | .reverse _ _ _ _ _ _ _
  | .complete _ _ _ _ _ | .vreq _ _ _ _ _ | .leaseExpiry _ | .holdoffEnd _ | .orphanHandleTimeout | .busErrorPassive _
  | .busOff _ | .busOffRecoveryEnd _ | .housekeepingRound _ _ | .laneReceiverSleep _ | .quadrantDomainOn _ => true
  | _ => false

/-- The event queue keeps its room: at most 60 entries outside the four that are reserved (R409). -/
def EventsBounded (d : Device) : Prop :=
  (d.er.queue.filter (·.spare)).length ≤ 4 ∧ (d.er.queue.filter fun e => !e.spare).length ≤ 60

/-- While LCLK runs, TIME is 800 times the device microsecond plus the T-tick in it (R139). -/
def TimeHolds (tm : TimeBase) : Prop :=
  tm.lclk = true → tm.time = BitVec.ofNat 64 (800 * tm.us.toNat + tm.phase.val)

/-- The memories of the on-chip store and of the two code slots are in their canonical form. -/
def MemoryHolds (nv : NonVol) : Prop :=
  cellsWf nv.flash = true ∧ ∀ k : Fin 2, cellsWf (bankGet nv.code k).bytes = true

end Sys2Proof.Machine
end

