-- ==== Sys2Proof/Certificates/Slice0/Obligations.lean ====
section
/-! DEFINITION. The statements for the provers, family by family. -/

open Sys2Proof Sys2Proof.Machine

/-- A source's write of one word reaches its register: the source has no access pending that turns it away (R317, R335), the
word's window answers (R48), and the window's clock runs (R45). -/
def Reaches (src : Src) (win : Window) (s : State) : Prop :=
  takesWrite src s.dev = true ∧ shutFor src win s = false ∧ win.runs s.dev = true

/-- What a write of one word leaves with status `st` when its effect on the device is `f`: the access begins and ends as any other
of its source does. What these two touch, WordsFrame says. -/
def Wrote (src : Src) (a : Addr) (st : Byte) (f : Device → Device) (s : State) : State :=
  ((rowStarts src a s).onDev f).onDev (rowEnds src a st)

/-- Two devices differ in nothing but what an access of a port leaves: the port's own state and answer (R317, R335), its
session's last use (R353), and the alert that has been acknowledged (R338). -/
def SameButAccess (d t : Device) : Prop :=
  ∃ hsp ports twp sgPorts, t = { d with hsp := hsp, ports := ports, twp := twp, sg := { d.sg with ports := sgPorts } } ∧
    (∀ p, ∃ use, bankGet sgPorts p = { bankGet d.sg.ports p with lastUse := use }) ∧
    hsp = { d.hsp with lastAddr := hsp.lastAddr, lastWrite := hsp.lastWrite, lastStatus := hsp.lastStatus } ∧
    twp = { d.twp with busBusy := twp.busBusy, acked := twp.acked, pointer := twp.pointer, sent := twp.sent,
                       lastStatus := twp.lastStatus, lastAddr := twp.lastAddr, alertAcked := twp.alertAcked }

/-! ### Resets and start-up (02_clocks_reset_crossings.md) -/

/-- The device as a cold, warm or debug reset leaves it (R34): every part at its reset value, but for the pins, the count of
free values drawn, SYS.RESET_CAUSE, WARMCOUNT, the count of lost events (R39), the internal faults whose records the next start-up
writes (R28, R33), and PFAIL_N's effect while it is low. -/
def ResetDevice (pins : Pins) (cause : BitVec 8) (warm : BitVec 16) (lost : Nat) (faults : List (Nat × Nat)) (d : Device) : Device :=
  { Device.reset with
    pins := pins
    draws := d.draws
    sys := { Sys.reset with
      step := if pins.supplyOk && pins.rstN then .filter else .held
      cause := cause
      warmCount := warm
      lostEvents := lost
      faults := faults }
    ocs := { Store.reset with pfail := !pins.pfailN }
    er := { Recorder.reset with pfail := !pins.pfailN } }

/-- The events that a reset loses (R39): those in the queue, with those that earlier resets of an unfinished start-up lost. -/
def LostAt (d : Device) : Nat := (if d.er.started then 0 else d.sys.lostEvents) + d.er.queue.length

/-- The internal fault that an uncorrectable RAM error of a block leaves for the next start-up's record (R28): KIND 1, and the code
nibble of the block. -/
def RamFault : RamBlock → List (Nat × Nat)
  | .le => [(1, 3)]
  | .tbi => [(1, 2)]
  | .pli => [(1, 2)]
  | .hs => [(1, 5)]
  | .other => []

/-- SUPPLY_TRIP, RST_N_LOW, RESET_CTRL_WARM, CLOCK_LOSS, DEBUG_RESET and an uncorrectable RAM_ERROR of LE, TBI, PLI or HS complete
with the reset of their kind: every part of the device at its reset value, time stopped at 0, and the commands that wait left
alone; a clock loss and a RAM error leave their fault for the next start-up's record. The cold reset is taken in every state; a
warm one while step 1 is held is absorbed, which ResetsOverlap says (R36). RESET_CTRL_WARM needs a write that its port takes, at
ENGINEER. What the store keeps is resetFlash's (R33, R374). -/
def Obligations.ResetsComplete : Prop :=
  (∀ s : State, exec .supplyTrip s = .next { s with
    tm := TimeBase.reset
    nv := resetFlash true s.nv s.dev
    dev := ResetDevice { s.dev.pins with supplyOk := false } 1 0 0 [] s.dev }) ∧
  (∀ s : State, s.dev.sys.step ≠ .held → exec .rstNLow s = .next { s with
    tm := TimeBase.reset
    nv := resetFlash false s.nv s.dev
    dev := ResetDevice { s.dev.pins with rstN := false } (setBit s.dev.sys.cause 1) (satInc s.dev.sys.warmCount) (LostAt s.dev)
      s.dev.sys.faults s.dev }) ∧
  (∀ (src : Src) (s : State), s.dev.sys.step ≠ .held → takesWrite src s.dev = true → mayEarly s.dev src .engineer = true →
    exec (.resetCtrlWarm src) s = .next { s with
      tm := TimeBase.reset
      nv := resetFlash false s.nv s.dev
      dev := ResetDevice s.dev.pins (setBit s.dev.sys.cause 2) (satInc s.dev.sys.warmCount) (LostAt s.dev) s.dev.sys.faults
        s.dev }) ∧
  (∀ s : State, s.dev.sys.step ≠ .held → s.dev.clk.pllLock = true → ∃ t, exec .clockLoss s = .next t ∧
    t.tm = TimeBase.reset ∧ t.nv = resetFlash false s.nv s.dev ∧ t.pending = s.pending ∧
    t.dev = { ResetDevice { s.dev.pins with refclk := false } (setBit s.dev.sys.cause 3) (satInc s.dev.sys.warmCount)
        (LostAt s.dev) (s.dev.sys.faults ++ [(3, 0)]) s.dev with
      pm := { Protect.reset with clockLoss := true }
      clk := { Clk.reset with pllTrying := false } }) ∧
  (∀ s : State, s.dev.sys.step ≠ .held → s.dev.sg.auth ≠ .none → exec .debugReset s = .next { s with
    tm := TimeBase.reset
    nv := resetFlash false s.nv s.dev
    dev := ResetDevice s.dev.pins (setBit s.dev.sys.cause 5) (satInc s.dev.sys.warmCount) (LostAt s.dev) s.dev.sys.faults
      s.dev }) ∧
  (∀ (blk : RamBlock) (s : State), s.dev.sys.step ≠ .held → blk ≠ .other → exec (.ramError blk false) s = .next { s with
    tm := TimeBase.reset
    nv := resetFlash false s.nv s.dev
    dev := ResetDevice s.dev.pins (setBit s.dev.sys.cause 4) (satInc s.dev.sys.warmCount) (LostAt s.dev)
      (s.dev.sys.faults ++ RamFault blk) s.dev })

/-- PFAIL_FALL, PFAIL_N_RISE and PFAIL_RECOVERED (R37, R412): the fall opens a brownout, holds the store's and the recorder's
writes, and puts BROWNOUT with the count of waiting events at the head of the queue; a fall within the episode holds them again
without a record; the rise adds the low time to what BROWNOUT_END will carry; 10 ms later the brownout ends and the holds with it,
and a start-up that waited for it goes on with step 5 (R50). -/
def Obligations.PowerFails : Prop :=
  (∀ s : State, s.dev.pins.pfailN = true → s.dev.sys.brownout = false → ∃ t, exec .pfailFall s = .next t ∧
    t.tm = s.tm ∧ t.pending = s.pending ∧ t.dev.rails = s.dev.rails ∧ t.dev.lanes = s.dev.lanes ∧
    t.dev.pins = { s.dev.pins with pfailN := false } ∧ t.dev.sys = { s.dev.sys with brownout := true } ∧
    t.dev.ocs.pfail = true ∧ t.dev.er.pfail = true ∧ t.dev.er.pfailLeft = 4 ∧ t.dev.er.pfailAt = s.tm.us.toNat ∧
    t.dev.er.pfailLow = 0 ∧
    (s.dev.er.writing = none → s.dev.er.chains = [] → (s.dev.er.queue.filter (·.spare)).length < 4 →
      (t.dev.er.queue.head?).map (fun e => (e.code, e.payload)) =
        some (0x02, [byte s.dev.er.queue.length] ++ List.replicate 15 0))) ∧
  (∀ s : State, s.dev.pins.pfailN = true → s.dev.sys.brownout = true → ∃ nv ocs, exec .pfailFall s = .next { s with
    nv := nv
    dev := { s.dev with
      pins := { s.dev.pins with pfailN := false }
      ocs := ocs
      er := { s.dev.er with pfail := true, pfailAt := s.tm.us.toNat } } } ∧ ocs.pfail = true) ∧
  (∀ s : State, s.dev.pins.pfailN = false → s.dev.sys.brownout = true → exec .pfailNRise s = .next { s with dev := { s.dev with
    pins := { s.dev.pins with pfailN := true }
    er := { s.dev.er with pfailLow := s.dev.er.pfailLow + (s.tm.us.toNat - s.dev.er.pfailAt) } } }) ∧
  (∀ s : State, s.dev.pins.pfailN = false → s.dev.sys.brownout = false → exec .pfailNRise s = .next { s with dev := { s.dev with
    pins := { s.dev.pins with pfailN := true } } }) ∧
  (∀ s : State, s.dev.pins.pfailN = true → s.dev.ocs.pfail = true → ∃ t, exec .pfailRecovered s = .next t ∧
    t.tm = s.tm ∧ t.nv = s.nv ∧ t.pending = s.pending ∧ t.dev.sys.brownout = false ∧
    t.dev.sys.step = (if s.dev.sys.step = .pfailHold then .apply else s.dev.sys.step) ∧
    t.dev.ocs.pfail = false ∧ t.dev.er.pfail = false ∧ t.dev.rails = s.dev.rails ∧ t.dev.lanes = s.dev.lanes)

/-- The two-wire port at the end of step 3, after a reset that left SDA as it was: where SDA is low a recovery begins (R343).
Whether it is low the spec leaves open, and so does the model (assumption 118). -/
def RecoversBus (d : Device) (twp : TwoWire) : Prop :=
  match Config.sdaAfterReset d.draws with
  | none => twp = d.twp
  | some freedAt => d.twp.en = true → d.twp.sclStuck = false → d.twp.recovery = none → ∃ endsAt, twp =
      { d.twp with busBusy := true, retryFrom := none, recovery := some ⟨freedAt, none, endsAt⟩ }

/-- The steps of Table 2-6 in their order (STARTUP_FILTER_END, WIPE_END, PLL0_LOCK, REFCLK_PRESENT, PLL_LOCK_TIMEOUT,
STORE_RECOVERY_END, WHOLE_APPLY_END, READY): each ends with the command that stands for it, latches what the step latches, and
begins the next one; without PLL0's lock step 3 waits (R46, R49); recovery waits while the store window is closed (R307); with
PFAIL_N low on reaching step 4 the sequence waits for it (R50); and step 6 puts the running slot's image into force, or the
strap structure where there is none (R53). SUPPLY_RELEASE and RST_N_RISE end the hold of step 1: its filter runs once the
supplies are in range and RST_N is high, and in any other step the pin alone changes (R34, R46 step 1). -/
def Obligations.StartupSteps : Prop :=
  (∀ s : State, s.dev.sys.step = .filter → ∃ lc lcPending, exec .startupFilterEnd s = .next { s with dev := { s.dev with
    sys := { s.dev.sys with step := .wipe, strap := s.dev.pins.straps }
    sg := { s.dev.sg with lc := lc, lcPending := lcPending } } }) ∧
  (∀ s : State, s.dev.sys.step = .wipe → s.dev.clk.pllLock = false → exec .wipeEnd s = .next
    { s with dev := { s.dev with sys := { s.dev.sys with step := .waitPll } } }) ∧
  (∀ s : State, s.dev.sys.step = .wipe → s.dev.clk.pllLock = true → ∃ twp, exec .wipeEnd s = .next { s with
      tm := { TimeBase.reset with running := true, lclk := true }
      dev := { s.dev with
        sys := { s.dev.sys with step := .recovery, pfailAt4 := !s.dev.pins.pfailN }
        twp := twp
        draws := s.dev.draws + 1 } } ∧ RecoversBus s.dev twp) ∧
  (∀ s : State, s.dev.clk.pllLock = false → s.dev.clk.pllTrying = true → s.dev.sys.step = .waitPll →
    ∃ twp, exec .pll0Lock s = .next { s with
      tm := { TimeBase.reset with running := true, lclk := true }
      dev := { s.dev with
        sys := { s.dev.sys with step := .recovery, pfailAt4 := !s.dev.pins.pfailN }
        pins := { s.dev.pins with refclk := true }
        pm := { s.dev.pm with clockLoss := false }
        clk := { s.dev.clk with pllLock := true, refOk := true, roscOnly := false, qclk := bankFill 4 true, lclkOn := true,
                                eclkOn := true, sclkOn := true }
        twp := twp
        draws := s.dev.draws + 1 } } ∧ RecoversBus s.dev twp) ∧
  (∀ s : State, s.dev.clk.pllLock = false → s.dev.clk.pllTrying = true → s.dev.sys.step = .wipe →
    exec .pll0Lock s = .next { s with dev := { s.dev with
      pins := { s.dev.pins with refclk := true }
      pm := { s.dev.pm with clockLoss := false }
      clk := { s.dev.clk with pllLock := true, refOk := true, roscOnly := false, qclk := bankFill 4 true, lclkOn := true,
                              eclkOn := true, sclkOn := true } } }) ∧
  (∀ s : State, exec .refclkPresent s = .next { s with dev := { s.dev with
    pins := { s.dev.pins with refclk := true }
    clk := { s.dev.clk with refOk := true, pllTrying := true } } }) ∧
  (∀ s : State, s.dev.sys.step = .wipe ∨ s.dev.sys.step = .waitPll → s.dev.clk.pllLock = false → s.dev.sys.lockLate = false →
    exec .pllLockTimeout s = .next { s with dev := { s.dev with
      sys := { s.dev.sys with lockLate := true, cause := setBit s.dev.sys.cause 3 } } }) ∧
  (∀ s : State, s.dev.sys.step = .recovery → s.dev.hkt.storeWin = false → exec .storeRecoveryEnd s = .next s) ∧
  (∀ s : State, s.dev.sys.step = .recovery → s.dev.hkt.storeWin = true → ∃ t, exec .storeRecoveryEnd s = .next t ∧
    t.pending = s.pending ∧ t.tm = { s.tm with cal := t.tm.cal } ∧ t.dev.ocs.recovering = false ∧ t.dev.sg.keysLoaded = true ∧
    t.dev.er.started = true ∧ t.dev.sys.faults = [] ∧ t.dev.pins = s.dev.pins ∧ t.dev.clk = s.dev.clk ∧
    t.dev.rails = s.dev.rails ∧ t.dev.lanes = s.dev.lanes ∧
    t.dev.sys.step = (if s.dev.sys.pfailAt4 && s.dev.ocs.pfail then .pfailHold else .apply)) ∧
  (∀ s : State, s.dev.sys.step = .apply → s.dev.img.running = none → ∃ t, exec .wholeApplyEnd s = .next t ∧
    t.pending = s.pending ∧ t.tm = s.tm ∧ t.nv = s.nv ∧ t.dev.sys.step = .bringUp ∧ t.dev.sys.strapMode = true ∧
    t.dev.str = strapStructure s.dev.sys.strap) ∧
  (∀ (s : State) (slot : Fin 2) (b : Billet), s.dev.sys.step = .apply → s.dev.img.running = some slot →
    readSlot s.dev.draws (withImageData s.nv s.dev) s.dev.ocs slot = .ok b → ∃ t, exec .wholeApplyEnd s = .next t ∧
    t.pending = s.pending ∧ t.tm = s.tm ∧ t.nv = s.nv ∧ t.dev.sys.step = .bringUp ∧
    t.dev.sys.slotApplied.toNat = slot.val + 1 ∧ t.dev.str = b.str ∧ t.dev.img.applyCount = 1) ∧
  (∀ s : State, s.dev.sys.step = .bringUp → ∃ t, exec .ready s = .next t ∧
    t.pending = s.pending ∧ t.tm = s.tm ∧ t.nv = s.nv ∧ t.dev.sys.step = .ready ∧ t.dev.sys.readyAt = s.tm.time.toNat ∧
    t.dev.hsp.evt.getLsbD 3 = true ∧ t.dev.sys.stages = ((List.finRange 512).filter fun g => (s.dev.slot g).state ≠ .absent).length) ∧
  (∀ s : State, exec .supplyRelease s = .next { s with dev := { s.dev with
    pins := { s.dev.pins with supplyOk := true }
    sys := { s.dev.sys with step :=
      if s.dev.sys.step = .held then (if s.dev.pins.rstN then .filter else .held) else s.dev.sys.step } } }) ∧
  (∀ s : State, exec .rstNRise s = .next { s with dev := { s.dev with
    pins := { s.dev.pins with rstN := true }
    sys := { s.dev.sys with step :=
      if s.dev.sys.step = .held then (if s.dev.pins.supplyOk then .filter else .held) else s.dev.sys.step } } })

/-- RESET_CTRL_QUADRANT, QUADRANT_RESET, QUADRANT_RESET_TIMEOUT and QUADRANT_DOMAIN_ON: a quadrant's reset is asked for, and from
then on its phases are unavailable (INT_STATUS.PHASE of each rail that has one available, Table 8-12) and its rails' boundaries
move the rails off it; it takes effect once no rail has a phase there, or 10 ms after the request whatever the rails do (R35): every
lane and slot of the quadrant is at its reset value, each lane with the mode that the structure gives it and each slot with its
rail, its power domain is off, and no lane of another quadrant changes its state; at the timeout the rails that still have phases there enter HOLD first. A
quadrant whose power domain is on again follows the structure (R361). -/
def Obligations.QuadrantResets : Prop :=
  (∀ (src : Src) (q : Fin 4) (s : State), Reaches src .early s → mayEarly s.dev src .engineer = true →
    exec (.resetCtrlQuadrant src q) s = .next (Wrote src 0x0008 0 (fun d => { d with
      clk := { d.clk with quadReset := bankUpd d.clk.quadReset q fun x => some (x.getD s.tm.time.toNat) }
      rails := bankMap d.rails fun r x =>
        if (availablePhases d r).any fun g => decide (quadOf g = q) then { x with intStatus := setBit x.intStatus 6 } else x }) s)) ∧
  (∀ (q : Fin 4) (s : State), (bankGet s.dev.clk.quadReset q).isSome = true → quadRails s.dev q = [] →
    ∃ t, exec (.quadrantReset q) s = .next t ∧ t.tm = s.tm ∧ t.nv = s.nv ∧ t.pending = s.pending ∧
    t.dev.pins = s.dev.pins ∧ t.dev.str = s.dev.str ∧ t.dev.sys = s.dev.sys ∧
    t.dev.clk.quadReset = bankSet s.dev.clk.quadReset q none ∧
    (∀ n : Fin 64, quadOfLane n = q → t.dev.lane n =
      { Lane.reset with mode := (s.dev.lane n).mode, idleSince := s.tm.time.toNat }) ∧
    bankGet t.dev.pwr.qoff q = true ∧
    (∀ g : Fin 512, quadOf g = q → t.dev.slot g = { Slot.reset with owner := namingRail s.dev g }) ∧
    (∀ n : Fin 64, quadOfLane n ≠ q → (t.dev.lane n).state = (s.dev.lane n).state)) ∧
  (∀ (q : Fin 4) (s : State) (since : Nat), bankGet s.dev.clk.quadReset q = some since →
    since + msTicks 10 ≤ s.tm.time.toNat → ∃ t, exec (.quadrantResetTimeout q) s = .next t ∧ t.tm = s.tm ∧ t.nv = s.nv ∧
    t.pending = s.pending ∧ bankGet t.dev.clk.quadReset q = none ∧
    (∀ g : Fin 512, quadOf g = q → t.dev.slot g = { Slot.reset with owner := namingRail s.dev g }) ∧
    (∀ n : Fin 64, quadOfLane n = q → t.dev.lane n =
      { Lane.reset with mode := (s.dev.lane n).mode, idleSince := s.tm.time.toNat })) ∧
  (∀ (q : Fin 4) (s : State), ∃ lanes qoff, exec (.quadrantDomainOn q) s = .next { s with dev := { s.dev with
      lanes := lanes, pwr := { s.dev.pwr with qoff := qoff } } } ∧
    (∀ k, k ≠ q → bankGet qoff k = bankGet s.dev.pwr.qoff k) ∧
    (∀ n : Fin 64, quadOfLane n = q → (s.dev.lane n).mode ≠ 0 → (s.dev.lane n).disable = false →
      bankGet qoff q = false ∧
      bankGet lanes n = { s.dev.lane n with
        state := if (s.dev.lane n).state = .unused then .down else (s.dev.lane n).state }) ∧
    (∀ n : Fin 64, quadOfLane n ≠ q → bankGet lanes n = s.dev.lane n))

/-- A supervisor reset (Table 2-3): the core in reset, the data RAM gone, every partner handle and the planning registers
cleared. -/
def SupervisorReset (d : Device) : Device :=
  { d with
    fw := { d.fw with supReset := true, supHalted := false, supRam := [], hung := none }
    pp := { d.pp with partners := bankFill 256 Partner.reset }
    hs := { d.hs with planStart := 0, planResult := 0, heartbeat := none } }

/-- The supervisor's resets and start (RESET_CTRL_SUPERVISOR, WATCHDOG_EXPIRY, SUPERVISOR_START; Table 2-3, R28, R17): by RESET_CTRL
with SUPERVISOR's cause bit; by the watchdog, with WATCHDOG's and an internal fault of the block (KIND 2, nibble 0xE), while no
firmware is on trial, and where one is, with its slot REJECTED and the CONFIRMED one booted (Table 14-9); and its start from step 5 on, with the next HTGEN. -/
def Obligations.SupervisorResets : Prop :=
  (∀ (src : Src) (s : State), Reaches src .early s → mayEarly s.dev src .engineer = true → exec (.resetCtrlSupervisor src) s =
    .next (Wrote src 0x0008 0 (fun d => { SupervisorReset d with sys := { d.sys with cause := setBit d.sys.cause 7 } }) s)) ∧
  (∀ s : State, s.dev.fw.supReset = false → fwTrial s.nv = none → ∃ detail : Nat, exec .watchdogExpiry s = .next { s with dev :=
    { SupervisorReset s.dev with
      sys := { s.dev.sys with cause := setBit s.dev.sys.cause 6 }
      er := raiseIn s.tm 0x01 ([2, 0xE] ++ leBytes 4 detail) s.dev.er } }) ∧
  (∀ s : State, s.dev.fw.supReset = false → (fwTrial s.nv).isSome = true → ∃ t, exec .watchdogExpiry s = .next t ∧
    t.tm = s.tm ∧ t.pending = s.pending ∧ (∀ k, fwTrial s.nv = some k → (bankGet t.nv.code k).phase = .rejected) ∧
    t.dev.fw.supReset = true ∧ t.dev.fw.trialAt = none ∧ t.dev.fw.nosup = (bootSlot t.nv).isNone ∧
    t.dev.sys = { s.dev.sys with cause := setBit s.dev.sys.cause 6 }) ∧
  (∀ s : State, s.dev.fw.supReset = true → s.dev.fw.nosup = false →
    s.dev.sys.step = .apply ∨ s.dev.sys.step = .bringUp ∨ s.dev.sys.step = .ready →
    exec .supervisorStart s = .next { s with dev := { s.dev with
      fw := { s.dev.fw with supReset := false, supHalted := false }
      pp := { s.dev.pp with htgen := s.dev.pp.htgen + 1, supStart := s.tm.time.toNat } } })

/-- RAM errors (R179, R28): a correctable one of the loop engine is recorded and counted in LE.ECC, which stays at its highest
value; an uncorrectable one causes the warm reset with RAMERR's cause bit, and leaves its fault for the next start-up's record.
Every correctable one of another block is recorded, and nothing else changes. -/
def Obligations.EngineRamErrors : Prop :=
  (∀ s : State, ∃ detail : Nat, exec (.ramError .le true) s = .next { s with dev := { s.dev with
    le := { s.dev.le with ecc := if s.dev.le.ecc = BitVec.allOnes _ then s.dev.le.ecc else s.dev.le.ecc + 1 }
    er := raiseIn s.tm 0x01 ([1, 3] ++ leBytes 4 detail) s.dev.er
    draws := s.dev.draws + 1 } }) ∧
  (∀ s : State, s.dev.sys.step ≠ .held → exec (.ramError .le false) s = .next { s with
    tm := TimeBase.reset
    nv := resetFlash false s.nv s.dev
    dev := ResetDevice s.dev.pins (setBit s.dev.sys.cause 4) (satInc s.dev.sys.warmCount) (LostAt s.dev)
      (s.dev.sys.faults ++ [(1, 3)]) s.dev }) ∧
  (∀ (blk : RamBlock) (s : State), blk ≠ .le → ∃ nibble detail : Nat, exec (.ramError blk true) s = .next { s with dev := { s.dev with
    er := raiseIn s.tm 0x01 (leBytes 1 1 ++ leBytes 1 nibble ++ leBytes 4 detail) s.dev.er
    draws := s.dev.draws + 1 } })

/-- A reset that comes while another is in progress, which is while step 1 is held (R36): the cold reset reaches more domains and
governs; a warm or debug reset is absorbed, with its cause bit set; and a warm reset in a later step of the start-up restarts the
sequence from step 1. -/
def Obligations.ResetsOverlap : Prop :=
  (∀ s : State, s.dev.sys.step = .held →
    exec .supplyTrip s = .next { s with
      tm := TimeBase.reset
      nv := resetFlash true s.nv s.dev
      dev := ResetDevice { s.dev.pins with supplyOk := false } 1 0 0 [] s.dev } ∧
    exec .rstNLow s = .next { s with dev := { s.dev with
      pins := { s.dev.pins with rstN := false }
      sys := { s.dev.sys with cause := setBit s.dev.sys.cause 1 } } } ∧
    (s.dev.sg.auth ≠ .none → exec .debugReset s = .next { s with dev := { s.dev with
      sys := { s.dev.sys with cause := setBit s.dev.sys.cause 5 } } }) ∧
    (s.dev.clk.pllLock = true → exec .clockLoss s = .next { s with dev := { s.dev with
      sys := { s.dev.sys with cause := setBit s.dev.sys.cause 3, faults := s.dev.sys.faults ++ [(3, 0)] }
      pins := { s.dev.pins with refclk := false }
      pm := { s.dev.pm with clockLoss := true }
      clk := { s.dev.clk with pllTrying := false } } }) ∧
    ∀ blk : RamBlock, blk ≠ .other → exec (.ramError blk false) s = .next { s with dev := { s.dev with
      sys := { s.dev.sys with cause := setBit s.dev.sys.cause 4, faults := s.dev.sys.faults ++ RamFault blk } } }) ∧
  (∀ s : State, s.dev.sys.step ≠ .held → ∃ t, exec .rstNLow s = .next t ∧ t.dev.sys.step = .held ∧
    t.dev.sys.cause = setBit s.dev.sys.cause 1) ∧
  (∀ (src : Src) (s : State), s.dev.sys.step ≠ .held → s.dev.pins.supplyOk = true → s.dev.pins.rstN = true →
    takesWrite src s.dev = true → mayEarly s.dev src .engineer = true → ∃ t, exec (.resetCtrlWarm src) s = .next t ∧ t.dev.sys.step = .filter ∧
      t.dev.sys.cause = setBit s.dev.sys.cause 2 ∧ t.tm = TimeBase.reset)

/-! ### The structure image (03_structure_image.md) -/

/-- A source that may give image, auto-tune and firmware commands (Table 14-1): ENGINEER, in COMMISSION or MAINTAIN. -/
def MayChange (d : Device) (src : Src) : Prop := may d src .engineer = true ∧ lifeAllows d = true

/-- The loader's refusals (R77, R85): a command without its privilege ends with DENIED, one that comes while another is in
progress with BUSY, and neither disturbs anything else. -/
def Obligations.ImageCommandsRefused : Prop :=
  ∀ (src : Src) (slot : Fin 2) (kind index : BitVec 8) (op : BitVec 4) (s : State), Reaches src .running s →
    ¬ (1 ≤ op.toNat ∧ op.toNat ≤ 6) →
    ∀ c ∈ [Instr.imgErase src slot, .imgSeal src slot, .liveOpen src slot, .apply src kind index, .imgConfirm src,
        .imgRollback src, .imgBadOp src op],
      (¬ MayChange s.dev src → exec c s = .next (Wrote src 0x0800 stDenied (fun d =>
        { d with img := { d.img with result := ImgResult.denied.code } }) s)) ∧
      (MayChange s.dev src → s.dev.img.busy = true → exec c s = .next (Wrote src 0x0800 0 (fun d =>
        { d with img := { d.img with result := ImgResult.busy.code } }) s))

/-- What the command that ends at once leaves of the device that the access reached: BUSY low, the result, and the event bit of
the image loader only where BUSY fell. -/
def ImgEnded (res : ImgResult) (d : Device) : Device :=
  { d with
    img := { d.img with busy := false, cmd := none, storeWait := false, result := res.code }
    hsp := { d.hsp with evt := if d.img.busy then setBit d.hsp.evt 1 else d.hsp.evt } }

/-- A command of the loader that is taken up: its write reaches IMG.CMD, its source may give it, and no other is in progress. -/
def ImgFree (src : Src) (s : State) : Prop :=
  Reaches src .running s ∧ MayChange s.dev src ∧ s.dev.img.busy = false

/-- IMG_ERASE, IMG_SEAL, LIVE_OPEN and APPLY start their work (Table 3-14, R75 to R79): BUSY with the command in progress and
the memories untouched; ERASE spares the running slot, and where it may run it waits for the store; SEAL ends with STORE where
the store has refused or failed to take a word since the ERASE (R77); IMG_BAD_OP, an unlisted OP, ends with BAD_OP. DEVICE,
LANES and PROTECT are of a whole-only kind: an APPLY of one ends with STARTUP_ONLY (R78). -/
def Obligations.ImageCommandsStart : Prop :=
  (∀ (src : Src) (slot : Fin 2) (s : State), ImgFree src s →
    (s.dev.img.running = some slot → exec (.imgErase src slot) s = .next (Wrote src 0x0800 0 (ImgEnded .state) s)) ∧
    (s.dev.img.running ≠ some slot → (slotView s.dev slot).phase ≠ .confirmed → s.dev.ocs.pfail = false →
      regionWritable s.dev.ocs (imageRegion slot) = true → ∃ d, exec (.imgErase src slot) s = .next { s with dev := d } ∧
        d.img = { s.dev.img with busy := true, cmd := some (.erase slot), storeWait := true } ∧ d.str = s.dev.str ∧
        d.rails = s.dev.rails ∧ d.er = s.dev.er)) ∧
  (∀ (src : Src) (slot : Fin 2) (s : State), ImgFree src s →
    (slotView s.dev slot).phase = .empty → regionWritable s.dev.ocs (imageRegion slot) = true →
    exec (.imgSeal src slot) s = .next (Wrote src 0x0800 0 (if dataLost s.dev slot then ImgEnded .store else fun d =>
      { d with img := { d.img with busy := true, cmd := some (.seal slot) } }) s)) ∧
  (∀ (src : Src) (slot : Fin 2) (s : State), ImgFree src s →
    s.dev.sys.strapMode = false → (slotView s.dev slot).phase = .written →
    regionWritable s.dev.ocs (imageRegion slot) = true →
    exec (.liveOpen src slot) s = .next (Wrote src 0x0800 0 (fun d =>
      { d with img := { d.img with busy := true, cmd := some (.liveOpen slot) } }) s)) ∧
  (∀ (src : Src) (r : Fin 64) (s : State), ImgFree src s → s.dev.img.trialOpen = true →
    (bankGet s.dev.str.rails r).isSome = true → slotNoLive s.nv s.dev s.dev.img.trialSlot = false →
    exec (.apply src 0x10 (BitVec.ofNat 8 r.val)) s = .next (Wrote src 0x0800 0 (fun d =>
      { d with img := { d.img with busy := true, cmd := some (.apply 0x10 (BitVec.ofNat 8 r.val)) } }) s)) ∧
  (∀ (src : Src) (op : BitVec 4) (s : State), ImgFree src s → ¬ (1 ≤ op.toNat ∧ op.toNat ≤ 6) →
    exec (.imgBadOp src op) s = .next (Wrote src 0x0800 0 (ImgEnded .badOp) s)) ∧
  (∀ (src : Src) (kind index : BitVec 8) (s : State), ImgFree src s →
    s.dev.img.trialOpen = true → kind = 0x01 ∨ kind = 0x02 ∨ kind = 0x20 →
    exec (.apply src kind index) s = .next (Wrote src 0x0800 0 (ImgEnded .startupOnly) s))

/-- CONFIRM (IMG_CONFIRM) and ROLLBACK (IMG_ROLLBACK) with an open trial (R87, R88, Table 3-14): CONFIRM of an image whose live
sections are in force moves the slot to CONFIRMED and ends the trial, with RESTART_PENDING where a whole-only section differs; where
a live section still differs it ends with UNCONFIRMABLE and the trial stays open; a ROLLBACK of a trial with no live apply moves it
to REJECTED at once, and the running slot is again the one of the last whole apply; without an open trial both end with STATE. Time,
memories and the structure in force stay. -/
def Obligations.TrialsEnd : Prop :=
  (∀ (src : Src) (b : Billet) (s : State), ImgFree src s → s.dev.img.trialOpen = true →
    slotImage s.nv s.dev s.dev.img.trialSlot = .ok b → liveDiffer b.str s.dev.str = false →
    regionWritable s.dev.ocs (imageRegion s.dev.img.trialSlot) = true →
    ∃ d, exec (.imgConfirm src) s = .next { s with dev := d } ∧ d.str = s.dev.str ∧ d.rails = s.dev.rails ∧
      (slotView d s.dev.img.trialSlot).phase = .confirmed ∧ d.img.trialOpen = false ∧ d.img.liveOrder = [] ∧
      d.img.running = some s.dev.img.trialSlot ∧ d.img.restartPending = wholeDiffer b.str s.dev.str ∧
      d.img.result = ImgResult.ok.code ∧ d.img.busy = false) ∧
  (∀ (src : Src) (b : Billet) (s : State), ImgFree src s → s.dev.img.trialOpen = true →
    slotImage s.nv s.dev s.dev.img.trialSlot = .ok b → liveDiffer b.str s.dev.str = true →
    exec (.imgConfirm src) s = .next (Wrote src 0x0800 0 (ImgEnded .unconfirmable) s)) ∧
  (∀ (src : Src) (s : State), ImgFree src s → s.dev.img.trialOpen = true →
    s.dev.img.liveOrder = [] → s.dev.img.lcAfter = none →
    ∃ d, exec (.imgRollback src) s = .next { s with dev := d } ∧ d.str = s.dev.str ∧ d.rails = s.dev.rails ∧
      (slotView d s.dev.img.trialSlot).phase = .rejected ∧ d.img.trialOpen = false ∧ d.img.running = appliedSlot s.dev ∧
      d.img.result = ImgResult.ok.code ∧ d.img.busy = false) ∧
  (∀ (src : Src) (s : State), ImgFree src s → s.dev.img.trialOpen = false →
    exec (.imgConfirm src) s = .next (Wrote src 0x0800 0 (ImgEnded .state) s) ∧
    exec (.imgRollback src) s = .next (Wrote src 0x0800 0 (ImgEnded .state) s))

/-- IMG_DATA_WRITE (R77): IMG.DATA_ADDR advances by 4 whatever becomes of the word; into an EMPTY slot that was erased last, the
four bytes go as a job of the store, the least significant first. Without ENGINEER, COMMISSION or MAINTAIN it has no effect.
IMG_CHECK_END (R60, R77, R78, R92): a SEAL waits for the words that the store has not taken yet; it ends with STORE where the
store failed to take one, with the check's result where the image fails its check, and in both the slot stays EMPTY; one that
passes makes it WRITTEN, with the image's generation. A LIVE_OPEN of an image above the running one opens the trial, and changes
nothing that runs. -/
def Obligations.SlotsFilled : Prop :=
  (∀ (src : Src) (data : Word) (s : State), Reaches src .running s →
    (¬ MayChange s.dev src → exec (.imgDataWrite src data) s = .next (Wrote src 0x080D stDenied id s)) ∧
    (MayChange s.dev src → s.dev.img.fillSlot = none → exec (.imgDataWrite src data) s = .next (Wrote src 0x080D 0 (fun d =>
      { d with img := { d.img with dataAddr := d.img.dataAddr + 4 } }) s)) ∧
    (∀ (slot : Fin 2) (a : Nat), MayChange s.dev src → s.dev.img.fillSlot = some slot → s.dev.img.busy = false →
      (slotView s.dev slot).phase = .empty → s.dev.img.dataAddr.toNat + 4 ≤ 61440 →
      regionWritable s.dev.ocs (imageRegion slot) = true → imageAddr s.dev.ocs slot s.dev.img.dataAddr.toNat = some a →
      exec (.imgDataWrite src data) s = .next (Wrote src 0x080D 0 (fun d =>
        storePump s.nv (addJob
          ⟨[.bytes [byteProg (a - a % 64) (a % 64) [data.setWidth 8, (data >>> 8).setWidth 8, (data >>> 16).setWidth 8,
            (data >>> 24).setWidth 8]]], .record, .imageData, true⟩
          { d with img := { d.img with dataAddr := d.img.dataAddr + 4 } })) s))) ∧
  (∀ (slot : Fin 2) (s : State), s.dev.img.cmd = some (.seal slot) → s.dev.img.lcAfter = none →
    (dataOnItsWay s.dev = true → exec .imgCheckEnd s = .next s) ∧
    (dataOnItsWay s.dev = false → dataLost s.dev slot = true → exec .imgCheckEnd s = .next { s with dev := ImgEnded .store s.dev }) ∧
    (dataOnItsWay s.dev = false → dataLost s.dev slot = false →
      (∀ e, slotImage s.nv s.dev slot = .error e → exec .imgCheckEnd s = .next { s with dev := ImgEnded e s.dev }) ∧
      (∀ b, slotImage s.nv s.dev slot = .ok b → ∃ d, exec .imgCheckEnd s = .next { s with dev := d } ∧ d.str = s.dev.str ∧
        (slotView d slot).phase = .written ∧ (slotView d slot).gen = b.gen ∧ d.img.result = ImgResult.ok.code ∧
        d.img.busy = false))) ∧
  (∀ (slot : Fin 2) (b : Billet) (s : State), s.dev.img.cmd = some (.liveOpen slot) → s.dev.img.lcAfter = none →
    slotImage s.nv s.dev slot = .ok b → b.noLive = false →
    (∀ q, s.dev.img.running = some q → (slotView s.dev q).gen.toNat < b.gen.toNat) →
    ∃ d, exec .imgCheckEnd s = .next { s with dev := d } ∧ d.str = s.dev.str ∧ d.rails = s.dev.rails ∧
      (slotView d slot).phase = .trial ∧ d.img.trialOpen = true ∧ d.img.trialSlot = slot ∧ d.img.running = some slot ∧
      d.img.liveOrder = [] ∧ d.img.result = ImgResult.ok.code ∧ d.img.busy = false)

/-- A checked section of a live apply takes effect (RAIL_SECTION_TAKE_EFFECT, SCHED_SECTION_TAKE_EFFECT, HKEEP_SECTION_TAKE_EFFECT,
PERIPH_SECTION_TAKE_EFFECT; R79, R86): the section in force is the new one, nothing waits any more, the apply count advances, and the
command ends with OK. A rail in OFF takes its section at once, with its coefficients and its window
(R182, R214), writes that are still on their way coming on top; SCHED, PARTNERS, HKEEP and PERIPH (between two polls) theirs. -/
def Obligations.SectionsTakeEffect : Prop :=
  (∀ (r : Fin 64) (x : InForce RailSect) (slot : Fin 2) (s : State),
    bankGet s.dev.img.waitRail r = some ⟨some x, slot, false⟩ → (s.dev.rail r).state = .off → s.dev.img.lcAfter = none →
    groupBlocked s.dev r x.body = false →
    ∃ d, exec (.railSectionTakeEffect r) s = .next { s with dev := d } ∧ bankGet d.str.rails r = some x ∧
      bankGet d.img.waitRail r = none ∧ d.img.applyCount = s.dev.img.applyCount + 1 ∧ d.img.result = ImgResult.ok.code ∧
      (d.rail r).cfg.vset = BitVec.ofNat 20 x.body.vset ∧ (d.rail r).cfg.winLo = BitVec.ofNat 20 x.body.vmin ∧
      (d.rail r).cfg.winHi = BitVec.ofNat 20 x.body.vmax ∧
      ((∀ w ∈ (s.dev.loop r).coefLog, w.1 ≤ s.tm.time.toNat) →
        (d.loop r).outer = x.body.outer ∧ (d.loop r).inner = x.body.inner ∧ (d.loop r).diverged = false) ∧
      d.str.sched = s.dev.str.sched ∧ d.str.partners = s.dev.str.partners ∧ d.str.hkeep = s.dev.str.hkeep) ∧
  (∀ (x : Option (InForce SchedSect)) (slot : Fin 2) (s : State), s.dev.img.waitSched = some ⟨x, slot, false⟩ →
    s.dev.img.waitPartners = none → s.dev.img.lcAfter = none →
    ∃ d, exec .schedSectionTakeEffect s = .next { s with dev := d } ∧ d.str = { s.dev.str with sched := x } ∧
      d.img.waitSched = none ∧ d.img.applyCount = s.dev.img.applyCount + 1 ∧ d.img.result = ImgResult.ok.code) ∧
  (∀ (x : Option (InForce (List PartnerEntry))) (slot : Fin 2) (s : State), s.dev.img.waitPartners = some ⟨x, slot, false⟩ →
    s.dev.img.waitSched = none → s.dev.img.lcAfter = none →
    ∃ d, exec .schedSectionTakeEffect s = .next { s with dev := d } ∧ d.str = { s.dev.str with partners := x } ∧
      d.img.waitPartners = none ∧ d.img.applyCount = s.dev.img.applyCount + 1 ∧ d.img.result = ImgResult.ok.code) ∧
  (∀ (x : Option (InForce (List HkEntry))) (slot : Fin 2) (s : State), s.dev.img.waitHkeep = some ⟨x, slot, false⟩ →
    s.dev.img.lcAfter = none →
    ∃ d, exec .hkeepSectionTakeEffect s = .next { s with dev := d } ∧ d.str = { s.dev.str with hkeep := x } ∧
      d.img.waitHkeep = none ∧ d.img.applyCount = s.dev.img.applyCount + 1 ∧ d.img.result = ImgResult.ok.code) ∧
  (∀ (x : Option (InForce PeriphSect)) (slot : Fin 2) (s : State), s.dev.img.waitPeriph = some ⟨x, slot, false⟩ →
    s.dev.twp.polling = none → s.dev.img.lcAfter = none →
    ∃ d, exec .periphSectionTakeEffect s = .next { s with dev := d } ∧ d.str = { s.dev.str with periph := x } ∧
      d.img.waitPeriph = none ∧ d.img.applyCount = s.dev.img.applyCount + 1 ∧ d.img.result = ImgResult.ok.code)


/-! ### Phase lanes (04_phase_lanes.md) -/

/-- Training of a lane (TRAINING_POLL_TIMER, UPSTREAM_LOCK, ECHO_REPLY, TRAINING_STEP_TIMEOUT, LANE_TRAINING_END; R101, R131,
Tables 4-3 and 4-15): a DOWN lane starts it with the poll or with lock, which goes on to the first ECHO; each of the first seven
replies leads to the next ECHO; a step that exceeds its limit puts the lane back to DOWN. Retraining (UPSTREAM_LOSS_OF_LOCK,
LANE_RETRAIN, RETRAIN_ATTEMPT_END; R133 to R135, Table 4-15): loss of lock takes an UP lane whose receiver is awake into
RETRAIN, its symbol errors counted, and so does LANE.CTRL.RETRAIN, counted in both cases; an attempt that ends with the module's
identity takes the lane back to UP; a failed one is followed by the next, and the third failure is a lane loss. -/
def Obligations.LanesTrain : Prop :=
  (∀ (n : Fin 64) (s : State), (s.dev.lane n).state = .down → exec (.trainingPollTimer n) s = .next { s with
    dev := s.dev.onLane n fun l => { l with
      state := .training, attempt := 0, train := some ⟨0, s.tm.time.toNat, s.tm.time.toNat, []⟩ } }) ∧
  (∀ (n : Fin 64) (s : State), (s.dev.lane n).state = .down → exec (.upstreamLock n) s = .next { s with
    dev := s.dev.onLane n fun l => { l with
      state := .training, attempt := 0, train := some ⟨1, s.tm.time.toNat, s.tm.time.toNat, []⟩
      queue := l.queue ++ [⟨.echo 0, 0⟩] } }) ∧
  (∀ (n : Fin 64) (t : Training) (tag : BitVec 8) (turn rtd : BitVec 16) (s : State), (s.dev.lane n).train = some t →
    t.step = 1 → tag.toNat = t.rtd.length → t.rtd.length < 7 → exec (.echoReply n tag turn rtd) s = .next { s with
      dev := s.dev.onLane n fun l => { l with
        train := some { t with step := 1, stepAt := s.tm.time.toNat, rtd := t.rtd ++ [(rtd, turn)] }
        queue := l.queue ++ [⟨.echo (byte (t.rtd.length + 1)), 0⟩] } }) ∧
  (∀ (n : Fin 64) (t : Training) (s : State), (s.dev.lane n).state = .training → (s.dev.lane n).train = some t →
    s.tm.time.toNat - t.start ≥ 1600000 → exec (.trainingStepTimeout n) s = .next { s with
      dev := s.dev.onLane n fun l => { l with state := .down, train := none } }) ∧
  (∀ (n : Fin 64) (t : Training) (ident : ModIdent) (s : State), (s.dev.lane n).state = .training →
    (s.dev.lane n).train = some t → t.step = 3 → ∃ d, exec (.laneTrainingEnd n ident) s = .next { s with dev := d } ∧
      (d.lane n).state = .up ∧ (d.lane n).train = none ∧ (d.lane n).vendor = ident.vendor ∧ (d.lane n).product = ident.product ∧
      (d.lane n).serial = ident.serial ∧ (d.lane n).proto = ident.proto ∧ (d.lane n).fitted = ident.slots) ∧
  (∀ (n : Fin 64) (s : State), (s.dev.lane n).state = .up → (s.dev.lane n).asleep = false →
    ∀ errors : BitVec 8, ∃ d, exec (.upstreamLossOfLock ⟨n, errors⟩) s = .next { s with dev := d } ∧ (d.lane n).state = .retrain ∧
      (d.lane n).retrains = satInc (s.dev.lane n).retrains ∧ (d.lane n).attempt = 0 ∧
      (d.lane n).symErr = (s.dev.lane n).symErr + errors.setWidth 32) ∧
  (∀ (src : Src) (n : Fin 64) (s : State), (s.dev.lane n).state = .up → may s.dev src .engineer = true →
    Reaches src (.quad (quadOfLane n)) s →
    ∃ d, exec (.laneRetrain src n) s = .next { s with dev := d } ∧ (d.lane n).state = .retrain ∧
      (d.lane n).retrains = satInc (s.dev.lane n).retrains ∧ (d.lane n).attempt = 0) ∧
  (∀ (n : Fin 64) (t : Training) (ident : ModIdent) (s : State), (s.dev.lane n).state = .retrain →
    (s.dev.lane n).train = some t → t.step = 3 → ∃ d, exec (.retrainAttemptEnd n (some ident)) s = .next { s with dev := d } ∧
      (d.lane n).state = .up ∧ (d.lane n).train = none ∧ (d.lane n).attempt = 0 ∧ (d.lane n).serial = ident.serial ∧
      (d.lane n).fitted = ident.slots) ∧
  (∀ (n : Fin 64) (s : State), (s.dev.lane n).state = .retrain → (s.dev.lane n).attempt < 2 →
    exec (.retrainAttemptEnd n none) s = .next { s with dev := s.dev.onLane n fun l => { l with
      attempt := l.attempt + 1, train := some ⟨0, s.tm.time.toNat, s.tm.time.toNat, []⟩ } }) ∧
  (∀ (n : Fin 64) (s : State), (s.dev.lane n).state = .retrain → (s.dev.lane n).attempt = 2 →
    ∃ d, exec (.retrainAttemptEnd n none) s = .next { s with dev := d } ∧ (d.lane n).state = .down ∧
      (d.lane n).losses = satInc (s.dev.lane n).losses ∧ (d.lane n).train = none)

/-- LANE_DISABLE waits while a slot of the lane serves, and takes effect once none does (LANE_DISABLE_TAKE_EFFECT, R133); a receiver
that sleeps (LANE_RECEIVER_SLEEP) needs TRIM and a millisecond without use (R362); and a cell that is discarded
(UPSTREAM_CELL_ERROR) is counted, with its symbol errors (R97). -/
def Obligations.LaneLeaves : Prop :=
  (∀ (src : Src) (n : Fin 64) (s : State), may s.dev src .engineer = true → Reaches src (.quad (quadOfLane n)) s →
    (laneServes s.dev n = true → exec (.laneDisable src n) s = .next (Wrote src (wordAt 0x1000 32 n.val 1) 0 (fun d =>
      d.onLane n fun l => { l with disable := true }) s)) ∧
    ((s.dev.lane n).state ≠ .unused → laneServes s.dev n = false →
      ∃ d, exec (.laneDisable src n) s = .next { s with dev := d } ∧ (d.lane n).disable = true ∧ (d.lane n).state = .unused)) ∧
  (∀ (n : Fin 64) (s : State), (s.dev.lane n).disable = true → (s.dev.lane n).state ≠ .unused → laneServes s.dev n = false →
    ∃ d, exec (.laneDisableTakeEffect n) s = .next { s with dev := d } ∧ (d.lane n).state = .unused ∧
      ∀ k : Fin 8, (d.slot (globalSlot n k)).state = .absent) ∧
  (∀ (n : Fin 64) (s : State), s.dev.pwr.mode = .trim → s.dev.clk.trim = true → (s.dev.lane n).state = .up →
    (∀ k : Fin 8, (s.dev.slot (globalSlot n k)).state ≠ .serving ∧ (s.dev.slot (globalSlot n k)).state ≠ .calibrating) →
    s.tm.time.toNat - (s.dev.lane n).idleSince ≥ 800000 →
    exec (.laneReceiverSleep n) s = .next { s with dev := s.dev.onLane n fun l => { l with asleep := true } }) ∧
  (∀ (n : Fin 64) (errors : BitVec 8) (s : State), (s.dev.lane n).state = .down →
    exec (.upstreamCellError n errors) s = .next { s with dev := s.dev.onLane n fun l => { l with
      crcErr := l.crcErr + 1, symErr := l.symErr + errors.setWidth 32
      errTimes := s.tm.time.toNat :: l.errTimes.filter fun t => decide (s.tm.time.toNat - t < 800000) } })

/-- The cells that a module sends on an UP lane (SAMPLE_RAW, SAMPLE_CMP, MEAS, STATUS, SAMPLE_MISSING; R113 to R117, R126,
R129): a SAMPLE cell counts its own flags, a MEAS cell leaves its values in set-point LSBs, for a slot that does not switch with
the instant of its arrival as that of its samples, which is the model's reading (assumption 109), a STATUS cell leaves the
module's state and MODSLOTS, and a missing cell is counted. TIME_CELL_TIMER puts one TIME cell at the end of the queue of each
UP lane and leaves everything else alone (R102). -/
def Obligations.CellsArrive : Prop :=
  (∀ (n : Fin 64) (k : Fin 8) (f late : Bool) (body : BitVec 224) (s : State), (s.dev.lane n).state = .up →
    ∃ d, exec (.sampleRaw n k f late body) s = .next { s with dev := d } ∧
      (d.slot (globalSlot n k)).errOc = (if f then satInc (s.dev.slot (globalSlot n k)).errOc
        else (s.dev.slot (globalSlot n k)).errOc) ∧
      (d.slot (globalSlot n k)).errSat = (s.dev.slot (globalSlot n k)).errSat ∧
      (d.lane n).upLate = (if late then satInc (s.dev.lane n).upLate else (s.dev.lane n).upLate)) ∧
  (∀ (n : Fin 64) (k : Fin 8) (f late : Bool) (body : BitVec 112) (s : State), (s.dev.lane n).state = .up →
    ∃ d, exec (.sampleCmp n k f late body) s = .next { s with dev := d } ∧
      (d.slot (globalSlot n k)).errOc = (if f then satInc (s.dev.slot (globalSlot n k)).errOc
        else (s.dev.slot (globalSlot n k)).errOc) ∧
      (d.slot (globalSlot n k)).errSat = (if body.getLsbD 5 then satInc (s.dev.slot (globalSlot n k)).errSat
        else (s.dev.slot (globalSlot n k)).errSat) ∧
      (d.lane n).upLate = (if late then satInc (s.dev.lane n).upLate else (s.dev.lane n).upLate)) ∧
  (∀ (n : Fin 64) (k : Fin 8) (vout vin temp : BitVec 16) (s : State), (s.dev.lane n).state = .up →
    ∃ d, exec (.meas n k vout vin temp) s = .next { s with dev := d } ∧
      (d.slot (globalSlot n k)).temp = temp ∧
      (d.slot (globalSlot n k)).measWas = (s.dev.slot (globalSlot n k)).meas ∧
      ∃ sampled carrier, (d.slot (globalSlot n k)).meas = some ⟨measVout (s.dev.slot (globalSlot n k)) vout,
        measVin (s.dev.slot (globalSlot n k)) vin, vin, temp, s.tm.time.toNat, sampled, carrier⟩ ∧
        ((s.dev.slot (globalSlot n k)).state ≠ .serving → (s.dev.slot (globalSlot n k)).state ≠ .calibrating →
          sampled = s.tm.time.toNat) ∧
        ((s.dev.slot (globalSlot n k)).state = .serving → ∀ at', (s.dev.slot (globalSlot n k)).sampledAt = some at' →
          sampled = at')) ∧
  (∀ (n : Fin 64) (k : Fin 8) (modslots dnCrc late fault st : BitVec 8) (s : State), (s.dev.lane n).state = .up →
    ∃ d, exec (.status n k modslots dnCrc late fault st) s = .next { s with dev := d } ∧
      (d.slot (globalSlot n k)).modState = st ∧ (d.slot (globalSlot n k)).lateSeen = some late ∧
      (d.lane n).fitted = modslots ∧ (d.lane n).dnSeen = some dnCrc) ∧
  (∀ (g : Fin 512) (s : State), ∃ d, exec (.sampleMissing g) s = .next { s with dev := d } ∧
    (d.slot g).errMissing = satInc (s.dev.slot g).errMissing) ∧
  (∀ s : State, exec .timeCellTimer s = .next { s with dev := { s.dev with
    lanes := bankMap s.dev.lanes fun _ l =>
      if l.state = .up then { l with queue := l.queue ++ [⟨.time 0 0, 0⟩] } else l } })

/-- ADMIT: a slot that cannot be expected on its lane is refused with NOT_EXPECTED before any other check of Table 4-12, and one
that passes every check goes to CALIBRATING with its current limit (R124, R127). The other commands of SLOT.CMD (REFUSE, RECAL,
CAL_SAVE, IDENTIFY_ON, IDENTIFY_OFF; R125, R127, R128, Table 4-23) and a write of SLOT.CAL_I or CAL_V (SLOT_CAL_WRITE, R126).
CAL_SAVE gives the store one CAL record with the slot's gains and offset, and none while PFAIL_N is low or its region is
read-only (R389). -/
def Obligations.SlotCommands : Prop :=
  (∀ (src : Src) (g : Fin 512) (s : State), may s.dev src .engineer = true → Reaches src (.quad (quadOf g)) s →
    ((s.dev.slot g).state = .found ∨ (s.dev.slot g).state = .refused ∨ (s.dev.slot g).state = .lost) →
    (slotExpected s.dev g = false → ∃ d, exec (.slotAdmit src g) s = .next { s with dev := d } ∧
      (d.slot g).state = .refused ∧ (d.slot g).reason = .notExpected) ∧
    (admissionFailure s.dev g = none → ∃ d, exec (.slotAdmit src g) s = .next { s with dev := d } ∧
      (d.slot g).state = .calibrating ∧ (d.slot g).reason = .none ∧ (d.slot g).limit = slotLimit s.dev g ∧
      (d.slot g).cal = none ∧ (d.slot g).heldBack = false)) ∧
  (∀ (src : Src) (g : Fin 512) (s : State), may s.dev src .engineer = true → Reaches src (.quad (quadOf g)) s →
    ((s.dev.slot g).state = .found → ∃ d, exec (.refuse src g) s = .next { s with dev := d } ∧
      (d.slot g).state = .refused ∧ (d.slot g).reason = .host) ∧
    ((s.dev.slot g).state = .admitted → (s.dev.phase g).placed = false →
      ∃ d, exec (.recal src g) s = .next { s with dev := d } ∧ (d.slot g).state = .calibrating ∧
        (d.slot g).cal = some (.writing 0 (s.dev.slot g).tag s.tm.time.toNat) ∧ (d.slot g).tag = (s.dev.slot g).tag + 1) ∧
    exec (.identifyOn src g) s = .next (Wrote src (wordAt 0x2000 8 g.val 5) 0 (fun d => d.onLane (laneOf g) fun l => { l with
      queue := l.queue ++ [⟨.cmd (slotOf g) 3, 0⟩] }) s) ∧
    exec (.identifyOff src g) s = .next (Wrote src (wordAt 0x2000 8 g.val 5) 0 (fun d => d.onLane (laneOf g) fun l => { l with
      queue := l.queue ++ [⟨.cmd (slotOf g) 4, 0⟩] }) s) ∧
    (∀ data : Word, exec (.slotCalWrite src g false data) s = .next (Wrote src (wordAt 0x2000 8 g.val 3) 0 (fun d =>
        d.onSlot g fun x => { x with iofs := data.setWidth 16, igain := BitVec.ofNat 16 (data.toNat / 65536) }) s) ∧
      exec (.slotCalWrite src g true data) s = .next (Wrote src (wordAt 0x2000 8 g.val 4) 0 (fun d =>
        d.onSlot g fun x => { x with vofs := data.setWidth 16, vgain := BitVec.ofNat 16 (data.toNat / 65536) }) s)) ∧
    (s.dev.ocs.pfail = true ∨ regionWritable s.dev.ocs 2 = false →
      exec (.calSave src g) s = .next (Wrote src (wordAt 0x2000 8 g.val 5) 0 id s)) ∧
    (s.dev.ocs.pfail = false → regionWritable s.dev.ocs 2 = true → exec (.calSave src g) s =
      .next (Wrote src (wordAt 0x2000 8 g.val 5) 0 (fun d => storePump s.nv (addJob ⟨[.record ⟨0x20,
        (d.lane (laneOf g)).serial, byte (slotOf g).val, leBytes 2 (d.slot g).igain.toNat ++ leBytes 2 (d.slot g).vgain.toNat ++
        leBytes 2 (d.slot g).vofs.toNat, 2, none⟩], .record, .cal g, true⟩ d)) s)))

/-- Is a cell of the second queue, but not of the first, anything but a BIAS cell behind the first's cells? -/
def OnlyBias (was is : Lane) : Prop :=
  is.state = was.state ∧ ∃ more, is.queue = was.queue ++ more ∧ ∀ q ∈ more, ∃ k, q = ⟨.bias k, 0⟩

/-- Discovery and calibration (REPLY, CALIBRATION, REPLY_TIMEOUT; R117, R123, R125): the replies of the rating registers are
gathered in order, each followed by the next READ under the slot's next tag; calibration begins with the WRITE of CFG_PERIOD
under the slot's tag, and the default or saved gains, but not in a SMOULDER quadrant, which is the model's reading (assumption
109); and 20 µs without a reply refuse the slot with PROTOCOL. The BIAS timers (BIAS_TIMER, R130, R223, R304; HOUSEKEEPING_BIAS,
R292, R293): a BIAS cell to each admitted or serving slot of a quadrant that is in SMOULDER, unless thermal shutdown holds, and
to the phase of each Kindling record that has not joined, whose step is BIASED from then on; and before a housekeeping round to
each admitted slot whose stage temperature a channel reads, outside SMOULDER. Beside these the lanes' queues keep their cells,
and nothing else changes but receivers that the cells wake. -/
def Obligations.SlotsCalibrate : Prop :=
  (∀ (n : Fin 64) (k : Fin 8) (addr tag : BitVec 8) (data : BitVec 16) (regs : List (BitVec 16)) (s : State),
    (s.dev.lane n).state = .up → (s.dev.slot (globalSlot n k)).disc = some regs → regs.length < 8 →
    addr.toNat = 0x10 + regs.length → tag + 1 = (s.dev.slot (globalSlot n k)).tag →
    exec (.reply n k addr tag data 0) s = .next { s with dev :=
      (s.dev.onSlot (globalSlot n k) fun x => { x with
        disc := some (regs ++ [data]), readAt := s.tm.time.toNat, tag := x.tag + 1 }).onLane n fun l => { l with
          queue := l.queue ++ [⟨.read k (byte (0x11 + regs.length)) (s.dev.slot (globalSlot n k)).tag, 0⟩] } }) ∧
  (∀ (g : Fin 512) (s : State), (s.dev.slot g).state = .calibrating → (s.dev.slot g).cal = none →
    (bankGet s.dev.pwr.smoulder (quadOf g) = true → exec (.calibration g) s = .next s) ∧
    (bankGet s.dev.pwr.smoulder (quadOf g) = false →
      ∃ d, exec (.calibration g) s = .next { s with dev := d } ∧ (d.slot g).state = .calibrating ∧
        (d.slot g).cal = some (.writing 0 (s.dev.slot g).tag s.tm.time.toNat) ∧
        (d.slot g).tag = (s.dev.slot g).tag + 1 ∧ (d.slot g).iofs = (s.dev.slot g).iofs ∧
        (d.lane (laneOf g)).queue = (s.dev.lane (laneOf g)).queue ++
          [⟨.write (slotOf g) 0x40 (BitVec.ofNat 16 (slotPeriod s.dev g)) (s.dev.slot g).tag, 0⟩])) ∧
  (∀ (g : Fin 512) (regs : List (BitVec 16)) (s : State), (s.dev.slot g).disc = some regs →
    s.tm.time.toNat - (s.dev.slot g).readAt ≥ 16000 → ∃ d, exec (.replyTimeout g) s = .next { s with dev := d } ∧
      (d.slot g).state = .refused ∧ (d.slot g).reason = .protocol ∧ (d.slot g).disc = none) ∧
  (∀ (g : Fin 512) (i : Fin 3) (tag : Byte) (at' : Nat) (s : State), (s.dev.slot g).disc = none →
    (s.dev.slot g).cal = some (.writing i tag at') → s.tm.time.toNat - at' ≥ 16000 →
    ∃ d, exec (.replyTimeout g) s = .next { s with dev := d } ∧
      (d.slot g).state = .refused ∧ (d.slot g).reason = .protocol ∧ (d.slot g).cal = none) ∧
  (∀ s : State, ∃ lanes, exec .biasTimer s = .next { s with dev := { s.dev with
      lanes := lanes
      rails := bankMap s.dev.rails fun _ x => { x with
        stack := x.stack.map fun y => if y.step = .chosen then { y with step := .biased } else y } } } ∧
    (∀ n, OnlyBias (s.dev.lane n) (bankGet lanes n)) ∧
    (∀ g : Fin 512, s.dev.hkt.tsd = false → bankGet s.dev.pwr.smoulder (quadOf g) = true →
      bankGet s.dev.pwr.entering (quadOf g) = none → (s.dev.slot g).state = .admitted ∨ (s.dev.slot g).state = .serving →
      (⟨.bias (slotOf g), 0⟩ : QCell) ∈ (bankGet lanes (laneOf g)).queue) ∧
    (∀ (r : Fin 64), ∀ y ∈ (s.dev.rail r).stack, y.step ≠ .joined →
      (⟨.bias (slotOf y.phase), 0⟩ : QCell) ∈ (bankGet lanes (laneOf y.phase)).queue) ∧
    (∀ n, (∀ r, (s.dev.rail r).stack = []) → bankGet s.dev.pwr.smoulder (quadOfLane n) = false →
      bankGet lanes n = s.dev.lane n)) ∧
  (∀ s : State, ∃ lanes, exec .housekeepingBias s = .next { s with dev := { s.dev with lanes := lanes } } ∧
    (∀ n, OnlyBias (s.dev.lane n) (bankGet lanes n)) ∧
    (∀ (c : Fin 96) (e : HkEntry) (g : Fin 512), channelEntry s.dev c = some e → e.source = 1 → e.srcIndex = g.val →
      (s.dev.slot g).state = .admitted → bankGet s.dev.pwr.smoulder (quadOf g) = false →
      (⟨.bias (slotOf g), 0⟩ : QCell) ∈ (bankGet lanes (laneOf g)).queue))


/-! ### Timebase, loop engine and auto-tune (05_timebase_interleave.md, 06_loop_engine.md, 07_feedforward_autotune.md) -/

/-- CARRIER_START of an enabled group (R140, R153, R145): a carrier that runs goes on to the start that was planned, and its
third start is a period later while the group is not ring-locked; the carriers of the other groups stay; a carrier that has not
started starts with index 0 at TBI's start instant. EDGE_BUILD (R143, R144, R128): the cell of a placed phase's next period goes
to the end of its lane's queue with the period's PSTART, the duty released last is the one in force from then on, and the phase
waits for the period after it; before the first cell after a join START goes out, and the slot is SERVING; while the lane's
receiver still wakes the first cell moves to the next period. BASE_SET, a write of TBI.RAILBASE, waits for the rail's next
boundary (R146). -/
def Obligations.PeriodsBuilt : Prop :=
  (∀ (g : Fin 8) (s : State), bankGet s.dev.str.device.body.fgEnable g = true → (bankGet s.dev.tbi.carriers g).started = true →
    ∃ d, exec (.carrierStart g) s = .next { s with dev := d } ∧
      (bankGet d.tbi.carriers g).k = (bankGet s.dev.tbi.carriers g).k + 1 ∧
      (bankGet d.tbi.carriers g).c0 = (bankGet s.dev.tbi.carriers g).c1 ∧
      (bankGet d.tbi.carriers g).c1 = (bankGet s.dev.tbi.carriers g).c2 ∧
      (ringLocked s.dev g = false →
        (bankGet d.tbi.carriers g).c2 = (bankGet s.dev.tbi.carriers g).c2 + groupPeriod s.dev g) ∧
      ∀ h, h ≠ g → bankGet d.tbi.carriers h = bankGet s.dev.tbi.carriers h) ∧
  (∀ (g : Fin 8) (t : Nat) (s : State), bankGet s.dev.str.device.body.fgEnable g = true →
    (bankGet s.dev.tbi.carriers g).started = false → s.dev.tbi.startAt = some t → ringLocked s.dev g = false →
    ∃ d, exec (.carrierStart g) s = .next { s with dev := d } ∧
      (bankGet d.tbi.carriers g).started = true ∧ (bankGet d.tbi.carriers g).k = 0 ∧ (bankGet d.tbi.carriers g).c0 = t ∧
      (bankGet d.tbi.carriers g).c1 = t + groupPeriod s.dev g ∧ (bankGet d.tbi.carriers g).c2 = t + 2 * groupPeriod s.dev g) ∧
  (∀ (g : Fin 512) (r : Fin 64) (b : RailSect) (angle left k next : Nat) (s : State), (s.dev.slot g).owner = some r →
    s.dev.sect r = some b → (s.dev.phase g).placed = true → (s.dev.phase g).angled = true →
    (s.dev.lane (laneOf g)).state = .up →
    nextStart (bankGet s.dev.tbi.carriers b.fgroup) (groupPeriod s.dev b.fgroup) (s.dev.phase g) = some (angle, left, k, next) →
    ((s.dev.phase g).startDue = false → ∃ d on off np dir, exec (.edgeBuild g) s = .next { s with dev := d } ∧
      (d.lane (laneOf g)).queue = (s.dev.lane (laneOf g)).queue ++
        [⟨.edge (slotOf g) (BitVec.ofNat 24 (s.dev.phase g).pstart) on off np dir, (s.dev.phase g).pstart⟩] ∧
      (np = true → on = 0 ∧ off = 0) ∧
      (d.phase g).pstart = next ∧ (d.phase g).angle = angle ∧ (d.phase g).move = left ∧ (d.phase g).kNext = k ∧
      (d.phase g).prevDuty = (s.dev.phase g).newDuty.getD (s.dev.phase g).prevDuty ∧ (d.phase g).newDuty = none ∧
      (d.phase g).dutyWas = (s.dev.phase g).prevDuty ∧ (d.phase g).builtFor = (s.dev.phase g).kNext ∧
      d.slots = s.dev.slots ∧ d.rails = s.dev.rails ∧ d.le = s.dev.le ∧
      ∀ n, n ≠ laneOf g → d.lane n = s.dev.lane n) ∧
    ((s.dev.phase g).startDue = true → (s.dev.phase g).stopAt = none → (s.dev.lane (laneOf g)).wokeAt = none →
      (s.dev.slot g).state = .admitted → ∃ d on off np dir, exec (.edgeBuild g) s = .next { s with dev := d } ∧
      (d.lane (laneOf g)).queue = (s.dev.lane (laneOf g)).queue ++ [⟨.cmd (slotOf g) 1, 0⟩,
        ⟨.edge (slotOf g) (BitVec.ofNat 24 (s.dev.phase g).pstart) on off np dir, (s.dev.phase g).pstart⟩] ∧
      (d.slot g).state = .serving ∧ (d.phase g).startDue = false ∧ (d.phase g).pstart = next) ∧
    (∀ woke, (s.dev.phase g).startDue = true → (s.dev.lane (laneOf g)).wokeAt = some woke →
      s.tm.time.toNat < woke + 800 * min 10 Config.laneWake → exec (.edgeBuild g) s = .next { s with dev := s.dev.onPhase g fun q =>
        { q with angle := angle, move := left, kNext := k, pstart := next, firstAt := some k } })) ∧
  (∀ (src : Src) (r : Fin 64) (base : BitVec 16) (s : State), may s.dev src .engineer = true → Reaches src .core s →
    exec (.baseSet src r base) s = .next (Wrote src (wordAt 0x3080 1 r.val) 0 (fun d =>
      { d with tbi := { d.tbi with rails := bankUpd d.tbi.rails r fun t => { t with baseSet := some base.toNat } } }) s))

/-- The ring tracker (EPOCH_PULSE, SYNCIN_EDGE, SYNC_PULSE_MISSING; R149 to R151): the reference drives SYNCOUT at each epoch; a
member sends SYNCIN on from its own SYNCOUT, in a pulse of 80 T-ticks, whose length is the model's choice (assumption 93); its first
edge sets its offset from the edge's time in fine units, a later one that is acquired corrects the offset by a quarter and the rate
by a thirty-second of the error; in LOCKED the epoch counts on by one with each edge, whatever the link says, unless it reports
another number, which restarts the tracker; a missing pulse takes LOCKED into HOLDOVER, where the offset runs on at its rate. -/
def Obligations.RingTracks : Prop :=
  (∀ s : State, s.dev.tbi.ring.state = .reference → ∃ link, exec .epochPulse s = .next { s with dev := { s.dev with
    tbi := { s.dev.tbi with ring := { s.dev.tbi.ring with syncout := true } }, ring := link } }) ∧
  (∀ (fine : Fin 32) (e since : Nat) (s : State), s.dev.tbi.ring.state = .acquiring → s.dev.tbi.ring.first = true →
    s.dev.tbi.ring.linkEpoch = some e → s.dev.ring.heardAt = some since → s.tm.time.toNat - since ≤ 1600000 →
    exec (.syncinEdge fine) s = .next { s with dev := { s.dev with tbi := { s.dev.tbi with ring := { s.dev.tbi.ring with
      syncout := true, syncEnd := some (s.tm.time.toNat + 80)
      epoch := e, first := false, second := true, rate := 0
      eps := 32 * (s.tm.time.toNat : Int) + fine.val - s.dev.tbi.ring.syncDelay.toNat - e * 25600000 } } } }) ∧
  (∀ (fine : Fin 32) (e since : Nat) (err : Int) (s : State), s.dev.tbi.ring.state = .acquiring →
    s.dev.tbi.ring.first = false → s.dev.tbi.ring.second = false → s.dev.tbi.ring.linkEpoch = some e →
    s.dev.ring.heardAt = some since → s.tm.time.toNat - since ≤ 1600000 →
    err = 32 * (s.tm.time.toNat : Int) + fine.val - s.dev.tbi.ring.syncDelay.toNat - e * 25600000
      - (s.dev.tbi.ring.eps + s.dev.tbi.ring.rate) → err.natAbs ≤ 32 → s.dev.tbi.ring.goodRun < 15 →
    exec (.syncinEdge fine) s = .next { s with dev := { s.dev with tbi := { s.dev.tbi with ring := { s.dev.tbi.ring with
      syncout := true, syncEnd := some (s.tm.time.toNat + 80)
      epoch := e, err := err, goodRun := s.dev.tbi.ring.goodRun + 1
      eps := s.dev.tbi.ring.eps + s.dev.tbi.ring.rate + err / 4, rate := s.dev.tbi.ring.rate + err / 32 } } } }) ∧
  (∀ (fine : Fin 32) (err : Int) (s : State), s.dev.tbi.ring.state = .locked →
    (∀ n : Nat, s.dev.tbi.ring.linkEpoch = some n → (n : Int) = s.dev.tbi.ring.epoch + 1) →
    s.dev.tbi.ring.first = false → s.dev.tbi.ring.second = false →
    err = 32 * (s.tm.time.toNat : Int) + fine.val - s.dev.tbi.ring.syncDelay.toNat - (s.dev.tbi.ring.epoch + 1) * 25600000
      - (s.dev.tbi.ring.eps + s.dev.tbi.ring.rate) → err.natAbs ≤ 3200 →
    ∃ d, exec (.syncinEdge fine) s = .next { s with dev := d } ∧ d.tbi.ring.state = .locked ∧
      d.tbi.ring.epoch = s.dev.tbi.ring.epoch + 1 ∧ d.tbi.ring.err = err ∧
      d.tbi.ring.eps = s.dev.tbi.ring.eps + s.dev.tbi.ring.rate + err / 4 ∧ d.tbi.ring.rate = s.dev.tbi.ring.rate + err / 32) ∧
  (∀ (fine : Fin 32) (n : Nat) (since : Nat) (s : State), s.dev.tbi.ring.state = .locked → s.dev.tbi.ring.linkEpoch = some n →
    s.dev.ring.heardAt = some since → s.tm.time.toNat - since ≤ 1600000 →
    (n : Int) ≠ s.dev.tbi.ring.epoch + 1 → ∃ d, exec (.syncinEdge fine) s = .next { s with dev := d } ∧
      d.tbi.ring.state = .acquiring ∧ d.tbi.ring.first = true ∧ d.tbi.ring.eps = s.dev.tbi.ring.eps ∧
      d.tbi.ring.epoch = s.dev.tbi.ring.epoch) ∧
  (∀ s : State, s.dev.tbi.ring.state = .locked → ∃ er, exec .syncPulseMissing s = .next { s with dev := { s.dev with
    er := er
    tbi := { s.dev.tbi with ring := { s.dev.tbi.ring with
      state := .holdover, holdovers := s.dev.tbi.ring.holdovers + 1, badRun := 0, goodRun := 0
      epoch := s.dev.tbi.ring.epoch + 1, eps := s.dev.tbi.ring.eps + s.dev.tbi.ring.rate } } } })

/-- EVALUATION_START (R171): of the evaluations in the window whose sample instant has come, a free slice takes one with the
earliest deadline, with the mode, coefficients, section and track as the engine reads them (R169, R180, R79, R192), and nothing
but the engine changes; with none such nothing happens. That an evaluation waits in the window for its sample instant, and that
one of a rail without a mode there is dropped, is the model's reading (assumption 106). EVALUATION_COMPLETE and RESULT_RELEASE
(R156, R164, R168): the slice is free again, the evaluation is counted, the smallest slack is kept, and a FIXED result waits
behind the ones that wait already; a release takes the oldest result of its loop. EVALUATION_DEADLINE (R173, R174): an outer
loop with an evaluation past its deadline counts one overrun, and no evaluation of that loop that is past its deadline stays in
the window, in the queue or on a slice; with none overdue nothing changes. LOOP_CLEAR and LE_CLEAR (Tables 6-7 and 6-13): the
counters that the register names, and nothing else. -/
def Obligations.EngineEvaluates : Prop :=
  (∀ (slice : Fin 8) (s : State), bankGet s.dev.le.slices slice = none →
    ((∃ x ∈ s.dev.le.window, x.instant ≤ s.tm.time.toNat) →
      ∃ le x, exec (.evaluationStart slice) s = .next { s with dev := { s.dev with le := le } } ∧ x ∈ s.dev.le.window ∧
        x.instant ≤ s.tm.time.toNat ∧
        (∀ y ∈ s.dev.le.window, y.instant ≤ s.tm.time.toNat → x.deadline ≤ y.deadline) ∧
        bankGet le.slices slice = bindEval s.dev x ∧ (∀ k, k ≠ slice → bankGet le.slices k = bankGet s.dev.le.slices k) ∧
        le.results = s.dev.le.results ∧ le.evals = s.dev.le.evals) ∧
    ((∀ x ∈ s.dev.le.window, s.tm.time.toNat < x.instant) → exec (.evaluationStart slice) s = .next s)) ∧
  (∀ (slice : Fin 8) (x : Eval) (s : State), bankGet s.dev.le.slices slice = some x →
    ∃ d, exec (.evaluationComplete slice) s = .next { s with dev := d } ∧ bankGet d.le.slices slice = none ∧
      d.le.evals = s.dev.le.evals + 1 ∧
      d.le.minSlack.toNat = min s.dev.le.minSlack.toNat (min 65535 (x.deadline - s.tm.time.toNat)) ∧
      (x.mode = .fixed → ∃ value, d.le.results = s.dev.le.results ++ [⟨x.loop, x.rail, x.instant, x.useFrom, value⟩]) ∧
      (x.mode = .immediate → d.le.results = s.dev.le.results)) ∧
  (∀ (loop : LoopRef) (w : Waited) (ws : List Waited) (s : State),
    sortWaited (s.dev.le.results.filter fun w => decide (w.loop = loop)) = w :: ws →
    ∃ d, exec (.resultRelease loop) s = .next { s with dev := d } ∧ d.le.results = s.dev.le.results.erase w ∧
      d.rails = s.dev.rails ∧ d.lanes = s.dev.lanes ∧ d.slots = s.dev.slots) ∧
  (∀ (r : Fin 64) (s : State),
    ((∃ x, (x ∈ s.dev.le.window ∨ x ∈ s.dev.le.queue) ∧ x.loop = .outer r ∧ x.deadline ≤ s.tm.time.toNat) →
      ∃ d, exec (.evaluationDeadline (.outer r)) s = .next { s with dev := d } ∧ d.le.ovrTotal = s.dev.le.ovrTotal + 1 ∧
        (d.loop r).outerOvr = satInc (s.dev.loop r).outerOvr ∧
        (∀ x ∈ d.le.window, x.loop = .outer r → s.tm.time.toNat < x.deadline) ∧
        (∀ x ∈ d.le.queue, x.loop = .outer r → s.tm.time.toNat < x.deadline) ∧
        (∀ k x, bankGet d.le.slices k = some x → x.loop = .outer r → s.tm.time.toNat < x.deadline)) ∧
    (s.dev.le.window = [] → s.dev.le.queue = [] → (∀ k, bankGet s.dev.le.slices k = none) →
      exec (.evaluationDeadline (.outer r)) s = .next s)) ∧
  (∀ (src : Src) (r : Fin 64) (s : State), may s.dev src .engineer = true → Reaches src .engine s →
    exec (.loopClear src r) s = .next (Wrote src (wordAt 0x5000 64 r.val) 0 (fun d => d.onLoop r fun l => { l with
      innerOvr := 0, outerOvr := 0, missing := 0, inexact := 0, satOut := 0, satAcc := 0, slack := 0xFFFF }) s) ∧
    exec (.leClear src) s = .next (Wrote src 0x6005 0 (fun d =>
      { d with le := { d.le with windowHw := 0, queueHw := 0, minSlack := 0xFFFF } }) s))

/-- Auto-tune (AT_START, AT_STOP, AUTOTUNE_TIMEOUT; R194, R195, R198): a START while a run is in progress is ignored; one that passes
its checks makes a run that waits for the next sample instant of its loop; one that fails a check ends with REFUSED and the check's
number, and one without the right with DENIED; STOP and the limit of the run's length end it with their result, and AT_DONE is set
(Table 12-11). -/
def Obligations.AutotuneRuns : Prop :=
  (∀ (src : Src) (r : Fin 64) (loop : BitVec 1) (rule : BitVec 2) (s : State), may s.dev src .none = true →
    Reaches src .engine s →
    (s.dev.tune.run.isSome = true → MayChange s.dev src → exec (.atStart src r loop rule) s = .next (Wrote src 0x6800 0 (fun d =>
      { d with tune := { d.tune with ignored := true } }) s)) ∧
    (s.dev.tune.run = none → MayChange s.dev src → tuneCheck s.dev r (decide (loop = 1)) (goalOf s.dev r) = none →
      ∃ t, t.rail = r ∧ t.inner = decide (loop = 1) ∧ t.waiting = true ∧ t.first = true ∧ t.cycles = [] ∧
        exec (.atStart src r loop rule) s = .next (Wrote src 0x6800 0 (fun d => { d with tune := { d.tune with
          result := 0, check := 0, cycle := 0, ignored := false, loop := decide (loop = 1), rail := r, run := some t } }) s)) ∧
    (∀ c, s.dev.tune.run = none → MayChange s.dev src →
      tuneCheck s.dev r (decide (loop = 1)) (goalOf s.dev r) = some c → ∃ er, exec (.atStart src r loop rule) s =
        .next (Wrote src 0x6800 0 (fun d => { d with er := er, tune := { d.tune with
          result := TuneResult.refused.code, check := BitVec.ofNat 4 c, loop := decide (loop = 1), rail := r } }) s)) ∧
    (s.dev.tune.run = none → ¬ MayChange s.dev src → ∃ er, exec (.atStart src r loop rule) s = .next (Wrote src 0x6800 stDenied
      (fun d => { d with er := er, tune := { d.tune with
        result := TuneResult.denied.code, check := 0, loop := decide (loop = 1), rail := r } }) s))) ∧
  (∀ (src : Src) (t : TuneRun) (s : State), may s.dev src .engineer = true → Reaches src .engine s → s.dev.tune.run = some t →
    ∃ d, exec (.atStop src) s = .next { s with dev := d } ∧ d.tune.run = none ∧ d.tune.result = TuneResult.stopped.code ∧
      d.hsp.evt.getLsbD 2 = true) ∧
  (∀ (t : TuneRun) (s : State), s.dev.tune.run = some t → t.waiting = false →
    s.tm.time.toNat - t.start ≥ msTicks s.dev.tune.runMax.toNat →
    ∃ d, exec .autotuneTimeout s = .next { s with dev := d } ∧ d.tune.run = none ∧ d.tune.result = TuneResult.timeout.code ∧
      d.hsp.evt.getLsbD 2 = true)


/-! ### Rails (08_rails.md) -/

/-- RAIL.CMD is taken: the level, an access that reaches the register, and no command in progress (R229). -/
def RailFree (src : Src) (least : Level) (r : Fin 64) (s : State) : Prop :=
  may s.dev src least = true ∧ Reaches src .core s ∧ (s.dev.rail r).cmdBusy = false

/-- The rail as the end of a command with a result leaves it (Table 8-6): BUSY low, RESULT, POSITION, and INT_STATUS.CMD. -/
def RailEnded (r : Fin 64) (pos : Nat) (res : CmdResult) (d : Device) : Device :=
  d.onRail r fun x => { x with
    cmdBusy := false, cmdResult := res.code, intStatus := setBit x.intStatus 3, cmdPos := BitVec.ofNat 7 pos }

/-- The status that the access of a rail command shows, beside the command's own result (R318, Table 14-1). -/
def RailStatus (src : Src) (r : Fin 64) (d : Device) : Instr → Byte
  | .arm .. | .start .. => if may d src .operate && lifecycleRuns d then 0 else stDenied
  | .clear .. => if may d src (if (d.rail r).state = .fault then .operate else .engineer) then 0 else stDenied
  | .retire .. | .restore .. | .railBadOp .. => if may d src .engineer then 0 else stDenied
  | _ => if may d src .operate then 0 else stDenied

/-- RAIL.CMD of a rail. -/
def railCmdAt (r : Fin 64) : Addr := wordAt 0x4000 32 r.val 1

/-- The commands of RAIL.CMD with the position that each carries. -/
def railOps (src : Src) (r : Fin 64) (pos : Fin 128) : List (Level × Nat × Instr) :=
  [(.operate, 0, .arm src r), (.operate, 0, .disarm src r), (.operate, 0, .start src r), (.operate, 0, .stop src r),
   (.operate, 0, .softstop src r), (.operate, 0, .clear src r), (.engineer, pos.val, .retire src r pos),
   (.engineer, pos.val, .restore src r pos)]

/-- The rail as a refused command leaves it: RESULT, POSITION and INT_STATUS.CMD alone. -/
def RailRefused (r : Fin 64) (pos : Nat) (res : CmdResult) (d : Device) : Device :=
  d.onRail r fun x => { x with
    cmdPos := BitVec.ofNat 7 pos, cmdResult := res.code, intStatus := setBit x.intStatus 3 }

/-- A rail command (ARM, DISARM, START, STOP, SOFTSTOP, CLEAR, RETIRE, RESTORE) meets its privilege and the one in progress
before anything else (R229): without its level it ends with DENIED, and with another in progress with BUSY; neither disturbs the
one in progress. Table 8-2 gives each command its states; in any other, and before READY, it ends with STATE and the rail stays
as it is; RAIL_BAD_OP, an unlisted OP, ends with BAD_OP. -/
def Obligations.RailCommandsRefused : Prop :=
  (∀ (src : Src) (r : Fin 64) (pos : Fin 128) (s : State), Reaches src .core s → may s.dev src .none = true →
    ∀ c ∈ railOps src r pos,
    (may s.dev src c.1 = false → exec c.2.2 s = .next (Wrote src (railCmdAt r) stDenied (RailRefused r c.2.1 .denied) s)) ∧
    (may s.dev src c.1 = true → (s.dev.rail r).cmdBusy = true →
      exec c.2.2 s = .next (Wrote src (railCmdAt r) (RailStatus src r s.dev c.2.2) (RailRefused r c.2.1 .busy) s))) ∧
  (∀ (src : Src) (r : Fin 64) (s : State), RailFree src .operate r s →
    ((s.dev.rail r).state ≠ .off ∨ s.dev.sys.step ≠ .ready → exec (.arm src r) s =
      .next (Wrote src (railCmdAt r) (RailStatus src r s.dev (.arm src r)) (RailEnded r 0 .state) s)) ∧
    ((s.dev.rail r).state ≠ .armed ∨ s.dev.sys.step ≠ .ready →
      exec (.disarm src r) s = .next (Wrote src (railCmdAt r) 0 (RailEnded r 0 .state) s) ∧
      exec (.start src r) s =
        .next (Wrote src (railCmdAt r) (RailStatus src r s.dev (.start src r)) (RailEnded r 0 .state) s)) ∧
    ((s.dev.rail r).state.runs = false →
      exec (.stop src r) s = .next (Wrote src (railCmdAt r) 0 (RailEnded r 0 .state) s) ∧
      exec (.softstop src r) s = .next (Wrote src (railCmdAt r) 0 (RailEnded r 0 .state) s)) ∧
    ((s.dev.rail r).state ≠ .fault → (s.dev.rail r).state ≠ .safe →
      exec (.clear src r) s = .next (Wrote src (railCmdAt r) (RailStatus src r s.dev (.clear src r))
        (RailEnded r 0 (if may s.dev src .engineer then .state else .denied)) s)) ∧
    (∀ op : BitVec 4, ¬ (1 ≤ op.toNat ∧ op.toNat ≤ 8) → may s.dev src .engineer = true →
      exec (.railBadOp src r op) s = .next (Wrote src (railCmdAt r) 0 (RailEnded r 0 .badOp) s)))

/-- STOP, SOFTSTOP and CLEAR (R210, R211, Table 8-2): STOP leaves any running state for ARMED at once with cause HOST_STOP;
SOFTSTOP ramps down from REGULATE and turns a RAMP around; CLEAR leaves FAULT, or SAFE with ENGINEER, for ARMED once no source of
the rail is active, and with one it ends with SOURCE. -/
def Obligations.RailsStopAndClear : Prop :=
  ∀ (src : Src) (r : Fin 64) (s : State), RailFree src .operate r s →
    ((s.dev.rail r).state.runs = true → ∃ d, exec (.stop src r) s = .next { s with dev := d } ∧ (d.rail r).state = .armed ∧
      (d.rail r).cause = .hostStop ∧ (d.rail r).cmdResult = CmdResult.ok.code ∧ (d.rail r).stack = [] ∧
      ∀ x ∈ d.le.window ++ d.le.queue, x.rail ≠ r) ∧
    ((s.dev.rail r).state = .regulate → ∃ d, exec (.softstop src r) s = .next { s with dev := d } ∧
      (d.rail r).state = .ramp ∧ (d.rail r).stopping = true ∧ (d.rail r).cmdResult = CmdResult.ok.code ∧ goalOf d r = 0) ∧
    ((s.dev.rail r).state = .ramp → ∃ d, exec (.softstop src r) s = .next { s with dev := d } ∧
      (d.rail r).state = .ramp ∧ (d.rail r).stopping = true ∧ (d.rail r).cmdResult = CmdResult.ok.code ∧ goalOf d r = 0) ∧
    ((s.dev.rail r).state = .fault → railSourceActive s.dev r = false →
      ∃ d, exec (.clear src r) s = .next { s with dev := d } ∧ (d.rail r).state = .armed ∧ (d.rail r).retries = 0 ∧
        (d.rail r).cmdResult = CmdResult.ok.code) ∧
    ((s.dev.rail r).state = .safe → may s.dev src .engineer = false →
      exec (.clear src r) s = .next (Wrote src (railCmdAt r) stDenied (RailEnded r 0 .denied) s)) ∧
    ((s.dev.rail r).state = .safe → may s.dev src .engineer = true → railSourceActive s.dev r = false →
      ∃ d, exec (.clear src r) s = .next { s with dev := d } ∧ (d.rail r).state = .armed ∧ (d.rail r).retries = 0) ∧
    ((s.dev.rail r).state = .fault → railSourceActive s.dev r = true →
      exec (.clear src r) s = .next (Wrote src (railCmdAt r) 0 (RailEnded r 0 .source) s))

/-- RETIRE and RESTORE (R219, R220): a retired phase is unavailable at once and the command lasts until its boundary; a RETIRED
phase whose slot is fitted on an UP lane is ADMITTED again; a position beyond the list ends with POSITION. -/
def Obligations.PhasesRetire : Prop :=
  ∀ (src : Src) (r : Fin 64) (pos : Fin 128) (s : State), RailFree src .engineer r s →
    (phaseAt s.dev r pos.val = none →
      exec (.retire src r pos) s = .next (Wrote src (railCmdAt r) 0 (RailEnded r pos.val .position) s) ∧
      ∃ er, exec (.restore src r pos) s = .next (Wrote src (railCmdAt r) 0 (fun d =>
        { RailEnded r pos.val .position d with er := er }) s)) ∧
    (∀ g, phaseAt s.dev r pos.val = some g →
      ∃ d, exec (.retire src r pos) s = .next { s with dev := d } ∧ (d.rail r).cmdBusy = true ∧
        (d.rail r).cmdPos = BitVec.ofNat 7 pos.val ∧ available d r g = false ∧
        (d.rail r).retiring = (s.dev.rail r).retiring ++ [⟨g, pos, false⟩]) ∧
    (∀ g, phaseAt s.dev r pos.val = some g → (s.dev.slot g).state = .retired →
      (s.dev.lane (laneOf g)).fitted.getLsbD (slotOf g).val = true → (s.dev.lane (laneOf g)).state = .up →
      (s.dev.rail r).retiring = [] →
      ∃ d, exec (.restore src r pos) s = .next { s with dev := d } ∧ (d.slot g).state = .admitted ∧
        (d.slot g).heldBack = false ∧ (d.rail r).cmdResult = CmdResult.ok.code ∧ (d.rail r).cmdBusy = false) ∧
    (∀ g, phaseAt s.dev r pos.val = some g → (s.dev.slot g).state ≠ .retired → (s.dev.slot g).heldBack = false →
      ∃ er, exec (.restore src r pos) s = .next (Wrote src (railCmdAt r) 0 (fun d =>
        { RailEnded r pos.val .position d with er := er }) s))

/-- A value as a write of the set-point registers is clamped into the rail's window, whose upper bound counts last (R214). -/
def Clamped (d : Device) (r : Fin 64) (v : Nat) : Nat := min (max v (windowOf d r).1) (windowOf d r).2

/-- Writes of VSET, VNEXT, WIN_LO and WIN_HI (VSET_WRITE, VNEXT_WRITE, WINDOW_WRITE; R213, R214): the set-points are clamped
into the window, the window's bounds into the section's, WIN_HI never lies below WIN_LO, and nothing else of the device changes.
RAMP_STEP (R213): the ramp of a rail in REGULATE that is not held moves toward the goal by at most one slew step and never past
it; a rail that neither ramps nor regulates keeps its ramp. -/
def Obligations.SetPoints : Prop :=
  (∀ (src : Src) (r : Fin 64) (data : Word) (s : State), Reaches src .core s →
    (may s.dev src .operate = true →
      exec (.vsetWrite src r data) s = .next (Wrote src (wordAt 0x4000 32 r.val 3) 0 (fun d => d.onRail r fun x => { x with
        cfg := { x.cfg with vset := BitVec.ofNat 20 (Clamped s.dev r (data.toNat % 2 ^ 20)) } }) s) ∧
      exec (.vnextWrite src r data) s = .next (Wrote src (wordAt 0x4000 32 r.val 4) 0 (fun d => d.onRail r fun x => { x with
        cfg := { x.cfg with
          vnext := BitVec.ofNat 20 (Clamped s.dev r (data.toNat % 2 ^ 20)), qvalid := data.getLsbD 31 } }) s)) ∧
    (∀ b : RailSect, may s.dev src .engineer = true → s.dev.sect r = some b → b.vmin ≤ b.vmax → b.vmax < 2 ^ 20 →
      (∃ t, exec (.windowWrite src r false data) s = .next t ∧ t.tm = s.tm ∧ t.nv = s.nv ∧
        (t.dev.rail r).cfg.winLo.toNat = min (max (data.toNat % 2 ^ 20) b.vmin) b.vmax ∧
        (t.dev.rail r).cfg.winLo.toNat ≤ (t.dev.rail r).cfg.winHi.toNat) ∧
      (∃ t, exec (.windowWrite src r true data) s = .next t ∧ t.tm = s.tm ∧ t.nv = s.nv ∧
        (t.dev.rail r).cfg.winLo = (s.dev.rail r).cfg.winLo ∧
        (t.dev.rail r).cfg.winLo.toNat ≤ (t.dev.rail r).cfg.winHi.toNat))) ∧
  (∀ s : State, ∃ d, exec .rampStep s = .next { s with dev := d } ∧
    (∀ (r : Fin 64) (b : RailSect), (s.dev.rail r).state = .regulate → railHeld s.dev r = false → s.dev.sect r = some b →
      ((s.dev.rail r).ramp ≤ goalOf s.dev r * 20 →
        (d.rail r).ramp = min ((s.dev.rail r).ramp + b.slewUp) (goalOf s.dev r * 20)) ∧
      (goalOf s.dev r * 20 < (s.dev.rail r).ramp →
        (d.rail r).ramp = max ((s.dev.rail r).ramp - b.slewDn) (goalOf s.dev r * 20))) ∧
    (∀ r : Fin 64, (s.dev.rail r).state ≠ .regulate → (s.dev.rail r).state ≠ .ramp → d.rail r = s.dev.rail r))

/-- The timers of a rail (RAMP_TIMEOUT, HOLD_TIMEOUT, RETRIES_RESET_TIMER, RETRY_TIMER; R206, R211, Table 8-2): RAMP_MAX and
HOLD_MAX put it into FAULT with their cause, 10 s in REGULATE clear RETRIES, and after READY the retry timer starts it again as
the host would. Phases that a trip took are available again by a write of ones at their list positions (TRIPPED_CLEAR, R221); a
partner's voltage request that is not renewed in time goes, and the others stay (VREQ_EXPIRY, R215); and a GRANTED entry's warm
start (KINDLING_WARM_START, R222 to R224) comes at its time and never twice, and where its conditions held at the grant and hold
now it chooses the phases that the entry needs, at most so many that the rail has 16 records. -/
def Obligations.RailTimers : Prop :=
  (∀ (r : Fin 64) (s : State),
    ((s.dev.rail r).state = .ramp → (s.dev.rail r).stopping = false →
      msTicks (max 1 (s.dev.rail r).cfg.rampMax.toNat) ≤ s.tm.time.toNat - (s.dev.rail r).rampSince →
      ∃ d, exec (.rampTimeout r) s = .next { s with dev := d } ∧ (d.rail r).state = .fault ∧ (d.rail r).cause = .rampTimeout ∧
        placedOf d r = []) ∧
    ((s.dev.rail r).state = .hold →
      msTicks (10 * max 1 (s.dev.rail r).cfg.holdMax.toNat) ≤ s.tm.time.toNat - (s.dev.rail r).since →
      ∃ d, exec (.holdTimeout r) s = .next { s with dev := d } ∧ (d.rail r).state = .fault ∧ (d.rail r).cause = .holdTimeout ∧
        placedOf d r = []) ∧
    ((s.dev.rail r).state = .regulate → msTicks 10000 ≤ s.tm.time.toNat - (s.dev.rail r).since →
      exec (.retriesResetTimer r) s = .next { s with dev := s.dev.onRail r fun x => { x with retries := 0 } }) ∧
    ((s.dev.rail r).state = .fault → msTicks (s.dev.rail r).cfg.retryDelay.toNat ≤ s.tm.time.toNat - (s.dev.rail r).since →
      (s.dev.rail r).retries.toNat < (s.dev.rail r).cfg.retryMax.toNat → railSourceActive s.dev r = false →
      s.dev.sys.step = .ready → lifecycleRuns s.dev = true → (s.dev.sect r).isSome = true →
      minPhases s.dev r ≤ (availablePhases s.dev r).length → ∃ d, exec (.retryTimer r) s = .next { s with dev := d } ∧ (d.rail r).state = .armed ∧ (d.rail r).cmdBusy = true ∧
        (d.rail r).retries = (s.dev.rail r).retries + 1)) ∧
  (∀ (src : Src) (r : Fin 64) (i : Fin 4) (data : Word) (s : State), may s.dev src .engineer = true → Reaches src .core s →
    ∃ keep : List (Fin 512), exec (.trippedClear src r i data) s =
      .next (Wrote src (wordAt 0x4000 32 r.val (25 + i.val)) 0 (fun d => d.onRail r fun x => { x with tripped := keep }) s) ∧
      ∀ g, g ∈ keep ↔ g ∈ (s.dev.rail r).tripped ∧
        ¬ ∃ j, j < 32 ∧ data.getLsbD j = true ∧ (railPhases s.dev r)[32 * i.val + j]? = some g) ∧
  (∀ (r : Fin 64) (h : Fin 256) (s : State), exec (.vreqExpiry r h) s = .next { s with dev := s.dev.onRail r fun x => { x with
    requests := x.requests.filter fun q => !(decide (q.handle = h) &&
      decide (s.tm.time.toNat - q.renewed ≥ msTicks (100 * max 1 (s.dev.rail r).cfg.reqTtl.toNat))) } }) ∧
  (∀ (e : Fin 128) (s : State), (bankGet s.dev.hs.ledger e).warmed = true ∨ (bankGet s.dev.hs.ledger e).state ≠ .granted →
    exec (.kindlingWarmStart e) s = .next s) ∧
  (∀ (e : Fin 128) (r : Fin 64) (start : Nat) (b : RailSect) (x : Entry) (s : State), bankGet s.dev.hs.ledger e = x →
    x.rail = some r → x.start = some start → s.dev.sect r = some b → x.warmed = false → x.state = .granted →
    notEarlierUs (word s.tm.us.toNat) (word (start * 1000) - word (b.lead * 1000)) = true →
    ∃ d, exec (.kindlingWarmStart e) s = .next { s with dev := d } ∧
      d.hs.ledger = bankSet s.dev.hs.ledger e { x with warmed := true } ∧
      (x.kindle = false ∨ kindlingOn s.dev r = false → d.rails = s.dev.rails) ∧
      (x.kindle = true → kindlingOn s.dev r = true → ∃ new : List AddRecord, (d.rail r).stack = new ++ (s.dev.rail r).stack ∧
        (∀ y ∈ new, y.entry = e ∧ y.step = .chosen ∧ y.phase ∈ unplacedPhases s.dev r ∧ isAddition s.dev r y.phase = false) ∧
        new.length = min (min (phasesNeeded s.dev r x) (16 - (s.dev.rail r).stack.length))
          ((unplacedPhases s.dev r).filter fun g => !isAddition s.dev r g).length))

/-- ARM, DISARM and START (R207, Table 8-2): OFF to ARMED, ARMED to OFF, and from ARMED the start measurement over the available
phases, during which the command lasts. None of them acts before READY (R46). START_MEASUREMENT_END (R207): with an input
voltage out of range the START ends with NOVIN and the rail's CAUSE says so; the preset duty of a good one waits for the rail's
next boundary. STRAP_START_TIMER: in strap mode rail 0 starts as by a START, 100 ms after READY, once a stage is admitted (R54,
R208). -/
def Obligations.RailsStart : Prop :=
  (∀ (src : Src) (r : Fin 64) (s : State), RailFree src .operate r s → s.dev.sys.step = .ready →
    ((s.dev.rail r).state = .off → (s.dev.sect r).isSome = true → lifecycleRuns s.dev = true →
      ∃ d, exec (.arm src r) s = .next { s with dev := d } ∧ (d.rail r).state = .armed ∧ (d.rail r).cmdBusy = false ∧
        (d.rail r).cmdResult = CmdResult.ok.code ∧ (d.rail r).cause = (s.dev.rail r).cause ∧
        ∀ q, q ≠ r → d.rail q = s.dev.rail q) ∧
    ((s.dev.rail r).state = .armed → ∃ d, exec (.disarm src r) s = .next { s with dev := d } ∧ (d.rail r).state = .off ∧
      (d.rail r).cmdResult = CmdResult.ok.code ∧ (d.rail r).stack = [] ∧ ∀ q, q ≠ r → d.rail q = s.dev.rail q) ∧
    ((s.dev.rail r).state = .armed → lifecycleRuns s.dev = true → railSourceActive s.dev r = false →
      (s.dev.sect r).isSome = true → minPhases s.dev r ≤ (availablePhases s.dev r).length →
      ∃ d, exec (.start src r) s = .next { s with dev := d } ∧ (d.rail r).state = .armed ∧ (d.rail r).cmdBusy = true ∧
        (d.rail r).meas = some ⟨s.tm.time.toNat, availablePhases s.dev r, []⟩ ∧
        ∀ q, q ≠ r → d.rail q = s.dev.rail q)) ∧
  (∀ (r : Fin 64) (b : RailSect) (m : StartMeas) (n : Fin 8) (s : State), (s.dev.rail r).meas = some m → s.dev.sect r = some b →
    s.tm.time.toNat - m.start ≥ 80000 → s.dev.sys.strapMode = false → b.vinSrc = some n → b.voutSrc = some n →
    (bankGet s.dev.le.vsense n = none → ∃ d, exec (.startMeasurementEnd r) s = .next { s with dev := d } ∧
      (d.rail r).cause = .novin ∧ (d.rail r).cmdResult = CmdResult.novin.code ∧ (d.rail r).cmdBusy = false ∧
      (d.rail r).meas = none ∧ (d.rail r).state = (s.dev.rail r).state) ∧
    (∀ code, bankGet s.dev.le.vsense n = some code → 1 ≤ vsenseLsb s.dev.str.device.body n code →
      vsenseLsb s.dev.str.device.body n code ≤ 0xFFFFE → b.minPhases ≤ m.got.length → (s.dev.rail r).cfg.vinRatio ≠ 0 →
      ∃ d d0, exec (.startMeasurementEnd r) s = .next { s with dev := d } ∧
        d0 = presetDuty (vsenseLsb s.dev.str.device.body n code) (vsenseLsb s.dev.str.device.body n code)
          (s.dev.rail r).cfg.vinRatio.toNat b.dmin b.dmax ∧
        (d.rail r).ready = some ⟨vsenseLsb s.dev.str.device.body n code, d0, vsenseLsb s.dev.str.device.body n code⟩ ∧
        (d.rail r).d0 = BitVec.ofNat 16 d0 ∧ (d.rail r).meas = none)) ∧
  (∀ (g : Fin 512) (s : State), s.dev.sys.strapMode = true → s.dev.sys.step = .ready →
    msTicks 100 ≤ s.tm.time.toNat - s.dev.sys.readyAt → (s.dev.slot g).state = .admitted → (s.dev.rail 0).state = .armed →
    (s.dev.rail 0).cmdBusy = false → lifecycleRuns s.dev = true → railSourceActive s.dev 0 = false →
    (s.dev.sect 0).isSome = true → minPhases s.dev 0 ≤ (availablePhases s.dev 0).length →
    ∃ d, exec .strapStartTimer s = .next { s with dev := d } ∧ (d.rail 0).cmdBusy = true ∧
      (d.rail 0).meas = some ⟨s.tm.time.toNat, availablePhases s.dev 0, []⟩)


/-! ### Hearth and the ring link (09_hearth.md) -/

/-- HEARTH_TICK, ENTRY_COMPLETION_TIMEOUT and PAUSE_UPDATE: the steps of Table 9-5 run once for each tick, outside STANDBY
(R243): the quantities of Table 9-6 are taken for it, with AVAIL as R241 has it, and every waiting request leaves intake. An
ACTIVE entry whose end plus TIMEOUT has come is DONE (R238, Table 9-4), and a pause of a rail not exhausted is halved, or ends
below PAUSE_MIN (R247). The supervisor's presence (HEARTBEAT, SUPERVISOR_ABSENCE; R243, R254, R267): a heartbeat of a present
supervisor renews its time alone, beside the transfers of the archive; one that ends an absence restarts every lease and empties
the waiting LEAVEs; and the start of an absence is recorded once, with INT_STATUS[5]. -/
def Obligations.HearthTicks : Prop :=
  (∀ s : State, s.dev.hs.ranTick = some (tickNow s.tm) → exec .hearthTick s = .next s) ∧
  (∀ s : State, s.dev.hs.ranTick ≠ some (tickNow s.tm) → s.dev.pwr.mode ≠ .standby →
    ∃ d, exec .hearthTick s = .next { s with dev := d } ∧ d.hs.ranTick = some (tickNow s.tm) ∧ d.hs.tick = tickNow s.tm ∧
      d.hs.requests = [] ∧ d.hs.feed = feedInForce (takeShare (tickNow s.tm) s.dev) ∧
      d.hs.avail = d.hs.feed - d.hs.base - s.dev.hs.margin.toNat) ∧
  (∀ (e : Fin 128) (s : State), (s.dev.led e).state = .active →
    endTick (s.dev.led e) + timeoutMs s.dev (s.dev.led e).cls ≤ tickNow s.tm →
    ∃ d, exec (.entryCompletionTimeout e) s = .next { s with dev := d } ∧ (d.led e).state = .done ∧ (d.led e).reason = .timeout ∧
      (d.led e).opSeq = s.dev.hs.opSeq + 1 ∧ (∀ k, k ≠ e → d.led k = s.dev.led k) ∧
      d.hs.charges = uncharge e (tickNow s.tm + 1) s.dev.hs.charges ∧ d.lanes = s.dev.lanes ∧ d.slots = s.dev.slots ∧
      d.phases = s.dev.phases ∧ d.er = s.dev.er) ∧
  (∀ (r : Fin 64) (x : InForce SchedSect) (s : State), s.dev.str.sched = some x → bankGet s.dev.hs.exhausted r = false →
    bankGet s.dev.hs.pauseFrom r + 100 ≤ tickNow s.tm → exec (.pauseUpdate r) s = .next { s with dev := { s.dev with
      hs := { s.dev.hs with
        pause := bankSet s.dev.hs.pause r
          (if bankGet s.dev.hs.pause r / 2 < x.body.pauseMin then 0 else bankGet s.dev.hs.pause r / 2)
        pauseFrom := bankSet s.dev.hs.pauseFrom r (bankGet s.dev.hs.pauseFrom r + 100) } } }) ∧
  (∀ s : State, Reaches .sup .served s → supRunning s.tm s.dev = true → ∃ d, exec .heartbeat s = .next { s with dev := d } ∧
    d.hs = { s.dev.hs with heartbeat := some s.tm.time.toNat, everRan := true, supOk := true } ∧ d.pp = s.dev.pp ∧
    d.rails = s.dev.rails ∧ d.slots = s.dev.slots ∧ d.phases = s.dev.phases ∧ d.lanes = s.dev.lanes) ∧
  (∀ s : State, Reaches .sup .served s → supRunning s.tm s.dev = false → s.dev.fw.supReset = false → s.dev.fw.supHalted = false →
    ∃ d, exec .heartbeat s = .next { s with dev := d } ∧ supRunning s.tm d = true ∧ d.hs.supOk = true ∧
      d.pp.leavesWaiting = [] ∧
      ∀ h : Fin 256, (bankGet s.dev.pp.partners h).held = true → (bankGet d.pp.partners h).held = true →
        (bankGet d.pp.partners h).leaseFrom = s.tm.time.toNat) ∧
  (∀ s : State, s.dev.hs.supOk = true → supRunning s.tm s.dev = false → ∃ er, exec .supervisorAbsence s = .next { s with
    dev := { s.dev with hs := { s.dev.hs with supOk := false, intStatus := setBit s.dev.hs.intStatus 5 }, er := er } }) ∧
  (∀ s : State, s.dev.hs.supOk = false ∨ supRunning s.tm s.dev = true → exec .supervisorAbsence s = .next s)

/-- The tick at which PLAN places an entry (R245): the first at or after HS.PLAN.START. -/
def PlanTick (s : State) (start : BitVec 32) : Nat := (tickAtOrAfter (tickNow s.tm) start).toNat

/-- Does the tick lie in an entry's window and on the horizon (R245)? -/
def PlanInWindow (s : State) (e : Fin 128) (k : Nat) : Prop :=
  (s.dev.led e).early ≤ k ∧ k ≤ (s.dev.led e).last ∧ tickNow s.tm + 1 ≤ k ∧
    k + totalMs (s.dev.led e).segs ≤ tickNow s.tm + 2048

/-- Do committed and planned entries still fit with the entry at the tick (R241, R245)? -/
def PlanFits (s : State) (e : Fin 128) (k : Nat) : Prop :=
  fitsLoads s.dev (addProfile (tickNow s.tm) k (s.dev.led e).segs
    (loads s.dev (tickNow s.tm) (committedEntries s.dev ++ plannedNewestFirst s.dev))) = true

/-- HS.PLAN_CMD. -/
def planCmdAt : Addr := 0x7011

/-- The PLAN command's checks in their order, each with its result, and the plan it makes (R245, Table 9-8). -/
def Obligations.PlanPlaces : Prop :=
  ∀ (e : Fin 128) (start : BitVec 32) (s : State), Reaches .sup .served s →
    let told (r : PlanResult) : State := Wrote .sup planCmdAt 0 (fun d => { d with
      hs := { d.hs with planStart := start, planResult := r.code } }) s
    ((s.dev.led e).state ≠ .queued ∨ supRunning s.tm s.dev = false → exec (.plan e start) s = .next (told .state)) ∧
    ((s.dev.led e).state = .queued → supRunning s.tm s.dev = true → ¬ PlanInWindow s e (PlanTick s start) →
      exec (.plan e start) s = .next (told .window)) ∧
    ((s.dev.led e).state = .queued → supRunning s.tm s.dev = true → PlanInWindow s e (PlanTick s start) →
      ¬ PlanFits s e (PlanTick s start) → exec (.plan e start) s = .next (told .budget)) ∧
    ((s.dev.led e).state = .queued → supRunning s.tm s.dev = true → PlanInWindow s e (PlanTick s start) →
      PlanFits s e (PlanTick s start) → ∃ d, exec (.plan e start) s = .next { s with dev := d } ∧
        (d.led e).state = .planned ∧ (d.led e).start = some (PlanTick s start) ∧ (d.led e).opSeq = s.dev.hs.opSeq + 1 ∧
        d.hs.opSeq = s.dev.hs.opSeq + 1 ∧ d.hs.planResult = 0 ∧ d.hs.planStart = start ∧
        (∀ k, k ≠ e → d.led k = s.dev.led k) ∧
        d.hs.charges = s.dev.hs.charges ++ chargesFrom e true (PlanTick s start) (s.dev.led e).segs ∧
        d.rails = s.dev.rails ∧ d.phases = s.dev.phases ∧ d.er = s.dev.er)

/-- INVALIDATE takes a PLANNED entry back to QUEUED, SQUASH ends a QUEUED or PLANNED one with NOFIT (Table 9-4), and in every
other state they end with STATE; a pass of the planner (PLAN_PASS) touches no entry that is granted, active or ended, and
remembers the K(r) and p(r) that it saw (R238, R244). The ring link outside STANDBY (RING_FRAME, RING_SHARE_TIMEOUT; R248 to
R251): a valid frame gives the share of this position and the epoch number, another is counted alone, and 100 ms without one, F
falls back: the share is gone, once, with INT_STATUS[6]. -/
def Obligations.PlannerAndRing : Prop :=
  (∀ (e : Fin 128) (s : State), Reaches .sup .served s → (s.dev.led e).state = .planned → supRunning s.tm s.dev = true →
    exec (.invalidate e) s = .next (Wrote .sup planCmdAt 0 (fun d => { d with hs := { d.hs with
      charges := uncharge e (tickNow s.tm + 1) d.hs.charges
      opSeq := d.hs.opSeq + 1
      ledger := bankUpd d.hs.ledger e fun x => { x with state := .queued, start := none, opSeq := s.dev.hs.opSeq + 1 }
      planResult := 0 } }) s)) ∧
  (∀ (e : Fin 128) (s : State), Reaches .sup .served s → (s.dev.led e).state ≠ .planned ∨ supRunning s.tm s.dev = false →
    exec (.invalidate e) s = .next (Wrote .sup planCmdAt 0 (fun d =>
      { d with hs := { d.hs with planResult := PlanResult.state.code } }) s)) ∧
  (∀ (e : Fin 128) (hint : BitVec 16) (s : State), Reaches .sup .served s → (s.dev.led e).state = .queued ∨ (s.dev.led e).state = .planned →
    ∃ d, exec (.squash e hint) s = .next { s with dev := d } ∧ (d.led e).state = .squashed ∧ (d.led e).reason = .nofit ∧
      (d.led e).endedAt = tickNow s.tm ∧ (∀ k, k ≠ e → d.led k = s.dev.led k) ∧ d.hs.squashes = s.dev.hs.squashes + 1 ∧
      d.hs.intStatus = setBit s.dev.hs.intStatus 2 ∧ d.hs.planResult = 0 ∧
      d.hs.charges = uncharge e (tickNow s.tm + 1) s.dev.hs.charges) ∧
  (∀ (e : Fin 128) (hint : BitVec 16) (s : State), Reaches .sup .served s → (s.dev.led e).state ≠ .queued →
    (s.dev.led e).state ≠ .planned → exec (.squash e hint) s = .next (Wrote .sup planCmdAt 0 (fun d =>
      { d with hs := { d.hs with planResult := PlanResult.state.code } }) s)) ∧
  (∀ s : State, s.dev.hs.mode = 0 → supRunning s.tm s.dev = true → ∃ d, exec .planPass s = .next { s with dev := d } ∧
    d.hs.lastCap = s.dev.hs.railCap ∧ d.hs.lastPause = s.dev.hs.pause ∧
    ∀ e, (s.dev.led e).state ≠ .queued → (s.dev.led e).state ≠ .planned → d.led e = s.dev.led e) ∧
  (∀ (bytes : List Byte) (s : State), s.dev.str.device.body.ringSize < 2 ∨ s.dev.pwr.mode = .standby →
    exec (.ringFrame bytes) s = .next s) ∧
  (∀ (bytes : List Byte) (s : State), 2 ≤ s.dev.str.device.body.ringSize → s.dev.pwr.mode ≠ .standby →
    ringValid s.dev bytes = false →
    exec (.ringFrame bytes) s = .next { s with dev := { s.dev with ring := { s.dev.ring with errors := s.dev.ring.errors + 1 } } }) ∧
  (∀ (bytes : List Byte) (s : State), 2 ≤ s.dev.str.device.body.ringSize → s.dev.pwr.mode ≠ .standby →
    ringValid s.dev bytes = true →
    ∃ d, exec (.ringFrame bytes) s = .next { s with dev := d } ∧ d.ring.frames = s.dev.ring.frames + 1 ∧
      d.ring.errors = s.dev.ring.errors ∧
      d.ring.share = word (beAt bytes (0x0C + 12 * s.dev.str.device.body.ringPos) 4) ∧
      d.ring.nextEpoch = BitVec.ofNat 48 (beAt bytes 2 6) ∧ d.tbi.ring.linkEpoch = some (beAt bytes 2 6) ∧
      d.ring.shareNext = some (tickNow s.tm, d.ring.share) ∧ d.ring.lost = false ∧ d.hs = s.dev.hs ∧ d.rails = s.dev.rails ∧
      (s.dev.ring.lost = false → d.er = s.dev.er)) ∧
  (∀ (t : Nat) (s : State), s.dev.ring.heardAt = some t → s.dev.ring.lost = false → t + 80000000 ≤ s.tm.time.toNat →
    ∃ er, exec .ringShareTimeout s = .next { s with dev := { s.dev with
      ring := { s.dev.ring with shareNow := none, shareNext := none, lost := true }
      hs := { s.dev.hs with intStatus := setBit s.dev.hs.intStatus 6 }
      er := er } })

/-! ### Partner buses (10_partner_bus.md) -/

/-- The frames of a bus that still wait since k milliseconds or more. -/
def WaitedFrames (tm : TimeBase) (k : Nat) (sync : Bool) (f : TxFrame) : Bool :=
  decide (f.sync = sync) && !f.started && decide (msTicks k ≤ tm.time.toNat - f.queued)

/-- SYNC and the transmit queues (SYNC_TIMER, SYNC_DROP, TX_FRAME_TIMEOUT, GRANT_UNSENT_AT_START, FRAME_TRANSMITTED; R256, R262,
R276): each 10 ms boundary counts SEQ and queues a SYNC of twelve bytes on every bus that takes part; the frame with the lowest
identifier starts, with the bit rate switch and the error state of its controller (Table 10-1), and stays at the front until it is
complete, which lowers TEC; an error-passive controller whose counts are below 128 again is error-active; a SYNC that has waited
5 ms, another frame 20 ms, and a GRANT whose START has come, are dropped and counted. -/
def Obligations.FramesSent : Prop :=
  (∀ s : State, portsLive s.dev = false → exec .syncTimer s = .next { s with dev := { s.dev with pp := { s.dev.pp with
    seq := s.dev.pp.seq + 1, buses := bankMap s.dev.pp.buses fun _ c => { c with prevSent := false } } } }) ∧
  (∀ (b : Fin 2) (s : State), portsLive s.dev = true → (bankGet s.dev.pp.buses b).en = true →
    (bankGet s.dev.pp.buses b).state = .active → ∃ d f, exec .syncTimer s = .next { s with dev := d } ∧
      d.pp.seq = s.dev.pp.seq + 1 ∧ (bankGet d.pp.buses b).queue = (bankGet s.dev.pp.buses b).queue ++ [f] ∧ f.sync = true ∧
      f.started = false ∧ f.queued = s.tm.time.toNat ∧ f.payload.length = 12 ∧ f.payload.head? = some (s.dev.pp.seq + 1) ∧
      f.id = handleId s.dev .sync 0 ∧ d.hs = s.dev.hs ∧ d.rails = s.dev.rails ∧ d.er = s.dev.er) ∧
  (∀ (b : Bus) (s : State) (k : Nat), ((bankGet s.dev.pp.buses (busIdx b)).queue.filter (WaitedFrames s.tm 20 false)).length = k + 1 →
    exec (.txFrameTimeout b) s = .next { s with dev := { s.dev with pp := { s.dev.pp with
      buses := bankUpd s.dev.pp.buses (busIdx b) fun c => { c with
        queue := c.queue.filter fun f => !WaitedFrames s.tm 20 false f }
      txDrops := satAdd s.dev.pp.txDrops (k + 1) } } }) ∧
  (∀ (s : State) (k : Nat), ((bankGet s.dev.pp.buses 0).queue.filter (WaitedFrames s.tm 5 true)).length = k + 1 →
    ∃ er, exec (.syncDrop .a) s = .next { s with dev := { s.dev with
      pp := { s.dev.pp with
        buses := bankUpd s.dev.pp.buses 0 fun c => { c with queue := c.queue.filter fun f => !WaitedFrames s.tm 5 true f }
        syncDropA := s.dev.pp.syncDropA + BitVec.ofNat 8 (k + 1) }
      er := er } }) ∧
  (∀ (e : Fin 128) (s : State), ∃ pp, exec (.grantUnsentAtStart e) s = .next { s with dev := { s.dev with pp := pp } } ∧
    ∀ b : Fin 2, ∀ f ∈ (bankGet pp.buses b).queue, f ∈ (bankGet s.dev.pp.buses b).queue ∧
      (f.started = false → ∀ t, f.start = some t → beAt f.payload 1 1 = e.val →
        notEarlierUs (word s.tm.us.toNat) t = false)) ∧
  (∀ (b : Bus) (f : TxFrame) (s : State), (bankGet s.dev.pp.buses (busIdx b)).queue.find? (·.started) = some f →
    exec (.frameTransmitted b true) s = .next { s with dev := s.dev.onBus (busIdx b) fun c => { c with
      queue := c.queue.erase f
      tx := c.tx + 1
      tecCount := if c.tecCount = 0 then 0 else c.tecCount - 1
      state := if c.state = .passive ∧ (if c.tecCount = 0 then 0 else c.tecCount - 1).toNat < 128 ∧ c.recCount.toNat < 128
        then .active else c.state
      prevSent := c.prevSent || f.sync } }) ∧
  (∀ (b : Bus) (s : State), busSends s.dev (busIdx b) = true → (∀ f ∈ (bankGet s.dev.pp.buses (busIdx b)).queue,
      f.started = false ∧ WaitedFrames s.tm 20 false f = false ∧ WaitedFrames s.tm 5 true f = false) →
    (bankGet s.dev.pp.buses (busIdx b)).queue ≠ [] →
    ∃ d f rest, exec (.frameTransmitted b false) s = .next { s with dev := d } ∧
      (bankGet d.pp.buses (busIdx b)).queue = { f with
        started := true, brs := (bankGet s.dev.pp.buses (busIdx b)).brs
        esi := decide ((bankGet s.dev.pp.buses (busIdx b)).state = .passive) } :: rest ∧
      f ∈ (bankGet s.dev.pp.buses (busIdx b)).queue ∧
      (∀ g ∈ (bankGet s.dev.pp.buses (busIdx b)).queue, f.id.toNat ≤ g.id.toNat) ∧ d.hs = s.dev.hs ∧ d.er = s.dev.er)

/-- JOIN, LEAVE, KEEPALIVE, the end of a lease and of a holdoff (LEASE_EXPIRY, HOLDOFF_END), EVICT, and the handles that nobody
claims (ORPHAN_HANDLE_TIMEOUT; R265 to R269), with the frames that are discarded (PARTNER_FRAME_DISCARD, R259). -/
def Obligations.PartnersJoinAndLeave : Prop :=
  (∀ (b : Bus) (node : BitVec 4) (unit : BitVec 16) (nonce : BitVec 32) (jflags prev : BitVec 8) (proto : BitVec 16) (s : State),
    busListens s.dev (busIdx b) = true → node = s.dev.pp.node → proto = 1 → lifecycleRuns s.dev = true →
    supRunning s.tm s.dev = true → (∀ h, (bankGet s.dev.pp.partners h).held = true → (bankGet s.dev.pp.partners h).unit ≠ unit) →
    listingOf s.dev unit.toNat = none → ∀ h : Fin 256,
    unlistedHandle s.tm unit (jflags.getLsbD 0) (Fin.ofNat 256 prev.toNat) s.dev = some h →
    ∃ d, exec (.join b node unit nonce jflags prev proto) s = .next { s with dev := d } ∧
      (bankGet d.pp.partners h).held = true ∧ (bankGet d.pp.partners h).unit = unit ∧ (bankGet d.pp.partners h).nonce = nonce ∧
      (bankGet d.pp.partners h).home = decide (busIdx b = 1) ∧ (bankGet d.pp.partners h).leaseFrom = s.tm.time.toNat ∧
      (∀ k, k ≠ h → bankGet d.pp.partners k = bankGet s.dev.pp.partners k) ∧ d.pp.joins = s.dev.pp.joins + 1 ∧
      d.pp.intStatus = setBit s.dev.pp.intStatus 0 ∧ d.hs = s.dev.hs ∧ d.er = s.dev.er) ∧
  (∀ (b : Bus) (node : BitVec 4) (h : Fin 256) (unit : BitVec 16) (s : State), busListens s.dev (busIdx b) = true →
    node = s.dev.pp.node → supRunning s.tm s.dev = true → (bankGet s.dev.pp.partners h).held = true →
    (bankGet s.dev.pp.partners h).unit = unit → ∃ d, exec (.leave b node h unit) s = .next { s with dev := d } ∧
      (bankGet d.pp.partners h).held = false ∧ d.pp.leaves = s.dev.pp.leaves + 1 ∧
      ∀ k, k ≠ h → bankGet d.pp.partners k = bankGet s.dev.pp.partners k) ∧
  (∀ (b : Bus) (node : BitVec 4) (h : Fin 256) (unit : BitVec 16) (s : State), busListens s.dev (busIdx b) = true →
    node = s.dev.pp.node → supRunning s.tm s.dev = true → (bankGet s.dev.pp.partners h).held = true →
    (bankGet s.dev.pp.partners h).unit = unit → ∃ d, exec (.keepalive b node h unit) s = .next { s with dev := d } ∧
      d.pp.partners = bankUpd s.dev.pp.partners h (fun p => { p with
        home := decide (busIdx b = 1), lastRx := word s.tm.us.toNat, leaseFrom := s.tm.time.toNat, frames := p.frames + 1 }) ∧
      (bankGet d.pp.buses (busIdx b)).rx = (bankGet s.dev.pp.buses (busIdx b)).rx + 1 ∧
      (bankGet d.pp.buses (busIdx b)).queue = (bankGet s.dev.pp.buses (busIdx b)).queue ∧
      d.hs = s.dev.hs ∧ d.rails = s.dev.rails ∧ d.er = s.dev.er) ∧
  (∀ (h : Fin 256) (s : State), (bankGet s.dev.pp.partners h).held = true → supRunning s.tm s.dev = true →
    s.dev.pwr.mode ≠ .standby → (msTicks (leaseMs s.dev) ≤ s.tm.time.toNat - (bankGet s.dev.pp.partners h).leaseFrom →
      ∃ d, exec (.leaseExpiry h) s = .next { s with dev := d } ∧ (bankGet d.pp.partners h).held = false ∧
        d.pp.expiries = s.dev.pp.expiries + 1 ∧ d.pp.intStatus = setBit s.dev.pp.intStatus 1) ∧
    (s.tm.time.toNat - (bankGet s.dev.pp.partners h).leaseFrom < msTicks (leaseMs s.dev) → exec (.leaseExpiry h) s = .next s)) ∧
  (∀ (h : Fin 256) (s : State), inHoldoff s.tm s.dev (bankGet s.dev.pp.partners h) = false →
    exec (.holdoffEnd h) s = .next { s with dev := s.dev.onPartner h fun p => { p with holdoff := none } }) ∧
  (∀ (src : Src) (h : Fin 256) (s : State), may s.dev src .engineer = true → Reaches src .served s →
    (bankGet s.dev.pp.partners h).held = true → ∃ d, exec (.evict src h) s = .next { s with dev := d } ∧ (bankGet d.pp.partners h).held = false ∧
      d.pp.leaves = s.dev.pp.leaves + 1) ∧
  (∀ (e : Fin 128) (s : State), msTicks (leaseMs s.dev) ≤ s.tm.time.toNat - s.dev.pp.supStart → (s.dev.led e).state = .queued →
    (bankGet s.dev.pp.partners (s.dev.led e).handle).held = false →
    ∃ d, exec .orphanHandleTimeout s = .next { s with dev := d } ∧ (d.led e).state = .squashed ∧ (d.led e).reason = .left) ∧
  (∀ (b : Bus) (id : BitVec 29) (payload : List Byte) (s : State), busListens s.dev (busIdx b) = true →
    BitVec.ofNat 4 (bits id.toNat 20 17) = s.dev.pp.node → frameBad id payload = true →
    ∃ d, exec (.partnerFrameDiscard b id payload) s = .next { s with dev := d } ∧
      (bankGet d.pp.buses (busIdx b)).rx = (bankGet s.dev.pp.buses (busIdx b)).rx + 1 ∧
      d.pp.discards = satInc s.dev.pp.discards ∧ d.pp.intStatus = setBit s.dev.pp.intStatus 8 ∧
      d.pp.partners = s.dev.pp.partners ∧ (∀ k, (bankGet d.pp.buses k).queue = (bankGet s.dev.pp.buses k).queue) ∧
      d.hs = s.dev.hs ∧ d.rails = s.dev.rails ∧ d.er = s.dev.er)

/-- The requests of a partner (MOTION_REQ, CANCEL, REVERSE, COMPLETE, VREQ; R234, R270, R274, R275): a MOTION_REQ whose checks pass awaits intake; CANCEL, REVERSE and COMPLETE
act on the entry that their TAG names, as Table 9-4 has them; and a VREQ of the first of a handle joins the rail's requests. -/
def Obligations.PartnersRequest : Prop :=
  (∀ (b : Bus) (h : Fin 256) (tag : BitVec 8) (segs : BitVec 4) (cls : BitVec 2) (unit : BitVec 16) (earliest latest : BitVec 32)
    (profile : List ProfileSeg) (s : State), busListens s.dev (busIdx b) = true → supRunning s.tm s.dev = true →
    (bankGet s.dev.pp.partners h).held = true → (bankGet s.dev.pp.partners h).unit = unit → cls.toNat ≤ 2 →
    profile.length = segs.toNat → profileValid segs.toNat profile = true → tagItem (bankGet s.dev.pp.partners h) tag = none →
    openEntries s.dev h < maxOpen s.dev →
    ∃ d, exec (.motionReq b s.dev.pp.node h tag segs cls unit earliest latest profile) s = .next { s with dev := d } ∧
      d.hs = { s.dev.hs with requests := s.dev.hs.requests ++
        [⟨h, tag, max (Fin.ofNat 3 cls.toNat) (standingOf s.dev h.val unit.toNat).ceil, unit, earliest, latest, segsOf profile⟩] } ∧
      (tagItem (bankGet d.pp.partners h) tag).isSome = true ∧ d.rails = s.dev.rails ∧ d.er = s.dev.er ∧
      ∀ k, k ≠ h → bankGet d.pp.partners k = bankGet s.dev.pp.partners k) ∧
  (∀ (b : Bus) (h : Fin 256) (tag entry : BitVec 8) (e : Fin 128) (x : TagMem) (s : State),
    busListens s.dev (busIdx b) = true → supRunning s.tm s.dev = true → (bankGet s.dev.pp.partners h).held = true →
    tagItem (bankGet s.dev.pp.partners h) tag = some x → x.entry = entry → entry.toNat = e.val → (s.dev.led e).handle = h →
    ((s.dev.led e).state = .queued ∨ (s.dev.led e).state = .planned ∨ (s.dev.led e).state = .granted ∨
        (s.dev.led e).state = .active →
      ∃ d, exec (.cancel b s.dev.pp.node h tag entry) s = .next { s with dev := d } ∧ (d.led e).state = .squashed ∧
        (d.led e).reason = .cancel ∧ (∀ k, k ≠ e → d.led k = s.dev.led k) ∧ d.hs.squashes = s.dev.hs.squashes + 1) ∧
    ((s.dev.led e).state = .active → ∃ d, exec (.complete b s.dev.pp.node h tag entry) s = .next { s with dev := d } ∧
        (d.led e).state = .done ∧ (d.led e).reason = .none ∧ ∀ k, k ≠ e → d.led k = s.dev.led k) ∧
    (∀ (segs : BitVec 4) (profile : List ProfileSeg), (s.dev.led e).state = .active → profile.length = segs.toNat →
      profileValid segs.toNat profile = true → totalMs (segsOf profile) ≤ 2047 →
      ∃ d, exec (.reverse b s.dev.pp.node h tag segs entry profile) s = .next { s with dev := d } ∧
        (d.led e).state = .active ∧ (d.led e).segs = segsOf profile ∧ (d.led e).first = tickNow s.tm + 1 ∧
        (d.led e).reason = (s.dev.led e).reason ∧ ∀ k, k ≠ e → d.led k = s.dev.led k)) ∧
  (∀ (b : Bus) (h : Fin 256) (tag : BitVec 8) (value : BitVec 32) (r : Fin 64) (s : State), busListens s.dev (busIdx b) = true →
    supRunning s.tm s.dev = true → (bankGet s.dev.pp.partners h).held = true →
    (standingOf s.dev h.val (bankGet s.dev.pp.partners h).unit.toNat).vreqOk = true →
    (standingOf s.dev h.val (bankGet s.dev.pp.partners h).unit.toNat).rail = some r → bits value.toNat 19 0 ≠ 0 →
    (∀ q ∈ (s.dev.rail r).requests, q.handle ≠ h) → (s.dev.rail r).requests.length < 16 →
    ∃ d, exec (.vreq b s.dev.pp.node h tag value) s = .next { s with dev := d } ∧
      d.rails = bankUpd s.dev.rails r (fun x => { x with
        requests := x.requests ++ [⟨h, bits value.toNat 19 0, s.tm.time.toNat⟩] }) ∧ d.hs = s.dev.hs ∧ d.er = s.dev.er)

/-- A register of PP.BUS[b]. -/
def busAt (b : Bus) (off : Nat) : Addr := wordAt 0x8010 16 (busIdx b).val off

/-- The controllers' errors (BUS_ERROR_PASSIVE, BUS_OFF, RESTART, BUS_OFF_RECOVERY_END, BIT_TIMING_WRITE; R256, R257, R278): a controller
on its bus is error-passive and bus-off with its counts, interrupt bits and events;
RESTART and the recovery lead back; and the bit timing is written only while EN is 0. -/
def Obligations.BusErrors : Prop :=
  (∀ (b : Bus) (s : State), busOn s.dev (busIdx b) = true → (bankGet s.dev.pp.buses (busIdx b)).state = .active →
    ∃ d, exec (.busErrorPassive b) s = .next { s with dev := d } ∧ (bankGet d.pp.buses (busIdx b)).state = .passive ∧
      (bankGet d.pp.buses (busIdx b)).passives = satInc (bankGet s.dev.pp.buses (busIdx b)).passives ∧
      d.pp.intStatus = setBit s.dev.pp.intStatus (4 + (busIdx b).val) ∧ d.hs = s.dev.hs ∧ d.rails = s.dev.rails ∧
      ∀ k, k ≠ busIdx b → bankGet d.pp.buses k = bankGet s.dev.pp.buses k) ∧
  (∀ (b : Bus) (s : State), busOn s.dev (busIdx b) = true →
    ∃ d, exec (.busOff b) s = .next { s with dev := d } ∧ (bankGet d.pp.buses (busIdx b)).state = .busOff ∧
      (bankGet d.pp.buses (busIdx b)).busOffs = satInc (bankGet s.dev.pp.buses (busIdx b)).busOffs ∧
      (bankGet d.pp.buses (busIdx b)).recovering = s.dev.pp.autoRecover ∧
      d.pp.intStatus = setBit s.dev.pp.intStatus (6 + (busIdx b).val) ∧ d.hs = s.dev.hs ∧ d.rails = s.dev.rails ∧
      (∀ f ∈ (bankGet d.pp.buses (busIdx b)).queue, f.started = false) ∧
      ∀ k, k ≠ busIdx b → bankGet d.pp.buses k = bankGet s.dev.pp.buses k) ∧
  (∀ (src : Src) (b : Bus) (s : State), may s.dev src .engineer = true → Reaches src .running s →
    exec (.restart src b) s = .next (Wrote src (busAt b 0) 0 (fun d => d.onBus (busIdx b) fun c => { c with
      recovering := c.recovering || decide (c.state = .busOff) }) s)) ∧
  (∀ (b : Bus) (s : State), (bankGet s.dev.pp.buses (busIdx b)).state = .busOff → (bankGet s.dev.pp.buses (busIdx b)).en = true →
    (bankGet s.dev.pp.buses (busIdx b)).recovering = true → ∃ er, exec (.busOffRecoveryEnd b) s = .next { s with dev := { s.dev with
      pp := { s.dev.pp with buses := bankUpd s.dev.pp.buses (busIdx b) fun c => { c with
        state := .active, recovering := false, tecCount := 0, recCount := 0 } }
      er := er } }) ∧
  (∀ (src : Src) (b : Bus) (data : BitVec 32) (s : State), may s.dev src .engineer = true → Reaches src .running s →
    ((bankGet s.dev.pp.buses (busIdx b)).en = true → ∀ which : Fin 3,
      exec (.bitTimingWrite src b which data) s = .next (Wrote src (busAt b (1 + which.val)) 0 id s)) ∧
    ((bankGet s.dev.pp.buses (busIdx b)).en = false →
      exec (.bitTimingWrite src b 0 data) s = .next (Wrote src (busAt b 1) 0 (fun d => d.onBus (busIdx b) fun c => { c with
        nbt := data &&& 0x0FFFFFFF }) s) ∧
      exec (.bitTimingWrite src b 1 data) s = .next (Wrote src (busAt b 2) 0 (fun d => d.onBus (busIdx b) fun c => { c with
        dbt := data &&& 0x0003FFFF }) s) ∧
      exec (.bitTimingWrite src b 2 data) s = .next (Wrote src (busAt b 3) 0 (fun d => d.onBus (busIdx b) fun c => { c with
        tdco := data.setWidth 8, tdcEn := data.getLsbD 8 }) s)))


/-! ### Protection and housekeeping (11_protection_thermal.md) -/

/-- The protection matrix (VSENSE_CONVERSION, LATCH_CLEAR, FIRST_CLR; R285, R286, R288): an over-voltage entry of a VSENSE input asserts after its count of values and sets
its latch, and with ACTION 2 its rail, where it runs or is armed, is in FAULT or SAFE; a write of ones to a latch clears it where
its source is clear; FIRST_CLR clears the first entry and its time. -/
def Obligations.ProtectionActs : Prop :=
  (∀ (v : Fin 8) (code : BitVec 16) (i : Nat) (e : ProtEntry) (x : ProtSt) (s : State), s.dev.pm.entries[i]? = some e →
    s.dev.pm.st[i]? = some x → e.source = 5 → e.srcIndex = v.val → e.level < code.toNat →
    max 1 s.dev.pm.vsCount.toNat ≤ x.count + 1 → x.active = false → x.latch = false →
    ∃ d y, exec (.vsenseConversion v code) s = .next { s with dev := d } ∧ bankGet d.le.vsense v = some code ∧
      d.pm.entries = s.dev.pm.entries ∧ d.pm.st[i]? = some y ∧ y.active = true ∧ y.latch = true ∧
      d.pm.intStatus.getLsbD 0 = true ∧ d.pm.first.isSome = true ∧
      ∀ r, e.action = 2 → entryRail s.dev e = some r → (s.dev.rail r).state.tripped = true →
        (d.rail r).state = .fault ∨ (d.rail r).state = .safe) ∧
  (∀ (src : Src) (i : Fin 8) (data : BitVec 32) (s : State), may s.dev src .operate = true → Reaches src .core s →
    ∃ pm, exec (.latchClear src i data) s = .next (Wrote src (wordAt 0x8418 1 i.val) 0 (fun d => { d with pm := pm }) s) ∧
      pm.entries = s.dev.pm.entries ∧ pm.first = s.dev.pm.first ∧ pm.trips = s.dev.pm.trips ∧
      pm.intStatus = s.dev.pm.intStatus ∧
      ∀ (k : Nat) (x : ProtSt), s.dev.pm.st[k]? = some x → pm.st[k]? =
        some (if k / 32 = i.val ∧ data.getLsbD (k % 32) = true ∧ x.active = false then { x with latch := false } else x)) ∧
  (∀ (src : Src) (s : State), may s.dev src .engineer = true → Reaches src .core s →
    exec (.firstClr src) s = .next (Wrote src 0x8405 0 (fun d => { d with
      pm := { d.pm with first := none, firstTime := 0 } }) s))

/-- Housekeeping (HOUSEKEEPING_ROUND, HOUSEKEEPING_ROUND_END, DIE_SAMPLE, SHUTDOWN_RECORD_WRITE, STORE_WINDOW_OPEN; R292, R295, R303
to R307): a round captures one value a channel, and its end steps them; a channel that was
idle starts anew; JMAX is the highest valid reading; above +110 °C the store's window is closed; three samples at +130 °C are
thermal shutdown, at which every rail leaves its running state; and the window opens once the range has held for 10 ms. -/
def Obligations.HousekeepingRuns : Prop :=
  (∀ (thm : Vector (BitVec 12) 4) (uv : Vector (BitVec 24) 4) (s : State),
    ∃ chans thms mv, exec (.housekeepingRound thm uv) s = .next { s with dev := { s.dev with hkt := { s.dev.hkt with
      inRound := true, chans := chans, thms := thms, supUv := uv, supMv := mv } } } ∧
      (∀ i : Fin 4, bankGet thms i = { bankGet s.dev.hkt.thms i with code := thm[i.val] }) ∧
      (∀ (c : Fin 96) (e : HkEntry) (k : Fin 8), channelEntry s.dev c = some e → e.source = 2 → e.srcIndex = k.val →
        (bankGet chans c).captured =
          if (bankGet s.dev.hkt.dies k).valid then some (bankGet s.dev.hkt.dies k).temp.toInt else none) ∧
      ∀ c : Fin 96, channelEntry s.dev c = none → (bankGet chans c).capIdle = true) ∧
  (∀ s : State, s.dev.hkt.inRound = true → ∃ nv d tm, exec .housekeepingRoundEnd s =
      .next { s with tm := tm, nv := nv, dev := d } ∧ (s.dev.pwr.mode ≠ .standby → tm = s.tm) ∧
    d.hkt.inRound = false ∧ d.hkt.rounds = s.dev.hkt.rounds + 1 ∧
    (∀ c : Fin 96, (bankGet s.dev.hkt.chans c).capIdle = true → (bankGet d.hkt.chans c).level = 0 ∧
      (bankGet d.hkt.chans c).idle = true ∧ (bankGet d.hkt.chans c).failed = false) ∧
    (∀ (c : Fin 96) (e : HkEntry) (v : Int), channelEntry s.dev c = some e → (bankGet s.dev.hkt.chans c).capIdle = false →
      (bankGet s.dev.hkt.chans c).captured = some v → e.xcheck = false →
      (bankGet d.hkt.chans c).value = v ∧ (bankGet d.hkt.chans c).bad = 0 ∧ (bankGet d.hkt.chans c).failed = false ∧
      (bankGet d.hkt.chans c).t3 = stepThreshold v e.shutdown e.hyst e.persist (bankGet s.dev.hkt.chans c).t3) ∧
    (s.dev.hkt.tsd = false → d.hkt.tsd = true → ∀ r, (d.rail r).state.tripped = false)) ∧
  (∀ (temps : Vector (Option (BitVec 16)) 8) (s : State), ∃ nv d tm, exec (.dieSample temps) s =
      .next { s with tm := tm, nv := nv, dev := d } ∧ (s.dev.pwr.mode ≠ .standby → tm = s.tm) ∧
    d.hkt.dies = bankMap s.dev.hkt.dies (fun k x => readDie temps[k.val] x) ∧ d.hkt.jmax = junctionMax d.hkt.dies ∧
    (1760 < d.hkt.jmax.toInt → d.hkt.storeWin = false) ∧
    (∀ k, 3 ≤ (bankGet d.hkt.dies k).hotRun → d.hkt.tsd = true) ∧
    (s.dev.hkt.tsd = false → d.hkt.tsd = true → ∀ r, (d.rail r).state.tripped = false)) ∧
  (∀ (payload : List Byte) (addr : Nat) (s : State), s.dev.hkt.shutdown = some payload →
    (∀ j ∈ s.dev.ocs.current.toList ++ s.dev.ocs.jobs, j.tag ≠ .shutdown) → s.dev.hkt.jmax.toInt ≤ 2160 →
    regionWritable s.dev.ocs 6 = true → s.dev.er.seqNext ≠ s.dev.er.seqLimit → s.dev.er.seqEnd = false →
    shutdownPlace s.nv s.dev.ocs = some addr → ∃ ocs bs, exec .shutdownRecordWrite s = .next { s with dev := { s.dev with
      ocs := ocs, er := { s.dev.er with seqNext := s.dev.er.seqNext + 1, toCopy := s.dev.er.toCopy ++ [(addr, bs)] } } } ∧
      (∃ j ∈ ocs.current.toList ++ ocs.jobs, j.tag = .shutdown) ∧
      bs.take 4 = leBytes 4 s.dev.er.seqNext.toNat) ∧
  (∀ (t : Nat) (s : State), s.dev.hkt.inRange = some t → t + 8000000 ≤ ticksNow s.tm →
    ∃ d, exec .storeWindowOpen s = .next { s with dev := d } ∧ d.hkt.storeWin = true ∧ d.rails = s.dev.rails ∧
      d.lanes = s.dev.lanes ∧ d.phases = s.dev.phases)


/-! ### Register accesses and ports (00_scope.md, 12_host_port.md, 13_two_wire_port.md) -/

/-- A port takes an access by word: it answers, and nothing of it is pending or held (R317, R330, R335, R359). -/
def PortFree (d : Device) (p : Port) : Prop := takesAccess p d = true

/-- A word is there, its window answers and its clock runs (R8, R45, R48). -/
def WordThere (s : State) (a : Addr) : Prop :=
  a.toNat < 0xF000 ∧ (readWord s a.toNat).isSome = true ∧ (accessWindow a.toNat).shut s.tm s.dev = false ∧
    (accessWindow a.toNat).runs s.dev = true

/-- The device after an access without effect: the port's registers alone, and the access's traces in TWP and the session. -/
def OnlyPort (p : Port) (s : State) (d : Device) : Prop :=
  ∃ ports hsp twp, d = { s.dev with sg := (touch s.tm (.port p) s.dev).sg, ports := ports, hsp := hsp, twp := twp }

/-- An undefined word address (HOST_READ, HOST_WRITE, DBG_ACCESS, REGISTER_WRITE; R8): a read returns zero and a write has no effect, and the status of the frame, or of the port
that the access came through, carries the address error. -/
def Obligations.UndefinedAddresses : Prop :=
  (∀ (fixed : Bool) (a : Addr) (s : State), answers s.dev = true → portTaken s.dev = false → a.toNat < 0xF000 →
    readWord s a.toNat = none →
    (∃ d, exec (.hostRead fixed a 1 (crc8 (accessHeader (.read fixed a 1)))) s = .next { s with dev := d } ∧
      OnlyPort .spi s d ∧ d.hsp.response = some (responseOf (accessHeader (.read fixed a 1)) [0, 0, 0, 0] 0x02)) ∧
    ∀ w : BitVec 32, ∃ d, exec (.hostWrite fixed a [w] (crc8 (accessBytes (.write fixed a [w])))) s = .next { s with dev := d } ∧
      OnlyPort .spi s d ∧ d.hsp.response = some (responseOf (accessHeader (.write fixed a [w])) [] 0x02)) ∧
  (∀ (a : Addr) (s : State), PortFree s.dev .debug → a.toNat < 0xF000 → readWord s a.toNat = none →
    ∃ d, exec (.dbgAccess (.regRead a)) s = .next { s with dev := d } ∧ OnlyPort .debug s d ∧ (d.port .debug).data = 0 ∧
      (d.port .debug).status = 0x02) ∧
  (∀ (p : Port) (a : Addr) (w : BitVec 32) (s : State), PortFree s.dev p → a.toNat < 0xF000 → readWord s a.toNat = none →
    ∃ d, exec (.registerWrite (.port p) a w) s = .next { s with dev := d } ∧ OnlyPort p s d ∧ (d.port p).status = 0x02 ∧
      (d.port p).pending = none) ∧
  (∀ (a : Addr) (w : BitVec 32) (s : State), readWord s a.toNat = none → exec (.registerWrite .sup a w) s = .next s)

/-- The write of one word, of whatever row (R9, R317, R335, R353): what a port's access leaves beside its effect is the port's
own answer, its session's last use and the alert that was acknowledged; the answer is the status, and the port's holds are gone.
Register writes by their level (REGISTER_WRITE; R48, R318): before READY one beyond HSP carries NOT_READY and has no effect; a
port without the level is denied; and a write of ones to SYS.RESET_CAUSE clears those bits. Pairs of words (PAIR_LOW_READ,
PAIR_HIGH_READ, PAIR_LOW_WRITE, PAIR_HIGH_WRITE; R9): a read of the low word latches the high word for the port, which the next
read of the high word returns and uses up; a low word written is held, and a write of the high word of ER.TIME_NEW commits both,
or itself alone. A stopped clock (STALLED_ACCESS_COMPLETE, BUS_TIMEOUT; R28, R45): a pending access waits while it stays stopped
and goes on once it runs; a bus timeout is an internal fault whose access carries TIMEOUT and reads zero, and it never fires on
a stopped clock. -/
def Obligations.RegisterAccesses : Prop :=
  (∀ (src : Src) (a : Addr) (st : BitVec 8) (s : State), SameButAccess s.dev (rowEnds src a st (rowStarts src a s).dev)) ∧
  (∀ (a : Addr) (st : BitVec 8) (s : State), ∃ twp, rowEnds .sup a st (rowStarts .sup a s).dev = { s.dev with twp := twp }) ∧
  (∀ (p : Port) (a : Addr) (st : BitVec 8) (s : State), PortFree s.dev p →
    (rowEnds (.port p) a st (rowStarts (.port p) a s).dev).port p =
      { s.dev.port p with pending := none, data := 0, status := st, readHold := none, writeHold := none }) ∧
  (∀ (p : Port) (a : Addr) (w : BitVec 32) (s : State), PortFree s.dev p → a.toNat < 0xF000 → (readWord s a.toNat).isSome = true →
    0x500 ≤ a.toNat → s.dev.sys.step ≠ .ready →
    ∃ d, exec (.registerWrite (.port p) a w) s = .next { s with dev := d } ∧ OnlyPort p s d ∧ (d.port p).status = 0x08 ∧
      (d.port p).pending = none) ∧
  (∀ (p : Port) (w : BitVec 32) (s : State), PortFree s.dev p →
    (mayEarly s.dev (.port p) .operate = true →
      ∃ d, exec (.registerWrite (.port p) 0x005 w) s = .next { s with dev := d } ∧ (d.port p).status = 0 ∧
        d.sys = { s.dev.sys with cause := w1c s.dev.sys.cause w } ∧ d.rails = s.dev.rails ∧ d.lanes = s.dev.lanes ∧
        d.ocs = s.dev.ocs ∧ d.er = s.dev.er) ∧
    (mayEarly s.dev (.port p) .operate = false →
      ∃ d, exec (.registerWrite (.port p) 0x005 w) s = .next { s with dev := d } ∧ OnlyPort p s d ∧ (d.port p).status = 0x04)) ∧
  (∀ (p : Port) (a : Addr) (s : State), PortFree s.dev p → WordThere s a → pairLow a.toNat = true →
    (readLevel p a.toNat).rank ≤ srcLevel s.dev (.port p) →
    ∃ d, exec (.pairLowRead p a) s = .next { s with dev := d } ∧ OnlyPort p s d ∧ (d.port p).status = 0 ∧
      (d.port p).data = presentWord s a.toNat ∧ (d.port p).readHold = some (a, presentWord s (a.toNat + 1)) ∧
      (d.port p).writeHold = none) ∧
  (∀ (p : Port) (a lo : Addr) (w : BitVec 32) (s : State), PortFree s.dev p → WordThere s a → pairHigh a.toNat = true →
    (readLevel p a.toNat).rank ≤ srcLevel s.dev (.port p) → (s.dev.port p).readHold = some (lo, w) → lo.toNat + 1 = a.toNat →
    ∃ d, exec (.pairHighRead p a) s = .next { s with dev := d } ∧ OnlyPort p s d ∧ (d.port p).data = w ∧
      (d.port p).readHold = none) ∧
  (∀ (p : Port) (w : BitVec 32) (s : State), PortFree s.dev p → may s.dev (.port p) .operate = true →
    (∃ d, exec (.pairLowWrite p 0x9408 w) s = .next { s with dev := d } ∧ OnlyPort p s d ∧ (d.port p).status = 0 ∧
      (d.port p).writeHold = some (0x9408, w) ∧ (d.port p).readHold = none) ∧
    (∀ lo : BitVec 32, (s.dev.port p).writeHold = some (0x9408, lo) →
      ∃ d, exec (.pairHighWrite p 0x9409 w) s = .next { s with dev := d } ∧ (d.port p).writeHold = none ∧
        d.er = { s.dev.er with timeNew := w.setWidth 16 ++ lo } ∧ d.rails = s.dev.rails ∧ d.sys = s.dev.sys) ∧
    ((s.dev.port p).writeHold = none →
      ∃ d, exec (.pairHighWrite p 0x9409 w) s = .next { s with dev := d } ∧
        d.er = { s.dev.er with timeNew := w.setWidth 16 ++ s.dev.er.timeNew.setWidth 32 } ∧ d.rails = s.dev.rails ∧
        d.sys = s.dev.sys)) ∧
  (∀ (p : Port) (s : State), (s.dev.port p).pending = none → exec (.stalledAccessComplete p) s = .next s) ∧
  (∀ (p : Port) (acc : PendingAccess) (a : Addr) (w : Option (BitVec 32)) (s : State), (s.dev.port p).pending = some acc →
    acc.level = srcLevel s.dev (.port p) → acc.todo = [(a, w)] → a.toNat < 0xF000 → (readWord s a.toNat).isSome = true →
    (accessWindow a.toNat).shut s.tm s.dev = false → (accessWindow a.toNat).runs s.dev = false →
    exec (.stalledAccessComplete p) s = .next (s.onDev settleAlert) ∧ exec (.busTimeout (.port p)) s =
      .next s) ∧
  (∀ (p : Port) (acc : PendingAccess) (a : Addr) (s : State), (s.dev.port p).pending = some acc →
    acc.level = srcLevel s.dev (.port p) → acc.todo = [(a, none)] → 0x4000 ≤ a.toNat → a.toNat < 0x4800 → WordThere s a →
    (readLevel p a.toNat).rank ≤ srcLevel s.dev (.port p) →
    ∃ d, exec (.stalledAccessComplete p) s = .next { s with dev := d } ∧ (d.port p).pending = none ∧
      (d.port p).data = presentWord s a.toNat ∧ (d.port p).status = acc.status ∧ d.rails = s.dev.rails) ∧
  (∀ (a : Addr) (w : BitVec 32) (s : State), s.dev.fw.hung = none → (readWord s a.toNat).isSome = true →
    (accessWindow a.toNat).runs s.dev = false → exec (.registerWrite .sup a w) s =
      .next { s with dev := { s.dev with fw := { s.dev.fw with hung := some (a, w) } } }) ∧
  (∀ s : State, s.dev.fw.hung = none →
    ∃ er, exec (.busTimeout .sup) s = .next { s with dev := { s.dev with er := er, draws := s.dev.draws + 1 } }) ∧
  (∀ (a : Addr) (w : BitVec 32) (s : State), s.dev.fw.hung = some (a, w) →
    ((accessWindow a.toNat).runs s.dev = false → exec (.busTimeout .sup) s = .next s) ∧
    ((accessWindow a.toNat).runs s.dev = true → ∃ er, exec (.busTimeout .sup) s = .next { s with dev := { s.dev with
      er := er, draws := s.dev.draws + 1, fw := { s.dev.fw with hung := none } } })) ∧
  (∀ (p : Port) (s : State), reaches s.dev (.port p) = true → (s.dev.port p).pending = none →
    ∃ d, exec (.busTimeout (.port p)) s = .next { s with dev := d } ∧ (d.port p).data = 0 ∧ (d.port p).status = 0x40 ∧
      d.rails = s.dev.rails ∧ d.lanes = s.dev.lanes)

/-- A frame of the SPI port changes the host port and its access port alone. -/
def OnlyFrame (s : State) (d : Device) : Prop := ∃ ports hsp, d = { s.dev with ports := ports, hsp := hsp }

/-- Frames of the SPI port (HOST_READ, HOST_WRITE, HOST_STATUS, FETCH, MALFORMED_FRAME, FRAME_CUT_OFF; R311 to R317): one with a wrong HCRC, a malformed one and one cut off before its HCRC make no access and
are counted; READ, WRITE, STATUS and FETCH answer with their body, status and RCRC; a device that does not answer yet ignores
all of them. -/
def Obligations.HostFrames : Prop :=
  (∀ s : State, answers s.dev = false → ∀ (fixed : Bool) (a : Addr) (len hcrc cmd : BitVec 8) (data : List (BitVec 32)) (g : CutStage),
    exec (.hostRead fixed a len hcrc) s = .next s ∧ exec (.hostWrite fixed a data hcrc) s = .next s ∧
    exec (.hostStatus hcrc) s = .next s ∧ exec (.fetch hcrc) s = .next s ∧ exec (.malformedFrame cmd) s = .next s ∧
    exec (.frameCutOff g) s = .next s) ∧
  (∀ s : State, answers s.dev = true → (s.dev.port .spi).pending = none →
    (∀ (fixed : Bool) (a : Addr) (len hcrc : BitVec 8), 1 ≤ len.toNat → len.toNat ≤ 16 →
      crc8 (accessHeader (.read fixed a len)) ≠ hcrc →
      ∃ d, exec (.hostRead fixed a len hcrc) s = .next { s with dev := d } ∧ OnlyFrame s d ∧
        d.hsp.crcErrs = s.dev.hsp.crcErrs + 1 ∧ d.hsp.evt = setBit s.dev.hsp.evt 4 ∧
        d.hsp.response = some (responseOf (accessHeader (.read fixed a len)) (wordBytes (List.replicate len.toNat 0)) 0x01)) ∧
    (∀ cmd : BitVec 8, ∃ d, exec (.malformedFrame cmd) s = .next { s with dev := d } ∧ OnlyFrame s d ∧
      d.hsp.badCmds = s.dev.hsp.badCmds + 1 ∧ d.hsp.lastErr = true ∧ d.hsp.response = none) ∧
    (∃ d, exec (.frameCutOff .beforeHcrc) s = .next { s with dev := d } ∧ OnlyFrame s d ∧
      d.hsp.cuts = s.dev.hsp.cuts + 1 ∧ d.hsp.lastErr = true ∧ d.hsp.response = none) ∧
    (∃ d body, exec (.hostStatus (crc8 [0x03])) s = .next { s with dev := d } ∧ OnlyFrame s d ∧ body.length = 4 ∧
      d.hsp.response = some (responseOf [0x03] body 0) ∧ d.hsp.lastErr = false) ∧
    (∀ r, s.dev.hsp.held = some r → ∃ d, exec (.fetch (crc8 [0x04])) s = .next { s with dev := d } ∧ OnlyFrame s d ∧
      d.hsp.response = some r ∧ d.hsp.held = none) ∧
    (s.dev.hsp.held = none → ∃ d, exec (.fetch (crc8 [0x04])) s = .next { s with dev := d } ∧ OnlyFrame s d ∧
      d.hsp.response = some (responseOf [0x04] [] 0))) ∧
  (∀ (fixed : Bool) (s : State), answers s.dev = true → portTaken s.dev = false →
    ∃ d, exec (.hostRead fixed 0x000 1 (crc8 (accessHeader (.read fixed 0x000 1)))) s = .next { s with dev := d } ∧
      d.hsp.response = some (responseOf (accessHeader (.read fixed 0x000 1)) [0x01, 0xB1, 0x51, 0x20] 0) ∧
      d.rails = s.dev.rails ∧ d.lanes = s.dev.lanes ∧ d.sys = s.dev.sys) ∧
  (∀ (fixed : Bool) (w : BitVec 32) (s : State), answers s.dev = true → portTaken s.dev = false →
    mayEarly s.dev (.port .spi) .operate = true →
    ∃ d, exec (.hostWrite fixed 0x005 [w] (crc8 (accessBytes (.write fixed 0x005 [w])))) s = .next { s with dev := d } ∧
      d.sys = { s.dev.sys with cause := w1c s.dev.sys.cause w } ∧
      d.hsp.response = some (responseOf (accessHeader (.write fixed 0x005 [w])) [] 0) ∧ d.rails = s.dev.rails)

/-- The port that an ABORT comes from. -/
def abortPort : AbortWay → Port
  | .frame _ => .spi
  | .write p => p

/-- An ABORT gets to its register: as a frame with a good HCRC (R313), or as a write that its port takes (R322). -/
def AbortComes (way : AbortWay) (func index : BitVec 8) (d : Device) : Prop :=
  match way with
  | .frame hcrc => answers d = true ∧ crc8 [0x05, func, index] = hcrc
  | .write p => PortFree d p

/-- ABORT commands with their FUNC, INDEX and the level that each needs from the port (Table 12-6). -/
def abortOps (way : AbortWay) (sda : Bool) (freedAt : Option (Fin 9)) (r n : Fin 64) (q : Port) :
    List (Instr × BitVec 8 × BitVec 8 × Level) :=
  let p := abortPort way
  [(.abortAutotune way, 0x01, 0, .engineer), (.abortRailApply way r, 0x02, BitVec.ofNat 8 r.val, .engineer),
   (.abortStoreOperation way, 0x03, 0, .engineer), (.abortBogTransfer way, 0x04, 0, .engineer),
   (.abortTwoWire way sda freedAt, 0x05, 0, .engineer), (.abortLaneTraining way n, 0x06, BitVec.ofNat 8 n.val, .engineer),
   (.abortSession way q, 0x07, BitVec.ofNat 8 (portIdx q).val, if q = p then .none else .custodian),
   (.abortPendingAccess way q, 0x08, BitVec.ofNat 8 (portIdx q).val, if q = p then .none else .engineer),
   (.abortGlobal way, 0xFF, 0, .engineer)]

/-- ABORT (ABORT_AUTOTUNE, ABORT_RAIL_APPLY, ABORT_STORE_OPERATION, ABORT_BOG_TRANSFER, ABORT_TWO_WIRE, ABORT_LANE_TRAINING,
ABORT_SESSION, ABORT_PENDING_ACCESS, ABORT_GLOBAL, BAD_FUNC, ABORT_DONE; R313, R322 to R324, Table 12-6): with the level each function
is launched, and HSP.ABORT shows it until ABORT_DONE; without it the ABORT ends with DENIED and stops nothing; a frame with a wrong
HCRC is counted and aborts nothing; an unlisted FUNC ends with BAD_FUNC; and the debug port releases its own pending access. -/
def Obligations.AbortsRun : Prop :=
  (∀ (way : AbortWay) (sda : Bool) (freedAt : Option (Fin 9)) (r n : Fin 64) (q : Port) (s : State),
    bankGet s.dev.hsp.flights (portIdx (abortPort way)) = none → ∀ x ∈ abortOps way sda freedAt r n q,
    AbortComes way x.2.1 x.2.2.1 s.dev →
    (x.2.2.2.rank ≤ srcLevel s.dev (.port (abortPort way)) →
      joined s.dev (abortPort way) (abortFunc x.2.1 x.2.2.1) = none →
      ∃ nv d f, exec x.1 s = .next { s with nv := nv, dev := d } ∧ bankGet d.hsp.flights (portIdx (abortPort way)) = some f ∧
        f.func = x.2.1 ∧ f.index = x.2.2.1 ∧ f.leader = abortPort way ∧ f.start = ticksNow s.tm ∧ d.hsp.abortDone = false ∧
        d.hsp.abortPort = abortPort way ∧ d.hsp.abortFunc = x.2.1 ∧ d.hsp.abortIndex = x.2.2.1 ∧
        d.hsp.abortResult = f.result) ∧
    (srcLevel s.dev (.port (abortPort way)) < x.2.2.2.rank →
      ∃ d, exec x.1 s = .next { s with dev := d } ∧ d.hsp.abortDone = true ∧ d.hsp.abortResult = .denied ∧
        d.hsp.evt = setBit s.dev.hsp.evt 0 ∧ d.hsp.flights = s.dev.hsp.flights ∧ d.tune = s.dev.tune ∧ d.rails = s.dev.rails ∧
        d.lanes = s.dev.lanes ∧ d.ocs = s.dev.ocs ∧ d.bog = s.dev.bog)) ∧
  (∀ (hcrc : BitVec 8) (sda : Bool) (freedAt : Option (Fin 9)) (r n : Fin 64) (q : Port) (s : State), answers s.dev = true →
    ∀ x ∈ abortOps (.frame hcrc) sda freedAt r n q, crc8 [0x05, x.2.1, x.2.2.1] ≠ hcrc →
    ∃ d, exec x.1 s = .next { s with dev := d } ∧ OnlyFrame s d ∧ d.hsp.crcErrs = s.dev.hsp.crcErrs + 1 ∧
      d.hsp.evt = setBit s.dev.hsp.evt 4 ∧ d.hsp.response = some (responseOf [0x05, x.2.1, x.2.2.1] [] 0x01) ∧
      d.hsp.flights = s.dev.hsp.flights) ∧
  (∀ (way : AbortWay) (n : Fin 64) (s : State), AbortComes way 0x06 (BitVec.ofNat 8 n.val) s.dev →
    bankGet s.dev.hsp.flights (portIdx (abortPort way)) = none → 3 ≤ srcLevel s.dev (.port (abortPort way)) →
    joined s.dev (abortPort way) (.training n) = none → (s.dev.lane n).state = .training →
    ∃ d, exec (.abortLaneTraining way n) s = .next { s with dev := d } ∧ (d.lane n).state = .down ∧ (d.lane n).train = none ∧
      d.hsp.abortResult = .aborted) ∧
  (∀ (acc : PendingAccess) (s : State), reaches s.dev (.port .debug) = true → (s.dev.port .debug).pending = some acc →
    acc.todo ≠ [] → bankGet s.dev.hsp.flights (portIdx .debug) = none → joined s.dev .debug (.access .debug) = none →
    ∃ d, exec (.abortPendingAccess (.write .debug) .debug) s = .next { s with dev := d } ∧ (d.port .debug).pending = none ∧
      (d.port .debug).status = 0 ∧ d.hsp.abortResult = .aborted ∧ d.rails = s.dev.rails) ∧
  (∀ (way : AbortWay) (func index : BitVec 8) (s : State), AbortComes way func index s.dev →
    bankGet s.dev.hsp.flights (portIdx (abortPort way)) = none → ¬ ((1 ≤ func.toNat ∧ func.toNat ≤ 8) ∨ func = 0xFF) →
    ∃ d, exec (.badFunc way func index) s = .next { s with dev := d } ∧ d.hsp.abortDone = true ∧ d.hsp.abortResult = .badFunc ∧
      d.hsp.abortFunc = func ∧ d.hsp.abortIndex = index ∧ d.rails = s.dev.rails ∧ d.lanes = s.dev.lanes ∧ d.ocs = s.dev.ocs) ∧
  (∀ (p : Port) (s : State), bankGet s.dev.hsp.flights (portIdx p) = none → exec (.abortDone p) s = .next s) ∧
  (∀ (p : Port) (f : AbortFlight) (s : State), bankGet s.dev.hsp.flights (portIdx p) = some f →
    ∃ hsp er, exec (.abortDone p) s = .next { s with dev := { s.dev with hsp := hsp, er := er } } ∧
      bankGet hsp.flights (portIdx p) = none ∧ hsp.evt = setBit s.dev.hsp.evt 0 ∧
      (s.dev.hsp.abortPort = p → hsp.abortDone = true ∧ hsp.abortResult = f.result ∧
        hsp.abortElapsed = satNat 16 ((ticksNow s.tm - f.start) / 32)))

/-- The two-wire target and the debug port (TWP_TARGET_WRITE, TWP_TARGET_READ, TWP_STRETCH_TIMEOUT, ALERT_RESPONSE, DBG_ACCESS; R331 to
R338, R359): a pointer alone moves the pointer, a wrong PEC or a repeated START discards the page, a page of one word is a write; a
read sends the word most significant byte first; a stretch that is too long sends zero; the Alert Response Address answers with the
own address; and a debug operation needs READY and its authorisation. -/
def Obligations.TargetAnswers : Prop :=
  (∀ (bytes : List (BitVec 8)) (stop : Bool) (s : State), targetListens s.dev = false →
    exec (.twpTargetWrite ⟨bytes, stop⟩) s = .next { s with dev := { s.dev with twp := { s.dev.twp with acked := false } } }) ∧
  (∀ (bytes : List (BitVec 8)) (s : State), targetListens s.dev = true → s.dev.twp.pecT = true → bytes ≠ [] →
    crc8 (byte (2 * s.dev.twp.ownAddr.toNat) :: bytes) ≠ 0 → exec (.twpTargetWrite ⟨bytes, true⟩) s = .next { s with dev := { s.dev with
      twp := { s.dev.twp with
        busBusy := true, acked := true, pecErrs := s.dev.twp.pecErrs + 1, pageDiscards := s.dev.twp.pageDiscards + 1
        intStatus := setBit s.dev.twp.intStatus 5 } } }) ∧
  (∀ (hi lo : BitVec 8) (s : State), targetListens s.dev = true → s.dev.twp.pecT = false →
    exec (.twpTargetWrite ⟨[hi, lo], true⟩) s = .next { s with dev := { s.dev with twp := { s.dev.twp with
      busBusy := true, acked := true, pointer := BitVec.ofNat 16 (hi.toNat * 256 + lo.toNat) } } }) ∧
  (∀ (hi lo : BitVec 8) (data : List (BitVec 8)) (s : State), targetListens s.dev = true →
    ∃ twp, exec (.twpTargetWrite ⟨hi :: lo :: data, false⟩) s = .next { s with dev := { s.dev with twp := twp } } ∧
      twp.pointer = BitVec.ofNat 16 (hi.toNat * 256 + lo.toNat) ∧
      (data = [] → twp.pageDiscards = s.dev.twp.pageDiscards) ∧ (data ≠ [] → twp.pageDiscards = s.dev.twp.pageDiscards + 1)) ∧
  (∀ (b3 b2 b1 b0 : BitVec 8) (s : State), targetListens s.dev = true → s.dev.twp.pecT = false →
    mayEarly s.dev (.port .twoWire) .operate = true →
    ∃ d, exec (.twpTargetWrite ⟨[0x00, 0x05, b3, b2, b1, b0], true⟩) s = .next { s with dev := d } ∧
      d.sys = { s.dev.sys with cause := w1c s.dev.sys.cause (word (beNat [b3, b2, b1, b0])) } ∧ d.twp.pointer = 6 ∧
      d.twp.lastStatus = 0 ∧ d.rails = s.dev.rails) ∧
  (∀ s : State, targetListens s.dev = true → ∃ d, exec (.twpTargetRead (some ⟨0, []⟩) 1) s = .next { s with dev := d } ∧
    d.twp.acked = true ∧ d.twp.pointer = 1 ∧ d.twp.sent = [0x01, 0xB1, 0x51, 0x20] ++
      (if s.dev.twp.pecT then [crc8 (readHeader s.dev.twp.ownAddr (some 0) [] ++ [0x01, 0xB1, 0x51, 0x20])] else []) ∧
    d.rails = s.dev.rails ∧ d.sys = s.dev.sys) ∧
  (∀ (acc : PendingAccess) (a : Addr) (w : Option (BitVec 32)) (rest : List (Addr × Option (BitVec 32))) (s : State),
    (s.dev.port .twoWire).pending = some acc → acc.todo = (a, w) :: rest → acc.write = false → acc.cut = false →
    s.dev.twp.stretchMax ≠ 0 → ∃ d, exec .twpStretchTimeout s = .next { s with dev := d } ∧
      (d.port .twoWire).pending = some { acc with cut := true, todo := [(a, w)] } ∧ d.twp.pointer = a + 1 ∧
      d.twp.sent = targetBytes s.dev.twp.pecT acc.header (acc.got ++ [0]) ∧ d.rails = s.dev.rails) ∧
  (∀ (won : Bool) (s : State), answers s.dev = true → s.dev.twp.en = true → s.dev.twp.araEn = true → s.dev.twp.ownAddr ≠ 0x0C →
    alertLow (settleAlert s.dev) = true → ∃ d, exec (.alertResponse won) s = .next { s with dev := d } ∧ d.twp.acked = true ∧
      d.twp.sent = [byte (2 * s.dev.twp.ownAddr.toNat)] ∧ d.twp.alertAcked = (won || (settleAlert s.dev).twp.alertAcked) ∧
      d.rails = s.dev.rails) ∧
  (∀ (op : DbgOp) (s : State), reaches s.dev (.port .debug) = false → exec (.dbgAccess op) s = .next s) ∧
  (∀ s : State, reaches s.dev (.port .debug) = true → s.dev.sys.step ≠ .ready →
    ∃ d, exec (.dbgAccess .halt) s = .next { s with dev := d } ∧ d.fw = s.dev.fw ∧ (d.port .debug).status = 0x08) ∧
  (∀ s : State, reaches s.dev (.port .debug) = true → s.dev.sys.step = .ready →
    (s.dev.sg.auth = .full → ∃ d, exec (.dbgAccess .halt) s = .next { s with dev := d } ∧ d.fw = { s.dev.fw with supHalted := true } ∧
      (d.port .debug).status = 0 ∧ d.rails = s.dev.rails) ∧
    (s.dev.sg.auth = .full → ∃ d, exec (.dbgAccess .resume) s = .next { s with dev := d } ∧
      d.fw = { s.dev.fw with supHalted := false } ∧ (d.port .debug).status = 0 ∧ d.rails = s.dev.rails) ∧
    (s.dev.sg.auth ≠ .full → ∃ d, exec (.dbgAccess .halt) s = .next { s with dev := d } ∧ d.fw = s.dev.fw ∧
      (d.port .debug).status = 0x04 ∧ d.rails = s.dev.rails)) ∧
  (∀ s : State, PortFree s.dev .debug → ∃ d, exec (.dbgAccess (.regRead 0x000)) s = .next { s with dev := d } ∧
    OnlyPort .debug s d ∧ (d.port .debug).data = 0x01B15120 ∧ (d.port .debug).status = 0)


/-! ### The two-wire port as controller and its bus (13_two_wire_port.md) -/

/-- The two-wire port's own work (TWP_TIMING_WRITE, TWP_BUS_ERROR, TWP_CLOCK_LOW_TIMEOUT, PERIPH_POLL_DUE, PERIPH_POLL, RECOVER,
RECOVERY_RETRY_TIMER, POLL_NOW, TWP_BUS_FREE; R329, R332, R336 to R343): the timing fields stay in the range of the mode in force; bus
errors and a clock held low are counted and discard the page of a write; a poll falls due at the multiples of its period, starts on a
free bus, delivers its value or fails; an entry still due at its next period is late; and a recovery of a held SDA is asked for, runs
for its pulses, and frees the bus or is tried again 100 ms later (how long it runs is assumption 113). -/
def Obligations.TwoWirePortWorks : Prop :=
  (∀ (src : Src) (second : Bool) (data : BitVec 32) (s : State), may s.dev src .engineer = true → Reaches src .running s →
    exec (.twpTimingWrite src second data) s =
      .next (Wrote src (if second then 0xA003 else 0xA002) 0 (fun d => { d with twp := writeTiming second data d.twp }) s)) ∧
  (∀ (second : Bool) (data : BitVec 32) (t : TwoWire),
    (timingRange (writeTiming second data t).speed.toNat).1.1 ≤ (writeTiming second data t).tlow.toNat ∧
    (writeTiming second data t).tlow.toNat ≤ (timingRange (writeTiming second data t).speed.toNat).1.2 ∧
    (timingRange (writeTiming second data t).speed.toNat).2.1.1 ≤ (writeTiming second data t).thigh.toNat ∧
    (writeTiming second data t).thigh.toNat ≤ (timingRange (writeTiming second data t).speed.toNat).2.1.2 ∧
    (timingRange (writeTiming second data t).speed.toNat).2.2.1.1 ≤ (writeTiming second data t).tsudat.toNat ∧
    (writeTiming second data t).tsudat.toNat ≤ (timingRange (writeTiming second data t).speed.toNat).2.2.1.2 ∧
    (timingRange (writeTiming second data t).speed.toNat).2.2.2.1 ≤ (writeTiming second data t).thddat.toNat ∧
    (writeTiming second data t).thddat.toNat ≤ (timingRange (writeTiming second data t).speed.toNat).2.2.2.2 ∧
    writeTiming second data t = { t with
      tlow := (writeTiming second data t).tlow, thigh := (writeTiming second data t).thigh
      tsudat := (writeTiming second data t).tsudat, thddat := (writeTiming second data t).thddat
      speed := (writeTiming second data t).speed } ∧
    (second = false → (writeTiming second data t).speed = t.speed)) ∧
  (∀ s : State, s.dev.twp.en = true →
    exec (.twpBusError (.target true)) s = .next { s with dev := { s.dev with twp := { s.dev.twp with
      busErrs := s.dev.twp.busErrs + 1, busBusy := true, pageDiscards := s.dev.twp.pageDiscards + 1
      intStatus := setBit (setBit s.dev.twp.intStatus 2) 5 } } } ∧
    exec (.twpBusError (.target false)) s = .next { s with dev := { s.dev with twp := { s.dev.twp with
      busErrs := s.dev.twp.busErrs + 1, busBusy := true, intStatus := setBit s.dev.twp.intStatus 2 } } } ∧
    (s.dev.twp.polling = none → exec (.twpBusError .controller) s = .next s)) ∧
  (∀ s : State, s.dev.twp.en = true → s.dev.twp.smbTo = true →
    (∃ er draws, exec (.twpClockLowTimeout (.target true)) s = .next { s with dev := { s.dev with
      er := er, draws := draws, twp := { s.dev.twp with
        timeouts := s.dev.twp.timeouts + 1, busBusy := true, sclStuck := true, recovery := none
        pageDiscards := s.dev.twp.pageDiscards + 1, intStatus := setBit (setBit s.dev.twp.intStatus 6) 5 } } }) ∧
    (∃ er draws, exec (.twpClockLowTimeout (.target false)) s = .next { s with dev := { s.dev with
      er := er, draws := draws, twp := { s.dev.twp with
        timeouts := s.dev.twp.timeouts + 1, busBusy := true, sclStuck := true, recovery := none
        intStatus := setBit s.dev.twp.intStatus 6 } } })) ∧
  (∀ s : State, s.dev.twp.smbTo = false → ∀ role, exec (.twpClockLowTimeout role) s = .next s) ∧
  (∀ (e : Fin 32) (s : State), fallsDue s.tm e s.dev = false → exec (.periphPollDue e) s = .next s) ∧
  (∀ (e : Fin 32) (s : State), controllerOn s.dev = true → fallsDue s.tm e s.dev = true →
    (bankGet s.dev.twp.per e).due = false → s.dev.twp.busBusy = true →
    exec (.periphPollDue e) s = .next { s with dev := s.dev.onPer e fun x => { x with dueAt := some s.tm.us.toNat, due := true } }) ∧
  (∀ (e : Fin 32) (s : State), controllerOn s.dev = true → fallsDue s.tm e s.dev = true →
    (∀ k, (bankGet s.dev.twp.per k).due = false) → s.dev.twp.busBusy = false → s.dev.twp.recovery = none →
    s.dev.twp.polling = none → ∃ d, exec (.periphPollDue e) s = .next { s with dev := d } ∧ d.twp.polling = some e ∧
      d.twp.busBusy = true ∧ (bankGet d.twp.per e).due = false ∧ d.hkt = s.dev.hkt ∧ d.er = s.dev.er) ∧
  (∀ (e : Fin 32) (s : State), controllerOn s.dev = true → fallsDue s.tm e s.dev = true →
    (bankGet s.dev.twp.per e).due = true → ∃ d, exec (.periphPollDue e) s = .next { s with dev := d } ∧
      (bankGet d.twp.per e).result = .busyLate ∧ (bankGet d.twp.per e).fails = satInc (bankGet s.dev.twp.per e).fails ∧
      d.twp.intStatus = setBit s.dev.twp.intStatus 0 ∧ ∀ k, k ≠ e → bankGet d.twp.per k = bankGet s.dev.twp.per k) ∧
  (∀ (e : Fin 32) (p : PeriphEntry) (bytes : List (BitVec 8)) (s : State), s.dev.twp.polling = some e → pollEntry s.dev e = some p →
    bytes.length = p.len + bit p.pec → (p.pec = true → crc8 (pollHeader p ++ bytes) = 0) →
    ∃ d, exec (.periphPoll e (.data bytes)) s = .next { s with dev := d } ∧ d.twp.polling = none ∧
      (bankGet d.twp.per e).result = .ok ∧ (bankGet d.twp.per e).value = bytes.take p.len ∧ (bankGet d.twp.per e).fails = 0 ∧
      (bankGet d.twp.per e).okAt = some (ticksNow s.tm) ∧ ∀ k, k ≠ e → bankGet d.twp.per k = bankGet s.dev.twp.per k) ∧
  (∀ (e : Fin 32) (p : PeriphEntry) (s : State), s.dev.twp.polling = some e → pollEntry s.dev e = some p →
    ∃ d, exec (.periphPoll e .nackAddr) s = .next { s with dev := d } ∧ d.twp.polling = none ∧
      (bankGet d.twp.per e).result = .nackAddr ∧ (bankGet d.twp.per e).value = (bankGet s.dev.twp.per e).value ∧
      d.twp.intStatus = setBit s.dev.twp.intStatus 0) ∧
  (∀ (src : Src) (freedAt : Option (Fin 9)) (s : State), may s.dev src .engineer = true → Reaches src .running s →
    s.dev.twp.polling = none → s.dev.twp.en = true → s.dev.twp.sclStuck = false → s.dev.twp.recovery = none →
    exec (.recover src freedAt) s = .next (Wrote src 0xA005 0 (fun d => { d with twp := { d.twp with
      busBusy := true, retryFrom := none
      recovery := some ⟨freedAt, none, ticksNow s.tm + recoveryTicks d.twp freedAt⟩ } }) s)) ∧
  (∀ (src : Src) (freedAt : Option (Fin 9)) (s : State), may s.dev src .engineer = true → Reaches src .running s →
    s.dev.twp.polling ≠ none →
    exec (.recover src freedAt) s =
      .next (Wrote src 0xA005 0 (fun d => { d with twp := { d.twp with recoverAsked := some freedAt } }) s)) ∧
  (∀ (tm : TimeBase) (n : Fin 9) (e : Option (Fin 32)) (t : Nat) (d : Device), d.twp.recovery = some ⟨some n, e, t⟩ →
    t ≤ ticksNow tm → tickRecovery tm d = { d with twp := { d.twp with
      recovery := none, recoveries := d.twp.recoveries + 1, sdaStuck := false, intStatus := setBit d.twp.intStatus 3 } }) ∧
  (∀ (tm : TimeBase) (e : Option (Fin 32)) (t : Nat) (d : Device), d.twp.recovery = some ⟨none, e, t⟩ → t ≤ ticksNow tm →
    (tickRecovery tm d).twp.recovery = none ∧ (tickRecovery tm d).twp.sdaStuck = true ∧
    (tickRecovery tm d).twp.recoverFails = d.twp.recoverFails + 1 ∧ (tickRecovery tm d).twp.retryFrom = some tm.us.toNat ∧
    (∀ i, e = some i → (bankGet d.twp.per i).due = true → (bankGet (tickRecovery tm d).twp.per i).result = .stuck)) ∧
  (∀ (freedAt : Option (Fin 9)) (t : Nat) (s : State), s.dev.twp.retryFrom = some t →
    (s.tm.us.toNat < t + 100000 → exec (.recoveryRetryTimer freedAt) s = .next s) ∧
    (t + 100000 ≤ s.tm.us.toNat → s.dev.twp.en = true → s.dev.twp.sclStuck = false → s.dev.twp.recovery = none →
      exec (.recoveryRetryTimer freedAt) s = .next { s with dev := { s.dev with twp := { s.dev.twp with
        busBusy := true, retryFrom := none
        recovery := some ⟨freedAt, none, ticksNow s.tm + recoveryTicks s.dev.twp freedAt⟩ } } })) ∧
  (∀ (src : Src) (e : Fin 32) (s : State), may s.dev src .engineer = true → Reaches src .running s → controllerOn s.dev = true →
    (pollEntry s.dev e).isSome = true → s.dev.twp.busBusy = true →
    exec (.pollNow src e) s =
      .next (Wrote src 0xA005 0 (fun d => d.onPer e fun x => { x with due := true }) s)) ∧
  (∀ s : State, s.dev.twp.polling = none → controllerOn s.dev = false → exec .twpBusFree s = .next { s with dev := { s.dev with
    twp := { s.dev.twp with busBusy := false, sclStuck := false } } })


/-! ### Sessions, keys, life cycle and debug (14_security_lifecycle.md) -/

/-- The session of a port as its close leaves it (R353). -/
def SessionClosed (x : Session) : Session :=
  { x with state := .closed, level := 0, ctr := 0, chal := [], resp := bankFill 8 0, dproof := [], opening := none }

/-- A write of one word with status `st` that changes the guard alone. -/
def GuardWrote (src : Src) (a : Addr) (st : BitVec 8) (f : Guard → Guard) (s : State) : State :=
  Wrote src a st (fun d => { d with sg := f d.sg }) s

/-- Sessions (OPEN, PROVE, CLOSE, SESSION_IDLE_TIMEOUT, LOCKOUT_END; R350, R352 to R355): OPEN closes the session, and ends with LOCKED
or shows a challenge with the next CTR; PROVE needs a challenge, opens the session on the right proof, and counts a wrong one before
it reports it; CLOSE, the idle time and the end of a lockout. While a failure is being counted, or could not be, a PROVE ends with
BUSY. -/
def Obligations.SessionsWork : Prop :=
  (∀ (p : Port) (level : BitVec 2) (s : State), Reaches (.port p) .early s →
    (failureRuns p s.dev = true → exec (.openSession p level) s =
      .next (GuardWrote (.port p) (wordAt 0x200 32 (portIdx p).val) 0 (fun g => { g with
        ports := bankUpd g.ports (portIdx p) fun x => { x with result := GuardResult.busy.code } }) s)) ∧
    (failureRuns p s.dev = false → portLocked s.tm (s.dev.session p) = true → exec (.openSession p level) s =
      .next (GuardWrote (.port p) (wordAt 0x200 32 (portIdx p).val) 0 (fun g => { g with
        ports := bankUpd g.ports (portIdx p) fun x => { SessionClosed x with result := GuardResult.locked.code } }) s)) ∧
    (failureRuns p s.dev = false → portLocked s.tm (s.dev.session p) = false → s.dev.sg.ctrNext ≠ 0 →
      ∃ d, exec (.openSession p level) s = .next { s with dev := d } ∧ (d.session p).state = .challenged ∧
        (d.session p).level = level ∧ (d.session p).ctr = s.dev.sg.ctrNext ∧ (d.session p).chal.length = 32 ∧
        (d.session p).result = 0 ∧ (d.sg.ctrNext = 0 ∨ d.sg.ctrNext = s.dev.sg.ctrNext + 1) ∧ d.draws = s.dev.draws + 1 ∧
        (∀ q, q ≠ p → d.session q = s.dev.session q) ∧ d.sg.lc = s.dev.sg.lc ∧ d.rails = s.dev.rails ∧ d.ocs = s.dev.ocs)) ∧
  (∀ (p : Port) (s : State), Reaches (.port p) .early s →
    (failureRuns p s.dev = true ∨ canCount s.dev = false → exec (.prove p) s =
      .next (GuardWrote (.port p) (wordAt 0x200 32 (portIdx p).val) 0 (fun g => { g with
        ports := bankUpd g.ports (portIdx p) fun x => { x with result := GuardResult.busy.code } }) s)) ∧
    (failureRuns p s.dev = false → canCount s.dev = true → (s.dev.session p).state ≠ .challenged → exec (.prove p) s =
      .next (GuardWrote (.port p) (wordAt 0x200 32 (portIdx p).val) 0 (fun g => { g with
        ports := bankUpd g.ports (portIdx p) fun x => { x with result := GuardResult.state.code } }) s)) ∧
    (∀ key, failureRuns p s.dev = false → (s.dev.session p).state = .challenged → canCount s.dev = true →
      s.dev.sg.lc ≠ .blank → s.dev.sg.lc ≠ .returned →
      keyOf s.dev (Fin.ofNat 5 (s.dev.session p).level.toNat) = some key →
      (hmac key (proofMessage s.dev (tagEH 0x53) (portIdx p).val (s.dev.session p).level.toNat (s.dev.session p).chal
          (s.dev.session p).ctr) = respBytes (s.dev.session p) →
        ∃ d, exec (.prove p) s = .next { s with dev := d } ∧ (d.session p).state = .opened ∧
          (d.session p).level = (s.dev.session p).level ∧ (d.session p).result = 0 ∧ (d.session p).fails = 0 ∧
          (d.session p).lockouts = 0 ∧ (d.session p).dproof = hmac key (tagEH 0x44 ++ respBytes (s.dev.session p)) ∧
          ∀ q, q ≠ p → d.session q = s.dev.session q) ∧
      (hmac key (proofMessage s.dev (tagEH 0x53) (portIdx p).val (s.dev.session p).level.toNat (s.dev.session p).chal
          (s.dev.session p).ctr) ≠ respBytes (s.dev.session p) → (s.dev.session p).fails.toNat < 4 →
        ∃ d, exec (.prove p) s = .next { s with dev := d } ∧ (d.session p).state = .challenged ∧ (d.session p).failPending = true ∧
          (d.session p).fails.toNat = (s.dev.session p).fails.toNat + 1 ∧ (d.session p).result = (s.dev.session p).result ∧
          ∃ j ∈ d.ocs.current.toList ++ d.ocs.jobs, j.tag = .port p))) ∧
  (∀ (p : Port) (s : State), Reaches (.port p) .early s → exec (.close p) s =
    .next (GuardWrote (.port p) (wordAt 0x200 32 (portIdx p).val) 0 (fun g => { g with
      ports := bankUpd g.ports (portIdx p) fun x => { SessionClosed x with result := 0 } }) s)) ∧
  (∀ (p : Port) (s : State), (s.dev.session p).state = .opened →
    ((s.dev.session p).lastUse + idleSeconds (s.dev.session p) * 1000000 ≤ s.tm.us.toNat →
      ∃ er, exec (.sessionIdleTimeout p) s = .next { s with dev := { s.dev with er := er, sg := { s.dev.sg with
        ports := bankUpd s.dev.sg.ports (portIdx p) SessionClosed } } }) ∧
    (s.tm.us.toNat < (s.dev.session p).lastUse + idleSeconds (s.dev.session p) * 1000000 →
      exec (.sessionIdleTimeout p) s = .next s)) ∧
  (∀ (p : Port) (t : Nat) (s : State), (s.dev.session p).lockedUntil = some t →
    (s.tm.us.toNat < t → exec (.lockoutEnd p) s = .next s) ∧
    (t ≤ s.tm.us.toNat → ∃ ocs, exec (.lockoutEnd p) s = .next { s with dev := { s.dev with ocs := ocs, sg := { s.dev.sg with
      ports := bankUpd s.dev.sg.ports (portIdx p) fun x => { x with lockedUntil := none } } } }))

/-- The life-cycle commands with the state that each asks for. -/
def lifeOps (src : Src) : List (Instr × LifeCycle) :=
  [(.lcCommission src, .commission), (.lcService src, .service), (.lcMaintain src, .maintain), (.lcRetired src, .retired),
   (.lcReturn src, .returned)]

/-- The key command and the life-cycle commands (KEY_CMD, LC_COMMISSION, LC_SERVICE, LC_MAINTAIN, LC_RETIRED, LC_RETURN,
LC_WIPES_COMPLETE; R350, R351, R356, R357): without the level they end with DENIED, before the keys are loaded with BUSY, a change that
Table 14-3 does not list with LIFECYCLE; one that may go on is BUSY until its LIFECYCLE record commits, in the old state; and PENDING
clears once the wipes are done. -/
def Obligations.LifeCycleChanges : Prop :=
  (∀ (src : Src) (s : State), Reaches src .early s → ∀ x ∈ lifeOps src,
    (srcLevel s.dev src < (lifeLevel s.dev.sg.lc x.2).rank →
      exec x.1 s = .next (GuardWrote src 0x263 0x04 (fun g => { g with lcResult := GuardResult.denied.code }) s)) ∧
    ((lifeLevel s.dev.sg.lc x.2).rank ≤ srcLevel s.dev src → s.dev.sg.busy = true ∨ s.dev.sg.keysLoaded = false →
      exec x.1 s = .next (GuardWrote src 0x263 0 (fun g => { g with lcResult := GuardResult.busy.code }) s)) ∧
    ((lifeLevel s.dev.sg.lc x.2).rank ≤ srcLevel s.dev src → s.dev.sg.busy = false → s.dev.sg.keysLoaded = true →
      s.dev.pwr.mode ≠ .standby → s.dev.hkt.storeWin = true → s.dev.hkt.tsd = false → regionWritable s.dev.ocs 5 = true →
      (lifeRow s.dev.sg.lc x.2 = false →
        exec x.1 s = .next (GuardWrote src 0x263 0 (fun g => { g with lcResult := GuardResult.lifecycle.code }) s)) ∧
      (lifeRow s.dev.sg.lc x.2 = true → lifeBar s.nv x.2 s.dev = none → s.dev.img.trialOpen = false →
        ∃ ocs, exec x.1 s = .next (Wrote src 0x263 0 (fun d => { d with sg := { d.sg with busy := true }, ocs := ocs }) s) ∧
          ∃ j ∈ ocs.current.toList ++ ocs.jobs, ∃ mask, j.tag = .lifecycle x.2 mask))) ∧
  (∀ s : State, s.dev.sg.lcPending = true → wipesRun s.dev = false → s.dev.ocs.recovering = false →
    ∃ ocs, exec .lcWipesComplete s = .next { s with dev := { s.dev with ocs := ocs, sg := { s.dev.sg with
      lcPending := false, busy := false, intStatus := setBit s.dev.sg.intStatus 3 } } }) ∧
  (∀ (src : Src) (target : BitVec 3) (s : State), Reaches src .early s → (src = .sup ∨ srcLevel s.dev src < 4) →
    exec (.keyCmd src target) s =
      .next (GuardWrote src 0x264 0x04 (fun g => { g with lcResult := GuardResult.denied.code }) s)) ∧
  (∀ (p : Port) (target : BitVec 3) (s : State), Reaches (.port p) .early s → srcLevel s.dev (.port p) = 4 →
    (5 ≤ target.toNat → exec (.keyCmd (.port p) target) s =
      .next (GuardWrote (.port p) 0x264 0 (fun g => { g with lcResult := GuardResult.badOp.code }) s)) ∧
    (∀ t : Fin 5, target.toNat = t.val → s.dev.sg.keysLoaded = false → exec (.keyCmd (.port p) target) s =
      .next (GuardWrote (.port p) 0x264 0 (fun g => { g with lcResult := GuardResult.busy.code }) s)) ∧
    (∀ t : Fin 5, target.toNat = t.val → s.dev.sg.busy = false → s.dev.sg.keysLoaded = true → regionWritable s.dev.ocs 4 = true →
      let key := List.zipWith (fun a b : BitVec 8 => a ^^^ b) (keydataBytes s.dev)
        (wrapPad s.dev t.val (keyGen s.dev t + 1) (s.dev.session p).chal)
      (beNat ((hmac key (tagEH 0x4B)).take 4) ≠ s.dev.sg.kcv.toNat → exec (.keyCmd (.port p) target) s =
        .next (GuardWrote (.port p) 0x264 0 (fun g => { g with
          lcResult := GuardResult.kcv.code, intStatus := setBit g.intStatus 4 }) s)) ∧
      (beNat ((hmac key (tagEH 0x4B)).take 4) = s.dev.sg.kcv.toNat →
        ∃ ocs, exec (.keyCmd (.port p) target) s =
            .next (Wrote (.port p) 0x264 0 (fun d => { d with sg := { d.sg with busy := true }, ocs := ocs }) s) ∧
          ∃ j ∈ ocs.current.toList ++ ocs.jobs, j.tag = .key t (keyGen s.dev t + 1) key)))

/-- Debug (TAP_RESET, DBG_CHAL, DBG_TOKEN, DRIVE_INSTRUCTION; R359, R360): TAP_RESET ends the authorisation; a challenge takes the next CTR; a token with a SCOPE that does not exist, or
of FULL in SERVICE or RETIRED, gives nothing; a blank part gives what is asked for, another on the right MAC, a wrong one is counted
before it is reported, and before the keys are loaded a token ends with BUSY; a drive instruction needs FULL and quiet rails. -/
def Obligations.DebugAuthorises : Prop :=
  (∀ s : State, exec .tapReset s = .next { s with dev := { s.dev with sg := { s.dev.sg with
    tapIr := 0x01, bscan := false, auth := .none, dbgNonce := [], dbgCtr := 0, dbgOpening := false } } }) ∧
  (∀ s : State, answers s.dev = true → portLocked s.tm (s.dev.session .debug) = false → s.dev.sg.ctrNext ≠ 0 →
    ∃ d, exec .dbgChal s = .next { s with dev := d } ∧ d.sg.dbgNonce.length = 32 ∧ d.sg.dbgCtr = s.dev.sg.ctrNext ∧
      d.sg.tapIr = 0x20 ∧ d.sg.bscan = false ∧ d.sg.auth = s.dev.sg.auth ∧ d.sg.ports = s.dev.sg.ports ∧ d.rails = s.dev.rails) ∧
  (∀ (scope : BitVec 2) (token : BitVec 256) (s : State), answers s.dev = true →
    s.dev.sg.keysLoaded = false ∨ failureRuns .debug s.dev = true →
    ∃ er, exec (.dbgToken scope token) s = .next { s with dev := { s.dev with er := er, sg := { s.dev.sg with
      tapIr := 0x21, bscan := false, intStatus := setBit s.dev.sg.intStatus 5 } } }) ∧
  (∀ (scope : BitVec 2) (token : BitVec 256) (key : List (BitVec 8)) (s : State), answers s.dev = true →
    failureRuns .debug s.dev = false → scope = 1 ∨ scope = 2 → s.dev.sg.lc = .commission →
    portLocked s.tm (s.dev.session .debug) = false → canCount s.dev = true → s.dev.sg.dbgNonce ≠ [] →
    keyOf s.dev 4 = some key → hmac key (proofMessage s.dev (tagEH 0x54) 2 scope.toNat s.dev.sg.dbgNonce
      s.dev.sg.dbgCtr) ≠ beBytes 32 token.toNat → (s.dev.session .debug).fails.toNat < 4 →
    ∃ d, exec (.dbgToken scope token) s = .next { s with dev := d } ∧ d.sg.dbgFailing = some scope ∧ d.sg.dbgNonce = [] ∧
      d.sg.auth = s.dev.sg.auth ∧ (d.session .debug).fails.toNat = (s.dev.session .debug).fails.toNat + 1 ∧
      ∃ j ∈ d.ocs.current.toList ++ d.ocs.jobs, j.tag = .port .debug) ∧
  (∀ (scope : BitVec 2) (token : BitVec 256) (s : State), answers s.dev = true → s.dev.sg.keysLoaded = true →
    failureRuns .debug s.dev = false →
    (scope = 0 ∨ scope = 3 ∨ (scope = 2 ∧ (s.dev.sg.lc = .service ∨ s.dev.sg.lc = .retired)) →
      ∃ er, exec (.dbgToken scope token) s = .next { s with dev := { s.dev with er := er, sg := { s.dev.sg with
        tapIr := 0x21, bscan := false, dbgNonce := [], dbgCtr := 0, intStatus := setBit s.dev.sg.intStatus 5 } } }) ∧
    (scope = 1 ∨ scope = 2 → s.dev.sg.lc = .blank ∨ (s.dev.sg.lc = .commission ∧
        portLocked s.tm (s.dev.session .debug) = false ∧ canCount s.dev = true ∧ s.dev.sg.dbgNonce ≠ [] ∧
        ∃ key, keyOf s.dev 4 = some key ∧ hmac key (proofMessage s.dev (tagEH 0x54) 2 scope.toNat s.dev.sg.dbgNonce
          s.dev.sg.dbgCtr) = beBytes 32 token.toNat) →
      ∃ er, exec (.dbgToken scope token) s = .next { s with dev := { s.dev with er := er, sg := { s.dev.sg with
        tapIr := 0x21, bscan := false, dbgNonce := [], dbgCtr := 0, intStatus := setBit s.dev.sg.intStatus 5
        auth := if scope = 2 then .full else .read } } })) ∧
  (∀ (k : DriveKind) (s : State),
    (s.dev.sg.auth = .full → (∀ r, railQuiet s.dev r = true) → s.dev.pwr.mode ≠ .standby →
      exec (.driveInstruction k) s = .next { s with dev := { s.dev with sg := { s.dev.sg with
        tapIr := BitVec.ofNat 6 (driveOpcode k), bscan := true } } }) ∧
    (s.dev.sg.auth ≠ .full → exec (.driveInstruction k) s = .next s))


/-! ### Power states and firmware (14_security_lifecycle.md) -/

/-- The power commands with the level that each needs (Table 14-1). -/
def powerOps (src : Src) (q : Fin 4) : List (Instr × Level) :=
  [(.pwrRun src, .operate), (.pwrTrim src, .operate), (.pwrStandby src, .engineer), (.qopSmoulder src q, .engineer),
   (.qopQrun src q, .engineer)]

/-- The clock tree and TIME as waking at a microsecond boundary leaves them (R139, R364): every clock runs, and TIME is 800 times the
device microsecond. -/
def Awake (s t : State) : Prop :=
  t.dev.pwr.mode = .run ∧ t.dev.clk.lclkOn = true ∧ t.dev.clk.eclkOn = true ∧ t.dev.clk.sclkOn = true ∧ t.tm.lclk = true ∧
    t.tm.us = s.tm.us ∧ t.tm.phase = s.tm.phase ∧ t.tm.time = BitVec.ofNat 64 (800 * s.tm.us.toNat)

/-- A write of PWR.CMD with status `st` that ends with a result and changes nothing else. -/
def PowerWrote (src : Src) (st : BitVec 8) (r : PowerResult) (s : State) : State :=
  Wrote src 0x120 st (fun d => { d with pwr := { d.pwr with result := r.code } }) s

/-- Power states (PWR_RUN, PWR_TRIM, PWR_STANDBY, QOP_SMOULDER, QOP_QRUN, SMOULDER_TIMEOUT, WAKE; R361, R363, R364, Tables 14-5 and
14-6): each command needs its level; TRIM needs the engine's load; STANDBY is refused with the first condition that fails, and stops
the clocks; RUN and a wake that is enabled start them, at the microsecond boundary, with TIME reloaded; a quadrant enters and leaves
SMOULDER. -/
def Obligations.PowerStates : Prop :=
  (∀ (src : Src) (q : Fin 4) (s : State), Reaches src .early s → ∀ x ∈ powerOps src q, srcLevel s.dev src < x.2.rank →
    exec x.1 s = .next (PowerWrote src 0x04 .denied s)) ∧
  (∀ (src : Src) (s : State), mayEarly s.dev src .operate = true → Reaches src .early s →
    (s.dev.pwr.mode = .run → exec (.pwrRun src) s = .next (PowerWrote src 0 .ok s)) ∧
    (s.dev.pwr.mode = .trim → ∃ d, exec (.pwrRun src) s = .next { s with dev := d } ∧ d.pwr.mode = .run ∧ d.clk = s.dev.clk ∧
      d.pwr.result = 0 ∧ ∀ n, (d.lane n).asleep = false) ∧
    (s.dev.pwr.mode = .standby → s.dev.pwr.waking = none → s.tm.phase = 0 →
      ∃ t, exec (.pwrRun src) s = .next t ∧ Awake s t ∧ t.pending = s.pending ∧ t.nv = s.nv ∧ t.dev.pwr.cause = 1 ∧
        t.dev.pwr.result = 0) ∧
    (s.dev.pwr.mode = .standby → s.dev.pwr.waking = none → s.tm.phase ≠ 0 → exec (.pwrRun src) s =
      .next (Wrote src 0x120 0 (fun d => { d with pwr := { d.pwr with waking := some 1, result := 0 } }) s)) ∧
    (s.dev.pwr.mode = .run → s.dev.img.loadRun.toNat ≤ 4500 → ∃ er, exec (.pwrTrim src) s =
      .next (Wrote src 0x120 0 (fun d => { d with pwr := { d.pwr with mode := .trim, result := 0 }, er := er }) s)) ∧
    (s.dev.pwr.mode = .run → 4500 < s.dev.img.loadRun.toNat → exec (.pwrTrim src) s = .next (PowerWrote src 0 .load s))) ∧
  (∀ (src : Src) (s : State), mayEarly s.dev src .engineer = true → Reaches src .early s → s.dev.pwr.mode ≠ .standby →
    (∀ res, standbyBar s.dev = some res → exec (.pwrStandby src) s = .next (PowerWrote src 0 res s)) ∧
    (standbyBar s.dev = none → ∃ d, exec (.pwrStandby src) s = .next { s with tm := { s.tm with lclk := false }, dev := d } ∧
      d.pwr.mode = .standby ∧ d.pwr.result = 0 ∧ d.clk.lclkOn = false ∧ d.clk.eclkOn = false ∧ d.clk.sclkOn = false ∧
      d.rails = s.dev.rails ∧ d.hs = s.dev.hs ∧ ∀ n, (d.lane n).queue = [])) ∧
  (∀ (src : Src) (q : Fin 4) (s : State), mayEarly s.dev src .engineer = true → Reaches src .early s →
    (bankGet s.dev.pwr.smoulder q = false → ∃ d, exec (.qopSmoulder src q) s = .next { s with dev := d } ∧
      bankGet d.pwr.smoulder q = true ∧ d.pwr.result = 0 ∧ ∀ k, k ≠ q → bankGet d.pwr.smoulder k = bankGet s.dev.pwr.smoulder k) ∧
    (bankGet s.dev.pwr.smoulder q = true → exec (.qopSmoulder src q) s = .next (PowerWrote src 0 .ok s)) ∧
    (s.dev.pwr.mode ≠ .standby → bankGet s.dev.pwr.smoulder q = true →
      ∃ d, exec (.qopQrun src q) s = .next { s with dev := d } ∧
      bankGet d.pwr.smoulder q = false ∧ bankGet d.pwr.entering q = none ∧ d.pwr.result = 0 ∧ d.rails = s.dev.rails ∧
      ∀ g, quadOf g ≠ q → d.slot g = s.dev.slot g) ∧
    (s.dev.pwr.mode = .standby → exec (.qopQrun src q) s = .next (Wrote src 0x120 0 id s))) ∧
  (∀ (q : Fin 4) (s : State), bankGet s.dev.pwr.entering q = none → exec (.smoulderTimeout q) s = .next s) ∧
  (∀ (q : Fin 4) (t : Nat) (s : State), bankGet s.dev.pwr.entering q = some t →
    (s.tm.time.toNat < t + msTicks 10 → exec (.smoulderTimeout q) s = .next s) ∧
    (t + msTicks 10 ≤ s.tm.time.toNat → ∃ d, exec (.smoulderTimeout q) s = .next { s with dev := d } ∧
      bankGet d.pwr.entering q = none)) ∧
  (∀ (c : WakeCause) (s : State),
    (s.dev.pwr.mode ≠ .standby ∨ s.dev.pwr.waking ≠ none ∨ wakeCode s.dev c = none → exec (.wake c) s = .next s) ∧
    (∀ k, s.dev.pwr.mode = .standby → s.dev.pwr.waking = none → wakeCode s.dev c = some k →
      (s.tm.phase = 0 → ∃ t, exec (.wake c) s = .next t ∧ Awake s t ∧ t.pending = s.pending ∧ t.nv = s.nv ∧
        t.dev.pwr.cause = BitVec.ofNat 3 k) ∧
      (s.tm.phase ≠ 0 → exec (.wake c) s =
        .next { s with dev := { s.dev with pwr := { s.dev.pwr with waking := some k } } })))

/-- FW.CMD is taken: the write reaches it, the level and the life-cycle state, no operation in progress, and not in STANDBY (R367,
R370). -/
def FwFree (src : Src) (s : State) : Prop :=
  Reaches src .early s ∧ mayEarly s.dev src .engineer = true ∧ lifeAllows s.dev = true ∧ s.dev.fw.busy = false ∧
    s.dev.pwr.mode ≠ .standby

/-- The device as the end of a firmware command with a result leaves it. -/
def FwEnded (res : FwResult) (d : Device) : Device :=
  { d with fw := { d.fw with busy := false, op := none, result := res.code } }

/-- The commands of FW.CMD. -/
def fwOps (src : Src) (k : Fin 2) (op : BitVec 3) : List Instr :=
  [.fwErase src k, .fwSeal src k, .switch src k, .fwConfirm src, .fwRollback src] ++
    if 1 ≤ op.toNat ∧ op.toNat ≤ 5 then [] else [.fwBadOp src op]

/-- Firmware slots (FW_ERASE, FW_SEAL, SWITCH, FW_CONFIRM, FW_ROLLBACK, FW_BAD_OP, FW_TRIAL_TIMEOUT, CODE_FLASH_OPERATION_END,
FW_DATA_WRITE; R366, R367, Table 14-9): a command is turned away without its level, while one runs and in STANDBY; ERASE and SEAL
last until their operation ends, SEAL with the result of its check; SWITCH puts a WRITTEN slot on trial, which CONFIRM ends with
CONFIRMED, and ROLLBACK and its time with REJECTED; and FW.DATA fills the slot of the last ERASE alone. -/
def Obligations.FirmwareSlots : Prop :=
  (∀ (src : Src) (k : Fin 2) (op : BitVec 3) (s : State), Reaches src .early s → ∀ c ∈ fwOps src k op,
    let told (st : BitVec 8) (r : FwResult) : State :=
      Wrote src 0x300 st (fun d => { d with fw := { d.fw with result := r.code } }) s
    (mayEarly s.dev src .engineer = false ∨ lifeAllows s.dev = false → exec c s = .next (told 0x04 .denied)) ∧
    (mayEarly s.dev src .engineer = true → lifeAllows s.dev = true → s.dev.fw.busy = true → exec c s = .next (told 0 .busy)) ∧
    (mayEarly s.dev src .engineer = true → lifeAllows s.dev = true → s.dev.fw.busy = false → s.dev.pwr.mode = .standby →
      exec c s = .next (told 0 .power))) ∧
  (∀ (src : Src) (k : Fin 2) (s : State), FwFree src s →
    ((s.dev.fw.running ≠ k ∨ s.dev.fw.nosup = true) → (bankGet s.nv.code k).phase ≠ .confirmed →
      exec (.fwErase src k) s = .next (Wrote src 0x300 0 (fun d =>
        { d with fw := { d.fw with busy := true, op := some (.erase k) } }) s)) ∧
    ((bankGet s.nv.code k).phase = .empty → exec (.fwSeal src k) s = .next (Wrote src 0x300 0 (fun d =>
        { d with fw := { d.fw with busy := true, op := some (.seal k) } }) s)) ∧
    ((bankGet s.nv.code k).phase ≠ .empty →
      exec (.fwSeal src k) s = .next (Wrote src 0x300 0 (FwEnded .state) s)) ∧
    ((bankGet s.nv.code k).phase = .written → (bankGet s.nv.code s.dev.fw.running).phase = .confirmed → fwTrial s.nv = none →
      ∃ t, exec (.switch src k) s = .next t ∧ t.pending = s.pending ∧ t.tm = s.tm ∧ (bankGet t.nv.code k).phase = .trial ∧
        bankGet t.nv.code (1 - k) = bankGet s.nv.code (1 - k) ∧ t.nv.flash = s.nv.flash ∧ t.dev.fw.running = k ∧
        t.dev.fw.supReset = true ∧ t.dev.fw.trialAt = some s.tm.us.toNat ∧ t.dev.fw.result = 0 ∧ t.dev.rails = s.dev.rails) ∧
    (fwTrial s.nv = some k → ∃ t, exec (.fwConfirm src) s = .next t ∧ t.pending = s.pending ∧ t.tm = s.tm ∧
      (bankGet t.nv.code k).phase = .confirmed ∧ t.dev.fw.trialAt = none ∧ t.dev.fw.result = 0 ∧
      t.dev.fw.supReset = s.dev.fw.supReset ∧ t.dev.rails = s.dev.rails) ∧
    (fwTrial s.nv = some k → ∃ t, exec (.fwRollback src) s = .next t ∧ t.pending = s.pending ∧ t.tm = s.tm ∧
      (bankGet t.nv.code k).phase = .rejected ∧ t.dev.fw.trialAt = none ∧ t.dev.fw.supReset = true ∧ t.dev.fw.result = 0 ∧
      t.dev.rails = s.dev.rails) ∧
    (fwTrial s.nv = none → exec (.fwConfirm src) s = .next (Wrote src 0x300 0 (FwEnded .state) s) ∧
      exec (.fwRollback src) s = .next (Wrote src 0x300 0 (FwEnded .state) s)) ∧
    (∀ op : BitVec 3, ¬ (1 ≤ op.toNat ∧ op.toNat ≤ 5) →
      exec (.fwBadOp src op) s = .next (Wrote src 0x300 0 (FwEnded .badOp) s))) ∧
  (∀ (k : Fin 2) (t0 : Nat) (s : State), fwTrial s.nv = some k → s.dev.fw.trialAt = some t0 →
    (s.tm.us.toNat < t0 + trialSeconds s.dev * 1000000 → exec .fwTrialTimeout s = .next s) ∧
    (t0 + trialSeconds s.dev * 1000000 ≤ s.tm.us.toNat → ∃ t, exec .fwTrialTimeout s = .next t ∧ t.pending = s.pending ∧
      t.tm = s.tm ∧ (bankGet t.nv.code k).phase = .rejected ∧ t.dev.fw.trialAt = none ∧ t.dev.fw.supReset = true)) ∧
  (∀ s : State, s.dev.fw.op = none → exec .codeFlashOperationEnd s = .next s) ∧
  (∀ (k : Fin 2) (s : State), s.dev.fw.op = some (.erase k) → ∃ t, exec .codeFlashOperationEnd s = .next t ∧
    bankGet t.nv.code k = ⟨.empty, 0, 0, [], false⟩ ∧ bankGet t.nv.code (1 - k) = bankGet s.nv.code (1 - k) ∧
    t.nv.flash = s.nv.flash ∧ t.dev.fw.busy = false ∧ t.dev.fw.result = 0 ∧ t.dev.fw.fillSlot = some k ∧ t.pending = s.pending) ∧
  (∀ (k : Fin 2) (s : State), s.dev.fw.op = some (.seal k) →
    (∀ r, sealCheck (svnMin s.dev) (bankGet s.nv.code k) = r → r ≠ .ok →
      exec .codeFlashOperationEnd s = .next { s with dev := FwEnded r s.dev }) ∧
    ∃ t, exec .codeFlashOperationEnd s = .next t ∧ t.tm = s.tm ∧ t.pending = s.pending ∧ t.nv.flash = s.nv.flash ∧
      t.dev.fw.busy = false ∧ t.dev.fw.result = (sealCheck (svnMin s.dev) (bankGet s.nv.code k)).code ∧
      (bankGet t.nv.code k).bytes = (bankGet s.nv.code k).bytes ∧
      bankGet t.nv.code (1 - k) = bankGet s.nv.code (1 - k) ∧
      (bankGet t.nv.code k).phase = (if sealCheck (svnMin s.dev) (bankGet s.nv.code k) = .ok then .written
        else (bankGet s.nv.code k).phase)) ∧
  (∀ (src : Src) (data : BitVec 32) (s : State), Reaches src .early s → mayEarly s.dev src .engineer = true →
    lifeAllows s.dev = true →
    (s.dev.fw.fillSlot = none → exec (.fwDataWrite src data) s = .next (Wrote src 0x30B 0 (fun d =>
      { d with fw := { d.fw with dataAddr := BitVec.ofNat 20 (s.dev.fw.dataAddr.toNat / 4 * 4 + 4) } }) s)) ∧
    (∀ (k : Fin 2) (i : Nat), s.dev.fw.fillSlot = some k → (bankGet s.nv.code k).phase = .empty → s.dev.fw.busy = false →
      s.dev.fw.dataAddr.toNat / 4 * 4 + 3 < 524288 → cellsWf (bankGet s.nv.code k).bytes = true → i < 4 → ∃ t, exec (.fwDataWrite src data) s = .next t ∧
        cellsGet (bankGet t.nv.code k).bytes (s.dev.fw.dataAddr.toNat / 4 * 4 + i) =
          cellsGet (bankGet s.nv.code k).bytes (s.dev.fw.dataAddr.toNat / 4 * 4 + i) &&& byte (data.toNat / 256 ^ i) ∧
        (∀ a, a < s.dev.fw.dataAddr.toNat / 4 * 4 ∨ s.dev.fw.dataAddr.toNat / 4 * 4 + 4 ≤ a →
          cellsGet (bankGet t.nv.code k).bytes a = cellsGet (bankGet s.nv.code k).bytes a) ∧
        t.nv.flash = s.nv.flash ∧ t.pending = s.pending))


/-! ### On-chip store, recorder, archive and capture (15_on_chip_store.md, 16_ash_and_bog.md) -/

/-- OCS.CMD reaches the store: the write gets there, and no command or power failure stands in the way (R397). -/
def StoreFree (src : Src) (s : State) : Prop :=
  Reaches src .store s ∧ s.dev.ocs.cmdBusy = false ∧ s.dev.ocs.pfail = false

/-- The device as the end of a store command with a result leaves it (Table 15-9). -/
def StoreEnded (res : StoreResult) (d : Device) : Device :=
  { d with ocs := { d.ocs with cmdBusy := false, result := res.code, intStatus := setBit d.ocs.intStatus 0 } }

/-- The commands of OCS.CMD with the level that each needs at least. -/
def storeOps (src : Src) (block : Fin 128) (bp : BitVec 2) : List (Instr × Level) :=
  [(.userRead src block, .observe), (.userWrite src block, .engineer), (.protect src bp, .engineer)]

/-- OCS.CMD (USER_READ, USER_WRITE, PROTECT, OCS_BAD_OP; R377, R397, Table 15-9): refused without its level, while another runs and with
PFAIL_N low; USER_READ brings the newest record of the block or zeros; USER_WRITE and PROTECT last until their record is written, and
end at once where the block is protected or the region read-only; a lower BP needs CUSTODIAN. -/
def Obligations.StoreCommands : Prop :=
  (∀ (src : Src) (block : Fin 128) (bp : BitVec 2) (s : State), Reaches src .store s → ∀ x ∈ storeOps src block bp,
    (may s.dev src x.2 = false → s.dev.ocs.cmdBusy = false →
      exec x.1 s = .next (Wrote src 0x9001 0x04 (StoreEnded .denied) s)) ∧
    (may s.dev src .custodian = true → s.dev.sg.lc ≠ .returned → s.dev.ocs.cmdBusy = true →
      exec x.1 s = .next (Wrote src 0x9001 0 (fun d => { d with ocs := { d.ocs with result := StoreResult.busy.code } }) s)) ∧
    (may s.dev src .custodian = true → s.dev.sg.lc ≠ .returned → s.dev.ocs.cmdBusy = false → s.dev.ocs.pfail = true →
      exec x.1 s = .next (Wrote src 0x9001 0 (StoreEnded .pfail) s))) ∧
  (∀ (src : Src) (block : Fin 128) (s : State), StoreFree src s → may s.dev src .observe = true →
    (lookupRecord s.dev.draws s.nv s.dev.ocs 9 0x50 block.val 0 = none →
      exec (.userRead src block) s = .next (Wrote src 0x9001 0 (fun d =>
        { StoreEnded .absent d with
          ocs := { (StoreEnded .absent d).ocs with ubuf := bankFill 56 0 }, draws := d.draws + 1 }) s)) ∧
    (∀ r, lookupRecord s.dev.draws s.nv s.dev.ocs 9 0x50 block.val 0 = some r →
      exec (.userRead src block) s = .next (Wrote src 0x9001 0 (fun d =>
        { StoreEnded .ok d with
          ocs := { (StoreEnded .ok d).ocs with ubuf := bankOf fun w => word (leAt r.body (4 * w.val) 4) }
          draws := d.draws + 1 }) s))) ∧
  (∀ (src : Src) (block : Fin 128) (s : State), StoreFree src s → may s.dev src .engineer = true → s.dev.sg.lc ≠ .returned →
    (regionWritable s.dev.ocs 9 = false →
      exec (.userWrite src block) s = .next (Wrote src 0x9001 0 (StoreEnded .readonly) s)) ∧
    (regionWritable s.dev.ocs 9 = true → blockProtected s.dev.ocs.bp block = true →
      exec (.userWrite src block) s = .next (Wrote src 0x9001 0 (StoreEnded .protected_) s)) ∧
    (regionWritable s.dev.ocs 9 = true → blockProtected s.dev.ocs.bp block = false →
      ∃ ocs, exec (.userWrite src block) s = .next (Wrote src 0x9001 0 (fun d => { d with ocs := ocs }) s) ∧
        ocs.cmdBusy = true ∧ ocs.bp = s.dev.ocs.bp ∧ ∃ j ∈ ocs.current.toList ++ ocs.jobs, j.tag = .user block)) ∧
  (∀ (src : Src) (bp : BitVec 2) (s : State), StoreFree src s → may s.dev src .engineer = true → s.dev.sg.lc ≠ .returned →
    (bp.toNat < s.dev.ocs.bp.toNat → may s.dev src .custodian = false →
      exec (.protect src bp) s = .next (Wrote src 0x9001 0x04 (StoreEnded .denied) s)) ∧
    (s.dev.ocs.bp.toNat ≤ bp.toNat ∨ may s.dev src .custodian = true → regionWritable s.dev.ocs 5 = true →
      ∃ ocs, exec (.protect src bp) s = .next (Wrote src 0x9001 0 (fun d => { d with ocs := ocs }) s) ∧
        ocs.cmdBusy = true ∧ ocs.bp = s.dev.ocs.bp ∧ ∃ j ∈ ocs.current.toList ++ ocs.jobs, j.tag = .protect bp)) ∧
  (∀ (src : Src) (op : BitVec 4) (s : State), StoreFree src s → may s.dev src .engineer = true →
    ¬ (1 ≤ op.toNat ∧ op.toNat ≤ 3) → exec (.ocsBadOp src op) s = .next (Wrote src 0x9001 0 (StoreEnded .badOp) s))

/-- Programs and erases of the store's flash (CHUNK_PROGRAM_COMPLETE, SECTOR_ERASE_COMPLETE; R372, R373): the end of a program leaves
each byte as the AND of what it held and what was supplied, and the end of an erase leaves every byte of its sector 0xFF; no other
byte, and no code slot, changes; a program that fails changes no byte outside its own, and an erase that fails none at all. -/
def Obligations.FlashChanges : Prop :=
  (∀ (j : Job) (c : ChunkProg) (s : State), cellsWf s.nv.flash = true → s.dev.ocs.current = some j → headProg j = some c →
    ∃ t, exec (.chunkProgramComplete true) s = .next t ∧ t.tm = s.tm ∧ t.pending = s.pending ∧ t.nv.code = s.nv.code ∧
      (∀ (i : Nat) (b : Byte), c.bytes[i]? = some b → cellsGet t.nv.flash (c.addr + i) = cellsGet s.nv.flash (c.addr + i) &&& b) ∧
      (∀ a, a < c.addr ∨ c.addr + c.bytes.length ≤ a → cellsGet t.nv.flash a = cellsGet s.nv.flash a) ∧
      cellsWf t.nv.flash = true) ∧
  (∀ (j : Job) (p : Fin 128) (tries : Nat) (begun : Bool) (rest : List JobStep) (s : State), s.dev.ocs.current = some j →
    j.steps = .erase p tries begun :: rest →
    ∃ t, exec (.sectorEraseComplete true) s = .next t ∧ t.tm = s.tm ∧ t.pending = s.pending ∧ t.nv.code = s.nv.code ∧
      (∀ a, a / 4096 = p.val → cellsGet t.nv.flash a = 0xFF) ∧
      (∀ a, a / 4096 ≠ p.val → cellsGet t.nv.flash a = cellsGet s.nv.flash a) ∧
      (cellsWf s.nv.flash = true → cellsWf t.nv.flash = true)) ∧
  (∀ (j : Job) (c : ChunkProg) (s : State), cellsWf s.nv.flash = true → s.dev.ocs.current = some j → headProg j = some c →
    ∃ t, exec (.chunkProgramComplete false) s = .next t ∧ t.tm = s.tm ∧ t.pending = s.pending ∧ t.nv.code = s.nv.code ∧
      (∀ a, a < c.addr ∨ c.addr + c.bytes.length ≤ a → cellsGet t.nv.flash a = cellsGet s.nv.flash a)) ∧
  (∀ s : State, ∃ t, exec (.sectorEraseComplete false) s = .next t ∧ t.tm = s.tm ∧ t.pending = s.pending ∧
    t.nv.flash = s.nv.flash ∧ t.nv.code = s.nv.code)

/-- The recorder (EVENT_RECORD_WRITE, REPEAT_CHAIN_END, TIME_SET, ER_CLEAR, SELECT; R400, R402, R404, R409, R411, R413, R415): the
oldest event is written with the next SEQ once the store is free for it; chains without a repeat for 1 ms end; TIME_SET puts the
calendar at the new value with the next generation; SELECT shows the record found; CLEAR begins with its record; and each ER command
is DENIED without its level and BUSY while another runs. -/
def Obligations.EventsRecorded : Prop :=
  (∀ s : State, s.dev.er.queue = [] → s.dev.er.bogOnly = false → exec .eventRecordWrite s = .next s) ∧
  (∀ (x : Event) (xs : List Event) (st : Store) (addr : Nat) (s : State), s.dev.er.queue = x :: xs → mayRecord s.dev = true →
    s.dev.er.seqNext ≠ s.dev.er.seqLimit → s.dev.er.bogOnly = false → s.dev.clk.sclkOn = true → s.dev.ocs.current = none →
    s.dev.ocs.jobs = [] → circulatingPlace s.dev.ocs = some (st, addr) →
    ∃ ocs er bs, exec .eventRecordWrite s = .next { s with dev := { s.dev with ocs := ocs, er := er } } ∧
      er.seqNext = s.dev.er.seqNext + 1 ∧ er.writing = some (x, s.dev.er.seqNext, bs) ∧
      er.queue.length = s.dev.er.queue.length ∧ bs.take 4 = leBytes 4 s.dev.er.seqNext.toNat ∧
      ∃ j, ocs.current = some j ∧ j.tag = .event s.dev.er.seqNext) ∧
  (∀ (j : Job) (s : State), s.dev.ocs.current = some j → erasing s.dev.ocs = false → j.tag ≠ .event s.dev.er.seqNext →
    s.dev.er.bogOnly = false → s.dev.er.seqNext ≠ s.dev.er.seqLimit → (circulatingPlace s.dev.ocs).isSome = true →
    exec .eventRecordWrite s = .next s) ∧
  (∀ s : State, ∃ er, exec .repeatChainEnd s = .next { s with dev := { s.dev with er := er } } ∧
    (∀ c ∈ er.chains, s.tm.us.toNat ≤ c.last + 1000) ∧
    ∀ c ∈ s.dev.er.chains, s.tm.us.toNat ≤ c.last + 1000 → c ∈ er.chains) ∧
  (∀ (src : Src) (areas : BitVec 4) (s : State), Reaches src .running s →
    (may s.dev src .operate = false → exec (.timeSet src) s =
      .next (Wrote src 0x940A 0x04 (fun d => { d with er := { d.er with result := 2 } }) s)) ∧
    (may s.dev src .custodian = true → s.dev.er.busy = true → ∀ c ∈ [Instr.timeSet src, .erClear src areas, .select src areas],
      exec c s = .next (Wrote src 0x940A 0 (fun d => { d with er := { d.er with result := 1 } }) s))) ∧
  (∀ (src : Src) (s : State), may s.dev src .operate = true → Reaches src .running s → s.dev.er.busy = false →
    ∃ er, exec (.timeSet src) s = .next { Wrote src 0x940A 0 (fun d => { d with er := er }) s with
        tm := { s.tm with cal := s.dev.er.timeNew } } ∧
      er.tgen = s.dev.er.tgen + 1 ∧ er.unset = false ∧ er.result = 0 ∧ er.seqNext = s.dev.er.seqNext) ∧
  (∀ (src : Src) (areas : BitVec 4) (s : State), may s.dev src .custodian = true → Reaches src .running s →
    s.dev.er.busy = false → s.dev.sg.lc ≠ .returned →
    (areas.getLsbD 1 = true → ∃ er, exec (.erClear src areas) s =
        .next (Wrote src 0x940A 0 (fun d => { d with er := er }) s) ∧
      er.result = 3 ∧ er.busy = false ∧ er.queue = s.dev.er.queue) ∧
    (areas = 1 → s.dev.er.bogOnly = false → s.dev.er.chains = [] → (s.dev.er.queue.filter (·.spare)).length < 4 →
      ∃ er e, exec (.erClear src areas) s = .next (Wrote src 0x940A 0 (fun d => { d with er := er }) s) ∧
        er.busy = true ∧ er.clearAreas = areas ∧ er.queue = s.dev.er.queue ++ [e] ∧ e.code = 0xC3)) ∧
  (∀ (src : Src) (areas : BitVec 4) (s : State), may s.dev src .observe = true → Reaches src .running s →
    s.dev.er.busy = false → areas.getLsbD 2 = false →
    ∃ er, exec (.select src areas) s = .next (Wrote src 0x940A 0 (fun d => { d with er := er }) s) ∧
      er.result = 0 ∧ er.found = (selectOnChip s.nv areas s.dev).isSome ∧
      (∀ area bs, selectOnChip s.nv areas s.dev = some (area, bs) → er.rd = bs ∧ er.area = BitVec.ofNat 3 area) ∧
      er.queue = s.dev.er.queue)

/-- The commands of BOG.CMD with the level that each needs (Table 14-1). -/
def bogOps (src : Src) (block part : BitVec 24) (op : BitVec 3) : List (Instr × Level) :=
  [(.discover src, .engineer), (.detach src, .engineer), (.format src, .engineer), (.readBlock src block, .observe),
   (.readCapbuf src part, .observe)] ++ if 1 ≤ op.toNat ∧ op.toNat ≤ 5 then [] else [(.bogBadOp src op, .engineer)]

/-- The device with a result of BOG.CMD. -/
def BogEnded (res : Byte) (d : Device) : Device := { d with bog := { d.bog with cmdBusy := false, result := res } }

/-- The archive (DISCOVER, DETACH, FORMAT, READ_BLOCK, READ_CAPBUF, BOG_BAD_OP, BOG_BLOCK_WRITE, ARCHIVE_FLASH_OPERATION_END; R16, R416
to R420, R425): a command is DENIED without its level and BUSY while one runs; DISCOVER and FORMAT start their operations, READ_BLOCK
reads within the archive, READ_CAPBUF fills the buffer of 4 KB, DETACH with nothing to write detaches; log blocks are written once
FLUSH has passed; and what the flash answers ends the operation in progress, but not while the supervisor does not run. -/
def Obligations.ArchiveWorks : Prop :=
  (∀ (src : Src) (block part : BitVec 24) (op : BitVec 3) (s : State), Reaches src .store s →
    ∀ x ∈ bogOps src block part op,
    (may s.dev src x.2 = false → exec x.1 s =
      .next (Wrote src 0x9801 0x04 (fun d => { d with bog := { d.bog with result := 2 } }) s)) ∧
    (may s.dev src x.2 = true → s.dev.bog.cmdBusy = true ∨ s.dev.bog.op ≠ none →
      exec x.1 s = .next (Wrote src 0x9801 0 (fun d => { d with bog := { d.bog with result := 1 } }) s))) ∧
  (∀ (src : Src) (block part : BitVec 24) (op : BitVec 3) (s : State), Reaches src .store s → may s.dev src .engineer = true →
    s.dev.bog.cmdBusy = false → s.dev.bog.op = none →
    let ends (r : BitVec 8) : State := Wrote src 0x9801 0 (BogEnded r) s
    exec (.discover src) s = .next (Wrote src 0x9801 0 (fun d => { d with bog := { d.bog with
      cmdBusy := true, state := .discovering, op := some (.discover s.dev.bog.state), tries := 0 } }) s) ∧
    (s.dev.bog.state = .ready ∨ s.dev.bog.state = .foreign → ∃ bog, exec (.format src) s =
      .next (Wrote src 0x9801 0 (fun d => { d with bog := bog }) s) ∧ bog.cmdBusy = true ∧ bog.op = some .format ∧
      bog.out.length = 2 ∧ bog.remaps = s.dev.bog.remaps ∧ bog.pct = s.dev.bog.pct) ∧
    (s.dev.bog.state ≠ .ready → s.dev.bog.state ≠ .foreign → exec (.format src) s = .next (ends 4)) ∧
    (s.dev.bog.state ≠ .ready → exec (.detach src) s = .next (ends 4) ∧ exec (.readBlock src block) s = .next (ends 4)) ∧
    (s.dev.bog.state = .ready → logWaiting s.nv s.dev = [] → ∃ er, exec (.detach src) s =
      .next (Wrote src 0x9801 0 (fun d => { BogEnded 0 d with
        er := er, bog := { (BogEnded 0 d).bog with state := .detached } }) s)) ∧
    (s.dev.bog.state = .ready → bogTotal s.dev.bog ≤ block.toNat → exec (.readBlock src block) s = .next (ends 5)) ∧
    (s.dev.bog.state = .ready → block.toNat < bogTotal s.dev.bog → exec (.readBlock src block) s =
      .next (Wrote src 0x9801 0 (fun d => { d with bog := { d.bog with cmdBusy := true, op := some .readBlock } }) s)) ∧
    (31 < part.toNat → exec (.readCapbuf src part) s = .next (ends 5)) ∧
    (part.toNat ≤ 31 → ∃ data, exec (.readCapbuf src part) s = .next (Wrote src 0x9801 0 (fun d => { BogEnded 0 d with
      bog := { (BogEnded 0 d).bog with rbuf := data } }) s) ∧ data.length = 4096) ∧
    (¬ (1 ≤ op.toNat ∧ op.toNat ≤ 5) → exec (.bogBadOp src op) s = .next (ends 6))) ∧
  (∀ s : State, s.dev.bog.state ≠ .ready ∨ s.dev.bog.op ≠ none ∨ supRunning s.tm s.dev = false →
    exec .bogBlockWrite s = .next s) ∧
  (∀ (t0 : Nat) (s : State), s.dev.bog.state = .ready → s.dev.bog.op = none → supRunning s.tm s.dev = true →
    s.dev.bog.oldest = some t0 → t0 + flushOf s.dev.bog * 800000000 ≤ s.tm.time.toNat → logWaiting s.nv s.dev ≠ [] →
    ∃ d rs last, exec .bogBlockWrite s = .next { s with dev := d } ∧ d.bog.op = some (.log rs last false) ∧
      rs = (logWaiting s.nv s.dev).take 126 ∧ d.bog.out.length = 1 ∧ d.rails = s.dev.rails ∧ d.ocs = s.dev.ocs) ∧
  (∀ (r : ArchiveResult) (s : State), s.dev.bog.op = none ∨ supRunning s.tm s.dev = false →
    exec (.archiveFlashOperationEnd r) s = .next s) ∧
  (∀ (was : BogState) (c : Option ControlInfo) (s : State), supRunning s.tm s.dev = true →
    s.dev.bog.op = some (.discover was) →
    exec (.archiveFlashOperationEnd (.discovered none none c)) s = .next { s with dev := { s.dev with bog := { s.dev.bog with
      op := none, out := [], state := .absent, present := 0, blocks := bankFill 2 0, mfr := bankFill 2 0, quad := bankFill 2 false
      cmdBusy := false, result := if s.dev.bog.cmdBusy then 5 else s.dev.bog.result } } }) ∧
  (∀ (bs : List (BitVec 8)) (s : State), supRunning s.tm s.dev = true → s.dev.bog.op = some .readBlock →
    ∃ d, exec (.archiveFlashOperationEnd (.bytes bs)) s =
    .next { s with dev := d } ∧ d.bog.rbuf = slice bs 0 4096 ∧ d.bog.cmdBusy = false ∧ d.bog.result = 0) ∧
  (∀ s : State, supRunning s.tm s.dev = true → s.dev.bog.op = some .format →
    ∃ d, exec (.archiveFlashOperationEnd .done) s = .next { s with dev := d } ∧
    d.bog.state = .ready ∧ d.bog.logHead = 0 ∧ d.bog.logTail = 0 ∧ d.bog.capParts = [] ∧ d.bog.result = 0)

/-- The capture buffer (CAPTURE_ARM, CAPTURE_STOP, TRIGGER, CAPTURE_SAMPLE, CAPTURE_COPY_COMPLETE; R16, R421, R422): ARM and STOP, the
triggers, the samples before and after, the freeze, and the end of the copy. -/
def Obligations.CaptureWorks : Prop :=
  (∀ (src : Src) (s : State), Reaches src .store s → may s.dev src .engineer = true →
    ((s.dev.cap.state = .stopped ∨ s.dev.cap.state = .frozen) → s.dev.cap.copying = false →
      ∃ wiped, exec (.captureArm src) s = .next (Wrote src 0x9810 0 (fun d => { d with cap := { d.cap with
        state := .armed, samples := [], postLeft := 0, copyDue := false, wiped := wiped } }) s)) ∧
    (s.dev.cap.state = .armed ∨ s.dev.cap.state = .post ∨ s.dev.cap.copying = true →
      exec (.captureArm src) s = .next (Wrote src 0x9810 0 id s)) ∧
    exec (.captureStop src) s = .next (Wrote src 0x9810 0 (fun d => { d with cap := { d.cap with
      state := .stopped, copyDue := false } }) s) ∧
    (s.dev.cap.state = .armed → ∃ er, exec (.trigger src) s = .next (Wrote src 0x9810 0 (fun d => { d with
        cap := { d.cap with
          state := .post, postLeft := d.cap.len.toNat - d.cap.pre.toNat, lastId := d.cap.lastId + 1, trigTime := s.tm.cal
          trigger := 4, trigIndex := 0 }
        bog := { d.bog with intStatus := setBit d.bog.intStatus 3 }
        er := er }) s)) ∧
    (s.dev.cap.state = .frozen → exec (.trigger src) s = .next (Wrote src 0x9810 0 (fun d => { d with
      cap := { d.cap with missed := d.cap.missed + 1 } }) s))) ∧
  (∀ s : State, s.dev.cap.state = .armed → exec .captureSample s = .next { s with dev := { s.dev with cap := { s.dev.cap with
    samples := (capRow s.dev :: s.dev.cap.samples).take s.dev.cap.pre.toNat } } }) ∧
  (∀ s : State, s.dev.cap.state = .post → 2 ≤ s.dev.cap.postLeft → exec .captureSample s = .next { s with dev := { s.dev with
    cap := { s.dev.cap with
      samples := (capRow s.dev :: s.dev.cap.samples).take s.dev.cap.len.toNat, postLeft := s.dev.cap.postLeft - 1 } } }) ∧
  (∀ s : State, s.dev.cap.state = .post → s.dev.cap.postLeft = 1 → ∃ d, exec .captureSample s = .next { s with dev := d } ∧
    d.cap.state = .frozen ∧ d.cap.samples = (capRow s.dev :: s.dev.cap.samples).take s.dev.cap.len.toNat ∧
    d.rails = s.dev.rails ∧ d.ocs = s.dev.ocs) ∧
  (∀ s : State, s.dev.cap.state = .stopped ∨ s.dev.cap.state = .frozen → exec .captureSample s = .next s) ∧
  (∀ s : State, s.dev.bog.op ≠ some .capture ∨ supRunning s.tm s.dev = false → exec .captureCopyComplete s = .next s) ∧
  (∀ s : State, s.dev.bog.op = some .capture → supRunning s.tm s.dev = true → s.dev.cap.state = .frozen →
    ∃ d, exec .captureCopyComplete s = .next { s with dev := d } ∧
    d.cap.state = (if s.dev.cap.autoRearm then .armed else .frozen) ∧
    (s.dev.bog.out.length ≤ s.dev.bog.capBlocks.toNat → d.bog.capParts.getLast? = some s.dev.bog.out.length) ∧
    d.bog.bseq = s.dev.bog.bseq + BitVec.ofNat 32 s.dev.bog.out.length ∧ d.rails = s.dev.rails)


/-! ### The machine as a whole -/

/-- A step takes the command at the front of the queue and runs it on the rest; on an empty queue one T-tick of time passes (the
model's choice, assumption 25): TIME and the device microsecond advance, and a wake that waits is carried out at the microsecond
boundary, with TIME reloaded. -/
def Obligations.StepRunsFront : Prop :=
  (∀ (c : Instr) (rest : List Instr) (s : State), s.pending = c :: rest → step s = exec c { s with pending := rest }) ∧
  (∀ s : State, s.pending = [] → (∃ t, step s = .next t) ∧ (s.tm.running = false → step s = .next s)) ∧
  (∀ s : State, s.pending = [] → s.tm.running = true → s.dev.fw.hung = none →
    (s.dev.pwr.waking = none → ∃ d, step s = .next { s with tm := tickTime s.tm, dev := d } ∧
      (s.tm.lclk = true → (tickTime s.tm).time = s.tm.time + 1) ∧ (s.tm.lclk = false → (tickTime s.tm).time = s.tm.time)) ∧
    (∀ k, s.dev.pwr.waking = some k → s.tm.phase.val = 799 → ∃ t, step s = .next t ∧ Awake { s with tm := tickTime s.tm } t ∧
      t.dev.pwr.waking = none ∧ t.nv = s.nv ∧ t.pending = []))

/-- Words that the register tables give a reset value, with that value: SYS.ID, BOOT_STATUS, RESET_CAUSE, CLK.STATUS, HSP.EVT_EN,
TBI's and LE's counts, PP.BUS of both buses, the thermistor inputs, and TWP's control, timing and address. -/
def resetWords : List (Nat × Nat) :=
  [(0x0000, 0x01B15120), (0x0004, 0), (0x0005, 1), (0x0100, 4), (0x0406, 0), (0x0407, 9), (0x6000, 0), (0x6001, 0),
   (0x6003, 0xFFFF)] ++
  [(0x8010, 3), (0x8011, 0x04E9D3C1), (0x8012, 0x00015623), (0x8013, 0x14C), (0x8021, 0x04E9D3C1), (0x8022, 0x00015623),
   (0x8810, 10000), (0x8814, 10000), (0x8818, 3435)] ++
  [(0xA000, 0x141D), (0xA002, 0x006E007D), (0xA003, 0x0820), (0xA004, 0x48)]

/-- What reset leaves (R34, R46): the registers of `resetWords` at the values their tables give, every rail in OFF, every lane in
UNUSED, every slot in ABSENT, every session closed, no event waiting, no command waiting, the sequence in step 1, and the
invariants of this file in force. -/
def Obligations.ResetValues : Prop :=
  (∀ x ∈ resetWords, readWord State.reset x.1 = some x.2) ∧
  (∀ r, (State.reset.dev.rail r).state = .off) ∧ (∀ n, (State.reset.dev.lane n).state = .unused) ∧
  (∀ g, (State.reset.dev.slot g).state = .absent) ∧ (∀ p, (State.reset.dev.session p).state = .closed) ∧
  State.reset.dev.er.queue = [] ∧ State.reset.pending = [] ∧ State.reset.dev.sys.step = .filter ∧
  TimeHolds State.reset.tm ∧ MemoryHolds State.reset.nv ∧ EventsBounded State.reset.dev

/-- No command faults or is refused, and none touches the queue of the commands that wait: an event that matches no row of a state
table leaves the state unchanged (R14). -/
def Obligations.CommandsComplete : Prop :=
  ∀ (c : Instr) (s : State), ∃ t, exec c s = .next t ∧ t.pending = s.pending

/-- Every step, from every state, keeps TIME at 800 times the device microsecond plus the T-tick in it while LCLK runs (R138, R139,
R364), and the persistent memories in their canonical form. -/
def Obligations.TimeAndMemoryKept : Prop :=
  ∀ s t : State, TimeHolds s.tm → MemoryHolds s.nv → step s = .next t → TimeHolds t.tm ∧ MemoryHolds t.nv

/-- Every step, from every state, keeps the event queue within its 64 entries, of which four are for the events that R409 names. -/
def Obligations.EventsBoundedKept : Prop :=
  ∀ s t : State, EventsBounded s.dev → step s = .next t → EventsBounded t.dev

/-- Of all commands only the end of an erase (SECTOR_ERASE_COMPLETE) and start-up recovery (STORE_RECOVERY_END), which erases, move a bit of the store's flash from 0 to 1 (R372,
R373): after any other, every byte is the AND of what it was and something. -/
def Obligations.FlashBitsFall : Prop :=
  ∀ (c : Instr) (s : State), cellsWf s.nv.flash = true → c ≠ .storeRecoveryEnd → (∀ v, c ≠ .sectorEraseComplete v) →
    ∃ t, exec c s = .next t ∧ ∀ a, cellsGet t.nv.flash a &&& cellsGet s.nv.flash a = cellsGet t.nv.flash a

/-- What happens on the lanes, in the loop engine, on the rails, in Hearth, on the ring and on the partner buses changes no session,
key, port, pin, register of SYS, clock, firmware, or structure in force, nor time or the persistent memories. -/
def Obligations.EnergySideIsolated : Prop :=
  ∀ (c : Instr) (s : State), energySide c = true → ∃ d, exec c s = .next { s with dev := d } ∧ spare d = spare s.dev

/-- The state with other keys, other words in KEYDATA and other words in RESP. -/
def Rekeyed (keydata : Bank 8 Word) (keys : Bank 5 (Option KeySlot)) (resp : Bank 3 (Bank 8 Word)) (s : State) : State :=
  { s with dev := { s.dev with sg := { s.dev.sg with
    keydata := keydata
    keys := keys
    ports := bankOf fun i => { bankGet s.dev.sg.ports i with resp := bankGet resp i } } } }

/-- No register returns key material (R349): with other keys of the same generations, and other words written to KEYDATA and RESP,
every word of every window reads the same; KEYDATA and RESP read zero. -/
def Obligations.KeysHidden : Prop :=
  (∀ (keydata : Bank 8 Word) (keys : Bank 5 (Option KeySlot)) (resp : Bank 3 (Bank 8 Word)) (s : State),
    (∀ k, (bankGet keys k).map (·.gen) = (bankGet s.dev.sg.keys k).map (·.gen)) →
    ∀ a, readWord (Rekeyed keydata keys resp s) a = readWord s a) ∧
  (∀ (s : State) (k : Fin 8), readWord s (0x270 + k.val) = some 0) ∧
  (∀ (s : State) (p : Fin 3) (k : Fin 8), readWord s (0x200 + 32 * p.val + 10 + k.val) = some 0)
end

