-- ==== Sys2Proof/Laws/State.lean ====
section
/-! SUPPORT. The small laws of State: for every update of one part of the device, what each field of the device is
afterwards. Every one is true by unfolding the record, so no later proof unfolds an update. -/

namespace Sys2Proof.Machine

/-! ### A change of the device alone -/

@[simp] theorem State.onDev_dev (s : State) (f : Device → Device) : (s.onDev f).dev = f s.dev := rfl
@[simp] theorem State.onDev_tm (s : State) (f : Device → Device) : (s.onDev f).tm = s.tm := rfl
@[simp] theorem State.onDev_nv (s : State) (f : Device → Device) : (s.onDev f).nv = s.nv := rfl
@[simp] theorem State.onDev_pending (s : State) (f : Device → Device) : (s.onDev f).pending = s.pending := rfl

/-! ### One lane -/

@[simp] theorem Device.onLane_sys (d : Device) (n : Fin 64) (f : Lane → Lane) :
    (d.onLane n f).sys = d.sys := rfl
@[simp] theorem Device.onLane_clk (d : Device) (n : Fin 64) (f : Lane → Lane) :
    (d.onLane n f).clk = d.clk := rfl
@[simp] theorem Device.onLane_pins (d : Device) (n : Fin 64) (f : Lane → Lane) :
    (d.onLane n f).pins = d.pins := rfl
@[simp] theorem Device.onLane_str (d : Device) (n : Fin 64) (f : Lane → Lane) :
    (d.onLane n f).str = d.str := rfl
@[simp] theorem Device.onLane_img (d : Device) (n : Fin 64) (f : Lane → Lane) :
    (d.onLane n f).img = d.img := rfl
@[simp] theorem Device.onLane_lanes (d : Device) (n : Fin 64) (f : Lane → Lane) :
    (d.onLane n f).lanes = bankUpd d.lanes n f := rfl
@[simp] theorem Device.onLane_slots (d : Device) (n : Fin 64) (f : Lane → Lane) :
    (d.onLane n f).slots = d.slots := rfl
@[simp] theorem Device.onLane_tbi (d : Device) (n : Fin 64) (f : Lane → Lane) :
    (d.onLane n f).tbi = d.tbi := rfl
@[simp] theorem Device.onLane_phases (d : Device) (n : Fin 64) (f : Lane → Lane) :
    (d.onLane n f).phases = d.phases := rfl
@[simp] theorem Device.onLane_le (d : Device) (n : Fin 64) (f : Lane → Lane) :
    (d.onLane n f).le = d.le := rfl
@[simp] theorem Device.onLane_tune (d : Device) (n : Fin 64) (f : Lane → Lane) :
    (d.onLane n f).tune = d.tune := rfl
@[simp] theorem Device.onLane_rails (d : Device) (n : Fin 64) (f : Lane → Lane) :
    (d.onLane n f).rails = d.rails := rfl
@[simp] theorem Device.onLane_pm (d : Device) (n : Fin 64) (f : Lane → Lane) :
    (d.onLane n f).pm = d.pm := rfl
@[simp] theorem Device.onLane_hkt (d : Device) (n : Fin 64) (f : Lane → Lane) :
    (d.onLane n f).hkt = d.hkt := rfl
@[simp] theorem Device.onLane_hs (d : Device) (n : Fin 64) (f : Lane → Lane) :
    (d.onLane n f).hs = d.hs := rfl
@[simp] theorem Device.onLane_ring (d : Device) (n : Fin 64) (f : Lane → Lane) :
    (d.onLane n f).ring = d.ring := rfl
@[simp] theorem Device.onLane_pp (d : Device) (n : Fin 64) (f : Lane → Lane) :
    (d.onLane n f).pp = d.pp := rfl
@[simp] theorem Device.onLane_hsp (d : Device) (n : Fin 64) (f : Lane → Lane) :
    (d.onLane n f).hsp = d.hsp := rfl
@[simp] theorem Device.onLane_ports (d : Device) (n : Fin 64) (f : Lane → Lane) :
    (d.onLane n f).ports = d.ports := rfl
@[simp] theorem Device.onLane_twp (d : Device) (n : Fin 64) (f : Lane → Lane) :
    (d.onLane n f).twp = d.twp := rfl
@[simp] theorem Device.onLane_sg (d : Device) (n : Fin 64) (f : Lane → Lane) :
    (d.onLane n f).sg = d.sg := rfl
@[simp] theorem Device.onLane_pwr (d : Device) (n : Fin 64) (f : Lane → Lane) :
    (d.onLane n f).pwr = d.pwr := rfl
@[simp] theorem Device.onLane_fw (d : Device) (n : Fin 64) (f : Lane → Lane) :
    (d.onLane n f).fw = d.fw := rfl
@[simp] theorem Device.onLane_ocs (d : Device) (n : Fin 64) (f : Lane → Lane) :
    (d.onLane n f).ocs = d.ocs := rfl
@[simp] theorem Device.onLane_er (d : Device) (n : Fin 64) (f : Lane → Lane) :
    (d.onLane n f).er = d.er := rfl
@[simp] theorem Device.onLane_bog (d : Device) (n : Fin 64) (f : Lane → Lane) :
    (d.onLane n f).bog = d.bog := rfl
@[simp] theorem Device.onLane_cap (d : Device) (n : Fin 64) (f : Lane → Lane) :
    (d.onLane n f).cap = d.cap := rfl
@[simp] theorem Device.onLane_draws (d : Device) (n : Fin 64) (f : Lane → Lane) :
    (d.onLane n f).draws = d.draws := rfl

/-! ### One slot -/

@[simp] theorem Device.onSlot_sys (d : Device) (g : Fin 512) (f : Slot → Slot) :
    (d.onSlot g f).sys = d.sys := rfl
@[simp] theorem Device.onSlot_clk (d : Device) (g : Fin 512) (f : Slot → Slot) :
    (d.onSlot g f).clk = d.clk := rfl
@[simp] theorem Device.onSlot_pins (d : Device) (g : Fin 512) (f : Slot → Slot) :
    (d.onSlot g f).pins = d.pins := rfl
@[simp] theorem Device.onSlot_str (d : Device) (g : Fin 512) (f : Slot → Slot) :
    (d.onSlot g f).str = d.str := rfl
@[simp] theorem Device.onSlot_img (d : Device) (g : Fin 512) (f : Slot → Slot) :
    (d.onSlot g f).img = d.img := rfl
@[simp] theorem Device.onSlot_lanes (d : Device) (g : Fin 512) (f : Slot → Slot) :
    (d.onSlot g f).lanes = d.lanes := rfl
@[simp] theorem Device.onSlot_slots (d : Device) (g : Fin 512) (f : Slot → Slot) :
    (d.onSlot g f).slots = bankUpd d.slots g f := rfl
@[simp] theorem Device.onSlot_tbi (d : Device) (g : Fin 512) (f : Slot → Slot) :
    (d.onSlot g f).tbi = d.tbi := rfl
@[simp] theorem Device.onSlot_phases (d : Device) (g : Fin 512) (f : Slot → Slot) :
    (d.onSlot g f).phases = d.phases := rfl
@[simp] theorem Device.onSlot_le (d : Device) (g : Fin 512) (f : Slot → Slot) :
    (d.onSlot g f).le = d.le := rfl
@[simp] theorem Device.onSlot_tune (d : Device) (g : Fin 512) (f : Slot → Slot) :
    (d.onSlot g f).tune = d.tune := rfl
@[simp] theorem Device.onSlot_rails (d : Device) (g : Fin 512) (f : Slot → Slot) :
    (d.onSlot g f).rails = d.rails := rfl
@[simp] theorem Device.onSlot_pm (d : Device) (g : Fin 512) (f : Slot → Slot) :
    (d.onSlot g f).pm = d.pm := rfl
@[simp] theorem Device.onSlot_hkt (d : Device) (g : Fin 512) (f : Slot → Slot) :
    (d.onSlot g f).hkt = d.hkt := rfl
@[simp] theorem Device.onSlot_hs (d : Device) (g : Fin 512) (f : Slot → Slot) :
    (d.onSlot g f).hs = d.hs := rfl
@[simp] theorem Device.onSlot_ring (d : Device) (g : Fin 512) (f : Slot → Slot) :
    (d.onSlot g f).ring = d.ring := rfl
@[simp] theorem Device.onSlot_pp (d : Device) (g : Fin 512) (f : Slot → Slot) :
    (d.onSlot g f).pp = d.pp := rfl
@[simp] theorem Device.onSlot_hsp (d : Device) (g : Fin 512) (f : Slot → Slot) :
    (d.onSlot g f).hsp = d.hsp := rfl
@[simp] theorem Device.onSlot_ports (d : Device) (g : Fin 512) (f : Slot → Slot) :
    (d.onSlot g f).ports = d.ports := rfl
@[simp] theorem Device.onSlot_twp (d : Device) (g : Fin 512) (f : Slot → Slot) :
    (d.onSlot g f).twp = d.twp := rfl
@[simp] theorem Device.onSlot_sg (d : Device) (g : Fin 512) (f : Slot → Slot) :
    (d.onSlot g f).sg = d.sg := rfl
@[simp] theorem Device.onSlot_pwr (d : Device) (g : Fin 512) (f : Slot → Slot) :
    (d.onSlot g f).pwr = d.pwr := rfl
@[simp] theorem Device.onSlot_fw (d : Device) (g : Fin 512) (f : Slot → Slot) :
    (d.onSlot g f).fw = d.fw := rfl
@[simp] theorem Device.onSlot_ocs (d : Device) (g : Fin 512) (f : Slot → Slot) :
    (d.onSlot g f).ocs = d.ocs := rfl
@[simp] theorem Device.onSlot_er (d : Device) (g : Fin 512) (f : Slot → Slot) :
    (d.onSlot g f).er = d.er := rfl
@[simp] theorem Device.onSlot_bog (d : Device) (g : Fin 512) (f : Slot → Slot) :
    (d.onSlot g f).bog = d.bog := rfl
@[simp] theorem Device.onSlot_cap (d : Device) (g : Fin 512) (f : Slot → Slot) :
    (d.onSlot g f).cap = d.cap := rfl
@[simp] theorem Device.onSlot_draws (d : Device) (g : Fin 512) (f : Slot → Slot) :
    (d.onSlot g f).draws = d.draws := rfl

/-! ### One phase -/

@[simp] theorem Device.onPhase_sys (d : Device) (g : Fin 512) (f : Phase → Phase) :
    (d.onPhase g f).sys = d.sys := rfl
@[simp] theorem Device.onPhase_clk (d : Device) (g : Fin 512) (f : Phase → Phase) :
    (d.onPhase g f).clk = d.clk := rfl
@[simp] theorem Device.onPhase_pins (d : Device) (g : Fin 512) (f : Phase → Phase) :
    (d.onPhase g f).pins = d.pins := rfl
@[simp] theorem Device.onPhase_str (d : Device) (g : Fin 512) (f : Phase → Phase) :
    (d.onPhase g f).str = d.str := rfl
@[simp] theorem Device.onPhase_img (d : Device) (g : Fin 512) (f : Phase → Phase) :
    (d.onPhase g f).img = d.img := rfl
@[simp] theorem Device.onPhase_lanes (d : Device) (g : Fin 512) (f : Phase → Phase) :
    (d.onPhase g f).lanes = d.lanes := rfl
@[simp] theorem Device.onPhase_slots (d : Device) (g : Fin 512) (f : Phase → Phase) :
    (d.onPhase g f).slots = d.slots := rfl
@[simp] theorem Device.onPhase_tbi (d : Device) (g : Fin 512) (f : Phase → Phase) :
    (d.onPhase g f).tbi = d.tbi := rfl
@[simp] theorem Device.onPhase_phases (d : Device) (g : Fin 512) (f : Phase → Phase) :
    (d.onPhase g f).phases = bankUpd d.phases g f := rfl
@[simp] theorem Device.onPhase_le (d : Device) (g : Fin 512) (f : Phase → Phase) :
    (d.onPhase g f).le = d.le := rfl
@[simp] theorem Device.onPhase_tune (d : Device) (g : Fin 512) (f : Phase → Phase) :
    (d.onPhase g f).tune = d.tune := rfl
@[simp] theorem Device.onPhase_rails (d : Device) (g : Fin 512) (f : Phase → Phase) :
    (d.onPhase g f).rails = d.rails := rfl
@[simp] theorem Device.onPhase_pm (d : Device) (g : Fin 512) (f : Phase → Phase) :
    (d.onPhase g f).pm = d.pm := rfl
@[simp] theorem Device.onPhase_hkt (d : Device) (g : Fin 512) (f : Phase → Phase) :
    (d.onPhase g f).hkt = d.hkt := rfl
@[simp] theorem Device.onPhase_hs (d : Device) (g : Fin 512) (f : Phase → Phase) :
    (d.onPhase g f).hs = d.hs := rfl
@[simp] theorem Device.onPhase_ring (d : Device) (g : Fin 512) (f : Phase → Phase) :
    (d.onPhase g f).ring = d.ring := rfl
@[simp] theorem Device.onPhase_pp (d : Device) (g : Fin 512) (f : Phase → Phase) :
    (d.onPhase g f).pp = d.pp := rfl
@[simp] theorem Device.onPhase_hsp (d : Device) (g : Fin 512) (f : Phase → Phase) :
    (d.onPhase g f).hsp = d.hsp := rfl
@[simp] theorem Device.onPhase_ports (d : Device) (g : Fin 512) (f : Phase → Phase) :
    (d.onPhase g f).ports = d.ports := rfl
@[simp] theorem Device.onPhase_twp (d : Device) (g : Fin 512) (f : Phase → Phase) :
    (d.onPhase g f).twp = d.twp := rfl
@[simp] theorem Device.onPhase_sg (d : Device) (g : Fin 512) (f : Phase → Phase) :
    (d.onPhase g f).sg = d.sg := rfl
@[simp] theorem Device.onPhase_pwr (d : Device) (g : Fin 512) (f : Phase → Phase) :
    (d.onPhase g f).pwr = d.pwr := rfl
@[simp] theorem Device.onPhase_fw (d : Device) (g : Fin 512) (f : Phase → Phase) :
    (d.onPhase g f).fw = d.fw := rfl
@[simp] theorem Device.onPhase_ocs (d : Device) (g : Fin 512) (f : Phase → Phase) :
    (d.onPhase g f).ocs = d.ocs := rfl
@[simp] theorem Device.onPhase_er (d : Device) (g : Fin 512) (f : Phase → Phase) :
    (d.onPhase g f).er = d.er := rfl
@[simp] theorem Device.onPhase_bog (d : Device) (g : Fin 512) (f : Phase → Phase) :
    (d.onPhase g f).bog = d.bog := rfl
@[simp] theorem Device.onPhase_cap (d : Device) (g : Fin 512) (f : Phase → Phase) :
    (d.onPhase g f).cap = d.cap := rfl
@[simp] theorem Device.onPhase_draws (d : Device) (g : Fin 512) (f : Phase → Phase) :
    (d.onPhase g f).draws = d.draws := rfl

/-! ### One rail -/

@[simp] theorem Device.onRail_sys (d : Device) (r : Fin 64) (f : Rail → Rail) :
    (d.onRail r f).sys = d.sys := rfl
@[simp] theorem Device.onRail_clk (d : Device) (r : Fin 64) (f : Rail → Rail) :
    (d.onRail r f).clk = d.clk := rfl
@[simp] theorem Device.onRail_pins (d : Device) (r : Fin 64) (f : Rail → Rail) :
    (d.onRail r f).pins = d.pins := rfl
@[simp] theorem Device.onRail_str (d : Device) (r : Fin 64) (f : Rail → Rail) :
    (d.onRail r f).str = d.str := rfl
@[simp] theorem Device.onRail_img (d : Device) (r : Fin 64) (f : Rail → Rail) :
    (d.onRail r f).img = d.img := rfl
@[simp] theorem Device.onRail_lanes (d : Device) (r : Fin 64) (f : Rail → Rail) :
    (d.onRail r f).lanes = d.lanes := rfl
@[simp] theorem Device.onRail_slots (d : Device) (r : Fin 64) (f : Rail → Rail) :
    (d.onRail r f).slots = d.slots := rfl
@[simp] theorem Device.onRail_tbi (d : Device) (r : Fin 64) (f : Rail → Rail) :
    (d.onRail r f).tbi = d.tbi := rfl
@[simp] theorem Device.onRail_phases (d : Device) (r : Fin 64) (f : Rail → Rail) :
    (d.onRail r f).phases = d.phases := rfl
@[simp] theorem Device.onRail_le (d : Device) (r : Fin 64) (f : Rail → Rail) :
    (d.onRail r f).le = d.le := rfl
@[simp] theorem Device.onRail_tune (d : Device) (r : Fin 64) (f : Rail → Rail) :
    (d.onRail r f).tune = d.tune := rfl
@[simp] theorem Device.onRail_rails (d : Device) (r : Fin 64) (f : Rail → Rail) :
    (d.onRail r f).rails = bankUpd d.rails r f := rfl
@[simp] theorem Device.onRail_pm (d : Device) (r : Fin 64) (f : Rail → Rail) :
    (d.onRail r f).pm = d.pm := rfl
@[simp] theorem Device.onRail_hkt (d : Device) (r : Fin 64) (f : Rail → Rail) :
    (d.onRail r f).hkt = d.hkt := rfl
@[simp] theorem Device.onRail_hs (d : Device) (r : Fin 64) (f : Rail → Rail) :
    (d.onRail r f).hs = d.hs := rfl
@[simp] theorem Device.onRail_ring (d : Device) (r : Fin 64) (f : Rail → Rail) :
    (d.onRail r f).ring = d.ring := rfl
@[simp] theorem Device.onRail_pp (d : Device) (r : Fin 64) (f : Rail → Rail) :
    (d.onRail r f).pp = d.pp := rfl
@[simp] theorem Device.onRail_hsp (d : Device) (r : Fin 64) (f : Rail → Rail) :
    (d.onRail r f).hsp = d.hsp := rfl
@[simp] theorem Device.onRail_ports (d : Device) (r : Fin 64) (f : Rail → Rail) :
    (d.onRail r f).ports = d.ports := rfl
@[simp] theorem Device.onRail_twp (d : Device) (r : Fin 64) (f : Rail → Rail) :
    (d.onRail r f).twp = d.twp := rfl
@[simp] theorem Device.onRail_sg (d : Device) (r : Fin 64) (f : Rail → Rail) :
    (d.onRail r f).sg = d.sg := rfl
@[simp] theorem Device.onRail_pwr (d : Device) (r : Fin 64) (f : Rail → Rail) :
    (d.onRail r f).pwr = d.pwr := rfl
@[simp] theorem Device.onRail_fw (d : Device) (r : Fin 64) (f : Rail → Rail) :
    (d.onRail r f).fw = d.fw := rfl
@[simp] theorem Device.onRail_ocs (d : Device) (r : Fin 64) (f : Rail → Rail) :
    (d.onRail r f).ocs = d.ocs := rfl
@[simp] theorem Device.onRail_er (d : Device) (r : Fin 64) (f : Rail → Rail) :
    (d.onRail r f).er = d.er := rfl
@[simp] theorem Device.onRail_bog (d : Device) (r : Fin 64) (f : Rail → Rail) :
    (d.onRail r f).bog = d.bog := rfl
@[simp] theorem Device.onRail_cap (d : Device) (r : Fin 64) (f : Rail → Rail) :
    (d.onRail r f).cap = d.cap := rfl
@[simp] theorem Device.onRail_draws (d : Device) (r : Fin 64) (f : Rail → Rail) :
    (d.onRail r f).draws = d.draws := rfl

/-! ### One loop -/

@[simp] theorem Device.onLoop_sys (d : Device) (r : Fin 64) (f : LoopSt → LoopSt) :
    (d.onLoop r f).sys = d.sys := rfl
@[simp] theorem Device.onLoop_clk (d : Device) (r : Fin 64) (f : LoopSt → LoopSt) :
    (d.onLoop r f).clk = d.clk := rfl
@[simp] theorem Device.onLoop_pins (d : Device) (r : Fin 64) (f : LoopSt → LoopSt) :
    (d.onLoop r f).pins = d.pins := rfl
@[simp] theorem Device.onLoop_str (d : Device) (r : Fin 64) (f : LoopSt → LoopSt) :
    (d.onLoop r f).str = d.str := rfl
@[simp] theorem Device.onLoop_img (d : Device) (r : Fin 64) (f : LoopSt → LoopSt) :
    (d.onLoop r f).img = d.img := rfl
@[simp] theorem Device.onLoop_lanes (d : Device) (r : Fin 64) (f : LoopSt → LoopSt) :
    (d.onLoop r f).lanes = d.lanes := rfl
@[simp] theorem Device.onLoop_slots (d : Device) (r : Fin 64) (f : LoopSt → LoopSt) :
    (d.onLoop r f).slots = d.slots := rfl
@[simp] theorem Device.onLoop_tbi (d : Device) (r : Fin 64) (f : LoopSt → LoopSt) :
    (d.onLoop r f).tbi = d.tbi := rfl
@[simp] theorem Device.onLoop_phases (d : Device) (r : Fin 64) (f : LoopSt → LoopSt) :
    (d.onLoop r f).phases = d.phases := rfl
@[simp] theorem Device.onLoop_le (d : Device) (r : Fin 64) (f : LoopSt → LoopSt) :
    (d.onLoop r f).le = { d.le with loops := bankUpd d.le.loops r f } := rfl
@[simp] theorem Device.onLoop_tune (d : Device) (r : Fin 64) (f : LoopSt → LoopSt) :
    (d.onLoop r f).tune = d.tune := rfl
@[simp] theorem Device.onLoop_rails (d : Device) (r : Fin 64) (f : LoopSt → LoopSt) :
    (d.onLoop r f).rails = d.rails := rfl
@[simp] theorem Device.onLoop_pm (d : Device) (r : Fin 64) (f : LoopSt → LoopSt) :
    (d.onLoop r f).pm = d.pm := rfl
@[simp] theorem Device.onLoop_hkt (d : Device) (r : Fin 64) (f : LoopSt → LoopSt) :
    (d.onLoop r f).hkt = d.hkt := rfl
@[simp] theorem Device.onLoop_hs (d : Device) (r : Fin 64) (f : LoopSt → LoopSt) :
    (d.onLoop r f).hs = d.hs := rfl
@[simp] theorem Device.onLoop_ring (d : Device) (r : Fin 64) (f : LoopSt → LoopSt) :
    (d.onLoop r f).ring = d.ring := rfl
@[simp] theorem Device.onLoop_pp (d : Device) (r : Fin 64) (f : LoopSt → LoopSt) :
    (d.onLoop r f).pp = d.pp := rfl
@[simp] theorem Device.onLoop_hsp (d : Device) (r : Fin 64) (f : LoopSt → LoopSt) :
    (d.onLoop r f).hsp = d.hsp := rfl
@[simp] theorem Device.onLoop_ports (d : Device) (r : Fin 64) (f : LoopSt → LoopSt) :
    (d.onLoop r f).ports = d.ports := rfl
@[simp] theorem Device.onLoop_twp (d : Device) (r : Fin 64) (f : LoopSt → LoopSt) :
    (d.onLoop r f).twp = d.twp := rfl
@[simp] theorem Device.onLoop_sg (d : Device) (r : Fin 64) (f : LoopSt → LoopSt) :
    (d.onLoop r f).sg = d.sg := rfl
@[simp] theorem Device.onLoop_pwr (d : Device) (r : Fin 64) (f : LoopSt → LoopSt) :
    (d.onLoop r f).pwr = d.pwr := rfl
@[simp] theorem Device.onLoop_fw (d : Device) (r : Fin 64) (f : LoopSt → LoopSt) :
    (d.onLoop r f).fw = d.fw := rfl
@[simp] theorem Device.onLoop_ocs (d : Device) (r : Fin 64) (f : LoopSt → LoopSt) :
    (d.onLoop r f).ocs = d.ocs := rfl
@[simp] theorem Device.onLoop_er (d : Device) (r : Fin 64) (f : LoopSt → LoopSt) :
    (d.onLoop r f).er = d.er := rfl
@[simp] theorem Device.onLoop_bog (d : Device) (r : Fin 64) (f : LoopSt → LoopSt) :
    (d.onLoop r f).bog = d.bog := rfl
@[simp] theorem Device.onLoop_cap (d : Device) (r : Fin 64) (f : LoopSt → LoopSt) :
    (d.onLoop r f).cap = d.cap := rfl
@[simp] theorem Device.onLoop_draws (d : Device) (r : Fin 64) (f : LoopSt → LoopSt) :
    (d.onLoop r f).draws = d.draws := rfl

/-! ### One carrier -/

@[simp] theorem Device.onCarrier_sys (d : Device) (g : Fin 8) (f : Carrier → Carrier) :
    (d.onCarrier g f).sys = d.sys := rfl
@[simp] theorem Device.onCarrier_clk (d : Device) (g : Fin 8) (f : Carrier → Carrier) :
    (d.onCarrier g f).clk = d.clk := rfl
@[simp] theorem Device.onCarrier_pins (d : Device) (g : Fin 8) (f : Carrier → Carrier) :
    (d.onCarrier g f).pins = d.pins := rfl
@[simp] theorem Device.onCarrier_str (d : Device) (g : Fin 8) (f : Carrier → Carrier) :
    (d.onCarrier g f).str = d.str := rfl
@[simp] theorem Device.onCarrier_img (d : Device) (g : Fin 8) (f : Carrier → Carrier) :
    (d.onCarrier g f).img = d.img := rfl
@[simp] theorem Device.onCarrier_lanes (d : Device) (g : Fin 8) (f : Carrier → Carrier) :
    (d.onCarrier g f).lanes = d.lanes := rfl
@[simp] theorem Device.onCarrier_slots (d : Device) (g : Fin 8) (f : Carrier → Carrier) :
    (d.onCarrier g f).slots = d.slots := rfl
@[simp] theorem Device.onCarrier_tbi (d : Device) (g : Fin 8) (f : Carrier → Carrier) :
    (d.onCarrier g f).tbi = { d.tbi with carriers := bankUpd d.tbi.carriers g f } := rfl
@[simp] theorem Device.onCarrier_phases (d : Device) (g : Fin 8) (f : Carrier → Carrier) :
    (d.onCarrier g f).phases = d.phases := rfl
@[simp] theorem Device.onCarrier_le (d : Device) (g : Fin 8) (f : Carrier → Carrier) :
    (d.onCarrier g f).le = d.le := rfl
@[simp] theorem Device.onCarrier_tune (d : Device) (g : Fin 8) (f : Carrier → Carrier) :
    (d.onCarrier g f).tune = d.tune := rfl
@[simp] theorem Device.onCarrier_rails (d : Device) (g : Fin 8) (f : Carrier → Carrier) :
    (d.onCarrier g f).rails = d.rails := rfl
@[simp] theorem Device.onCarrier_pm (d : Device) (g : Fin 8) (f : Carrier → Carrier) :
    (d.onCarrier g f).pm = d.pm := rfl
@[simp] theorem Device.onCarrier_hkt (d : Device) (g : Fin 8) (f : Carrier → Carrier) :
    (d.onCarrier g f).hkt = d.hkt := rfl
@[simp] theorem Device.onCarrier_hs (d : Device) (g : Fin 8) (f : Carrier → Carrier) :
    (d.onCarrier g f).hs = d.hs := rfl
@[simp] theorem Device.onCarrier_ring (d : Device) (g : Fin 8) (f : Carrier → Carrier) :
    (d.onCarrier g f).ring = d.ring := rfl
@[simp] theorem Device.onCarrier_pp (d : Device) (g : Fin 8) (f : Carrier → Carrier) :
    (d.onCarrier g f).pp = d.pp := rfl
@[simp] theorem Device.onCarrier_hsp (d : Device) (g : Fin 8) (f : Carrier → Carrier) :
    (d.onCarrier g f).hsp = d.hsp := rfl
@[simp] theorem Device.onCarrier_ports (d : Device) (g : Fin 8) (f : Carrier → Carrier) :
    (d.onCarrier g f).ports = d.ports := rfl
@[simp] theorem Device.onCarrier_twp (d : Device) (g : Fin 8) (f : Carrier → Carrier) :
    (d.onCarrier g f).twp = d.twp := rfl
@[simp] theorem Device.onCarrier_sg (d : Device) (g : Fin 8) (f : Carrier → Carrier) :
    (d.onCarrier g f).sg = d.sg := rfl
@[simp] theorem Device.onCarrier_pwr (d : Device) (g : Fin 8) (f : Carrier → Carrier) :
    (d.onCarrier g f).pwr = d.pwr := rfl
@[simp] theorem Device.onCarrier_fw (d : Device) (g : Fin 8) (f : Carrier → Carrier) :
    (d.onCarrier g f).fw = d.fw := rfl
@[simp] theorem Device.onCarrier_ocs (d : Device) (g : Fin 8) (f : Carrier → Carrier) :
    (d.onCarrier g f).ocs = d.ocs := rfl
@[simp] theorem Device.onCarrier_er (d : Device) (g : Fin 8) (f : Carrier → Carrier) :
    (d.onCarrier g f).er = d.er := rfl
@[simp] theorem Device.onCarrier_bog (d : Device) (g : Fin 8) (f : Carrier → Carrier) :
    (d.onCarrier g f).bog = d.bog := rfl
@[simp] theorem Device.onCarrier_cap (d : Device) (g : Fin 8) (f : Carrier → Carrier) :
    (d.onCarrier g f).cap = d.cap := rfl
@[simp] theorem Device.onCarrier_draws (d : Device) (g : Fin 8) (f : Carrier → Carrier) :
    (d.onCarrier g f).draws = d.draws := rfl

/-! ### One port's session -/

@[simp] theorem Device.onSession_sys (d : Device) (p : Port) (f : Session → Session) :
    (d.onSession p f).sys = d.sys := rfl
@[simp] theorem Device.onSession_clk (d : Device) (p : Port) (f : Session → Session) :
    (d.onSession p f).clk = d.clk := rfl
@[simp] theorem Device.onSession_pins (d : Device) (p : Port) (f : Session → Session) :
    (d.onSession p f).pins = d.pins := rfl
@[simp] theorem Device.onSession_str (d : Device) (p : Port) (f : Session → Session) :
    (d.onSession p f).str = d.str := rfl
@[simp] theorem Device.onSession_img (d : Device) (p : Port) (f : Session → Session) :
    (d.onSession p f).img = d.img := rfl
@[simp] theorem Device.onSession_lanes (d : Device) (p : Port) (f : Session → Session) :
    (d.onSession p f).lanes = d.lanes := rfl
@[simp] theorem Device.onSession_slots (d : Device) (p : Port) (f : Session → Session) :
    (d.onSession p f).slots = d.slots := rfl
@[simp] theorem Device.onSession_tbi (d : Device) (p : Port) (f : Session → Session) :
    (d.onSession p f).tbi = d.tbi := rfl
@[simp] theorem Device.onSession_phases (d : Device) (p : Port) (f : Session → Session) :
    (d.onSession p f).phases = d.phases := rfl
@[simp] theorem Device.onSession_le (d : Device) (p : Port) (f : Session → Session) :
    (d.onSession p f).le = d.le := rfl
@[simp] theorem Device.onSession_tune (d : Device) (p : Port) (f : Session → Session) :
    (d.onSession p f).tune = d.tune := rfl
@[simp] theorem Device.onSession_rails (d : Device) (p : Port) (f : Session → Session) :
    (d.onSession p f).rails = d.rails := rfl
@[simp] theorem Device.onSession_pm (d : Device) (p : Port) (f : Session → Session) :
    (d.onSession p f).pm = d.pm := rfl
@[simp] theorem Device.onSession_hkt (d : Device) (p : Port) (f : Session → Session) :
    (d.onSession p f).hkt = d.hkt := rfl
@[simp] theorem Device.onSession_hs (d : Device) (p : Port) (f : Session → Session) :
    (d.onSession p f).hs = d.hs := rfl
@[simp] theorem Device.onSession_ring (d : Device) (p : Port) (f : Session → Session) :
    (d.onSession p f).ring = d.ring := rfl
@[simp] theorem Device.onSession_pp (d : Device) (p : Port) (f : Session → Session) :
    (d.onSession p f).pp = d.pp := rfl
@[simp] theorem Device.onSession_hsp (d : Device) (p : Port) (f : Session → Session) :
    (d.onSession p f).hsp = d.hsp := rfl
@[simp] theorem Device.onSession_ports (d : Device) (p : Port) (f : Session → Session) :
    (d.onSession p f).ports = d.ports := rfl
@[simp] theorem Device.onSession_twp (d : Device) (p : Port) (f : Session → Session) :
    (d.onSession p f).twp = d.twp := rfl
@[simp] theorem Device.onSession_sg (d : Device) (p : Port) (f : Session → Session) :
    (d.onSession p f).sg = { d.sg with ports := bankUpd d.sg.ports (portIdx p) f } := rfl
@[simp] theorem Device.onSession_pwr (d : Device) (p : Port) (f : Session → Session) :
    (d.onSession p f).pwr = d.pwr := rfl
@[simp] theorem Device.onSession_fw (d : Device) (p : Port) (f : Session → Session) :
    (d.onSession p f).fw = d.fw := rfl
@[simp] theorem Device.onSession_ocs (d : Device) (p : Port) (f : Session → Session) :
    (d.onSession p f).ocs = d.ocs := rfl
@[simp] theorem Device.onSession_er (d : Device) (p : Port) (f : Session → Session) :
    (d.onSession p f).er = d.er := rfl
@[simp] theorem Device.onSession_bog (d : Device) (p : Port) (f : Session → Session) :
    (d.onSession p f).bog = d.bog := rfl
@[simp] theorem Device.onSession_cap (d : Device) (p : Port) (f : Session → Session) :
    (d.onSession p f).cap = d.cap := rfl
@[simp] theorem Device.onSession_draws (d : Device) (p : Port) (f : Session → Session) :
    (d.onSession p f).draws = d.draws := rfl

/-! ### The two-wire port -/

@[simp] theorem Device.onTwp_sys (d : Device) (f : TwoWire → TwoWire) :
    (d.onTwp f).sys = d.sys := rfl
@[simp] theorem Device.onTwp_clk (d : Device) (f : TwoWire → TwoWire) :
    (d.onTwp f).clk = d.clk := rfl
@[simp] theorem Device.onTwp_pins (d : Device) (f : TwoWire → TwoWire) :
    (d.onTwp f).pins = d.pins := rfl
@[simp] theorem Device.onTwp_str (d : Device) (f : TwoWire → TwoWire) :
    (d.onTwp f).str = d.str := rfl
@[simp] theorem Device.onTwp_img (d : Device) (f : TwoWire → TwoWire) :
    (d.onTwp f).img = d.img := rfl
@[simp] theorem Device.onTwp_lanes (d : Device) (f : TwoWire → TwoWire) :
    (d.onTwp f).lanes = d.lanes := rfl
@[simp] theorem Device.onTwp_slots (d : Device) (f : TwoWire → TwoWire) :
    (d.onTwp f).slots = d.slots := rfl
@[simp] theorem Device.onTwp_tbi (d : Device) (f : TwoWire → TwoWire) :
    (d.onTwp f).tbi = d.tbi := rfl
@[simp] theorem Device.onTwp_phases (d : Device) (f : TwoWire → TwoWire) :
    (d.onTwp f).phases = d.phases := rfl
@[simp] theorem Device.onTwp_le (d : Device) (f : TwoWire → TwoWire) :
    (d.onTwp f).le = d.le := rfl
@[simp] theorem Device.onTwp_tune (d : Device) (f : TwoWire → TwoWire) :
    (d.onTwp f).tune = d.tune := rfl
@[simp] theorem Device.onTwp_rails (d : Device) (f : TwoWire → TwoWire) :
    (d.onTwp f).rails = d.rails := rfl
@[simp] theorem Device.onTwp_pm (d : Device) (f : TwoWire → TwoWire) :
    (d.onTwp f).pm = d.pm := rfl
@[simp] theorem Device.onTwp_hkt (d : Device) (f : TwoWire → TwoWire) :
    (d.onTwp f).hkt = d.hkt := rfl
@[simp] theorem Device.onTwp_hs (d : Device) (f : TwoWire → TwoWire) :
    (d.onTwp f).hs = d.hs := rfl
@[simp] theorem Device.onTwp_ring (d : Device) (f : TwoWire → TwoWire) :
    (d.onTwp f).ring = d.ring := rfl
@[simp] theorem Device.onTwp_pp (d : Device) (f : TwoWire → TwoWire) :
    (d.onTwp f).pp = d.pp := rfl
@[simp] theorem Device.onTwp_hsp (d : Device) (f : TwoWire → TwoWire) :
    (d.onTwp f).hsp = d.hsp := rfl
@[simp] theorem Device.onTwp_ports (d : Device) (f : TwoWire → TwoWire) :
    (d.onTwp f).ports = d.ports := rfl
@[simp] theorem Device.onTwp_twp (d : Device) (f : TwoWire → TwoWire) :
    (d.onTwp f).twp = f d.twp := rfl
@[simp] theorem Device.onTwp_sg (d : Device) (f : TwoWire → TwoWire) :
    (d.onTwp f).sg = d.sg := rfl
@[simp] theorem Device.onTwp_pwr (d : Device) (f : TwoWire → TwoWire) :
    (d.onTwp f).pwr = d.pwr := rfl
@[simp] theorem Device.onTwp_fw (d : Device) (f : TwoWire → TwoWire) :
    (d.onTwp f).fw = d.fw := rfl
@[simp] theorem Device.onTwp_ocs (d : Device) (f : TwoWire → TwoWire) :
    (d.onTwp f).ocs = d.ocs := rfl
@[simp] theorem Device.onTwp_er (d : Device) (f : TwoWire → TwoWire) :
    (d.onTwp f).er = d.er := rfl
@[simp] theorem Device.onTwp_bog (d : Device) (f : TwoWire → TwoWire) :
    (d.onTwp f).bog = d.bog := rfl
@[simp] theorem Device.onTwp_cap (d : Device) (f : TwoWire → TwoWire) :
    (d.onTwp f).cap = d.cap := rfl
@[simp] theorem Device.onTwp_draws (d : Device) (f : TwoWire → TwoWire) :
    (d.onTwp f).draws = d.draws := rfl

/-! ### One polled entry -/

@[simp] theorem Device.onPer_sys (d : Device) (e : Fin 32) (f : PerStatus → PerStatus) :
    (d.onPer e f).sys = d.sys := rfl
@[simp] theorem Device.onPer_clk (d : Device) (e : Fin 32) (f : PerStatus → PerStatus) :
    (d.onPer e f).clk = d.clk := rfl
@[simp] theorem Device.onPer_pins (d : Device) (e : Fin 32) (f : PerStatus → PerStatus) :
    (d.onPer e f).pins = d.pins := rfl
@[simp] theorem Device.onPer_str (d : Device) (e : Fin 32) (f : PerStatus → PerStatus) :
    (d.onPer e f).str = d.str := rfl
@[simp] theorem Device.onPer_img (d : Device) (e : Fin 32) (f : PerStatus → PerStatus) :
    (d.onPer e f).img = d.img := rfl
@[simp] theorem Device.onPer_lanes (d : Device) (e : Fin 32) (f : PerStatus → PerStatus) :
    (d.onPer e f).lanes = d.lanes := rfl
@[simp] theorem Device.onPer_slots (d : Device) (e : Fin 32) (f : PerStatus → PerStatus) :
    (d.onPer e f).slots = d.slots := rfl
@[simp] theorem Device.onPer_tbi (d : Device) (e : Fin 32) (f : PerStatus → PerStatus) :
    (d.onPer e f).tbi = d.tbi := rfl
@[simp] theorem Device.onPer_phases (d : Device) (e : Fin 32) (f : PerStatus → PerStatus) :
    (d.onPer e f).phases = d.phases := rfl
@[simp] theorem Device.onPer_le (d : Device) (e : Fin 32) (f : PerStatus → PerStatus) :
    (d.onPer e f).le = d.le := rfl
@[simp] theorem Device.onPer_tune (d : Device) (e : Fin 32) (f : PerStatus → PerStatus) :
    (d.onPer e f).tune = d.tune := rfl
@[simp] theorem Device.onPer_rails (d : Device) (e : Fin 32) (f : PerStatus → PerStatus) :
    (d.onPer e f).rails = d.rails := rfl
@[simp] theorem Device.onPer_pm (d : Device) (e : Fin 32) (f : PerStatus → PerStatus) :
    (d.onPer e f).pm = d.pm := rfl
@[simp] theorem Device.onPer_hkt (d : Device) (e : Fin 32) (f : PerStatus → PerStatus) :
    (d.onPer e f).hkt = d.hkt := rfl
@[simp] theorem Device.onPer_hs (d : Device) (e : Fin 32) (f : PerStatus → PerStatus) :
    (d.onPer e f).hs = d.hs := rfl
@[simp] theorem Device.onPer_ring (d : Device) (e : Fin 32) (f : PerStatus → PerStatus) :
    (d.onPer e f).ring = d.ring := rfl
@[simp] theorem Device.onPer_pp (d : Device) (e : Fin 32) (f : PerStatus → PerStatus) :
    (d.onPer e f).pp = d.pp := rfl
@[simp] theorem Device.onPer_hsp (d : Device) (e : Fin 32) (f : PerStatus → PerStatus) :
    (d.onPer e f).hsp = d.hsp := rfl
@[simp] theorem Device.onPer_ports (d : Device) (e : Fin 32) (f : PerStatus → PerStatus) :
    (d.onPer e f).ports = d.ports := rfl
@[simp] theorem Device.onPer_twp (d : Device) (e : Fin 32) (f : PerStatus → PerStatus) :
    (d.onPer e f).twp = { d.twp with per := bankUpd d.twp.per e f } := rfl
@[simp] theorem Device.onPer_sg (d : Device) (e : Fin 32) (f : PerStatus → PerStatus) :
    (d.onPer e f).sg = d.sg := rfl
@[simp] theorem Device.onPer_pwr (d : Device) (e : Fin 32) (f : PerStatus → PerStatus) :
    (d.onPer e f).pwr = d.pwr := rfl
@[simp] theorem Device.onPer_fw (d : Device) (e : Fin 32) (f : PerStatus → PerStatus) :
    (d.onPer e f).fw = d.fw := rfl
@[simp] theorem Device.onPer_ocs (d : Device) (e : Fin 32) (f : PerStatus → PerStatus) :
    (d.onPer e f).ocs = d.ocs := rfl
@[simp] theorem Device.onPer_er (d : Device) (e : Fin 32) (f : PerStatus → PerStatus) :
    (d.onPer e f).er = d.er := rfl
@[simp] theorem Device.onPer_bog (d : Device) (e : Fin 32) (f : PerStatus → PerStatus) :
    (d.onPer e f).bog = d.bog := rfl
@[simp] theorem Device.onPer_cap (d : Device) (e : Fin 32) (f : PerStatus → PerStatus) :
    (d.onPer e f).cap = d.cap := rfl
@[simp] theorem Device.onPer_draws (d : Device) (e : Fin 32) (f : PerStatus → PerStatus) :
    (d.onPer e f).draws = d.draws := rfl

/-! ### One access port -/

@[simp] theorem Device.onPort_sys (d : Device) (p : Port) (f : PortState → PortState) :
    (d.onPort p f).sys = d.sys := rfl
@[simp] theorem Device.onPort_clk (d : Device) (p : Port) (f : PortState → PortState) :
    (d.onPort p f).clk = d.clk := rfl
@[simp] theorem Device.onPort_pins (d : Device) (p : Port) (f : PortState → PortState) :
    (d.onPort p f).pins = d.pins := rfl
@[simp] theorem Device.onPort_str (d : Device) (p : Port) (f : PortState → PortState) :
    (d.onPort p f).str = d.str := rfl
@[simp] theorem Device.onPort_img (d : Device) (p : Port) (f : PortState → PortState) :
    (d.onPort p f).img = d.img := rfl
@[simp] theorem Device.onPort_lanes (d : Device) (p : Port) (f : PortState → PortState) :
    (d.onPort p f).lanes = d.lanes := rfl
@[simp] theorem Device.onPort_slots (d : Device) (p : Port) (f : PortState → PortState) :
    (d.onPort p f).slots = d.slots := rfl
@[simp] theorem Device.onPort_tbi (d : Device) (p : Port) (f : PortState → PortState) :
    (d.onPort p f).tbi = d.tbi := rfl
@[simp] theorem Device.onPort_phases (d : Device) (p : Port) (f : PortState → PortState) :
    (d.onPort p f).phases = d.phases := rfl
@[simp] theorem Device.onPort_le (d : Device) (p : Port) (f : PortState → PortState) :
    (d.onPort p f).le = d.le := rfl
@[simp] theorem Device.onPort_tune (d : Device) (p : Port) (f : PortState → PortState) :
    (d.onPort p f).tune = d.tune := rfl
@[simp] theorem Device.onPort_rails (d : Device) (p : Port) (f : PortState → PortState) :
    (d.onPort p f).rails = d.rails := rfl
@[simp] theorem Device.onPort_pm (d : Device) (p : Port) (f : PortState → PortState) :
    (d.onPort p f).pm = d.pm := rfl
@[simp] theorem Device.onPort_hkt (d : Device) (p : Port) (f : PortState → PortState) :
    (d.onPort p f).hkt = d.hkt := rfl
@[simp] theorem Device.onPort_hs (d : Device) (p : Port) (f : PortState → PortState) :
    (d.onPort p f).hs = d.hs := rfl
@[simp] theorem Device.onPort_ring (d : Device) (p : Port) (f : PortState → PortState) :
    (d.onPort p f).ring = d.ring := rfl
@[simp] theorem Device.onPort_pp (d : Device) (p : Port) (f : PortState → PortState) :
    (d.onPort p f).pp = d.pp := rfl
@[simp] theorem Device.onPort_hsp (d : Device) (p : Port) (f : PortState → PortState) :
    (d.onPort p f).hsp = d.hsp := rfl
@[simp] theorem Device.onPort_ports (d : Device) (p : Port) (f : PortState → PortState) :
    (d.onPort p f).ports = bankUpd d.ports (portIdx p) f := rfl
@[simp] theorem Device.onPort_twp (d : Device) (p : Port) (f : PortState → PortState) :
    (d.onPort p f).twp = d.twp := rfl
@[simp] theorem Device.onPort_sg (d : Device) (p : Port) (f : PortState → PortState) :
    (d.onPort p f).sg = d.sg := rfl
@[simp] theorem Device.onPort_pwr (d : Device) (p : Port) (f : PortState → PortState) :
    (d.onPort p f).pwr = d.pwr := rfl
@[simp] theorem Device.onPort_fw (d : Device) (p : Port) (f : PortState → PortState) :
    (d.onPort p f).fw = d.fw := rfl
@[simp] theorem Device.onPort_ocs (d : Device) (p : Port) (f : PortState → PortState) :
    (d.onPort p f).ocs = d.ocs := rfl
@[simp] theorem Device.onPort_er (d : Device) (p : Port) (f : PortState → PortState) :
    (d.onPort p f).er = d.er := rfl
@[simp] theorem Device.onPort_bog (d : Device) (p : Port) (f : PortState → PortState) :
    (d.onPort p f).bog = d.bog := rfl
@[simp] theorem Device.onPort_cap (d : Device) (p : Port) (f : PortState → PortState) :
    (d.onPort p f).cap = d.cap := rfl
@[simp] theorem Device.onPort_draws (d : Device) (p : Port) (f : PortState → PortState) :
    (d.onPort p f).draws = d.draws := rfl

/-! ### One partner bus -/

@[simp] theorem Device.onBus_sys (d : Device) (b : Fin 2) (f : CanBus → CanBus) :
    (d.onBus b f).sys = d.sys := rfl
@[simp] theorem Device.onBus_clk (d : Device) (b : Fin 2) (f : CanBus → CanBus) :
    (d.onBus b f).clk = d.clk := rfl
@[simp] theorem Device.onBus_pins (d : Device) (b : Fin 2) (f : CanBus → CanBus) :
    (d.onBus b f).pins = d.pins := rfl
@[simp] theorem Device.onBus_str (d : Device) (b : Fin 2) (f : CanBus → CanBus) :
    (d.onBus b f).str = d.str := rfl
@[simp] theorem Device.onBus_img (d : Device) (b : Fin 2) (f : CanBus → CanBus) :
    (d.onBus b f).img = d.img := rfl
@[simp] theorem Device.onBus_lanes (d : Device) (b : Fin 2) (f : CanBus → CanBus) :
    (d.onBus b f).lanes = d.lanes := rfl
@[simp] theorem Device.onBus_slots (d : Device) (b : Fin 2) (f : CanBus → CanBus) :
    (d.onBus b f).slots = d.slots := rfl
@[simp] theorem Device.onBus_tbi (d : Device) (b : Fin 2) (f : CanBus → CanBus) :
    (d.onBus b f).tbi = d.tbi := rfl
@[simp] theorem Device.onBus_phases (d : Device) (b : Fin 2) (f : CanBus → CanBus) :
    (d.onBus b f).phases = d.phases := rfl
@[simp] theorem Device.onBus_le (d : Device) (b : Fin 2) (f : CanBus → CanBus) :
    (d.onBus b f).le = d.le := rfl
@[simp] theorem Device.onBus_tune (d : Device) (b : Fin 2) (f : CanBus → CanBus) :
    (d.onBus b f).tune = d.tune := rfl
@[simp] theorem Device.onBus_rails (d : Device) (b : Fin 2) (f : CanBus → CanBus) :
    (d.onBus b f).rails = d.rails := rfl
@[simp] theorem Device.onBus_pm (d : Device) (b : Fin 2) (f : CanBus → CanBus) :
    (d.onBus b f).pm = d.pm := rfl
@[simp] theorem Device.onBus_hkt (d : Device) (b : Fin 2) (f : CanBus → CanBus) :
    (d.onBus b f).hkt = d.hkt := rfl
@[simp] theorem Device.onBus_hs (d : Device) (b : Fin 2) (f : CanBus → CanBus) :
    (d.onBus b f).hs = d.hs := rfl
@[simp] theorem Device.onBus_ring (d : Device) (b : Fin 2) (f : CanBus → CanBus) :
    (d.onBus b f).ring = d.ring := rfl
@[simp] theorem Device.onBus_pp (d : Device) (b : Fin 2) (f : CanBus → CanBus) :
    (d.onBus b f).pp = { d.pp with buses := bankUpd d.pp.buses b f } := rfl
@[simp] theorem Device.onBus_hsp (d : Device) (b : Fin 2) (f : CanBus → CanBus) :
    (d.onBus b f).hsp = d.hsp := rfl
@[simp] theorem Device.onBus_ports (d : Device) (b : Fin 2) (f : CanBus → CanBus) :
    (d.onBus b f).ports = d.ports := rfl
@[simp] theorem Device.onBus_twp (d : Device) (b : Fin 2) (f : CanBus → CanBus) :
    (d.onBus b f).twp = d.twp := rfl
@[simp] theorem Device.onBus_sg (d : Device) (b : Fin 2) (f : CanBus → CanBus) :
    (d.onBus b f).sg = d.sg := rfl
@[simp] theorem Device.onBus_pwr (d : Device) (b : Fin 2) (f : CanBus → CanBus) :
    (d.onBus b f).pwr = d.pwr := rfl
@[simp] theorem Device.onBus_fw (d : Device) (b : Fin 2) (f : CanBus → CanBus) :
    (d.onBus b f).fw = d.fw := rfl
@[simp] theorem Device.onBus_ocs (d : Device) (b : Fin 2) (f : CanBus → CanBus) :
    (d.onBus b f).ocs = d.ocs := rfl
@[simp] theorem Device.onBus_er (d : Device) (b : Fin 2) (f : CanBus → CanBus) :
    (d.onBus b f).er = d.er := rfl
@[simp] theorem Device.onBus_bog (d : Device) (b : Fin 2) (f : CanBus → CanBus) :
    (d.onBus b f).bog = d.bog := rfl
@[simp] theorem Device.onBus_cap (d : Device) (b : Fin 2) (f : CanBus → CanBus) :
    (d.onBus b f).cap = d.cap := rfl
@[simp] theorem Device.onBus_draws (d : Device) (b : Fin 2) (f : CanBus → CanBus) :
    (d.onBus b f).draws = d.draws := rfl

/-! ### One partner handle -/

@[simp] theorem Device.onPartner_sys (d : Device) (h : Fin 256) (f : Partner → Partner) :
    (d.onPartner h f).sys = d.sys := rfl
@[simp] theorem Device.onPartner_clk (d : Device) (h : Fin 256) (f : Partner → Partner) :
    (d.onPartner h f).clk = d.clk := rfl
@[simp] theorem Device.onPartner_pins (d : Device) (h : Fin 256) (f : Partner → Partner) :
    (d.onPartner h f).pins = d.pins := rfl
@[simp] theorem Device.onPartner_str (d : Device) (h : Fin 256) (f : Partner → Partner) :
    (d.onPartner h f).str = d.str := rfl
@[simp] theorem Device.onPartner_img (d : Device) (h : Fin 256) (f : Partner → Partner) :
    (d.onPartner h f).img = d.img := rfl
@[simp] theorem Device.onPartner_lanes (d : Device) (h : Fin 256) (f : Partner → Partner) :
    (d.onPartner h f).lanes = d.lanes := rfl
@[simp] theorem Device.onPartner_slots (d : Device) (h : Fin 256) (f : Partner → Partner) :
    (d.onPartner h f).slots = d.slots := rfl
@[simp] theorem Device.onPartner_tbi (d : Device) (h : Fin 256) (f : Partner → Partner) :
    (d.onPartner h f).tbi = d.tbi := rfl
@[simp] theorem Device.onPartner_phases (d : Device) (h : Fin 256) (f : Partner → Partner) :
    (d.onPartner h f).phases = d.phases := rfl
@[simp] theorem Device.onPartner_le (d : Device) (h : Fin 256) (f : Partner → Partner) :
    (d.onPartner h f).le = d.le := rfl
@[simp] theorem Device.onPartner_tune (d : Device) (h : Fin 256) (f : Partner → Partner) :
    (d.onPartner h f).tune = d.tune := rfl
@[simp] theorem Device.onPartner_rails (d : Device) (h : Fin 256) (f : Partner → Partner) :
    (d.onPartner h f).rails = d.rails := rfl
@[simp] theorem Device.onPartner_pm (d : Device) (h : Fin 256) (f : Partner → Partner) :
    (d.onPartner h f).pm = d.pm := rfl
@[simp] theorem Device.onPartner_hkt (d : Device) (h : Fin 256) (f : Partner → Partner) :
    (d.onPartner h f).hkt = d.hkt := rfl
@[simp] theorem Device.onPartner_hs (d : Device) (h : Fin 256) (f : Partner → Partner) :
    (d.onPartner h f).hs = d.hs := rfl
@[simp] theorem Device.onPartner_ring (d : Device) (h : Fin 256) (f : Partner → Partner) :
    (d.onPartner h f).ring = d.ring := rfl
@[simp] theorem Device.onPartner_pp (d : Device) (h : Fin 256) (f : Partner → Partner) :
    (d.onPartner h f).pp = { d.pp with partners := bankUpd d.pp.partners h f } := rfl
@[simp] theorem Device.onPartner_hsp (d : Device) (h : Fin 256) (f : Partner → Partner) :
    (d.onPartner h f).hsp = d.hsp := rfl
@[simp] theorem Device.onPartner_ports (d : Device) (h : Fin 256) (f : Partner → Partner) :
    (d.onPartner h f).ports = d.ports := rfl
@[simp] theorem Device.onPartner_twp (d : Device) (h : Fin 256) (f : Partner → Partner) :
    (d.onPartner h f).twp = d.twp := rfl
@[simp] theorem Device.onPartner_sg (d : Device) (h : Fin 256) (f : Partner → Partner) :
    (d.onPartner h f).sg = d.sg := rfl
@[simp] theorem Device.onPartner_pwr (d : Device) (h : Fin 256) (f : Partner → Partner) :
    (d.onPartner h f).pwr = d.pwr := rfl
@[simp] theorem Device.onPartner_fw (d : Device) (h : Fin 256) (f : Partner → Partner) :
    (d.onPartner h f).fw = d.fw := rfl
@[simp] theorem Device.onPartner_ocs (d : Device) (h : Fin 256) (f : Partner → Partner) :
    (d.onPartner h f).ocs = d.ocs := rfl
@[simp] theorem Device.onPartner_er (d : Device) (h : Fin 256) (f : Partner → Partner) :
    (d.onPartner h f).er = d.er := rfl
@[simp] theorem Device.onPartner_bog (d : Device) (h : Fin 256) (f : Partner → Partner) :
    (d.onPartner h f).bog = d.bog := rfl
@[simp] theorem Device.onPartner_cap (d : Device) (h : Fin 256) (f : Partner → Partner) :
    (d.onPartner h f).cap = d.cap := rfl
@[simp] theorem Device.onPartner_draws (d : Device) (h : Fin 256) (f : Partner → Partner) :
    (d.onPartner h f).draws = d.draws := rfl

/-! ### Reading a part after an update of it -/

@[simp] theorem Device.onLane_lane (d : Device) (n : Fin 64) (f : Lane → Lane) : (d.onLane n f).lane n = f (d.lane n) := by
  simp [Device.lane]
theorem Device.onLane_lane_other (d : Device) {n m : Fin 64} (f : Lane → Lane) (h : n ≠ m) :
    (d.onLane n f).lane m = d.lane m := bankGet_bankUpd_other _ f h
@[simp] theorem Device.onSlot_slot (d : Device) (g : Fin 512) (f : Slot → Slot) : (d.onSlot g f).slot g = f (d.slot g) := by
  simp [Device.slot]
theorem Device.onSlot_slot_other (d : Device) {g k : Fin 512} (f : Slot → Slot) (h : g ≠ k) :
    (d.onSlot g f).slot k = d.slot k := bankGet_bankUpd_other _ f h
@[simp] theorem Device.onPhase_phase (d : Device) (g : Fin 512) (f : Phase → Phase) :
    (d.onPhase g f).phase g = f (d.phase g) := by simp [Device.phase]
theorem Device.onPhase_phase_other (d : Device) {g k : Fin 512} (f : Phase → Phase) (h : g ≠ k) :
    (d.onPhase g f).phase k = d.phase k := bankGet_bankUpd_other _ f h
@[simp] theorem Device.onRail_rail (d : Device) (r : Fin 64) (f : Rail → Rail) : (d.onRail r f).rail r = f (d.rail r) := by
  simp [Device.rail]
theorem Device.onRail_rail_other (d : Device) {r k : Fin 64} (f : Rail → Rail) (h : r ≠ k) :
    (d.onRail r f).rail k = d.rail k := bankGet_bankUpd_other _ f h
@[simp] theorem Device.onLoop_loop (d : Device) (r : Fin 64) (f : LoopSt → LoopSt) : (d.onLoop r f).loop r = f (d.loop r) := by
  simp [Device.loop]
theorem Device.onLoop_loop_other (d : Device) {r k : Fin 64} (f : LoopSt → LoopSt) (h : r ≠ k) :
    (d.onLoop r f).loop k = d.loop k := bankGet_bankUpd_other _ f h
@[simp] theorem Device.onPort_port (d : Device) (p : Port) (f : PortState → PortState) : (d.onPort p f).port p = f (d.port p) := by
  simp [Device.port]
@[simp] theorem Device.onSession_session (d : Device) (p : Port) (f : Session → Session) :
    (d.onSession p f).session p = f (d.session p) := by simp [Device.session]

/-! ### An update of one part leaves the other parts' reads alone -/

@[simp] theorem Device.onLane_slot (d : Device) (n : Fin 64) (f : Lane → Lane) (g : Fin 512) :
    (d.onLane n f).slot g = d.slot g := rfl
@[simp] theorem Device.onLane_phase (d : Device) (n : Fin 64) (f : Lane → Lane) (g : Fin 512) :
    (d.onLane n f).phase g = d.phase g := rfl
@[simp] theorem Device.onSlot_lane (d : Device) (g : Fin 512) (f : Slot → Slot) (n : Fin 64) :
    (d.onSlot g f).lane n = d.lane n := rfl
@[simp] theorem Device.onSlot_phase (d : Device) (g : Fin 512) (f : Slot → Slot) (k : Fin 512) :
    (d.onSlot g f).phase k = d.phase k := rfl
@[simp] theorem Device.onPhase_slot (d : Device) (g : Fin 512) (f : Phase → Phase) (k : Fin 512) :
    (d.onPhase g f).slot k = d.slot k := rfl
@[simp] theorem Device.onPhase_lane (d : Device) (g : Fin 512) (f : Phase → Phase) (n : Fin 64) :
    (d.onPhase g f).lane n = d.lane n := rfl
@[simp] theorem Device.onRail_sect (d : Device) (r k : Fin 64) (f : Rail → Rail) : (d.onRail r f).sect k = d.sect k := rfl
@[simp] theorem Device.onRail_loop (d : Device) (r k : Fin 64) (f : Rail → Rail) : (d.onRail r f).loop k = d.loop k := rfl
@[simp] theorem Device.onLoop_rail (d : Device) (r k : Fin 64) (f : LoopSt → LoopSt) : (d.onLoop r f).rail k = d.rail k := rfl
@[simp] theorem Device.onLoop_sect (d : Device) (r k : Fin 64) (f : LoopSt → LoopSt) : (d.onLoop r f).sect k = d.sect k := rfl

end Sys2Proof.Machine
end

