-- ==== Sys2Proof/Laws/Access.lean ====
section
/-! SUPPORT. The laws of an access: what the access itself does to its port (R9, R353), that it changes no right, and what the
write of one word does in each of its cases (R45, R48, R317). -/

namespace Sys2Proof.Machine

/-! ### The access itself changes the port's idle time and holds alone -/

@[simp] theorem touch_sys (tm : TimeBase) (src : Src) (d : Device) : (touch tm src d).sys = d.sys := by
  cases src with
  | sup => rfl
  | port p => unfold touch; dsimp only; split <;> rfl
@[simp] theorem touch_clk (tm : TimeBase) (src : Src) (d : Device) : (touch tm src d).clk = d.clk := by
  cases src with
  | sup => rfl
  | port p => unfold touch; dsimp only; split <;> rfl
@[simp] theorem touch_pins (tm : TimeBase) (src : Src) (d : Device) : (touch tm src d).pins = d.pins := by
  cases src with
  | sup => rfl
  | port p => unfold touch; dsimp only; split <;> rfl
@[simp] theorem touch_str (tm : TimeBase) (src : Src) (d : Device) : (touch tm src d).str = d.str := by
  cases src with
  | sup => rfl
  | port p => unfold touch; dsimp only; split <;> rfl
@[simp] theorem touch_img (tm : TimeBase) (src : Src) (d : Device) : (touch tm src d).img = d.img := by
  cases src with
  | sup => rfl
  | port p => unfold touch; dsimp only; split <;> rfl
@[simp] theorem touch_lanes (tm : TimeBase) (src : Src) (d : Device) : (touch tm src d).lanes = d.lanes := by
  cases src with
  | sup => rfl
  | port p => unfold touch; dsimp only; split <;> rfl
@[simp] theorem touch_slots (tm : TimeBase) (src : Src) (d : Device) : (touch tm src d).slots = d.slots := by
  cases src with
  | sup => rfl
  | port p => unfold touch; dsimp only; split <;> rfl
@[simp] theorem touch_tbi (tm : TimeBase) (src : Src) (d : Device) : (touch tm src d).tbi = d.tbi := by
  cases src with
  | sup => rfl
  | port p => unfold touch; dsimp only; split <;> rfl
@[simp] theorem touch_phases (tm : TimeBase) (src : Src) (d : Device) : (touch tm src d).phases = d.phases := by
  cases src with
  | sup => rfl
  | port p => unfold touch; dsimp only; split <;> rfl
@[simp] theorem touch_le (tm : TimeBase) (src : Src) (d : Device) : (touch tm src d).le = d.le := by
  cases src with
  | sup => rfl
  | port p => unfold touch; dsimp only; split <;> rfl
@[simp] theorem touch_tune (tm : TimeBase) (src : Src) (d : Device) : (touch tm src d).tune = d.tune := by
  cases src with
  | sup => rfl
  | port p => unfold touch; dsimp only; split <;> rfl
@[simp] theorem touch_rails (tm : TimeBase) (src : Src) (d : Device) : (touch tm src d).rails = d.rails := by
  cases src with
  | sup => rfl
  | port p => unfold touch; dsimp only; split <;> rfl
@[simp] theorem touch_pm (tm : TimeBase) (src : Src) (d : Device) : (touch tm src d).pm = d.pm := by
  cases src with
  | sup => rfl
  | port p => unfold touch; dsimp only; split <;> rfl
@[simp] theorem touch_hkt (tm : TimeBase) (src : Src) (d : Device) : (touch tm src d).hkt = d.hkt := by
  cases src with
  | sup => rfl
  | port p => unfold touch; dsimp only; split <;> rfl
@[simp] theorem touch_hs (tm : TimeBase) (src : Src) (d : Device) : (touch tm src d).hs = d.hs := by
  cases src with
  | sup => rfl
  | port p => unfold touch; dsimp only; split <;> rfl
@[simp] theorem touch_ring (tm : TimeBase) (src : Src) (d : Device) : (touch tm src d).ring = d.ring := by
  cases src with
  | sup => rfl
  | port p => unfold touch; dsimp only; split <;> rfl
@[simp] theorem touch_pp (tm : TimeBase) (src : Src) (d : Device) : (touch tm src d).pp = d.pp := by
  cases src with
  | sup => rfl
  | port p => unfold touch; dsimp only; split <;> rfl
@[simp] theorem touch_hsp (tm : TimeBase) (src : Src) (d : Device) : (touch tm src d).hsp = d.hsp := by
  cases src with
  | sup => rfl
  | port p => unfold touch; dsimp only; split <;> rfl
@[simp] theorem touch_twp (tm : TimeBase) (src : Src) (d : Device) : (touch tm src d).twp = d.twp := by
  cases src with
  | sup => rfl
  | port p => unfold touch; dsimp only; split <;> rfl
@[simp] theorem touch_pwr (tm : TimeBase) (src : Src) (d : Device) : (touch tm src d).pwr = d.pwr := by
  cases src with
  | sup => rfl
  | port p => unfold touch; dsimp only; split <;> rfl
@[simp] theorem touch_fw (tm : TimeBase) (src : Src) (d : Device) : (touch tm src d).fw = d.fw := by
  cases src with
  | sup => rfl
  | port p => unfold touch; dsimp only; split <;> rfl
@[simp] theorem touch_ocs (tm : TimeBase) (src : Src) (d : Device) : (touch tm src d).ocs = d.ocs := by
  cases src with
  | sup => rfl
  | port p => unfold touch; dsimp only; split <;> rfl
@[simp] theorem touch_er (tm : TimeBase) (src : Src) (d : Device) : (touch tm src d).er = d.er := by
  cases src with
  | sup => rfl
  | port p => unfold touch; dsimp only; split <;> rfl
@[simp] theorem touch_bog (tm : TimeBase) (src : Src) (d : Device) : (touch tm src d).bog = d.bog := by
  cases src with
  | sup => rfl
  | port p => unfold touch; dsimp only; split <;> rfl
@[simp] theorem touch_cap (tm : TimeBase) (src : Src) (d : Device) : (touch tm src d).cap = d.cap := by
  cases src with
  | sup => rfl
  | port p => unfold touch; dsimp only; split <;> rfl
@[simp] theorem touch_draws (tm : TimeBase) (src : Src) (d : Device) : (touch tm src d).draws = d.draws := by
  cases src with
  | sup => rfl
  | port p => unfold touch; dsimp only; split <;> rfl

@[simp] theorem touch_lane (tm : TimeBase) (src : Src) (d : Device) (n : Fin 64) : (touch tm src d).lane n = d.lane n := by
  simp [Device.lane]
@[simp] theorem touch_slot (tm : TimeBase) (src : Src) (d : Device) (g : Fin 512) : (touch tm src d).slot g = d.slot g := by
  simp [Device.slot]
@[simp] theorem touch_phase (tm : TimeBase) (src : Src) (d : Device) (g : Fin 512) : (touch tm src d).phase g = d.phase g := by
  simp [Device.phase]
@[simp] theorem touch_rail (tm : TimeBase) (src : Src) (d : Device) (r : Fin 64) : (touch tm src d).rail r = d.rail r := by
  simp [Device.rail]
@[simp] theorem touch_loop (tm : TimeBase) (src : Src) (d : Device) (r : Fin 64) : (touch tm src d).loop r = d.loop r := by
  simp [Device.loop]
@[simp] theorem touch_sect (tm : TimeBase) (src : Src) (d : Device) (r : Fin 64) : (touch tm src d).sect r = d.sect r := by
  simp [Device.sect]

/-- An access leaves every session's state and level as they are. -/
theorem touch_session (tm : TimeBase) (src : Src) (d : Device) (p : Fin 3) :
    (bankGet (touch tm src d).sg.ports p).state = (bankGet d.sg.ports p).state ∧
    (bankGet (touch tm src d).sg.ports p).level = (bankGet d.sg.ports p).level := by
  cases src with
  | sup => exact ⟨rfl, rfl⟩
  | port q =>
    unfold touch; dsimp only
    split
    · exact ⟨rfl, rfl⟩
    · by_cases h : portIdx q = p
      · subst h; simp
      · simp [bankGet_bankUpd_other _ _ h]

/-- An access leaves the rest of the session guard as it is. -/
theorem touch_sg (tm : TimeBase) (src : Src) (d : Device) :
    ∃ ports, (touch tm src d).sg = { d.sg with ports := ports } := by
  cases src with
  | sup => exact ⟨d.sg.ports, rfl⟩
  | port q =>
    unfold touch; dsimp only
    split
    · exact ⟨d.sg.ports, rfl⟩
    · exact ⟨_, rfl⟩

@[simp] theorem touch_lc (tm : TimeBase) (src : Src) (d : Device) : (touch tm src d).sg.lc = d.sg.lc := by
  obtain ⟨p, h⟩ := touch_sg tm src d; rw [h]
@[simp] theorem touch_auth (tm : TimeBase) (src : Src) (d : Device) : (touch tm src d).sg.auth = d.sg.auth := by
  obtain ⟨p, h⟩ := touch_sg tm src d; rw [h]
@[simp] theorem touch_bscan (tm : TimeBase) (src : Src) (d : Device) : (touch tm src d).sg.bscan = d.sg.bscan := by
  obtain ⟨p, h⟩ := touch_sg tm src d; rw [h]
@[simp] theorem touch_sgbusy (tm : TimeBase) (src : Src) (d : Device) : (touch tm src d).sg.busy = d.sg.busy := by
  obtain ⟨p, h⟩ := touch_sg tm src d; rw [h]
@[simp] theorem touch_keys (tm : TimeBase) (src : Src) (d : Device) : (touch tm src d).sg.keys = d.sg.keys := by
  obtain ⟨p, h⟩ := touch_sg tm src d; rw [h]

@[simp] theorem answers_touch (tm : TimeBase) (src : Src) (d : Device) : answers (touch tm src d) = answers d := by
  simp [answers]

@[simp] theorem reaches_touch (tm : TimeBase) (src k : Src) (d : Device) : reaches (touch tm src d) k = reaches d k := by
  cases k with
  | sup => rfl
  | port p => cases p <;> simp [reaches]

@[simp] theorem srcLevel_touch (tm : TimeBase) (src k : Src) (d : Device) : srcLevel (touch tm src d) k = srcLevel d k := by
  cases k with
  | sup => rfl
  | port p =>
    have h := touch_session tm src d (portIdx p)
    simp [srcLevel, h.1, h.2]

/-- An access changes no right (R318). -/
@[simp] theorem may_touch (tm : TimeBase) (src k : Src) (l : Level) (d : Device) : may (touch tm src d) k l = may d k l := by
  simp [may]

@[simp] theorem mayEarly_touch (tm : TimeBase) (src k : Src) (l : Level) (d : Device) :
    mayEarly (touch tm src d) k l = mayEarly d k l := by simp [mayEarly]

@[simp] theorem lifeAllows_touch (tm : TimeBase) (src : Src) (d : Device) : lifeAllows (touch tm src d) = lifeAllows d := by
  simp [lifeAllows]

@[simp] theorem quadUp_touch (tm : TimeBase) (src : Src) (d : Device) (q : Fin 4) : quadUp (touch tm src d) q = quadUp d q := by
  simp [quadUp]

/-! ### The write of one word begins and ends -/

@[simp] theorem rowStarts_tm (src : Src) (a : Addr) (s : State) : (rowStarts src a s).tm = s.tm := by
  cases src <;> rfl
@[simp] theorem rowStarts_nv (src : Src) (a : Addr) (s : State) : (rowStarts src a s).nv = s.nv := by
  cases src <;> rfl
@[simp] theorem rowStarts_pending (src : Src) (a : Addr) (s : State) : (rowStarts src a s).pending = s.pending := by
  cases src <;> rfl
@[simp] theorem rowStarts_sys (src : Src) (a : Addr) (s : State) : (rowStarts src a s).dev.sys = s.dev.sys := by
  cases src with
  | sup => rfl
  | port p => cases p <;> simp [rowStarts, wordStarts, targetStarts, settleAlert, State.onDev, Device.onPort, Device.onTwp]
@[simp] theorem rowStarts_clk (src : Src) (a : Addr) (s : State) : (rowStarts src a s).dev.clk = s.dev.clk := by
  cases src with
  | sup => rfl
  | port p => cases p <;> simp [rowStarts, wordStarts, targetStarts, settleAlert, State.onDev, Device.onPort, Device.onTwp]
@[simp] theorem rowStarts_pins (src : Src) (a : Addr) (s : State) : (rowStarts src a s).dev.pins = s.dev.pins := by
  cases src with
  | sup => rfl
  | port p => cases p <;> simp [rowStarts, wordStarts, targetStarts, settleAlert, State.onDev, Device.onPort, Device.onTwp]
@[simp] theorem rowStarts_str (src : Src) (a : Addr) (s : State) : (rowStarts src a s).dev.str = s.dev.str := by
  cases src with
  | sup => rfl
  | port p => cases p <;> simp [rowStarts, wordStarts, targetStarts, settleAlert, State.onDev, Device.onPort, Device.onTwp]
@[simp] theorem rowStarts_img (src : Src) (a : Addr) (s : State) : (rowStarts src a s).dev.img = s.dev.img := by
  cases src with
  | sup => rfl
  | port p => cases p <;> simp [rowStarts, wordStarts, targetStarts, settleAlert, State.onDev, Device.onPort, Device.onTwp]
@[simp] theorem rowStarts_lanes (src : Src) (a : Addr) (s : State) : (rowStarts src a s).dev.lanes = s.dev.lanes := by
  cases src with
  | sup => rfl
  | port p => cases p <;> simp [rowStarts, wordStarts, targetStarts, settleAlert, State.onDev, Device.onPort, Device.onTwp]
@[simp] theorem rowStarts_slots (src : Src) (a : Addr) (s : State) : (rowStarts src a s).dev.slots = s.dev.slots := by
  cases src with
  | sup => rfl
  | port p => cases p <;> simp [rowStarts, wordStarts, targetStarts, settleAlert, State.onDev, Device.onPort, Device.onTwp]
@[simp] theorem rowStarts_phases (src : Src) (a : Addr) (s : State) : (rowStarts src a s).dev.phases = s.dev.phases := by
  cases src with
  | sup => rfl
  | port p => cases p <;> simp [rowStarts, wordStarts, targetStarts, settleAlert, State.onDev, Device.onPort, Device.onTwp]
@[simp] theorem rowStarts_tbi (src : Src) (a : Addr) (s : State) : (rowStarts src a s).dev.tbi = s.dev.tbi := by
  cases src with
  | sup => rfl
  | port p => cases p <;> simp [rowStarts, wordStarts, targetStarts, settleAlert, State.onDev, Device.onPort, Device.onTwp]
@[simp] theorem rowStarts_le (src : Src) (a : Addr) (s : State) : (rowStarts src a s).dev.le = s.dev.le := by
  cases src with
  | sup => rfl
  | port p => cases p <;> simp [rowStarts, wordStarts, targetStarts, settleAlert, State.onDev, Device.onPort, Device.onTwp]
@[simp] theorem rowStarts_tune (src : Src) (a : Addr) (s : State) : (rowStarts src a s).dev.tune = s.dev.tune := by
  cases src with
  | sup => rfl
  | port p => cases p <;> simp [rowStarts, wordStarts, targetStarts, settleAlert, State.onDev, Device.onPort, Device.onTwp]
@[simp] theorem rowStarts_rails (src : Src) (a : Addr) (s : State) : (rowStarts src a s).dev.rails = s.dev.rails := by
  cases src with
  | sup => rfl
  | port p => cases p <;> simp [rowStarts, wordStarts, targetStarts, settleAlert, State.onDev, Device.onPort, Device.onTwp]
@[simp] theorem rowStarts_pm (src : Src) (a : Addr) (s : State) : (rowStarts src a s).dev.pm = s.dev.pm := by
  cases src with
  | sup => rfl
  | port p => cases p <;> simp [rowStarts, wordStarts, targetStarts, settleAlert, State.onDev, Device.onPort, Device.onTwp]
@[simp] theorem rowStarts_hkt (src : Src) (a : Addr) (s : State) : (rowStarts src a s).dev.hkt = s.dev.hkt := by
  cases src with
  | sup => rfl
  | port p => cases p <;> simp [rowStarts, wordStarts, targetStarts, settleAlert, State.onDev, Device.onPort, Device.onTwp]
@[simp] theorem rowStarts_hs (src : Src) (a : Addr) (s : State) : (rowStarts src a s).dev.hs = s.dev.hs := by
  cases src with
  | sup => rfl
  | port p => cases p <;> simp [rowStarts, wordStarts, targetStarts, settleAlert, State.onDev, Device.onPort, Device.onTwp]
@[simp] theorem rowStarts_ring (src : Src) (a : Addr) (s : State) : (rowStarts src a s).dev.ring = s.dev.ring := by
  cases src with
  | sup => rfl
  | port p => cases p <;> simp [rowStarts, wordStarts, targetStarts, settleAlert, State.onDev, Device.onPort, Device.onTwp]
@[simp] theorem rowStarts_pp (src : Src) (a : Addr) (s : State) : (rowStarts src a s).dev.pp = s.dev.pp := by
  cases src with
  | sup => rfl
  | port p => cases p <;> simp [rowStarts, wordStarts, targetStarts, settleAlert, State.onDev, Device.onPort, Device.onTwp]
@[simp] theorem rowStarts_pwr (src : Src) (a : Addr) (s : State) : (rowStarts src a s).dev.pwr = s.dev.pwr := by
  cases src with
  | sup => rfl
  | port p => cases p <;> simp [rowStarts, wordStarts, targetStarts, settleAlert, State.onDev, Device.onPort, Device.onTwp]
@[simp] theorem rowStarts_fw (src : Src) (a : Addr) (s : State) : (rowStarts src a s).dev.fw = s.dev.fw := by
  cases src with
  | sup => rfl
  | port p => cases p <;> simp [rowStarts, wordStarts, targetStarts, settleAlert, State.onDev, Device.onPort, Device.onTwp]
@[simp] theorem rowStarts_ocs (src : Src) (a : Addr) (s : State) : (rowStarts src a s).dev.ocs = s.dev.ocs := by
  cases src with
  | sup => rfl
  | port p => cases p <;> simp [rowStarts, wordStarts, targetStarts, settleAlert, State.onDev, Device.onPort, Device.onTwp]
@[simp] theorem rowStarts_er (src : Src) (a : Addr) (s : State) : (rowStarts src a s).dev.er = s.dev.er := by
  cases src with
  | sup => rfl
  | port p => cases p <;> simp [rowStarts, wordStarts, targetStarts, settleAlert, State.onDev, Device.onPort, Device.onTwp]
@[simp] theorem rowStarts_bog (src : Src) (a : Addr) (s : State) : (rowStarts src a s).dev.bog = s.dev.bog := by
  cases src with
  | sup => rfl
  | port p => cases p <;> simp [rowStarts, wordStarts, targetStarts, settleAlert, State.onDev, Device.onPort, Device.onTwp]
@[simp] theorem rowStarts_cap (src : Src) (a : Addr) (s : State) : (rowStarts src a s).dev.cap = s.dev.cap := by
  cases src with
  | sup => rfl
  | port p => cases p <;> simp [rowStarts, wordStarts, targetStarts, settleAlert, State.onDev, Device.onPort, Device.onTwp]
@[simp] theorem rowStarts_draws (src : Src) (a : Addr) (s : State) : (rowStarts src a s).dev.draws = s.dev.draws := by
  cases src with
  | sup => rfl
  | port p => cases p <;> simp [rowStarts, wordStarts, targetStarts, settleAlert, State.onDev, Device.onPort, Device.onTwp]

/-- The beginning of a write leaves the session guard as it is, but for the time of the port's last access. -/
theorem rowStarts_sg (src : Src) (a : Addr) (s : State) : ∃ ports, (rowStarts src a s).dev.sg = { s.dev.sg with ports := ports } := by
  cases src with
  | sup => exact ⟨s.dev.sg.ports, rfl⟩
  | port p =>
    obtain ⟨q, h⟩ := touch_sg s.tm (.port p)
      (settleAlert ((wordStarts p a true s.dev).onPort p fun y => { y with pending := some (wordAccess p s.dev) }))
    exact ⟨q, by cases p <;> simpa [rowStarts, wordStarts, targetStarts, settleAlert, State.onDev, Device.onPort, Device.onTwp] using h⟩

@[simp] theorem rowStarts_lc (src : Src) (a : Addr) (s : State) : (rowStarts src a s).dev.sg.lc = s.dev.sg.lc := by
  obtain ⟨q, h⟩ := rowStarts_sg src a s; rw [h]
@[simp] theorem rowStarts_auth (src : Src) (a : Addr) (s : State) : (rowStarts src a s).dev.sg.auth = s.dev.sg.auth := by
  obtain ⟨q, h⟩ := rowStarts_sg src a s; rw [h]
@[simp] theorem rowStarts_bscan (src : Src) (a : Addr) (s : State) : (rowStarts src a s).dev.sg.bscan = s.dev.sg.bscan := by
  obtain ⟨q, h⟩ := rowStarts_sg src a s; rw [h]

@[simp] theorem rowStarts_answers (src : Src) (a : Addr) (s : State) : answers (rowStarts src a s).dev = answers s.dev := by
  simp [answers]

@[simp] theorem rowStarts_reaches (src k : Src) (a : Addr) (s : State) : reaches (rowStarts src a s).dev k = reaches s.dev k := by
  cases k with
  | sup => rfl
  | port p => cases p <;> simp [reaches]

/-- The beginning of a write leaves every session's state and level as they are. -/
theorem rowStarts_session (src : Src) (a : Addr) (s : State) (p : Fin 3) :
    (bankGet (rowStarts src a s).dev.sg.ports p).state = (bankGet s.dev.sg.ports p).state ∧
    (bankGet (rowStarts src a s).dev.sg.ports p).level = (bankGet s.dev.sg.ports p).level := by
  cases src with
  | sup => exact ⟨rfl, rfl⟩
  | port q =>
    have h := touch_session s.tm (.port q)
      (settleAlert ((wordStarts q a true s.dev).onPort q fun y => { y with pending := some (wordAccess q s.dev) })) p
    cases q <;> simpa [rowStarts, wordStarts, targetStarts, settleAlert, State.onDev, Device.onPort, Device.onTwp] using h

@[simp] theorem rowStarts_srcLevel (src k : Src) (a : Addr) (s : State) : srcLevel (rowStarts src a s).dev k = srcLevel s.dev k := by
  cases k with
  | sup => rfl
  | port p =>
    have h := rowStarts_session src a s (portIdx p)
    simp [srcLevel, h.1, h.2]

/-- The beginning of a write changes no right (R318). -/
@[simp] theorem rowStarts_may (src k : Src) (l : Level) (a : Addr) (s : State) :
    may (rowStarts src a s).dev k l = may s.dev k l := by simp [may]
@[simp] theorem rowStarts_mayEarly (src k : Src) (l : Level) (a : Addr) (s : State) :
    mayEarly (rowStarts src a s).dev k l = mayEarly s.dev k l := by simp [mayEarly]
@[simp] theorem rowStarts_lifeAllows (src : Src) (a : Addr) (s : State) :
    lifeAllows (rowStarts src a s).dev = lifeAllows s.dev := by simp [lifeAllows]

/-! ### The cases of a write of one word (R45, R48, R317) -/

/-- A write that its port takes, in a window that answers and whose clock runs, does what its row says. -/
theorem rowWrite_of_taken {src : Src} {a : Addr} {w : Word} {win : Window} {f : WordWrite} {s : State}
    (h : takesWrite src s.dev = true) (hs : shutFor src win s = false) (hr : win.runs s.dev = true) :
    rowWrite src a w win f s = (f (rowStarts src a s)).2.onDev (rowEnds src a (f (rowStarts src a s)).1) := by
  simp [rowWrite, h, hs, hr]

/-- A write in a window that does not answer yet reaches no register (R48). -/
theorem rowWrite_of_shut {src : Src} {a : Addr} {w : Word} {win : Window} {f : WordWrite} {s : State}
    (h : takesWrite src s.dev = true) (hs : shutFor src win s = true) :
    rowWrite src a w win f s = (rowStarts src a s).onDev (rowEnds src a stNotReady) := by
  simp [rowWrite, h, hs]

/-- A write in a window whose clock stands still hangs (R45). -/
theorem rowWrite_of_stopped {src : Src} {a : Addr} {w : Word} {win : Window} {f : WordWrite} {s : State}
    (h : takesWrite src s.dev = true) (hs : shutFor src win s = false) (hr : win.runs s.dev = false) :
    rowWrite src a w win f s = rowHangs src a w s := by
  simp [rowWrite, h, hs, hr]

/-- A write that the port does not take reaches nothing (R317). -/
theorem rowWrite_of_busy {p : Port} {a : Addr} {w : Word} {win : Window} {f : WordWrite} {s : State}
    (h : takesWrite (.port p) s.dev = false) : rowWrite (.port p) a w win f s = s.onDev (turnedAway p) := by
  simp [rowWrite, h]

end Sys2Proof.Machine
end

