-- ==== Sys2Proof/Laws/Bytes.lean ====
section
/-! SUPPORT. Bytes and the numbers they spell, and the shape of a SHA-256 hash. -/

namespace Sys2Proof.Machine

theorem leNat_lt (l : List Byte) : leNat l < 256 ^ l.length := by
  induction l with
  | nil => simp [leNat]
  | cons b bs ih =>
    have h : b.toNat < 256 := b.isLt
    simp only [leNat, List.length_cons, Nat.pow_succ]
    omega

theorem beNat_lt (l : List Byte) : beNat l < 256 ^ l.length := by
  simpa [beNat] using leNat_lt l.reverse

/-- The bytes of the number that bytes spell are those bytes. -/
theorem leBytes_leNat (l : List Byte) : leBytes l.length (leNat l) = l := by
  induction l with
  | nil => rfl
  | cons b bs ih =>
    have h : b.toNat < 256 := b.isLt
    have hq : (b.toNat + 256 * leNat bs) / 256 = leNat bs := by omega
    have hb : BitVec.ofNat 8 (b.toNat + 256 * leNat bs) = b := by
      apply BitVec.eq_of_toNat_eq; simp only [BitVec.toNat_ofNat, Nat.reducePow]; omega
    simp only [leNat, List.length_cons, leBytes, hq, hb, ih]

theorem beBytes_beNat (l : List Byte) : beBytes l.length (beNat l) = l := by
  have h := leBytes_leNat l.reverse
  rw [List.length_reverse] at h
  rw [beBytes, beNat, h, List.reverse_reverse]

/-- The bytes of a number do not depend on what lies above them. -/
theorem leBytes_mod (n v : Nat) : leBytes n (v % 256 ^ n) = leBytes n v := by
  induction n generalizing v with
  | zero => rfl
  | succ n ih =>
    have h : v % 256 ^ (n + 1) / 256 = v / 256 % 256 ^ n := by
      rw [Nat.pow_succ, Nat.mul_comm, Nat.mod_mul_right_div_self]
    have hb : BitVec.ofNat 8 (v % 256 ^ (n + 1)) = BitVec.ofNat 8 v := by
      apply BitVec.eq_of_toNat_eq
      simp only [BitVec.toNat_ofNat, Nat.reducePow]
      exact Nat.mod_mod_of_dvd v ⟨256 ^ n, by rw [Nat.pow_succ, Nat.mul_comm]⟩
    simp only [leBytes, h, ih, hb]

theorem length_beBytes (n v : Nat) : (beBytes n v).length = n := by
  have h : ∀ n v, (leBytes n v).length = n := fun n => by
    induction n with
    | zero => intro v; rfl
    | succ n ih => intro v; simp [leBytes, ih]
  simp [beBytes, h]

theorem beBytes_word (v : Nat) : beBytes 4 (BitVec.ofNat 32 v).toNat = beBytes 4 v := by
  rw [beBytes, beBytes, BitVec.toNat_ofNat]
  exact congrArg List.reverse (leBytes_mod 4 v)

/-- A hash is eight words, most significant byte first. -/
theorem sha256_words (m : List Byte) : ∃ w : Bank 8 (BitVec 32), (w.toList.flatMap fun x => beBytes 4 x.toNat) = sha256 m := by
  generalize hr : shaBlocks ((m ++ [0x80] ++ List.replicate ((119 - m.length % 64) % 64) 0 ++ beBytes 8 (8 * m.length)).length / 64)
    (m ++ [0x80] ++ List.replicate ((119 - m.length % 64) % 64) 0 ++ beBytes 8 (8 * m.length)) shaInit = r
  refine ⟨⟨#[BitVec.ofNat 32 r.a, BitVec.ofNat 32 r.b, BitVec.ofNat 32 r.c, BitVec.ofNat 32 r.d, BitVec.ofNat 32 r.e,
    BitVec.ofNat 32 r.f, BitVec.ofNat 32 r.g, BitVec.ofNat 32 r.h], rfl⟩, ?_⟩
  simp only [sha256, hr, Vector.toList, List.flatMap_cons, List.flatMap_nil, beBytes_word]

theorem hmac_words (k m : List Byte) : ∃ w : Bank 8 (BitVec 32), (w.toList.flatMap fun x => beBytes 4 x.toNat) = hmac k m :=
  sha256_words _

theorem length_sha256 (m : List Byte) : (sha256 m).length = 32 := by
  simp only [sha256, List.flatMap_cons, List.flatMap_nil, List.length_append, length_beBytes, List.length_nil]

theorem length_hmac (k m : List Byte) : (hmac k m).length = 32 := length_sha256 _

end Sys2Proof.Machine
end

