-- ==== Sys2Proof/Laws/Flash.lean ====
section
/-! SUPPORT. The laws of the byte memories (R372 to R375): read after write, and that every memory operation keeps the
canonical form. -/

namespace Sys2Proof.Machine

/-! ### Read after write -/

/-- An address below every listed one reads 0xFF. -/
theorem cellsGet_of_lt : ∀ {m : List Host.Cell} {a : Nat}, cellsWf m = true → (∀ c ∈ m.head?, a < c.1) → cellsGet m a = 0xFF
  | [], _, _, _ => rfl
  | [(k, v)], a, _, h => by
    have : a < k := h (k, v) rfl
    simp [cellsGet, Nat.ne_of_gt this]
  | (k, v) :: (k', v') :: t, a, w, h => by
    have hk : a < k := h (k, v) rfl
    simp only [cellsWf, Bool.and_eq_true, decide_eq_true_eq] at w
    have : cellsGet ((k', v') :: t) a = 0xFF := cellsGet_of_lt w.2 (by
      intro c hc; cases hc; exact Nat.lt_trans hk w.1.1)
    rw [cellsGet, if_neg (Nat.ne_of_gt hk), this]

/-- The tail of a canonical memory is canonical. -/
theorem cellsWf_tail {c : Host.Cell} {t : List Host.Cell} (h : cellsWf (c :: t) = true) : cellsWf t = true := by
  obtain ⟨k, v⟩ := c
  cases t with
  | nil => rfl
  | cons d t => obtain ⟨k', v'⟩ := d; simp only [cellsWf, Bool.and_eq_true] at h; exact h.2

/-- No canonical memory lists 0xFF. -/
theorem cellsWf_head {k : Nat} {v : Byte} {t : List Host.Cell} (h : cellsWf ((k, v) :: t) = true) : v ≠ 0xFF := by
  cases t with
  | nil => simpa [cellsWf] using h
  | cons d t => obtain ⟨k', v'⟩ := d; simp only [cellsWf, Bool.and_eq_true, decide_eq_true_eq] at h; exact h.1.2

/-- The first address of a canonical memory lies below the next. -/
theorem cellsWf_lt {k : Nat} {v : Byte} {t : List Host.Cell} (h : cellsWf ((k, v) :: t) = true) : ∀ c ∈ t.head?, k < c.1 := by
  cases t with
  | nil => intro c hc; cases hc
  | cons d t =>
    obtain ⟨k', v'⟩ := d
    simp only [cellsWf, Bool.and_eq_true, decide_eq_true_eq] at h
    intro c hc; cases hc; exact h.1.1

/-- A cell before a canonical memory that starts above it. -/
theorem cellsWf_cons {k : Nat} {v : Byte} {t : List Host.Cell} (hv : v ≠ 0xFF) (ht : cellsWf t = true)
    (hk : ∀ c ∈ t.head?, k < c.1) : cellsWf ((k, v) :: t) = true := by
  cases t with
  | nil => simpa [cellsWf] using hv
  | cons d t =>
    obtain ⟨k', v'⟩ := d
    have := hk (k', v') rfl
    simp only [cellsWf, Bool.and_eq_true, decide_eq_true_eq]
    exact ⟨⟨this, hv⟩, ht⟩

/-- A written byte is read back, and every other byte reads as before. -/
theorem cellsGet_cellsSet : ∀ {m : List Host.Cell} {a : Nat} {b : Byte} (x : Nat), cellsWf m = true →
    cellsGet (cellsSet m a b) x = if x = a then b else cellsGet m x
  | [], a, b, x, _ => by
    by_cases hb : b = 0xFF
    · subst hb; simp [cellsSet, cellsGet]
    · by_cases h : x = a
      · subst h; unfold cellsSet; rw [if_neg hb]; simp [cellsGet]
      · have : a ≠ x := fun e => h e.symm
        unfold cellsSet; rw [if_neg hb]; simp [cellsGet, h, this]
  | (k, v) :: t, a, b, x, w => by
    have ih := cellsGet_cellsSet (m := t) (a := a) (b := b) x (cellsWf_tail w)
    have low (y : Nat) (h : y < k) : cellsGet ((k, v) :: t) y = 0xFF :=
      cellsGet_of_lt w (by intro c hc; cases hc; exact h)
    have lowt : cellsGet t k = 0xFF := cellsGet_of_lt (cellsWf_tail w) (cellsWf_lt w)
    unfold cellsSet
    by_cases h1 : a < k
    · rw [if_pos h1]
      by_cases hb : b = 0xFF
      · rw [if_pos hb]
        by_cases h : x = a
        · rw [if_pos h, h, low a h1, hb]
        · rw [if_neg h]
      · rw [if_neg hb]
        by_cases h : x = a
        · subst h; simp [cellsGet]
        · rw [if_neg h]; conv => lhs; unfold cellsGet
          rw [if_neg (fun e : a = x => h e.symm)]
    · rw [if_neg h1]
      by_cases h2 : a = k
      · subst h2
        rw [if_pos rfl]
        by_cases hb : b = 0xFF
        · rw [if_pos hb]
          by_cases h : x = a
          · subst h; rw [if_pos rfl, lowt, hb]
          · rw [if_neg h]; conv => rhs; unfold cellsGet
            rw [if_neg (fun e : a = x => h e.symm)]
        · rw [if_neg hb]
          by_cases h : x = a
          · subst h; simp [cellsGet]
          · have : a ≠ x := fun e => h e.symm
            simp [cellsGet, h, this]
      · rw [if_neg h2]
        by_cases hk : k = x
        · subst hk
          have : k ≠ a := fun e => h2 e.symm
          simp [cellsGet, this]
        · simp only [cellsGet, if_neg hk]; exact ih

/-! ### The canonical form is kept -/

/-- The first address after a write is the old first one, or the written one. -/
theorem cellsSet_head {m : List Host.Cell} {a k : Nat} {b : Byte} (hk : ∀ c ∈ m.head?, k < c.1) (ha : k < a)
    (w : cellsWf m = true) : ∀ c ∈ (cellsSet m a b).head?, k < c.1 := by
  cases m with
  | nil =>
    unfold cellsSet
    split
    · intro c hc; cases hc
    · intro c hc; cases hc; exact ha
  | cons d t =>
    obtain ⟨k', v'⟩ := d
    have h' : k < k' := hk (k', v') rfl
    unfold cellsSet
    split
    · split
      · intro c hc; cases hc; exact h'
      · intro c hc; cases hc; exact ha
    · split
      · split
        · intro c hc; exact Nat.lt_trans h' (cellsWf_lt w c hc)
        · intro c hc; cases hc; exact ha
      · intro c hc; cases hc; exact h'

/-- A write keeps the canonical form. -/
theorem cellsWf_cellsSet : ∀ {m : List Host.Cell} (a : Nat) (b : Byte), cellsWf m = true → cellsWf (cellsSet m a b) = true
  | [], a, b, _ => by
    unfold cellsSet
    split
    · rfl
    · next h => simpa [cellsWf] using h
  | (k, v) :: t, a, b, w => by
    have ih := cellsWf_cellsSet (m := t) a b (cellsWf_tail w)
    unfold cellsSet
    split
    · next h1 =>
      split
      · exact w
      · next hb => exact cellsWf_cons hb w (by intro c hc; cases hc; exact h1)
    · next h1 =>
      split
      · next h2 =>
        split
        · exact cellsWf_tail w
        · next hb => exact cellsWf_cons hb (cellsWf_tail w) (by rw [h2]; exact cellsWf_lt w)
      · next h2 =>
        exact cellsWf_cons (cellsWf_head w) ih
          (cellsSet_head (cellsWf_lt w) (by omega) (cellsWf_tail w))

/-- A canonical memory stays so when cells are taken out. -/
theorem cellsWf_filter (p : Host.Cell → Bool) : ∀ {m : List Host.Cell}, cellsWf m = true →
    cellsWf (m.filter p) = true ∧ ∀ k, (∀ c ∈ m.head?, k < c.1) → ∀ c ∈ (m.filter p).head?, k < c.1
  | [], _ => ⟨rfl, fun _ _ c hc => by cases hc⟩
  | (k, v) :: t, w => by
    have ih := cellsWf_filter p (cellsWf_tail w)
    cases hp : p (k, v) with
    | true =>
      rw [List.filter_cons_of_pos hp]
      refine ⟨cellsWf_cons (cellsWf_head w) ih.1 (ih.2 k (cellsWf_lt w)), ?_⟩
      intro j h c hc; cases hc; exact h (k, v) rfl
    | false =>
      rw [List.filter_cons_of_neg (by simp [hp])]
      refine ⟨ih.1, fun j h => ih.2 j fun c hc => ?_⟩
      exact Nat.lt_trans (h (k, v) rfl) (cellsWf_lt w c hc)

/-! ### The operations of the flash array -/

theorem programByte_wf {nv : NonVol} (a : Nat) (b : Byte) (w : cellsWf nv.flash = true) :
    cellsWf (programByte nv a b).flash = true := by
  unfold programByte; split
  · exact w
  · exact cellsWf_cellsSet _ _ w

theorem programBytes_wf : ∀ (bs : List Byte) {nv : NonVol} (a : Nat), cellsWf nv.flash = true →
    cellsWf (programBytes nv a bs).flash = true
  | [], _, _, w => w
  | b :: bs, _, a, w => programBytes_wf bs (a + 1) (programByte_wf a b w)

theorem eraseSector_wf {nv : NonVol} (p : Fin 128) (w : cellsWf nv.flash = true) :
    cellsWf (eraseSector nv p).flash = true := (cellsWf_filter _ w).1

/-- An interrupted byte is as it was, or is programmed (R374). -/
theorem interruptByte_flash (k : Nat) (nv : NonVol) (a : Nat) (b : Byte) :
    (interruptByte k nv a b).flash = nv.flash ∨ (interruptByte k nv a b).flash = (programByte nv a b).flash := by
  unfold interruptByte; split
  · exact .inl rfl
  · split
    · exact .inr rfl
    · exact .inl rfl

theorem interruptByte_wf {nv : NonVol} (k a : Nat) (b : Byte) (w : cellsWf nv.flash = true) :
    cellsWf (interruptByte k nv a b).flash = true := by
  obtain h | h := interruptByte_flash k nv a b
  · rw [h]; exact w
  · rw [h]; exact programByte_wf a b w

theorem interruptBytes_wf (k : Nat) : ∀ (bs : List Byte) {nv : NonVol} (a : Nat), cellsWf nv.flash = true →
    cellsWf (interruptBytes k nv a bs).flash = true
  | [], _, _, w => w
  | b :: bs, _, a, w => interruptBytes_wf k bs (a + 1) (interruptByte_wf k a b w)

theorem interruptChunk_wf {nv : NonVol} (c : ChunkProg) (w : cellsWf nv.flash = true) :
    cellsWf (interruptChunk nv c).flash = true := interruptBytes_wf _ _ _ w

theorem interruptErase_flash (nv : NonVol) (p : Fin 128) : (interruptErase nv p).flash = nv.flash := rfl

@[simp] theorem programByte_code (nv : NonVol) (a : Nat) (b : Byte) : (programByte nv a b).code = nv.code := by
  unfold programByte; split <;> rfl

@[simp] theorem programBytes_code : ∀ (bs : List Byte) (nv : NonVol) (a : Nat), (programBytes nv a bs).code = nv.code
  | [], _, _ => rfl
  | b :: bs, nv, a => by rw [programBytes, programBytes_code bs, programByte_code]

@[simp] theorem interruptByte_code (k : Nat) (nv : NonVol) (a : Nat) (b : Byte) : (interruptByte k nv a b).code = nv.code := by
  unfold interruptByte; (repeat' split) <;> simp

@[simp] theorem interruptBytes_code (k : Nat) : ∀ (bs : List Byte) (nv : NonVol) (a : Nat), (interruptBytes k nv a bs).code = nv.code
  | [], _, _ => rfl
  | b :: bs, nv, a => by rw [interruptBytes, interruptBytes_code k bs, interruptByte_code]

@[simp] theorem interruptChunk_code (nv : NonVol) (c : ChunkProg) : (interruptChunk nv c).code = nv.code := by
  unfold interruptChunk; rw [interruptBytes_code]

/-- A programmed byte keeps only the bits that were 1 before and are 1 in the new value (R373); others read as before. -/
theorem programByte_get {nv : NonVol} (a : Nat) (b : Byte) (x : Nat) (w : cellsWf nv.flash = true) :
    cellsGet (programByte nv a b).flash x = if x = a then cellsGet nv.flash a &&& b else cellsGet nv.flash x := by
  unfold programByte
  split
  · next h =>
    subst h
    split
    · next e => rw [e]; exact (BitVec.and_allOnes (x := cellsGet nv.flash a)).symm
    · rfl
  · exact cellsGet_cellsSet x w

end Sys2Proof.Machine
end

