-- ==== Sys2Proof/Laws/Spare.lean ====
section
/-! SUPPORT. The operations of the energy side - lanes, slots, loops, rails, Hearth, partner buses, protection, store and recorder -
leave the ports, the guard, the structure, the pins and SYS as they are: one law for each operation. -/

namespace Sys2Proof.Machine

@[simp] theorem spare_mk (X : Device) (clk : Clk) (img : Image) (lanes : Bank 64 Lane) (slots : Bank 512 Slot) (tbi : Tbi)
    (phases : Bank 512 Phase) (le : Engine) (tune : Tune) (rails : Bank 64 Rail) (pm : Protect) (hkt : Housekeeping)
    (hs : Hearth) (ring : RingLink) (pp : Ports) (pwr : Power) (ocs : Store) (er : Recorder) (bog : Bog) (cap : Capture)
    (draws : Nat) (hsp : HostPort) (h : tbi.carriers = X.tbi.carriers)
    (h' : { clk with trim := false } = { X.clk with trim := false })
    (h'' : { hsp with evt := 0 } = { X.hsp with evt := 0 }) :
    spare ⟨X.sys, clk, X.pins, X.str, img, lanes, slots, tbi, phases, le, tune, rails, pm, hkt, hs, ring, pp, hsp, X.ports,
      X.twp, X.sg, pwr, X.fw, ocs, er, bog, cap, draws⟩ = spare X := by
  simp only [spare, h, h', h'']

theorem spare_foldl {α : Type} (f : Device → α → Device) (h : ∀ d x, spare (f d x) = spare d) (l : List α) (d : Device) :
    spare (l.foldl f d) = spare d := by
  induction l generalizing d with
  | nil => rfl
  | cons a t ih => rw [List.foldl_cons, ih, h]

@[simp] theorem spare_foldl' {α : Type} (f : Device → α → Device) (h : ∀ d x, spare (f d x) = spare d) (l : List α) (d : Device) :
    spare (l.foldl f d) = spare d := spare_foldl f h l d

@[simp] theorem spare_ite (c : Prop) [Decidable c] (a b : Device) : spare (if c then a else b) = if c then spare a else spare b := by
  split <;> rfl

@[simp] theorem spare_raise (tm : TimeBase) (code : Nat) (payload : List Byte) (d : Device) :
    spare (raise tm code payload d) = spare d := by
  unfold raise; simp

@[simp] theorem spare_raiseHead (tm : TimeBase) (code : Nat) (payload : List Byte) (d : Device) :
    spare (raiseHead tm code payload d) = spare d := by
  unfold raiseHead; simp

@[simp] theorem spare_raiseFault (tm : TimeBase) (kind source detail : Nat) (d : Device) :
    spare (raiseFault tm kind source detail d) = spare d := by
  unfold raiseFault; simp

@[simp] theorem spare_captureTrigger (tm : TimeBase) (k : TriggerKind) (index : Nat) (d : Device) :
    spare (captureTrigger tm k index d) = spare d := by
  unfold captureTrigger; (repeat' split) <;> rfl

@[simp] theorem spare_setReadonly (tm : TimeBase) (r : Fin 11) (d : Device) :
    spare (setReadonly tm r d) = spare d := by
  unfold setReadonly; simp

@[simp] theorem spare_wearOut (tm : TimeBase) (nv : NonVol) (p : Fin 128) (d : Device) :
    spare ((wearOut tm nv p d).2) = spare d := by
  unfold wearOut; dsimp only; (repeat' split) <;> simp

@[simp] theorem spare_storePump (nv : NonVol) (d : Device) :
    spare (storePump nv d) = spare d := by
  unfold storePump; (repeat' split) <;> simp

@[simp] theorem spare_stopErase (nv : NonVol) (d : Device) :
    spare ((stopErase nv d).2) = spare d := by
  unfold stopErase; (repeat' split) <;> rfl

@[simp] theorem spare_addJob (j : Job) (d : Device) :
    spare (addJob j d) = spare d := by
  unfold addJob; simp

@[simp] theorem spare_refreshCounters (nv : NonVol) (d : Device) :
    spare (refreshCounters nv d) = spare d := by
  unfold refreshCounters; simp

@[simp] theorem spare_sectorReady (p : Fin 128) (d : Device) :
    spare (sectorReady p d) = spare d := by
  unfold sectorReady; (repeat' split) <;> rfl

@[simp] theorem spare_Device_onLane (d : Device) (n : Fin 64) (f : Lane → Lane) :
    spare (Device.onLane d n f) = spare d := by
  unfold Device.onLane; simp

@[simp] theorem spare_Device_onSlot (d : Device) (g : Fin 512) (f : Slot → Slot) :
    spare (Device.onSlot d g f) = spare d := by
  unfold Device.onSlot; simp

@[simp] theorem spare_Device_onPhase (d : Device) (g : Fin 512) (f : Phase → Phase) :
    spare (Device.onPhase d g f) = spare d := by
  unfold Device.onPhase; simp

@[simp] theorem spare_Device_onRail (d : Device) (r : Fin 64) (f : Rail → Rail) :
    spare (Device.onRail d r f) = spare d := by
  unfold Device.onRail; simp

@[simp] theorem spare_Device_onLoop (d : Device) (r : Fin 64) (f : LoopSt → LoopSt) :
    spare (Device.onLoop d r f) = spare d := by
  unfold Device.onLoop; simp

@[simp] theorem spare_phaseGone (r : Fin 64) (d : Device) : spare (phaseGone r d) = spare d := by
  unfold phaseGone; simp

@[simp] theorem spare_ownerLoses (g : Fin 512) (d : Device) : spare (ownerLoses g d) = spare d := by
  unfold ownerLoses; split <;> simp

@[simp] theorem spare_setSlot (g : Fin 512) (st : SlotState) (why : SlotReason) (d : Device) :
    spare (setSlot g st why d) = spare d := by
  unfold setSlot; simp

@[simp] theorem spare_clearSources (pick : ProtEntry → Bool) (d : Device) :
    spare (clearSources pick d) = spare d := by
  unfold clearSources; simp

@[simp] theorem spare_sendCell (n : Fin 64) (c : DownCell) (order : Nat) (d : Device) :
    spare (sendCell n c order d) = spare d := by
  unfold sendCell; simp

@[simp] theorem spare_wakeLane (now : Nat) (n : Fin 64) (d : Device) :
    spare (wakeLane now n d) = spare d := by
  unfold wakeLane; simp

@[simp] theorem spare_wakeFor (tm : TimeBase) (g : Fin 512) (d : Device) :
    spare (wakeFor tm g d) = spare d := by
  unfold wakeFor; simp

@[simp] theorem spare_sendBias (tm : TimeBase) (g : Fin 512) (d : Device) :
    spare (sendBias tm g d) = spare d := by
  unfold sendBias; simp

@[simp] theorem spare_dropEdges (n : Fin 64) (d : Device) :
    spare (dropEdges n d) = spare d := by
  unfold dropEdges; simp

@[simp] theorem spare_sendCmd (g : Fin 512) (op : Nat) (d : Device) :
    spare (sendCmd g op d) = spare d := by
  unfold sendCmd; simp

@[simp] theorem spare_sendStop (g : Fin 512) (d : Device) :
    spare (sendStop g d) = spare d := by
  unfold sendStop; simp

@[simp] theorem spare_sendWrite (g : Fin 512) (addr : Nat) (data : BitVec 16) (d : Device) :
    spare ((sendWrite g addr data d).1) = spare d := by
  unfold sendWrite; simp

@[simp] theorem spare_sendRead (g : Fin 512) (addr : Nat) (d : Device) :
    spare (sendRead g addr d) = spare d := by
  unfold sendRead; simp

@[simp] theorem spare_raiseRing (tm : TimeBase) (event : Nat) (d : Device) :
    spare (raiseRing tm event d) = spare d := by
  unfold raiseRing; simp

@[simp] theorem spare_syncEdge (tm : TimeBase) (fine : Nat) (d : Device) :
    spare (syncEdge tm fine d) = spare d := by
  unfold syncEdge; dsimp only; (repeat' split) <;> simp

@[simp] theorem spare_syncMissing (tm : TimeBase) (d : Device) :
    spare (syncMissing tm d) = spare d := by
  unfold syncMissing; dsimp only; (repeat' split) <;> simp

@[simp] theorem spare_recompute (r : Fin 64) (written : Option Nat) (d : Device) :
    spare (recompute r written d) = spare d := by
  unfold recompute; simp

@[simp] theorem spare_orderedJoin (r : Fin 64) (g : Fin 512) (d : Device) :
    spare (orderedJoin r g d) = spare d := by
  unfold orderedJoin; dsimp only; (repeat' split) <;> simp

@[simp] theorem spare_orderedLeave (g : Fin 512) (after : AfterLeave) (d : Device) :
    spare (orderedLeave g after d) = spare d := by
  unfold orderedLeave; simp

@[simp] theorem spare_unplace (g : Fin 512) (stopAt : Option Nat) (d : Device) :
    spare (unplace g stopAt d) = spare d := by
  unfold unplace; simp

@[simp] theorem spare_stepWeight (k : Nat) (g : Fin 512) (d : Device) :
    spare ((stepWeight k g d).1) = spare d := by
  unfold stepWeight; dsimp only; (repeat' split) <;> simp

@[simp] theorem spare_stepWeights (r : Fin 64) (d : Device) :
    spare (stepWeights r d) = spare d := by
  unfold stepWeights; simp

@[simp] theorem spare_settleJoiners (r : Fin 64) (d : Device) :
    spare (settleJoiners r d) = spare d := by
  unfold settleJoiners; simp

@[simp] theorem spare_fixShares (r : Fin 64) (d : Device) :
    spare (fixShares r d) = spare d := by
  unfold fixShares; (repeat' split) <;> simp

@[simp] theorem spare_enterServing (g : Fin 512) (d : Device) :
    spare (enterServing g d) = spare d := by
  unfold enterServing; (repeat' split) <;> simp

@[simp] theorem spare_buildEdge (now : Nat) (g : Fin 512) (d : Device) :
    spare (buildEdge now g d) = spare d := by
  unfold buildEdge; dsimp only; (repeat' split) <;> simp

@[simp] theorem spare_emitStops (now : Nat) (gs : List (Fin 512)) (d : Device) :
    spare (emitStops now gs d) = spare d := by
  unfold emitStops
  first
  | (simp; done)
  | ((try dsimp only) <;> (repeat' split) <;> first | rfl | (simp [*]; done) | (simp; done) | (refine (spare_foldl _ (fun d x => ?_) _ _).trans ?_ <;> (try dsimp only) <;> (repeat' split) <;> simp; done))

@[simp] theorem spare_noteMode (tm : TimeBase) (r : Fin 64) (before after : Device) :
    spare (noteMode tm r before after) = spare after := by
  unfold noteMode; simp

@[simp] theorem spare_startEval (now : Nat) (slice : Fin 8) (d : Device) :
    spare (startEval now slice d) = spare d := by
  unfold startEval; dsimp only; (repeat' split) <;> rfl

@[simp] theorem spare_releaseDuty (g : Fin 512) (instant : Nat) (u : Int) (d : Device) :
    spare (releaseDuty g instant u d) = spare d := by
  unfold releaseDuty; simp

@[simp] theorem spare_releaseDem (r : Fin 64) (instant useFrom : Nat) (o : Int) (d : Device) :
    spare (releaseDem r instant useFrom o d) = spare d := by
  unfold releaseDem; simp

@[simp] theorem spare_releaseWaited (w : Waited) (d : Device) :
    spare (releaseWaited w d) = spare d := by
  unfold releaseWaited; (repeat' split) <;> rfl

@[simp] theorem spare_releaseAll (r : Fin 64) (d : Device) :
    spare (releaseAll r d) = spare d := by
  unfold releaseAll; simp

@[simp] theorem spare_releaseDue (loop : LoopRef) (k : Nat) (d : Device) :
    spare (releaseDue loop k d) = spare d := by
  unfold releaseDue; simp

@[simp] theorem spare_releaseOldest (loop : LoopRef) (d : Device) :
    spare (releaseOldest loop d) = spare d := by
  unfold releaseOldest; (repeat' split) <;> simp

@[simp] theorem spare_runOuter (x : Eval) (d : Device) :
    spare ((runOuter x d).1) = spare d := by
  unfold runOuter; simp

@[simp] theorem spare_runInner (g : Fin 512) (x : Eval) (d : Device) :
    spare ((runInner g x d).1) = spare d := by
  unfold runInner; simp

@[simp] theorem spare_completeEval (now : Nat) (slice : Fin 8) (d : Device) : spare (completeEval now slice d) = spare d := by
  unfold completeEval
  split
  · rfl
  · rename_i x _
    split
    · split <;> simp only [spare_releaseDem, spare_releaseDuty, spare_Device_onLoop] <;> (split <;> simp)
    · simp; split <;> simp

@[simp] theorem spare_countOverrun (r : Fin 64) (inner : Bool) (d : Device) :
    spare ((countOverrun r inner d).1) = spare d := by
  unfold countOverrun; simp

@[simp] theorem spare_admitInner (g : Fin 512) (r : Fin 64) (b : RailSect) (q : Period) (ma : List Int) (mode : EvalMode) (d : Device) :
    spare ((admitInner g r b q ma mode d).1) = spare d := by
  unfold admitInner; dsimp only; (repeat' split) <;> simp

@[simp] theorem spare_admitOuter (r : Fin 64) (b : RailSect) (j instant target v : Nat) (mode : EvalMode) (d : Device) :
    spare ((admitOuter r b j instant target v mode d).1) = spare d := by
  unfold admitOuter; dsimp only; (repeat' split) <;> simp

@[simp] theorem spare_presetOuter (r : Fin 64) (b : RailSect) (out : Int) (d : Device) :
    spare (presetOuter r b out d) = spare d := by
  unfold presetOuter; simp

@[simp] theorem spare_presetInner (r : Fin 64) (b : RailSect) (g : Fin 512) (duty : Nat) (d : Device) :
    spare (presetInner r b g duty d) = spare d := by
  unfold presetInner; simp

@[simp] theorem spare_raiseTune (tm : TimeBase) (r : Fin 64) (inner : Bool) (d : Device) :
    spare (raiseTune tm r inner d) = spare d := by
  unfold raiseTune; simp

@[simp] theorem spare_endTune (tm : TimeBase) (res : TuneResult) (cycles : List (Nat × Int)) (d : Device) :
    spare (endTune tm res cycles d) = spare d := by
  unfold endTune; dsimp only; (repeat' split) <;> simp [spare_foldl]

@[simp] theorem spare_endTuneOn (tm : TimeBase) (r : Fin 64) (res : TuneResult) (d : Device) :
    spare (endTuneOn tm r res d) = spare d := by
  unfold endTuneOn; simp

@[simp] theorem spare_beginTune (tm : TimeBase) (now target : Nat) (d : Device) :
    spare (beginTune tm now target d) = spare d := by
  unfold beginTune; (repeat' split) <;> simp

@[simp] theorem spare_relayStep (tm : TimeBase) (now : Nat) (v : Nat) (d : Device) :
    spare (relayStep tm now v d) = spare d := by
  unfold relayStep; dsimp only; (repeat' split) <;> simp

@[simp] theorem spare_raiseUnwind (tm : TimeBase) (r : Fin 64) (e : Fin 128) (unwound released : Nat) (d : Device) :
    spare (raiseUnwind tm r e unwound released d) = spare d := by
  unfold raiseUnwind; simp

@[simp] theorem spare_countUnwound (r : Fin 64) (n : Nat) (d : Device) :
    spare (countUnwound r n d) = spare d := by
  unfold countUnwound; simp

@[simp] theorem spare_raiseUnwinds (tm : TimeBase) (r : Fin 64) (un re : List (Fin 128)) (d : Device) :
    spare (raiseUnwinds tm r un re d) = spare d := by
  unfold raiseUnwinds; simp

@[simp] theorem spare_unwindWhere (tm : TimeBase) (r : Fin 64) (bySection : Bool) (pick : AddRecord → Bool) (d : Device) :
    spare (unwindWhere tm r bySection pick d) = spare d := by
  unfold unwindWhere; simp

@[simp] theorem spare_unwindEntry (tm : TimeBase) (e : Fin 128) (d : Device) :
    spare (unwindEntry tm e d) = spare d := by
  unfold unwindEntry; (repeat' split) <;> simp

@[simp] theorem spare_unwindRail (tm : TimeBase) (r : Fin 64) (bySection : Bool) (d : Device) :
    spare (unwindRail tm r bySection d) = spare d := by
  unfold unwindRail; simp

@[simp] theorem spare_releaseRecords (tm : TimeBase) (r : Fin 64) (pick : AddRecord → Bool) (d : Device) :
    spare (releaseRecords tm r pick d) = spare d := by
  unfold releaseRecords; dsimp only; (repeat' split) <;> simp

@[simp] theorem spare_dropRecords (tm : TimeBase) (r : Fin 64) (pick : AddRecord → Bool) (d : Device) :
    spare (dropRecords tm r pick d) = spare d := by
  unfold dropRecords; simp

@[simp] theorem spare_discardRecords (tm : TimeBase) (r : Fin 64) (d : Device) :
    spare (discardRecords tm r d) = spare d := by
  unfold discardRecords; simp

@[simp] theorem spare_raiseRail (tm : TimeBase) (r : Fin 64) (from' to' : RailState) (cause : RailCause) (i : Int) (d : Device) :
    spare (raiseRail tm r from' to' cause i d) = spare d := by
  unfold raiseRail; simp

@[simp] theorem spare_changeState (tm : TimeBase) (r : Fin 64) (to' : RailState) (cause : RailCause) (d : Device) :
    spare (changeState tm r to' cause d) = spare d := by
  unfold changeState; (repeat' split) <;> simp

@[simp] theorem spare_emptyPlaced (atOnce : Bool) (r : Fin 64) (d : Device) :
    spare (emptyPlaced atOnce r d) = spare d := by
  unfold emptyPlaced
  refine spare_foldl _ (fun d g => ?_) _ _
  dsimp only
  (repeat' split) <;> simp

@[simp] theorem spare_endCmd (r : Fin 64) (res : CmdResult) (d : Device) :
    spare (endCmd r res d) = spare d := by
  unfold endCmd; simp

@[simp] theorem spare_raiseRetire (tm : TimeBase) (r : Fin 64) (pos op : Nat) (res : CmdResult) (g : Nat) (d : Device) :
    spare (raiseRetire tm r pos op res g d) = spare d := by
  unfold raiseRetire; simp

@[simp] theorem spare_discardPending (tm : TimeBase) (r : Fin 64) (d : Device) :
    spare (discardPending tm r d) = spare d := by
  unfold discardPending; simp

@[simp] theorem spare_leaveRunning (tm : TimeBase) (r : Fin 64) (atOnce : Bool) (to' : RailState) (cause : RailCause) (d : Device) :
    spare (leaveRunning tm r atOnce to' cause d) = spare d := by
  unfold leaveRunning; dsimp only; split <;> simp

@[simp] theorem spare_enterFault (tm : TimeBase) (r : Fin 64) (cause : RailCause) (d : Device) :
    spare (enterFault tm r cause d) = spare d := by
  unfold enterFault; simp

@[simp] theorem spare_enterSafe (tm : TimeBase) (r : Fin 64) (cause : RailCause) (d : Device) :
    spare (enterSafe tm r cause d) = spare d := by
  unfold enterSafe; simp

@[simp] theorem spare_leaveTrim (now : Nat) (d : Device) : spare (leaveTrim now d) = spare d :=
  (spare_foldl _ (fun d n => spare_wakeLane now n d) _ _).trans rfl

@[simp] theorem spare_raisePower (tm : TimeBase) (was is cause : Nat) (d : Device) :
    spare (raisePower tm was is cause d) = spare d := by
  unfold raisePower; simp

@[simp] theorem spare_enterHold (tm : TimeBase) (r : Fin 64) (cause : RailCause) (d : Device) :
    spare (enterHold tm r cause d) = spare d := by
  unfold enterHold
  split <;> simp

@[simp] theorem spare_reportEngine (tm : TimeBase) (r : Fin 64) (cause : RailCause) (d : Device) :
    spare (reportEngine tm r cause d) = spare d := by
  unfold reportEngine; (repeat' split) <;> simp

@[simp] theorem spare_checkEmpty (tm : TimeBase) (r : Fin 64) (d : Device) :
    spare (checkEmpty tm r d) = spare d := by
  unfold checkEmpty; simp

@[simp] theorem spare_immediateLeave (tm : TimeBase) (g : Fin 512) (d : Device) :
    spare (immediateLeave tm g d) = spare d := by
  unfold immediateLeave; (repeat' split) <;> simp

@[simp] theorem spare_loseSlot (tm : TimeBase) (g : Fin 512) (why : SlotReason) (d : Device) :
    spare (loseSlot tm g why d) = spare d := by
  unfold loseSlot; dsimp only; (repeat' split) <;> simp

@[simp] theorem spare_startRail (tm : TimeBase) (r : Fin 64) (d : Device) :
    spare ((startRail tm r d).1) = spare d := by
  unfold startRail; dsimp only; (repeat' split) <;> simp

@[simp] theorem spare_endMeasurement (r : Fin 64) (d : Device) : spare (endMeasurement r d) = spare d := by
  unfold endMeasurement
  split <;> first | rfl | simp

@[simp] theorem spare_makeRecords (r : Fin 64) (e : Fin 128) (k : Nat) (d : Device) :
    spare ((makeRecords r e k d).1) = spare d := by
  unfold makeRecords; simp

@[simp] theorem spare_warmPhases (tm : TimeBase) (r : Fin 64) (e : Fin 128) (s k : Nat) (d : Device) :
    spare (warmPhases tm r e s k d) = spare d := by
  unfold warmPhases; simp

@[simp] theorem spare_warmStart (tm : TimeBase) (e : Fin 128) (d : Device) :
    spare (warmStart tm e d) = spare d := by
  unfold warmStart; dsimp only; (repeat' split) <;> simp

@[simp] theorem spare_rewarm (tm : TimeBase) (e : Fin 128) (d : Device) :
    spare (rewarm tm e d) = spare d := by
  unfold rewarm; dsimp only; (repeat' split) <;> simp

@[simp] theorem spare_releaseEnded (tm : TimeBase) (r : Fin 64) (d : Device) :
    spare (releaseEnded tm r d) = spare d := by
  unfold releaseEnded; simp

@[simp] theorem spare_setStep (r : Fin 64) (g : Fin 512) (s : AddStep) (d : Device) :
    spare (setStep r g s d) = spare d := by
  unfold setStep; simp

@[simp] theorem spare_joinDue (tm : TimeBase) (r : Fin 64) (l : List (Fin 512)) (d : Device) :
    spare (joinDue tm r l d) = spare d := by
  induction l generalizing d with
  | nil => rfl
  | cons g gs ih => unfold joinDue; split <;> simp [ih]

@[simp] theorem spare_kindlingBoundary (tm : TimeBase) (r : Fin 64) (d : Device) :
    spare (kindlingBoundary tm r d) = spare d := by
  unfold kindlingBoundary
  split <;> simp

@[simp] theorem spare_joinUntil (ok : List (Fin 512) → Device → Bool) (r : Fin 64) (l js : List (Fin 512)) (d : Device) :
    spare (joinUntil ok r l js d).1 = spare d := by
  induction l generalizing js d with
  | nil => rfl
  | cons g gs ih => unfold joinUntil; split <;> simp [ih]

@[simp] theorem spare_finishRetire (tm : TimeBase) (r : Fin 64) (t : Retiring) (d : Device) :
    spare (finishRetire tm r t d) = spare d := by
  unfold finishRetire; dsimp only; split <;> simp

@[simp] theorem spare_retirementsEnd (tm : TimeBase) (r : Fin 64) (d : Device) :
    spare (retirementsEnd tm r d) = spare d := by
  unfold retirementsEnd; simp

@[simp] theorem spare_markLeaving (r : Fin 64) (g : Fin 512) (d : Device) :
    spare (markLeaving r g d) = spare d := by
  unfold markLeaving; simp

@[simp] theorem spare_retireBoundary (tm : TimeBase) (r : Fin 64) (t : Retiring) (d : Device) :
    spare (retireBoundary tm r t d) = spare d := by
  unfold retireBoundary; dsimp only; (repeat' split) <;> simp

@[simp] theorem spare_quadrantBoundary (tm : TimeBase) (r : Fin 64) (d : Device) :
    spare (quadrantBoundary tm r d) = spare d := by
  have h (after : Device → Fin 512 → AfterLeave) (l : List (Fin 512)) (d : Device) :
      spare (l.foldl (fun d g => orderedLeave g (after d g) d) d) = spare d :=
    spare_foldl _ (fun d g => spare_orderedLeave g _ d) _ _
  unfold quadrantBoundary
  dsimp only
  (repeat' split) <;> simp

@[simp] theorem spare_shed (tm : TimeBase) (r : Fin 64) (b : RailSect) (x : Rail) (w hi i : Nat) (d : Device) :
    spare (shedAdd.shed tm r b x w hi i d) = spare d := by
  unfold shedAdd.shed
  dsimp only
  split
  · split
    · split <;> simp
    · simp
  · simp

@[simp] theorem spare_shedAdd (tm : TimeBase) (r : Fin 64) (b : RailSect) (d : Device) :
    spare (shedAdd tm r b d) = spare d := by
  have h (l : List (Fin 512)) (d : Device) : spare (l.foldl (fun d g => orderedJoin r g d) d) = spare d :=
    spare_foldl _ (fun d g => spare_orderedJoin r g d) _ _
  unfold shedAdd
  split
  · rfl
  · dsimp only
    split
    · rw [spare_Device_onRail, h]
    · split
      · split <;> simp
      · simp

@[simp] theorem spare_outerRules (tm : TimeBase) (r : Fin 64) (b : RailSect) (v : Option Nat) (d : Device) :
    spare (outerRules tm r b v d) = spare d := by
  unfold outerRules; dsimp only; (repeat' split) <;> simp

@[simp] theorem spare_formVoltages (r : Fin 64) (b : RailSect) (vs : Bank 8 (Nat × Nat)) (j instant : Nat) (d : Device) :
    spare ((formVoltages r b vs j instant d).1) = spare d := by
  unfold formVoltages; dsimp only; (repeat' split) <;> simp

@[simp] theorem spare_countStale (r : Fin 64) (d : Device) :
    spare (countStale r d).1 = spare d := by
  unfold countStale; simp

@[simp] theorem spare_rulesAndReport (tm : TimeBase) (r : Fin 64) (b : RailSect) (v : Option Nat) (c : Option RailCause)
    (d : Device) : spare (rulesAndReport tm r b v c d) = spare d := by
  unfold rulesAndReport
  cases c <;> dsimp only <;> split <;> simp

@[simp] theorem spare_beginTuneOn (tm : TimeBase) (r : Fin 64) (inner : Bool) (now : Nat) (d : Device) :
    spare (beginTuneOn tm r inner now d) = spare d := by
  unfold beginTuneOn; (repeat' split) <;> simp

@[simp] theorem spare_presetCleared (r : Fin 64) (b : RailSect) (d : Device) :
    spare (presetCleared r b d) = spare d := by
  unfold presetCleared; dsimp only; split <;> simp [spare_foldl]

@[simp] theorem spare_presetStarters (r : Fin 64) (b : RailSect) (k : Nat) (d : Device) :
    spare (presetStarters r b k d) = spare d := by
  unfold presetStarters; simp

@[simp] theorem spare_outerInstant (tm : TimeBase) (r : Fin 64) (b : RailSect) (vs : Bank 8 (Nat × Nat)) (j instant : Nat) (d : Device) :
    spare (outerInstant tm r b vs j instant d) = spare d := by
  unfold outerInstant; dsimp only; (repeat' split) <;> simp

@[simp] theorem spare_beginPrecharge (tm : TimeBase) (r : Fin 64) (b : RailSect) (s : StartReady) (d : Device) :
    spare (beginPrecharge tm r b s d) = spare d := by
  unfold beginPrecharge; simp

@[simp] theorem spare_boundaryDecisions (tm : TimeBase) (r : Fin 64) (b : RailSect) (d : Device) :
    spare (boundaryDecisions tm r b d) = spare d := by
  have h1 (d : Device) (l : List Retiring) : spare (l.foldl (fun d t => retireBoundary tm r t d) d) = spare d :=
    spare_foldl _ (fun d t => spare_retireBoundary tm r t d) _ _
  have h2 (d : Device) (l : List (Fin 512)) : spare (l.foldl (fun d g =>
      if (d.slot g).fresh then d.onSlot g fun s => { s with fresh := false } else d) d) = spare d :=
    spare_foldl _ (fun d g => by split <;> simp) _ _
  have h3 (d : Device) : spare (match (d.rail r).ready with
    | some s => if (d.rail r).state = .armed && decide (d.sys.step = .ready) then beginPrecharge tm r b s d else d
    | none => d) = spare d := by
    split
    · split <;> simp
    · rfl
  have h4 (d : Device) : spare (if (d.rail r).state = .regulate ∨ (d.rail r).state = .hold ∨ (d.rail r).state = .ramp
    then kindlingBoundary tm r d else d) = spare d := by split <;> simp
  have key (d : Device) : spare (let t := bankGet d.tbi.rails r
      match t.baseSet with
      | some v =>
        let d := { d with tbi := { d.tbi with rails := bankSet d.tbi.rails r { t with baseSet := none, base := v % max 1 (groupPeriod d b.fgroup) } } }
        recompute r (some v) d
      | none => d) = spare d := by
    dsimp only
    split
    · rw [spare_recompute]; rfl
    · rfl
  unfold boundaryDecisions
  extract_lets d1 d2 d3 d4 d5 d6 t
  have h : spare d6 = spare d :=
    (h4 d5).trans ((spare_releaseEnded ..).trans ((h3 d3).trans ((spare_quadrantBoundary ..).trans ((h2 d1 _).trans (h1 d _)))))
  clear_value d6
  show spare _ = _
  exact (key d6).trans h

@[simp] theorem spare_railBoundary (tm : TimeBase) (r : Fin 64) (b : RailSect) (vs : Bank 8 (Nat × Nat)) (d : Device) :
    spare (railBoundary tm r b vs d) = spare d := by
  unfold railBoundary
  dsimp only
  rw [spare_retirementsEnd, spare_emitStops]
  split
  all_goals
    rename_i h; clear h
    repeat rw [spare_ite]
    simp
    try intro
    try (split <;> simp)

@[simp] theorem spare_actOnRail (tm : TimeBase) (r : Fin 64) (a : Nat) (d : Device) :
    spare (actOnRail tm r a d) = spare d := by
  unfold actOnRail; simp

@[simp] theorem spare_stopPhase (tm : TimeBase) (g : Fin 512) (d : Device) :
    spare (stopPhase tm g d) = spare d := by
  unfold stopPhase; simp

@[simp] theorem spare_tripPhase (tm : TimeBase) (g : Fin 512) (d : Device) :
    spare (tripPhase tm g d) = spare d := by
  unfold tripPhase; (repeat' split) <;> simp

@[simp] theorem spare_fireEntry (tm : TimeBase) (i : Nat) (e : ProtEntry) (d : Device) :
    spare (fireEntry tm i e d) = spare d := by
  unfold fireEntry; simp

@[simp] theorem spare_fireAll (tm : TimeBase) (fired : List (Nat × ProtEntry)) (d : Device) :
    spare (fireAll tm fired d) = spare d := by
  unfold fireAll; (repeat' split) <;> simp

@[simp] theorem spare_updateSources (tm : TimeBase) (f : ProtEntry → ProtSt → ProtSt) (d : Device) :
    spare (updateSources tm f d) = spare d := by
  unfold updateSources; simp

@[simp] theorem spare_railCurrentValues (tm : TimeBase) (rs : List (Fin 64)) (d : Device) :
    spare (railCurrentValues tm rs d) = spare d := by
  unfold railCurrentValues; simp

@[simp] theorem spare_vsenseSources (tm : TimeBase) (n : Fin 8) (code : BitVec 16) (d : Device) :
    spare (vsenseSources tm n code d) = spare d := by
  unfold vsenseSources; simp

@[simp] theorem spare_measSources (tm : TimeBase) (g : Fin 512) (v : Nat) (d : Device) :
    spare (measSources tm g v d) = spare d := by
  unfold measSources; (repeat' split) <;> simp

@[simp] theorem spare_sampleSources (tm : TimeBase) (g : Fin 512) (f : Bool) (ma : Option (List Int)) (d : Device) :
    spare (sampleSources tm g f ma d) = spare d := by
  unfold sampleSources; simp

@[simp] theorem spare_laneSource (tm : TimeBase) (n : Fin 64) (lost : Bool) (d : Device) :
    spare (laneSource tm n lost d) = spare d := by
  unfold laneSource; simp

@[simp] theorem spare_channelSources (tm : TimeBase) (d : Device) :
    spare (channelSources tm d) = spare d := by
  unfold channelSources; simp

@[simp] theorem spare_clearLatches (i : Fin 8) (data : Word) (d : Device) :
    spare (clearLatches i data d) = spare d := by
  unfold clearLatches; simp

@[simp] theorem spare_clearFirst (d : Device) :
    spare (clearFirst d) = spare d := by
  unfold clearFirst; simp

@[simp] theorem spare_roundStart (tm : TimeBase) (thm : Vector (BitVec 12) 4) (uv : Vector (BitVec 24) 4) (d : Device) :
    spare (roundStart tm thm uv d) = spare d := by
  unfold roundStart; simp

@[simp] theorem spare_setIlim (r : Fin 64) (d : Device) :
    spare (setIlim r d) = spare d := by
  unfold setIlim; (repeat' split) <;> rfl

@[simp] theorem spare_reportExhausted (tm : TimeBase) (r : Fin 64) (e : Bool) (d : Device) :
    spare (reportExhausted tm r e d) = spare d := by
  unfold reportExhausted; simp

@[simp] theorem spare_throttleRails (tm : TimeBase) (d : Device) :
    spare (throttleRails tm d) = spare d := by
  unfold throttleRails; simp

@[simp] theorem spare_enterShutdown (tm : TimeBase) (cause : Nat) (index : Nat) (temp : BitVec 16) (nv : NonVol) (d : Device) :
    spare ((enterShutdown tm cause index temp nv d).2) = spare d := by
  unfold enterShutdown; simp

@[simp] theorem spare_raiseWindow (tm : TimeBase) (opened : Bool) (d : Device) :
    spare (raiseWindow tm opened d) = spare d := by
  unfold raiseWindow; simp

@[simp] theorem spare_closeWindow (tm : TimeBase) (nv : NonVol) (d : Device) :
    spare ((closeWindow tm nv d).2) = spare d := by
  unfold closeWindow; (repeat' split) <;> simp

@[simp] theorem spare_openWindow (tm : TimeBase) (nv : NonVol) (d : Device) :
    spare (openWindow tm nv d) = spare d := by
  unfold openWindow; simp

@[simp] theorem spare_windowOpens (tm : TimeBase) (nv : NonVol) (d : Device) :
    spare (windowOpens tm nv d) = spare d := by
  unfold windowOpens; (repeat' split) <;> simp

@[simp] theorem spare_channelEvents (tm : TimeBase) (c : Fin 96) (old new : Channel) (d : Device) :
    spare (channelEvents tm c old new d) = spare d := by
  unfold channelEvents; simp

@[simp] theorem spare_exhaustedEvents (tm : TimeBase) (old : Bank 64 Throttle) (d : Device) :
    spare (exhaustedEvents tm old d) = spare d := by
  unfold exhaustedEvents; simp

@[simp] theorem spare_roundEnd (tm : TimeBase) (nv : NonVol) (d : Device) :
    spare ((roundEnd tm nv d).2) = spare d := by
  unfold roundEnd; dsimp only; (repeat' split) <;> simp

@[simp] theorem spare_housekeepingBias (tm : TimeBase) (d : Device) :
    spare (housekeepingBias tm d) = spare d := by
  unfold housekeepingBias; simp

@[simp] theorem spare_discoverSlot (tm : TimeBase) (g : Fin 512) (d : Device) :
    spare (discoverSlot tm g d) = spare d := by
  unfold discoverSlot; simp

@[simp] theorem spare_checkSlot (accepts : Bool) (g : Fin 512) (d : Device) :
    spare (checkSlot accepts g d) = spare d := by
  unfold checkSlot; (repeat' split) <;> simp

@[simp] theorem spare_slotFound (tm : TimeBase) (g : Fin 512) (d : Device) :
    spare (slotFound tm g d) = spare d := by
  unfold slotFound; simp

@[simp] theorem spare_admitFound (tm : TimeBase) (d : Device) :
    spare (admitFound tm d) = spare d := by
  unfold admitFound; simp

@[simp] theorem spare_loadGains (nv : NonVol) (g : Fin 512) (d : Device) :
    spare (loadGains nv g d) = spare d := by
  unfold loadGains; simp

@[simp] theorem spare_sendConfig (tm : TimeBase) (i : Fin 3) (g : Fin 512) (d : Device) :
    spare (sendConfig tm i g d) = spare d := by
  unfold sendConfig; (repeat' split) <;> rfl

@[simp] theorem spare_startCalibration (tm : TimeBase) (nv : NonVol) (g : Fin 512) (d : Device) :
    spare (startCalibration tm nv g d) = spare d := by
  unfold startCalibration; simp

@[simp] theorem spare_sendNoPulse (tm : TimeBase) (g : Fin 512) (cells exact : Nat) (sum : Int) (prev : Nat) (d : Device) :
    spare (sendNoPulse tm g cells exact sum prev d) = spare d := by
  unfold sendNoPulse; simp

@[simp] theorem spare_endCalibration (g : Fin 512) (ok : Bool) (d : Device) :
    spare (endCalibration g ok d) = spare d := by
  unfold endCalibration; simp

@[simp] theorem spare_calPeriod (tm : TimeBase) (g : Fin 512) (samples : Option (List Int)) (d : Device) :
    spare (calPeriod tm g samples d) = spare d := by
  unfold calPeriod; (repeat' split) <;> simp

@[simp] theorem spare_reply (tm : TimeBase) (g : Fin 512) (addr tag : Byte) (data : BitVec 16) (result : Byte) (d : Device) :
    spare (reply tm g addr tag data result d) = spare d := by
  unfold reply; dsimp only; (repeat' split) <;> simp

@[simp] theorem spare_replyTimeout (tm : TimeBase) (g : Fin 512) (d : Device) :
    spare (replyTimeout tm g d) = spare d := by
  unfold replyTimeout; dsimp only; (repeat' split) <;> simp

@[simp] theorem spare_admitSlot (g : Fin 512) (d : Device) :
    spare (admitSlot g d) = spare d := by
  unfold admitSlot; (repeat' split) <;> simp

@[simp] theorem spare_refuseSlot (g : Fin 512) (d : Device) :
    spare (refuseSlot g d) = spare d := by
  unfold refuseSlot; (repeat' split) <;> simp

@[simp] theorem spare_recalSlot (tm : TimeBase) (g : Fin 512) (d : Device) :
    spare (recalSlot tm g d) = spare d := by
  unfold recalSlot; simp

@[simp] theorem spare_saveCalibration (nv : NonVol) (g : Fin 512) (d : Device) :
    spare (saveCalibration nv g d) = spare d := by
  unfold saveCalibration; simp

@[simp] theorem spare_writeSlotCal (g : Fin 512) (voltage : Bool) (data : Word) (d : Device) :
    spare (writeSlotCal g voltage data d) = spare d := by
  unfold writeSlotCal; simp

@[simp] theorem spare_sampleToEngine (tm : TimeBase) (g : Fin 512) (q : Period) (exact : Bool) (ma : List Int) (d : Device) :
    spare (sampleToEngine tm g q exact ma d) = spare d := by
  unfold sampleToEngine; (repeat' split) <;> simp

@[simp] theorem spare_deliverSamples (tm : TimeBase) (n : Fin 64) (slot : Fin 8) (f late sat : Bool) (samples : List Int) (d : Device) :
    spare (deliverSamples tm n slot f late sat samples d) = spare d := by
  unfold deliverSamples; dsimp only; (repeat' split) <;> simp

@[simp] theorem spare_missSample (tm : TimeBase) (g : Fin 512) (d : Device) :
    spare (missSample tm g d) = spare d := by
  unfold missSample; dsimp only; (repeat' split) <;> simp

@[simp] theorem spare_takeMeas (tm : TimeBase) (n : Fin 64) (slot : Fin 8) (vout vin temp : BitVec 16) (d : Device) :
    spare (takeMeas tm n slot vout vin temp d) = spare d := by
  unfold takeMeas; dsimp only; (repeat' split) <;> simp

@[simp] theorem spare_startRetrain (tm : TimeBase) (n : Fin 64) (d : Device) : spare (startRetrain tm n d) = spare d := by
  unfold startRetrain
  split
  · rfl
  · refine (spare_foldl _ (fun d g => ?_) _ _).trans ?_
    · split <;> simp
    · simp

@[simp] theorem spare_causeRetrain (tm : TimeBase) (n : Fin 64) (d : Device) :
    spare (causeRetrain tm n d) = spare d := by
  unfold causeRetrain; simp

@[simp] theorem spare_slotRemoved (tm : TimeBase) (g : Fin 512) (d : Device) :
    spare (slotRemoved tm g d) = spare d := by
  unfold slotRemoved; (repeat' split) <;> simp

@[simp] theorem spare_setFitted (tm : TimeBase) (n : Fin 64) (mask : BitVec 8) (d : Device) :
    spare (setFitted tm n mask d) = spare d := by
  unfold setFitted; simp

@[simp] theorem spare_countDnCrc (tm : TimeBase) (n : Fin 64) (dnCrc : Byte) (d : Device) :
    spare ((countDnCrc tm n dnCrc d).1) = spare d := by
  unfold countDnCrc; simp

@[simp] theorem spare_slotHalted (tm : TimeBase) (g : Fin 512) (fault : Byte) (d : Device) :
    spare (slotHalted tm g fault d) = spare d := by
  unfold slotHalted; simp

@[simp] theorem spare_takeStatus (tm : TimeBase) (n : Fin 64) (slot : Fin 8) (modslots dnCrc late fault st : Byte) (d : Device) :
    spare (takeStatus tm n slot modslots dnCrc late fault st d) = spare d := by
  unfold takeStatus; simp

@[simp] theorem spare_countSymbols (n : Fin 64) (symbols : Byte) (d : Device) :
    spare (countSymbols n symbols d) = spare d := by
  unfold countSymbols; simp

@[simp] theorem spare_upstreamLost (tm : TimeBase) (n : Fin 64) (symbols : Byte) (d : Device) :
    spare (upstreamLost tm n symbols d) = spare d := by
  unfold upstreamLost; split <;> simp

@[simp] theorem spare_cellError (tm : TimeBase) (n : Fin 64) (symbols : Byte) (d : Device) :
    spare (cellError tm n symbols d) = spare d := by
  unfold cellError; (repeat' split) <;> simp

@[simp] theorem spare_startTraining (tm : TimeBase) (n : Fin 64) (d : Device) :
    spare (startTraining tm n d) = spare d := by
  unfold startTraining; simp

@[simp] theorem spare_sendEcho (tm : TimeBase) (n : Fin 64) (t : Training) (d : Device) :
    spare (sendEcho tm n t d) = spare d := by
  unfold sendEcho; simp

@[simp] theorem spare_upstreamLock (tm : TimeBase) (n : Fin 64) (d : Device) :
    spare (upstreamLock tm n d) = spare d := by
  unfold upstreamLock; dsimp only; (repeat' split) <;> simp

@[simp] theorem spare_trainingFails (n : Fin 64) (d : Device) :
    spare (trainingFails n d) = spare d := by
  unfold trainingFails; simp

@[simp] theorem spare_laneLoss (tm : TimeBase) (n : Fin 64) (d : Device) :
    spare (laneLoss tm n d) = spare d := by
  unfold laneLoss; simp

@[simp] theorem spare_retrainFails (tm : TimeBase) (n : Fin 64) (d : Device) :
    spare (retrainFails tm n d) = spare d := by
  unfold retrainFails; simp

@[simp] theorem spare_attemptFails (tm : TimeBase) (n : Fin 64) (d : Device) :
    spare (attemptFails tm n d) = spare d := by
  unfold attemptFails; (repeat' split) <;> simp

@[simp] theorem spare_trainingTimeout (tm : TimeBase) (n : Fin 64) (d : Device) :
    spare (trainingTimeout tm n d) = spare d := by
  unfold trainingTimeout; (repeat' split) <;> simp

@[simp] theorem spare_echoReply (tm : TimeBase) (n : Fin 64) (tag : Byte) (turn rtd : BitVec 16) (d : Device) :
    spare (echoReply tm n tag turn rtd d) = spare d := by
  have h (f : Device → Device) (hf : ∀ d, spare (f d) = spare d) : spare ((List.range 9).foldl
      (fun d a => sendRead (globalSlot n 0) a d) (f d)) = spare d :=
    (spare_foldl _ (fun d a => spare_sendRead (globalSlot n 0) a d) _ _).trans (hf d)
  unfold echoReply
  split
  · rfl
  · split
    · rfl
    · extract_lets t' sum delay d1 d2
      split
      · simp
      · split
        · simp
        · exact (spare_foldl _ (fun d a => spare_sendRead (globalSlot n 0) a d) _ _).trans
            ((spare_sendCell ..).trans (spare_Device_onLane ..))

@[simp] theorem spare_takeIdentity (n : Fin 64) (i : ModIdent) (d : Device) :
    spare (takeIdentity n i d) = spare d := by
  unfold takeIdentity; simp

@[simp] theorem spare_enterUp (tm : TimeBase) (n : Fin 64) (d : Device) :
    spare (enterUp tm n d) = spare d := by
  unfold enterUp; simp

@[simp] theorem spare_discoverFitted (tm : TimeBase) (n : Fin 64) (mask : BitVec 8) (pick : Slot → Bool) (d : Device) :
    spare (discoverFitted tm n mask pick d) = spare d := by
  unfold discoverFitted; simp

@[simp] theorem spare_trainingEnds (tm : TimeBase) (n : Fin 64) (i : ModIdent) (d : Device) :
    spare (trainingEnds tm n i d) = spare d := by
  unfold trainingEnds; (repeat' split) <;> simp

@[simp] theorem spare_returnSlot (g : Fin 512) (d : Device) :
    spare (returnSlot g d) = spare d := by
  unfold returnSlot; simp

@[simp] theorem spare_retrainEnds (tm : TimeBase) (n : Fin 64) (res : Option ModIdent) (d : Device) :
    spare (retrainEnds tm n res d) = spare d := by
  have h1 (l : List (Fin 512)) (d : Device) : spare (l.foldl (fun d g => returnSlot g d) d) = spare d :=
    spare_foldl _ (fun d g => spare_returnSlot g d) _ _
  have h2 (l : List (Fin 512)) (d : Device) : spare (l.foldl (fun d g =>
      if (d.slot g).state = .lost ∧ (d.slot g).reason = .lane then d.onSlot g fun s => { s with reason := .identity } else d) d)
      = spare d := spare_foldl _ (fun d g => by split <;> simp) _ _
  unfold retrainEnds
  split
  · simp
  · split
    · rfl
    · dsimp only
      split
      · rw [spare_setFitted, h1, spare_enterUp, spare_takeIdentity]
      · rw [spare_discoverFitted, spare_Device_onLane, h2, spare_enterUp, spare_takeIdentity]
  · rfl

@[simp] theorem spare_laneRetrain (tm : TimeBase) (n : Fin 64) (d : Device) :
    spare (laneRetrain tm n d) = spare d := by
  unfold laneRetrain; (repeat' split) <;> simp

@[simp] theorem spare_settleDomain (q : Fin 4) (d : Device) :
    spare (settleDomain q d) = spare d := by
  unfold settleDomain; simp

@[simp] theorem spare_laneUnused (tm : TimeBase) (n : Fin 64) (d : Device) : spare (laneUnused tm n d) = spare d := by
  unfold laneUnused
  rw [spare_settleDomain, spare_Device_onLane]
  refine spare_foldl _ (fun d g => ?_) _ _
  dsimp only
  split <;> simp

@[simp] theorem spare_disableTakesEffect (tm : TimeBase) (n : Fin 64) (d : Device) :
    spare (disableTakesEffect tm n d) = spare d := by
  unfold disableTakesEffect; simp

@[simp] theorem spare_laneDown (n : Fin 64) (d : Device) :
    spare (laneDown n d) = spare d := by
  unfold laneDown; simp

@[simp] theorem spare_domainOn (q : Fin 4) (d : Device) :
    spare (domainOn q d) = spare d := by
  unfold domainOn; simp

@[simp] theorem spare_writeDisable (tm : TimeBase) (n : Fin 64) (v : Bool) (d : Device) :
    spare (writeDisable tm n v d) = spare d := by
  unfold writeDisable; simp

@[simp] theorem spare_timeCells (d : Device) :
    spare (timeCells d) = spare d := by
  unfold timeCells; simp

@[simp] theorem spare_biasTimer (tm : TimeBase) (d : Device) :
    spare (biasTimer tm d) = spare d := by
  unfold biasTimer; simp

@[simp] theorem spare_receiverSleeps (tm : TimeBase) (n : Fin 64) (d : Device) :
    spare (receiverSleeps tm n d) = spare d := by
  unfold receiverSleeps; simp

@[simp] theorem spare_finishCmd (r : Fin 64) (pos : Nat) (res : CmdResult) (d : Device) :
    spare (finishCmd r pos res d) = spare d := by
  unfold finishCmd; simp

@[simp] theorem spare_refuseCmd (r : Fin 64) (pos : Nat) (res : CmdResult) (d : Device) :
    spare (refuseCmd r pos res d) = spare d := by
  unfold refuseCmd; simp

@[simp] theorem spare_armRail (tm : TimeBase) (r : Fin 64) (d : Device) :
    spare (armRail tm r d) = spare d := by
  unfold armRail; simp

@[simp] theorem spare_disarmRail (tm : TimeBase) (r : Fin 64) (d : Device) :
    spare (disarmRail tm r d) = spare d := by
  unfold disarmRail; simp

@[simp] theorem spare_commandStart (tm : TimeBase) (r : Fin 64) (d : Device) :
    spare (commandStart tm r d) = spare d := by
  unfold commandStart; simp

@[simp] theorem spare_stopRail (tm : TimeBase) (r : Fin 64) (d : Device) :
    spare (stopRail tm r d) = spare d := by
  unfold stopRail; simp

@[simp] theorem spare_softStop (tm : TimeBase) (r : Fin 64) (d : Device) :
    spare (softStop tm r d) = spare d := by
  unfold softStop; (repeat' split) <;> simp

@[simp] theorem spare_clearRail (tm : TimeBase) (src : Src) (r : Fin 64) (d : Device) :
    spare (clearRail tm src r d) = spare d := by
  unfold clearRail; (repeat' split) <;> simp

@[simp] theorem spare_retirePhase (tm : TimeBase) (r : Fin 64) (pos : Fin 128) (d : Device) :
    spare (retirePhase tm r pos d) = spare d := by
  unfold retirePhase; dsimp only; (repeat' split) <;> simp

@[simp] theorem spare_restorePhase (tm : TimeBase) (r : Fin 64) (pos : Fin 128) (d : Device) :
    spare (restorePhase tm r pos d) = spare d := by
  unfold restorePhase; dsimp only; (repeat' split) <;> simp

@[simp] theorem spare_writeVset (r : Fin 64) (data : Word) (d : Device) :
    spare (writeVset r data d) = spare d := by
  unfold writeVset; simp

@[simp] theorem spare_writeVnext (r : Fin 64) (data : Word) (d : Device) :
    spare (writeVnext r data d) = spare d := by
  unfold writeVnext; simp

@[simp] theorem spare_writeWindow (r : Fin 64) (high : Bool) (data : Word) (d : Device) :
    spare (writeWindow r high data d) = spare d := by
  unfold writeWindow; simp

@[simp] theorem spare_rampRail (tm : TimeBase) (r : Fin 64) (d : Device) :
    spare (rampRail tm r d) = spare d := by
  unfold rampRail; (repeat' split) <;> simp

@[simp] theorem spare_rampAll (tm : TimeBase) (d : Device) :
    spare (rampAll tm d) = spare d := by
  unfold rampAll; simp

@[simp] theorem spare_rampExpires (tm : TimeBase) (r : Fin 64) (d : Device) :
    spare (rampExpires tm r d) = spare d := by
  unfold rampExpires; dsimp only; (repeat' split) <;> simp

@[simp] theorem spare_holdExpires (tm : TimeBase) (r : Fin 64) (d : Device) :
    spare (holdExpires tm r d) = spare d := by
  unfold holdExpires; simp

@[simp] theorem spare_retryRail (tm : TimeBase) (r : Fin 64) (d : Device) :
    spare (retryRail tm r d) = spare d := by
  unfold retryRail; dsimp only; (repeat' split) <;> simp

@[simp] theorem spare_resetRetries (tm : TimeBase) (r : Fin 64) (d : Device) :
    spare (resetRetries tm r d) = spare d := by
  unfold resetRetries; simp

@[simp] theorem spare_measurementEnds (tm : TimeBase) (r : Fin 64) (d : Device) :
    spare (measurementEnds tm r d) = spare d := by
  unfold measurementEnds; (repeat' split) <;> simp

@[simp] theorem spare_strapStart (tm : TimeBase) (d : Device) :
    spare (strapStart tm d) = spare d := by
  unfold strapStart; simp

@[simp] theorem spare_clearTripped (r : Fin 64) (i : Fin 4) (data : Word) (d : Device) :
    spare (clearTripped r i data d) = spare d := by
  unfold clearTripped; simp

@[simp] theorem spare_expireRequest (tm : TimeBase) (r : Fin 64) (h : Fin 256) (d : Device) :
    spare (expireRequest tm r h d) = spare d := by
  unfold expireRequest; simp

@[simp] theorem spare_warmStartDue (tm : TimeBase) (e : Fin 128) (d : Device) :
    spare (warmStartDue tm e d) = spare d := by
  unfold warmStartDue; dsimp only; (repeat' split) <;> simp

@[simp] theorem spare_writeBase (r : Fin 64) (base : BitVec 16) (d : Device) :
    spare (writeBase r base d) = spare d := by
  unfold writeBase; simp

@[simp] theorem spare_deadlinePasses (tm : TimeBase) (loop : LoopRef) (d : Device) :
    spare (deadlinePasses tm loop d) = spare d := by
  unfold deadlinePasses; dsimp only; (repeat' split) <;> simp

@[simp] theorem spare_clearLoop (r : Fin 64) (d : Device) :
    spare (clearLoop r d) = spare d := by
  unfold clearLoop; simp

@[simp] theorem spare_clearEngine (d : Device) :
    spare (clearEngine d) = spare d := by
  unfold clearEngine; simp

@[simp] theorem spare_writeCoef (tm : TimeBase) (r : Fin 64) (outer : Bool) (k : Fin 8) (m : Option Word) (s : Byte) (d : Device) :
    spare (writeCoef tm r outer k m s d) = spare d := by
  unfold writeCoef; simp

@[simp] theorem spare_noRun (tm : TimeBase) (r : Fin 64) (inner : Bool) (res : TuneResult) (check : Nat) (d : Device) :
    spare (noRun tm r inner res check d) = spare d := by
  unfold noRun; simp

@[simp] theorem spare_startTune (tm : TimeBase) (src : Src) (r : Fin 64) (inner : Bool) (rule : BitVec 2) (d : Device) :
    spare (startTune tm src r inner rule d) = spare d := by
  unfold startTune; (repeat' split) <;> simp

@[simp] theorem spare_stopTune (tm : TimeBase) (d : Device) :
    spare (stopTune tm d) = spare d := by
  unfold stopTune; simp

@[simp] theorem spare_tuneExpires (tm : TimeBase) (d : Device) :
    spare (tuneExpires tm d) = spare d := by
  unfold tuneExpires; (repeat' split) <;> simp

@[simp] theorem spare_Device_onBus (d : Device) (b : Fin 2) (f : CanBus → CanBus) :
    spare (Device.onBus d b f) = spare d := by
  unfold Device.onBus; simp

@[simp] theorem spare_Device_onPartner (d : Device) (h : Fin 256) (f : Partner → Partner) :
    spare (Device.onPartner d h f) = spare d := by
  unfold Device.onPartner; simp

@[simp] theorem spare_queueFrame (tm : TimeBase) (b : Fin 2) (id : BitVec 29) (payload : List Byte) (start : Option Word) (d : Device) :
    spare (queueFrame tm b id payload start d) = spare d := by
  unfold queueFrame; simp

@[simp] theorem spare_sendTo (tm : TimeBase) (h : Fin 256) (id : BitVec 29) (payload : List Byte) (start : Option Word) (d : Device) :
    spare (sendTo tm h id payload start d) = spare d := by
  unfold sendTo; simp

@[simp] theorem spare_sendKind (tm : TimeBase) (k : FrameKind) (h : Fin 256) (payload : List Byte) (start : Option Word) (d : Device) :
    spare (sendKind tm k h payload start d) = spare d := by
  unfold sendKind; simp

@[simp] theorem spare_keepTag (h : Fin 256) (tag : Byte) (d : Device) :
    spare (keepTag h tag d) = spare d := by
  unfold keepTag; simp

@[simp] theorem spare_noteFrame (h : Fin 256) (tag entry : Byte) (id : BitVec 29) (payload : List Byte) (d : Device) :
    spare (noteFrame h tag entry id payload d) = spare d := by
  unfold noteFrame; simp

@[simp] theorem spare_tellEntry (tm : TimeBase) (k : FrameKind) (h : Fin 256) (tag entry : Nat) (payload : List Byte) (start : Option Word) (d : Device) :
    spare (tellEntry tm k h tag entry payload start d) = spare d := by
  unfold tellEntry; simp

@[simp] theorem spare_ledgerOp (e : Fin 128) (f : Entry → Entry) (d : Device) :
    spare (ledgerOp e f d) = spare d := by
  unfold ledgerOp; simp

@[simp] theorem spare_onCharges (f : List Charge → List Charge) (d : Device) :
    spare (onCharges f d) = spare d := by
  unfold onCharges; simp

@[simp] theorem spare_hsInt (i : Nat) (d : Device) :
    spare (hsInt i d) = spare d := by
  unfold hsInt; simp

@[simp] theorem spare_raiseLedger (tm : TimeBase) (event : Nat) (e : Fin 128) (d : Device) :
    spare (raiseLedger tm event e d) = spare d := by
  unfold raiseLedger; simp

@[simp] theorem spare_raiseHearth (tm : TimeBase) (event : Nat) (d : Device) :
    spare (raiseHearth tm event d) = spare d := by
  unfold raiseHearth; simp

@[simp] theorem spare_takeShare (n : Nat) (d : Device) :
    spare (takeShare n d) = spare d := by
  unfold takeShare; (repeat' split) <;> rfl

@[simp] theorem spare_takePause (n : Nat) (r : Fin 64) (d : Device) :
    spare (takePause n r d) = spare d := by
  unfold takePause; split <;> simp

@[simp] theorem spare_takeQuantities (n : Nat) (d0 : Device) :
    spare (takeQuantities n d0) = spare d0 := by
  unfold takeQuantities; simp

@[simp] theorem spare_grantOnRail (tm : TimeBase) (e : Fin 128) (d : Device) :
    spare (grantOnRail tm e d) = spare d := by
  unfold grantOnRail; dsimp only; split <;> simp

@[simp] theorem spare_grantEntry (tm : TimeBase) (e : Fin 128) (s : Nat) (d : Device) :
    spare (grantEntry tm e s d) = spare d := by
  unfold grantEntry; simp

@[simp] theorem spare_revokeEntry (tm : TimeBase) (e : Fin 128) (why : LedReason) (d : Device) :
    spare (revokeEntry tm e why d) = spare d := by
  unfold revokeEntry; dsimp only; (repeat' split) <;> simp

@[simp] theorem spare_squashEntry (tm : TimeBase) (e : Fin 128) (why : LedReason) (hint : Nat) (d : Device) :
    spare (squashEntry tm e why hint d) = spare d := by
  unfold squashEntry; (repeat' split) <;> simp

@[simp] theorem spare_finishEntry (tm : TimeBase) (e : Fin 128) (why : LedReason) (d : Device) :
    spare (finishEntry tm e why d) = spare d := by
  unfold finishEntry; dsimp only; (repeat' split) <;> simp

@[simp] theorem spare_unplanEntry (tm : TimeBase) (e : Fin 128) (d : Device) :
    spare (unplanEntry tm e d) = spare d := by
  unfold unplanEntry; simp

@[simp] theorem spare_noteIntake (h : Fin 256) (tag entry : Byte) (id : BitVec 29) (payload : List Byte) (d : Device) :
    spare (noteIntake h tag entry id payload d) = spare d := by
  unfold noteIntake; simp

@[simp] theorem spare_tellIntake (tm : TimeBase) (k : FrameKind) (h : Fin 256) (tag entry : Nat) (payload : List Byte) (d : Device) :
    spare (tellIntake tm k h tag entry payload d) = spare d := by
  unfold tellIntake; simp

@[simp] theorem spare_intakeOne (tm : TimeBase) (n : Nat) (d : Device) (q : Request) :
    spare (intakeOne tm n d q) = spare d := by
  unfold intakeOne; (repeat' split) <;> simp

@[simp] theorem spare_activate (n : Nat) (d : Device) :
    spare (activate n d) = spare d := by
  unfold activate; simp

@[simp] theorem spare_completionTimeout (tm : TimeBase) (n : Nat) (e : Fin 128) (d : Device) :
    spare (completionTimeout tm n e d) = spare d := by
  unfold completionTimeout; simp

@[simp] theorem spare_freeEnded (n : Nat) (d : Device) :
    spare (freeEnded n d) = spare d := by
  unfold freeEnded; simp

@[simp] theorem spare_committedCheck (tm : TimeBase) (n fuel : Nat) (d : Device) :
    spare (committedCheck tm n fuel d) = spare d := by
  induction fuel generalizing d with
  | zero => rfl
  | succ k ih =>
    unfold committedCheck
    rw [spare_ite]
    split
    · rfl
    · dsimp only
      split
      · simp
      · rw [ih]; simp

@[simp] theorem spare_plannedCheck (tm : TimeBase) (n : Nat) (d : Device) :
    spare (plannedCheck tm n d) = spare d := by
  unfold plannedCheck; simp

@[simp] theorem spare_windowSquashes (tm : TimeBase) (n : Nat) (d : Device) :
    spare (windowSquashes tm n d) = spare d := by
  unfold windowSquashes; simp

@[simp] theorem spare_confirmEntries (tm : TimeBase) (n : Nat) (d : Device) :
    spare (confirmEntries tm n d) = spare d := by
  unfold confirmEntries; simp

@[simp] theorem spare_noteAbsence (tm : TimeBase) (d : Device) :
    spare (noteAbsence tm d) = spare d := by
  unfold noteAbsence; simp

@[simp] theorem spare_hearthTick (tm : TimeBase) (d : Device) : spare (hearthTick tm d) = spare d := by
  have h1 (n : Nat) (l : List (Fin 128)) (d : Device) : spare (l.foldl (fun d e => completionTimeout tm n e d) d) = spare d :=
    spare_foldl _ (fun d e => spare_completionTimeout tm n e d) _ _
  have h2 (n : Nat) (l : List Request) (d : Device) : spare (l.foldl (intakeOne tm n) d) = spare d :=
    spare_foldl _ (fun d q => spare_intakeOne tm n d q) _ _
  have h3 (n : Nat) (d : Device) : spare (if supRunning tm d then plannedCheck tm n d else d) = spare d := by
    rw [spare_ite]; split
    · rw [spare_plannedCheck]
    · rfl
  have h4 (n : Nat) (d : Device) : spare (if supRunning tm d then confirmEntries tm n d else d) = spare d := by
    rw [spare_ite]; split
    · rw [spare_confirmEntries]
    · rfl
  unfold hearthTick
  extract_lets n hs1 d1 d2 d3 d4 reqs hs2 d5 d6 d7 d8
  rw [spare_ite]
  split
  · rfl
  · have e1 : spare d1 = spare d := (spare_noteAbsence ..).trans rfl
    have e2 : spare d2 = spare d1 := (spare_activate ..).trans (spare_takeQuantities ..)
    clear_value d2
    have e3 : spare d3 = spare d2 := h1 _ _ _
    clear_value d3
    have e4 : spare d4 = spare d3 := spare_freeEnded ..
    clear_value d4
    have e5 : spare d5 = spare d4 := (h2 _ _ _).trans rfl
    clear_value d5
    have e6 : spare d6 = spare d5 := spare_committedCheck ..
    clear_value d6
    have e7 : spare d7 = spare d6 := h3 _ _
    clear_value d7
    have e8 : spare d8 = spare d7 := spare_windowSquashes ..
    clear_value d8
    exact (h4 n d8).trans (e8.trans (e7.trans (e6.trans (e5.trans (e4.trans (e3.trans (e2.trans e1)))))))

@[simp] theorem spare_pauseUpdate (tm : TimeBase) (r : Fin 64) (d : Device) :
    spare (pauseUpdate tm r d) = spare d := by
  unfold pauseUpdate; (repeat' split) <;> simp

@[simp] theorem spare_planResult (r : PlanResult) (d : Device) :
    spare (planResult r d) = spare d := by
  unfold planResult; simp

@[simp] theorem spare_planEntry (tm : TimeBase) (e : Fin 128) (s : Nat) (d : Device) :
    spare (planEntry tm e s d) = spare d := by
  unfold planEntry; simp

@[simp] theorem spare_planCommand (tm : TimeBase) (e : Fin 128) (start : Word) (d0 : Device) :
    spare (planCommand tm e start d0) = spare d0 := by
  unfold planCommand; simp

@[simp] theorem spare_invalidateCommand (tm : TimeBase) (e : Fin 128) (d : Device) :
    spare (invalidateCommand tm e d) = spare d := by
  unfold invalidateCommand; simp

@[simp] theorem spare_squashCommand (tm : TimeBase) (e : Fin 128) (hint : Nat) (d : Device) :
    spare (squashCommand tm e hint d) = spare d := by
  unfold squashCommand; (repeat' split) <;> simp

@[simp] theorem spare_planPass (tm : TimeBase) (d : Device) :
    spare (planPass tm d) = spare d := by
  unfold planPass
  first
  | (simp; done)
  | ((try dsimp only) <;> (repeat' split) <;> first | rfl | (simp [*]; done) | (simp; done) | (refine (spare_foldl _ (fun d x => ?_) _ _).trans ?_ <;> (try dsimp only) <;> (repeat' split) <;> simp; done))

@[simp] theorem spare_handleLeaves (tm : TimeBase) (h : Fin 256) (d : Device) :
    spare (handleLeaves tm h d) = spare d := by
  unfold handleLeaves
  first
  | (simp; done)
  | ((try dsimp only) <;> (repeat' split) <;> first | rfl | (simp [*]; done) | (simp; done) | (refine (spare_foldl _ (fun d x => ?_) _ _).trans ?_ <;> (try dsimp only) <;> (repeat' split) <;> simp; done))

@[simp] theorem spare_ringStart (tm : TimeBase) (d : Device) : spare (ringStart tm d) = spare d := by
  unfold ringStart
  dsimp only
  split <;> rfl

@[simp] theorem spare_ringFrame (tm : TimeBase) (bs : List Byte) (d : Device) :
    spare (ringFrame tm bs d) = spare d := by
  unfold ringFrame; simp

@[simp] theorem spare_freshLink (tm : TimeBase) (d : Device) :
    spare (freshLink tm d) = spare d := by
  unfold freshLink; (repeat' split) <;> rfl

@[simp] theorem spare_ringTimeout (tm : TimeBase) (d : Device) :
    spare (ringTimeout tm d) = spare d := by
  unfold ringTimeout; (repeat' split) <;> rfl

@[simp] theorem spare_ppInt (i : Nat) (d : Device) :
    spare (ppInt i d) = spare d := by
  unfold ppInt; simp

@[simp] theorem spare_raisePartner (tm : TimeBase) (event h b : Nat) (reason : FrameReason) (unit : Nat) (d : Device) :
    spare (raisePartner tm event h b reason unit d) = spare d := by
  unfold raisePartner; simp

@[simp] theorem spare_received (b : Fin 2) (d : Device) : spare (received b d) = spare d := by
  unfold received; simp

theorem spare_arrived (b : Fin 2) (node : BitVec 4) (f : Device → Device) (h : ∀ d, spare (f d) = spare d) (d : Device) :
    spare (arrived b node f d) = spare d := by
  unfold arrived
  dsimp only
  repeat' split
  all_goals first | rfl | simp [h]

@[simp] theorem spare_heardFrom (tm : TimeBase) (b : Fin 2) (h : Fin 256) (unit : Option (BitVec 16)) (d : Device) :
    spare (heardFrom tm b h unit d) = spare d := by
  unfold heardFrom; simp

@[simp] theorem spare_dropRequests (h : Fin 256) (d : Device) :
    spare (dropRequests h d) = spare d := by
  unfold dropRequests; simp

@[simp] theorem spare_freeHandle (tm : TimeBase) (h : Fin 256) (why : LeaveCause) (d : Device) :
    spare (freeHandle tm h why d) = spare d := by
  unfold freeHandle; (repeat' split) <;> simp

@[simp] theorem spare_leaveFrame (tm : TimeBase) (b : Fin 2) (h : Fin 256) (unit : BitVec 16) (d : Device) :
    spare (leaveFrame tm b h unit d) = spare d := by
  unfold leaveFrame; simp

@[simp] theorem spare_keepaliveFrame (tm : TimeBase) (b : Fin 2) (h : Fin 256) (unit : BitVec 16) (d : Device) :
    spare (keepaliveFrame tm b h unit d) = spare d := by
  unfold keepaliveFrame; simp

@[simp] theorem spare_leaseExpires (tm : TimeBase) (h : Fin 256) (d : Device) :
    spare (leaseExpires tm h d) = spare d := by
  unfold leaseExpires; simp

@[simp] theorem spare_holdoffEnds (tm : TimeBase) (h : Fin 256) (d : Device) :
    spare (holdoffEnds tm h d) = spare d := by
  unfold holdoffEnds; simp

@[simp] theorem spare_orphansLeave (tm : TimeBase) (d : Device) :
    spare (orphansLeave tm d) = spare d := by
  unfold orphansLeave; simp

@[simp] theorem spare_joinAck (tm : TimeBase) (h : Fin 256) (d : Device) :
    spare (joinAck tm h d) = spare d := by
  unfold joinAck; simp

@[simp] theorem spare_giveHandle (tm : TimeBase) (b : Fin 2) (h : Fin 256) (unit : BitVec 16) (nonce : Word) (d : Device) :
    spare (giveHandle tm b h unit nonce d) = spare d := by
  unfold giveHandle; simp

@[simp] theorem spare_joinRefuse (tm : TimeBase) (b : Fin 2) (unit : BitVec 16) (nonce : Word) (why : FrameReason) (hint : Nat) (d : Device) :
    spare (joinRefuse tm b unit nonce why hint d) = spare d := by
  unfold joinRefuse; simp

@[simp] theorem spare_joinFrame (tm : TimeBase) (b : Fin 2) (unit : BitVec 16) (nonce : Word) (rejoin : Bool) (prev : Fin 256) (proto : BitVec 16) (d : Device) :
    spare (joinFrame tm b unit nonce rejoin prev proto d) = spare d := by
  unfold joinFrame; (repeat' split) <;> simp

@[simp] theorem spare_discardFrame (d : Device) :
    spare (discardFrame d) = spare d := by
  unfold discardFrame; simp

@[simp] theorem spare_refreshStanding (h : Fin 256) (d : Device) :
    spare (refreshStanding h d) = spare d := by
  unfold refreshStanding; simp

@[simp] theorem spare_motionFrame (tm : TimeBase) (b : Fin 2) (h : Fin 256) (tag : Byte) (segs : Nat) (cls : Nat) (unit : BitVec 16) (earliest latest : Word) (profile : List ProfileSeg) (d : Device) :
    spare (motionFrame tm b h tag segs cls unit earliest latest profile d) = spare d := by
  unfold motionFrame; dsimp only; (repeat' split) <;> simp

theorem spare_cancelEntry {tm : TimeBase} {e : Fin 128} {d d' : Device} (h : cancelEntry tm e d = some d') :
    spare d' = spare d := by
  unfold cancelEntry at h
  split at h <;> cases h <;> simp

theorem spare_completeEntry {tm : TimeBase} {e : Fin 128} {d d' : Device} (h : completeEntry tm e d = some d') :
    spare d' = spare d := by
  unfold completeEntry at h
  split at h <;> cases h <;> simp

theorem spare_reverseEntry {tm : TimeBase} {e : Fin 128} {segs : List Seg} {d : Device} {x : Device × Nat × Nat × Bool}
    (h : reverseEntry tm e segs d = some x) : spare x.1 = spare d := by
  unfold reverseEntry at h
  dsimp only at h
  split at h <;> cases h <;> simp

theorem spare_actOnEntry {tm : TimeBase} {tag : Byte} {e : Fin 128} {f : EntryFrame} {d d' : Device} {bytes : List Byte}
    (h : actOnEntry tm tag e f d = some (d', bytes)) : spare d' = spare d := by
  unfold actOnEntry at h
  cases f with
  | cancel =>
    obtain ⟨x, hx, he⟩ := Option.map_eq_some_iff.mp h
    cases he; exact spare_cancelEntry hx
  | complete =>
    obtain ⟨x, hx, he⟩ := Option.map_eq_some_iff.mp h
    cases he; exact spare_completeEntry hx
  | reverse segs p =>
    obtain ⟨x, hx, he⟩ := Option.map_eq_some_iff.mp h
    cases he; exact spare_reverseEntry hx

@[simp] theorem spare_entryFrame (tm : TimeBase) (b : Fin 2) (h : Fin 256) (tag entry : Byte) (f : EntryFrame) (d : Device) :
    spare (entryFrame tm b h tag entry f d) = spare d := by
  unfold entryFrame
  dsimp only
  repeat' split
  all_goals first
    | (simp; done)
    | (rename_i hx _; simp [spare_actOnEntry hx]; done)
    | (rename_i hx; simp [spare_actOnEntry hx])

@[simp] theorem spare_vreqFrame (tm : TimeBase) (b : Fin 2) (h : Fin 256) (tag : Byte) (value : Word) (d : Device) :
    spare (vreqFrame tm b h tag value d) = spare d := by
  unfold vreqFrame; dsimp only; (repeat' split) <;> simp

@[simp] theorem spare_evictHandle (tm : TimeBase) (h : Fin 256) (d : Device) :
    spare (evictHandle tm h d) = spare d := by
  unfold evictHandle; simp

@[simp] theorem spare_heartbeat (tm : TimeBase) (d0 : Device) :
    spare (heartbeat tm d0) = spare d0 := by
  unfold heartbeat; simp

theorem spare_repeat (f : Device → Device) (h : ∀ d, spare (f d) = spare d) (n : Nat) (d : Device) :
    spare (Nat.repeat f n d) = spare d := by
  induction n with
  | zero => rfl
  | succ n ih => rw [Nat.repeat, h, ih]

@[simp] theorem spare_dropStale (tm : TimeBase) (sync : Bool) (b : Fin 2) (d : Device) :
    spare (dropStale tm sync b d) = spare d := by
  unfold dropStale
  extract_lets old n d1 d2
  rw [spare_ite, spare_ite]
  split
  · rfl
  · split
    · rw [spare_repeat (raisePartner tm 7 0 b.val .timeout 0) (fun d => spare_raisePartner ..)]
      exact (rfl : spare _ = spare d1).trans (spare_Device_onBus d b _)
    · exact (rfl : spare _ = spare d1).trans (spare_Device_onBus d b _)

@[simp] theorem spare_dropGrant (tm : TimeBase) (e : Fin 128) (b : Fin 2) (d : Device) :
    spare (dropGrant tm e b d) = spare d := by
  unfold dropGrant; simp

@[simp] theorem spare_syncTimer (tm : TimeBase) (d : Device) :
    spare (syncTimer tm d) = spare d := by
  unfold syncTimer; simp

@[simp] theorem spare_frameStarts (tm : TimeBase) (b : Fin 2) (d0 : Device) :
    spare (frameStarts tm b d0) = spare d0 := by
  unfold frameStarts; dsimp only; (repeat' split) <;> simp

@[simp] theorem spare_frameEnds (b : Fin 2) (d : Device) :
    spare (frameEnds b d) = spare d := by
  unfold frameEnds; (repeat' split) <;> rfl

@[simp] theorem spare_frameDiscarded (b : Fin 2) (id : BitVec 29) (payload : List Byte) (d : Device) :
    spare (frameDiscarded b id payload d) = spare d :=
  spare_arrived _ _ _ (fun d => by split <;> simp) d

@[simp] theorem spare_drawErrors (b : Fin 2) (d : Device) :
    spare (drawErrors b d) = spare d := by
  unfold drawErrors; simp

@[simp] theorem spare_busPassive (tm : TimeBase) (b : Fin 2) (d : Device) :
    spare (busPassive tm b d) = spare d := by
  unfold busPassive; simp

@[simp] theorem spare_enterBusOff (tm : TimeBase) (b : Fin 2) (d : Device) :
    spare (enterBusOff tm b d) = spare d := by
  unfold enterBusOff; simp

@[simp] theorem spare_restartBus (b : Fin 2) (d : Device) :
    spare (restartBus b d) = spare d := by
  unfold restartBus; simp

@[simp] theorem spare_busRecovered (tm : TimeBase) (b : Fin 2) (d : Device) :
    spare (busRecovered tm b d) = spare d := by
  unfold busRecovered; simp

@[simp] theorem spare_writeBitTiming (b : Fin 2) (which : Fin 3) (data : Word) (d : Device) :
    spare (writeBitTiming b which data d) = spare d := by
  unfold writeBitTiming; simp

@[simp] theorem spare_autoRecover (d : Device) : spare (autoRecover d) = spare d := by
  unfold autoRecover; split <;> simp

@[simp] theorem spare_settleBus (b : Fin 2) (d : Device) :
    spare (settleBus b d) = spare d := by
  unfold settleBus; simp

@[simp] theorem spare_writeBusCtrl (b : Fin 2) (data : Word) (d : Device) :
    spare (writeBusCtrl b data d) = spare d := by
  unfold writeBusCtrl; simp

end Sys2Proof.Machine
end

