-- ==== Sys2Proof/Machine/Pins.lean ====
section
/-! DEFINITION. The balls and the pins (spec 17_electrical_package.md): what each ball is (R432), what each output pin shows during a
reset and after READY (R429, R433), the TAP's identity and boundary register (R447), the converter of VSENSE (R442) and the
device's power (R431). The electrical limits are no state of the machine (assumption 101). -/

namespace Sys2Proof.Machine

/-! ### The balls (R432) -/

/-- The signals of Table 17-10. `p` is the true leg of a pair, and `m` the other one. -/
inductive Signal where
  | ltxp (n : Fin 64)
  | ltxm (n : Fin 64)
  | lrxp (n : Fin 64)
  | lrxm (n : Fin 64)
  | lrext (q : Fin 4)
  | refclk
  | syncIn (m : Bool)
  | syncOut (m : Bool)
  | rlkIn (m : Bool)
  | rlkOut (m : Bool)
  | csN
  | sck
  | mosi
  | miso
  | irqN
  | alertN
  | scl
  | sda
  | rstN
  | pfailN
  | tck
  | tms
  | tdi
  | tdo
  | trstN
  | strap (i : Fin 6)
  | fltN (i : Fin 8)
  | vsense (v : Fin 8)
  | thm (k : Fin 4)
  | thmref
  | pcTxd (b : Fin 2)
  | pcRxd (b : Fin 2)
  | bogSck
  | bogIo (i : Fin 4)
  | bogCsN (i : Fin 2)
deriving DecidableEq, Repr

/-- What a ball is. -/
inductive Ball where
  | signal (s : Signal)
  | vddCore
  | vddLane
  | vddPll
  | vddIo
  | vss
deriving DecidableEq, Repr

/-- The lane ball at a place of Table 17-8: 1 LTXP, 2 LTXM, 3 VSS, 4 LRXP, 5 LRXM, counted from the edge of the package. -/
def laneBall (n : Fin 64) : Nat → Ball
  | 1 => .signal (.ltxp n)
  | 2 => .signal (.ltxm n)
  | 4 => .signal (.lrxp n)
  | 5 => .signal (.lrxm n)
  | _ => .vss

/-- A run of corner signals in one row, from a column on (Table 17-9). -/
def cornerRun (row col : Nat) (ss : List Signal) : List ((Nat × Nat) × Ball) :=
  ss.zipIdx.map fun x => ((row, col + x.2), .signal x.1)

/-- Table 17-9, with the four balls of VDD_PLL. -/
def cornerBalls : List ((Nat × Nat) × Ball) :=
  cornerRun 1 2 [.csN, .sck, .mosi, .miso, .irqN] ++ cornerRun 2 2 [.scl, .sda, .alertN, .rstN, .pfailN]
    ++ cornerRun 3 2 [.tck, .tms, .tdi, .tdo, .trstN] ++ cornerRun 4 2 [.strap 0, .strap 1, .strap 2, .strap 3, .strap 4]
    ++ cornerRun 5 2 [.strap 5]
    ++ cornerRun 2 25 [.refclk] ++ [((2, 27), .vddPll), ((2, 28), .vddPll), ((3, 27), .vddPll), ((3, 28), .vddPll)]
    ++ cornerRun 4 24 [.syncIn false, .syncIn true] ++ cornerRun 4 27 [.syncOut false, .syncOut true]
    ++ cornerRun 5 24 [.rlkIn false, .rlkIn true] ++ cornerRun 5 27 [.rlkOut false, .rlkOut true]
    ++ cornerRun 6 24 [.fltN 0, .fltN 1, .fltN 2, .fltN 3, .fltN 4, .fltN 5, .fltN 6] ++ cornerRun 7 30 [.fltN 7]
    ++ cornerRun 30 25 [.pcTxd 0, .pcRxd 0] ++ cornerRun 30 28 [.pcTxd 1, .pcRxd 1]
    ++ cornerRun 28 25 [.bogSck, .bogIo 0, .bogIo 1, .bogIo 2, .bogIo 3] ++ cornerRun 29 25 [.bogCsN 0, .bogCsN 1]
    ++ cornerRun 30 2 [.vsense 0, .vsense 1, .vsense 2, .vsense 3] ++ cornerRun 29 2 [.vsense 4, .vsense 5, .vsense 6, .vsense 7]
    ++ cornerRun 27 2 [.thm 0, .thm 1, .thm 2, .thm 3, .thmref]

/-- The ball at row k (1 for A to 30 for AL) and a column, 1 to 30 (Tables 17-7 to 17-9). -/
def ballAt (k col : Nat) : Ball :=
  let even := decide ((k + col) % 2 = 0)
  let wide := decide (8 ≤ col ∧ col ≤ 23)
  let tall := decide (8 ≤ k ∧ k ≤ 23)
  let lane (q i place : Nat) : Ball := laneBall (Fin.ofNat 64 (16 * q + i)) place
  let guard (vss : Bool) (at' : Bool) (q : Fin 4) : Ball :=
    if vss then .vss else if at' then .signal (.lrext q) else .vddLane
  if wide && tall then (if even then .vddCore else .vss)
  else if wide then
    if k ≤ 5 then lane 0 (col - 8) k
    else if k ≤ 7 then guard (k = 6) (col = 8) 0
    else if k ≤ 25 then guard (k = 25) (col = 23) 2
    else lane 2 (23 - col) (31 - k)
  else if tall then
    if col ≤ 5 then lane 3 (23 - k) col
    else if col ≤ 7 then guard (col = 6) (k = 23) 3
    else if col ≤ 25 then guard (col = 25) (k = 8) 1
    else lane 1 (k - 8) (31 - col)
  else match cornerBalls.find? fun x => decide (x.1 = (k, col)) with
    | some x => x.2
    | none => if even then .vddIo else .vss

/-- All balls in ascending order: row A to AL, then column 1 to 30. -/
def allBalls : List Ball := (List.range 900).map fun i => ballAt (i / 30 + 1) (i % 30 + 1)

/-! ### The TAP (R447) -/

/-- IDCODE: version 1, part 0x5120, manufacturer 0x235, and 1. -/
def tapIdcode : Word := pack [(0, 1), (1, 0x235), (12, 0x5120), (28, 1)]

/-- The data register that an opcode selects. -/
inductive TapRegister where
  | boundary
  | idcode
  | bypass
  | dbgChal
  | dbgToken
  | dbgAccess
deriving DecidableEq, Repr

/-- The data register of each opcode: CLAMP selects BYPASS, as IEEE 1149.1 has it (PRESUMED, assumption 119); any other opcode does
too. -/
def tapRegister (ir : BitVec 6) : TapRegister :=
  match ir.toNat with
  | 0x00 | 0x02 | 0x05 => .boundary
  | 0x01 => .idcode
  | 0x20 => .dbgChal
  | 0x21 => .dbgToken
  | 0x22 => .dbgAccess
  | _ => .bypass

/-- A cell of the boundary register. -/
inductive BoundaryCell where
  | input (s : Signal)
  | output (s : Signal)
  | enable (s : Signal)
deriving DecidableEq, Repr

/-- Is a signal an output or an input/output (Table 17-10)? -/
def Signal.drives : Signal → Bool
  | .miso | .irqN | .alertN | .scl | .sda | .tdo | .bogSck | .syncOut _ | .rlkOut _ | .fltN _ | .pcTxd _ | .bogIo _ | .bogCsN _ => true
  | .ltxp _ | .ltxm _ | .lrxp _ | .lrxm _ | .lrext _ | .refclk | .syncIn _ | .rlkIn _ | .csN | .sck | .mosi | .rstN | .pfailN
  | .tck | .tms | .tdi | .trstN | .strap _ | .vsense _ | .thm _ | .thmref | .pcRxd _ => false

/-- Is a signal outside the boundary register: a lane, LREXT, VSENSE, THM or THMREF ball? -/
def Signal.analog : Signal → Bool
  | .ltxp _ | .ltxm _ | .lrxp _ | .lrxm _ | .lrext _ | .vsense _ | .thm _ | .thmref => true
  | .refclk | .syncIn _ | .syncOut _ | .rlkIn _ | .rlkOut _ | .csN | .sck | .mosi | .miso | .irqN | .alertN | .scl | .sda | .rstN
  | .pfailN | .tck | .tms | .tdi | .tdo | .trstN | .strap _ | .fltN _ | .pcTxd _ | .pcRxd _ | .bogSck | .bogIo _ | .bogCsN _ => false

/-- The cells of a ball. -/
def ballCells : Ball → List BoundaryCell
  | .signal s => if s.analog then [] else if s.drives then [.input s, .output s, .enable s] else [.input s]
  | .vddCore | .vddLane | .vddPll | .vddIo | .vss => []

/-- The boundary register, TDI at the first cell. -/
def boundaryRegister : List BoundaryCell := allBalls.flatMap ballCells

/-! ### Pins (R429, R433) -/

/-- What an output pin shows. -/
inductive PinLevel where
  | low
  | high
  /-- High impedance, or an open-drain output released. -/
  | released
  /-- A lane output at its common mode, without swing. -/
  | still
deriving DecidableEq, Repr

/-- A level of a pair's leg: the other leg has the other level. -/
def legLevel (m v : Bool) : PinLevel := if v != m then .high else .low

/-- "During reset" of Table 17-10; none for the inputs and THMREF. -/
def resetLevel : Signal → Option PinLevel
  | .ltxp _ | .ltxm _ => some .still
  | .syncOut m | .rlkOut m => some (legLevel m false)
  | .miso | .irqN | .alertN | .scl | .sda | .tdo | .bogIo _ => some .released
  | .fltN _ | .bogSck => some .low
  | .pcTxd _ | .bogCsN _ => some .high
  | .lrxp _ | .lrxm _ | .lrext _ | .refclk | .syncIn _ | .rlkIn _ | .csN | .sck | .mosi | .rstN | .pfailN | .tck | .tms | .tdi
  | .trstN | .strap _ | .vsense _ | .thm _ | .thmref | .pcRxd _ => none

/-- An open-drain output. -/
def openDrain (low : Bool) : PinLevel := if low then .low else .released

/-- The level of a lane's transmitter, with `left` bits of the code group to come after the present one; at common mode while
nothing is sent, and under EXTEST (R447). -/
def laneLevel (d : Device) (n : Fin 64) (m : Bool) (left : Nat) : PinLevel :=
  if (d.lane n).line.group.isNone ∨ (d.sg.bscan = true ∧ d.sg.tapIr = 0) then .still
  else legLevel m (lineBit (d.lane n).line left)

/-- What an output pin shows after READY (R289, R321, R338, R149, R248). None for inputs, and for the outputs whose bits a frame, a
transfer or a probe moves. `left` counts the bits of a lane's code group still to come. -/
def runLevel (d : Device) (left : Nat) (s : Signal) : Option PinLevel :=
  match s with
  | .ltxp n => some (laneLevel d n false left)
  | .ltxm n => some (laneLevel d n true left)
  | .syncOut m => some (legLevel m d.tbi.ring.syncout)
  | .rlkOut m => some (legLevel m (ringBit d.ring))
  | .irqN => some (openDrain (irqLow d))
  | .alertN => some (openDrain (alertLow d))
  | .fltN n => some (openDrain (fltLow d n))
  | .miso | .scl | .sda | .tdo | .pcTxd _ | .bogSck | .bogIo _ | .bogCsN _ | .lrxp _ | .lrxm _ | .lrext _ | .refclk | .syncIn _
  | .rlkIn _ | .csN | .sck | .mosi | .rstN | .pfailN | .tck | .tms | .tdi | .trstN | .strap _ | .vsense _ | .thm _ | .thmref
  | .pcRxd _ => none

/-- What an output pin shows: its reset level until READY (R429, R433), but for the lanes, which train before it. -/
def pinLevel (d : Device) (left : Nat) (s : Signal) : Option PinLevel :=
  match s with
  | .ltxp _ | .ltxm _ => runLevel d left s
  | .lrxp _ | .lrxm _ | .lrext _ | .refclk | .syncIn _ | .syncOut _ | .rlkIn _ | .rlkOut _ | .csN | .sck | .mosi | .miso | .irqN
  | .alertN | .scl | .sda | .rstN | .pfailN | .tck | .tms | .tdi | .tdo | .trstN | .strap _ | .fltN _ | .vsense _ | .thm _
  | .thmref | .pcTxd _ | .pcRxd _ | .bogSck | .bogIo _ | .bogCsN _ =>
    if d.sys.step = .ready then runLevel d left s else resetLevel s

/-! ### Converters and power (R431, R442) -/

/-- The code of a VSENSE converter for a voltage of so many µV at the ball (R442). -/
def vsenseCode (uv : Nat) : BitVec 16 := BitVec.ofNat 16 (min 65535 (65536 * uv / 2500000))

/-- The device's power in µW (R431, Table 17-5): B + L × Nup + E × λ; in STANDBY the fixed figure. `worst` takes the column
"Max" in place of "Typ". -/
def powerMicrowatts (worst : Bool) (d : Device) : Nat :=
  let pick (typ max : Nat) : Nat := if worst then max else typ
  if d.pwr.mode = .standby then pick 400000 900000 else
  let lanes := (List.finRange 64).map fun n =>
    match (d.lane n).state with
    | .up | .retrain | .training => if (d.lane n).asleep then pick 28000 38000 else pick 48000 65000
    | .unused | .down => 0
  pick 1800000 2850000 + lanes.sum + pick 145 165 * d.img.loadRun.toNat

end Sys2Proof.Machine
end

