-- ==== Sys2Proof/WellFormed.lean ====
section
/-! DEFINITION. The commands that can be given: operands that have a type wider than their rule allows (spec 12_host_port.md R311,
R312, Table 12-6; 10_partner_bus.md R259; 13_two_wire_port.md R340; and the OP fields of the command registers). The
meanings are total: the machine does not ask for it. -/

namespace Sys2Proof

/-- LEN is 1 to 16 (R311); another frame is malformed (R312). -/
def lenOk (n : Nat) : Bool := decide (1 ≤ n ∧ n ≤ 16)

/-- The access of a frame that is cut off after its HCRC. -/
def cutOk : CutStage → Bool
  | .beforeHcrc => true
  | .afterHcrc (.read _ _ len) _ => lenOk len.toNat
  | .afterHcrc (.write _ _ data) _ => lenOk data.length
  | .stalled => true

/-- An OP that a command register does not list, where it lists 1 to n. -/
def opUnlisted (n op : Nat) : Bool := !decide (1 ≤ op ∧ op ≤ n)

/-- A frame carries the segments that its SEGS gives, where that is 1 to 8, and none where it is not. -/
def profileOk (segs : BitVec 4) (profile : List ProfileSeg) : Bool :=
  if 1 ≤ segs.toNat ∧ segs.toNat ≤ 8 then decide (profile.length = segs.toNat) else profile.isEmpty

/-- A poll reads at most 32 bytes and a PEC byte (R340). -/
def pollOk : PollOutcome → Bool
  | .data bytes => decide (bytes.length ≤ 33)
  | .nackAddr => true
  | .nackData => true
  | .arbLost => true
  | .busError => true
  | .clockLow => true
  | .sdaHeld _ => true

/-- Can the command be given? -/
def Instr.wellFormed : Instr → Bool
  | .registerWrite .. => true
  | .pairLowRead .. => true
  | .pairHighRead .. => true
  | .pairLowWrite .. => true
  | .pairHighWrite .. => true
  | .supplyTrip => true
  | .supplyRelease => true
  | .rstNLow => true
  | .resetCtrlWarm .. => true
  | .resetCtrlSupervisor .. => true
  | .resetCtrlQuadrant .. => true
  | .quadrantReset .. => true
  | .quadrantResetTimeout .. => true
  | .watchdogExpiry => true
  | .ramError .. => true
  | .busTimeout .. => true
  | .stalledAccessComplete .. => true
  | .clockLoss => true
  | .refclkPresent => true
  | .pll0Lock => true
  | .pllLockTimeout => true
  | .pfailFall => true
  | .pfailRecovered => true
  | .startupFilterEnd => true
  | .wipeEnd => true
  | .storeRecoveryEnd => true
  | .wholeApplyEnd => true
  | .ready => true
  | .strapStartTimer => true
  | .supervisorStart => true
  | .imgDataWrite .. => true
  | .imgErase .. => true
  | .imgSeal .. => true
  | .liveOpen .. => true
  | .apply .. => true
  | .imgConfirm .. => true
  | .imgRollback .. => true
  | .imgBadOp _ op => opUnlisted 6 op.toNat
  | .railSectionTakeEffect .. => true
  | .schedSectionTakeEffect => true
  | .hkeepSectionTakeEffect => true
  | .periphSectionTakeEffect => true
  | .upstreamLock .. => true
  | .trainingPollTimer .. => true
  | .trainingStepTimeout .. => true
  | .laneTrainingEnd .. => true
  | .upstreamLossOfLock .. => true
  | .retrainAttemptEnd .. => true
  | .laneRetrain .. => true
  | .laneDisable .. => true
  | .laneDisableTakeEffect .. => true
  | .timeCellTimer => true
  | .sampleRaw .. => true
  | .sampleCmp .. => true
  | .meas .. => true
  | .status .. => true
  | .reply .. => true
  | .echoReply .. => true
  | .upstreamCellError .. => true
  | .replyTimeout .. => true
  | .calibration .. => true
  | .sampleMissing .. => true
  | .slotAdmit .. => true
  | .refuse .. => true
  | .recal .. => true
  | .calSave .. => true
  | .identifyOn .. => true
  | .identifyOff .. => true
  | .slotCalWrite .. => true
  | .biasTimer => true
  | .housekeepingBias => true
  | .carrierStart .. => true
  | .edgeBuild .. => true
  | .baseSet .. => true
  | .epochPulse => true
  | .syncinEdge .. => true
  | .syncPulseMissing => true
  | .evaluationStart .. => true
  | .evaluationComplete .. => true
  | .resultRelease .. => true
  | .evaluationDeadline .. => true
  | .loopClear .. => true
  | .leClear .. => true
  | .atStart .. => true
  | .atStop .. => true
  | .autotuneTimeout => true
  | .arm .. => true
  | .disarm .. => true
  | .start .. => true
  | .startMeasurementEnd .. => true
  | .stop .. => true
  | .softstop .. => true
  | .clear .. => true
  | .retire .. => true
  | .restore .. => true
  | .railBadOp _ _ op => opUnlisted 8 op.toNat
  | .vsetWrite .. => true
  | .vnextWrite .. => true
  | .windowWrite .. => true
  | .rampStep => true
  | .rampTimeout .. => true
  | .holdTimeout .. => true
  | .retryTimer .. => true
  | .retriesResetTimer .. => true
  | .trippedClear .. => true
  | .kindlingWarmStart .. => true
  | .vreqExpiry .. => true
  | .hearthTick => true
  | .entryCompletionTimeout .. => true
  | .pauseUpdate .. => true
  | .supervisorAbsence => true
  | .heartbeat => true
  | .planPass => true
  | .plan .. => true
  | .invalidate .. => true
  | .squash .. => true
  | .ringFrame .. => true
  | .ringShareTimeout => true
  | .syncTimer => true
  | .syncDrop .. => true
  | .frameTransmitted .. => true
  | .txFrameTimeout .. => true
  | .grantUnsentAtStart .. => true
  | .partnerFrameDiscard _ _ payload => decide (payload.length ≤ 64)
  | .join .. => true
  | .leave .. => true
  | .keepalive .. => true
  | .motionReq _ _ _ _ segs _ _ _ _ profile => profileOk segs profile
  | .cancel .. => true
  | .reverse _ _ _ _ segs _ profile => profileOk segs profile
  | .complete .. => true
  | .vreq .. => true
  | .leaseExpiry .. => true
  | .holdoffEnd .. => true
  | .orphanHandleTimeout => true
  | .evict .. => true
  | .busErrorPassive .. => true
  | .busOff .. => true
  | .restart .. => true
  | .busOffRecoveryEnd .. => true
  | .bitTimingWrite .. => true
  | .vsenseConversion .. => true
  | .latchClear .. => true
  | .firstClr .. => true
  | .housekeepingRound .. => true
  | .housekeepingRoundEnd => true
  | .dieSample .. => true
  | .shutdownRecordWrite => true
  | .storeWindowOpen => true
  | .hostRead _ _ len _ => lenOk len.toNat
  | .hostWrite _ _ data _ => lenOk data.length
  | .hostStatus .. => true
  | .fetch .. => true
  | .malformedFrame .. => true
  | .frameCutOff stage => cutOk stage
  | .abortAutotune .. => true
  | .abortRailApply .. => true
  | .abortStoreOperation .. => true
  | .abortBogTransfer .. => true
  | .abortTwoWire .. => true
  | .abortLaneTraining .. => true
  | .abortSession .. => true
  | .abortPendingAccess .. => true
  | .abortGlobal .. => true
  | .badFunc _ func _ => !(decide (1 ≤ func.toNat ∧ func.toNat ≤ 8) || decide (func = 0xFF))
  | .abortDone .. => true
  | .twpTargetWrite .. => true
  | .twpTargetRead .. => true
  | .twpBusError .. => true
  | .twpClockLowTimeout .. => true
  | .twpStretchTimeout => true
  | .alertResponse .. => true
  | .periphPollDue .. => true
  | .periphPoll _ outcome => pollOk outcome
  | .recover .. => true
  | .recoveryRetryTimer .. => true
  | .pollNow .. => true
  | .twpTimingWrite .. => true
  | .openSession .. => true
  | .prove .. => true
  | .close .. => true
  | .sessionIdleTimeout .. => true
  | .lockoutEnd .. => true
  | .keyCmd .. => true
  | .lcCommission .. => true
  | .lcService .. => true
  | .lcMaintain .. => true
  | .lcRetired .. => true
  | .lcReturn .. => true
  | .lcWipesComplete => true
  | .tapReset => true
  | .debugReset => true
  | .dbgChal => true
  | .dbgToken .. => true
  | .dbgAccess .. => true
  | .driveInstruction .. => true
  | .pwrRun .. => true
  | .pwrTrim .. => true
  | .pwrStandby .. => true
  | .qopSmoulder .. => true
  | .qopQrun .. => true
  | .smoulderTimeout .. => true
  | .wake .. => true
  | .laneReceiverSleep .. => true
  | .fwDataWrite .. => true
  | .fwErase .. => true
  | .fwSeal .. => true
  | .switch .. => true
  | .fwConfirm .. => true
  | .fwRollback .. => true
  | .fwBadOp _ op => opUnlisted 5 op.toNat
  | .fwTrialTimeout => true
  | .chunkProgramComplete .. => true
  | .sectorEraseComplete .. => true
  | .userRead .. => true
  | .userWrite .. => true
  | .protect .. => true
  | .ocsBadOp _ op => opUnlisted 3 op.toNat
  | .eventRecordWrite => true
  | .repeatChainEnd => true
  | .timeSet .. => true
  | .erClear .. => true
  | .select .. => true
  | .bogBlockWrite => true
  | .discover .. => true
  | .detach .. => true
  | .format .. => true
  | .readBlock .. => true
  | .readCapbuf .. => true
  | .bogBadOp _ op => opUnlisted 5 op.toNat
  | .captureArm .. => true
  | .captureStop .. => true
  | .trigger .. => true
  | .captureSample => true
  | .captureCopyComplete => true
  | .rstNRise => true
  | .pfailNRise => true
  | .imgCheckEnd => true
  | .codeFlashOperationEnd => true
  | .archiveFlashOperationEnd .. => true
  | .twpBusFree => true
  | .quadrantDomainOn .. => true

end Sys2Proof
end

