-- ==== Sys2Proof/Tests/Slice0.lean ====
section
/-! SUPPORT. Tests: the commands that WellFormed refuses, worked examples of the spec, single steps, and for each statement with
hypotheses a state and operands that meet them. -/

namespace Sys2Proof.Tests

set_option Elab.async false

open Sys2Proof.Machine

/-! ### WellFormed refuses each ill-formed command -/

theorem test_wf_len_zero : (Instr.hostRead false 0 0 0).wellFormed = false := by decide
theorem test_wf_len_17 : (Instr.hostRead true 0 17 0).wellFormed = false := by decide
theorem test_wf_write_empty : (Instr.hostWrite false 0 [] 0).wellFormed = false := by decide
theorem test_wf_cut : (Instr.frameCutOff (.afterHcrc (.read false 0 17) 0)).wellFormed = false := by decide
theorem test_wf_img_op : (Instr.imgBadOp .sup 6).wellFormed = false := by decide
theorem test_wf_rail_op : (Instr.railBadOp .sup 0 8).wellFormed = false := by decide
theorem test_wf_fw_op : (Instr.fwBadOp .sup 5).wellFormed = false := by decide
theorem test_wf_ocs_op : (Instr.ocsBadOp .sup 3).wellFormed = false := by decide
theorem test_wf_bog_op : (Instr.bogBadOp .sup 5).wellFormed = false := by decide
theorem test_wf_func : (Instr.badFunc (.write .spi) 0x08 0).wellFormed = false := by decide
theorem test_wf_func_global : (Instr.badFunc (.frame 0) 0xFF 0).wellFormed = false := by decide
theorem test_wf_profile : (Instr.motionReq .a 0 0 0 2 0 0 0 0 []).wellFormed = false := by decide
theorem test_wf_poll : (Instr.periphPoll 0 (.data (List.replicate 34 0))).wellFormed = false := by decide
theorem test_wf_good : (Instr.hostRead false 0 16 0).wellFormed = true := by decide

/-! ### The states that the tests speak of -/

/-- A device at READY in COMMISSION, with every clock running, strap structure 0 in force and the supervisor running. -/
def upDevice : Device :=
  { Device.reset with
    sys := { Sys.reset with step := .ready }
    clk := { Clk.reset with pllLock := true, refOk := true, roscOnly := false, qclk := bankFill 4 true, lclkOn := true,
                            eclkOn := true, sclkOn := true }
    str := strapStructure 0
    sg := { Guard.reset with lc := .commission, keysLoaded := true }
    fw := { Firmware.reset with supReset := false }
    hs := { Hearth.reset with heartbeat := some 0, supOk := true }
    hkt := { Housekeeping.reset with storeWin := true }
    ocs := { Store.reset with recovering := false }
    er := { Recorder.reset with started := true } }

/-- That device with TIME running. -/
def up : State := ⟨{ TimeBase.reset with running := true, lclk := true }, NonVol.reset, upDevice, []⟩

/-- That state some T-ticks later. -/
def later (n : Nat) : State := { up with tm := { up.tm with time := BitVec.ofNat 64 n, us := BitVec.ofNat 64 (n / 800) } }

/-- The state in start-up at a step. -/
def starting (x : StartStep) : State := up.onDev fun d => { d with sys := { d.sys with step := x } }


/-- A source's write reaches its register, as a test. -/
def reachesB (src : Src) (win : Window) (s : State) : Bool :=
  takesWrite src s.dev && !shutFor src win s && win.runs s.dev

theorem reaches_of_test {src : Src} {win : Window} {s : State} (h : reachesB src win s = true) : Reaches src win s := by
  simp only [reachesB, Bool.and_eq_true, Bool.not_eq_true'] at h
  exact ⟨h.1.1, h.1.2, h.2⟩

/-- The supervisor's writes reach every window of that device. -/
theorem sup_reaches (win : Window) : Reaches .sup win up := by
  cases win with
  | quad q => exact reaches_of_test (by revert q; decide +kernel)
  | _ => exact reaches_of_test (by decide +kernel)

/-- A port with a CUSTODIAN session, and the debug port authorised. -/
def logged : State := up.onDev fun d => { d with
  sg := { d.sg with
    auth := .full
    ports := bankMap d.sg.ports fun _ x => { x with state := .opened, level := 3 } } }

/-- The writes of its ports reach every window too. -/
theorem port_reaches (p : Port) (win : Window) : Reaches (.port p) win logged := by
  cases win with
  | quad q => exact reaches_of_test (by revert q; revert p; intro p; cases p <;> decide +kernel)
  | _ => exact reaches_of_test (by revert p; intro p; cases p <;> decide +kernel)

/-! ### Witnesses: resets and start-up -/

theorem witness_ResetsComplete : State.reset.dev.sys.step ≠ .held ∧
    (takesWrite .sup up.dev = true ∧ mayEarly up.dev .sup .engineer = true ∧ takesWrite (.port .spi) logged.dev = true ∧
      mayEarly logged.dev (.port .spi) .engineer = true) ∧
    (up.dev.sys.step ≠ .held ∧ up.dev.clk.pllLock = true) ∧
    ((up.onDev fun d => { d with sg := { d.sg with auth := .read } }).dev.sg.auth ≠ .none) ∧ RamBlock.hs ≠ .other := by decide

theorem witness_ResetsOverlap : (starting .held).dev.sys.step = .held ∧
    ((starting .held).onDev fun d => { d with sg := { d.sg with auth := .full } }).dev.sg.auth ≠ .none ∧
    (starting .held).dev.clk.pllLock = true ∧ RamBlock.le ≠ .other ∧
    ((starting .bringUp).dev.sys.step ≠ .held ∧ (starting .bringUp).dev.pins.supplyOk = true ∧
      (starting .bringUp).dev.pins.rstN = true ∧ takesWrite .sup (starting .bringUp).dev = true ∧ mayEarly (starting .bringUp).dev .sup .engineer = true) := by decide

theorem witness_EngineRamErrors : up.dev.sys.step ≠ .held ∧ RamBlock.tbi ≠ .le := by decide


/-- PFAIL_N low in a brownout. -/
def failing : State := up.onDev fun d => { d with
  pins := { d.pins with pfailN := false }, sys := { d.sys with brownout := true } }

theorem witness_PowerFails : (up.dev.pins.pfailN = true ∧ up.dev.sys.brownout = false ∧ up.dev.er.writing = none ∧
    up.dev.er.chains = [] ∧ (up.dev.er.queue.filter (·.spare)).length < 4) ∧
    (failing.dev.pins.pfailN = false ∧ failing.dev.sys.brownout = true) ∧
    (let s := failing.onDev fun d => { d with sys := { d.sys with brownout := false } }
     s.dev.pins.pfailN = false ∧ s.dev.sys.brownout = false) ∧
    (let s := failing.onDev fun d => { d with pins := { d.pins with pfailN := true } }
     s.dev.pins.pfailN = true ∧ s.dev.sys.brownout = true) ∧
    ((up.onDev fun d => { d with ocs := { d.ocs with pfail := true } }).dev.pins.pfailN = true ∧
      (up.onDev fun d => { d with ocs := { d.ocs with pfail := true } }).dev.ocs.pfail = true ∧
      (up.onDev fun d => { d with ocs := { d.ocs with pfail := true } }).dev.sys.step = .ready) := by decide

theorem witness_StartupSteps : State.reset.dev.sys.step = .filter ∧
    ((starting .wipe).dev.sys.step = .wipe ∧ (starting .wipe).dev.clk.pllLock = true) ∧
    (let s := { State.reset with dev := { State.reset.dev with sys := { Sys.reset with step := .wipe } } }
     s.dev.sys.step = .wipe ∧ s.dev.clk.pllLock = false ∧ s.dev.clk.pllTrying = true ∧ s.dev.sys.lockLate = false) ∧
    (let s := { State.reset with dev := { State.reset.dev with sys := { Sys.reset with step := .waitPll } } }
     s.dev.clk.pllLock = false ∧ s.dev.clk.pllTrying = true ∧ s.dev.sys.step = .waitPll ∧ s.dev.sys.lockLate = false) ∧
    ((starting .recovery).dev.sys.step = .recovery ∧ (starting .recovery).dev.hkt.storeWin = true) ∧
    (let s := (starting .recovery).onDev fun d => { d with hkt := { d.hkt with storeWin := false } }
     s.dev.sys.step = .recovery ∧ s.dev.hkt.storeWin = false) ∧
    ((starting .apply).dev.sys.step = .apply ∧ (starting .apply).dev.img.running = none) ∧
    (starting .bringUp).dev.sys.step = .bringUp := by decide

/-- Quadrant 3 asked to reset, 10 ms ago. -/
def askedQuadrant : State := (later 8000000).onDev fun d => { d with
  clk := { d.clk with quadReset := bankSet d.clk.quadReset 3 (some 0) } }

theorem witness_QuadrantResets : mayEarly up.dev .sup .engineer = true ∧ mayEarly logged.dev (.port .debug) .engineer = true ∧
    ((bankGet askedQuadrant.dev.clk.quadReset 3).isSome = true ∧ quadRails askedQuadrant.dev 3 = [] ∧ quadOfLane 63 = 3) ∧
    (bankGet askedQuadrant.dev.clk.quadReset 3 = some 0 ∧ 0 + msTicks 10 ≤ askedQuadrant.tm.time.toNat) ∧
    (let s := up.onDev fun d => d.onLane 63 fun l => { l with mode := 2 }
     quadOfLane 63 = 3 ∧ (s.dev.lane 63).mode ≠ 0 ∧ (s.dev.lane 63).disable = false) := by decide +kernel

theorem witness_SupervisorResets : mayEarly up.dev .sup .engineer = true ∧
    (up.dev.fw.supReset = false ∧ fwTrial up.nv = none) ∧
    fwTrial { up.nv with code := bankSet up.nv.code 1 ⟨.trial, 1, 1, [], false⟩ } = some 1 ∧
    (let s := up.onDev fun d => { d with fw := { d.fw with supReset := true, nosup := false } }
     s.dev.fw.supReset = true ∧ s.dev.fw.nosup = false ∧ s.dev.sys.step = .ready) := by decide +kernel

/-! ### A small image, and witnesses of the loader -/

/-- A DEVICE section alone: FEED_LIMIT 1,000,000 mW, one controller, group 0 at 8,000 T-ticks enabled (Tables 3-2, 3-4). -/
def deviceFrame : List Byte :=
  let body := leBytes 4 1000000 ++ leBytes 4 0 ++ [1, 0, 0, 0xFF, 0xFF, 0, 0, 0] ++ leBytes 2 8000 ++ [1, 0] ++
    (List.replicate 7 (leBytes 2 800 ++ [0, 0])).flatten ++ (List.replicate 8 (leBytes 4 1 ++ leBytes 4 0)).flatten
  let bytes := [0x01, 0, 1, 0] ++ leBytes 2 112 ++ leBytes 2 0 ++ body
  bytes ++ leBytes 4 (crc32c bytes)

/-- The shortest image there is: 188 bytes (Table 3-1). -/
def smallImage : List Byte :=
  let head := [0x45, 0x48, 0x42, 0x4C] ++ leBytes 2 2 ++ leBytes 2 64 ++ leBytes 4 188 ++ leBytes 4 7 ++ leBytes 2 0x5120 ++
    leBytes 2 1 ++ leBytes 2 1 ++ leBytes 2 0 ++ List.replicate 36 0
  head ++ leBytes 4 (crc32c head) ++ deviceFrame

/-- Bytes at an address, as the memory lists them. -/
def cellsAt (a : Nat) (bs : List Byte) : List Host.Cell :=
  (((List.range bs.length).map (a + ·)).zip bs).filter fun c => decide (c.2 ≠ 0xFF)

/-- The store with each logical sector in the physical one of its number. -/
def mapped (d : Device) : Device := { d with ocs := { d.ocs with map := bankOf fun l => some l } }

/-- The small image in slot 0, in a phase, as the trial slot or not. -/
def loaded (p : SlotPhase) (trial : Bool) : State :=
  { up with
    nv := { up.nv with flash := cellsAt 4096 smallImage }
    dev := { mapped up.dev with img := { up.dev.img with
      view := bankSet up.dev.img.view 0 ⟨p, 1, 7⟩, trialOpen := trial } } }

theorem test_small_image_checks : (match checkImage smallImage with
    | .ok b => decide (b.gen = 7) && decide (b.str.device.body.feedLimit = 1000000) && decide (b.len = 188)
    | .error _ => false) = true := by decide +kernel

/-- One bit wrong in the header: HDR_CRC finds it. -/
theorem test_image_header_crc : (match checkImage (smallImage.set 0x30 1) with
    | .ok _ => false
    | .error e => decide (e = .header)) = true := by decide +kernel

theorem witness_ImageCommandsRefused : Reaches .sup .running up ∧ ¬ (1 ≤ (15 : BitVec 4).toNat ∧ (15 : BitVec 4).toNat ≤ 6) ∧
    (may (up.onDev fun d => { d with sg := { d.sg with lc := .service } }).dev .sup .engineer = true ∧
      lifeAllows (up.onDev fun d => { d with sg := { d.sg with lc := .service } }).dev = false) ∧
    (may up.dev .sup .engineer = true ∧ lifeAllows up.dev = true ∧
      (up.onDev fun d => { d with img := { d.img with busy := true } }).dev.img.busy = true) := by
  refine ⟨sup_reaches _, ?_⟩; decide +kernel

theorem witness_ImgFree : ImgFree .sup up ∧ ImgFree (.port .twoWire) logged :=
  ⟨⟨sup_reaches _, by unfold MayChange; decide +kernel, by decide⟩,
   ⟨port_reaches _ _, by unfold MayChange; decide +kernel, by decide⟩⟩

theorem witness_ImageCommandsStart :
    ((up.onDev fun d => { d with img := { d.img with running := some 1 } }).dev.img.running = some 1) ∧
    (up.dev.img.running ≠ some 1 ∧ (slotView up.dev 1).phase ≠ .confirmed ∧ up.dev.ocs.pfail = false ∧
      regionWritable up.dev.ocs (imageRegion 1) = true) ∧ (slotView up.dev 1).phase = .empty ∧
    dataLost up.dev 1 = false ∧
    ((loaded .written false).dev.sys.strapMode = false ∧ (loaded .written false).dev.img.trialOpen = false ∧
      (slotView (loaded .written false).dev 0).phase = .written) ∧
    ((loaded .trial true).dev.img.trialOpen = true ∧ (bankGet (loaded .trial true).dev.str.rails 0).isSome = true ∧
      slotNoLive (loaded .trial true).nv (loaded .trial true).dev (loaded .trial true).dev.img.trialSlot = false) ∧
    ¬ (1 ≤ (7 : BitVec 4).toNat ∧ (7 : BitVec 4).toNat ≤ 6) ∧ (0x20 : BitVec 8) = 0x20 := by
  decide +kernel

theorem witness_SlotsFilled : (MayChange up.dev .sup ∧ up.dev.img.fillSlot = none) ∧
    (let s := up.onDev fun d => mapped { d with img := { d.img with fillSlot := some 1, dataAddr := 61436 } }
     s.dev.img.fillSlot = some 1 ∧ s.dev.img.busy = false ∧ (slotView s.dev 1).phase = .empty ∧
      s.dev.img.dataAddr.toNat + 4 ≤ 61440 ∧ regionWritable s.dev.ocs (imageRegion 1) = true ∧
      imageAddr s.dev.ocs 1 s.dev.img.dataAddr.toNat = some (31 * 4096 + 4092)) ∧
    (let s := up.onDev fun d => { d with img := { d.img with cmd := some (.seal 0) } }
     s.dev.img.cmd = some (.seal 0) ∧ s.dev.img.lcAfter = none ∧ dataOnItsWay s.dev = false ∧ dataLost s.dev 0 = false) ∧
    (let s := up.onDev fun d => { d with
        img := { d.img with cmd := some (.seal 0), dataFailed := true, fillSlot := some 0 }
        ocs := { d.ocs with jobs := [⟨[], .record, .imageData, true⟩] } }
     s.dev.img.cmd = some (.seal 0) ∧ dataOnItsWay s.dev = true ∧
      dataLost (s.onDev fun d => { d with ocs := { d.ocs with jobs := [] } }).dev 0 = true) := by
  unfold MayChange; decide +kernel

/-- An erased slot fails its check, and a slot with the small image passes it. -/
theorem witness_SlotsFilled_SealChecked : (∃ e, slotImage up.nv up.dev 0 = .error e) ∧
    ∃ b, slotImage (loaded .empty false).nv (loaded .empty false).dev 0 = .ok b := by
  refine ⟨⟨.header, ?_⟩, ?_⟩
  · have h : (match slotImage up.nv up.dev 0 with
      | .ok _ => false
      | .error e => decide (e = .header)) = true := by decide +kernel
    revert h
    cases slotImage up.nv up.dev 0 with
    | error e => intro h; rw [of_decide_eq_true h]
    | ok b => intro h; cases h
  · have h : (match slotImage (loaded .empty false).nv (loaded .empty false).dev 0 with
      | .ok _ => true
      | .error _ => false) = true := by decide +kernel
    revert h
    cases slotImage (loaded .empty false).nv (loaded .empty false).dev 0 with
    | error e => intro h; cases h
    | ok b => intro _; exact ⟨b, rfl⟩

/-- LIVE_OPEN's check of the small image, which no slot that runs stands above; and the apply of it at start-up. -/
theorem witness_SlotsFilled_SealChecked_open : (loaded .written false).dev.img.running = none ∧
    ∃ b, slotImage (loaded .written false).nv (loaded .written false).dev 0 = .ok b ∧ b.noLive = false := by
  refine ⟨by decide, ?_⟩
  have h : (match slotImage (loaded .written false).nv (loaded .written false).dev 0 with
    | .ok b => !b.noLive
    | .error _ => false) = true := by decide +kernel
  revert h
  cases slotImage (loaded .written false).nv (loaded .written false).dev 0 with
  | error e => intro h; cases h
  | ok b => intro h; exact ⟨b, rfl, by simpa using h⟩

theorem witness_StartupSteps_image : ∃ b, readSlot 0 (withImageData (loaded .confirmed false).nv (loaded .confirmed false).dev)
    (loaded .confirmed false).dev.ocs 0 = .ok b := by
  have h : (match readSlot 0 (withImageData (loaded .confirmed false).nv (loaded .confirmed false).dev)
      (loaded .confirmed false).dev.ocs 0 with
    | .ok _ => true
    | .error _ => false) = true := by decide +kernel
  revert h
  cases readSlot 0 (withImageData (loaded .confirmed false).nv (loaded .confirmed false).dev)
    (loaded .confirmed false).dev.ocs 0 with
  | error e => intro h; cases h
  | ok b => intro _; exact ⟨b, rfl⟩

/-- The small image on trial, with nothing else in force. -/
def onTrial : State := (loaded .trial true).onDev fun d => { d with str := Structure.none }

theorem witness_TrialsEnd : (MayChange onTrial.dev .sup ∧ onTrial.dev.img.busy = false ∧ onTrial.dev.img.trialOpen = true ∧
      regionWritable onTrial.dev.ocs (imageRegion onTrial.dev.img.trialSlot) = true ∧ onTrial.dev.img.liveOrder = [] ∧
      onTrial.dev.img.lcAfter = none) ∧ up.dev.img.trialOpen = false := by
  unfold MayChange; decide

/-- With strap structure 0 in force the small image differs: its CONFIRM ends with UNCONFIRMABLE. -/
theorem witness_TrialsEnd_differs : ∃ b, slotImage (loaded .trial true).nv (loaded .trial true).dev 0 = .ok b ∧
    liveDiffer b.str (loaded .trial true).dev.str = true := by
  have h : (match slotImage (loaded .trial true).nv (loaded .trial true).dev 0 with
    | .ok b => liveDiffer b.str (loaded .trial true).dev.str
    | .error _ => false) = true := by decide +kernel
  revert h
  cases slotImage (loaded .trial true).nv (loaded .trial true).dev 0 with
  | error e => intro h; cases h
  | ok b => intro h; exact ⟨b, rfl, h⟩

theorem witness_TrialsEnd_image : ∃ b, slotImage onTrial.nv onTrial.dev onTrial.dev.img.trialSlot = .ok b ∧
    liveDiffer b.str onTrial.dev.str = false := by
  have h : (match slotImage onTrial.nv onTrial.dev onTrial.dev.img.trialSlot with
    | .ok b => !liveDiffer b.str onTrial.dev.str
    | .error _ => false) = true := by decide +kernel
  revert h
  cases slotImage onTrial.nv onTrial.dev onTrial.dev.img.trialSlot with
  | error e => intro h; cases h
  | ok b => intro h; exact ⟨b, rfl, by simpa using h⟩

theorem witness_SectionsTakeEffect :
    (let x : InForce RailSect := ⟨strapRail 0, 5⟩
     let s := up.onDev fun d => { d with img := { d.img with waitRail := bankSet d.img.waitRail 63 (some ⟨some x, 0, false⟩) } }
     bankGet s.dev.img.waitRail 63 = some ⟨some x, 0, false⟩ ∧ (s.dev.rail 63).state = .off ∧ s.dev.img.lcAfter = none ∧
      groupBlocked s.dev 63 x.body = false) ∧
    (let s := up.onDev fun d => { d with img := { d.img with waitSched := some ⟨none, 1, false⟩ } }
     s.dev.img.waitSched = some ⟨none, 1, false⟩ ∧ s.dev.img.waitPartners = none ∧ s.dev.img.lcAfter = none) ∧
    (let s := up.onDev fun d => { d with img := { d.img with waitPartners := some ⟨none, 1, false⟩ } }
     s.dev.img.waitPartners = some ⟨none, 1, false⟩ ∧ s.dev.img.waitSched = none ∧ s.dev.img.lcAfter = none) ∧
    (let s := up.onDev fun d => { d with img := { d.img with waitHkeep := some ⟨none, 1, false⟩ } }
     s.dev.img.waitHkeep = some ⟨none, 1, false⟩ ∧ s.dev.img.lcAfter = none) ∧
    (let s := up.onDev fun d => { d with img := { d.img with waitPeriph := some ⟨none, 1, false⟩ } }
     s.dev.img.waitPeriph = some ⟨none, 1, false⟩ ∧ s.dev.twp.polling = none ∧ s.dev.img.lcAfter = none) := by
  decide +kernel

/-! ### Witnesses: lanes -/

/-- Lane 63 changed. -/
def lane63 (f : Lane → Lane) : State := (later 1600000).onDev fun d => d.onLane 63 f

theorem witness_LanesTrain_LaneTrains :
    ((lane63 fun l => { l with state := .down }).dev.lane 63).state = .down ∧
    (let t : Training := ⟨1, 0, 0, List.replicate 6 (0, 0)⟩
     ((lane63 fun l => { l with train := some t }).dev.lane 63).train = some t ∧ t.step = 1 ∧
      (6 : BitVec 8).toNat = t.rtd.length ∧ t.rtd.length < 7) ∧
    (let t : Training := ⟨3, 0, 0, []⟩
     let s := lane63 fun l => { l with state := .training, train := some t }
     (s.dev.lane 63).state = .training ∧ (s.dev.lane 63).train = some t ∧ s.tm.time.toNat - t.start ≥ 1600000 ∧ t.step = 3) := by
  decide +kernel

theorem witness_LanesTrain_LaneRetrains :
    (let s := lane63 fun l => { l with state := .up }
     (s.dev.lane 63).state = .up ∧ (s.dev.lane 63).asleep = false ∧ may s.dev .sup .engineer = true ∧
      Reaches .sup (.quad (quadOfLane 63)) s) ∧
    (let t : Training := ⟨3, 0, 0, []⟩
     let s := lane63 fun l => { l with state := .retrain, attempt := 1, train := some t }
     (s.dev.lane 63).state = .retrain ∧ (s.dev.lane 63).attempt < 2 ∧ (s.dev.lane 63).train = some t ∧ t.step = 3) ∧
    (let s := lane63 fun l => { l with state := .retrain, attempt := 2 }
     (s.dev.lane 63).state = .retrain ∧ (s.dev.lane 63).attempt = 2) := by
  unfold Reaches; decide +kernel

/-- Slot 511 changed, on lane 63 in UP. -/
def slot511 (f : Slot → Slot) : State := (lane63 fun l => { l with state := .up }).onDev fun d => d.onSlot 511 f

theorem witness_LaneLeaves :
    (let s := slot511 fun x => { x with state := .serving }
     may s.dev .sup .engineer = true ∧ Reaches .sup (.quad (quadOfLane 63)) s ∧ laneServes s.dev 63 = true) ∧
    (let s := lane63 fun l => { l with state := .down, disable := true }
     may s.dev .sup .engineer = true ∧ Reaches .sup (.quad (quadOfLane 63)) s ∧ (s.dev.lane 63).state ≠ .unused ∧
      laneServes s.dev 63 = false ∧ (s.dev.lane 63).disable = true ∧ (s.dev.lane 63).state = .down) ∧
    (let s := (lane63 fun l => { l with state := .up, idleSince := 800000 }).onDev fun d =>
        { d with pwr := { d.pwr with mode := .trim }, clk := { d.clk with trim := true } }
     s.dev.pwr.mode = .trim ∧ s.dev.clk.trim = true ∧ (s.dev.lane 63).state = .up ∧
      (∀ k : Fin 8, (s.dev.slot (globalSlot 63 k)).state ≠ .serving ∧ (s.dev.slot (globalSlot 63 k)).state ≠ .calibrating) ∧
      s.tm.time.toNat - (s.dev.lane 63).idleSince ≥ 800000) := by
  unfold Reaches; decide +kernel

theorem witness_CellsArrive : ((lane63 fun l => { l with state := .up }).dev.lane 63).state = .up ∧
    (let s := slot511 fun x => { x with state := .serving, sampledAt := some 5 }
     (s.dev.slot (globalSlot 63 7)).state = .serving ∧ (s.dev.slot (globalSlot 63 7)).sampledAt = some 5) ∧
    (let s := slot511 fun x => { x with state := .found }
     (s.dev.slot (globalSlot 63 7)).state ≠ .serving ∧ (s.dev.slot (globalSlot 63 7)).state ≠ .calibrating) := by decide +kernel

/-- A slot of 100 A and 200 kHz that strap mode takes (Table 4-12). -/
def admissible : State := (slot511 fun x => { x with
    state := .found
    rep := { x.rep with kind := 1, rating := 10000, fmin := 1, fmax := 65535 } }).onDev fun d =>
  { d.onLane 63 (fun l => { l with proto := 1 }) with sys := { d.sys with strapMode := true } }

theorem witness_SlotCommands_SlotChecks :
    (let s := slot511 fun x => { x with state := .found }
     may s.dev .sup .engineer = true ∧ Reaches .sup (.quad (quadOf 511)) s ∧ (s.dev.slot 511).state = .found ∧
      slotExpected s.dev 511 = false) ∧
    (may admissible.dev .sup .engineer = true ∧ Reaches .sup (.quad (quadOf 511)) admissible ∧
      (admissible.dev.slot 511).state = .found ∧ admissionFailure admissible.dev 511 = none) := by
  unfold Reaches; decide +kernel

theorem witness_SlotCommands :
    (let s := slot511 fun x => { x with state := .admitted }
     may s.dev .sup .engineer = true ∧ Reaches .sup (.quad (quadOf 511)) s ∧ (s.dev.slot 511).state = .admitted ∧
      (s.dev.phase 511).placed = false ∧ s.dev.ocs.pfail = false ∧ regionWritable s.dev.ocs 2 = true) ∧
    ((slot511 fun x => { x with state := .found }).dev.slot 511).state = .found ∧
    (let s := up.onDev fun d => { d with ocs := { d.ocs with pfail := true } }
     may s.dev .sup .engineer = true ∧ Reaches .sup (.quad (quadOf 511)) s ∧ s.dev.ocs.pfail = true) := by
  unfold Reaches; decide +kernel

theorem witness_SlotsCalibrate :
    (let s := slot511 fun x => { x with disc := some (List.replicate 7 0), tag := 1 }
     (s.dev.lane 63).state = .up ∧ (s.dev.slot (globalSlot 63 7)).disc = some (List.replicate 7 0) ∧
      (List.replicate 7 (0 : BitVec 16)).length < 8 ∧ (0x17 : BitVec 8).toNat = 0x10 + (List.replicate 7 (0 : BitVec 16)).length ∧
      (0 : BitVec 8) + 1 = (s.dev.slot (globalSlot 63 7)).tag) ∧
    (let s := slot511 fun x => { x with state := .calibrating, cal := none }
     (s.dev.slot 511).state = .calibrating ∧ (s.dev.slot 511).cal = none ∧ bankGet s.dev.pwr.smoulder (quadOf 511) = false) ∧
    (let s := (slot511 fun x => { x with state := .calibrating, cal := none }).onDev fun d =>
        { d with pwr := { d.pwr with smoulder := bankFill 4 true } }
     (s.dev.slot 511).state = .calibrating ∧ (s.dev.slot 511).cal = none ∧ bankGet s.dev.pwr.smoulder (quadOf 511) = true) ∧
    (let s := slot511 fun x => { x with disc := some [], readAt := 1584000 }
     (s.dev.slot 511).disc = some [] ∧ s.tm.time.toNat - (s.dev.slot 511).readAt ≥ 16000) ∧
    (let s := slot511 fun x => { x with disc := none, cal := some (.writing 2 255 1584000) }
     (s.dev.slot 511).disc = none ∧ (s.dev.slot 511).cal = some (.writing 2 255 1584000) ∧
      s.tm.time.toNat - 1584000 ≥ 16000) := by decide +kernel

/-- A HKEEP entry that reads slot 511's stage temperature. -/
def stageEntry : HkEntry := ⟨1, false, 511, 0, 0, 0, 0, 0, 0, none⟩

theorem witness_SlotsCalibrate_BiasTimers :
    (let s := (slot511 fun x => { x with state := .admitted }).onDev fun d =>
        { d with pwr := { d.pwr with smoulder := bankFill 4 true } }
     s.dev.hkt.tsd = false ∧ bankGet s.dev.pwr.smoulder (quadOf 511) = true ∧ bankGet s.dev.pwr.entering (quadOf 511) = none ∧
      (s.dev.slot 511).state = .admitted) ∧
    (let y : AddRecord := ⟨127, 511, .chosen⟩
     let s := up.onDev fun d => d.onRail 63 fun x => { x with stack := [y] }
     y ∈ (s.dev.rail 63).stack ∧ y.step ≠ .joined) ∧
    (let s := (slot511 fun x => { x with state := .admitted }).onDev fun d =>
        { d with str := { d.str with hkeep := some ⟨List.replicate 96 stageEntry, 0⟩ } }
     channelEntry s.dev 95 = some stageEntry ∧ stageEntry.source = 1 ∧ stageEntry.srcIndex = (511 : Fin 512).val ∧
      (s.dev.slot 511).state = .admitted ∧ bankGet s.dev.pwr.smoulder (quadOf 511) = false) ∧
    ((∀ r, (up.dev.rail r).stack = []) ∧ bankGet up.dev.pwr.smoulder (quadOfLane 63) = false) := by decide +kernel

/-! ### Witnesses: timebase, loop engine and auto-tune -/

/-- Group 0's carrier changed. -/
def carrier0 (f : Carrier → Carrier) : State := up.onDev fun d =>
  { d with tbi := { d.tbi with carriers := bankUpd d.tbi.carriers 0 f, startAt := some 8000 } }

theorem witness_PeriodsBuilt_CarriersAdvance :
    (let s := carrier0 fun c => { c with started := true, k := 9, c0 := 8000, c1 := 16000, c2 := 24000 }
     bankGet s.dev.str.device.body.fgEnable 0 = true ∧ (bankGet s.dev.tbi.carriers 0).started = true ∧ ringLocked s.dev 0 = false) ∧
    (let s := carrier0 fun c => { c with started := false }
     bankGet s.dev.str.device.body.fgEnable 0 = true ∧ (bankGet s.dev.tbi.carriers 0).started = false ∧
      s.dev.tbi.startAt = some 8000 ∧ ringLocked s.dev 0 = false) := by decide +kernel

/-- Rail 0 changed. -/
def rail0 (f : Rail → Rail) : State := up.onDev fun d => d.onRail 0 f

/-- Rail 0 of strap structure 0 with phase 511 placed at angle 0, whose period 9 is the next to build, at PSTART 8000. -/
def placed511 (f : Phase → Phase) : State :=
  (slot511 fun x => { x with state := .admitted, owner := some 0 }).onDev fun d =>
    ({ d with tbi := { d.tbi with carriers := bankUpd d.tbi.carriers 0 fun c =>
        { c with started := true, k := 8, c0 := 0, c1 := 8000, c2 := 16000 } } }).onPhase 511 fun q =>
      f { q with placed := true, angled := true, kNext := 9, pstart := 8000, weight := 720720 }

theorem witness_PeriodsBuilt_EdgesBuilt :
    (let s := placed511 id
     ∃ b, (s.dev.slot 511).owner = some 0 ∧ s.dev.sect 0 = some b ∧ (s.dev.phase 511).placed = true ∧
      (s.dev.phase 511).angled = true ∧ (s.dev.lane (laneOf 511)).state = .up ∧
      nextStart (bankGet s.dev.tbi.carriers b.fgroup) (groupPeriod s.dev b.fgroup) (s.dev.phase 511) = some (0, 0, 10, 16000) ∧
      (s.dev.phase 511).startDue = false) ∧
    (let s := placed511 fun q => { q with startDue := true }
     (s.dev.phase 511).startDue = true ∧ (s.dev.phase 511).stopAt = none ∧ (s.dev.lane (laneOf 511)).wokeAt = none ∧
      (s.dev.slot 511).state = .admitted) ∧
    (let s := (placed511 fun q => { q with startDue := true }).onDev fun d => d.onLane 63 fun l => { l with wokeAt := some 1600000 }
     (s.dev.phase 511).startDue = true ∧ (s.dev.lane (laneOf 511)).wokeAt = some 1600000 ∧
      (Config.laneWake ≠ 0 → s.tm.time.toNat < 1600000 + 800 * min 10 Config.laneWake)) := by
  refine ⟨⟨strapRail 0, by decide +kernel⟩, by decide +kernel, by decide +kernel, by decide +kernel, ?_⟩
  intro h
  have ht : ((placed511 fun q => { q with startDue := true }).onDev fun d =>
    d.onLane 63 fun l => { l with wokeAt := some 1600000 }).tm.time.toNat = 1600000 := by decide +kernel
  rw [ht]; omega

theorem witness_PeriodsBuilt_BaseWaits : may up.dev .sup .engineer = true ∧ Reaches .sup .core up := ⟨by decide, sup_reaches _⟩

/-- The ring tracker changed, at TIME 1,600,000, with the link's epoch 0 heard then. -/
def tracking (f : Tracker → Tracker) : State := (later 1600000).onDev fun d =>
  { d with tbi := { d.tbi with ring := f { d.tbi.ring with linkEpoch := some 0 } }, ring := { d.ring with heardAt := some 0 } }

theorem witness_RingTracks :
    (tracking fun t => { t with state := .reference }).dev.tbi.ring.state = .reference ∧
    (let s := tracking fun t => { t with state := .acquiring, first := true }
     s.dev.tbi.ring.state = .acquiring ∧ s.dev.tbi.ring.first = true ∧ s.dev.tbi.ring.linkEpoch = some 0 ∧
      s.dev.ring.heardAt = some 0 ∧ s.tm.time.toNat - 0 ≤ 1600000) ∧
    (let s := tracking fun t => { t with state := .acquiring, first := false, second := false, goodRun := 14, eps := 51200000 }
     let err : Int := 31
     s.dev.tbi.ring.state = .acquiring ∧ s.dev.tbi.ring.first = false ∧ s.dev.tbi.ring.second = false ∧
      s.dev.tbi.ring.linkEpoch = some 0 ∧ s.dev.ring.heardAt = some 0 ∧ s.tm.time.toNat - 0 ≤ 1600000 ∧
      err = 32 * (s.tm.time.toNat : Int) + (31 : Fin 32).val - s.dev.tbi.ring.syncDelay.toNat - (0 : Nat) * 25600000
        - (s.dev.tbi.ring.eps + s.dev.tbi.ring.rate) ∧ err.natAbs ≤ 32 ∧ s.dev.tbi.ring.goodRun < 15) ∧
    (let s := tracking fun t => { t with state := .locked, first := false, second := false, linkEpoch := none, epoch := 0
                                         eps := 25596800 }
     let err : Int := 3200
     s.dev.tbi.ring.state = .locked ∧ s.dev.tbi.ring.linkEpoch = none ∧ s.dev.tbi.ring.first = false ∧
      s.dev.tbi.ring.second = false ∧
      err = 32 * (s.tm.time.toNat : Int) + (0 : Fin 32).val - s.dev.tbi.ring.syncDelay.toNat
        - (s.dev.tbi.ring.epoch + 1) * 25600000 - (s.dev.tbi.ring.eps + s.dev.tbi.ring.rate) ∧ err.natAbs ≤ 3200) ∧
    (let s := tracking fun t => { t with state := .locked, linkEpoch := some 2, epoch := 0 }
     s.dev.tbi.ring.state = .locked ∧ s.dev.tbi.ring.linkEpoch = some 2 ∧ s.dev.ring.heardAt = some 0 ∧
      s.tm.time.toNat - 0 ≤ 1600000 ∧ ((2 : Nat) : Int) ≠ s.dev.tbi.ring.epoch + 1) := by decide +kernel

/-- An evaluation of rail 63's outer loop. -/
def someEval (instant deadline : Nat) (mode : EvalMode) : Eval :=
  { loop := .outer 63, rail := 63, instant := instant, deadline := deadline, mode := mode, useFrom := 0, carrier := 0, input := 0
    target := 0, vinFf := 0, coefs := bankFill 8 ⟨0, 0⟩, template := false, ff := false, lookup := 0, acc := 0, share := 0
    limit := 0, lo := 0, hi := 0 }

/-- The engine changed, at TIME 1,600,000. -/
def engine (f : Engine → Engine) : State := (later 1600000).onDev fun d => { d with le := f d.le }

theorem witness_EngineEvaluates_EarliestDeadlineFirst :
    (let s := engine fun e => { e with window := [someEval 1600001 1600002 .fixed, someEval 1600000 1600003 .fixed] }
     bankGet s.dev.le.slices 7 = none ∧ ∃ x ∈ s.dev.le.window, x.instant ≤ s.tm.time.toNat) ∧
    (let s := engine fun e => { e with window := [someEval 1600001 1600002 .fixed] }
     ∀ x ∈ s.dev.le.window, s.tm.time.toNat < x.instant) := by decide +kernel

theorem witness_EngineEvaluates_EvaluationsComplete :
    (let s := engine fun e => { e with slices := bankSet e.slices 7 (some (someEval 0 1600000 .fixed)) }
     bankGet s.dev.le.slices 7 = some (someEval 0 1600000 .fixed) ∧ (someEval 0 1600000 .fixed).mode = .fixed) ∧
    (someEval 0 1600000 .immediate).mode = .immediate ∧
    (let w : Waited := ⟨.outer 63, 63, 5, 0, 1⟩
     let v : Waited := ⟨.outer 63, 63, 4, 0, 2⟩
     let s := engine fun e => { e with results := [w, v] }
     sortWaited (s.dev.le.results.filter fun w => decide (w.loop = .outer 63)) = v :: [w]) := by decide +kernel

theorem witness_EngineEvaluates_OverdueCancelled :
    (let s := engine fun e => { e with queue := [someEval 0 1600000 .fixed] }
     ∃ x, (x ∈ s.dev.le.window ∨ x ∈ s.dev.le.queue) ∧ x.loop = .outer 63 ∧ x.deadline ≤ s.tm.time.toNat) ∧
    (up.dev.le.window = [] ∧ up.dev.le.queue = [] ∧ ∀ k, bankGet up.dev.le.slices k = none) :=
  ⟨⟨someEval 0 1600000 .fixed, by decide +kernel⟩, by decide +kernel⟩

theorem witness_EngineEvaluates_EngineCleared : may up.dev .sup .engineer = true ∧ Reaches .sup .engine up := ⟨by decide, sup_reaches _⟩

/-- Rail 0 in REGULATE at its goal, with relay settings that pass. -/
def tunable : State := (rail0 fun x => { x with
  state := .regulate, ramp := 108000 * 20 }).onDev fun d =>
  ({ d with tune := { d.tune with h := 1, devMax := 1 } }).onLoop 0 fun l => { l with lo := -128, hi := 128, dem := 0 }

/-- A run of rail 0's inner loop. -/
def someRun : TuneRun := ⟨0, true, 0, 0, false, 0, true, false, 0, [], 0, 0, none, 0, [], 0⟩

theorem witness_AutotuneRuns :
    (may up.dev .sup .none = true ∧ Reaches .sup .engine up) ∧
    (let s := up.onDev fun d => { d with tune := { d.tune with run := some someRun } }
     s.dev.tune.run.isSome = true ∧ MayChange s.dev .sup) ∧
    (tunable.dev.tune.run = none ∧ MayChange tunable.dev .sup ∧ tuneCheck tunable.dev 0 false (goalOf tunable.dev 0) = none) ∧
    (up.dev.tune.run = none ∧ MayChange up.dev .sup ∧ tuneCheck up.dev 0 true (goalOf up.dev 0) = some 1) ∧
    (let s := up.onDev fun d => { d with sg := { d.sg with lc := .service } }
     may s.dev .sup .none = true ∧ s.dev.tune.run = none ∧ ¬ MayChange s.dev .sup) ∧
    (let s := (later 40000000).onDev fun d => { d with tune := { d.tune with run := some someRun } }
     may s.dev .sup .engineer = true ∧ s.dev.tune.run = some someRun ∧ someRun.waiting = false ∧
      s.tm.time.toNat - someRun.start ≥ msTicks s.dev.tune.runMax.toNat) := by
  refine ⟨⟨by decide, sup_reaches _⟩, ?_⟩
  unfold MayChange; decide +kernel

/-! ### Witnesses: rails -/

/-- Rail 0's section in the tests: strap structure 0's with phase 511, both voltages from VSENSE 7, LEAD 1 and ADD_HI 1,000. -/
def oneRail : RailSect := { strapRail 0 with phases := [511], vinSrc := some 7, voutSrc := some 7, lead := 1, addHi := 1000 }

/-- That section in force, its phase admitted, at TIME 8,000,000; the rail changed. -/
def listed (f : Rail → Rail) : State := (later 8000000).onDev fun d =>
  (((({ d with str := { d.str with rails := bankSet d.str.rails 0 (some ⟨oneRail, 0⟩) } }).onLane 63 fun l =>
    { l with state := .up, fitted := 0x80 }).onSlot 511 fun x => { x with state := .admitted, owner := some 0 }).onRail 0 f)

/-- That state with a session of level 0 on every port. -/
def lowPort : State := (listed id).onDev fun d => { d with
  sg := { d.sg with ports := bankMap d.sg.ports fun _ x => { x with state := .opened, level := 0 } } }

theorem witness_RailCommandsRefused :
    (Reaches (.port .spi) .core lowPort ∧ may lowPort.dev (.port .spi) .none = true ∧
      may lowPort.dev (.port .spi) .operate = false ∧ may lowPort.dev (.port .spi) .engineer = false) ∧
    (let s := listed fun x => { x with cmdBusy := true }
     Reaches .sup .core s ∧ may s.dev .sup .none = true ∧ may s.dev .sup .operate = true ∧ may s.dev .sup .engineer = true ∧
      (s.dev.rail 0).cmdBusy = true) := by
  unfold Reaches; decide +kernel

theorem witness_RailCommandsRefused_RailCommandsWrongState :
    (RailFree .sup .operate 0 (listed fun x => { x with state := .fault })) ∧
    (let s := listed fun x => { x with state := .fault }
     (s.dev.rail 0).state ≠ .off ∧ (s.dev.rail 0).state ≠ .armed ∧ (s.dev.rail 0).state.runs = false) ∧
    (RailFree .sup .operate 0 (listed id) ∧ ((listed id).dev.rail 0).state ≠ .fault ∧ ((listed id).dev.rail 0).state ≠ .safe) ∧
    (¬ (1 ≤ (9 : BitVec 4).toNat ∧ (9 : BitVec 4).toNat ≤ 8) ∧ may (listed id).dev .sup .engineer = true) := by
  unfold RailFree Reaches; decide +kernel

theorem witness_RailsStart_RailsArmAndStart :
    (let s := listed fun x => { x with state := .off }
     RailFree .sup .operate 0 s ∧ s.dev.sys.step = .ready ∧ (s.dev.rail 0).state = .off ∧ (s.dev.sect 0).isSome = true ∧
      lifecycleRuns s.dev = true) ∧
    (let s := listed fun x => { x with state := .armed }
     RailFree .sup .operate 0 s ∧ s.dev.sys.step = .ready ∧ (s.dev.rail 0).state = .armed ∧ lifecycleRuns s.dev = true ∧
      railSourceActive s.dev 0 = false ∧ (s.dev.sect 0).isSome = true ∧
      minPhases s.dev 0 ≤ (availablePhases s.dev 0).length) := by
  unfold RailFree Reaches; decide +kernel

/-- A start measurement of rail 0 over phase 511, begun at TIME 7,920,000. -/
def measured : State := (listed fun x => { x with
    state := .armed, cmdBusy := true, meas := some ⟨7920000, [511], [(511, ⟨48000, 1000, 3000, 0, 0, 0, 0⟩)]⟩
    cfg := { x.cfg with vinRatio := 1 } }).onDev fun d => { d with
  str := { d.str with device := ⟨{ d.str.device.body with vsScale := bankFill 8 200 }, 0⟩ } }

theorem witness_RailsStart_StartMeasured :
    ∃ m, (measured.dev.rail 0).meas = some m ∧ measured.dev.sect 0 = some oneRail ∧ measured.tm.time.toNat - m.start ≥ 80000 ∧
      measured.dev.sys.strapMode = false ∧ oneRail.vinSrc = some 7 ∧ oneRail.voutSrc = some 7 ∧
      bankGet measured.dev.le.vsense 7 = none ∧
      (let s := measured.onDev fun d => { d with le := { d.le with vsense := bankFill 8 (some 60000) } }
       bankGet s.dev.le.vsense 7 = some 60000 ∧ 1 ≤ vsenseLsb s.dev.str.device.body 7 60000 ∧
        vsenseLsb s.dev.str.device.body 7 60000 ≤ 0xFFFFE ∧ oneRail.minPhases ≤ m.got.length ∧
        (s.dev.rail 0).cfg.vinRatio ≠ 0) :=
  ⟨⟨7920000, [511], [(511, ⟨48000, 1000, 3000, 0, 0, 0, 0⟩)]⟩, by decide +kernel⟩

theorem witness_RailsStopAndClear :
    (let s := listed fun x => { x with state := .regulate }
     RailFree .sup .operate 0 s ∧ (s.dev.rail 0).state.runs = true ∧ (s.dev.rail 0).state = .regulate) ∧
    (let s := listed fun x => { x with state := .ramp }
     RailFree .sup .operate 0 s ∧ (s.dev.rail 0).state = .ramp) ∧
    (let s := listed fun x => { x with state := .fault }
     RailFree .sup .operate 0 s ∧ (s.dev.rail 0).state = .fault ∧ railSourceActive s.dev 0 = false) ∧
    (let s := listed fun x => { x with state := .safe }
     RailFree .sup .operate 0 s ∧ (s.dev.rail 0).state = .safe ∧ may s.dev .sup .engineer = true ∧
      railSourceActive s.dev 0 = false) ∧
    (let s := (listed fun x => { x with state := .safe }).onDev fun d => { d with
        sg := { d.sg with ports := bankMap d.sg.ports fun _ x => { x with state := .opened, level := 1 } } }
     RailFree (.port .spi) .operate 0 s ∧ (s.dev.rail 0).state = .safe ∧ may s.dev (.port .spi) .engineer = false) ∧
    (let s := (listed fun x => { x with state := .fault }).onDev fun d => { d with hkt := { d.hkt with tsd := true } }
     RailFree .sup .operate 0 s ∧ (s.dev.rail 0).state = .fault ∧ railSourceActive s.dev 0 = true) := by
  unfold RailFree Reaches; decide +kernel

theorem witness_PhasesRetire :
    (RailFree .sup .engineer 0 (listed id) ∧ phaseAt (listed id).dev 0 (127 : Fin 128).val = none ∧
      phaseAt (listed id).dev 0 (0 : Fin 128).val = some 511 ∧ ((listed id).dev.slot 511).state ≠ .retired ∧
      ((listed id).dev.slot 511).heldBack = false) ∧
    (let s := (listed id).onDev fun d => d.onSlot 511 fun x => { x with state := .retired }
     RailFree .sup .engineer 0 s ∧ phaseAt s.dev 0 (0 : Fin 128).val = some 511 ∧ (s.dev.slot 511).state = .retired ∧
      (s.dev.lane (laneOf 511)).fitted.getLsbD (slotOf 511).val = true ∧ (s.dev.lane (laneOf 511)).state = .up ∧
      (s.dev.rail 0).retiring = []) := by
  unfold RailFree Reaches; decide +kernel

theorem witness_SetPoints_SetPointWrites : Reaches .sup .core (listed id) ∧ may (listed id).dev .sup .operate = true ∧
    may (listed id).dev .sup .engineer = true ∧ (listed id).dev.sect 0 = some oneRail ∧ oneRail.vmin ≤ oneRail.vmax ∧
    oneRail.vmax < 2 ^ 20 := by
  unfold Reaches; decide +kernel

theorem witness_SetPoints_RampsFollow :
    (let s := listed fun x => { x with state := .regulate, ramp := 2159999 }
     (s.dev.rail 0).state = .regulate ∧ railHeld s.dev 0 = false ∧ s.dev.sect 0 = some oneRail ∧
      (s.dev.rail 0).ramp ≤ goalOf s.dev 0 * 20) ∧
    (let s := listed fun x => { x with state := .regulate, ramp := 2400001 }
     goalOf s.dev 0 * 20 < (s.dev.rail 0).ramp) ∧
    (((listed id).dev.rail 0).state ≠ .regulate ∧ ((listed id).dev.rail 0).state ≠ .ramp) := by decide +kernel

theorem witness_RailTimers :
    (let s := listed fun x => { x with state := .ramp, stopping := false, rampSince := 7200000, cfg := { x.cfg with rampMax := 0 } }
     (s.dev.rail 0).state = .ramp ∧ (s.dev.rail 0).stopping = false ∧
      msTicks (max 1 (s.dev.rail 0).cfg.rampMax.toNat) ≤ s.tm.time.toNat - (s.dev.rail 0).rampSince) ∧
    (let s := listed fun x => { x with state := .hold, since := 0, cfg := { x.cfg with holdMax := 1 } }
     (s.dev.rail 0).state = .hold ∧
      msTicks (10 * max 1 (s.dev.rail 0).cfg.holdMax.toNat) ≤ s.tm.time.toNat - (s.dev.rail 0).since) ∧
    (let s := (later 8000000000).onDev fun d => d.onRail 0 fun x => { x with state := .regulate, since := 0 }
     (s.dev.rail 0).state = .regulate ∧ msTicks 10000 ≤ s.tm.time.toNat - (s.dev.rail 0).since) ∧
    (let s := listed fun x => { x with state := .fault, since := 0, retries := 0, cfg := { x.cfg with retryDelay := 10, retryMax := 1 } }
     (s.dev.rail 0).state = .fault ∧ msTicks (s.dev.rail 0).cfg.retryDelay.toNat ≤ s.tm.time.toNat - (s.dev.rail 0).since ∧
      (s.dev.rail 0).retries.toNat < (s.dev.rail 0).cfg.retryMax.toNat ∧ railSourceActive s.dev 0 = false ∧
      s.dev.sys.step = .ready ∧ lifecycleRuns s.dev = true ∧ (s.dev.sect 0).isSome = true ∧
      minPhases s.dev 0 ≤ (availablePhases s.dev 0).length) := by decide +kernel

/-- The ledger's entry 127 changed. -/
def entry127 (f : Entry → Entry) (s : State) : State := s.onDev fun d =>
  { d with hs := { d.hs with ledger := bankUpd d.hs.ledger 127 f } }

theorem witness_RailTimers_RailExtras :
    (may (listed id).dev .sup .engineer = true ∧ Reaches .sup .core (listed id)) ∧
    (bankGet (listed id).dev.hs.ledger 127).state ≠ .granted ∧
    (let s := entry127 (fun e => { e with state := .granted, rail := some 0, start := some 11, warmed := false, kindle := true })
        (listed fun x => { x with state := .regulate, cfg := { x.cfg with kindleEn := true } })
     (bankGet s.dev.hs.ledger 127).rail = some 0 ∧ (bankGet s.dev.hs.ledger 127).start = some 11 ∧
      s.dev.sect 0 = some oneRail ∧ (bankGet s.dev.hs.ledger 127).warmed = false ∧
      (bankGet s.dev.hs.ledger 127).state = .granted ∧
      notEarlierUs (word s.tm.us.toNat) (word (11 * 1000) - word (oneRail.lead * 1000)) = true ∧
      (bankGet s.dev.hs.ledger 127).kindle = true ∧ kindlingOn s.dev 0 = true) ∧
    (let s := entry127 (fun e => { e with state := .granted, rail := some 0, start := some 11, warmed := false, kindle := false })
        (listed id)
     (bankGet s.dev.hs.ledger 127).kindle = false) := by
  unfold Reaches; decide +kernel

theorem witness_RailsStart_StrapRailStarts :
    (let s := (later 80000000).onDev fun d =>
        ((({ d with
              sys := { d.sys with strapMode := true, readyAt := 0 }
              str := { d.str with rails := bankSet d.str.rails 0 (some ⟨oneRail, 0⟩) } }).onSlot 511 fun x =>
          { x with state := .admitted, owner := some 0 }).onRail 0 fun x => { x with state := .armed })
     s.dev.sys.strapMode = true ∧ s.dev.sys.step = .ready ∧ msTicks 100 ≤ s.tm.time.toNat - s.dev.sys.readyAt ∧
      (s.dev.slot 511).state = .admitted ∧ (s.dev.rail 0).state = .armed ∧ (s.dev.rail 0).cmdBusy = false ∧
      lifecycleRuns s.dev = true ∧ railSourceActive s.dev 0 = false ∧ (s.dev.sect 0).isSome = true ∧
      minPhases s.dev 0 ≤ (availablePhases s.dev 0).length) := by decide +kernel

/-! ### Witnesses: Hearth, the ring link and the partner buses -/

/-- Hearth changed, at TIME 1,600,000, which is tick 2. -/
def hearth (f : Hearth → Hearth) : State := (later 1600000).onDev fun d => { d with hs := f d.hs }

/-- A SCHED section without numbers. -/
def someSched : SchedSect := ⟨bankFill 3 0, 0, 0, 0, 200, 400, bankFill 3 0⟩

theorem witness_HearthTicks_TicksRun :
    (let s := hearth fun h => { h with ranTick := some 2 }
     s.dev.hs.ranTick = some (tickNow s.tm)) ∧
    (up.dev.hs.ranTick ≠ some (tickNow up.tm) ∧ up.dev.pwr.mode ≠ .standby) ∧
    (let s := entry127 (fun e => { e with state := .active, cls := 2, first := 0, segs := [], start := some 0 }) ((hearth id).onDev fun d =>
        { d with str := { d.str with sched := some ⟨someSched, 0⟩ } })
     (s.dev.led 127).state = .active ∧ endTick (s.dev.led 127) + timeoutMs s.dev (s.dev.led 127).cls ≤ tickNow s.tm) ∧
    (let s := (later 80000000).onDev fun d => { d with str := { d.str with sched := some ⟨someSched, 0⟩ } }
     s.dev.str.sched = some ⟨someSched, 0⟩ ∧ bankGet s.dev.hs.exhausted 63 = false ∧
      bankGet s.dev.hs.pauseFrom 63 + 100 ≤ tickNow s.tm) := by decide +kernel

theorem witness_HearthTicks_SupervisorPresence : (Reaches .sup .served up ∧ supRunning up.tm up.dev = true) ∧
    (let s := hearth fun h => { h with heartbeat := none }
     Reaches .sup .served s ∧ supRunning s.tm s.dev = false ∧ s.dev.fw.supReset = false ∧ s.dev.fw.supHalted = false ∧
      s.dev.hs.supOk = true) ∧
    (let s := (hearth fun h => { h with heartbeat := none }).onDev fun d => d.onPartner 255 fun p => { p with held := true }
     (bankGet s.dev.pp.partners 255).held = true) := by
  unfold Reaches; decide +kernel

/-- Entry 127 QUEUED with a window of ticks 3 to 9 and a segment of 4 ms. -/
def queued127 (power : Nat) : State := entry127 (fun e => { e with
  state := .queued, early := 3, last := 9, segs := [⟨4, power, 0⟩] }) (hearth fun h => { h with feed := 1000, avail := 1000 })

theorem witness_PlanPlaces :
    (let s := queued127 10
     Reaches .sup .served s ∧ (s.dev.led 127).state = .queued ∧ supRunning s.tm s.dev = true ∧
      ¬ PlanInWindow s 127 (PlanTick s 9001) ∧ PlanInWindow s 127 (PlanTick s 9000) ∧ PlanFits s 127 (PlanTick s 9000)) ∧
    (let s := queued127 99999999
     (s.dev.led 127).state = .queued ∧ supRunning s.tm s.dev = true ∧ PlanInWindow s 127 (PlanTick s 9000) ∧
      ¬ PlanFits s 127 (PlanTick s 9000)) ∧
    (Reaches .sup .served up ∧ (up.dev.led 127).state ≠ .queued) := by
  unfold Reaches PlanInWindow PlanFits PlanTick; decide +kernel

theorem witness_PlannerAndRing_PlannerCommands :
    (let s := entry127 (fun e => { e with state := .planned, start := some 5 }) up
     Reaches .sup .served s ∧ (s.dev.led 127).state = .planned ∧ supRunning s.tm s.dev = true) ∧
    (Reaches .sup .served up ∧ (up.dev.led 127).state ≠ .planned ∧ (up.dev.led 127).state ≠ .queued) ∧
    (up.dev.hs.mode = 0 ∧ supRunning up.tm up.dev = true) := by
  unfold Reaches; decide +kernel

/-- The device at position 7 of a ring of eight. -/
def inRing (f : RingLink → RingLink) : State := (later 160000000).onDev fun d => { d with
  str := { d.str with device := ⟨{ d.str.device.body with ringSize := 8, ringPos := 7 }, 0⟩ }
  ring := f d.ring }

/-- A frame of Table 9-9 for that ring with epoch 5 and zeros (R248, R249). -/
def ringFrame : List Byte :=
  let bytes := [0xE1, 8] ++ [0, 0, 0, 0, 0, 5] ++ List.replicate 100 0
  bytes ++ (leBytes 4 (crc32c bytes)).reverse

theorem witness_PlannerAndRing_RingLink : up.dev.str.device.body.ringSize < 2 ∧
    (2 ≤ (inRing id).dev.str.device.body.ringSize ∧ (inRing id).dev.pwr.mode ≠ .standby ∧ ringValid (inRing id).dev [] = false ∧
      ringValid (inRing id).dev ringFrame = true ∧ (inRing id).dev.ring.lost = false) ∧
    (let s := inRing fun x => { x with heardAt := some 80000000, lost := false }
     s.dev.ring.heardAt = some 80000000 ∧ s.dev.ring.lost = false ∧ 80000000 + 80000000 ≤ s.tm.time.toNat) := by decide +kernel

/-- Bus A on, changed; with handle 255 of unit 65535 joined, whose TAG 9 names entry 127. -/
def onBus (f : CanBus → CanBus) : State := (later 16000000).onDev fun d => ({ d with
    hs := { d.hs with heartbeat := some 16000000 }
    pp := { d.pp with
      maxOpen := 8, lease := 100
      buses := bankUpd d.pp.buses 0 fun c => f { c with en := true, state := .active } } }).onPartner 255 fun p =>
  { p with held := true, unit := 65535, tags := [⟨9, 127, 0, []⟩] }

/-- A frame that waits since TIME 0. -/
def oldFrame (sync started : Bool) : TxFrame := ⟨5, [], 0, started, none, sync, false, false⟩

theorem witness_FramesSent : portsLive (starting .wipe).dev = false ∧
    (portsLive (onBus id).dev = true ∧ (bankGet (onBus id).dev.pp.buses 0).en = true ∧
      (bankGet (onBus id).dev.pp.buses 0).state = .active) ∧
    (let s := onBus fun c => { c with queue := [oldFrame false false, oldFrame true false] }
     ((bankGet s.dev.pp.buses (busIdx .a)).queue.filter (WaitedFrames s.tm 20 false)).length = 0 + 1 ∧
      ((bankGet s.dev.pp.buses 0).queue.filter (WaitedFrames s.tm 5 true)).length = 0 + 1) ∧
    (let s := onBus fun c => { c with queue := [oldFrame false true] }
     (bankGet s.dev.pp.buses (busIdx .a)).queue.find? (·.started) = some (oldFrame false true)) ∧
    (let s := onBus fun c => { c with queue := [{ oldFrame false false with queued := 16000000 }] }
     busSends s.dev (busIdx .a) = true ∧ (∀ f ∈ (bankGet s.dev.pp.buses (busIdx .a)).queue,
      f.started = false ∧ WaitedFrames s.tm 20 false f = false ∧ WaitedFrames s.tm 5 true f = false) ∧
      (bankGet s.dev.pp.buses (busIdx .a)).queue ≠ []) := by decide +kernel

theorem witness_PartnersJoinAndLeave :
    (let s := onBus id
     busListens s.dev (busIdx .a) = true ∧ lifecycleRuns s.dev = true ∧ supRunning s.tm s.dev = true ∧
      (∀ h, (bankGet s.dev.pp.partners h).held = true → (bankGet s.dev.pp.partners h).unit ≠ 7) ∧
      listingOf s.dev (7 : BitVec 16).toNat = none ∧
      unlistedHandle s.tm 7 ((1 : BitVec 8).getLsbD 0) (Fin.ofNat 256 (254 : BitVec 8).toNat) s.dev = some 254 ∧
      (bankGet s.dev.pp.partners 255).held = true ∧ (bankGet s.dev.pp.partners 255).unit = 65535 ∧ s.dev.pwr.mode ≠ .standby ∧
      s.tm.time.toNat - (bankGet s.dev.pp.partners 255).leaseFrom < msTicks (leaseMs s.dev) ∧
      inHoldoff s.tm s.dev (bankGet s.dev.pp.partners 255) = false ∧ may s.dev .sup .engineer = true ∧ Reaches .sup .served s) ∧
    (let s := (later 80000000).onDev fun d => ({ d with
        hs := { d.hs with heartbeat := some 80000000 }, pp := { d.pp with lease := 100 } }).onPartner 255 fun p =>
          { p with held := true, leaseFrom := 0 }
     (bankGet s.dev.pp.partners 255).held = true ∧ supRunning s.tm s.dev = true ∧ s.dev.pwr.mode ≠ .standby ∧
      msTicks (leaseMs s.dev) ≤ s.tm.time.toNat - (bankGet s.dev.pp.partners 255).leaseFrom) ∧
    (let s := entry127 (fun e => { e with state := .queued, handle := 3 }) ((later 80000000).onDev fun d =>
        { d with pp := { d.pp with lease := 100 } })
     msTicks (leaseMs s.dev) ≤ s.tm.time.toNat - s.dev.pp.supStart ∧ (s.dev.led 127).state = .queued ∧
      (bankGet s.dev.pp.partners (s.dev.led 127).handle).held = false) ∧
    (let s := onBus id
     BitVec.ofNat 4 (bits (0x000000FF : BitVec 29).toNat 20 17) = s.dev.pp.node ∧ frameBad 0x000000FF [] = true) := by
  unfold Reaches; decide +kernel

/-- A PARTNERS entry that gives unit 65535 handle 255 on rail 63, with VREQ. -/
def listing : PartnerEntry := ⟨65535, 65535, 255, 0, some 63, true, 65535⟩

theorem witness_PartnersRequest :
    (let s := onBus id
     let profile : List ProfileSeg := List.replicate 8 ⟨2000, 1, 0⟩
     busListens s.dev (busIdx .a) = true ∧ supRunning s.tm s.dev = true ∧ (bankGet s.dev.pp.partners 255).held = true ∧
      (bankGet s.dev.pp.partners 255).unit = 65535 ∧ (2 : BitVec 2).toNat ≤ 2 ∧ profile.length = (8 : BitVec 4).toNat ∧
      profileValid (8 : BitVec 4).toNat profile = true ∧ tagItem (bankGet s.dev.pp.partners 255) 1 = none ∧
      openEntries s.dev 255 < maxOpen s.dev) ∧
    (let s := entry127 (fun e => { e with state := .active, handle := 255, segs := [⟨100, 5, 0⟩], first := 0, start := some 0 })
        (onBus id)
     let profile : List ProfileSeg := [⟨2000, 1, 0⟩, ⟨47, 1, 0⟩]
     busListens s.dev (busIdx .a) = true ∧ supRunning s.tm s.dev = true ∧ (bankGet s.dev.pp.partners 255).held = true ∧
      tagItem (bankGet s.dev.pp.partners 255) 9 = some ⟨9, 127, 0, []⟩ ∧ (127 : BitVec 8).toNat = (127 : Fin 128).val ∧
      (s.dev.led 127).handle = 255 ∧ (s.dev.led 127).state = .active ∧ profile.length = (2 : BitVec 4).toNat ∧
      profileValid (2 : BitVec 4).toNat profile = true ∧ totalMs (segsOf profile) ≤ 2047) ∧
    (let s := (onBus id).onDev fun d => { d with str := { d.str with partners := some ⟨[listing], 0⟩ } }
     busListens s.dev (busIdx .a) = true ∧ supRunning s.tm s.dev = true ∧ (bankGet s.dev.pp.partners 255).held = true ∧
      (standingOf s.dev (255 : Fin 256).val (bankGet s.dev.pp.partners 255).unit.toNat).vreqOk = true ∧
      (standingOf s.dev (255 : Fin 256).val (bankGet s.dev.pp.partners 255).unit.toNat).rail = some 63 ∧
      bits (0xFFF00001 : BitVec 32).toNat 19 0 ≠ 0 ∧ (∀ q ∈ (s.dev.rail 63).requests, q.handle ≠ 255) ∧
      (s.dev.rail 63).requests.length < 16) := by decide +kernel

theorem witness_BusErrors :
    (busOn (onBus id).dev (busIdx .a) = true ∧ (bankGet (onBus id).dev.pp.buses (busIdx .a)).state = .active ∧
      may (onBus id).dev .sup .engineer = true ∧ Reaches .sup .running (onBus id) ∧
      (bankGet (onBus id).dev.pp.buses (busIdx .a)).en = true) ∧
    (let s := up.onDev fun d => d.onBus 1 fun c => { c with en := false }
     may s.dev .sup .engineer = true ∧ Reaches .sup .running s ∧ (bankGet s.dev.pp.buses (busIdx .b)).en = false) ∧
    (let s := onBus fun c => { c with state := .busOff, recovering := true }
     (bankGet s.dev.pp.buses (busIdx .a)).state = .busOff ∧ (bankGet s.dev.pp.buses (busIdx .a)).en = true ∧
      (bankGet s.dev.pp.buses (busIdx .a)).recovering = true) := by
  unfold Reaches; decide +kernel

/-! ### Witnesses: protection, housekeeping, and the ports -/

/-- A protection entry on VSENSE 7 that acts on rail 63. -/
def ovEntry : ProtEntry := ⟨5, 2, 7, some 63, 0, 100⟩

theorem witness_ProtectionActs :
    (let s := up.onDev fun d => ({ d with pm := { d.pm with vsCount := 3, entries := [ovEntry], st := [⟨2, false, false⟩] } }).onRail 63
        fun x => { x with state := .regulate }
     s.dev.pm.entries[0]? = some ovEntry ∧ s.dev.pm.st[0]? = some ⟨2, false, false⟩ ∧ ovEntry.source = 5 ∧
      ovEntry.srcIndex = (7 : Fin 8).val ∧ ovEntry.level < (101 : BitVec 16).toNat ∧ max 1 s.dev.pm.vsCount.toNat ≤ 2 + 1 ∧
      ovEntry.action = 2 ∧ entryRail s.dev ovEntry = some 63 ∧ (s.dev.rail 63).state.tripped = true) ∧
    (may up.dev .sup .operate = true ∧ may up.dev .sup .engineer = true ∧ Reaches .sup .core up) ∧
    (let s := up.onDev fun d => { d with pm := { d.pm with st := List.replicate 256 ⟨0, false, true⟩ } }
     s.dev.pm.st[255]? = some ⟨0, false, true⟩) := by
  unfold Reaches; decide +kernel

/-- A HKEEP entry that reads junction 7. -/
def dieEntry : HkEntry := ⟨2, false, 7, 1680, 1840, 2000, 80, 0, 3, none⟩

theorem witness_HousekeepingRuns :
    (channelEntry up.dev 7 = some dieEntry ∧ dieEntry.source = 2 ∧ dieEntry.srcIndex = (7 : Fin 8).val ∧
      channelEntry up.dev 95 = none ∧ up.dev.pwr.mode ≠ .standby ∧ up.dev.hkt.tsd = false) ∧
    (let s := up.onDev fun d => { d with hkt := { d.hkt with inRound := true, chans := bankUpd d.hkt.chans 7 fun c =>
        { c with captured := some (-640), capIdle := false } } }
     s.dev.hkt.inRound = true ∧ channelEntry s.dev 7 = some dieEntry ∧ (bankGet s.dev.hkt.chans 7).capIdle = false ∧
      (bankGet s.dev.hkt.chans 7).captured = some (-640) ∧ dieEntry.xcheck = false) ∧
    (let s := up.onDev fun d => { d with hkt := { d.hkt with chans := bankUpd d.hkt.chans 95 fun c => { c with capIdle := true } } }
     (bankGet s.dev.hkt.chans 95).capIdle = true) ∧
    (let s := up.onDev fun d => mapped { d with
        hkt := { d.hkt with shutdown := some [] }, er := { d.er with seqNext := 1, seqLimit := 2 } }
     s.dev.hkt.shutdown = some [] ∧ (∀ j ∈ s.dev.ocs.current.toList ++ s.dev.ocs.jobs, j.tag ≠ .shutdown) ∧
      s.dev.hkt.jmax.toInt ≤ 2160 ∧ regionWritable s.dev.ocs 6 = true ∧ s.dev.er.seqNext ≠ s.dev.er.seqLimit ∧
      s.dev.er.seqEnd = false ∧ (shutdownPlace s.nv s.dev.ocs).isSome = true) ∧
    (let s := (later 8000000).onDev fun d => { d with hkt := { d.hkt with inRange := some 0 } }
     s.dev.hkt.inRange = some 0 ∧ 0 + 8000000 ≤ ticksNow s.tm) := by decide +kernel

theorem witness_UndefinedAddresses : answers logged.dev = true ∧ portTaken logged.dev = false ∧
    (0xEFFF : Addr).toNat < 0xF000 ∧ readWord logged (0xEFFF : Addr).toNat = none ∧
    ∀ p : Port, PortFree logged.dev p := by
  unfold PortFree
  exact ⟨by decide +kernel, by decide +kernel, by decide, by decide +kernel, fun p => by revert p; intro p; cases p <;> decide +kernel⟩

theorem witness_RegisterAccesses_WordsFrame : PortFree logged.dev .spi ∧ PortFree logged.dev .twoWire ∧ PortFree logged.dev .debug := by
  unfold PortFree; decide +kernel

theorem witness_RegisterAccesses_RegisterWrites :
    (let s := logged.onDev fun d => { d with sys := { d.sys with step := .apply } }
     PortFree s.dev .debug ∧ (readWord s (0x4000 : Addr).toNat).isSome = true ∧ 0x500 ≤ (0x4000 : Addr).toNat ∧
      s.dev.sys.step ≠ .ready) ∧
    (PortFree logged.dev .spi ∧ mayEarly logged.dev (.port .spi) .operate = true) ∧
    (PortFree lowPort.dev .spi ∧ mayEarly lowPort.dev (.port .spi) .operate = false) := by
  unfold PortFree; decide +kernel

theorem witness_RegisterAccesses_PairsOfWords :
    (PortFree logged.dev .spi ∧ WordThere logged 0x680C ∧ pairLow (0x680C : Addr).toNat = true ∧
      (readLevel .spi (0x680C : Addr).toNat).rank ≤ srcLevel logged.dev (.port .spi) ∧ may logged.dev (.port .spi) .operate = true ∧
      (logged.dev.port .spi).writeHold = none) ∧
    (let s := logged.onDev fun d => d.onPort .spi fun y => { y with readHold := some (0x680C, 5), writeHold := some (0x9408, 7) }
     PortFree s.dev .spi ∧ WordThere s 0x680D ∧ pairHigh (0x680D : Addr).toNat = true ∧
      (readLevel .spi (0x680D : Addr).toNat).rank ≤ srcLevel s.dev (.port .spi) ∧
      (s.dev.port .spi).readHold = some (0x680C, 5) ∧ (0x680C : Addr).toNat + 1 = (0x680D : Addr).toNat ∧
      (s.dev.port .spi).writeHold = some (0x9408, 7)) := by
  unfold PortFree WordThere; decide +kernel

/-- An access of one word that hangs on the debug port. -/
def hanging (a : Addr) (w : Option Word) : PendingAccess := ⟨w.isSome, [(a, w)], [], 0, [], 4, false⟩

/-- Quadrant 0's clock stopped, with that access pending. -/
def stalled (a : Addr) (w : Option Word) : State := logged.onDev fun d =>
  ({ d with clk := { d.clk with qclk := bankFill 4 false } }).onPort .debug fun y => { y with pending := some (hanging a w) }

theorem witness_RegisterAccesses_StalledAccesses : (logged.dev.port .debug).pending = none ∧
    (let s := stalled 0x1000 (some 1)
     (s.dev.port .debug).pending = some (hanging 0x1000 (some 1)) ∧ (hanging 0x1000 (some 1)).level = srcLevel s.dev (.port .debug) ∧
      (hanging 0x1000 (some 1)).todo = [(0x1000, some 1)] ∧ (readWord s (0x1000 : Addr).toNat).isSome = true ∧
      (accessWindow (0x1000 : Addr).toNat).shut s.tm s.dev = false ∧ (accessWindow (0x1000 : Addr).toNat).runs s.dev = false ∧
      s.dev.fw.hung = none) ∧
    (let s := stalled 0x4000 none
     (s.dev.port .debug).pending = some (hanging 0x4000 none) ∧ (hanging 0x4000 none).level = srcLevel s.dev (.port .debug) ∧
      WordThere s 0x4000 ∧ (readLevel .debug (0x4000 : Addr).toNat).rank ≤ srcLevel s.dev (.port .debug)) ∧
    (let s := (stalled 0x1000 none).onDev fun d => { d with fw := { d.fw with hung := some (0x1000, 1) } }
     s.dev.fw.hung = some (0x1000, 1) ∧ (accessWindow (0x1000 : Addr).toNat).runs s.dev = false) ∧
    (let s := logged.onDev fun d => { d with fw := { d.fw with hung := some (0x1000, 1) } }
     s.dev.fw.hung = some (0x1000, 1) ∧ (accessWindow (0x1000 : Addr).toNat).runs s.dev = true) ∧
    (reaches logged.dev (.port .debug) = true ∧ (logged.dev.port .debug).pending = none) := by
  unfold WordThere; decide +kernel

theorem witness_HostFrames : answers State.reset.dev = false ∧
    (answers logged.dev = true ∧ (logged.dev.port .spi).pending = none ∧ portTaken logged.dev = false ∧
      mayEarly logged.dev (.port .spi) .operate = true ∧ logged.dev.hsp.held = none) ∧
    crc8 (accessHeader (.read false 0x140 16)) ≠ 0 ∧
    (logged.onDev fun d => { d with hsp := { d.hsp with held := some (responseOf [0x01] [] 0) } }).dev.hsp.held =
      some (responseOf [0x01] [] 0) := by decide +kernel

theorem witness_AbortsRun :
    (∀ p : Port, bankGet logged.dev.hsp.flights (portIdx p) = none ∧ AbortComes (.write p) 0 0 logged.dev ∧
      joined logged.dev p .tune = none ∧ Level.custodian.rank ≤ srcLevel logged.dev (.port p)) ∧
    (AbortComes (.frame (crc8 [0x05, 0xFF, 0])) 0xFF 0 logged.dev ∧ (5 : BitVec 8) ≠ crc8 [0x05, 0xFF, 0]) ∧
    (srcLevel lowPort.dev (.port .spi) < Level.engineer.rank ∧ AbortComes (.write .spi) 1 0 lowPort.dev) ∧
    (let s := logged.onDev fun d => d.onLane 63 fun l => { l with state := .training }
     AbortComes (.write .spi) 0x06 (BitVec.ofNat 8 (63 : Fin 64).val) s.dev ∧
      bankGet s.dev.hsp.flights (portIdx .spi) = none ∧ 3 ≤ srcLevel s.dev (.port .spi) ∧
      joined s.dev .spi (.training 63) = none ∧ (s.dev.lane 63).state = .training) ∧
    (let s := stalled 0x1000 none
     reaches s.dev (.port .debug) = true ∧ (s.dev.port .debug).pending = some (hanging 0x1000 none) ∧
      (hanging 0x1000 none).todo ≠ [] ∧ bankGet s.dev.hsp.flights (portIdx .debug) = none ∧
      joined s.dev .debug (.access .debug) = none) ∧
    ¬ ((1 ≤ (9 : BitVec 8).toNat ∧ (9 : BitVec 8).toNat ≤ 8) ∨ (9 : BitVec 8) = 0xFF) ∧
    (let f : AbortFlight := ⟨1, 0, .aborted, 0, .debug, [(1, 0)], []⟩
     let s := logged.onDev fun d => { d with hsp := { d.hsp with flights := bankSet d.hsp.flights 2 (some f), abortPort := .debug } }
     bankGet s.dev.hsp.flights (portIdx .debug) = some f ∧ s.dev.hsp.abortPort = .debug) := by
  refine ⟨fun p => ?_, ?_⟩
  · unfold AbortComes PortFree; cases p <;> decide +kernel
  · unfold AbortComes PortFree; decide +kernel

/-- The two-wire port changed. -/
def twoWire (f : TwoWire → TwoWire) : State := logged.onDev fun d => { d with twp := f d.twp }

theorem witness_TargetAnswers : targetListens (twoWire fun t => { t with en := false }).dev = false ∧
    (let s := twoWire fun t => { t with pecT := true }
     targetListens s.dev = true ∧ s.dev.twp.pecT = true ∧ crc8 (byte (2 * s.dev.twp.ownAddr.toNat) :: [0, 0, 0]) ≠ 0) ∧
    (let s := twoWire fun t => { t with pecT := false }
     targetListens s.dev = true ∧ s.dev.twp.pecT = false ∧ mayEarly s.dev (.port .twoWire) .operate = true) ∧
    (let s := (twoWire fun t => { t with stretchMax := 1 }).onDev fun d => d.onPort .twoWire fun y =>
        { y with pending := some (hanging 0x1000 none) }
     (s.dev.port .twoWire).pending = some (hanging 0x1000 none) ∧ (hanging 0x1000 none).todo = (0x1000, none) :: [] ∧
      (hanging 0x1000 none).write = false ∧ (hanging 0x1000 none).cut = false ∧ s.dev.twp.stretchMax ≠ 0) ∧
    (let s := (twoWire fun t => { t with araEn := true, alertMask := 0x1FFFF }).onDev fun d => { d with
        ocs := { d.ocs with intStatus := 1, intEnable := 1 } }
     answers s.dev = true ∧ s.dev.twp.en = true ∧ s.dev.twp.araEn = true ∧ s.dev.twp.ownAddr ≠ 0x0C ∧
      alertLow (settleAlert s.dev) = true) ∧
    reaches up.dev (.port .debug) = false ∧
    (let s := logged.onDev fun d => { d with sys := { d.sys with step := .apply } }
     reaches s.dev (.port .debug) = true ∧ s.dev.sys.step ≠ .ready) ∧
    (reaches logged.dev (.port .debug) = true ∧ logged.dev.sys.step = .ready ∧ logged.dev.sg.auth = .full) ∧
    (let s := logged.onDev fun d => { d with sg := { d.sg with auth := .read } }
     reaches s.dev (.port .debug) = true ∧ s.dev.sys.step = .ready ∧ s.dev.sg.auth ≠ .full) ∧
    PortFree logged.dev .debug := by
  unfold PortFree; decide +kernel

/-! ### Witnesses: the two-wire port's own work -/

/-- A poll of one byte without PEC, each 10 ms. -/
def pollOne : PeriphEntry := ⟨0x48, false, false, 0, 1, 1, 0⟩

/-- The controller role with that entry in place 31 of 32; the port changed. -/
def polling31 (f : TwoWire → TwoWire) : State := up.onDev fun d => { d with
  str := { d.str with periph := some ⟨⟨0, 0, 0, 0, 0, 0, List.replicate 32 pollOne⟩, 0⟩ }
  twp := f { d.twp with en := true, pollEn := true } }

theorem witness_TwoWirePortWorks :
    (let s := polling31 fun t => { t with smbTo := true, busBusy := true }
     may s.dev .sup .engineer = true ∧ Reaches .sup .running s ∧ s.dev.twp.en = true ∧ s.dev.twp.smbTo = true ∧
      s.dev.twp.polling = none ∧ controllerOn s.dev = true ∧ fallsDue s.tm 31 s.dev = true ∧
      (bankGet s.dev.twp.per 31).due = false ∧ s.dev.twp.busBusy = true ∧ (pollEntry s.dev 31).isSome = true ∧
      s.dev.twp.sclStuck = false ∧ s.dev.twp.recovery = none) ∧
    (let s := polling31 fun t => { t with smbTo := false, busBusy := false }
     s.dev.twp.smbTo = false ∧ controllerOn s.dev = true ∧ fallsDue s.tm 31 s.dev = true ∧
      (∀ k, (bankGet s.dev.twp.per k).due = false) ∧ s.dev.twp.busBusy = false ∧ s.dev.twp.recovery = none ∧
      s.dev.twp.polling = none) ∧
    fallsDue up.tm 31 up.dev = false ∧
    (let s := polling31 fun t => { t with per := bankMap t.per fun _ x => { x with due := true } }
     controllerOn s.dev = true ∧ fallsDue s.tm 31 s.dev = true ∧ (bankGet s.dev.twp.per 31).due = true) ∧
    (let s := polling31 fun t => { t with polling := some 31 }
     may s.dev .sup .engineer = true ∧ Reaches .sup .running s ∧ s.dev.twp.polling = some 31 ∧ pollEntry s.dev 31 = some pollOne ∧
      [(255 : BitVec 8)].length = pollOne.len + bit pollOne.pec ∧ pollOne.pec = false) ∧
    (let s := polling31 fun t => { t with recovery := some ⟨some 8, none, 0⟩ }
     s.dev.twp.recovery = some ⟨some 8, none, 0⟩ ∧ 0 ≤ ticksNow s.tm) ∧
    (let s := polling31 fun t => { t with
        recovery := some ⟨none, some 31, 0⟩, per := bankMap t.per fun _ x => { x with due := true } }
     s.dev.twp.recovery = some ⟨none, some 31, 0⟩ ∧ 0 ≤ ticksNow s.tm ∧ (bankGet s.dev.twp.per 31).due = true) ∧
    (let s := (later 80000000).onDev fun d => { d with twp := { d.twp with en := true, retryFrom := some 0 } }
     s.dev.twp.retryFrom = some 0 ∧ 0 + 100000 ≤ s.tm.us.toNat ∧ s.dev.twp.en = true ∧ s.dev.twp.sclStuck = false ∧
      s.dev.twp.recovery = none) ∧
    (let s := up.onDev fun d => { d with twp := { d.twp with retryFrom := some 0 } }
     s.dev.twp.retryFrom = some 0 ∧ s.tm.us.toNat < 0 + 100000) ∧
    (up.dev.twp.polling = none ∧ controllerOn up.dev = false) := by
  unfold Reaches; decide +kernel

/-! ### Witnesses: sessions, keys, life cycle and debug -/

/-- Every port challenged for level 0 with a RESP, and every key installed. -/
def challenged (w : Bank 8 Word) : State := up.onDev fun d => { d with sg := { d.sg with
  ports := bankFill 3 ⟨.challenged, 0, 0, 0, 0, none, 0, 1, List.replicate 32 1, w, [], 0, none, false⟩
  keys := bankFill 5 (some ⟨1, List.replicate 32 7⟩)
  dbgNonce := List.replicate 32 2, dbgCtr := 2 } }

/-- A session of every port changed. -/
def sessions (f : Session → Session) : State := (later 80000000).onDev fun d => { d with sg := { d.sg with
  ctrNext := 0x1FFFFF, ports := bankMap d.sg.ports fun _ x => f x } }

theorem witness_SessionsWork :
    (Reaches (.port .spi) .early (sessions fun x => { x with failPending := true }) ∧
      failureRuns .spi (sessions fun x => { x with failPending := true }).dev = true) ∧
    (let s := sessions fun x => { x with lockedUntil := some 100001 }
     Reaches (.port .spi) .early s ∧ failureRuns .spi s.dev = false ∧ portLocked s.tm (s.dev.session .spi) = true ∧
      s.tm.us.toNat < 100001) ∧
    (let s := sessions id
     Reaches (.port .spi) .early s ∧ failureRuns .spi s.dev = false ∧ portLocked s.tm (s.dev.session .spi) = false ∧
      s.dev.sg.ctrNext ≠ 0 ∧ canCount s.dev = true ∧ (s.dev.session .spi).state ≠ .challenged) ∧
    (let s := (sessions id).onDev fun d => { d with hkt := { d.hkt with storeWin := false } }
     Reaches (.port .spi) .early s ∧ canCount s.dev = false) ∧
    (let s := (later 3600000000000).onDev fun d => { d with sg := { d.sg with
        ports := bankMap d.sg.ports fun _ x => { x with state := .opened, lastUse := 0 } } }
     (s.dev.session .debug).state = .opened ∧
      (s.dev.session .debug).lastUse + idleSeconds (s.dev.session .debug) * 1000000 ≤ s.tm.us.toNat) ∧
    (let s := sessions fun x => { x with state := .opened, lastUse := 0 }
     s.tm.us.toNat < (s.dev.session .debug).lastUse + idleSeconds (s.dev.session .debug) * 1000000) ∧
    (let s := sessions fun x => { x with lockedUntil := some 100000 }
     (s.dev.session .debug).lockedUntil = some 100000 ∧ 100000 ≤ s.tm.us.toNat) := by
  unfold Reaches; decide +kernel

/-- The proof that a challenged session of SPI asks for. -/
def askedProof (s : State) : List Byte :=
  hmac (List.replicate 32 7) (proofMessage s.dev (tagEH 0x53) (portIdx .spi).val (s.dev.session .spi).level.toNat
    (s.dev.session .spi).chal (s.dev.session .spi).ctr)

/-- What PROVE asks for beside the proof. -/
theorem challenged_ready (w : Bank 8 Word) : Reaches (.port .spi) .early (challenged w) ∧ failureRuns .spi (challenged w).dev = false ∧
    ((challenged w).dev.session .spi).state = .challenged ∧ canCount (challenged w).dev = true ∧
    (challenged w).dev.sg.lc ≠ .blank ∧ (challenged w).dev.sg.lc ≠ .returned ∧
    keyOf (challenged w).dev (Fin.ofNat 5 ((challenged w).dev.session .spi).level.toNat) = some (List.replicate 32 7) ∧
    ((challenged w).dev.session .spi).fails.toNat < 4 :=
  ⟨⟨rfl, rfl, rfl⟩, rfl, rfl, Eq.trans (show _ = canCount up.dev from rfl) (by decide +kernel),
    show LifeCycle.commission ≠ .blank by decide, show LifeCycle.commission ≠ .returned by decide, rfl, show 0 < 4 by decide⟩

/-- There is a right RESP, and a wrong one. -/
theorem witness_SessionsWork_proofs :
    (∃ w, askedProof (challenged w) = respBytes ((challenged w).dev.session .spi)) ∧
    ∃ w, askedProof (challenged w) ≠ respBytes ((challenged w).dev.session .spi) := by
  have same : ∀ w v, askedProof (challenged w) = askedProof (challenged v) := fun _ _ => rfl
  have resp : ∀ w, respBytes ((challenged w).dev.session .spi) = w.toList.flatMap fun x => beBytes 4 x.toNat := fun _ => rfl
  refine ⟨?_, ?_⟩
  · obtain ⟨w, hw⟩ := hmac_words (List.replicate 32 7) (proofMessage (challenged (bankFill 8 0)).dev (tagEH 0x53) (portIdx .spi).val
      ((challenged (bankFill 8 0)).dev.session .spi).level.toNat ((challenged (bankFill 8 0)).dev.session .spi).chal
      ((challenged (bankFill 8 0)).dev.session .spi).ctr)
    exact ⟨w, by rw [same w (bankFill 8 0), resp w]; exact hw.symm⟩
  · by_cases h : askedProof (challenged (bankFill 8 0)) = respBytes ((challenged (bankFill 8 0)).dev.session .spi)
    · refine ⟨bankFill 8 1, fun e => ?_⟩
      rw [same _ (bankFill 8 0), h, resp, resp] at e
      exact absurd e (by decide)
    · exact ⟨_, h⟩

/-- The CUSTODIAN session's state for a key with check value kcv. -/
def keying (kcv : Word) : State := logged.onDev fun d => { d with sg := { d.sg with kcv := kcv } }

/-- The key that KEYDATA spells there for target 4. -/
def keyedAs (s : State) : List Byte :=
  List.zipWith (fun a b : BitVec 8 => a ^^^ b) (keydataBytes s.dev) (wrapPad s.dev 4 (keyGen s.dev 4 + 1) (s.dev.session .spi).chal)

theorem witness_LifeCycleChanges :
    ((Instr.lcReturn (.port .spi), LifeCycle.returned) ∈ lifeOps (.port .spi) ∧ Reaches (.port .spi) .early lowPort ∧
      srcLevel lowPort.dev (.port .spi) < (lifeLevel lowPort.dev.sg.lc .returned).rank) ∧
    (let s := logged.onDev fun d => { d with sg := { d.sg with keysLoaded := false } }
     Reaches (.port .spi) .early s ∧ (lifeLevel s.dev.sg.lc .returned).rank ≤ srcLevel s.dev (.port .spi) ∧
      s.dev.sg.keysLoaded = false ∧ srcLevel s.dev (.port .spi) = 4 ∧ (4 : BitVec 3).toNat = (4 : Fin 5).val) ∧
    (Reaches (.port .spi) .early logged ∧ (∀ lc : LifeCycle, (lifeLevel logged.dev.sg.lc lc).rank ≤ srcLevel logged.dev (.port .spi)) ∧
      logged.dev.sg.busy = false ∧ logged.dev.sg.keysLoaded = true ∧ logged.dev.pwr.mode ≠ .standby ∧
      logged.dev.hkt.storeWin = true ∧ logged.dev.hkt.tsd = false ∧ regionWritable logged.dev.ocs 5 = true ∧
      lifeRow logged.dev.sg.lc .maintain = false ∧ lifeRow logged.dev.sg.lc .retired = true ∧
      lifeBar logged.nv .retired logged.dev = none ∧ logged.dev.img.trialOpen = false) ∧
    (let s := up.onDev fun d => { d with sg := { d.sg with lcPending := true } }
     s.dev.sg.lcPending = true ∧ wipesRun s.dev = false ∧ s.dev.ocs.recovering = false) ∧
    (Reaches (.port .spi) .early lowPort ∧ srcLevel lowPort.dev (.port .spi) < 4) ∧
    (5 ≤ (7 : BitVec 3).toNat ∧ regionWritable logged.dev.ocs 4 = true) := by
  refine ⟨by unfold Reaches; decide +kernel, by unfold Reaches; decide +kernel, ?_, by decide +kernel,
    by unfold Reaches; decide +kernel, by decide +kernel⟩
  refine ⟨by unfold Reaches; decide +kernel, ?_, by decide +kernel⟩
  intro lc; cases lc <;> decide +kernel

/-- A number that fits is a word's. -/
theorem exists_word {w : Nat} (n : Nat) (h : n < 2 ^ w) : ∃ x : BitVec w, n = x.toNat :=
  ⟨BitVec.ofNat w n, by rw [BitVec.toNat_ofNat, Nat.mod_eq_of_lt h]⟩

/-- A key's check value that is right, and one that is not. -/
theorem witness_LifeCycleChanges_keys :
    (∃ kcv, beNat ((hmac (keyedAs (keying kcv)) (tagEH 0x4B)).take 4) = (keying kcv).dev.sg.kcv.toNat) ∧
    ∃ kcv, beNat ((hmac (keyedAs (keying kcv)) (tagEH 0x4B)).take 4) ≠ (keying kcv).dev.sg.kcv.toNat := by
  have pad : ∀ w v gen chal, wrapPad (keying w).dev 4 gen chal = wrapPad (keying v).dev 4 gen chal := fun w v gen chal => by
    unfold wrapPad
    rw [show (keying w).dev.sg.lc = (keying v).dev.sg.lc from rfl, show keyOf (keying w).dev 3 = keyOf (keying v).dev 3 from rfl]
  have same : ∀ w v, keyedAs (keying w) = keyedAs (keying v) := fun w v => by
    unfold keyedAs
    rw [show keydataBytes (keying w).dev = keydataBytes (keying v).dev from rfl, pad w v,
      show keyGen (keying w).dev 4 = keyGen (keying v).dev 4 from rfl,
      show ((keying w).dev.session .spi).chal = ((keying v).dev.session .spi).chal from rfl]
  have kcv : ∀ w, (keying w).dev.sg.kcv = w := fun _ => rfl
  have lt : beNat ((hmac (keyedAs (keying 0)) (tagEH 0x4B)).take 4) < 2 ^ 32 := by
    have h := beNat_lt ((hmac (keyedAs (keying 0)) (tagEH 0x4B)).take 4)
    rwa [List.length_take, length_hmac, show 256 ^ min 4 32 = 2 ^ 32 by decide] at h
  refine ⟨?_, ?_⟩
  · obtain ⟨w, hw⟩ := exists_word _ lt
    exact ⟨w, by rw [kcv, same w 0]; exact hw⟩
  · by_cases h : beNat ((hmac (keyedAs (keying 0)) (tagEH 0x4B)).take 4) = 0
    · exact ⟨1, by rw [kcv, same 1 0, h, show (1 : Word).toNat = 1 by decide]; exact Nat.zero_ne_one⟩
    · exact ⟨0, by rw [kcv, show (0 : Word).toNat = 0 by decide]; exact h⟩

theorem witness_DebugAuthorises :
    (let s := sessions id
     answers s.dev = true ∧ portLocked s.tm (s.dev.session .debug) = false ∧ s.dev.sg.ctrNext ≠ 0) ∧
    (let s := up.onDev fun d => { d with sg := { d.sg with keysLoaded := false } }
     answers s.dev = true ∧ s.dev.sg.keysLoaded = false) ∧
    (answers up.dev = true ∧ up.dev.sg.keysLoaded = true ∧ failureRuns .debug up.dev = false ∧
      ((0 : BitVec 2) = 0 ∨ (0 : BitVec 2) = 3)) ∧
    (let s := up.onDev fun d => { d with sg := { d.sg with lc := .service } }
     s.dev.sg.lc = .service) ∧
    (let s := up.onDev fun d => { d with sg := { d.sg with lc := .blank } }
     answers s.dev = true ∧ s.dev.sg.keysLoaded = true ∧ failureRuns .debug s.dev = false ∧ s.dev.sg.lc = .blank) ∧
    (let s := challenged (bankFill 8 0)
     answers s.dev = true ∧ s.dev.sg.keysLoaded = true ∧ failureRuns .debug s.dev = false ∧ s.dev.sg.lc = .commission ∧
      portLocked s.tm (s.dev.session .debug) = false ∧ canCount s.dev = true ∧ s.dev.sg.dbgNonce ≠ [] ∧
      keyOf s.dev 4 = some (List.replicate 32 7) ∧ (s.dev.session .debug).fails.toNat < 4) ∧
    (logged.dev.sg.auth = .full ∧ (∀ r, railQuiet logged.dev r = true) ∧ logged.dev.pwr.mode ≠ .standby) ∧
    up.dev.sg.auth ≠ .full := by decide +kernel

/-- A right token, and a wrong one. -/
theorem witness_DebugAuthorises_tokens :
    let mac := hmac (List.replicate 32 7) (proofMessage (challenged (bankFill 8 0)).dev (tagEH 0x54) 2 (2 : BitVec 2).toNat
      (challenged (bankFill 8 0)).dev.sg.dbgNonce (challenged (bankFill 8 0)).dev.sg.dbgCtr)
    (∃ token : BitVec 256, mac = beBytes 32 token.toNat) ∧ ∃ token : BitVec 256, mac ≠ beBytes 32 token.toNat := by
  intro mac
  have len : mac.length = 32 := length_hmac _ _
  refine ⟨?_, ?_⟩
  · have lt : beNat mac < 2 ^ 256 := by
      have h := beNat_lt mac; rw [len] at h; exact h
    obtain ⟨w, hw⟩ := exists_word _ lt
    have h := beBytes_beNat mac
    rw [len, hw] at h; exact ⟨w, h.symm⟩
  · by_cases h : mac = beBytes 32 (0 : BitVec 256).toNat
    · exact ⟨1, by rw [h]; decide⟩
    · exact ⟨0, h⟩

/-! ### Witnesses: power states and firmware -/

/-- The power state changed. -/
def power (f : Power → Power) : State := (later 8000000).onDev fun d => { d with pwr := f d.pwr }

/-- A state with a T-tick count within its microsecond. -/
def inPhase (k : Fin 800) (s : State) : State := { s with tm := { s.tm with phase := k } }

/-- In STANDBY, a wake by the supervisor's timer enabled. -/
def sleeping : State := power fun p => { p with mode := .standby, waking := none }

theorem witness_PowerStates :
    (Reaches (.port .spi) .early lowPort ∧ srcLevel lowPort.dev (.port .spi) < Level.operate.rank ∧
      (Instr.pwrRun (.port .spi), Level.operate) ∈ powerOps (.port .spi) 3) ∧
    (mayEarly up.dev .sup .operate = true ∧ mayEarly up.dev .sup .engineer = true ∧ Reaches .sup .early up ∧
      up.dev.pwr.mode = .run ∧ up.dev.img.loadRun.toNat ≤ 4500 ∧ standbyBar up.dev = none ∧
      bankGet up.dev.pwr.smoulder 3 = false ∧ bankGet up.dev.pwr.entering 3 = none) ∧
    (let s := power fun p => { p with mode := .trim }
     mayEarly s.dev .sup .operate = true ∧ Reaches .sup .early s ∧ s.dev.pwr.mode = .trim) ∧
    (mayEarly sleeping.dev .sup .operate = true ∧ mayEarly sleeping.dev .sup .engineer = true ∧ Reaches .sup .early sleeping ∧
      sleeping.dev.pwr.mode = .standby ∧ sleeping.dev.pwr.waking = none ∧ sleeping.tm.phase = 0 ∧
      (inPhase 799 sleeping).tm.phase ≠ 0 ∧ wakeCode sleeping.dev .thermal = some 5) ∧
    (let s := up.onDev fun d => { d with img := { d.img with loadRun := 4501 } }
     s.dev.pwr.mode = .run ∧ 4500 < s.dev.img.loadRun.toNat) ∧
    (let s := power fun p => { p with wakeA := false }
     wakeCode s.dev .busA = none) ∧
    (let s := rail0 fun x => { x with state := .regulate }
     Reaches .sup .early s ∧ s.dev.pwr.mode ≠ .standby ∧ standbyBar s.dev = some .rails) ∧
    (let s := power fun p => { p with smoulder := bankFill 4 true, entering := bankFill 4 (some 0) }
     Reaches .sup .early s ∧ bankGet s.dev.pwr.smoulder 3 = true ∧ s.dev.pwr.mode ≠ .standby ∧
      bankGet s.dev.pwr.entering 3 = some 0 ∧ 0 + msTicks 10 ≤ s.tm.time.toNat) ∧
    (let s := power fun p => { p with entering := bankFill 4 (some 1) }
     bankGet s.dev.pwr.entering 3 = some 1 ∧ s.tm.time.toNat < 1 + msTicks 10) := by
  unfold Reaches; decide +kernel

/-- Code slot 1 in a phase, beside slot 0, CONFIRMED and running. -/
def codeSlot (p : SlotPhase) (f : Firmware → Firmware) : State :=
  { later 80000000 with
    nv := { up.nv with code := bankOf fun k => if k = 1 then ⟨p, 1, 1, [], false⟩ else ⟨.confirmed, 1, 1, [], true⟩ }
    dev := { up.dev with fw := f { up.dev.fw with running := 0 } } }

theorem witness_FirmwareSlots :
    (Instr.fwConfirm (.port .spi) ∈ fwOps (.port .spi) 0 7 ∧ Reaches (.port .spi) .early lowPort ∧
      mayEarly lowPort.dev (.port .spi) .engineer = false) ∧
    (let s := codeSlot .empty fun f => { f with busy := true }
     Reaches .sup .early s ∧ mayEarly s.dev .sup .engineer = true ∧ lifeAllows s.dev = true ∧ s.dev.fw.busy = true) ∧
    (Reaches .sup .early sleeping ∧ mayEarly sleeping.dev .sup .engineer = true ∧ lifeAllows sleeping.dev = true ∧
      sleeping.dev.fw.busy = false ∧ sleeping.dev.pwr.mode = .standby) ∧
    (let s := codeSlot .empty id
     FwFree .sup s ∧ s.dev.fw.running ≠ 1 ∧ (bankGet s.nv.code 1).phase = .empty ∧ (bankGet s.nv.code 1).phase ≠ .confirmed ∧
      fwTrial s.nv = none ∧ s.dev.fw.op = none ∧ s.dev.fw.fillSlot = none ∧ ¬ (1 ≤ (6 : BitVec 3).toNat ∧ (6 : BitVec 3).toNat ≤ 5)) ∧
    (let s := codeSlot .written id
     FwFree .sup s ∧ (bankGet s.nv.code 1).phase = .written ∧ (bankGet s.nv.code 1).phase ≠ .empty ∧
      (bankGet s.nv.code s.dev.fw.running).phase = .confirmed ∧ fwTrial s.nv = none) ∧
    (let s := codeSlot .trial fun f => { f with trialAt := some 0 }
     FwFree .sup s ∧ fwTrial s.nv = some 1 ∧ s.dev.fw.trialAt = some 0 ∧ s.tm.us.toNat < 0 + trialSeconds s.dev * 1000000) ∧
    (let s := { codeSlot .trial fun f => { f with trialAt := some 0 } with tm := (later 3600000000000).tm }
     fwTrial s.nv = some 1 ∧ s.dev.fw.trialAt = some 0 ∧ 0 + trialSeconds s.dev * 1000000 ≤ s.tm.us.toNat) ∧
    (codeSlot .empty fun f => { f with op := some (.erase 1) }).dev.fw.op = some (.erase 1) ∧
    (let s := codeSlot .empty fun f => { f with op := some (.seal 1) }
     s.dev.fw.op = some (.seal 1) ∧ sealCheck (svnMin s.dev) (bankGet s.nv.code 1) = .header ∧ FwResult.header ≠ .ok) ∧
    (let s := codeSlot .empty fun f => { f with fillSlot := some 1, dataAddr := 524284 }
     Reaches .sup .early s ∧ mayEarly s.dev .sup .engineer = true ∧ lifeAllows s.dev = true ∧ s.dev.fw.fillSlot = some 1 ∧
      (bankGet s.nv.code 1).phase = .empty ∧ s.dev.fw.busy = false ∧ s.dev.fw.dataAddr.toNat / 4 * 4 + 3 < 524288 ∧
      cellsWf (bankGet s.nv.code 1).bytes = true ∧ 3 < 4) := by
  unfold FwFree Reaches
  refine ⟨?_, ?_, ?_, ?_, ?_, ?_, ?_, ?_, ?_, ?_⟩ <;> decide +kernel

/-! ### Witnesses: the on-chip store, recorder, archive and capture -/

/-- The store changed. -/
def stored (f : Store → Store) : State := up.onDev fun d => { d with ocs := f d.ocs }

/-- A USER record of block 127 in the first chunks of a sector of region 9 (Table 15-2). -/
def userStored : State :=
  let s := stored fun o => { o with map := bankSet o.map 119 (some 119), region := bankSet o.region 119 9 }
  let bs := ((encodeRecord ⟨0x50, 127, 0, List.replicate 224 1, 9, none⟩ 5).set 252 0).set 253 0
  { s with nv := { s.nv with flash := cellsAt (4096 * 119) bs } }

theorem witness_StoreCommands :
    (Reaches (.port .spi) .store lowPort ∧ (Instr.protect (.port .spi) 3, Level.engineer) ∈ storeOps (.port .spi) 127 3 ∧
      may lowPort.dev (.port .spi) .engineer = false ∧ lowPort.dev.ocs.cmdBusy = false) ∧
    (let s := stored fun o => { o with cmdBusy := true }
     Reaches .sup .store s ∧ may s.dev .sup .custodian = true ∧ s.dev.sg.lc ≠ .returned ∧ s.dev.ocs.cmdBusy = true) ∧
    (let s := stored fun o => { o with pfail := true }
     Reaches .sup .store s ∧ s.dev.ocs.cmdBusy = false ∧ s.dev.ocs.pfail = true) ∧
    (StoreFree .sup up ∧ may up.dev .sup .observe = true ∧ may up.dev .sup .engineer = true ∧ may up.dev .sup .custodian = true ∧
      up.dev.sg.lc ≠ .returned ∧ lookupRecord up.dev.draws up.nv up.dev.ocs 9 0x50 (127 : Fin 128).val 0 = none ∧
      regionWritable up.dev.ocs 9 = true ∧ regionWritable up.dev.ocs 5 = true ∧ blockProtected up.dev.ocs.bp 127 = false ∧
      up.dev.ocs.bp.toNat ≤ (3 : BitVec 2).toNat ∧ ¬ (1 ≤ (15 : BitVec 4).toNat ∧ (15 : BitVec 4).toNat ≤ 3)) ∧
    (StoreFree .sup userStored ∧
      (lookupRecord userStored.dev.draws userStored.nv userStored.dev.ocs 9 0x50 (127 : Fin 128).val 0).isSome = true) ∧
    (let s := stored fun o => { o with readonly := o.readonly ||| 0x200 }
     StoreFree .sup s ∧ regionWritable s.dev.ocs 9 = false) ∧
    (let s := stored fun o => { o with bp := 1 }
     StoreFree .sup s ∧ regionWritable s.dev.ocs 9 = true ∧ blockProtected s.dev.ocs.bp 96 = true) ∧
    (let s := logged.onDev fun d => { d with
        ocs := { d.ocs with bp := 1 }
        sg := { d.sg with ports := bankMap d.sg.ports fun _ x => { x with level := 2 } } }
     StoreFree (.port .spi) s ∧ may s.dev (.port .spi) .engineer = true ∧ (0 : BitVec 2).toNat < s.dev.ocs.bp.toNat ∧
      may s.dev (.port .spi) .custodian = false) := by
  unfold StoreFree Reaches
  refine ⟨?_, ?_, ?_, ?_, ?_, ?_, ?_, ?_⟩ <;> decide +kernel

/-- A program of the last chunk, at the head of a job; and the erase of the last sector. -/
def lastChunk : ChunkProg := ⟨524224, List.replicate 64 0⟩
def programJob : Job := ⟨[.bytes [lastChunk]], .record, .none, false⟩
def eraseJob : Job := ⟨[.erase 127 3 true], .upkeep, .none, false⟩

theorem witness_FlashChanges :
    (let s := stored fun o => { o with current := some programJob }
     cellsWf s.nv.flash = true ∧ s.dev.ocs.current = some programJob ∧ headProg programJob = some lastChunk ∧
      lastChunk.bytes[63]? = some 0) ∧
    (let s := stored fun o => { o with current := some eraseJob }
     s.dev.ocs.current = some eraseJob ∧ eraseJob.steps = .erase 127 3 true :: []) := by decide +kernel

/-- An event that waits. -/
def someEvent : Event := ⟨0x40, [], 0, none, none, false⟩

/-- The circulating area's next place is the first of its sector 100. -/
def recording (f : Recorder → Recorder) (g : Store → Store) : State := up.onDev fun d => { d with
  ocs := g { d.ocs with map := bankSet d.ocs.map 100 (some 100), used := bankSet d.ocs.used 8 [100] }
  er := f { d.er with queue := [someEvent], seqNext := 5, seqLimit := 1024 } }

theorem witness_EventsRecorded :
    (up.dev.er.queue = [] ∧ up.dev.er.bogOnly = false) ∧
    (let s := recording id id
     s.dev.er.queue = someEvent :: [] ∧ mayRecord s.dev = true ∧ s.dev.er.seqNext ≠ s.dev.er.seqLimit ∧ s.dev.er.bogOnly = false ∧
      s.dev.clk.sclkOn = true ∧ s.dev.ocs.current = none ∧ s.dev.ocs.jobs = [] ∧
      (circulatingPlace s.dev.ocs).isSome = true) ∧
    (let s := recording id fun o => { o with current := some programJob }
     s.dev.ocs.current = some programJob ∧ erasing s.dev.ocs = false ∧ programJob.tag ≠ .event s.dev.er.seqNext ∧
      s.dev.er.bogOnly = false ∧ s.dev.er.seqNext ≠ s.dev.er.seqLimit ∧ (circulatingPlace s.dev.ocs).isSome = true) ∧
    (let s := (later 8000000).onDev fun d => { d with er := { d.er with chains := [⟨0x40, [], 0, none, 1, 9000, 0⟩] } }
     ∃ c ∈ s.dev.er.chains, s.tm.us.toNat ≤ c.last + 1000) ∧
    (Reaches (.port .spi) .running lowPort ∧ may lowPort.dev (.port .spi) .operate = false) ∧
    (let s := recording (fun e => { e with busy := true }) id
     Reaches .sup .running s ∧ may s.dev .sup .custodian = true ∧ s.dev.er.busy = true) ∧
    (Reaches .sup .running up ∧ may up.dev .sup .operate = true ∧ may up.dev .sup .custodian = true ∧
      may up.dev .sup .observe = true ∧ up.dev.er.busy = false ∧ up.dev.sg.lc ≠ .returned ∧ up.dev.er.chains = [] ∧
      (up.dev.er.queue.filter (·.spare)).length < 4 ∧ (2 : BitVec 4).getLsbD 1 = true ∧ (11 : BitVec 4).getLsbD 2 = false) := by
  unfold Reaches
  refine ⟨?_, ?_, ?_, ?_, ?_, ?_, ?_⟩ <;> decide +kernel

/-- An event record of the permanent area shows up in SELECT. -/
theorem witness_EventsRecorded_select :
    let s := stored fun o => { o with map := bankSet o.map 90 (some 90), region := bankSet o.region 90 7 }
    let bs := (encodeEvent 7 0 0 false 0x40 []).set 30 0
    let s := { s with nv := { s.nv with flash := cellsAt (4096 * 90 + 256) bs } }
    (selectOnChip s.nv 2 s.dev).isSome = true := by decide +kernel

/-- The archive changed; it is READY with 4,096 blocks. -/
def archive (f : Bog → Bog) : State := (later 900000000).onDev fun d => { d with
  hs := { d.hs with heartbeat := some 900000000 }
  bog := f { d.bog with state := .ready, blocks := bankSet d.bog.blocks 0 4096 } }

theorem witness_ArchiveWorks :
    (Reaches (.port .spi) .store lowPort ∧ may lowPort.dev (.port .spi) .engineer = false ∧
      (Instr.bogBadOp (.port .spi) 7, Level.engineer) ∈ bogOps (.port .spi) 0 0 7) ∧
    (let s := archive fun b => { b with cmdBusy := true }
     Reaches .sup .store s ∧ may s.dev .sup .observe = true ∧ s.dev.bog.cmdBusy = true) ∧
    (let s := archive id
     Reaches .sup .store s ∧ may s.dev .sup .engineer = true ∧ s.dev.bog.cmdBusy = false ∧ s.dev.bog.op = none ∧
      s.dev.bog.state = .ready ∧ logWaiting s.nv s.dev = [] ∧ bogTotal s.dev.bog ≤ (4096 : BitVec 24).toNat ∧
      (4095 : BitVec 24).toNat < bogTotal s.dev.bog ∧ 31 < (32 : BitVec 24).toNat ∧ (31 : BitVec 24).toNat ≤ 31 ∧
      ¬ (1 ≤ (6 : BitVec 3).toNat ∧ (6 : BitVec 3).toNat ≤ 5) ∧ supRunning s.tm s.dev = true) ∧
    (let s := archive fun b => { b with state := .foreign }
     s.dev.bog.state = .foreign ∧ s.dev.bog.state ≠ .ready) ∧
    (let s := archive fun b => { b with state := .absent }
     s.dev.bog.state ≠ .ready ∧ s.dev.bog.state ≠ .foreign) ∧
    (let s := (archive fun b => { b with oldest := some 0, flush := 1, buffer := [List.replicate 32 0] }).onDev fun d =>
        { d with er := { d.er with bogOnly := true } }
     s.dev.bog.state = .ready ∧ s.dev.bog.op = none ∧ supRunning s.tm s.dev = true ∧ s.dev.bog.oldest = some 0 ∧
      0 + flushOf s.dev.bog * 800000000 ≤ s.tm.time.toNat ∧ logWaiting s.nv s.dev ≠ []) ∧
    (let s := archive fun b => { b with op := some .readBlock }
     supRunning s.tm s.dev = true ∧ s.dev.bog.op = some .readBlock) ∧
    (let s := archive fun b => { b with op := some .format }
     supRunning s.tm s.dev = true ∧ s.dev.bog.op = some .format) ∧
    (let s := archive fun b => { b with op := some (.discover .absent) }
     supRunning s.tm s.dev = true ∧ s.dev.bog.op = some (.discover .absent)) := by
  unfold Reaches
  refine ⟨?_, ?_, ?_, ?_, ?_, ?_, ?_, ?_, ?_⟩ <;> decide +kernel

/-- The capture buffer changed. -/
def capture (f : Capture → Capture) : State := up.onDev fun d => { d with cap := f d.cap }

theorem witness_CaptureWorks :
    (let s := capture fun c => { c with state := .stopped, copying := false }
     Reaches .sup .store s ∧ may s.dev .sup .engineer = true ∧ s.dev.cap.state = .stopped ∧ s.dev.cap.copying = false) ∧
    (capture fun c => { c with state := .armed }).dev.cap.state = .armed ∧
    (capture fun c => { c with state := .frozen }).dev.cap.state = .frozen ∧
    (let s := capture fun c => { c with state := .post, postLeft := 2 }
     s.dev.cap.state = .post ∧ 2 ≤ s.dev.cap.postLeft) ∧
    (let s := capture fun c => { c with state := .post, postLeft := 1 }
     s.dev.cap.state = .post ∧ s.dev.cap.postLeft = 1) ∧
    up.dev.bog.op ≠ some .capture ∧
    (let s := (capture fun c => { c with state := .frozen }).onDev fun d => { d with bog := { d.bog with op := some .capture } }
     s.dev.bog.op = some .capture ∧ supRunning s.tm s.dev = true ∧ s.dev.cap.state = .frozen ∧
      s.dev.bog.out.length ≤ s.dev.bog.capBlocks.toNat) := by
  unfold Reaches; decide +kernel

/-! ### Witnesses: the machine as a whole -/

theorem witness_StepRunsFront :
    ({ up with pending := [.tapReset] } : State).pending = .tapReset :: [] ∧
    (State.reset.pending = [] ∧ State.reset.tm.running = false) ∧
    (up.pending = [] ∧ up.tm.running = true ∧ up.dev.fw.hung = none ∧ up.dev.pwr.waking = none ∧ up.tm.lclk = true) ∧
    (let s := inPhase 799 (power fun p => { p with mode := .standby, waking := some 4 })
     s.pending = [] ∧ s.tm.running = true ∧ s.dev.fw.hung = none ∧ s.dev.pwr.waking = some 4 ∧ s.tm.phase.val = 799) ∧
    ({ up.tm with lclk := false } : TimeBase).lclk = false := by decide +kernel

theorem witness_TimeAndMemoryKept : TimeHolds State.reset.tm ∧ MemoryHolds State.reset.nv ∧ step State.reset = .next State.reset :=
  ⟨by unfold TimeHolds; decide +kernel, by unfold MemoryHolds; decide +kernel, rfl⟩

theorem witness_EventsBoundedKept : EventsBounded State.reset.dev ∧ step State.reset = .next State.reset :=
  ⟨by unfold EventsBounded; decide +kernel, rfl⟩

theorem witness_FlashBitsFall : cellsWf up.nv.flash = true ∧ (Instr.chunkProgramComplete true) ≠ .storeRecoveryEnd ∧
    (∀ v, Instr.chunkProgramComplete true ≠ .sectorEraseComplete v) := by
  refine ⟨by decide, by decide, fun v => by intro h; cases h⟩

theorem witness_EnergySideIsolated : energySide (.meas 63 7 0 0 0) = true := by decide

theorem witness_KeysHidden :
    let s := challenged (bankFill 8 0)
    ∀ k, (bankGet (bankFill 5 (some (⟨1, List.replicate 32 9⟩ : KeySlot))) k).map (·.gen) = (bankGet s.dev.sg.keys k).map (·.gen) := by
  decide +kernel

/-! ### Worked examples of the spec -/

/-- Header and response check values (12_host_port.md, "reading rail 1's state"). -/
theorem test_crc8_header : crc8 [0x01, 0x40, 0x20, 0x01] = 0x39 := by decide +kernel
theorem test_crc8_response : crc8 [0x01, 0x40, 0x20, 0x01, 0x00, 0x18, 0x08, 0x04, 0x00] = 0xFF := by decide +kernel

/-- Identifiers of door unit 11's frames (10_partner_bus.md). -/
theorem test_id_join : frameId 5 0x01 0 (11 * 2) = 0x14200016 := by decide +kernel
theorem test_id_joinAck : handleId up.dev .joinAck 11 = 0x08401600 := by decide +kernel
theorem test_id_grant : handleId up.dev .grant 11 = 0x05601600 := by decide +kernel

/-- The payload of its GRANT. -/
theorem test_grant_bytes : grantBytes 0x21 0x25 1 4020000 4920000 =
    [0x21, 0x25, 0x01, 0, 0, 0x3D, 0x57, 0x20, 0, 0x4B, 0x12, 0xC0] := by decide +kernel

/-- The outer evaluation of rail 0 at Kelderbank (06_loop_engine.md). -/
theorem test_outer_evaluation :
    let c : Bank 8 Coef := bankOf fun i => bankGet (bankOf fun (k : Fin 8) =>
      if k = 0 then ⟨0x5199999A, 0xFD⟩ else if k = 1 then ⟨0xB0000000, 0xFD⟩ else if k = 4 then ⟨0x60000000, 0x01⟩
      else if k = 5 then ⟨0xC0000000, 0⟩ else ⟨0, 0⟩) i
    (limitOut (outerTerms false c (outerError 550000 549500) 819200 0 0 10240000 10112000 0) false ⟨0, 0⟩ 0 0 17920000).out =
      10321600 := by decide +kernel

/-- The inner evaluation of phase 0.0 there: its set-point, its error, its sum and its duty. -/
theorem test_inner_evaluation : shareOf 1 24 = 89478485 ∧ irefOf 10321600 89478485 8000 = 55048533 ∧
    imeasOf (List.replicate 16 3300) = 54067200 ∧
    (macAll [(⟨0x54AC0831, 0x01⟩, 981333), (⟨0xAF5C28F6, 0x01⟩, 1000000), (⟨0x40000000, 0x01⟩, 363429888)]).1 + 2 ^ 31
      ≥ 363468192 * 2 ^ 32 ∧ dutyOf 363468192 = 11092 := by decide +kernel

/-- Door 3 opening (07_feedforward_autotune.md): the acceleration share, its term, and the input-voltage term. -/
theorem test_acceleration_term : xaccOf 6000 89478485 = 4096000 ∧ ffTerm true ⟨0x50A3D70A, 0x01⟩ 4096000 = 5160960 ∧
    dutyOf (363468192 + 5160960) = 11250 ∧ ffTerm true ⟨0x51EB851F, 0xFA⟩ (812500 * 2048) = 16640000 := by decide +kernel

/-- The preset duty of a pre-biased segment (08_rails.md). -/
theorem test_preset_duty : presetDuty 310000 812500 0x4000 0 64225 = 6251 := by decide +kernel

/-- Widths of a normal and of a stretched period (05_timebase_interleave.md). -/
theorem test_pulse_width : pulseWidth 11091 3200 3200 40 = 17330 ∧ pulseWidth 11091 3327 3200 40 = 18017 := by decide +kernel

/-- Kelderbank's engine load (03_structure_image.md): eight rails of 24 phases, and rail 8 of 48. -/
theorem test_engine_load :
    let p : Bank 8 Nat := bankOf fun g => if g = 1 then 6400 else 3200
    let a : RailSect := { strapRail 0 with phases := List.replicate 24 0, nestN := 4, ffAcc := true, ffVin := true }
    let b : RailSect := { strapRail 0 with phases := List.replicate 48 0, nestN := 2, fgroup := 1, template := true, ffVin := true }
    railLoad p a = 48500000 ∧ railLoad p b = 42625000 ∧ loadUnits (8 * 48500000 + 42625000) = 1346 := by decide +kernel

/-- A SAMPLE_CMP period (04_phase_lanes.md). -/
theorem test_compressed_period : cmpSamples 0xc813d24cbdb6d35d76d7d20ce80 =
    [800, 830, 866, 904, 926, 906, 886, 862, 840, 818, 798, 776, 770, 786, 810, 798] := by decide +kernel

/-- Sample 3 of it in milliamperes. -/
theorem test_sample_current :
    sampleMa { Slot.reset with iofs := 3, igain := 0x4000, rep := { Slot.reset.rep with iscale := 5000 } } 904 = 4505 := by decide +kernel

/-- The Kelderbank peripheral bus in Fast-mode (13_two_wire_port.md): the values stand in the ranges of the mode. -/
theorem test_twoWire_timing :
    let t := writeTiming true 0x1080A (writeTiming false 0x000F0029 { TwoWire.reset with speed := 1 })
    t.tlow = 41 ∧ t.thigh = 15 ∧ t.tsudat = 10 ∧ t.thddat = 8 ∧ t.speed = 1 := by decide +kernel

/-- The ball map's count of each supply, and the balls of lanes 37 and 20 (17_electrical_package.md). -/
theorem test_lane_balls : [ballAt 30 18, ballAt 29 18, ballAt 27 18, ballAt 26 18] =
      [.signal (.ltxp 37), .signal (.ltxm 37), .signal (.lrxp 37), .signal (.lrxm 37)] ∧
    [ballAt 12 30, ballAt 12 29, ballAt 12 27, ballAt 12 26] =
      [.signal (.ltxp 20), .signal (.ltxm 20), .signal (.lrxp 20), .signal (.lrxm 20)] := by decide +kernel
theorem test_ball_counts : [Ball.vddCore, .vddLane, .vddPll, .vddIo, .vss].map (fun b => allBalls.countP (· = b)) =
    [128, 60, 4, 67, 319] := by decide +kernel

/-- The device's power at Kelderbank with 30 lanes UP and LOAD 1,346, in µW. -/
theorem test_power :
    let d := up.onDev fun d => { d with
      lanes := bankMap d.lanes fun n l => { l with state := if n.val < 30 then .up else .unused }
      img := { d.img with loadRun := 1346 } }
    powerMicrowatts false d.dev = 3435170 ∧ powerMicrowatts true d.dev = 5022090 := by decide +kernel

/-- IDCODE and SYS.ID (R447, Table 12-9). -/
theorem test_idcode : tapIdcode = 0x1512046B := by decide +kernel
theorem test_sys_id : readWord State.reset 0 = some 0x01B15120 := by decide +kernel

end Sys2Proof.Tests
end

section
/-! SUPPORT. No command touches the queue of the commands that wait (R14): every operation on the state leaves it as it is, and
so does every command. -/

namespace Sys2Proof.Machine

/-! ### Resets, start-up and power -/

@[simp] theorem resetState_pending (kind : ResetKind) (s : State) : (resetState kind s).pending = s.pending := rfl
@[simp] theorem resumeNow_pending (cause : Nat) (s : State) : (resumeNow cause s).pending = s.pending := rfl

theorem clockLost_pending (s : State) : (clockLost s).pending = s.pending := by
  unfold clockLost; split <;> rfl

theorem ramFails_pending (blk : RamBlock) (correctable : Bool) (s : State) :
    (ramFails blk correctable s).pending = s.pending := by
  cases correctable <;> cases blk <;> rfl

theorem wipeEnds_pending (s : State) : (wipeEnds s).pending = s.pending := by
  unfold wipeEnds; split_ifs <;> rfl

theorem pllLocks_pending (s : State) : (pllLocks s).pending = s.pending := by
  unfold pllLocks; dsimp only; split_ifs <;> rfl

theorem portsStart_pending (s t : State) : (portsStart s t).pending = t.pending := by
  unfold portsStart; split <;> rfl

theorem recoveryEnds_pending (s : State) : (recoveryEnds s).pending = s.pending := by
  unfold recoveryEnds; split <;> rfl

theorem pfailFalls_pending (s : State) : (pfailFalls s).pending = s.pending := by
  unfold pfailFalls; split <;> rfl

theorem pfailRises_pending (s : State) : (pfailRises s).pending = s.pending := by
  unfold pfailRises; split <;> rfl

theorem pfailOver_pending (s : State) : (pfailOver s).pending = s.pending := by
  unfold pfailOver; split <;> rfl

theorem debugReset_pending (s : State) : (debugReset s).pending = s.pending := by
  unfold debugReset; split <;> rfl

@[simp] theorem enterStandby_pending (s : State) : (enterStandby s).pending = s.pending := by
  unfold enterStandby
  split
  · rfl
  · split <;> rfl

@[simp] theorem wakeDevice_pending (cause : Nat) (s : State) : (wakeDevice cause s).pending = s.pending := by
  unfold wakeDevice; split_ifs <;> rfl

theorem wake_pending (c : WakeCause) (s : State) : (wake c s).pending = s.pending := by
  unfold wake; split <;> simp

theorem wakeHot_pending (was : Device) (s : State) : (wakeHot was s).pending = s.pending := by
  unfold wakeHot; split_ifs <;> simp

@[simp] theorem enterRun_pending (s : State) : (enterRun s).pending = s.pending := by
  unfold enterRun; split <;> simp

@[simp] theorem powerCommand_pending (src : Src) (least : Level) {f : State → State} (hf : ∀ s, (f s).pending = s.pending)
    (s : State) : (powerCommand src least f s).pending = s.pending := by
  unfold powerCommand; split_ifs <;> simp [hf]

/-! ### What a write of a word does: the shapes of Acts.lean -/

/-- The write of a word leaves the queue of the commands that wait as it is. -/
structure WriteKeepsQueue (f : WordWrite) : Prop where
  /-- The queue after the write. -/
  kept (s : State) : (f s).2.pending = s.pending

namespace WriteKeepsQueue

theorem denied : WriteKeepsQueue writeDenied := ⟨fun _ => rfl⟩

theorem state {ok : Device → Bool} {f : State → State} (hf : ∀ s, (f s).pending = s.pending) :
    WriteKeepsQueue (writeState ok f) where
  kept s := by
    unfold writeState
    split
    · exact hf s
    · rfl

theorem fields {ok : Device → Bool} {f : Device → Device} : WriteKeepsQueue (writeFields ok f) :=
  state fun s => State.onDev_pending s f

/-- As most writes do: the write takes effect on the device alone. -/
theorem device {ok : Device → Bool} {f : State → Device → Device} : WriteKeepsQueue (writeState ok fun s => s.onDev (f s)) :=
  state fun s => State.onDev_pending s (f s)

theorem nothing {src : Src} : WriteKeepsQueue (writeNothing src) := fields

theorem command {ok : Device → Bool} {f : State → State} (hf : ∀ s, (f s).pending = s.pending) :
    WriteKeepsQueue (writeCommand ok f) := ⟨hf⟩

theorem command_device {ok : Device → Bool} {f : State → Device → Device} :
    WriteKeepsQueue (writeCommand ok fun s => s.onDev (f s)) := command fun s => State.onDev_pending s (f s)

theorem both {f g : WordWrite} (hf : WriteKeepsQueue f) (hg : WriteKeepsQueue g) : WriteKeepsQueue (writeBoth f g) :=
  ⟨fun s => (hg.kept (f s).2).trans (hf.kept s)⟩

theorem ite {c : Prop} {_ : Decidable c} {f g : WordWrite} (hf : WriteKeepsQueue f) (hg : WriteKeepsQueue g) :
    WriteKeepsQueue (if c then f else g) := by
  split
  · exact hf
  · exact hg

theorem asked {b : Bool} {f : WordWrite} (hf : WriteKeepsQueue f) : WriteKeepsQueue (writeIf b f) := ite hf ⟨fun _ => rfl⟩

end WriteKeepsQueue

theorem onStores_pending (f : NonVol × Device → NonVol × Device) (s : State) : (onStores f s).pending = s.pending := rfl

theorem erCommand_pending (src : Src) (least : Level) {f : State → State} (hf : ∀ s, (f s).pending = s.pending)
    (s : State) : (erCommand src least f s).pending = s.pending := by
  unfold erCommand; dsimp only; split_ifs <;> simp [hf]

/-! ### ABORT -/

theorem abortOne_pending (f : AbortFunc) (sda : Bool × Option (Fin 9)) (s : State) : (abortOne f sda s).1.pending = s.pending := by
  cases f <;> rfl

theorem abortAll_pending (sda : Bool × Option (Fin 9)) (s : State) : (abortAll sda s).1.pending = s.pending := by
  unfold abortAll
  generalize globalFuncs = fs
  refine List.foldlRecOn (motive := fun x : State × AbortResult × List (Byte × Byte) => x.1.pending = s.pending) fs _ rfl
    fun x hx f _ => ?_
  dsimp only
  split <;> exact (abortOne_pending f sda x.1).trans hx

theorem abortCommand_pending (p : Port) (func index : Byte) (sda : Bool × Option (Fin 9)) (s : State) :
    (abortCommand p func index sda s).2.pending = s.pending := by
  unfold abortCommand
  dsimp only
  split_ifs
  · rfl
  · rfl
  · rfl
  · split <;> simp [abortAll_pending]
  · split <;> simp [abortOne_pending]

theorem abortBlind_pending (p : Port) (func index : Byte) (s : State) :
    (abortBlind p func index s).2.pending = s.pending := abortCommand_pending p func index _ _

theorem abortWrite_pending (p : Port) (func index : Byte) (sda : Option (Bool × Option (Fin 9))) (s : State) :
    (abortWrite p func index sda s).2.pending = s.pending := by
  cases sda with
  | none => exact abortBlind_pending p func index s
  | some x => exact abortCommand_pending p func index x s

/-! ### What a write of a word does, window by window (R319) -/

namespace WriteKeepsQueue

theorem power {src : Src} {ok : Device → Bool} {least : Level} {f : State → State} (hf : ∀ s, (f s).pending = s.pending) :
    WriteKeepsQueue (writeCommand ok (powerCommand src least f)) := command (powerCommand_pending src least hf)

theorem recorder {src : Src} {ok : Device → Bool} {least : Level} {f : State → State} (hf : ∀ s, (f s).pending = s.pending) :
    WriteKeepsQueue (writeCommand ok (erCommand src least f)) := command (erCommand_pending src least hf)

theorem sys (src : Src) (a : Nat) (w : Word) : WriteKeepsQueue (writeSys src a w) :=
  .ite .fields <| .ite (.ite .fields <| .ite (.state (resetState_pending _)) <| .ite .fields <| .ite .device .fields) .nothing

theorem clk (src : Src) (a : Nat) (w : Word) : WriteKeepsQueue (writeClk src a w) :=
  .ite (.both (.ite (.power enterRun_pending) <| .ite (.power fun _ => rfl) <| .ite (.power enterStandby_pending) .nothing)
    (.ite (.power fun _ => rfl) <| .ite (.power fun _ => rfl) .nothing)) <|
  .ite .fields .nothing

theorem session {src : Src} {p : Port} {f : TimeBase → NonVol → Device → Device} : WriteKeepsQueue (actSession src p f) :=
  device

theorem portRegs (src : Src) (p : Port) (off : Nat) (w : Word) : WriteKeepsQueue (writePortRegs src p off w) :=
  .ite .denied <|
  .ite (.ite session <| .ite session <| .ite session .fields) <|
  .ite .fields <| .ite .fields .fields

theorem life (src : Src) (n : Nat) : WriteKeepsQueue (writeLife src n) :=
  have change (new : LifeCycle) : WriteKeepsQueue (actLife src new) := .command_device
  .ite .nothing <| .ite (change _) <| .ite (change _) <| .ite (change _) <| .ite (change _) <| .ite (change _) <|
  .ite (change _) .fields

theorem guard (src : Src) (a : Nat) (w : Word) : WriteKeepsQueue (writeGuard src a w) :=
  .ite (portRegs ..) <| .ite (portRegs ..) <| .ite (portRegs ..) <| .ite (life ..) <| .ite .command_device <|
  .ite .fields <| .ite .fields <| .ite .fields <| .ite .fields .nothing

theorem firmware {src : Src} {f : TimeBase → NonVol × Device → NonVol × Device} : WriteKeepsQueue (actFw src f) :=
  command fun _ => rfl

theorem fw (src : Src) (a : Nat) (w : Word) : WriteKeepsQueue (writeFw src a w) :=
  .ite (.ite firmware <| .ite firmware <| .ite firmware <| .ite firmware <| .ite firmware firmware) <|
  .ite .fields <| .ite (.state (onStores_pending _)) <| .ite .fields .nothing

theorem hsp (src : Src) (a : Nat) (w : Word) : WriteKeepsQueue (writeHsp src a w) :=
  .ite .fields <| .ite .fields <| .ite .fields <|
  .ite (match src with
    | .port p => ⟨abortBlind_pending p _ _⟩
    | .sup => ⟨fun _ => rfl⟩) .nothing

theorem img (src : Src) (a : Nat) (w : Word) : WriteKeepsQueue (writeImg src a w) :=
  have command (f : TimeBase → NonVol → Device → Device) : WriteKeepsQueue (actImg src f) := .command_device
  .ite (.ite (command _) <| .ite (command _) <| .ite (command _) <| .ite (command _) <| .ite (command _) <|
    .ite (command _) (command _)) <|
  .ite .fields <| .ite .device .nothing

theorem lane (src : Src) (n : Fin 64) (off : Nat) (w : Word) : WriteKeepsQueue (writeLane src n off w) :=
  .ite (.both ⟨fun s => fields.kept s⟩ (.asked .device)) <| .ite .fields <| .ite .fields .fields

theorem slot (src : Src) (g : Fin 512) (off : Nat) (w : Word) : WriteKeepsQueue (writeSlot src g off w) :=
  .ite .fields <| .ite .fields <|
  .ite (.ite .fields <| .ite .fields <| .ite .device <| .ite .device <| .ite .fields <|
    .ite .fields .fields) .fields

theorem tbi (src : Src) (a : Nat) (w : Word) : WriteKeepsQueue (writeTbi src a w) := by
  refine .ite .fields <| .ite .fields ?_
  split
  · exact .fields
  · split
    · exact .fields
    · exact .fields

theorem railCmd (src : Src) (r : Fin 64) (n : Nat) : WriteKeepsQueue (writeRailCmd src r n) :=
  have command (ok : Device → Bool) (least : Level) (pos : Nat) (f : TimeBase → Device → Device) :
    WriteKeepsQueue (actRail src ok least r pos f) := .command_device
  .ite (command ..) <| .ite (command ..) <| .ite (command ..) <| .ite (command ..) <| .ite (command ..) <|
  .ite (command ..) <| .ite (command ..) <| .ite (command ..) (command ..)

theorem rail (src : Src) (r : Fin 64) (off : Nat) (w : Word) : WriteKeepsQueue (writeRail src r off w) := by
  refine .ite (railCmd ..) <| .ite .fields <| .ite .fields <| .ite .fields <| .ite .fields <| .ite .fields <| .ite .fields <|
    .ite .fields <| .ite .fields <| .ite .fields <| .ite .fields <| .ite .fields ?_
  split
  · exact .fields
  · exact .fields

theorem loop (src : Src) (r : Fin 64) (off : Nat) (low : Option Word) (w : Word) :
    WriteKeepsQueue (writeLoop src r off low w) :=
  .ite (.both .fields (.asked .fields)) <| .ite .fields <| .ite .fields <|
  .ite (.ite ⟨fun s => fields.kept s⟩ .fields) .fields

theorem engine (src : Src) (a : Nat) (w : Word) : WriteKeepsQueue (writeEngine src a w) := by
  refine .ite (.ite .fields .fields) <| .ite .fields <| .ite .fields ?_
  split
  · exact .ite .fields <| .ite .fields <| .ite .fields .fields
  · exact .fields

theorem tune (src : Src) (a : Nat) (w : Word) : WriteKeepsQueue (writeTune src a w) :=
  .ite (.ite .command_device <| .ite .device .fields) <|
  .ite .fields <| .ite .fields <| .ite .fields .fields

theorem hearth (src : Src) (a : Nat) (w : Word) : WriteKeepsQueue (writeHearth src a w) := by
  refine ⟨fun s => ?_⟩
  unfold writeHearth
  dsimp only
  generalize s.dev.hs.planStart = start
  exact kept (.ite .fields <| .ite .fields <| .ite .fields <| .ite .fields <| .ite .fields <| .ite .fields <|
  .ite (.ite .denied <| .ite .fields <|
    .ite (.ite .device <| .ite .device <| .ite .device .nothing) <|
    .ite .device .nothing) <|
  .ite .fields .fields) s

theorem partner (src : Src) (h : Fin 256) (off : Nat) (w : Word) : WriteKeepsQueue (writePartner src h off w) :=
  .ite .device .fields

theorem ports (src : Src) (a : Nat) (w : Word) : WriteKeepsQueue (writePorts src a w) := by
  refine .ite .fields <| .ite .fields <| .ite .fields <| .ite .fields ?_
  split
  · exact .ite .fields <| .ite .fields <| .ite .fields <| .ite .fields .fields
  · exact .fields

theorem protect (src : Src) (a : Nat) (w : Word) : WriteKeepsQueue (writeProtect src a w) := by
  refine .ite .fields <| .ite .fields <| .ite .fields <| .ite .fields <| .ite (.ite .fields .fields) ?_
  split
  · exact .fields
  · exact .fields

theorem housekeeping (src : Src) (a : Nat) (w : Word) : WriteKeepsQueue (writeHousekeeping src a w) := by
  refine .ite .fields <| .ite .fields <| .ite .fields <| .ite .fields ?_
  split
  · exact .ite .fields <| .ite .fields .fields
  · exact .fields

theorem store (src : Src) (a : Nat) (w : Word) : WriteKeepsQueue (writeStore src a w) := by
  refine .ite (.ite .command_device <| .ite .command_device <| .ite .command_device
    .command_device) <| .ite .fields <| .ite .fields ?_
  split
  · exact .fields
  · exact .fields

theorem recorderWindow (src : Src) (a : Nat) (low : Option Word) (w : Word) : WriteKeepsQueue (writeRecorder src a low w) :=
  .ite .fields <| .ite .fields <|
  .ite (.ite (.recorder fun _ => rfl) <| .ite (.recorder fun _ => rfl) <| .ite (.recorder fun _ => rfl) .fields) <|
  .ite .fields <| .ite .fields <| .ite .fields .fields

theorem bog (src : Src) (a : Nat) (w : Word) : WriteKeepsQueue (writeBog src a w) := by
  have command (least : Level) (f : TimeBase → NonVol → Device → Device) : WriteKeepsQueue (actBog src least f) :=
    .command_device
  refine .ite (.ite (command ..) <| .ite (command ..) <| .ite (command ..) <| .ite (command ..) <| .ite (command ..)
    (command ..)) <| .ite .fields <| .ite .fields <| .ite .fields <|
    .ite (.both .fields (.ite .fields <| .ite .fields <| .ite .device .nothing)) <|
    .ite .fields <| .ite .fields ?_
  split
  · exact .fields
  · exact .fields

theorem twp (src : Src) (a : Nat) (w : Word) : WriteKeepsQueue (writeTwp src a w) :=
  .ite .fields <| .ite .fields <| .ite .fields <| .ite .fields <|
  .ite (.ite ⟨fun s => device.kept { s with dev := (drawSda s.dev).2 }⟩ <| .ite .fields .fields) <|
  .ite .fields <| .ite .fields <| .ite .fields <| .ite .fields .fields

/-- The map (R319): a write of any word leaves the queue as it is. -/
theorem word (src : Src) (a : Nat) (low : Option Word) (w : Word) : WriteKeepsQueue (writeWord src a low w) :=
  .ite (sys ..) <| .ite (clk ..) <| .ite (guard ..) <| .ite (fw ..) <| .ite (hsp ..) <| .ite (img ..) <| .ite (lane ..) <|
  .ite .fields <| .ite (slot ..) <| .ite (tbi ..) <| .ite (rail ..) <| .ite .fields <| .ite (loop ..) <| .ite (engine ..) <|
  .ite (tune ..) <| .ite (hearth ..) <| .ite (partner ..) <| .ite (ports ..) <| .ite (protect ..) <|
  .ite (housekeeping ..) <| .ite (store ..) <| .ite (recorderWindow ..) <| .ite (bog ..) (twp ..)

end WriteKeepsQueue

/-! ### Accesses of the ports and of the supervisor -/

theorem rowHangs_pending (src : Src) (a : Addr) (w : Word) (s : State) : (rowHangs src a w s).pending = s.pending := by
  cases src <;> rfl

/-- A write that is a command with a row of its own keeps the queue, as what it does at its register does. -/
theorem rowWrite_pending {f : WordWrite} (hf : WriteKeepsQueue f) (src : Src) (a : Addr) (w : Word) (win : Window) (s : State) :
    (rowWrite src a w win f s).pending = s.pending := by
  unfold rowWrite
  split_ifs
  · cases src <;> simp
  · simp
  · exact rowHangs_pending src a w s
  · simp [hf.kept]

theorem rowResets_pending {f : WordWrite} (hf : WriteKeepsQueue f) (src : Src) (a : Addr) (s : State) :
    (rowResets src a f s).pending = s.pending := by
  unfold rowResets
  dsimp only
  split_ifs
  · cases src <;> simp
  · simp [hf.kept]
  · simp [hf.kept]

theorem supWrite_pending (a : Addr) (w : Word) (s : State) : (supWrite a w s).pending = s.pending := by
  unfold supWrite
  split_ifs
  · rfl
  · exact rowHangs_pending .sup a w s
  · simp [(WriteKeepsQueue.word ..).kept]

theorem writePaired_pending (p : Port) (a : Addr) (w : Word) (hold : Hold) (s : State) :
    (writePaired p a w hold s).2.pending = s.pending := by
  unfold writePaired
  dsimp only
  split_ifs <;> simp [(WriteKeepsQueue.word ..).kept]

theorem debugWindow_pending (a : Nat) (w : Option Word) (s : State) : (debugWindow a w s).2.2.pending = s.pending := by
  cases w <;> rfl

theorem definedWord_pending (p : Port) (a : Addr) (w : Option Word) (holds : PortState) (s : State) :
    (definedWord p a w holds s).2.2.pending = s.pending := by
  unfold definedWord
  cases w with
  | none => dsimp only; split <;> rfl
  | some w => exact writePaired_pending p a w holds.writeHold s

theorem throughWindow_pending {win : Window} {f : State → Word × Byte × State} (hf : ∀ s, (f s).2.2.pending = s.pending)
    {s : State} {x : Word × Byte × State} (h : throughWindow win f s = some x) : x.2.2.pending = s.pending := by
  unfold throughWindow at h
  split_ifs at h <;> obtain rfl := Option.some.inj h
  · rfl
  · exact hf s

theorem accessWord_pending {p : Port} {a : Addr} {w : Option Word} {s : State} {x : Word × Byte × State}
    (h : accessWord p a w s = some x) : x.2.2.pending = s.pending := by
  unfold accessWord at h
  dsimp only at h
  rw [← State.onDev_pending s fun d => touch s.tm (.port p) (settleAlert d)]
  split_ifs at h
  · exact throughWindow_pending (debugWindow_pending _ w) h
  · exact throughWindow_pending (fun _ => rfl) h
  · obtain rfl := Option.some.inj h
    rfl
  · exact throughWindow_pending (definedWord_pending p a w _) h

theorem runWords_pending (p : Port) (todo : List (Addr × Option Word)) (acc : PendingAccess) (s : State) :
    (runWords p todo acc s).2.pending = s.pending := by
  induction todo generalizing acc s with
  | nil => rfl
  | cons x rest ih =>
    obtain ⟨a, w⟩ := x
    unfold runWords
    split
    · rfl
    · split
      · rfl
      · next h => rw [ih]; exact accessWord_pending h

theorem runAccess_pending (p : Port) (acc : PendingAccess) (s : State) : (runAccess p acc s).pending = s.pending := by
  unfold runAccess
  dsimp only
  split_ifs <;> simp [runWords_pending]

theorem startAccess_pending (p : Port) (write : Bool) (todo : List (Addr × Option Word)) (header : List Byte) (s : State) :
    (startAccess p write todo header s).pending = s.pending := runAccess_pending p _ s

theorem singleAccess_pending (p : Port) (a : Addr) (w : Option Word) (s : State) :
    (singleAccess p a w s).pending = s.pending := by
  unfold singleAccess
  split
  · rfl
  · exact startAccess_pending p _ _ _ _

theorem withLevel_pending (p : Port) (rank : Nat) {f : State → State} (hf : ∀ s, (f s).pending = s.pending) (s : State) :
    (withLevel p rank f s).pending = s.pending := by
  unfold withLevel
  dsimp only
  split_ifs <;> simp [hf]

theorem resumeAccess_pending (p : Port) (s : State) : (resumeAccess p s).pending = s.pending := by
  unfold resumeAccess
  split
  · rfl
  · exact withLevel_pending p _ (runAccess_pending p _) s

theorem portTimesOut_pending (p : Port) (s : State) : (portTimesOut p s).pending = s.pending := by
  unfold portTimesOut
  split
  · rfl
  · split
    · rfl
    · split
      · rfl
      · exact withLevel_pending p _ (runAccess_pending p _) _

theorem supTimesOut_pending (s : State) : (supTimesOut s).pending = s.pending := by
  unfold supTimesOut
  split
  · rfl
  · split <;> rfl

/-! ### Frames, ABORT, the two-wire target and the debug port -/

theorem makeAccess_pending (acc : HostAccess) (s : State) : (makeAccess acc s).pending = s.pending :=
  startAccess_pending .spi _ _ _ _

theorem accessFrame_pending (acc : HostAccess) (hcrc : Byte) (s : State) : (accessFrame acc hcrc s).pending = s.pending := by
  unfold accessFrame
  dsimp only
  split_ifs <;> simp [makeAccess_pending]

theorem cutFrame_pending (stage : CutStage) (s : State) : (cutFrame stage s).pending = s.pending := by
  unfold cutFrame
  split
  · rfl
  · cases stage with
    | beforeHcrc => rfl
    | stalled => rfl
    | afterHcrc acc hcrc => dsimp only; split_ifs <;> simp [makeAccess_pending]

theorem abortFrom_pending (way : AbortWay) (func index : Byte) (sda : Option (Bool × Option (Fin 9))) (s : State) :
    (abortFrom way func index sda s).pending = s.pending := by
  cases way with
  | frame hcrc =>
    unfold abortFrom abortFrame
    dsimp only
    split_ifs <;> simp [abortWrite_pending]
  | write p =>
    unfold abortFrom
    dsimp only
    split
    · exact abortWrite_pending .debug func index sda _
    · exact rowWrite_pending ⟨abortWrite_pending p func index sda⟩ _ _ _ _ s

theorem targetWrite_pending (bytes : List Byte) (stop : Bool) (s : State) : (targetWrite bytes stop s).pending = s.pending := by
  unfold targetWrite commitPage
  dsimp only
  split_ifs
  · rfl
  · rfl
  · rfl
  all_goals
    split
    · split_ifs <;> simp [startAccess_pending]
    · rfl

theorem targetRead_pending (pointer : Option Addr) (data : List Byte) (words : Nat) (s : State) :
    (targetRead pointer data words s).pending = s.pending := by
  unfold targetRead
  dsimp only
  split_ifs
  · rfl
  · rfl
  · split <;> simp [startAccess_pending]

theorem dbgWindow_pending {f : State → State} (hf : ∀ s, (f s).pending = s.pending) (s : State) :
    (dbgWindow f s).pending = s.pending := by
  unfold dbgWindow
  dsimp only
  split_ifs <;> simp [hf]

theorem dbgAccess_pending (op : DbgOp) (s : State) : (dbgAccess op s).pending = s.pending := by
  have full (f : Device → Device) : (dbgWindow (dbgFull f) s).pending = s.pending := 
    dbgWindow_pending (fun t => State.onDev_pending t _) s
  unfold dbgAccess
  split
  · rfl
  · cases op with
    | regRead a => exact singleAccess_pending .debug a none s
    | regWrite a w =>
      dsimp only
      split
      · exact abortWrite_pending .debug _ _ _ _
      · exact singleAccess_pending .debug a (some w) s
    | windowRead a =>
      dsimp only
      exact dbgWindow_pending (fun t => (State.onDev_pending _ _).trans (debugWindow_pending a.toNat none t)) s
    | halt => exact full _
    | step => exact full _
    | resume => exact full _
    | memRead a => exact dbgWindow_pending (fun t => State.onDev_pending t _) s
    | memWrite a w => exact full _

/-! ### Every command -/

/-- Settles O55, command by command: most act on the device and the memories alone; the writes with a row of their own
do so through `rowWrite`. -/
theorem commandsComplete : Obligations.CommandsComplete := by
  intro c s
  cases c
  case registerWrite src a w =>
    cases src
    case port p => exact ⟨_, rfl, singleAccess_pending p a (some w) s⟩
    case sup => exact ⟨_, rfl, supWrite_pending a w s⟩
  case pairLowRead | pairHighRead | pairLowWrite | pairHighWrite =>
    refine ⟨_, rfl, ?_⟩
    split
    · exact singleAccess_pending _ _ _ s
    · rfl
  case busTimeout src =>
    refine ⟨_, rfl, ?_⟩
    cases src
    case port p =>
      dsimp only
      split
      · exact portTimesOut_pending p s
      · rfl
    case sup => exact supTimesOut_pending s
  case stalledAccessComplete p => exact ⟨_, rfl, resumeAccess_pending p s⟩
  case ramError blk correctable => exact ⟨_, rfl, ramFails_pending blk correctable s⟩
  case clockLoss => exact ⟨_, rfl, clockLost_pending s⟩
  case pll0Lock => exact ⟨_, rfl, (portsStart_pending s _).trans (pllLocks_pending s)⟩
  case wipeEnd => exact ⟨_, rfl, (portsStart_pending s _).trans (wipeEnds_pending s)⟩
  case storeRecoveryEnd => exact ⟨_, rfl, recoveryEnds_pending s⟩
  case pfailFall => exact ⟨_, rfl, pfailFalls_pending s⟩
  case pfailNRise => exact ⟨_, rfl, pfailRises_pending s⟩
  case pfailRecovered => exact ⟨_, rfl, pfailOver_pending s⟩
  case debugReset => exact ⟨_, rfl, debugReset_pending s⟩
  case wake cause => exact ⟨_, rfl, wake_pending cause s⟩
  case housekeepingRoundEnd | dieSample => exact ⟨_, rfl, wakeHot_pending s.dev _⟩
  case hostRead | hostWrite => exact ⟨_, rfl, accessFrame_pending _ _ s⟩
  case frameCutOff stage => exact ⟨_, rfl, cutFrame_pending stage s⟩
  case abortAutotune | abortRailApply | abortStoreOperation | abortBogTransfer | abortTwoWire | abortLaneTraining | abortSession
    | abortPendingAccess | abortGlobal => exact ⟨_, rfl, abortFrom_pending _ _ _ _ s⟩
  case badFunc =>
    refine ⟨_, rfl, ?_⟩
    split
    · rfl
    · exact abortFrom_pending _ _ _ _ s
  case twpTargetWrite write => exact ⟨_, rfl, targetWrite_pending write.bytes write.stop s⟩
  case twpTargetRead pointer words =>
    refine ⟨_, rfl, ?_⟩
    cases pointer <;> exact targetRead_pending _ _ _ s
  case dbgAccess op => exact ⟨_, rfl, dbgAccess_pending op s⟩
  case resetCtrlWarm src => exact ⟨_, rfl, rowResets_pending (.state (resetState_pending _)) src _ s⟩
  case openSession | prove | close => exact ⟨_, rfl, rowWrite_pending .session _ _ _ _ s⟩
  case pwrRun => exact ⟨_, rfl, rowWrite_pending (.power enterRun_pending) _ _ _ _ s⟩
  case pwrStandby => exact ⟨_, rfl, rowWrite_pending (.power enterStandby_pending) _ _ _ _ s⟩
  case pwrTrim | qopSmoulder | qopQrun =>
    exact ⟨_, rfl, rowWrite_pending (.power fun t => State.onDev_pending t _) _ _ _ _ s⟩
  case fwDataWrite => exact ⟨_, rfl, rowWrite_pending (.state (onStores_pending _)) _ _ _ _ s⟩
  case fwErase | fwSeal | switch | fwConfirm | fwRollback => exact ⟨_, rfl, rowWrite_pending .firmware _ _ _ _ s⟩
  case timeSet => exact ⟨_, rfl, rowWrite_pending (f := actTimeSet _) (.recorder fun _ => rfl) _ _ _ _ s⟩
  case erClear | select => exact ⟨_, rfl, rowWrite_pending (.recorder fun t => State.onDev_pending t _) _ _ _ _ s⟩
  case fwBadOp =>
    refine ⟨_, rfl, ?_⟩
    split
    · rfl
    · exact rowWrite_pending .firmware _ _ _ _ s
  case imgBadOp | railBadOp | ocsBadOp | bogBadOp =>
    refine ⟨_, rfl, ?_⟩
    split
    · rfl
    · exact rowWrite_pending .command_device _ _ _ _ s
  case resetCtrlSupervisor | resetCtrlQuadrant | imgDataWrite | laneRetrain | laneDisable | slotAdmit | refuse | recal | calSave
    | identifyOn | identifyOff | slotCalWrite | baseSet | vsetWrite | vnextWrite | windowWrite | trippedClear | loopClear
    | leClear | atStop | heartbeat | plan | invalidate | squash | evict | restart | bitTimingWrite | latchClear | firstClr
    | captureArm | captureStop | trigger | recover | pollNow | twpTimingWrite =>
    exact ⟨_, rfl, rowWrite_pending .device _ _ _ _ s⟩
  case imgErase | imgSeal | liveOpen | apply | imgConfirm | imgRollback | arm | disarm | start | stop | softstop | clear | retire
    | restore | atStart | keyCmd | lcCommission | lcService | lcMaintain | lcRetired | lcReturn | userRead | userWrite | protect
    | discover | detach | format | readBlock | readCapbuf =>
    exact ⟨_, rfl, rowWrite_pending .command_device _ _ _ _ s⟩
  case supplyTrip | rstNLow => exact ⟨_, rfl, resetState_pending _ _⟩
  case watchdogExpiry | fwTrialTimeout | codeFlashOperationEnd | chunkProgramComplete | sectorEraseComplete =>
    exact ⟨_, rfl, rfl⟩
  all_goals exact ⟨_, rfl, State.onDev_pending s _⟩

end Sys2Proof.Machine
end

section
/-! SUPPORT. Accesses of the ports (R6 to R9, R45, R48, R317): where a word is defined, what an access changes beside the effect of
its word, and how an access of one word ends, from its port or out of a frame of the host. -/

namespace Sys2Proof.Machine

/-! ### Whether a word is there (R8) -/

theorem readPort_isSome (tm tm' : TimeBase) (x x' : Session) (a : Nat) :
    (readPort tm x a).isSome = (readPort tm' x' a).isSome := by
  simp only [readPort, apply_ite Option.isSome, Option.isSome_some, Option.isSome_none]

theorem readGuard_isSome (tm tm' : TimeBase) (d d' : Device) (a : Nat) :
    (readGuard tm d a).isSome = (readGuard tm' d' a).isSome := by
  unfold readGuard
  cases within a 0x267 5 <;>
    simp only [apply_ite Option.isSome, Option.isSome_some, Option.isSome_none,
      readPort_isSome tm tm' (bankGet d.sg.ports (Fin.ofNat 3 ((a - 0x200) / 32)))
        (bankGet d'.sg.ports (Fin.ofNat 3 ((a - 0x200) / 32)))]

theorem readImg_isSome (d d' : Device) (a : Nat) :
    (readImg d a).isSome = (readImg d' a).isSome := by
  unfold readImg
  cases within a 0x840 64 <;>
    simp only [apply_ite Option.isSome, Option.isSome_some, Option.isSome_map]

theorem readBus_isSome (c c' : CanBus) (a : Nat) :
    (readBus c a).isSome = (readBus c' a).isSome := by
  simp only [readBus, apply_ite Option.isSome, Option.isSome_some, Option.isSome_none]

theorem readPorts_isSome (d d' : Device) (a : Nat) :
    (readPorts d a).isSome = (readPorts d' a).isSome := by
  unfold readPorts
  cases within a 0x8010 32 with
  | none => simp only [apply_ite Option.isSome, Option.isSome_some, Option.isSome_none, Option.bind_none]
  | some i =>
    simp only [apply_ite Option.isSome, Option.isSome_some, Option.bind_some,
      readBus_isSome (bankGet d.pp.buses (Fin.ofNat 2 (i.val / 16))) (bankGet d'.pp.buses (Fin.ofNat 2 (i.val / 16)))]

theorem readBog_isSome (tm tm' : TimeBase) (d d' : Device) (a : Nat) :
    (readBog tm d a).isSome = (readBog tm' d' a).isSome := by
  unfold readBog
  cases within a 0x9820 16 <;>
    simp only [apply_ite Option.isSome, Option.isSome_some, Option.isSome_none]

/-- Whether a word is there is a matter of its address alone. -/
theorem readWord_isSome (s t : State) (a : Nat) : (readWord s a).isSome = (readWord t a).isSome := by
  simp only [readWord, apply_ite Option.isSome, Option.isSome_some, Option.isSome_none, Option.isSome_map,
    readSys, readClk, readFw, readHsp, readLane, readPli, readSlotReg, readTbi, readRail, readRm, readLoop, readEngine, readTune,
    readHearth, readPartner, readProtect, readHousekeeping, readStore, readRecorder, readTwp,
    readGuard_isSome s.tm t.tm s.dev t.dev, readImg_isSome s.dev t.dev, readPorts_isSome s.dev t.dev,
    readBog_isSome s.tm t.tm s.dev t.dev]

/-- The words from the image loader's window to the recorder's and BOG's show nothing of the ports: the windows below 0x800 and
TWP's from 0xA000 on are out of range, and the others read other parts of the device. -/
theorem readWord_ports (s : State) (sgPorts : Bank 3 Session) (ports : Bank 3 PortState) (hsp : HostPort) (twp : TwoWire) {a : Nat}
    (ha : 0x800 ≤ a ∧ a < 0xA000) :
    readWord { s with dev := { s.dev with sg := { s.dev.sg with ports := sgPorts }, ports := ports, hsp := hsp, twp := twp } } a =
      readWord s a := by
  unfold readWord
  dsimp only
  iterate 6 refine ite_congr rfl (fun h => absurd h (by omega)) fun _ => ?_
  iterate 17 refine ite_congr rfl (fun _ => rfl) fun _ => ?_
  exact ite_congr rfl (fun _ => rfl) fun h => absurd ha.2 h

/-! ### What an access leaves alone -/

/-- Two devices differ at most in what the ports show: their accesses, the host port's registers and the two-wire port's. -/
def PortsAlone (d t : Device) : Prop := ∃ ports hsp twp, t = { d with ports := ports, hsp := hsp, twp := twp }

namespace PortsAlone

theorem refl (d : Device) : PortsAlone d d := ⟨_, _, _, rfl⟩

theorem trans {d t u : Device} : PortsAlone d t → PortsAlone t u → PortsAlone d u := by
  rintro ⟨_, _, _, rfl⟩ ⟨_, _, _, rfl⟩
  exact ⟨_, _, _, rfl⟩

theorem onPort (p : Port) (f : PortState → PortState) (d : Device) : PortsAlone d (d.onPort p f) := ⟨_, _, _, rfl⟩

theorem settleAlert (d : Device) : PortsAlone d (settleAlert d) := ⟨_, _, _, rfl⟩

theorem wordStarts (p : Port) (a : Addr) (write : Bool) (d : Device) : PortsAlone d (wordStarts p a write d) := by
  cases p <;> exact ⟨_, _, _, rfl⟩

theorem noteLast (p : Port) (a : Addr) (st : Byte) (d : Device) : PortsAlone d (noteLast p a st d) := by
  cases p <;> exact ⟨_, _, _, rfl⟩

theorem finishAccess (p : Port) (acc : PendingAccess) (d : Device) : PortsAlone d (finishAccess p acc d) := by
  unfold Machine.finishAccess
  cases p with
  | spi => dsimp only; split <;> exact ⟨_, _, _, rfl⟩
  | twoWire => exact ⟨_, _, _, rfl⟩
  | debug => exact ⟨_, _, _, rfl⟩

theorem cutStalled (d : Device) : PortsAlone d (cutStalled d) := by
  unfold Machine.cutStalled
  split
  · split <;> exact ⟨_, _, _, rfl⟩
  · exact ⟨_, _, _, rfl⟩

theorem hostFrameStarts (d : Device) : PortsAlone d (hostFrameStarts d) := (cutStalled d).trans ⟨_, _, _, rfl⟩

theorem reaches {d t : Device} (h : PortsAlone d t) (src : Src) : reaches t src = reaches d src := by
  obtain ⟨_, _, _, rfl⟩ := h
  rcases src with (_ | _ | _) | _ <;> rfl

theorem srcLevel {d t : Device} (h : PortsAlone d t) (src : Src) : srcLevel t src = srcLevel d src := by
  obtain ⟨_, _, _, rfl⟩ := h
  cases src <;> rfl

theorem shut {d t : Device} (h : PortsAlone d t) (tm : TimeBase) (win : Window) : win.shut tm t = win.shut tm d := by
  obtain ⟨_, _, _, rfl⟩ := h
  cases win <;> rfl

theorem runs {d t : Device} (h : PortsAlone d t) (win : Window) : win.runs t = win.runs d := by
  obtain ⟨_, _, _, rfl⟩ := h
  cases win <;> rfl

end PortsAlone

/-- What the access itself does to the session guard depends on the guard and on whether the access reaches it. -/
theorem touch_sg_congr {tm : TimeBase} {p : Port} {d t : Device} (hsg : t.sg = d.sg)
    (hr : reaches t (.port p) = reaches d (.port p)) : (touch tm (.port p) t).sg = (touch tm (.port p) d).sg := by
  unfold touch
  dsimp only
  rw [hr]
  split
  · exact hsg
  · simp only [hsg]

/-- The access itself leaves of every session all but its last use (R353). -/
theorem touch_sessions (tm : TimeBase) (src : Src) (d : Device) :
    ∃ sgPorts ports, touch tm src d = { d with sg := { d.sg with ports := sgPorts }, ports := ports } ∧
      ∀ q, ∃ use, bankGet sgPorts q = { bankGet d.sg.ports q with lastUse := use } := by
  cases src with
  | sup => exact ⟨d.sg.ports, d.ports, rfl, fun q => ⟨_, rfl⟩⟩
  | port p =>
    unfold touch
    dsimp only
    split
    · exact ⟨d.sg.ports, d.ports, rfl, fun q => ⟨_, rfl⟩⟩
    · refine ⟨_, _, rfl, fun q => ?_⟩
      by_cases h : portIdx p = q
      · subst h
        exact ⟨_, bankGet_bankUpd_same _ _ _⟩
      · exact ⟨_, bankGet_bankUpd_other _ _ h⟩

/-- The access itself changes the guard and the port's state alone. -/
theorem touch_eq (tm : TimeBase) (src : Src) (d : Device) :
    ∃ ports, touch tm src d = { d with sg := (touch tm src d).sg, ports := ports } := by
  obtain ⟨_, ports, ht, -⟩ := touch_sessions tm src d
  exact ⟨ports, by rw [ht]⟩

/-- An access with its traces is an access without effect. -/
theorem PortsAlone.touch {p : Port} {s : State} {t : Device} (h : PortsAlone s.dev t) :
    OnlyPort p s (touch s.tm (.port p) t) := by
  have hsg : (Machine.touch s.tm (.port p) t).sg = (Machine.touch s.tm (.port p) s.dev).sg :=
    touch_sg_congr (by obtain ⟨_, _, _, rfl⟩ := h; rfl) (h.reaches _)
  obtain ⟨ports, ht⟩ := touch_eq s.tm (.port p) t
  rw [ht, hsg]
  obtain ⟨_, _, _, rfl⟩ := h
  exact ⟨ports, _, _, rfl⟩

theorem onlyPort_ports {p : Port} {s : State} {d t : Device} (h : OnlyPort p s d) (ht : PortsAlone d t) : OnlyPort p s t := by
  obtain ⟨_, _, _, rfl⟩ := h
  obtain ⟨_, _, _, rfl⟩ := ht
  exact ⟨_, _, _, rfl⟩

/-! ### What a port shows of its access -/

@[simp] theorem settleAlert_port (d : Device) (p : Port) : (settleAlert d).port p = d.port p := rfl

@[simp] theorem wordStarts_port (p q : Port) (a : Addr) (write : Bool) (d : Device) : (wordStarts p a write d).port q = d.port q := by
  cases p <;> rfl

@[simp] theorem noteLast_port (p q : Port) (a : Addr) (st : Byte) (d : Device) : (noteLast p a st d).port q = d.port q := by
  cases p <;> rfl

@[simp] theorem finishAccess_port (p : Port) (acc : PendingAccess) (d : Device) : (finishAccess p acc d).port p =
    { d.port p with pending := none, data := acc.got.getLast?.getD 0, status := acc.status } := by
  rw [← Device.onPort_port d p fun x => { x with pending := none, data := acc.got.getLast?.getD 0, status := acc.status }]
  unfold finishAccess
  cases p with
  | spi => dsimp only; split <;> rfl
  | twoWire => rfl
  | debug => rfl

/-- The access itself discards its port's holds (R9). -/
theorem touch_port {d : Device} {p : Port} (h : reaches d (.port p) = true) (tm : TimeBase) :
    (touch tm (.port p) d).port p = { d.port p with readHold := none, writeHold := none } := by
  simp [touch, h, Device.port]

/-! ### A word of an access -/

/-- The state in which the word of an access is made: the access is pending (R317). -/
def making (p : Port) (acc : PendingAccess) (s : State) : State :=
  s.onDev fun d => d.onPort p fun y => { y with pending := some { acc with todo := [] } }

/-- The access with its word read or written. -/
def madeWord (acc : PendingAccess) (w : Option Word) (v : Word) (st : Byte) : PendingAccess :=
  { acc with todo := [], got := if w.isNone then acc.got ++ [v] else acc.got, status := acc.status ||| st }

/-- What the end of an access with one word leaves. -/
def wordEnds (p : Port) (acc : PendingAccess) (a : Addr) (st : Byte) (d : Device) : Device :=
  settleAlert (finishAccess p acc (noteLast p a st d))

/-- The state that the access itself leaves for its word (R9, R353). -/
def touched (p : Port) (s : State) : State := s.onDev fun d => touch s.tm (.port p) (settleAlert d)

/-- What an access does once its words are made, or one of them hangs. -/
theorem runAccess_of_words {p : Port} {acc : PendingAccess} {s : State} {x : PendingAccess × State}
    (h : runWords p acc.todo { acc with todo := [] } (making p acc s) = x) : runAccess p acc s =
      if (x.2.dev.port p).pending.isNone then x.2.onDev settleAlert
      else if x.1.todo.isEmpty then x.2.onDev fun d => settleAlert (finishAccess p x.1 d)
      else x.2.onDev fun d => settleAlert (d.onPort p fun y => { y with pending := some x.1 }) := by
  subst h
  rfl

theorem making_pending (p : Port) (acc : PendingAccess) (s : State) :
    ((making p acc s).dev.port p).pending.isNone = false := by simp [making]

/-- An access of one word whose word is made ends with it. -/
theorem runAccess_of_word {p : Port} {acc : PendingAccess} {a : Addr} {w : Option Word} {s t : State} {v : Word} {st : Byte}
    (htodo : acc.todo = [(a, w)]) (hw : accessWord p a w (making p acc s) = some (v, st, t))
    (hp : (t.dev.port p).pending.isNone = false) : runAccess p acc s = t.onDev (wordEnds p (madeWord acc w v st) a st) := by
  have hn : ((t.onDev (noteLast p a st)).dev.port p).pending.isNone = false := by simpa using hp
  have hrun : runWords p acc.todo { acc with todo := [] } (making p acc s) =
      (madeWord acc w v st, t.onDev (noteLast p a st)) := by
    rw [htodo]
    unfold runWords
    rw [making_pending, hw]
    rfl
  rw [runAccess_of_words hrun, hn]
  rfl

/-- A word that hangs keeps its access pending (R45). -/
theorem runAccess_of_stopped {p : Port} {acc : PendingAccess} {a : Addr} {w : Option Word} {s : State}
    (htodo : acc.todo = [(a, w)]) (hw : accessWord p a w (making p acc s) = none) :
    runAccess p acc s = (making p acc s).onDev fun d => settleAlert (d.onPort p fun y => { y with pending := some acc }) := by
  have hrun : runWords p acc.todo { acc with todo := [] } (making p acc s) = (acc, making p acc s) := by
    rw [htodo]
    unfold runWords
    rw [making_pending, hw, ← htodo]
    rfl
  rw [runAccess_of_words hrun, making_pending, htodo]
  rfl

/-! ### The cases of a word (R8, R45, R48) -/

/-- A word that is not there reads zero and carries the address error (R8). -/
theorem accessWord_of_undefined {p : Port} {a : Addr} {w : Option Word} {s : State} (ha : a.toNat < 0xF000)
    (hr : readWord s a.toNat = none) : accessWord p a w s = some (0, stAddr, touched p s) := by
  simp [accessWord, inDebugWindow, Nat.not_le.mpr ha, hr, touched]

theorem accessWord_of_defined {p : Port} {a : Addr} {w : Option Word} {s : State} (ha : a.toNat < 0xF000)
    (hr : (readWord s a.toNat).isSome = true) : accessWord p a w s =
      throughWindow (accessWindow a.toNat) (definedWord p a w (s.dev.port p)) (touched p s) := by
  have hn : readWord s a.toNat ≠ none := Option.isSome_iff_ne_none.mp hr
  simp [accessWord, inDebugWindow, Nat.not_le.mpr ha, hn, touched]

theorem throughWindow_of_shut {win : Window} {f : State → Word × Byte × State} {s : State} (hs : win.shut s.tm s.dev = true) :
    throughWindow win f s = some (0, stNotReady, s) := by
  simp [throughWindow, hs]

theorem throughWindow_of_stopped {win : Window} {f : State → Word × Byte × State} {s : State}
    (hs : win.shut s.tm s.dev = false) (hr : win.runs s.dev = false) : throughWindow win f s = none := by
  simp [throughWindow, hs, hr]

theorem throughWindow_of_open {win : Window} {f : State → Word × Byte × State} {s : State}
    (hs : win.shut s.tm s.dev = false) (hr : win.runs s.dev = true) : throughWindow win f s = some (f s) := by
  simp [throughWindow, hs, hr]

/-! ### From the beginning of an access to its end -/

/-- An access of a port has begun: nothing but what the ports show has changed, and it is pending. -/
def Begun (p : Port) (s m : State) : Prop :=
  ∃ d acc, m = { s with dev := d } ∧ PortsAlone s.dev d ∧ d.port p = { s.dev.port p with pending := some acc }

/-- The word of an access has been made: beside the traces of the access itself only these holds have changed (R9). -/
def Made (p : Port) (s : State) (rh wh : Hold) (t : State) : Prop :=
  ∃ d acc, t = { s with dev := d } ∧ OnlyPort p s d ∧
    d.port p = { s.dev.port p with readHold := rh, writeHold := wh, pending := some acc }

theorem begun_making {p : Port} {s t : State} {d : Device} (acc : PendingAccess) (ht : t = { s with dev := d })
    (hd : PortsAlone s.dev d) (hp : d.port p = s.dev.port p) : Begun p s (making p acc t) := by
  subst ht
  exact ⟨_, _, rfl, hd.trans (.onPort p _ d), by rw [Device.onPort_port, hp]⟩

theorem Begun.made {p : Port} {s m : State} (h : Begun p s m) (hr : reaches s.dev (.port p) = true) :
    Made p s none none (touched p m) := by
  obtain ⟨d, acc, rfl, hd, hp⟩ := h
  have hd' : PortsAlone s.dev (settleAlert d) := hd.trans (.settleAlert d)
  refine ⟨_, acc, rfl, hd'.touch, ?_⟩
  change (Machine.touch s.tm (.port p) (Machine.settleAlert d)).port p = _
  rw [touch_port ((hd'.reaches _).trans hr), settleAlert_port, hp]

/-- The word of an access that the port no longer takes is made all the same, with the holds that there are. -/
theorem Begun.made_any {p : Port} {s m : State} (h : Begun p s m) : ∃ rh wh, Made p s rh wh (touched p m) := by
  by_cases hr : reaches s.dev (.port p) = true
  · exact ⟨none, none, h.made hr⟩
  · obtain ⟨d, acc, rfl, hd, hp⟩ := h
    have hd' : PortsAlone s.dev (settleAlert d) := hd.trans (.settleAlert d)
    refine ⟨(s.dev.port p).readHold, (s.dev.port p).writeHold, _, acc, rfl, hd'.touch, ?_⟩
    have hn : reaches (settleAlert d) (.port p) = false := by rw [hd'.reaches]; simpa using hr
    simp only [touch, hn]
    exact hp

theorem Made.read_latch {p : Port} {s t : State} {rh wh : Hold} (h : Made p s rh wh t) (latch : Hold) :
    Made p s latch wh (t.onDev fun d => d.onPort p fun y => { y with readHold := latch }) := by
  obtain ⟨d, acc, rfl, hd, hp⟩ := h
  exact ⟨_, acc, rfl, onlyPort_ports hd (.onPort p _ d), by simp only [Device.onPort_port, hp]⟩

theorem Made.write_latch {p : Port} {s t : State} {rh wh : Hold} (h : Made p s rh wh t) (latch : Hold) :
    Made p s rh latch (t.onDev fun d => d.onPort p fun y => { y with writeHold := latch }) := by
  obtain ⟨d, acc, rfl, hd, hp⟩ := h
  exact ⟨_, acc, rfl, onlyPort_ports hd (.onPort p _ d), by simp only [Device.onPort_port, hp]⟩

/-- A write whose effect leaves alone what an access touches. -/
theorem Made.effect {p : Port} {s t : State} {rh wh : Hold} (h : Made p s rh wh t) {g : Device → Device}
    (hg : ∀ (d : Device) sg ports hsp twp, g { d with sg := sg, ports := ports, hsp := hsp, twp := twp } =
      { g d with sg := sg, ports := ports, hsp := hsp, twp := twp })
    (hsg : (g s.dev).sg = s.dev.sg) (hports : (g s.dev).ports = s.dev.ports)
    (hr : reaches (g s.dev) (.port p) = reaches s.dev (.port p)) : Made p (s.onDev g) rh wh (t.onDev g) := by
  obtain ⟨_, acc, rfl, ⟨ports, hsp, twp, rfl⟩, hp⟩ := h
  refine ⟨_, acc, rfl, ⟨ports, hsp, twp, ?_⟩, ?_⟩
  · rw [State.onDev_dev, hg, ← touch_sg_congr (tm := s.tm) hsg hr]
    rfl
  · rw [State.onDev_dev, hg]
    simpa [Device.port, hports] using hp

theorem Made.pending {p : Port} {s t : State} {rh wh : Hold} (h : Made p s rh wh t) :
    (t.dev.port p).pending.isNone = false := by
  obtain ⟨d, acc, rfl, -, hp⟩ := h
  simp [hp]

/-- What is left once the access is over. -/
theorem Made.ends {p : Port} {s t : State} {rh wh : Hold} (h : Made p s rh wh t) (acc : PendingAccess) (a : Addr) (st : Byte) :
    ∃ d, t.onDev (wordEnds p acc a st) = { s with dev := d } ∧ OnlyPort p s d ∧
      d.port p = { s.dev.port p with
        readHold := rh, writeHold := wh, pending := none, data := acc.got.getLast?.getD 0, status := acc.status } := by
  obtain ⟨d, acc', rfl, hd, hp⟩ := h
  refine ⟨_, rfl, onlyPort_ports hd (((PortsAlone.noteLast p a st d).trans (.finishAccess p acc _)).trans (.settleAlert _)), ?_⟩
  rw [wordEnds, settleAlert_port, finishAccess_port, noteLast_port, hp]

/-! ### Rights, windows and words during an access -/

theorem onlyPort_shut {p : Port} {s : State} {d : Device} (h : OnlyPort p s d) (tm : TimeBase) (win : Window) :
    win.shut tm d = win.shut tm s.dev := by
  obtain ⟨_, _, _, rfl⟩ := h
  cases win <;> rfl

theorem onlyPort_runs {p : Port} {s : State} {d : Device} (h : OnlyPort p s d) (win : Window) :
    win.runs d = win.runs s.dev := by
  obtain ⟨_, _, _, rfl⟩ := h
  cases win <;> rfl

theorem onlyPort_srcLevel {p : Port} {s : State} {d : Device} (h : OnlyPort p s d) (src : Src) :
    srcLevel d src = srcLevel s.dev src := by
  rw [← srcLevel_touch s.tm (.port p) src s.dev]
  obtain ⟨_, _, _, rfl⟩ := h
  cases src <;> rfl

theorem onlyPort_reaches {p : Port} {s : State} {d : Device} (h : OnlyPort p s d) (src : Src) :
    reaches d src = reaches s.dev src := by
  rw [← reaches_touch s.tm (.port p) src s.dev]
  obtain ⟨_, _, _, rfl⟩ := h
  rcases src with (_ | _ | _) | _ <;> simp [Machine.reaches, answers]

theorem onlyPort_mayEarly {p : Port} {s : State} {d : Device} (h : OnlyPort p s d) (src : Src) (least : Level) :
    mayEarly d src least = mayEarly s.dev src least := by
  rw [Machine.mayEarly, Machine.mayEarly, onlyPort_srcLevel h, onlyPort_reaches h]

theorem onlyPort_may {p : Port} {s : State} {d : Device} (h : OnlyPort p s d) (src : Src) (least : Level) :
    may d src least = may s.dev src least := by
  rw [Machine.may, Machine.may, onlyPort_srcLevel h, onlyPort_reaches h]
  obtain ⟨_, _, _, rfl⟩ := h
  rfl

/-- The words that an access of a port leaves as they read: those of the control path and of the store, and the UID. -/
def PathWord (a : Nat) : Prop := 0x800 ≤ a ∧ a < 0xA000 ∨ a = 0x260 ∨ a = 0x261

theorem Made.presentWord {p : Port} {s t : State} {rh wh : Hold} (h : Made p s rh wh t) {a : Nat} (ha : PathWord a) :
    presentWord t a = presentWord s a := by
  obtain ⟨_, acc, rfl, ⟨ports, hsp, twp, rfl⟩, -⟩ := h
  obtain ⟨sgPorts, hsg⟩ := touch_sg s.tm (.port p) s.dev
  rw [hsg]
  rcases ha with ha | rfl | rfl
  · unfold Machine.presentWord
    rw [readWord_ports s sgPorts ports hsp twp ha]
  · simp [Machine.presentWord, readWord, readGuard]
  · simp [Machine.presentWord, readWord, readGuard]

theorem readWord_eq_none {s : State} (t : State) {a : Nat} (h : readWord s a = none) : readWord t a = none := by
  rw [← Option.isNone_iff_eq_none, ← Option.not_isSome, ← readWord_isSome s t a, h]
  rfl

section
variable {p : Port} {a : Addr} {w : Option Word} {s m : State} (hm : Begun p s m)
include hm

omit hm in
theorem accessWord_undefined (ha : a.toNat < 0xF000) (hr : readWord s a.toNat = none) :
    accessWord p a w m = some (0, stAddr, touched p m) := accessWord_of_undefined ha (readWord_eq_none m hr)

theorem Begun.accessWord_shut (ha : a.toNat < 0xF000) (hr : (readWord s a.toNat).isSome = true)
    (hs : (accessWindow a.toNat).shut s.tm s.dev = true) :
    accessWord p a w m = some (0, stNotReady, touched p m) := by
  obtain ⟨rh, wh, d, acc, ht, hd, -⟩ := hm.made_any
  rw [accessWord_of_defined ha ((readWord_isSome m s _).trans hr), ht]
  exact throughWindow_of_shut ((onlyPort_shut hd s.tm _).trans hs)

theorem Begun.accessWord_stopped (ha : a.toNat < 0xF000) (hr : (readWord s a.toNat).isSome = true)
    (hs : (accessWindow a.toNat).shut s.tm s.dev = false) (hc : (accessWindow a.toNat).runs s.dev = false) :
    accessWord p a w m = none := by
  obtain ⟨rh, wh, d, acc, ht, hd, -⟩ := hm.made_any
  rw [accessWord_of_defined ha ((readWord_isSome m s _).trans hr), ht]
  exact throughWindow_of_stopped ((onlyPort_shut hd s.tm _).trans hs) ((onlyPort_runs hd _).trans hc)

theorem Begun.accessWord_there (ha : WordThere s a) :
    accessWord p a w m = some (definedWord p a w (m.dev.port p) (touched p m)) := by
  obtain ⟨ha, hr, hs, hc⟩ := ha
  obtain ⟨rh, wh, d, acc, ht, hd, -⟩ := hm.made_any
  rw [accessWord_of_defined ha ((readWord_isSome m s _).trans hr)]
  refine throughWindow_of_open ?_ ?_
  · rw [ht]; exact (onlyPort_shut hd s.tm _).trans hs
  · rw [ht]; exact (onlyPort_runs hd _).trans hc

theorem Begun.readHold_eq : (m.dev.port p).readHold = (s.dev.port p).readHold := by
  obtain ⟨d, acc, rfl, -, hp⟩ := hm
  simp [hp]

theorem Begun.writeHold_eq : (m.dev.port p).writeHold = (s.dev.port p).writeHold := by
  obtain ⟨d, acc, rfl, -, hp⟩ := hm
  simp [hp]

end

/-! ### An access of one word -/

theorem reaches_of_portFree {d : Device} {p : Port} (h : PortFree d p) : reaches d (.port p) = true := by
  unfold PortFree takesAccess at h
  exact (Bool.and_eq_true_iff.mp h).1

/-- An access of one word as it ends: what it read, and its status. -/
def endedWord (w : Option Word) (header : List Byte) (level : Nat) (v : Word) (st : Byte) : PendingAccess :=
  ⟨w.isSome, [], if w.isNone then [v] else [], st, header, level, false⟩

theorem endedWord_data (w : Option Word) (header : List Byte) (level : Nat) (v : Word) (st : Byte) :
    (endedWord w header level v st).got.getLast?.getD 0 = if w.isNone then v else 0 := by
  cases w <;> rfl

/-- An access of one word that starts, and whose word is made with these holds on a state that has its effect. -/
theorem startAccess_of_made {p : Port} {a : Addr} {w : Option Word} {header : List Byte} {s s' : State} {d : Device} {v : Word}
    {st : Byte} {rh wh : Hold} (hd : PortsAlone s.dev d) (hp : d.port p = s.dev.port p)
    (h : ∀ m, Begun p s m → ∃ t, accessWord p a w m = some (v, st, t) ∧ Made p s' rh wh t) :
    ∃ t, startAccess p w.isSome [(a, w)] header { s with dev := d } =
        t.onDev (wordEnds p (endedWord w header (srcLevel d (.port p)) v st) a st) ∧ Made p s' rh wh t := by
  obtain ⟨t, hw, hmade⟩ := h _ (begun_making ⟨w.isSome, [(a, w)], [], 0, header, srcLevel d (.port p), false⟩ rfl hd hp)
  refine ⟨t, ?_, hmade⟩
  unfold startAccess
  rw [runAccess_of_word rfl hw hmade.pending]
  simp [madeWord, endedWord]

/-- A port that is free starts the access of one word. -/
theorem singleAccess_of_portFree {p : Port} {s : State} (hf : PortFree s.dev p) (a : Addr) (w : Option Word) :
    ∃ header, singleAccess p a w s = startAccess p w.isSome [(a, w)] header (s.onDev (wordStarts p a w.isSome)) := by
  have ht : takesAccess p s.dev = true := hf
  unfold singleAccess
  rw [ht]
  exact ⟨_, rfl⟩

/-- An access of one word, whose word is made with these holds, on a state that has its effect. -/
theorem singleAccess_of_made {p : Port} {a : Addr} {w : Option Word} {s s' : State} {v : Word} {st : Byte} {rh wh : Hold}
    (hf : PortFree s.dev p)
    (h : ∀ m, Begun p s m → ∃ t, accessWord p a w m = some (v, st, t) ∧ Made p s' rh wh t) :
    ∃ d, singleAccess p a w s = { s' with dev := d } ∧ OnlyPort p s' d ∧ d.port p = { s'.dev.port p with
      readHold := rh, writeHold := wh, pending := none, data := if w.isNone then v else 0, status := st } := by
  obtain ⟨header, hs⟩ := singleAccess_of_portFree hf a w
  obtain ⟨t, hstart, hmade⟩ := startAccess_of_made (header := header) (.wordStarts p a w.isSome s.dev) (by simp) h
  obtain ⟨d, hd, honly, hport⟩ := hmade.ends _ a st
  exact ⟨d, (hs.trans hstart).trans hd, honly, by rwa [endedWord_data] at hport⟩

/-! ### A frame with an access of one word (R312 to R317) -/

theorem pending_of_not_portTaken {d : Device} (h : portTaken d = false) : (d.port .spi).pending = none := by
  unfold portTaken at h
  exact Option.not_isSome_iff_eq_none.mp (by simp [(Bool.or_eq_false_iff.mp h).1])

/-- A frame on a port that nothing takes up changes the port's registers alone. -/
theorem hostFrameStarts_of_free {d : Device} (h : portTaken d = false) :
    hostFrameStarts d = { d with hsp := { d.hsp with pstat := pstatOf d, response := none } } := by
  simp [hostFrameStarts, cutStalled, pending_of_not_portTaken h]

/-- The device in which the access of a good frame is made. -/
def framed (acc : HostAccess) (d : Device) : Device :=
  { d with hsp := { d.hsp with
      pstat := pstatOf d, response := none, lastAddr := accessAddr acc, lastWrite := accessWrites acc } }

/-- A good frame makes its access. -/
theorem accessFrame_of_good {acc : HostAccess} {s : State} (ha : answers s.dev = true) (ht : portTaken s.dev = false)
    (hlen : accessLen acc = 1) : accessFrame acc (crc8 (accessBytes acc)) s =
      (startAccess .spi (accessWrites acc) (accessWords acc) (accessHeader acc) (s.onDev (framed acc))).onDev
        fun d => { d with hsp := { d.hsp with lastErr := false } } := by
  have hs : s.onDev hostFrameStarts = s.onDev fun d => { d with hsp := { d.hsp with pstat := pstatOf d, response := none } } := by
    unfold State.onDev
    rw [hostFrameStarts_of_free ht]
  have ht' : portTaken (s.onDev fun d => { d with hsp := { d.hsp with pstat := pstatOf d, response := none } }).dev = false := ht
  unfold accessFrame
  simp only [ha, hlen, hs, ht']
  simp [makeAccess, framed, State.onDev]

/-- The result of an access goes out in its frame. -/
theorem wordEnds_response {a : Addr} {w : Option Word} {header : List Byte} (hh : header.isEmpty = false) (level : Nat) (v : Word)
    (st : Byte) (d : Device) : (wordEnds .spi (endedWord w header level v st) a st d).hsp.response =
      some (responseOf header (if w.isNone then wordBytes [v] else []) st) := by
  cases w <;> simp [wordEnds, settleAlert, finishAccess, endedWord, noteLast, hh]

theorem accessFrame_of_made {acc : HostAccess} {a : Addr} {w : Option Word} {s s' : State} {v : Word} {st : Byte} {rh wh : Hold}
    (ha : answers s.dev = true) (ht : portTaken s.dev = false) (hlen : accessLen acc = 1) (hwords : accessWords acc = [(a, w)])
    (hwrites : accessWrites acc = w.isSome)
    (h : ∀ m, Begun .spi s m → ∃ t, accessWord .spi a w m = some (v, st, t) ∧ Made .spi s' rh wh t) :
    ∃ d, accessFrame acc (crc8 (accessBytes acc)) s = { s' with dev := d } ∧ OnlyPort .spi s' d ∧
      d.hsp.response = some (responseOf (accessHeader acc) (if w.isNone then wordBytes [v] else []) st) := by
  have hh : (accessHeader acc).isEmpty = false := by cases acc <;> rfl
  obtain ⟨t, hstart, hmade⟩ := startAccess_of_made (header := accessHeader acc) (d := framed acc s.dev) ⟨_, _, _, rfl⟩ rfl h
  obtain ⟨d, hd, honly, -⟩ := hmade.ends (endedWord w (accessHeader acc) (srcLevel (framed acc s.dev) (.port .spi)) v st) a st
  have hresponse := wordEnds_response (a := a) (w := w) hh (srcLevel (framed acc s.dev) (.port .spi)) v st t.dev
  refine ⟨{ d with hsp := { d.hsp with lastErr := false } }, ?_, onlyPort_ports honly ⟨_, _, _, rfl⟩, ?_⟩
  · rw [accessFrame_of_good ha ht hlen, hwords, hwrites]
    exact congrArg (State.onDev · _) (hstart.trans hd)
  · rw [← hresponse]
    exact congrArg (·.dev.hsp.response) hd.symm

/-! ### An undefined word (R8) -/

/-- A word that is not there reads zero, takes no write and carries the address error. -/
theorem Begun.made_undefined {p : Port} {a : Addr} {s m : State} (hm : Begun p s m) (w : Option Word)
    (hr : reaches s.dev (.port p) = true) (ha : a.toNat < 0xF000) (hn : readWord s a.toNat = none) :
    ∃ t, accessWord p a w m = some (0, stAddr, t) ∧ Made p s none none t :=
  ⟨_, accessWord_undefined ha hn, hm.made hr⟩

theorem singleAccess_of_undefined {p : Port} {a : Addr} {s : State} (hf : PortFree s.dev p) (w : Option Word)
    (ha : a.toNat < 0xF000) (hn : readWord s a.toNat = none) : ∃ d, singleAccess p a w s = { s with dev := d } ∧ OnlyPort p s d ∧
      (d.port p).data = 0 ∧ (d.port p).status = stAddr ∧ (d.port p).pending = none := by
  obtain ⟨d, hd, honly, hport⟩ :=
    singleAccess_of_made hf fun m hm => hm.made_undefined w (reaches_of_portFree hf) ha hn
  exact ⟨d, hd, honly, by simp [hport], by simp [hport], by simp [hport]⟩

/-- Settles O37: the word of an access to an undefined address is made without effect, whatever starts the access. -/
theorem undefinedAddresses : Obligations.UndefinedAddresses := by
  unfold Obligations.UndefinedAddresses
  refine ⟨fun fixed a s hans ht ha hn => ?_, fun a s hf ha hn => ?_, fun p a w s hf ha hn => ?_, fun a w s hn => ?_⟩
  · have hmade (w : Option Word) (m : State) (hm : Begun .spi s m) := hm.made_undefined w hans ha hn
    constructor
    · obtain ⟨d, hd, honly, hresponse⟩ := accessFrame_of_made (acc := .read fixed a 1) hans ht rfl
        (by simp [accessWords, burstAddrs]) rfl (hmade none)
      exact ⟨d, congrArg Host.Outcome.next hd, honly, hresponse⟩
    · intro w
      obtain ⟨d, hd, honly, hresponse⟩ := accessFrame_of_made (acc := .write fixed a [w]) hans ht rfl
        (by simp [accessWords, burstAddrs]) rfl (hmade (some w))
      exact ⟨d, congrArg Host.Outcome.next hd, honly, hresponse⟩
  · obtain ⟨d, hd, honly, hdata, hstatus, -⟩ := singleAccess_of_undefined hf none ha hn
    refine ⟨d, congrArg Host.Outcome.next ?_, honly, hdata, hstatus⟩
    simpa [dbgAccess, reaches_of_portFree hf] using hd
  · obtain ⟨d, hd, honly, -, hstatus, hpending⟩ := singleAccess_of_undefined hf (some w) ha hn
    exact ⟨d, congrArg Host.Outcome.next hd, honly, hstatus, hpending⟩
  · exact congrArg Host.Outcome.next (by simp [supWrite, hn])

/-! ### The frame of a write of one word -/

theorem sameButAccess_trans {d t u : Device} (h : SameButAccess d t) (k : SameButAccess t u) : SameButAccess d u := by
  obtain ⟨hsp, ports, twp, sgPorts, rfl, huse, hhsp, htwp⟩ := h
  obtain ⟨hsp', ports', twp', sgPorts', rfl, huse', hhsp', htwp'⟩ := k
  refine ⟨hsp', ports', twp', sgPorts', rfl, fun q => ?_, ?_, ?_⟩
  · obtain ⟨use, hq⟩ := huse q
    obtain ⟨use', hq'⟩ := huse' q
    exact ⟨use', hq'.trans (by rw [hq])⟩
  · exact hhsp'.trans (congrArg (fun h : HostPort =>
      { h with lastAddr := hsp'.lastAddr, lastWrite := hsp'.lastWrite, lastStatus := hsp'.lastStatus }) hhsp)
  · exact htwp'.trans (congrArg (fun t : TwoWire => { t with
      busBusy := twp'.busBusy, acked := twp'.acked, pointer := twp'.pointer, sent := twp'.sent
      lastStatus := twp'.lastStatus, lastAddr := twp'.lastAddr, alertAcked := twp'.alertAcked }) htwp)

/-- What changes no session, and no more of the port's own registers than an access may, leaves what an access may leave. -/
theorem sameButAccess_intro {d t : Device} (ports : Bank 3 PortState) (hsp : HostPort) (twp : TwoWire)
    (ht : t = { d with hsp := hsp, ports := ports, twp := twp })
    (hhsp : hsp = { d.hsp with lastAddr := hsp.lastAddr, lastWrite := hsp.lastWrite, lastStatus := hsp.lastStatus })
    (htwp : twp = { d.twp with
      busBusy := twp.busBusy, acked := twp.acked, pointer := twp.pointer, sent := twp.sent
      lastStatus := twp.lastStatus, lastAddr := twp.lastAddr, alertAcked := twp.alertAcked }) :
    SameButAccess d t :=
  ⟨hsp, ports, twp, d.sg.ports, ht, fun _ => ⟨_, rfl⟩, hhsp, htwp⟩

theorem sameButAccess_onPort (d : Device) (p : Port) (f : PortState → PortState) : SameButAccess d (d.onPort p f) :=
  sameButAccess_intro _ d.hsp d.twp rfl rfl rfl

theorem sameButAccess_settleAlert (d : Device) : SameButAccess d (settleAlert d) :=
  sameButAccess_intro d.ports d.hsp _ rfl rfl rfl

theorem sameButAccess_touch (tm : TimeBase) (src : Src) (d : Device) : SameButAccess d (touch tm src d) := by
  obtain ⟨sgPorts, ports, ht, huse⟩ := touch_sessions tm src d
  exact ⟨d.hsp, ports, d.twp, sgPorts, ht, huse, rfl, rfl⟩

theorem sameButAccess_wordStarts (p : Port) (a : Addr) (write : Bool) (d : Device) : SameButAccess d (wordStarts p a write d) := by
  cases p with
  | spi => exact sameButAccess_intro d.ports _ d.twp rfl rfl rfl
  | twoWire => exact sameButAccess_intro d.ports d.hsp _ rfl rfl rfl
  | debug => exact sameButAccess_intro d.ports d.hsp d.twp rfl rfl rfl

theorem sameButAccess_noteLast (p : Port) (a : Addr) (st : Byte) (d : Device) : SameButAccess d (noteLast p a st d) := by
  cases p with
  | spi | debug => exact sameButAccess_intro d.ports d.hsp d.twp rfl rfl rfl
  | twoWire => exact sameButAccess_intro d.ports d.hsp _ rfl rfl rfl

/-- The end of an access without a frame of its own. -/
theorem sameButAccess_finishAccess (p : Port) {acc : PendingAccess} (hh : acc.header = []) (d : Device) :
    SameButAccess d (finishAccess p acc d) := by
  unfold finishAccess
  cases p with
  | spi =>
    dsimp only
    rw [hh]
    exact sameButAccess_intro _ _ d.twp rfl rfl rfl
  | twoWire => exact sameButAccess_intro _ d.hsp _ rfl rfl rfl
  | debug => exact sameButAccess_onPort d _ _

theorem rowStarts_sameButAccess (src : Src) (a : Addr) (s : State) : SameButAccess s.dev (rowStarts src a s).dev := by
  cases src with
  | sup => exact sameButAccess_settleAlert _
  | port p =>
    exact sameButAccess_trans (sameButAccess_trans (sameButAccess_trans (sameButAccess_wordStarts p a true s.dev)
      (sameButAccess_onPort _ p _)) (sameButAccess_settleAlert _)) (sameButAccess_touch s.tm (.port p) _)

theorem rowEnds_sameButAccess (src : Src) (a : Addr) (st : Byte) (d : Device) : SameButAccess d (rowEnds src a st d) := by
  cases src with
  | sup => exact sameButAccess_settleAlert _
  | port p =>
    exact sameButAccess_trans (sameButAccess_trans (sameButAccess_noteLast p a st d)
      (sameButAccess_finishAccess p rfl _)) (sameButAccess_settleAlert _)

theorem rowEnds_rowStarts_port {p : Port} {s : State} (hf : PortFree s.dev p) (a : Addr) (st : Byte) :
    (rowEnds (.port p) a st (rowStarts (.port p) a s).dev).port p =
      { s.dev.port p with pending := none, data := 0, status := st, readHold := none, writeHold := none } := by
  have hr : reaches (settleAlert ((wordStarts p a true s.dev).onPort p fun y =>
      { y with pending := some (wordAccess p s.dev) })) (.port p) = true :=
    ((((PortsAlone.wordStarts p a true s.dev).trans (.onPort p _ _)).trans (.settleAlert _)).reaches _).trans
      (reaches_of_portFree hf)
  simp only [rowEnds, settleAlert_port, finishAccess_port, noteLast_port, rowStarts, State.onDev_dev]
  rw [touch_port hr, settleAlert_port, Device.onPort_port, wordStarts_port]
  rfl

/-! ### Words that are there -/

/-- Before READY the windows beyond HSP answer no port (R48). -/
theorem shut_of_not_ready {d : Device} (h : d.sys.step ≠ .ready) (tm : TimeBase) {a : Nat} (ha : 0x500 ≤ a) :
    (accessWindow a).shut tm d = true := by
  unfold accessWindow
  rw [if_neg (by omega)]
  split_ifs <;> simp [Window.shut, h]

/-- A word in a window that answers before READY. -/
theorem wordThere_early {s : State} {a : Addr} (hr : (readWord s a.toNat).isSome = true) (ha : a.toNat < 0x500) : WordThere s a := by
  have hw : accessWindow a.toNat = .early := by simp [accessWindow, ha]
  exact ⟨by omega, hr, by rw [hw]; rfl, by rw [hw]; rfl⟩

/-- A word of the windows of BCLK and HCLK, once the device is READY. -/
theorem wordThere_running {s : State} {a : Addr} (hr : (readWord s a.toNat).isSome = true) (ha : a.toNat < 0xF000)
    (hw : accessWindow a.toNat = .running) (hs : s.dev.sys.step = .ready) : WordThere s a :=
  ⟨ha, hr, by simp [hw, Window.shut, hs], by rw [hw]; rfl⟩

/-! ### The reads of pairs (R9) -/

theorem pairLow_bounds {a : Nat} (h : pairLow a = true) :
    a = 0x260 ∨ 0x1000 ≤ a ∧ a < 0x9409 := by
  simp [pairLow] at h
  omega

theorem pairHigh_bounds {a : Nat} (h : pairHigh a = true) : a = 0x261 ∨ 0x1001 ≤ a ∧ a < 0x940A := by
  unfold pairHigh at h
  simp only [Bool.and_eq_true, decide_eq_true_eq] at h
  have := pairLow_bounds h.2
  omega

theorem pairHigh_not_low {a : Nat} (h : pairLow a = true) : pairHigh a = false := by
  simp [pairHigh, pairLow] at h ⊢
  omega

theorem PathWord.countMerged {a : Nat} (h : PathWord a) (d : Device) : countMerged a d = d := by
  have hw : within a 0x110 12 = none := by
    unfold PathWord at h
    unfold within fin?
    split_ifs
    · omega
    · rfl
    · rfl
  simp [Machine.countMerged, hw]

theorem pairLow_pathWord {a : Nat} (h : pairLow a = true) : PathWord a ∧ PathWord (a + 1) := by
  unfold PathWord
  have := pairLow_bounds h
  omega

/-- The hold that a read leaves (R9). -/
def latchOf (s : State) (a : Addr) : Hold := if pairLow a.toNat then some (a, presentWord s (a.toNat + 1)) else none

/-- The word that a read of one returns, with this hold (R9). -/
def pairedWord (s : State) (a : Addr) (hold : Hold) : Word :=
  match hold with
  | some (lo, w) => if pairHigh a.toNat ∧ lo.toNat + 1 = a.toNat then w else presentWord s a.toNat
  | none => presentWord s a.toNat

theorem pairedWord_of_not_high {s : State} {a : Addr} (h : pairHigh a.toNat = false) (hold : Hold) :
    pairedWord s a hold = presentWord s a.toNat := by
  unfold pairedWord
  cases hold with
  | none => rfl
  | some x => simp [h]

theorem pairedWord_of_held {s : State} {a lo : Addr} (h : pairHigh a.toNat = true) (hlo : lo.toNat + 1 = a.toNat) (w : Word) :
    pairedWord s a (some (lo, w)) = w := by simp [pairedWord, h, hlo]

theorem Made.latchOf {p : Port} {s t : State} {rh wh : Hold} (h : Made p s rh wh t) (a : Addr) : latchOf t a = latchOf s a := by
  unfold Machine.latchOf
  split
  next hl => rw [h.presentWord (pairLow_pathWord hl).2]
  next => rfl

theorem Made.pairedWord {p : Port} {s t : State} {rh wh : Hold} (h : Made p s rh wh t) {a : Addr} (ha : PathWord a.toNat)
    (hold : Hold) : pairedWord t a hold = pairedWord s a hold := by
  unfold Machine.pairedWord
  rw [h.presentWord ha]

theorem readPaired_of_pathWord {a : Addr} (ha : PathWord a.toNat) (p : Port) (hold : Hold) (t : State) :
    readPaired p a hold t =
      (pairedWord t a hold, t.onDev fun d => d.onPort p fun y => { y with readHold := latchOf t a }) := by
  have hs : t.onDev (countMerged a.toNat) = t := by
    unfold State.onDev
    rw [ha.countMerged]
  simp only [readPaired, hs]
  rfl

/-- A read of a word, which nothing refuses, of one that accesses leave as it reads. -/
theorem Begun.made_read {p : Port} {a : Addr} {s m : State} {rh wh : Hold} (hm : Begun p s m) (hmade : Made p s rh wh (touched p m))
    (ha : WordThere s a) (hpath : PathWord a.toNat) (hl : (readLevel p a.toNat).rank ≤ srcLevel s.dev (.port p)) :
    ∃ t, accessWord p a none m = some (pairedWord s a (s.dev.port p).readHold, 0, t) ∧ Made p s (latchOf s a) wh t := by
  refine ⟨_, ?_, hmade.read_latch _⟩
  have hlevel : ¬ srcLevel (touched p m).dev (.port p) < (readLevel p a.toNat).rank := by
    obtain ⟨d, acc, ht, hd, -⟩ := hmade
    rw [ht, onlyPort_srcLevel hd]
    omega
  simp only [hm.accessWord_there ha, definedWord, hlevel, if_false, readPaired_of_pathWord hpath, hm.readHold_eq,
    hmade.pairedWord hpath, hmade.latchOf a]

theorem singleAccess_of_read {p : Port} {a : Addr} {s : State} (hf : PortFree s.dev p) (ha : WordThere s a)
    (hpath : PathWord a.toNat) (hl : (readLevel p a.toNat).rank ≤ srcLevel s.dev (.port p)) :
    ∃ d, singleAccess p a none s = { s with dev := d } ∧ OnlyPort p s d ∧ d.port p = { s.dev.port p with
      readHold := latchOf s a, writeHold := none, pending := none, data := pairedWord s a (s.dev.port p).readHold, status := 0 } :=
  singleAccess_of_made hf fun _ hm => hm.made_read (hm.made (reaches_of_portFree hf)) ha hpath hl

theorem pairLowRead_answers {p : Port} {a : Addr} {s : State} (hf : PortFree s.dev p) (ha : WordThere s a)
    (hpair : pairLow a.toNat = true) (hl : (readLevel p a.toNat).rank ≤ srcLevel s.dev (.port p)) :
    ∃ d, exec (.pairLowRead p a) s = .next { s with dev := d } ∧ OnlyPort p s d ∧ (d.port p).status = 0 ∧
      (d.port p).data = presentWord s a.toNat ∧ (d.port p).readHold = some (a, presentWord s (a.toNat + 1)) ∧
      (d.port p).writeHold = none := by
  obtain ⟨d, hd, honly, hport⟩ := singleAccess_of_read hf ha (pairLow_pathWord hpair).1 hl
  rw [pairedWord_of_not_high (pairHigh_not_low hpair), latchOf, if_pos hpair] at hport
  refine ⟨d, congrArg Host.Outcome.next ?_, honly, by simp [hport], by simp [hport], by simp [hport], by simp [hport]⟩
  rw [if_pos hpair, hd]

theorem pairHighRead_answers {p : Port} {a lo : Addr} {w : Word} {s : State} (hf : PortFree s.dev p) (ha : WordThere s a)
    (hpair : pairHigh a.toNat = true) (hl : (readLevel p a.toNat).rank ≤ srcLevel s.dev (.port p))
    (hhold : (s.dev.port p).readHold = some (lo, w)) (hlo : lo.toNat + 1 = a.toNat) :
    ∃ d, exec (.pairHighRead p a) s = .next { s with dev := d } ∧ OnlyPort p s d ∧ (d.port p).data = w ∧
      (d.port p).readHold = none := by
  have hlow : pairLow a.toNat = false := by
    cases h : pairLow a.toNat with
    | false => rfl
    | true => rw [pairHigh_not_low h] at hpair; contradiction
  have hpath : PathWord a.toNat := by
    have := pairHigh_bounds hpair
    unfold PathWord
    omega
  obtain ⟨d, hd, honly, hport⟩ := singleAccess_of_read hf ha hpath hl
  rw [hhold, pairedWord_of_held hpair hlo, latchOf, hlow] at hport
  refine ⟨d, congrArg Host.Outcome.next ?_, honly, by simp [hport], by simp [hport]⟩
  rw [if_pos hpair, hd]

/-! ### Writes by their level (R48, R318) -/

/-- A word of a window that is shut to the port is not accessed (R48). -/
theorem registerWrite_of_shut {p : Port} {a : Addr} (w : Word) {s : State} (hf : PortFree s.dev p) (ha : a.toNat < 0xF000)
    (hr : (readWord s a.toNat).isSome = true) (hs : (accessWindow a.toNat).shut s.tm s.dev = true) :
    ∃ d, exec (.registerWrite (.port p) a w) s = .next { s with dev := d } ∧ OnlyPort p s d ∧ (d.port p).status = stNotReady ∧
      (d.port p).pending = none := by
  obtain ⟨d, hd, honly, hport⟩ := singleAccess_of_made (a := a) (w := some w) hf fun _ hm =>
    ⟨_, hm.accessWord_shut ha hr hs, hm.made (reaches_of_portFree hf)⟩
  exact ⟨d, congrArg Host.Outcome.next hd, honly, by simp [hport], by simp [hport]⟩

/-- Fields that touch nothing of an access and of the rights. -/
def Apart (p : Port) (s : State) (f : Device → Device) : Prop :=
  (∀ (d : Device) sg ports hsp twp, f { d with sg := sg, ports := ports, hsp := hsp, twp := twp } =
    { f d with sg := sg, ports := ports, hsp := hsp, twp := twp }) ∧
  (f s.dev).sg = s.dev.sg ∧ (f s.dev).ports = s.dev.ports ∧ reaches (f s.dev) (.port p) = reaches s.dev (.port p)

section
variable {p : Port} {a : Addr} {w : Word} {s : State} {ok : Device → Bool} {f : Device → Device}

/-- A write of fields that the port may write takes effect. -/
theorem singleAccess_of_fields (hf : PortFree s.dev p) (ha : WordThere s a)
    (hw : ∀ t, writePaired p a w (s.dev.port p).writeHold t = writeFields ok f t) (hok : ∀ d, OnlyPort p s d → ok d = true)
    (hapart : Apart p s f) :
    ∃ d, singleAccess p a (some w) s = { s.onDev f with dev := d } ∧ OnlyPort p (s.onDev f) d ∧ d.port p =
      { (f s.dev).port p with readHold := none, writeHold := none, pending := none, data := 0, status := 0 } := by
  obtain ⟨hg, hsg, hports, hr⟩ := hapart
  refine singleAccess_of_made (v := 0) hf fun m hm => ?_
  have hmade := hm.made (reaches_of_portFree hf)
  refine ⟨(touched p m).onDev f, ?_, hmade.effect hg hsg hports hr⟩
  obtain ⟨d, acc, ht, hd, -⟩ := hmade
  have hgood : ok (touched p m).dev = true := by rw [ht]; exact hok d hd
  rw [hm.accessWord_there ha]
  simp only [definedWord, hm.writeHold_eq, hw, writeFields, writeState, hgood, if_true]

/-- A write of fields that the port may not write is denied. -/
theorem singleAccess_of_denied (hf : PortFree s.dev p) (ha : WordThere s a)
    (hw : ∀ t, writePaired p a w (s.dev.port p).writeHold t = writeFields ok f t) (hok : ∀ d, OnlyPort p s d → ok d = false) :
    ∃ d, singleAccess p a (some w) s = { s with dev := d } ∧ OnlyPort p s d ∧ d.port p =
      { s.dev.port p with readHold := none, writeHold := none, pending := none, data := 0, status := stDenied } := by
  refine singleAccess_of_made (v := 0) hf fun m hm => ⟨touched p m, ?_, hm.made (reaches_of_portFree hf)⟩
  obtain ⟨d, acc, ht, hd, -⟩ := hm.made (reaches_of_portFree hf)
  have hbad : ok (touched p m).dev = false := by rw [ht]; exact hok d hd
  rw [hm.accessWord_there ha]
  simp [definedWord, hm.writeHold_eq, hw, writeFields, writeState, hbad]

end

/-- The low word that a write of this word commits with it (R9). -/
def heldLow (a : Addr) : Hold → Option Word
  | some (lo, x) => if lo.toNat + 1 = a.toNat then some x else none
  | none => none

/-- A word that is not the low one of a pair is written at once. -/
theorem writePaired_of_not_low {a : Addr} (h : pairWritable a.toNat = false) (p : Port) (w : Word) (hold : Hold) (t : State) :
    writePaired p a w hold t = writeWord (.port p) a.toNat (heldLow a hold) w t := by
  unfold writePaired
  dsimp only
  rw [if_neg (by simp [h])]
  rfl

/-! ### SYS.RESET_CAUSE -/

/-- What a write to SYS.RESET_CAUSE does. -/
def clearCause (w : Word) (d : Device) : Device := { d with sys := { d.sys with cause := w1c d.sys.cause w } }

theorem clearCause_apart (p : Port) (s : State) (w : Word) : Apart p s (clearCause w) :=
  ⟨fun _ _ _ _ _ => rfl, rfl, rfl, by cases p <;> rfl⟩

theorem writePaired_cause (p : Port) (w : Word) (hold : Hold) (t : State) :
    writePaired p 0x005 w hold t = writeFields (operateEarly (.port p)) (clearCause w) t :=
  writePaired_of_not_low (by decide) p w hold t

theorem wordThere_cause (s : State) : WordThere s 0x005 :=
  wordThere_early ((readWord_isSome s State.reset _).trans (by rfl)) (by decide)

theorem resetCause_write {p : Port} (w : Word) {s : State} (hf : PortFree s.dev p) :
    (mayEarly s.dev (.port p) .operate = true →
      ∃ d, exec (.registerWrite (.port p) 0x005 w) s = .next { s with dev := d } ∧ (d.port p).status = 0 ∧
        d.sys = { s.dev.sys with cause := w1c s.dev.sys.cause w } ∧ d.rails = s.dev.rails ∧ d.lanes = s.dev.lanes ∧
        d.ocs = s.dev.ocs ∧ d.er = s.dev.er) ∧
    (mayEarly s.dev (.port p) .operate = false →
      ∃ d, exec (.registerWrite (.port p) 0x005 w) s = .next { s with dev := d } ∧ OnlyPort p s d ∧ (d.port p).status = 0x04) := by
  constructor
  · intro hmay
    obtain ⟨d, hd, ⟨ports, hsp, twp, rfl⟩, hport⟩ := singleAccess_of_fields hf (wordThere_cause s) (writePaired_cause p w _)
      (fun d honly => (onlyPort_mayEarly honly _ _).trans hmay) (clearCause_apart p s w)
    exact ⟨_, congrArg Host.Outcome.next hd, by rw [hport], rfl, rfl, rfl, rfl, rfl⟩
  · intro hmay
    obtain ⟨d, hd, honly, hport⟩ := singleAccess_of_denied hf (wordThere_cause s) (writePaired_cause p w _)
      fun d honly => (onlyPort_mayEarly honly _ _).trans hmay
    exact ⟨d, congrArg Host.Outcome.next hd, honly, by rw [hport]; rfl⟩

/-! ### ER.TIME_NEW (R9) -/

theorem ready_of_may {d : Device} {p : Port} {least : Level} (h : may d (.port p) least = true) : d.sys.step = .ready := by
  simp [may] at h
  exact h.2

theorem wordThere_timeNew {s : State} (hs : s.dev.sys.step = .ready) : WordThere s 0x9408 ∧ WordThere s 0x9409 :=
  ⟨wordThere_running ((readWord_isSome s State.reset _).trans (by rfl)) (by decide) (by rfl) hs,
    wordThere_running ((readWord_isSome s State.reset _).trans (by rfl)) (by decide) (by rfl) hs⟩

/-- The low word is held while its high word has not come. -/
theorem writePaired_timeNewLow {p : Port} {t : State} (h : may t.dev (.port p) .operate = true) (w : Word) (hold : Hold) :
    writePaired p 0x9408 w hold t = (0, t.onDev fun d => d.onPort p fun y => { y with writeHold := some (0x9408, w) }) := by
  have hpair : pairWritable (0x9408 : Addr).toNat = true := by decide
  have hword (low : Option Word) : writeWord (.port p) (0x9408 : Addr).toNat low w t = (0, t) := by
    change writeFields (operate (.port p)) id t = _
    simp [writeFields, writeState, operate, h]
    rfl
  simp only [writePaired, hword, hpair, and_self, if_true]

theorem writePaired_timeNewHigh (p : Port) (w : Word) (hold : Hold) (t : State) :
    writePaired p 0x9409 w hold t = writeFields (operate (.port p)) (writeTimeNew (heldLow 0x9409 hold) w) t :=
  writePaired_of_not_low (by decide) p w hold t

theorem writeTimeNew_apart (p : Port) (s : State) (low : Option Word) (w : Word) : Apart p s (writeTimeNew low w) :=
  ⟨fun _ _ _ _ _ => rfl, rfl, rfl, by cases p <;> rfl⟩

theorem pairLowWrite_timeNew {p : Port} (w : Word) {s : State} (hf : PortFree s.dev p) (hmay : may s.dev (.port p) .operate = true) :
    ∃ d, exec (.pairLowWrite p 0x9408 w) s = .next { s with dev := d } ∧ OnlyPort p s d ∧ (d.port p).status = 0 ∧
      (d.port p).writeHold = some (0x9408, w) ∧ (d.port p).readHold = none := by
  obtain ⟨d, hd, honly, hport⟩ := singleAccess_of_made (a := 0x9408) (w := some w) (v := 0) (st := 0) hf fun m hm => by
    have hmade := hm.made (reaches_of_portFree hf)
    refine ⟨_, ?_, hmade.write_latch (some (0x9408, w))⟩
    obtain ⟨d, acc, ht, hd, -⟩ := hmade
    have hgood : may (touched p m).dev (.port p) .operate = true := by rw [ht]; exact (onlyPort_may hd _ _).trans hmay
    rw [hm.accessWord_there (wordThere_timeNew (ready_of_may hmay)).1]
    simp only [definedWord, writePaired_timeNewLow hgood]
  exact ⟨d, congrArg Host.Outcome.next hd, honly, by rw [hport], by rw [hport], by rw [hport]⟩

theorem pairHighWrite_timeNew {p : Port} (w : Word) {s : State} (hf : PortFree s.dev p) (hmay : may s.dev (.port p) .operate = true) :
    ∃ d, exec (.pairHighWrite p 0x9409 w) s = .next { s with dev := d } ∧ (d.port p).writeHold = none ∧
      d.er = (writeTimeNew (heldLow 0x9409 (s.dev.port p).writeHold) w s.dev).er ∧ d.rails = s.dev.rails ∧ d.sys = s.dev.sys := by
  obtain ⟨d, hd, ⟨ports, hsp, twp, rfl⟩, hport⟩ := singleAccess_of_fields hf (wordThere_timeNew (ready_of_may hmay)).2
    (writePaired_timeNewHigh p w _) (fun d honly => (onlyPort_may honly _ _).trans hmay) (writeTimeNew_apart p s _ w)
  exact ⟨_, congrArg Host.Outcome.next hd, by rw [hport], rfl, rfl, rfl⟩

/-! ### Accesses on a stopped clock (R28, R45) -/

theorem bankUpd_eq_self {n : Nat} {α : Type} (b : Bank n α) (i : Fin n) {f : α → α} (h : f (bankGet b i) = bankGet b i) :
    bankUpd b i f = b := by
  unfold bankUpd bankSet
  rw [h]
  exact Vector.set_getElem_self i.isLt

theorem bankUpd_bankUpd {n : Nat} {α : Type} (b : Bank n α) (i : Fin n) (f g : α → α) :
    bankUpd (bankUpd b i f) i g = bankUpd b i fun x => g (f x) := by
  simp [bankUpd, bankSet, bankGet]

/-- An access that is pending already stays pending. -/
theorem onPort_pending {d : Device} {p : Port} {acc : PendingAccess} (h : (d.port p).pending = some acc) (other : PendingAccess) :
    ((d.onPort p fun y => { y with pending := some other }).onPort p fun y => { y with pending := some acc }) = d := by
  have hself : bankUpd (bankUpd d.ports (portIdx p) fun y => { y with pending := some other }) (portIdx p)
      (fun y => { y with pending := some acc }) = d.ports := by
    rw [bankUpd_bankUpd]
    exact bankUpd_eq_self _ _ (by rw [← h]; rfl)
  unfold Device.onPort
  dsimp only
  rw [hself]

theorem begun_of_pending (p : Port) (acc : PendingAccess) (s : State) : Begun p s (making p acc s) :=
  begun_making acc rfl (.refl _) rfl

/-- A pending access goes on with the level of its port, where that is still the level that it started with. -/
theorem resumeAccess_of_level {p : Port} {acc : PendingAccess} {s : State} (h : (s.dev.port p).pending = some acc)
    (hl : acc.level = srcLevel s.dev (.port p)) : resumeAccess p s = runAccess p acc s := by
  simp [resumeAccess, h, withLevel, hl]

theorem resumeAccess_of_stopped {p : Port} {acc : PendingAccess} {a : Addr} {w : Option Word} {s : State}
    (h : (s.dev.port p).pending = some acc) (hl : acc.level = srcLevel s.dev (.port p)) (htodo : acc.todo = [(a, w)])
    (ha : a.toNat < 0xF000) (hr : (readWord s a.toNat).isSome = true) (hs : (accessWindow a.toNat).shut s.tm s.dev = false)
    (hc : (accessWindow a.toNat).runs s.dev = false) : resumeAccess p s = s.onDev settleAlert := by
  rw [resumeAccess_of_level h hl, runAccess_of_stopped htodo ((begun_of_pending p acc s).accessWord_stopped ha hr hs hc)]
  exact congrArg (fun d => s.onDev fun _ => settleAlert d) (onPort_pending h _)

/-- On a stopped clock the bus timeout never fires. -/
theorem busTimeout_of_stopped {p : Port} {acc : PendingAccess} {a : Addr} {w : Option Word} {s : State}
    (h : (s.dev.port p).pending = some acc) (htodo : acc.todo = [(a, w)]) (hc : (accessWindow a.toNat).runs s.dev = false) :
    exec (.busTimeout (.port p)) s = .next s := by
  refine congrArg Host.Outcome.next ?_
  dsimp only
  split
  · simp [portTimesOut, h, htodo, hc]
  · rfl

theorem onlyPort_rails {p : Port} {s : State} {d : Device} (h : OnlyPort p s d) : d.rails = s.dev.rails := by
  obtain ⟨_, _, _, rfl⟩ := h
  rfl

/-- A pending read of a rail's word that the port may read returns it once the clock runs. -/
theorem stalledAccessComplete_of_running {p : Port} {acc : PendingAccess} {a : Addr} {s : State}
    (h : (s.dev.port p).pending = some acc) (hl : acc.level = srcLevel s.dev (.port p)) (htodo : acc.todo = [(a, none)])
    (ha : 0x4000 ≤ a.toNat) (ha' : a.toNat < 0x4800) (hthere : WordThere s a)
    (hread : (readLevel p a.toNat).rank ≤ srcLevel s.dev (.port p)) :
    ∃ d, exec (.stalledAccessComplete p) s = .next { s with dev := d } ∧ (d.port p).pending = none ∧
      (d.port p).data = presentWord s a.toNat ∧ (d.port p).status = acc.status ∧ d.rails = s.dev.rails := by
  have hm := begun_of_pending p acc s
  have hhigh : pairHigh a.toNat = false := by
    simp [pairHigh, pairLow]
    omega
  obtain ⟨rh, wh, hmade⟩ := hm.made_any
  obtain ⟨t, hword, hmade⟩ := hm.made_read hmade hthere (.inl (by omega)) hread
  obtain ⟨d, hd, honly, hport⟩ := hmade.ends (madeWord acc none (pairedWord s a (s.dev.port p).readHold) 0) a 0
  refine ⟨d, congrArg Host.Outcome.next ?_, by rw [hport], ?_, ?_, onlyPort_rails honly⟩
  · rw [resumeAccess_of_level h hl, runAccess_of_word htodo hword hmade.pending, hd]
  · rw [hport, ← pairedWord_of_not_high hhigh (s.dev.port p).readHold]
    simp [madeWord]
  · rw [hport]
    simp [madeWord]

/-- A bus timeout is an internal fault: it raises an event and draws a free value. -/
theorem busFault_eq (s : State) : ∃ er, busFault s = { s with dev := { s.dev with er := er, draws := s.dev.draws + 1 } } :=
  ⟨_, rfl⟩

/-- What a port shows of a bus timeout without a pending access. -/
def timedOut (tm : TimeBase) (p : Port) (d : Device) : Device :=
  let d := noteLast p d.twp.lastAddr stTimeout ((touch tm (.port p) d).onPort p fun y => { y with data := 0, status := stTimeout })
  match p with
  | .spi => { d with hsp := { d.hsp with lastStatus := stTimeout } }
  | .twoWire | .debug => d

theorem portTimesOut_of_idle {p : Port} {s : State} (h : (s.dev.port p).pending = none) :
    portTimesOut p s = (busFault s).onDev (timedOut s.tm p) := by
  unfold portTimesOut
  rw [h]
  cases p <;> rfl

theorem timedOut_port (tm : TimeBase) (p : Port) (d : Device) :
    (timedOut tm p d).port p = { (touch tm (.port p) d).port p with data := 0, status := stTimeout } := by
  rw [← Device.onPort_port (touch tm (.port p) d) p fun y => { y with data := 0, status := stTimeout }]
  cases p <;> rfl

theorem timedOut_rails (tm : TimeBase) (p : Port) (d : Device) : (timedOut tm p d).rails = d.rails := by
  cases p <;> exact touch_rails tm _ d

theorem timedOut_lanes (tm : TimeBase) (p : Port) (d : Device) : (timedOut tm p d).lanes = d.lanes := by
  cases p <;> exact touch_lanes tm _ d

theorem busTimeout_of_idle {p : Port} {s : State} (hr : reaches s.dev (.port p) = true) (h : (s.dev.port p).pending = none) :
    ∃ d, exec (.busTimeout (.port p)) s = .next { s with dev := d } ∧ (d.port p).data = 0 ∧ (d.port p).status = 0x40 ∧
      d.rails = s.dev.rails ∧ d.lanes = s.dev.lanes := by
  refine ⟨timedOut s.tm p (busFault s).dev, congrArg Host.Outcome.next ?_, by rw [timedOut_port], by rw [timedOut_port]; rfl,
    timedOut_rails s.tm p _, timedOut_lanes s.tm p _⟩
  dsimp only
  rw [if_pos hr, portTimesOut_of_idle h]
  rfl

theorem busTimeout_of_hung {a : Addr} {w : Word} {s : State} (h : s.dev.fw.hung = some (a, w)) :
    ((accessWindow a.toNat).runs s.dev = false → exec (.busTimeout .sup) s = .next s) ∧
    ((accessWindow a.toNat).runs s.dev = true → ∃ er, exec (.busTimeout .sup) s = .next { s with dev := { s.dev with
      er := er, draws := s.dev.draws + 1, fw := { s.dev.fw with hung := none } } }) := by
  constructor
  · intro hc
    exact congrArg Host.Outcome.next (by simp [supTimesOut, h, hc])
  · intro hc
    obtain ⟨er, her⟩ := busFault_eq (s.onDev fun d => { d with fw := { d.fw with hung := none } })
    exact ⟨er, congrArg Host.Outcome.next (Eq.trans (by simp [supTimesOut, h, hc]) her)⟩

/-- A write of the supervisor to a window whose clock is stopped hangs. -/
theorem registerWrite_sup_of_stopped {a : Addr} (w : Word) {s : State} (h : s.dev.fw.hung = none)
    (hr : (readWord s a.toNat).isSome = true) (hc : (accessWindow a.toNat).runs s.dev = false) :
    exec (.registerWrite .sup a w) s = .next { s with dev := { s.dev with fw := { s.dev.fw with hung := some (a, w) } } } := by
  have hn : readWord s a.toNat ≠ none := Option.isSome_iff_ne_none.mp hr
  exact congrArg Host.Outcome.next (Eq.trans (b := rowHangs .sup a w s) (by simp [supWrite, h, hn, hc]) rfl)

/-- The pair ER.TIME_NEW, written low word first, or its high word alone. -/
theorem timeNew_writes {p : Port} (w : Word) {s : State} (hf : PortFree s.dev p) (hmay : may s.dev (.port p) .operate = true) :
    (∃ d, exec (.pairLowWrite p 0x9408 w) s = .next { s with dev := d } ∧ OnlyPort p s d ∧ (d.port p).status = 0 ∧
      (d.port p).writeHold = some (0x9408, w) ∧ (d.port p).readHold = none) ∧
    (∀ lo : BitVec 32, (s.dev.port p).writeHold = some (0x9408, lo) →
      ∃ d, exec (.pairHighWrite p 0x9409 w) s = .next { s with dev := d } ∧ (d.port p).writeHold = none ∧
        d.er = { s.dev.er with timeNew := w.setWidth 16 ++ lo } ∧ d.rails = s.dev.rails ∧ d.sys = s.dev.sys) ∧
    ((s.dev.port p).writeHold = none →
      ∃ d, exec (.pairHighWrite p 0x9409 w) s = .next { s with dev := d } ∧
        d.er = { s.dev.er with timeNew := w.setWidth 16 ++ s.dev.er.timeNew.setWidth 32 } ∧ d.rails = s.dev.rails ∧
        d.sys = s.dev.sys) := by
  obtain ⟨d, hd, hhold, her, hrails, hsys⟩ := pairHighWrite_timeNew w hf hmay
  refine ⟨pairLowWrite_timeNew w hf hmay, fun lo hlo => ⟨d, hd, hhold, ?_, hrails, hsys⟩,
    fun hnone => ⟨d, hd, ?_, hrails, hsys⟩⟩
  · rw [her, hlo]
    rfl
  · rw [her, hnone]
    rfl

/-- Settles O38, clause by clause: the words of an access are made as their level, their pair and their window's clock allow. -/
theorem registerAccesses : Obligations.RegisterAccesses := by
  unfold Obligations.RegisterAccesses
  refine ⟨fun src a st s => ?frame, fun a st s => ⟨_, rfl⟩, fun p a st s hf => rowEnds_rowStarts_port hf a st,
    fun p a w s hf ha hr hn hs => registerWrite_of_shut w hf ha hr (shut_of_not_ready hs s.tm hn),
    fun p w s hf => resetCause_write w hf, fun p a s => pairLowRead_answers, fun p a lo w s => pairHighRead_answers,
    fun p w s hf hmay => timeNew_writes w hf hmay, fun p s h => ?idle, fun p acc a w s h hl htodo ha hr hs hc => ⟨?stopped, ?never⟩,
    fun p acc a s => stalledAccessComplete_of_running, fun a w s h hr hc => registerWrite_sup_of_stopped w h hr hc,
    fun s h => ?fault, fun a w s => busTimeout_of_hung, fun p s => busTimeout_of_idle⟩
  case frame => exact sameButAccess_trans (rowStarts_sameButAccess src a s) (rowEnds_sameButAccess src a st _)
  case idle => exact congrArg Host.Outcome.next (by simp [resumeAccess, h])
  case stopped => exact congrArg Host.Outcome.next (resumeAccess_of_stopped h hl htodo ha hr hs hc)
  case never => exact busTimeout_of_stopped h htodo hc
  case fault =>
    obtain ⟨er, her⟩ := busFault_eq s
    exact ⟨er, congrArg Host.Outcome.next (Eq.trans (by simp [supTimesOut, h]) her)⟩

end Sys2Proof.Machine
end

section
/-! SUPPORT. The energy side: what its commands do is an operation of its units on the device, and the law of each such operation
(Laws/Spare.lean) says that it leaves the guarded parts alone. -/

namespace Sys2Proof.Machine

/-- A meaning that acts on the device, by an operation that leaves the guarded parts alone. -/
theorem onDevice_isolated {f : TimeBase → Device → Device} (hf : ∀ tm d, spare (f tm d) = spare d) (s : State) :
    ∃ d, onDevice f s = .next { s with dev := d } ∧ spare d = spare s.dev :=
  ⟨_, rfl, hf s.tm s.dev⟩

/-- A meaning that also reads the persistent memories. -/
theorem onDeviceNv_isolated {f : TimeBase → NonVol → Device → Device} (hf : ∀ tm nv d, spare (f tm nv d) = spare d) (s : State) :
    ∃ d, onDeviceNv f s = .next { s with dev := d } ∧ spare d = spare s.dev :=
  onDevice_isolated (fun tm d => hf tm s.nv d) s

/-- A frame that arrives on a partner bus, acted upon by an operation that leaves the guarded parts alone. -/
theorem frameArrives_isolated {b : Fin 2} {node : BitVec 4} {f : TimeBase → Device → Device}
    (hf : ∀ tm d, spare (f tm d) = spare d) (s : State) :
    ∃ d, onDevice (fun tm => arrived b node (f tm)) s = .next { s with dev := d } ∧ spare d = spare s.dev :=
  onDevice_isolated (fun tm d => spare_arrived b node (f tm) (hf tm) d) s

/-- Settles O59, unit by unit: each command of the energy side acts on the device alone, by operations whose laws of
Laws/Spare.lean give the guarded parts back. `spare` leaves out CLK's TRIM and HSP.EVT; `energySide` leaves out CARRIER_START,
VSENSE_CONVERSION, DIE_SAMPLE and HOUSEKEEPING_ROUND_END. -/
theorem energySideIsolated : Obligations.EnergySideIsolated := by
  unfold Obligations.EnergySideIsolated
  intro c s hc
  cases c
  -- Lanes, modules and slots.
  case strapStartTimer => exact onDevice_isolated spare_strapStart s
  case upstreamLock => exact onDevice_isolated (fun tm d => spare_upstreamLock tm _ d) s
  case trainingPollTimer => exact onDevice_isolated (fun tm d => spare_startTraining tm _ d) s
  case trainingStepTimeout => exact onDevice_isolated (fun tm d => spare_trainingTimeout tm _ d) s
  case laneTrainingEnd => exact onDevice_isolated (fun tm d => spare_trainingEnds tm _ _ d) s
  case upstreamLossOfLock => exact onDevice_isolated (fun tm d => spare_upstreamLost tm _ _ d) s
  case retrainAttemptEnd => exact onDevice_isolated (fun tm d => spare_retrainEnds tm _ _ d) s
  case laneDisableTakeEffect => exact onDevice_isolated (fun tm d => spare_disableTakesEffect tm _ d) s
  case laneReceiverSleep => exact onDevice_isolated (fun tm d => spare_receiverSleeps tm _ d) s
  case quadrantDomainOn => exact onDevice_isolated (fun _ d => spare_domainOn _ d) s
  case timeCellTimer => exact onDevice_isolated (fun _ d => spare_timeCells d) s
  case sampleRaw | sampleCmp => exact onDevice_isolated (fun tm d => spare_deliverSamples tm _ _ _ _ _ _ d) s
  case sampleMissing => exact onDevice_isolated (fun tm d => spare_missSample tm _ d) s
  case meas => exact onDevice_isolated (fun tm d => spare_takeMeas tm _ _ _ _ _ d) s
  case status => exact onDevice_isolated (fun tm d => spare_takeStatus tm _ _ _ _ _ _ _ d) s
  case reply => exact onDevice_isolated (fun tm d => spare_reply tm _ _ _ _ _ d) s
  case echoReply => exact onDevice_isolated (fun tm d => spare_echoReply tm _ _ _ _ d) s
  case upstreamCellError => exact onDevice_isolated (fun tm d => spare_cellError tm _ _ d) s
  case replyTimeout => exact onDevice_isolated (fun tm d => spare_replyTimeout tm _ d) s
  case calibration => exact onDeviceNv_isolated (fun tm nv d => spare_startCalibration tm nv _ d) s
  case biasTimer => exact onDevice_isolated spare_biasTimer s
  case housekeepingBias => exact onDevice_isolated spare_housekeepingBias s
  case housekeepingRound => exact onDevice_isolated (fun tm d => spare_roundStart tm _ _ d) s
  -- The time base and its ring's pulses.
  case edgeBuild => exact onDevice_isolated (fun tm d => spare_buildEdge tm.time.toNat _ d) s
  case epochPulse =>
    refine ⟨_, rfl, ?_⟩
    dsimp only
    split
    · exact spare_ringStart s.tm _
    · rfl
  case syncinEdge fine =>
    exact onDevice_isolated (fun tm d => (spare_syncEdge tm fine.val _).trans (spare_freshLink tm d)) s
  case syncPulseMissing => exact onDevice_isolated spare_syncMissing s
  -- The loop engine.
  case evaluationStart => exact onDevice_isolated (fun tm d => spare_startEval tm.time.toNat _ d) s
  case evaluationComplete => exact onDevice_isolated (fun tm d => spare_completeEval tm.time.toNat _ d) s
  case resultRelease => exact onDevice_isolated (fun _ d => spare_releaseOldest _ d) s
  case evaluationDeadline => exact onDevice_isolated (fun tm d => spare_deadlinePasses tm _ d) s
  case autotuneTimeout => exact onDevice_isolated spare_tuneExpires s
  -- The rails.
  case startMeasurementEnd => exact onDevice_isolated (fun tm d => spare_measurementEnds tm _ d) s
  case rampStep => exact onDevice_isolated spare_rampAll s
  case rampTimeout => exact onDevice_isolated (fun tm d => spare_rampExpires tm _ d) s
  case holdTimeout => exact onDevice_isolated (fun tm d => spare_holdExpires tm _ d) s
  case retryTimer => exact onDevice_isolated (fun tm d => spare_retryRail tm _ d) s
  case retriesResetTimer => exact onDevice_isolated (fun tm d => spare_resetRetries tm _ d) s
  case kindlingWarmStart => exact onDevice_isolated (fun tm d => spare_warmStartDue tm _ d) s
  case vreqExpiry => exact onDevice_isolated (fun tm d => spare_expireRequest tm _ _ d) s
  -- Hearth and the ring.
  case hearthTick => exact onDevice_isolated spare_hearthTick s
  case entryCompletionTimeout => exact onDevice_isolated (fun tm d => spare_completionTimeout tm (tickNow tm) _ d) s
  case pauseUpdate => exact onDevice_isolated (fun tm d => spare_pauseUpdate tm _ d) s
  case supervisorAbsence => exact onDevice_isolated spare_noteAbsence s
  case planPass => exact onDevice_isolated spare_planPass s
  case ringFrame => exact onDevice_isolated (fun tm d => spare_ringFrame tm _ d) s
  case ringShareTimeout => exact onDevice_isolated spare_ringTimeout s
  -- The partner buses: what they send, and how they fail.
  case syncTimer => exact onDevice_isolated spare_syncTimer s
  case syncDrop | txFrameTimeout => exact onDevice_isolated (fun tm d => spare_dropStale tm _ _ d) s
  case frameTransmitted bus done =>
    cases done with
    | true => exact onDevice_isolated (fun _ d => spare_frameEnds (busIdx bus) d) s
    | false => exact onDevice_isolated (fun tm d => spare_frameStarts tm (busIdx bus) d) s
  case grantUnsentAtStart e =>
    exact onDevice_isolated (fun tm d => (spare_dropGrant tm e 1 _).trans (spare_dropGrant tm e 0 d)) s
  case busErrorPassive => exact onDevice_isolated (fun tm d => spare_busPassive tm _ d) s
  case busOff => exact onDevice_isolated (fun tm d => spare_enterBusOff tm _ d) s
  case busOffRecoveryEnd => exact onDevice_isolated (fun tm d => spare_busRecovered tm _ d) s
  -- The partners' frames, and their handles' timers.
  case partnerFrameDiscard => exact onDevice_isolated (fun _ d => spare_frameDiscarded _ _ _ d) s
  case join => exact frameArrives_isolated (fun tm d => spare_joinFrame tm _ _ _ _ _ _ d) s
  case leave => exact frameArrives_isolated (fun tm d => spare_leaveFrame tm _ _ _ d) s
  case keepalive => exact frameArrives_isolated (fun tm d => spare_keepaliveFrame tm _ _ _ d) s
  case motionReq => exact frameArrives_isolated (fun tm d => spare_motionFrame tm _ _ _ _ _ _ _ _ _ d) s
  case cancel | reverse | complete => exact frameArrives_isolated (fun tm d => spare_entryFrame tm _ _ _ _ _ d) s
  case vreq => exact frameArrives_isolated (fun tm d => spare_vreqFrame tm _ _ _ _ d) s
  case leaseExpiry => exact onDevice_isolated (fun tm d => spare_leaseExpires tm _ d) s
  case holdoffEnd => exact onDevice_isolated (fun tm d => spare_holdoffEnds tm _ d) s
  case orphanHandleTimeout => exact onDevice_isolated spare_orphansLeave s
  -- Every other command is outside the energy side.
  all_goals exact absurd hc Bool.false_ne_true

end Sys2Proof.Machine
end

section
/-! SUPPORT. Resets (R33 to R36, R39; Table 2-3): the three things that a reset of a kind can do - the cold reset, the warm one, and
the one that is absorbed - and the statements on resets and on the reset values, which follow from them. -/

namespace Sys2Proof.Machine

/-! ### What a reset does -/

/-- The state as a reset other than the cold one leaves it: the device forgets all but what Table 2-3 keeps. -/
def warmReset (kind : ResetKind) (s : State) : State := { s with
  tm := TimeBase.reset
  nv := resetFlash false s.nv s.dev
  dev := ResetDevice s.dev.pins (setBit s.dev.sys.cause kind.bit) (satInc s.dev.sys.warmCount) (LostAt s.dev) s.dev.sys.faults
    s.dev }

/-- The cold reset is taken in every state (R36). -/
theorem resetState_cold (s : State) : resetState .cold s = { s with
    tm := TimeBase.reset
    nv := resetFlash true s.nv s.dev
    dev := ResetDevice s.dev.pins 1 0 0 [] s.dev } := by
  have taken : ¬ (s.dev.sys.step = .held ∧ ResetKind.cold ≠ .cold) := fun h => h.2 rfl
  unfold resetState wholeReset
  rw [if_neg taken, if_neg taken]
  rfl

/-- A warm or debug reset is taken unless step 1 is held (R36). -/
theorem resetState_of_not_held {kind : ResetKind} (hk : kind ≠ .cold) {s : State} (h : s.dev.sys.step ≠ .held) :
    resetState kind s = warmReset kind s := by
  have taken : ¬ (s.dev.sys.step = .held ∧ kind ≠ .cold) := fun held => h held.1
  unfold resetState wholeReset
  rw [if_neg taken, if_neg taken, decide_eq_false hk]
  rfl

/-- While step 1 is held a warm or debug reset only sets its cause bit (R36). -/
theorem resetState_of_held {kind : ResetKind} (hk : kind ≠ .cold) {s : State} (h : s.dev.sys.step = .held) :
    resetState kind s = s.onDev (addCause kind.bit) := by
  unfold resetState wholeReset
  rw [if_pos ⟨h, hk⟩, if_pos ⟨h, hk⟩]
  rfl

/-! ### The commands that cause one -/

theorem supplyTrip_eq (s : State) : supplyTrip s = { s with
    tm := TimeBase.reset
    nv := resetFlash true s.nv s.dev
    dev := ResetDevice { s.dev.pins with supplyOk := false } 1 0 0 [] s.dev } :=
  resetState_cold _

theorem clockLost_of_not_held {s : State} (h : s.dev.sys.step ≠ .held) (hl : s.dev.clk.pllLock = true) :
    clockLost s = (warmReset .clkloss (s.onDev (deferFault 3 0))).onDev fun d => { d with
      pins := { d.pins with refclk := false }
      pm := { d.pm with clockLoss := true }
      clk := { d.clk with pllTrying := false } } := by
  have reset := resetState_of_not_held (kind := .clkloss) (by decide) (s := s.onDev (deferFault 3 0)) h
  simp only [clockLost, hl, Bool.not_true, Bool.false_eq_true, if_false, reset]
  rfl

theorem clockLost_of_held {s : State} (h : s.dev.sys.step = .held) (hl : s.dev.clk.pllLock = true) :
    clockLost s = s.onDev fun d => { d with
      sys := { d.sys with cause := setBit d.sys.cause 3, faults := d.sys.faults ++ [(3, 0)] }
      pins := { d.pins with refclk := false }
      pm := { d.pm with clockLoss := true }
      clk := { d.clk with pllTrying := false } } := by
  have reset := resetState_of_held (kind := .clkloss) (by decide) (s := s.onDev (deferFault 3 0)) h
  simp only [clockLost, hl, Bool.not_true, Bool.false_eq_true, if_false, reset]
  rfl

/-- An uncorrectable RAM error of a block whose errors reset the device leaves that block's fault, and resets it (R28). -/
theorem ramFails_uncorrectable {blk : RamBlock} (hb : blk ≠ .other) (s : State) :
    ramFails blk false s = resetState .ramerr (s.onDev fun d => { d with
      sys := { d.sys with faults := d.sys.faults ++ RamFault blk } }) := by
  cases blk with
  | other => exact absurd rfl hb
  | le | tbi | pli | hs => rfl

theorem debugReset_of_authorised {s : State} (h : s.dev.sg.auth ≠ .none) : debugReset s = resetState .debug s := if_neg h

/-- A reset looks at nothing that the beginning of a write touches. -/
theorem warmReset_rowStarts (kind : ResetKind) (src : Src) (a : Addr) (s : State) :
    warmReset kind (rowStarts src a s) = warmReset kind s := by
  simp only [warmReset, resetFlash, ResetDevice, LostAt, openErases, rowStarts_nv, rowStarts_pending, rowStarts_sys, rowStarts_pins,
    rowStarts_ocs, rowStarts_er, rowStarts_fw, rowStarts_draws]

theorem rowResets_warm {src : Src} {s : State} (h : s.dev.sys.step ≠ .held) (ht : takesWrite src s.dev = true)
    (hl : mayEarly s.dev src .engineer = true) (a : Addr) : rowResets src a (actResetWarm src) s = warmReset .soft s := by
  have reset := resetState_of_not_held (kind := .soft) (by decide) (s := rowStarts src a s) (by rwa [rowStarts_sys])
  simp [rowResets, ht, actResetWarm, writeState, engineerEarly, hl, reset, warmReset_rowStarts]

/-- Settles O1: each command is its kind of reset, taken in a state where step 1 is not held. -/
theorem resetsComplete : Obligations.ResetsComplete := by
  unfold Obligations.ResetsComplete
  refine ⟨fun s => ?_, fun s h => ?_, fun src s h ht hl => ?_, fun s h hl => ?_, fun s h ha => ?_, fun blk s h hb => ?_⟩
  · exact congrArg Host.Outcome.next (supplyTrip_eq s)
  · exact congrArg Host.Outcome.next (resetState_of_not_held (by decide) h)
  · exact congrArg Host.Outcome.next (rowResets_warm h ht hl _)
  · exact ⟨_, congrArg Host.Outcome.next (clockLost_of_not_held h hl), rfl, rfl, rfl, rfl⟩
  · exact congrArg Host.Outcome.next ((debugReset_of_authorised ha).trans (resetState_of_not_held (by decide) h))
  · exact congrArg Host.Outcome.next ((ramFails_uncorrectable hb s).trans (resetState_of_not_held (by decide) h))

/-- Settles O7: while step 1 is held only the cold reset is taken; in any later step a warm one is. -/
theorem resetsOverlap : Obligations.ResetsOverlap := by
  unfold Obligations.ResetsOverlap
  refine ⟨fun s h => ⟨?_, ?_, fun ha => ?_, fun hl => ?_, fun blk hb => ?_⟩, fun s h => ?_, fun src s h hs hr ht hl => ?_⟩
  · exact congrArg Host.Outcome.next (supplyTrip_eq s)
  · exact congrArg Host.Outcome.next (resetState_of_held (by decide) h)
  · exact congrArg Host.Outcome.next ((debugReset_of_authorised ha).trans (resetState_of_held (by decide) h))
  · exact congrArg Host.Outcome.next (clockLost_of_held h hl)
  · exact congrArg Host.Outcome.next ((ramFails_uncorrectable hb s).trans (resetState_of_held (by decide) h))
  · refine ⟨_, congrArg Host.Outcome.next (resetState_of_not_held (by decide) h), ?_, rfl⟩
    simp [warmReset, ResetDevice]
  · refine ⟨_, congrArg Host.Outcome.next (rowResets_warm h ht hl _), ?_, rfl, rfl⟩
    simp [warmReset, ResetDevice, hs, hr]

/-! ### The reset values -/

theorem resetWords_readWord : ∀ x ∈ resetWords, readWord State.reset x.1 = some x.2 := by decide +kernel

theorem timeHolds_reset : TimeHolds State.reset.tm := fun h => absurd h Bool.false_ne_true

theorem memoryHolds_reset : MemoryHolds State.reset.nv := by unfold MemoryHolds; decide

theorem eventsBounded_reset : EventsBounded State.reset.dev := by unfold EventsBounded; decide

@[simp] theorem reset_rail (r : Fin 64) : State.reset.dev.rail r = Rail.reset := bankGet_bankFill _ _
@[simp] theorem reset_lane (n : Fin 64) : State.reset.dev.lane n = Lane.reset := bankGet_bankFill _ _
@[simp] theorem reset_slot (g : Fin 512) : State.reset.dev.slot g = Slot.reset := bankGet_bankFill _ _
@[simp] theorem reset_session (p : Port) : State.reset.dev.session p = Session.reset := bankGet_bankFill _ _

/-- Settles O54: every bank of the reset device holds one value, and the rest is read off. -/
theorem resetValues : Obligations.ResetValues :=
  ⟨resetWords_readWord, fun r => congrArg Rail.state (reset_rail r), fun n => congrArg Lane.state (reset_lane n),
    fun g => congrArg Slot.state (reset_slot g), fun p => congrArg Session.state (reset_session p), rfl, rfl, rfl,
    timeHolds_reset, memoryHolds_reset, eventsBounded_reset⟩

end Sys2Proof.Machine
end

section
/-! SUPPORT. What the store and the recorder do as they work (R392, R409 to R412): neither changes what holds it back - PFAIL_N low, and
recovery - and neither changes any other part of the device. -/

namespace Sys2Proof.Machine

/-- What every step of a fold keeps, the fold keeps. -/
theorem foldl_keeps {σ α β : Type} (g : σ → β) {f : σ → α → σ} (h : ∀ x a, g (f x a) = g x) (l : List α) (x : σ) :
    g (l.foldl f x) = g x := by
  induction l generalizing x with
  | nil => rfl
  | cons a t ih => exact (ih (f x a)).trans (h x a)

/-! ### The store's holds -/

/-- What holds the store's work back: PFAIL_N low, and recovery. -/
def Store.holds (st : Store) : Bool × Bool := (st.pfail, st.recovering)

theorem rollRegion_holds {r : Fin 11} {st st' : Store} (h : rollRegion r st = some st') : st'.holds = st.holds := by
  unfold rollRegion at h
  dsimp only at h
  split at h
  · cases h
  · split at h
    · split at h <;> (cases h; rfl)
    · cases h; rfl

theorem readyJob_holds (nv : NonVol) {fuel : Nat} {st st' : Store} {j j' : Job} (h : readyJob nv fuel st j = some (st', j')) :
    st'.holds = st.holds := by
  fun_induction readyJob nv fuel st j
  case case1 | case7 => cases h
  case case2 | case4 | case11 => exact (congrArg (fun x => Store.holds x.1) (Option.some.inj h)).symm
  case case6 hroll ih => exact (ih h).trans (rollRegion_holds hroll)
  case case3 ih | case5 ih | case8 ih | case9 ih | case10 ih => exact ih h

@[simp] theorem startBest_holds (nv : NonVol) (ok : Job → Bool) (fuel : Nat) (cands : List Job) (st : Store) :
    (startBest nv ok fuel cands st).holds = st.holds := by
  induction fuel generalizing cands st with
  | zero => rfl
  | succ fuel ih =>
    unfold startBest
    split
    · rfl
    · split
      · next st' j' hready =>
        have kept : st'.holds = st.holds := readyJob_holds nv hready
        dsimp only
        split
        · exact (ih _ _).trans kept
        · exact kept
      · exact ih _ _

/-! ### The recorder's queue -/

/-- A recorder without its queue, its chains and their counts, which raising an event changes (R409 to R411). -/
def Recorder.duty (e : Recorder) : Recorder :=
  { e with queue := [], chains := [], nextId := 0, dropped := 0, repeats := 0, pendDrop := 0, firstDrop := 0, lastDrop := 0 }

@[simp] theorem pushEvent_duty (tm : TimeBase) (atHead : Bool) (code : Nat) (payload : List Byte) (ref : Option Nat)
    (stamp : Option (BitVec 48 × BitVec 6 × Bool)) (e : Recorder) :
    (pushEvent tm atHead code payload ref stamp e).1.duty = e.duty := by
  unfold pushEvent
  dsimp only
  split <;> rfl

theorem endChain_duty (tm : TimeBase) (e : Recorder) (c : Chain) : (endChain tm e c).duty = e.duty := by
  unfold endChain
  split
  · rfl
  · exact pushEvent_duty ..

@[simp] theorem endChains_duty (tm : TimeBase) (e : Recorder) : (endChains tm e).duty = e.duty :=
  foldl_keeps Recorder.duty (endChain_duty tm) _ _

@[simp] theorem raiseIn_duty (tm : TimeBase) (code : Nat) (payload : List Byte) (e : Recorder) :
    (raiseIn tm code payload e).duty = e.duty := by
  have pushed := pushEvent_duty tm false code (payload.takeD 16 0) none none (endChains tm e)
  unfold raiseIn
  dsimp only
  split
  · exact endChains_duty tm e
  · split <;> exact pushed.trans (endChains_duty tm e)

/-- With no chain open none ends. -/
theorem endChains_of_none {e : Recorder} (h : e.chains = []) (tm : TimeBase) : endChains tm e = e := by
  simp [endChains, h]
  rw [← h]

/-! ### The device aside from their work -/

/-- The device without what the store, the recorder and the records of the image slots work on, but with the holds of both. -/
def aside (d : Device) : Device :=
  { d with img := Image.reset, ocs := { Store.reset with pfail := d.ocs.pfail, recovering := d.ocs.recovering }, er := d.er.duty }

theorem aside_of_ocs {ocs : Store} {d : Device} (h : ocs.holds = d.ocs.holds) : aside { d with ocs := ocs } = aside d := by
  obtain ⟨hp, hr⟩ := Prod.mk.inj h
  simp only [aside, hp, hr]

theorem aside_of_er {er : Recorder} {d : Device} (h : er.duty = d.er.duty) : aside { d with er := er } = aside d := by
  simp only [aside, h]

/-- The store goes on, and nothing else of the device changes. -/
theorem storePump_eq (nv : NonVol) (d : Device) :
    ∃ ocs, storePump nv d = { d with ocs := ocs } ∧ ocs.holds = d.ocs.holds := by
  unfold storePump
  dsimp only
  split
  · exact ⟨_, rfl, rfl⟩
  · split
    · exact ⟨_, rfl, startBest_holds ..⟩
    · split
      · exact ⟨_, rfl, rfl⟩
      · split
        · exact ⟨_, rfl, startBest_holds nv _ _ _ { d.ocs with current := none }⟩
        · exact ⟨_, rfl, rfl⟩

/-- An erase is stopped, and nothing else of the device changes. -/
theorem stopErase_eq (nv : NonVol) (d : Device) : ∃ ocs, (stopErase nv d).2 = { d with ocs := ocs } ∧ ocs.holds = d.ocs.holds := by
  unfold stopErase
  dsimp only
  split <;> exact ⟨_, rfl, rfl⟩

@[simp] theorem aside_storePump (nv : NonVol) (d : Device) : aside (storePump nv d) = aside d := by
  obtain ⟨ocs, h, kept⟩ := storePump_eq nv d
  exact (congrArg aside h).trans (aside_of_ocs kept)

@[simp] theorem aside_addJob (j : Job) (d : Device) : aside (addJob j d) = aside d := rfl

@[simp] theorem aside_raise (tm : TimeBase) (code : Nat) (payload : List Byte) (d : Device) : aside (raise tm code payload d) = aside d :=
  aside_of_er (raiseIn_duty ..)

@[simp] theorem aside_raiseFault (tm : TimeBase) (kind source detail : Nat) (d : Device) :
    aside (raiseFault tm kind source detail d) = aside d := aside_raise ..

@[simp] theorem aside_raiseImage (tm : TimeBase) (op : Nat) (s : Fin 2) (kind index : Byte) (res : ImgResult) (d : Device) :
    aside (raiseImage tm op s kind index res d) = aside d := aside_raise ..

@[simp] theorem aside_moveImageSlot (nv : NonVol) (s : Fin 2) (p : SlotPhase) (d : Device) :
    aside (moveImageSlot nv s p d) = aside d := by
  simp only [moveImageSlot, setImageSlot, aside_storePump, aside_addJob]
  rfl

theorem circulatingPlace_holds {st st' : Store} {a : Nat} (h : circulatingPlace st = some (st', a)) : st'.holds = st.holds := by
  unfold circulatingPlace at h
  dsimp only at h
  split at h
  · cases h; rfl
  · split at h
    · cases h
    · obtain ⟨p, -, hp⟩ := Option.map_eq_some_iff.mp h
      cases hp; rfl

@[simp] theorem aside_copyShutdowns (nv : NonVol) (d : Device) : aside (copyShutdowns nv d) = aside d := by
  unfold copyShutdowns
  split
  · rfl
  · split
    · rfl
    · split
      · rfl
      · next hplace => simpa using aside_of_ocs (circulatingPlace_holds hplace)

end Sys2Proof.Machine
end

section
/-! SUPPORT. Power failure (R37, R50, R389, R412): PFAIL_N falls, rises, and has been high for 10 ms. -/

namespace Sys2Proof.Machine

/-! ### PFAIL_N falls -/

/-- The recorder as PFAIL_N falls: its writes are held, and the fall that opens a brownout puts BROWNOUT at the head of the queue. -/
def recorderAtFall (tm : TimeBase) (first : Bool) (e : Recorder) : Recorder :=
  if first then
    (pushEvent tm true 0x02 (leBytes 1 e.queue.length) none none
      (endChains tm { e with pfail := true, pfailLeft := 4, pfailAt := tm.us.toNat, pfailLow := 0 })).1
  else { e with pfail := true, pfailAt := tm.us.toNat }

theorem recorderFails_eq (tm : TimeBase) (first : Bool) (d : Device) :
    recorderFails tm first d = { d with er := recorderAtFall tm first d.er } := by
  cases first <;> rfl

/-- The store stops its erase and goes on under its holds, and the recorder takes the fall; nothing else of the device changes. -/
theorem storeFails_eq (tm : TimeBase) (first : Bool) (nv : NonVol) (d : Device) :
    ∃ ocs, storePump (stopErase nv d).1 (recorderFails tm first (stopErase nv d).2) =
      { d with ocs := ocs, er := recorderAtFall tm first d.er } ∧ ocs.holds = d.ocs.holds := by
  obtain ⟨stopped, hstop, kstop⟩ := stopErase_eq nv d
  obtain ⟨ocs, hpump, kpump⟩ := storePump_eq (stopErase nv d).1 { d with ocs := stopped, er := recorderAtFall tm first d.er }
  exact ⟨ocs, by rw [hstop, recorderFails_eq, hpump], kpump.trans kstop⟩

/-- The fall holds the store and the recorder, and nothing else of the device changes. -/
theorem pfailFalls_of_high {s : State} (h : s.dev.pins.pfailN = true) : ∃ nv ocs, pfailFalls s = { s with
    nv := nv
    dev := { s.dev with
      pins := { s.dev.pins with pfailN := false }
      sys := { s.dev.sys with brownout := true }
      ocs := ocs
      er := recorderAtFall s.tm (!s.dev.sys.brownout) s.dev.er } } ∧ ocs.pfail = true := by
  have high : ¬ (!s.dev.pins.pfailN) = true := by simp [h]
  obtain ⟨ocs, hstore, kept⟩ := storeFails_eq s.tm (!s.dev.sys.brownout) s.nv { s.dev with
    pins := { s.dev.pins with pfailN := false }
    sys := { s.dev.sys with brownout := true }
    ocs := { s.dev.ocs with pfail := true, jobs := s.dev.ocs.jobs.map keepCounter } }
  exact ⟨_, ocs, (if_neg high).trans (congrArg (State.mk s.tm _ · s.pending) hstore), congrArg Prod.fst kept⟩

/-- An event of a reserved code that finds a reserved entry free goes to the head of the queue (R409, R412). -/
theorem pushEvent_head {tm : TimeBase} {code : Nat} {payload : List Byte} {ref : Option Nat}
    {stamp : Option (BitVec 48 × BitVec 6 × Bool)} {e : Recorder} (hc : reservedCode code = true)
    (hq : (e.queue.filter (·.spare)).length < 4) (hw : e.writing = none) :
    (pushEvent tm true code payload ref stamp e).1.queue.head? =
      some ⟨byte code, payload.takeD 16 0, e.nextId, ref, stamp, true⟩ := by
  have reserved : (reservedCode code && decide ((e.queue.filter (·.spare)).length < 4)) = true := by rw [hc, decide_eq_true hq]; rfl
  unfold pushEvent
  dsimp only
  rw [reserved, Bool.true_or, if_pos rfl, hw]
  rfl

theorem recorderAtFall_head {tm : TimeBase} {e : Recorder} (hw : e.writing = none) (hc : e.chains = [])
    (hq : (e.queue.filter (·.spare)).length < 4) :
    ((recorderAtFall tm true e).queue.head?).map (fun x => (x.code, x.payload)) =
      some (0x02, [byte e.queue.length] ++ List.replicate 15 0) := by
  unfold recorderAtFall
  rw [if_pos rfl, endChains_of_none (by exact hc), pushEvent_head rfl (by exact hq) (by exact hw)]
  rfl

/-- What the fall that opens a brownout sets in the recorder (R412). -/
theorem recorderAtFall_duty (tm : TimeBase) (e : Recorder) : (recorderAtFall tm true e).duty =
    { e.duty with pfail := true, pfailLeft := 4, pfailAt := tm.us.toNat, pfailLow := 0 } :=
  (pushEvent_duty ..).trans (endChains_duty ..)

theorem pfailFall_opens {s : State} (h : s.dev.pins.pfailN = true) (hb : s.dev.sys.brownout = false) :
    ∃ t, exec .pfailFall s = .next t ∧
    t.tm = s.tm ∧ t.pending = s.pending ∧ t.dev.rails = s.dev.rails ∧ t.dev.lanes = s.dev.lanes ∧
    t.dev.pins = { s.dev.pins with pfailN := false } ∧ t.dev.sys = { s.dev.sys with brownout := true } ∧
    t.dev.ocs.pfail = true ∧ t.dev.er.pfail = true ∧ t.dev.er.pfailLeft = 4 ∧ t.dev.er.pfailAt = s.tm.us.toNat ∧
    t.dev.er.pfailLow = 0 ∧
    (s.dev.er.writing = none → s.dev.er.chains = [] → (s.dev.er.queue.filter (·.spare)).length < 4 →
      (t.dev.er.queue.head?).map (fun e => (e.code, e.payload)) =
        some (0x02, [byte s.dev.er.queue.length] ++ List.replicate 15 0)) := by
  obtain ⟨nv, ocs, hfall, hocs⟩ := pfailFalls_of_high h
  have duty := recorderAtFall_duty s.tm s.dev.er
  rw [hb] at hfall
  exact ⟨_, congrArg Host.Outcome.next hfall, rfl, rfl, rfl, rfl, rfl, rfl, hocs, congrArg Recorder.pfail duty,
    congrArg Recorder.pfailLeft duty, congrArg Recorder.pfailAt duty, congrArg Recorder.pfailLow duty, recorderAtFall_head⟩

theorem pfailFall_within {s : State} (h : s.dev.pins.pfailN = true) (hb : s.dev.sys.brownout = true) :
    ∃ nv ocs, exec .pfailFall s = .next { s with
      nv := nv
      dev := { s.dev with
        pins := { s.dev.pins with pfailN := false }
        ocs := ocs
        er := { s.dev.er with pfail := true, pfailAt := s.tm.us.toNat } } } ∧ ocs.pfail = true := by
  obtain ⟨nv, ocs, hfall, hocs⟩ := pfailFalls_of_high h
  have sys : { s.dev.sys with brownout := true } = s.dev.sys := by rw [← hb]
  rw [hb, sys] at hfall
  exact ⟨nv, ocs, congrArg Host.Outcome.next hfall, hocs⟩

/-! ### PFAIL_N rises -/

theorem pfailRises_of_low {s : State} (h : s.dev.pins.pfailN = false) : pfailRises s = s.onDev fun d =>
    let d := { d with pins := { d.pins with pfailN := true } }
    if d.sys.brownout then recorderRises s.tm d else d := by
  simp [pfailRises, h]

theorem pfailNRise_in_brownout {s : State} (h : s.dev.pins.pfailN = false) (hb : s.dev.sys.brownout = true) :
    exec .pfailNRise s = .next { s with dev := { s.dev with
      pins := { s.dev.pins with pfailN := true }
      er := { s.dev.er with pfailLow := s.dev.er.pfailLow + (s.tm.us.toNat - s.dev.er.pfailAt) } } } :=
  congrArg Host.Outcome.next ((pfailRises_of_low h).trans (by simp [State.onDev, hb, recorderRises]))

theorem pfailNRise_alone {s : State} (h : s.dev.pins.pfailN = false) (hb : s.dev.sys.brownout = false) :
    exec .pfailNRise s = .next { s with dev := { s.dev with pins := { s.dev.pins with pfailN := true } } } :=
  congrArg Host.Outcome.next ((pfailRises_of_low h).trans (by simp [State.onDev, hb]))

/-! ### Slot selection, and the end of the wait in step 4 (R50, R76) -/

/-- SYS as slot selection leaves it, with the slot that it picks: step 6 begins. -/
def Sys.selected (pick : Option (Fin 2)) (x : Sys) : Sys := { x with strapMode := pick.isNone, step := .apply, pfailWait := false }

theorem aside_selected {u d : Device} (h : aside u = aside d) (pick : Option (Fin 2)) :
    aside { u with img := { u.img with running := pick }, sys := u.sys.selected pick } = { aside d with sys := d.sys.selected pick } :=
  (congrArg (fun a : Device => { a with sys := a.sys.selected pick }) h :)

/-- Slot selection records what it finds of the slots, moves them, and otherwise touches SYS alone. -/
theorem aside_selectSlot (tm : TimeBase) (nv : NonVol) (d : Device) :
    aside (selectSlot tm nv d) = { aside d with sys := d.sys.selected (chosenSlot nv d) } := by
  refine aside_selected ?_ _
  generalize hu : List.foldl _ d (List.finRange 2) = u
  have kept : aside u = aside d := by
    rw [← hu]
    refine foldl_keeps aside (fun v s => ?_) _ _
    split
    case h_1 => exact (aside_raiseImage ..).trans (aside_moveImageSlot ..)
    case h_2 | h_3 => rw [apply_ite aside, aside_raiseImage, ite_self]
    case h_4 => rfl
  split
  · split
    · exact (aside_moveImageSlot ..).trans kept
    · exact kept
  · exact kept

theorem afterRecovery_of_free {d : Device} (h : (d.sys.pfailAt4 && d.ocs.pfail) = false) (tm : TimeBase) (nv : NonVol) :
    afterRecovery tm nv d = copyShutdowns nv (selectSlot tm nv d) := by
  simp [afterRecovery, h]

/-! ### PFAIL_N has been high for 10 ms -/

/-- The device as the brownout ends. -/
def released (d : Device) : Device :=
  { d with sys := { d.sys with brownout := false }, ocs := { d.ocs with pfail := false }, er := { d.er with pfail := false } }

/-- The record of the brownout's end, and the store's work. -/
def resumed (s : State) : Device :=
  storePump s.nv (if s.dev.sys.brownout then recorderRecovers s.tm (released s.dev) else released s.dev)

theorem aside_resumed (s : State) : aside (resumed s) = aside (released s.dev) := by
  rw [resumed, aside_storePump]
  split
  · exact aside_raise s.tm 0x03 _ (released s.dev)
  · rfl

theorem pfailOver_of_held {s : State} (h : s.dev.pins.pfailN = true) (hp : s.dev.ocs.pfail = true) :
    pfailOver s = { s with dev :=
      if (resumed s).sys.step = .pfailHold then afterRecovery s.tm s.nv (resumed s) else copyShutdowns s.nv (resumed s) } := by
  have held : ¬ ((!s.dev.pins.pfailN) = true ∨ (!s.dev.ocs.pfail) = true) := by simp [h, hp]
  exact if_neg held

/-- What the end of the brownout leaves, aside from the work of the store and the recorder. -/
theorem aside_pfailOver {s : State} (h : s.dev.pins.pfailN = true) (hp : s.dev.ocs.pfail = true) :
    ∃ sys, aside (pfailOver s).dev = { aside (released s.dev) with sys := sys } ∧ sys.brownout = false ∧
      sys.step = (if s.dev.sys.step = .pfailHold then .apply else s.dev.sys.step) := by
  have kept := aside_resumed s
  have hsys : (resumed s).sys = (released s.dev).sys := (congrArg Device.sys kept :)
  have hstep : (resumed s).sys.step = s.dev.sys.step := (congrArg Sys.step hsys :)
  have free : ((resumed s).sys.pfailAt4 && (resumed s).ocs.pfail) = false := by
    rw [show (resumed s).ocs.pfail = false from (congrArg (·.ocs.pfail) kept :), Bool.and_false]
  rw [pfailOver_of_held h hp, hstep]
  split
  · rw [afterRecovery_of_free free, aside_copyShutdowns, aside_selectSlot, kept, hsys]
    exact ⟨_, rfl, rfl, rfl⟩
  · rw [aside_copyShutdowns, kept]
    exact ⟨_, rfl, rfl, rfl⟩

theorem pfailRecovered_ends {s : State} (h : s.dev.pins.pfailN = true) (hp : s.dev.ocs.pfail = true) :
    ∃ t, exec .pfailRecovered s = .next t ∧
    t.tm = s.tm ∧ t.nv = s.nv ∧ t.pending = s.pending ∧ t.dev.sys.brownout = false ∧
    t.dev.sys.step = (if s.dev.sys.step = .pfailHold then .apply else s.dev.sys.step) ∧
    t.dev.ocs.pfail = false ∧ t.dev.er.pfail = false ∧ t.dev.rails = s.dev.rails ∧ t.dev.lanes = s.dev.lanes := by
  obtain ⟨sys, haside, hb, hstep⟩ := aside_pfailOver h hp
  have rest := pfailOver_of_held h hp
  have hsys : (pfailOver s).dev.sys = sys := (congrArg Device.sys haside :)
  exact ⟨pfailOver s, rfl, by rw [rest], by rw [rest], by rw [rest], hsys ▸ hb, hsys ▸ hstep, (congrArg (·.ocs.pfail) haside :),
    (congrArg (·.er.pfail) haside :), (congrArg Device.rails haside :), (congrArg Device.lanes haside :)⟩

/-- Settles O2: one lemma for each command and each side of its episode. -/
theorem powerFails : Obligations.PowerFails :=
  ⟨fun _ => pfailFall_opens, fun _ => pfailFall_within, fun _ => pfailNRise_in_brownout, fun _ => pfailNRise_alone,
    fun _ => pfailRecovered_ends⟩

end Sys2Proof.Machine
end

section
/-! SUPPORT. The end of recovery (R46 steps 4 and 5, R50, R387, R391): recovery leaves the store's holds as they are, and what follows
on it - the records of the start-up, the choice of firmware, the selection of a slot - leaves the rest of the device alone. -/

namespace Sys2Proof.Machine

/-! ### Recovery leaves the store's holds as they are (R387, R388) -/

@[simp] theorem refreshStore_holds (nv : NonVol) (st : Store) : (refreshStore nv st).holds = st.holds := by
  unfold refreshStore Store.holds
  dsimp only

theorem runNow_holds (nv : NonVol) (fuel : Nat) (st : Store) (steps : List JobStep) :
    (runNow nv fuel st steps).2.holds = st.holds := by
  induction fuel generalizing nv st steps with
  | zero => rfl
  | succ fuel ih =>
    unfold runNow
    split
    · rfl
    · next st' j hready =>
      have kept : st'.holds = st.holds := readyJob_holds nv hready
      split
      case h_1 => exact kept
      case h_2 | h_4 => exact (ih ..).trans ((refreshStore_holds ..).trans kept)
      all_goals exact (ih ..).trans kept

/-- The holds of the store that recovery works on. -/
def Settling.holds (x : Settling) : Bool × Bool := x.st.holds

theorem settleRun_holds (steps : List JobStep) (x : Settling) : (settleRun steps x).holds = x.holds := runNow_holds ..

theorem settleRecords_holds (p : Fin 128) (x : Settling) : (settleRecords p x).holds = x.holds := by
  unfold settleRecords
  split <;> rfl

theorem settleCounter_holds (c : Fin 16) (x : Settling) : (settleCounter c x).holds = x.holds := by
  unfold settleCounter
  split <;> rfl

theorem settleEvents_holds (addrs : List Nat) (x : Settling) : (settleEvents addrs x).holds = x.holds := rfl

theorem redoErases_holds (x : Settling) : (redoErases x).holds = x.holds := by
  refine foldl_keeps Settling.holds (fun y t => ?_) _ _
  exact settleRun_holds _ _

theorem copyWorn_holds (x : Settling) : (copyWorn x).holds = x.holds :=
  foldl_keeps Settling.holds (fun _ _ => settleRun_holds _ _) _ _

theorem wipeRegion_holds (nv : NonVol) (st : Store) (lc : LifeCycle) (r : Fin 11) : (wipeRegion nv st lc r).1.holds = st.holds := by
  unfold wipeRegion
  dsimp only
  split <;> rfl

theorem finishCompaction_holds (r : Fin 11) (x : Settling) : (finishCompaction r x).holds = x.holds := by
  unfold finishCompaction
  split
  · split
    · exact settleRun_holds _ _
    · rfl
  · rfl

theorem redoWipes_holds (x : Settling) : (redoWipes x).holds = x.holds := by
  unfold redoWipes
  split
  · rfl
  · dsimp only
    split
    · rfl
    · refine (settleRun_holds _ _).trans (foldl_keeps Settling.holds (fun y r => ?_) _ _)
      have compacted : (if r = 4 then finishCompaction 4 y else y).holds = y.holds := by
        split
        · exact finishCompaction_holds 4 y
        · rfl
      exact (settleRun_holds _ _).trans ((wipeRegion_holds ..).trans compacted)

theorem loadMap_holds (x : Settling) : (loadMap x).holds = x.holds := rfl
theorem loadSectors_holds (x : Settling) : (loadSectors x).holds = x.holds := rfl
theorem loadCounts_holds (x : Settling) : (loadCounts x).holds = x.holds := rfl

theorem regained_holds (x : Settling) (r : Fin 11) (ls : List (Fin 128)) (used : Bank 11 (List (Fin 128))) :
    Settling.holds ⟨x.nv, regainSectors r ls { x.st with used := used }, x.done⟩ = x.holds := rfl

/-- The lets of recovery one after the other, each with the holds of the one before: the store passes through the steps of
Table 15-5 and R415. -/
theorem recoverStore_holds (nv : NonVol) (st : Store) : (recoverStore nv st).st.holds = st.holds := by
  unfold recoverStore
  extract_lets _ start x1 records x2 x3 x4 _ x5 x6 x7 x8 x9 _ x10 x11 x12 _ x13 x14 _ x15 x16 _ _ x17 x18 _ stale x19
  have h1 : x1.holds = st.holds := foldl_keeps Settling.holds (fun x p => settleRecords_holds p x) _ start
  have h2 : x2.holds = x1.holds := by
    refine (loadMap_holds _).trans (foldl_keeps Settling.holds (fun x p => ?_) _ x1)
    split
    · exact settleRecords_holds p x
    · rfl
  have h4 : x4.holds = x2.holds := (refreshStore_holds x3.nv x3.st).trans (loadSectors_holds x2)
  clear_value x4
  have h5 : x5.holds = x4.holds := loadCounts_holds _
  have h6 : x6.holds = x5.holds := (loadSectors_holds _).trans (redoErases_holds x5)
  have h7 : x7.holds = x6.holds := foldl_keeps Settling.holds (fun x p => settleRecords_holds p x) _ x6
  have h8 : x8.holds = x7.holds := by
    refine foldl_keeps Settling.holds (fun x p => ?_) _ x7
    split
    · exact settleEvents_holds _ x
    · rfl
  have h9 : x9.holds = x8.holds := loadSectors_holds x8
  clear_value x9
  have h11 : x11.holds = x9.holds := foldl_keeps Settling.holds (fun x c => settleCounter_holds c x) _ x10
  have h12 : x12.holds = x11.holds := refreshStore_holds x11.nv x11.st
  clear_value x12
  have h13 : x13.holds = x12.holds := settleRun_holds _ _
  clear_value x13
  have h15 : x15.holds = x13.holds := refreshStore_holds x13.nv x13.st
  have h16 : x16.holds = x15.holds := (copyWorn_holds _).trans (redoWipes_holds x15)
  clear_value x16
  have h18 : x18.holds = x16.holds := settleEvents_holds _ x17
  have h19 : x19.holds = x18.holds := by
    refine foldl_keeps Settling.holds (fun x l => ?_) _ x18
    split
    · exact (regained_holds (settleRun _ x) _ _ _).trans (settleRun_holds _ x)
    · rfl
  calc (refreshStore x19.nv x19.st).holds = x19.holds := refreshStore_holds x19.nv x19.st
    _ = st.holds := by rw [h19, h18, h16, h15, h13, h12, h11, h9, h8, h7, h6, h5, h4, h2, h1]

/-! ### The records of a start-up, and its firmware (R28, R367, R398, R402) -/

theorem aside_raiseDeferred (tm : TimeBase) (d : Device) :
    aside (raiseDeferred tm d) = { aside d with sys := { d.sys with faults := [] } } := by
  have kept := foldl_keeps aside (fun d (f : Nat × Nat) => aside_raiseFault tm f.1 f.2 (Config.faultDetail f.1 f.2).toNat d)
    d.sys.faults d
  exact (congrArg (fun a : Device => { a with sys := { a.sys with faults := [] } }) kept :)

theorem aside_raiseRecovery (tm : TimeBase) (x : Settling) (d : Device) : aside (raiseRecovery tm x d) = aside d := by
  unfold raiseRecovery
  extract_lets r u
  have kept : aside u = aside d := foldl_keeps aside (fun v _ => (aside_raise ..).trans (aside_raiseFault ..)) _ d
  split
  · exact (aside_raise ..).trans kept
  · exact kept

theorem aside_moveCode (tm : TimeBase) (op : Nat) (s : Fin 2) (p : SlotPhase) (x : NonVol × Device) :
    aside (moveCode tm op s p x).2 = aside x.2 := by
  unfold moveCode
  dsimp only
  split
  · rfl
  · exact aside_raise ..

theorem aside_bootFirmware (tm : TimeBase) (x : NonVol × Device) :
    aside (bootFirmware tm x).2 = { aside x.2 with fw := (bootFirmware tm x).2.fw } := by
  have kept := foldl_keeps (fun y : NonVol × Device => aside y.2) (f := fun y s =>
    if (bankGet y.1.code s).phase = .trial ∨ ((bankGet y.1.code s).phase = .confirmed ∧ bootable (bankGet y.1.code s) = false)
      then moveCode tm 0 s .rejected y else y) (fun y s => by
        split
        · exact aside_moveCode ..
        · rfl) (List.finRange 2) x
  exact (congrArg (fun a : Device => { a with fw := (bootFirmware tm x).2.fw }) kept :)

theorem aside_raiseStart (tm : TimeBase) (nv : NonVol) (d : Device) :
    aside (raiseStart tm nv d) = { aside d with er := { d.er.duty with started := true } } := by
  have kept := fun payload => pushEvent_duty tm true 0x00 payload none none d.er
  unfold raiseStart
  exact (congrArg (fun e : Recorder => { aside d with er := { e with started := true } }) (kept _) :)

/-! ### The end of recovery (R50, R391) -/

/-- After recovery the slots are selected, or the sequence waits for PFAIL_N (R50). -/
theorem aside_afterRecovery (tm : TimeBase) (nv : NonVol) (d : Device) :
    ∃ sys, aside (afterRecovery tm nv d) = { aside d with sys := sys } ∧ sys.faults = d.sys.faults ∧ sys.step = (if d.sys.pfailAt4 && d.ocs.pfail then .pfailHold else .apply) := by
  unfold afterRecovery
  split
  · exact ⟨_, rfl, rfl, rfl⟩
  · rw [aside_copyShutdowns, aside_selectSlot]
    exact ⟨_, rfl, rfl, rfl⟩

theorem loadStore_holds (x : Settling) : (loadStore x).holds = (x.st.holds.1, false) := by
  unfold loadStore Store.holds
  dsimp only

/-- The device with what recovery has loaded from the store. -/
theorem recoveryEnds_of_open {s : State} (h : s.dev.sys.step = .recovery) (hw : s.dev.hkt.storeWin = true) :
    ∃ (cal : BitVec 48) (nv : NonVol) (x : Settling) (ocs : Store) (sg : Guard) (er : Recorder) (img : Image) (cap : Capture)
      (changed : Bool),
      let tm := { s.tm with cal := cal }
      let f := bootFirmware tm (nv, raiseRecovery tm x (raiseDeferred tm { s.dev with
        ocs := ocs, sg := sg, er := er, img := img, cap := cap, sys := { s.dev.sys with recovered := changed } }))
      recoveryEnds s = { s with tm := tm, nv := f.1, dev := afterRecovery tm f.1 (raiseStart tm f.1 f.2) } ∧
        ocs.holds = (s.dev.ocs.pfail, false) ∧ sg.keysLoaded = true := by
  have opened : ¬ (s.dev.sys.step ≠ .recovery ∨ (!s.dev.hkt.storeWin) = true) := by simp [h, hw]
  refine ⟨_, _, _, _, _, _, _, _, _, if_neg opened, ?_, rfl⟩
  refine (refreshStore_holds ..).trans ((settleRun_holds ..).trans ?_)
  have loaded : (loadStore (recoverStore s.nv s.dev.ocs)).holds = (s.dev.ocs.holds.1, false) := by
    rw [loadStore_holds, recoverStore_holds]
  exact loaded

/-- The start-up's records, its firmware and its slots, which follow on what recovery has loaded: beside the work of the store and the
recorder they change SYS and the firmware alone. -/
theorem aside_startedUp (tm : TimeBase) (nv : NonVol) (x : Settling) (d : Device) :
    let f := bootFirmware tm (nv, raiseRecovery tm x (raiseDeferred tm d))
    ∃ sys fw er, aside (afterRecovery tm f.1 (raiseStart tm f.1 f.2)) = { aside d with sys := sys, fw := fw, er := er } ∧
      er.started = true ∧ sys.faults = [] ∧ sys.step = (if d.sys.pfailAt4 && d.ocs.pfail then .pfailHold else .apply) := by
  intro f
  have recorded : aside f.2 = { aside d with sys := { d.sys with faults := [] }, fw := f.2.fw } := by
    rw [aside_bootFirmware, aside_raiseRecovery, aside_raiseDeferred]
  have begun := aside_raiseStart tm f.1 f.2
  rw [recorded] at begun
  have hsys := (congrArg Device.sys begun :)
  have hpfail := (congrArg (·.ocs.pfail) begun :)
  obtain ⟨sys, hafter, hfaults, hstep⟩ := aside_afterRecovery tm f.1 (raiseStart tm f.1 f.2)
  rw [begun] at hafter
  refine ⟨sys, _, _, hafter, rfl, ?_, ?_⟩
  · exact hfaults.trans (congrArg Sys.faults hsys :)
  · rw [hstep, show (raiseStart tm f.1 f.2).ocs.pfail = d.ocs.pfail from hpfail,
      show (raiseStart tm f.1 f.2).sys.pfailAt4 = d.sys.pfailAt4 from (congrArg Sys.pfailAt4 hsys :)]

theorem storeRecoveryEnd_of_shut {s : State} (hw : s.dev.hkt.storeWin = false) : exec .storeRecoveryEnd s = .next s :=
  congrArg Host.Outcome.next (if_pos (.inr (by simp [hw])))

theorem storeRecoveryEnd_of_open {s : State} (h : s.dev.sys.step = .recovery) (hw : s.dev.hkt.storeWin = true) :
    ∃ t, exec .storeRecoveryEnd s = .next t ∧
    t.pending = s.pending ∧ t.tm = { s.tm with cal := t.tm.cal } ∧ t.dev.ocs.recovering = false ∧ t.dev.sg.keysLoaded = true ∧
    t.dev.er.started = true ∧ t.dev.sys.faults = [] ∧ t.dev.pins = s.dev.pins ∧ t.dev.clk = s.dev.clk ∧
    t.dev.rails = s.dev.rails ∧ t.dev.lanes = s.dev.lanes ∧
    t.dev.sys.step = (if s.dev.sys.pfailAt4 && s.dev.ocs.pfail then .pfailHold else .apply) := by
  obtain ⟨cal, nv, x, ocs, sg, er, img, cap, changed, hends, holds, keys⟩ := recoveryEnds_of_open h hw
  obtain ⟨hp, hr⟩ := Prod.mk.inj holds
  obtain ⟨sys, fw, er', haside, started, faults, step⟩ := aside_startedUp { s.tm with cal := cal } nv x { s.dev with
    ocs := ocs, sg := sg, er := er, img := img, cap := cap, sys := { s.dev.sys with recovered := changed } }
  refine ⟨_, congrArg Host.Outcome.next hends, rfl, rfl, ?_⟩
  generalize afterRecovery _ _ _ = t at haside ⊢
  have hsys : t.sys = sys := (congrArg Device.sys haside :)
  have her := (congrArg (·.er.started) haside :)
  exact ⟨(congrArg (·.ocs.recovering) haside :).trans hr, (congrArg (·.sg.keysLoaded) haside :).trans keys, her.trans started,
    (congrArg Sys.faults hsys).trans faults, (congrArg Device.pins haside :), (congrArg Device.clk haside :),
    (congrArg Device.rails haside :), (congrArg Device.lanes haside :), (congrArg Sys.step hsys).trans (step.trans (by rw [hp]))⟩

end Sys2Proof.Machine
end

section
/-! SUPPORT. The steps of start-up (R46 to R53, Table 2-6): what each command does in the step that it ends. -/

namespace Sys2Proof.Machine

/-! ### Steps 1 to 3 (R46, R49) -/

/-- A command whose meaning changes the device alone, told by the device that it leaves. -/
theorem next_of_dev {s : State} {d d' : Device} (h : d = d') :
    (Host.Outcome.next { s with dev := d } : Answer) = .next { s with dev := d' } := by rw [h]

theorem filterEnds_of_filter {d : Device} (h : d.sys.step = .filter) (nv : NonVol) : ∃ lc lcPending, filterEnds nv d = { d with
    sys := { d.sys with step := .wipe, strap := d.pins.straps }, sg := { d.sg with lc := lc, lcPending := lcPending } } := by
  unfold filterEnds
  rw [if_neg (not_not_intro h)]
  dsimp only
  split <;> exact ⟨_, _, rfl⟩

theorem startupFilterEnd_of_filter {s : State} (h : s.dev.sys.step = .filter) :
    ∃ lc lcPending, exec .startupFilterEnd s = .next { s with dev := { s.dev with
      sys := { s.dev.sys with step := .wipe, strap := s.dev.pins.straps }
      sg := { s.dev.sg with lc := lc, lcPending := lcPending } } } := by
  obtain ⟨lc, lcPending, ends⟩ := filterEnds_of_filter h s.nv
  exact ⟨lc, lcPending, next_of_dev ends⟩

/-- The two-wire port, whose reset leaves SDA as it was, recovers a bus on which SDA is low (R343). -/
theorem recoverAfterReset_eq (tm : TimeBase) (d : Device) :
    ∃ twp, recoverAfterReset tm d = { d with twp := twp, draws := d.draws + 1 } ∧ RecoversBus d twp := by
  unfold recoverAfterReset RecoversBus
  cases Config.sdaAfterReset d.draws with
  | none => exact ⟨_, rfl, rfl⟩
  | some freedAt =>
    dsimp only
    unfold startRecovery
    split
    · next busy => exact ⟨_, rfl, fun hen hscl hrec => by simp [hen, hscl, hrec] at busy⟩
    · exact ⟨_, rfl, fun _ _ _ => ⟨_, rfl⟩⟩

/-- Step 3 ends, and with it the two-wire port answers again. -/
theorem portsStart_startTime {s u : State} (h : answers s.dev = false) :
    ∃ twp, portsStart s (startTime u) = { u with
      tm := { TimeBase.reset with running := true, lclk := true }
      dev := { u.dev with
        sys := { u.dev.sys with step := .recovery, pfailAt4 := !u.dev.pins.pfailN }
        twp := twp
        draws := u.dev.draws + 1 } } ∧ RecoversBus u.dev twp := by
  obtain ⟨twp, hrec, bus⟩ := recoverAfterReset_eq (startTime u).tm (startTime u).dev
  have starts : (answers (startTime u).dev && !answers s.dev) = true := by rw [h]; rfl
  exact ⟨twp, (if_pos starts).trans (congrArg (fun d => { startTime u with dev := d }) hrec), bus⟩

theorem portsStart_of_silent {s t : State} (h : answers t.dev = false) : portsStart s t = t :=
  if_neg (by simp [h])

theorem wipeEnd_of_unlocked {s : State} (h : s.dev.sys.step = .wipe) (hl : s.dev.clk.pllLock = false) :
    exec .wipeEnd s = .next { s with dev := { s.dev with sys := { s.dev.sys with step := .waitPll } } } := by
  have waits : wipeEnds s = s.onDev fun d => { d with sys := { d.sys with step := .waitPll } } := by simp [wipeEnds, h, hl]
  exact congrArg Host.Outcome.next ((congrArg (portsStart s) waits).trans (portsStart_of_silent rfl))

theorem wipeEnd_of_locked {s : State} (h : s.dev.sys.step = .wipe) (hl : s.dev.clk.pllLock = true) :
    ∃ twp, exec .wipeEnd s = .next { s with
      tm := { TimeBase.reset with running := true, lclk := true }
      dev := { s.dev with
        sys := { s.dev.sys with step := .recovery, pfailAt4 := !s.dev.pins.pfailN }
        twp := twp
        draws := s.dev.draws + 1 } } ∧ RecoversBus s.dev twp := by
  have ends : wipeEnds s = startTime s := by simp [wipeEnds, h, hl]
  obtain ⟨twp, hports, bus⟩ := portsStart_startTime (u := s) (show answers s.dev = false by simp [answers, h])
  exact ⟨twp, congrArg Host.Outcome.next ((congrArg (portsStart s) ends).trans hports), bus⟩

/-- The clocks as PLL0 locks (R49). -/
def clocked (d : Device) : Device := { d with
  pins := { d.pins with refclk := true }
  pm := { d.pm with clockLoss := false }
  clk := { d.clk with
    pllLock := true, refOk := true, roscOnly := false, qclk := bankFill 4 true, lclkOn := true, eclkOn := true, sclkOn := true } }

theorem pllLocks_of_trying {s : State} (hl : s.dev.clk.pllLock = false) (ht : s.dev.clk.pllTrying = true)
    (h : s.dev.sys.step ≠ .held) (hf : s.dev.sys.step ≠ .filter) :
    pllLocks s = if s.dev.sys.step = .waitPll then startTime (s.onDev clocked) else s.onDev clocked :=
  if_neg (by simp [hl, ht, h, hf])

theorem pll0Lock_of_waiting {s : State} (hl : s.dev.clk.pllLock = false) (ht : s.dev.clk.pllTrying = true)
    (h : s.dev.sys.step = .waitPll) : ∃ twp, exec .pll0Lock s = .next { s with
      tm := { TimeBase.reset with running := true, lclk := true }
      dev := { clocked s.dev with
        sys := { s.dev.sys with step := .recovery, pfailAt4 := !s.dev.pins.pfailN }
        twp := twp
        draws := s.dev.draws + 1 } } ∧ RecoversBus s.dev twp := by
  have locks := (pllLocks_of_trying hl ht (by simp [h]) (by simp [h])).trans (if_pos h)
  obtain ⟨twp, hports, bus⟩ := portsStart_startTime (u := s.onDev clocked) (show answers s.dev = false by simp [answers, h])
  exact ⟨twp, congrArg Host.Outcome.next ((congrArg (portsStart s) locks).trans hports), bus⟩

theorem pll0Lock_of_wiping {s : State} (hl : s.dev.clk.pllLock = false) (ht : s.dev.clk.pllTrying = true)
    (h : s.dev.sys.step = .wipe) : exec .pll0Lock s = .next (s.onDev clocked) := by
  have locks := (pllLocks_of_trying hl ht (by simp [h]) (by simp [h])).trans (if_neg (by simp [h]))
  have silent : answers (s.onDev clocked).dev = false := by simp [answers, clocked, h]
  exact congrArg Host.Outcome.next ((congrArg (portsStart s) locks).trans (portsStart_of_silent silent))

theorem pllLockTimeout_of_late {s : State} (h : s.dev.sys.step = .wipe ∨ s.dev.sys.step = .waitPll)
    (hl : s.dev.clk.pllLock = false) (hn : s.dev.sys.lockLate = false) : exec .pllLockTimeout s = .next { s with dev := { s.dev with
      sys := { s.dev.sys with lockLate := true, cause := setBit s.dev.sys.cause 3 } } } :=
  next_of_dev (if_pos ⟨h, by simp [hl], by simp [hn]⟩)

/-- What held step 1 ends: the filter runs once nothing else holds it (R34). -/
theorem releaseFilter_eq (d : Device) : releaseFilter d = { d with sys := { d.sys with
    step := if d.sys.step = .held then firstStep d.pins else d.sys.step } } := by
  unfold releaseFilter
  split <;> rfl

theorem supplyRelease_eq (s : State) : exec .supplyRelease s = .next { s with dev := { s.dev with
    pins := { s.dev.pins with supplyOk := true }
    sys := { s.dev.sys with step :=
      if s.dev.sys.step = .held then (if s.dev.pins.rstN then .filter else .held) else s.dev.sys.step } } } :=
  next_of_dev (releaseFilter_eq _)

theorem rstNRise_eq (s : State) : exec .rstNRise s = .next { s with dev := { s.dev with
    pins := { s.dev.pins with rstN := true }
    sys := { s.dev.sys with step :=
      if s.dev.sys.step = .held then (if s.dev.pins.supplyOk then .filter else .held) else s.dev.sys.step } } } := by
  have rises := releaseFilter_eq { s.dev with pins := { s.dev.pins with rstN := true } }
  simp only [firstStep, Bool.and_true] at rises
  exact next_of_dev rises

/-! ### Whole apply (R53, R89, R90) -/

/-- What a whole apply leaves alone but where it says so: SYS, and the structure that it puts into force. -/
def inForce (d : Device) : Sys × Structure := (d.sys, d.str)

theorem sys_of_inForce {d : Device} {x : Sys × Structure} (h : inForce d = x) : d.sys = x.1 := (congrArg Prod.fst h :)

theorem str_of_inForce {d : Device} {x : Sys × Structure} (h : inForce d = x) : d.str = x.2 := (congrArg Prod.snd h :)

theorem inForce_of_spare {d t : Device} (h : spare d = spare t) : inForce d = inForce t :=
  (congrArg (fun x => (x.1, x.2.2.2.1)) h :)

theorem spare_loadRail (tm : TimeBase) (r : Fin 64) (was : Option RailSect) (b : RailSect) (d : Device) :
    spare (loadRail tm r was b d) = spare d := by
  unfold loadRail
  simp

theorem inForce_loadProtect (d : Device) : inForce (loadProtect d) = inForce d := by
  unfold loadProtect
  dsimp only
  split <;> rfl

theorem inForce_applyPeriph (new : Option (InForce PeriphSect)) (d : Device) :
    inForce (applyPeriph new d) = (d.sys, { d.str with periph := new }) := by
  unfold applyPeriph
  dsimp only
  split <;> rfl

theorem inForce_applyRing (tm : TimeBase) (x : DeviceSect) (d : Device) : inForce (applyRing tm x d) = inForce d := by
  unfold applyRing
  dsimp only
  split
  · rfl
  · split
    · rfl
    · exact inForce_of_spare (spare_raiseRing ..)

theorem inForce_of_image (d : Device) (img : Image) : inForce { d with img := img } = inForce d := rfl

theorem inForce_updateLoad (d : Device) : inForce (updateLoad d) = inForce d := inForce_of_image d _

theorem inForce_of_registers (d : Device) (hs : Hearth) (pp : Ports) (pwr : Power) (tbi : Tbi) (lanes : Bank 64 Lane) :
    inForce { d with hs := hs, pp := pp, pwr := pwr, tbi := tbi, lanes := lanes } = inForce d := rfl

/-- The structure that is put into force is in force, and SYS is left alone. -/
theorem inForce_putStructure (tm : TimeBase) (str : Structure) (d : Device) : inForce (putStructure tm str d) = (d.sys, str) := by
  unfold putStructure
  extract_lets d1 d2 d3 d4 _ _ _ _ d5 d6
  have h3 : inForce d3 = (d.sys, str) := by
    refine foldl_keeps inForce (fun u r => ?_) _ d2
    split
    · exact inForce_of_spare (spare_loadRail ..)
    · rfl
  clear_value d3
  have hprotect : inForce (loadProtect d3) = (d.sys, str) := (inForce_loadProtect d3).trans h3
  have h4 : inForce d4 = (d.sys, str) := by
    obtain ⟨hsys, hstr⟩ := Prod.mk.inj hprotect
    rw [inForce_applyPeriph, hsys, hstr]
  clear_value d4
  have h5 : inForce d5 = inForce d4 := inForce_of_registers ..
  clear_value d5
  have h6 : inForce d6 = inForce d5 :=
    (foldl_keeps inForce (fun u n => inForce_of_spare (spare_laneDown n u)) _ _).trans (inForce_applyRing tm _ d5)
  clear_value d6
  have domains : inForce ((List.finRange 4).foldl (fun d q => settleDomain q d) d6) = inForce d6 :=
    foldl_keeps inForce (fun u q => inForce_of_spare (spare_settleDomain q u)) _ d6
  exact (inForce_updateLoad _).trans (domains.trans (h6.trans (h5.trans h4)))

theorem startTraining_img (tm : TimeBase) (n : Fin 64) (d : Device) : (startTraining tm n d).img = d.img := by
  unfold startTraining
  split <;> rfl

theorem trainLanes_img (tm : TimeBase) (d : Device) : (trainLanes tm d).img = d.img :=
  foldl_keeps Device.img (fun u n => startTraining_img tm n u) _ d

theorem trainLanes_inForce (tm : TimeBase) (d : Device) : inForce (trainLanes tm d) = inForce d :=
  foldl_keeps inForce (fun u n => inForce_of_spare (spare_startTraining tm n u)) _ d

/-- Step 7 begins. -/
def bringsUp (tm : TimeBase) (d : Device) : Device := trainLanes tm { d with sys := { d.sys with step := .bringUp } }

theorem inForce_bringsUp (tm : TimeBase) (d : Device) :
    inForce (bringsUp tm d) = ({ d.sys with step := .bringUp }, d.str) := trainLanes_inForce tm _

theorem bringsUp_img (tm : TimeBase) (d : Device) : (bringsUp tm d).img = d.img := trainLanes_img tm _

/-- Without a slot that runs, the strap structure is put into force (R53). -/
theorem wholeApply_of_none {d : Device} (h : d.sys.step = .apply) (hr : d.img.running = none) (tm : TimeBase) (nv : NonVol) :
    wholeApply tm nv d = bringsUp tm (putStructure tm (strapStructure d.sys.strap)
      { d with sys := { d.sys with strapMode := true }, img := { d.img with running := none } }) := by
  unfold wholeApply
  rw [if_neg (not_not_intro h), hr]
  dsimp only [bringsUp]

/-- What step 6 notes of a slot's image that it has put into force: its report, where the sections come from, and its record. -/
def appliedImage (tm : TimeBase) (s : Fin 2) (b : Billet) (d : Device) : Device :=
  let d := setReport 1 b.clamps d
  let d := { d with
    img := { d.img with
      applyCount := 1
      loadTrial := if d.img.trialOpen then d.img.loadRun else 0
      railSrc := bankOf fun r => if (d.sect r).isSome then ⟨BitVec.ofNat 2 (s.val + 1), false, 0⟩ else ⟨0, false, 0⟩ }
    sys := { d.sys with slotApplied := BitVec.ofNat 2 (s.val + 1), clamped := !b.clamps.isEmpty } }
  raiseImage tm 0 s 0 0 .ok d

theorem inForce_appliedImage (tm : TimeBase) (s : Fin 2) (b : Billet) (d : Device) : inForce (appliedImage tm s b d) =
    ({ d.sys with slotApplied := BitVec.ofNat 2 (s.val + 1), clamped := !b.clamps.isEmpty }, d.str) := rfl

theorem appliedImage_applyCount (tm : TimeBase) (s : Fin 2) (b : Billet) (d : Device) : (appliedImage tm s b d).img.applyCount = 1 :=
  rfl

/-- A slot's image is put into force, with its report and its record (R90). -/
theorem wholeApply_of_image {d : Device} {slot : Fin 2} {b : Billet} (h : d.sys.step = .apply) (hr : d.img.running = some slot)
    {nv : NonVol} (hb : readSlot d.draws (withImageData nv d) d.ocs slot = .ok b) (tm : TimeBase) :
    wholeApply tm nv d = bringsUp tm (appliedImage tm slot b (putStructure tm b.str d)) := by
  unfold wholeApply
  rw [if_neg (not_not_intro h), hr]
  simp only [hb]
  rfl

theorem wholeApplyEnd_of_none {s : State} (h : s.dev.sys.step = .apply) (hr : s.dev.img.running = none) :
    ∃ t, exec .wholeApplyEnd s = .next t ∧
    t.pending = s.pending ∧ t.tm = s.tm ∧ t.nv = s.nv ∧ t.dev.sys.step = .bringUp ∧ t.dev.sys.strapMode = true ∧
    t.dev.str = strapStructure s.dev.sys.strap := by
  have begun : inForce (wholeApply s.tm s.nv s.dev) =
      ({ s.dev.sys with strapMode := true, step := .bringUp }, strapStructure s.dev.sys.strap) := by
    have put := inForce_putStructure s.tm (strapStructure s.dev.sys.strap)
      { s.dev with sys := { s.dev.sys with strapMode := true }, img := { s.dev.img with running := none } }
    rw [wholeApply_of_none h hr, inForce_bringsUp, sys_of_inForce put, str_of_inForce put]
  exact ⟨_, rfl, rfl, rfl, rfl, congrArg Sys.step (sys_of_inForce begun), congrArg Sys.strapMode (sys_of_inForce begun),
    str_of_inForce begun⟩

theorem wholeApplyEnd_of_image {s : State} {slot : Fin 2} {b : Billet} (h : s.dev.sys.step = .apply)
    (hr : s.dev.img.running = some slot) (hb : readSlot s.dev.draws (withImageData s.nv s.dev) s.dev.ocs slot = .ok b) :
    ∃ t, exec .wholeApplyEnd s = .next t ∧
    t.pending = s.pending ∧ t.tm = s.tm ∧ t.nv = s.nv ∧ t.dev.sys.step = .bringUp ∧
    t.dev.sys.slotApplied.toNat = slot.val + 1 ∧ t.dev.str = b.str ∧ t.dev.img.applyCount = 1 := by
  have applied := inForce_appliedImage s.tm slot b (putStructure s.tm b.str s.dev)
  have begun : inForce (wholeApply s.tm s.nv s.dev) = ({ s.dev.sys with
      slotApplied := BitVec.ofNat 2 (slot.val + 1), clamped := !b.clamps.isEmpty, step := .bringUp }, b.str) := by
    have put := inForce_putStructure s.tm b.str s.dev
    rw [wholeApply_of_image h hr hb, inForce_bringsUp, sys_of_inForce applied, str_of_inForce applied, sys_of_inForce put,
      str_of_inForce put]
  have number : ∀ k : Fin 2, (BitVec.ofNat 2 (k.val + 1)).toNat = k.val + 1 := by decide
  have counted : (wholeApply s.tm s.nv s.dev).img.applyCount = 1 := by
    rw [wholeApply_of_image h hr hb, bringsUp_img, appliedImage_applyCount]
  exact ⟨_, rfl, rfl, rfl, rfl, congrArg Sys.step (sys_of_inForce begun),
    (congrArg (·.slotApplied.toNat) (sys_of_inForce begun)).trans (number slot), str_of_inForce begun, counted⟩

/-! ### READY (step 9) -/

theorem settleBus_hsp (b : Fin 2) (d : Device) : (settleBus b d).hsp = d.hsp := by
  unfold settleBus autoRecover
  dsimp only
  split <;> rfl

/-- What the last step of a start-up sets, which what follows it leaves alone: the step, its TIME and the count of stages. -/
def readiness (d : Device) : StartStep × Nat × Nat := (d.sys.step, d.sys.readyAt, d.sys.stages)

theorem readiness_of_spare {d t : Device} (h : spare d = spare t) : readiness d = readiness t :=
  (congrArg (fun x => (x.1.step, x.1.readyAt, x.1.stages)) h :)

theorem setBit_getLsbD {n i : Nat} (h : i < n) (x : BitVec n) : (setBit x i).getLsbD i = true := by
  rw [setBit, BitVec.getLsbD_or, BitVec.getLsbD_ofNat, Nat.testBit_two_pow_self, decide_eq_true h, Bool.and_self, Bool.or_true]

theorem reachReady_of_bringUp {d : Device} (h : d.sys.step = .bringUp) (tm : TimeBase) :
    readiness (reachReady tm d) = (.ready, tm.time.toNat,
      ((List.finRange 512).filter fun g => (d.slot g).state ≠ .absent).length) ∧
    (reachReady tm d).hsp.evt.getLsbD 3 = true := by
  unfold reachReady
  rw [if_neg (not_not_intro h)]
  extract_lets found d1 _ d3 d4 d5 d6 _ d7 d8
  have hfound : found = (List.finRange 512).filter fun g => (d.slot g).state ≠ .absent := rfl
  clear_value found d1
  rw [← hfound]
  have h3 : readiness d3 = (.ready, tm.time.toNat, found.length) := rfl
  have h4 : readiness d4 = readiness d3 := by
    refine foldl_keeps readiness (fun u r => ?_) _ d3
    split <;> rfl
  have h5 : readiness d5 = readiness d4 := by
    clear_value d4
    unfold d5
    split
    · rfl
    · refine foldl_keeps readiness (fun u r => ?_) _ d4
      split
      · split <;> rfl
      · rfl
  have h6 : readiness d6 = readiness d5 := by
    refine foldl_keeps readiness (fun u n => ?_) _ d5
    split
    · exact readiness_of_spare (spare_laneLoss tm n u)
    · rfl
  clear_value d6
  have h8 : readiness d8 = readiness d6 := readiness_of_spare ((spare_settleBus 1 _).trans (spare_settleBus 0 d7))
  have evt : d8.hsp.evt.getLsbD 3 = true := by
    rw [show d8.hsp = d7.hsp from (settleBus_hsp 1 _).trans (settleBus_hsp 0 d7)]
    exact setBit_getLsbD (by decide) _
  have ready := h8.trans (h6.trans (h5.trans (h4.trans h3)))
  split <;> exact ⟨ready, evt⟩

theorem ready_of_bringUp {s : State} (h : s.dev.sys.step = .bringUp) : ∃ t, exec .ready s = .next t ∧
    t.pending = s.pending ∧ t.tm = s.tm ∧ t.nv = s.nv ∧ t.dev.sys.step = .ready ∧ t.dev.sys.readyAt = s.tm.time.toNat ∧
    t.dev.hsp.evt.getLsbD 3 = true ∧
    t.dev.sys.stages = ((List.finRange 512).filter fun g => (s.dev.slot g).state ≠ .absent).length := by
  obtain ⟨ready, evt⟩ := reachReady_of_bringUp h s.tm
  obtain ⟨hstep, hrest⟩ := Prod.mk.inj ready
  obtain ⟨hat, hstages⟩ := Prod.mk.inj hrest
  exact ⟨_, rfl, rfl, rfl, rfl, hstep, hat, evt, hstages⟩

/-- Settles O3: each step's command in the step that it ends, in the order of Table 2-6, and then the ends of the hold. -/
theorem startupSteps : Obligations.StartupSteps :=
  ⟨fun _ => startupFilterEnd_of_filter, fun _ => wipeEnd_of_unlocked, fun _ => wipeEnd_of_locked, fun _ => pll0Lock_of_waiting,
    fun _ => pll0Lock_of_wiping, fun _ => rfl, fun _ => pllLockTimeout_of_late, fun _ _ => storeRecoveryEnd_of_shut,
    fun _ => storeRecoveryEnd_of_open, fun _ => wholeApplyEnd_of_none, fun _ _ _ => wholeApplyEnd_of_image,
    fun _ => ready_of_bringUp, supplyRelease_eq, rstNRise_eq⟩

end Sys2Proof.Machine
end

section
/-! SUPPORT. Writes with a row of their own that reach their register (R45, R48, R317), and the commands of IMG.CMD among them (R77,
R85): refused without the privilege or beside another command, and else carried out. -/

namespace Sys2Proof.Machine

/-! ### A write that reaches its register -/

/-- The access of such a write begins and ends as any other; between the two its row says what happens. -/
theorem rowWrite_of_reaches {src : Src} {win : Window} {s : State} (h : Reaches src win s) (a : Addr) (w : Word) (f : WordWrite) :
    rowWrite src a w win f s = (f (rowStarts src a s)).2.onDev (rowEnds src a (f (rowStarts src a s)).1) :=
  rowWrite_of_taken h.1 h.2.1 h.2.2

/-- A source whose write reaches a window that answers at READY reaches the registers (R48). -/
theorem may_none_of_reaches {src : Src} {s : State} (h : Reaches src .running s) : may s.dev src .none = true := by
  obtain ⟨taken, opened, -⟩ := h
  cases src with
  | sup => rfl
  | port p =>
    have hready : s.dev.sys.step = .ready := of_decide_eq_false opened |> not_not.mp
    have hreach : reaches s.dev (.port p) = true := (Bool.and_eq_true_iff.mp taken).1
    simp [may, Level.rank, hready, hreach]

/-- What a write leaves is told by its effect on the device in which it has begun. -/
theorem wrote_congr {src : Src} {a : Addr} {f g : Device → Device} {s : State}
    (h : f (rowStarts src a s).dev = g (rowStarts src a s).dev) (st : Byte) : Wrote src a st f s = Wrote src a st g s :=
  congrArg (fun d => State.onDev { rowStarts src a s with dev := d } (rowEnds src a st)) h

/-- A write leaves time, the memories and the queue alone. -/
theorem wrote_eq (src : Src) (a : Addr) (st : Byte) (f : Device → Device) (s : State) :
    Wrote src a st f s = { s with dev := rowEnds src a st (f (rowStarts src a s).dev) } := by
  cases src <;> rfl

@[simp] theorem rowEnds_img (src : Src) (a : Addr) (st : Byte) (d : Device) : (rowEnds src a st d).img = d.img := by
  obtain ⟨_, _, _, _, h, -⟩ := rowEnds_sameButAccess src a st d; rw [h]
@[simp] theorem rowEnds_str (src : Src) (a : Addr) (st : Byte) (d : Device) : (rowEnds src a st d).str = d.str := by
  obtain ⟨_, _, _, _, h, -⟩ := rowEnds_sameButAccess src a st d; rw [h]
@[simp] theorem rowEnds_rails (src : Src) (a : Addr) (st : Byte) (d : Device) : (rowEnds src a st d).rails = d.rails := by
  obtain ⟨_, _, _, _, h, -⟩ := rowEnds_sameButAccess src a st d; rw [h]
@[simp] theorem rowEnds_er (src : Src) (a : Addr) (st : Byte) (d : Device) : (rowEnds src a st d).er = d.er := by
  obtain ⟨_, _, _, _, h, -⟩ := rowEnds_sameButAccess src a st d; rw [h]

/-! ### The privilege of the loader (Table 14-1) -/

theorem commissions_iff {src : Src} {d : Device} : commissions src d = true ↔ MayChange d src := Bool.and_eq_true_iff

theorem mayChange_rowStarts (src k : Src) (a : Addr) (s : State) : MayChange (rowStarts src a s).dev k ↔ MayChange s.dev k := by
  simp [MayChange]

theorem writeState_of_denied {ok : Device → Bool} {f : State → State} {s : State} (h : ok s.dev ≠ true) :
    writeState ok f s = (stDenied, s) := if_neg h

theorem writeState_of_allowed {ok : Device → Bool} {f : State → State} {s : State} (h : ok s.dev = true) :
    writeState ok f s = (0, f s) := if_pos h

/-! ### IMG.CMD (R77, R85) -/

theorem imgCommand_of_denied {src : Src} {d : Device} (hr : may d src .none = true) (h : ¬ MayChange d src) (f : Device → Device) :
    imgCommand src f d = { d with img := { d.img with result := ImgResult.denied.code } } := by
  have h' : (!may d src .engineer || !lifeAllows d) = true := by
    rw [← Bool.not_and, Bool.not_eq_true']
    exact Bool.eq_false_iff.mpr fun both => h (commissions_iff.mp both)
  simp [imgCommand, hr, h']

theorem imgCommand_of_allowed {src : Src} {d : Device} (hr : may d src .none = true) (h : MayChange d src) (f : Device → Device) :
    imgCommand src f d = if d.img.busy then { d with img := { d.img with result := ImgResult.busy.code } } else f d := by
  obtain ⟨level, life⟩ := h
  simp [imgCommand, hr, level, life]

section
variable {src : Src} {s : State} (hr : Reaches src .running s)
include hr

/-- A command of IMG.CMD that reaches its register. -/
theorem imgRow_eq (w : Word) (f : TimeBase → NonVol → Device → Device) :
    rowWrite src 0x0800 w .running (actImg src f) s =
      Wrote src 0x0800 (if commissions src s.dev then 0 else stDenied) (imgCommand src (f s.tm s.nv)) s := by
  rw [rowWrite_of_reaches hr]
  simp [actImg, writeCommand, Wrote, commissions]

theorem imgRow_of_denied (h : ¬ MayChange s.dev src) (w : Word) (f : TimeBase → NonVol → Device → Device) :
    rowWrite src 0x0800 w .running (actImg src f) s =
      Wrote src 0x0800 stDenied (fun d => { d with img := { d.img with result := ImgResult.denied.code } }) s := by
  rw [imgRow_eq hr, if_neg (mt commissions_iff.mp h)]
  refine wrote_congr (imgCommand_of_denied ?_ (mt (mayChange_rowStarts ..).mp h) _) _
  simpa using may_none_of_reaches hr

theorem imgRow_of_allowed (h : MayChange s.dev src) (w : Word) (f : TimeBase → NonVol → Device → Device) :
    rowWrite src 0x0800 w .running (actImg src f) s = Wrote src 0x0800 0 (fun d =>
      if s.dev.img.busy then { d with img := { d.img with result := ImgResult.busy.code } } else f s.tm s.nv d) s := by
  rw [imgRow_eq hr, if_pos (commissions_iff.mpr h)]
  refine wrote_congr ((imgCommand_of_allowed ?_ ((mayChange_rowStarts ..).mpr h) _).trans ?_) _
  · simpa using may_none_of_reaches hr
  · rw [rowStarts_img]

theorem imgRow_of_busy (h : MayChange s.dev src) (hb : s.dev.img.busy = true) (w : Word)
    (f : TimeBase → NonVol → Device → Device) :
    rowWrite src 0x0800 w .running (actImg src f) s =
      Wrote src 0x0800 0 (fun d => { d with img := { d.img with result := ImgResult.busy.code } }) s := by
  simp only [imgRow_of_allowed hr h, hb, if_true]

end

/-- A command that is taken up acts on the device in which its write has begun. -/
theorem imgRow_of_free {src : Src} {s : State} (h : ImgFree src s) (w : Word) (f : TimeBase → NonVol → Device → Device) :
    rowWrite src 0x0800 w .running (actImg src f) s = Wrote src 0x0800 0 (f s.tm s.nv) s := by
  obtain ⟨hr, hm, hb⟩ := h
  simp only [imgRow_of_allowed hr hm, hb, Bool.false_eq_true, if_false]

/-- Settles O8: every command of the list is one write of IMG.CMD, and that turns it away before the command itself is looked at. -/
theorem imageCommandsRefused : Obligations.ImageCommandsRefused := by
  intro src slot kind index op s hr hop c hc
  have row : ∃ w f, exec c s = .next (rowWrite src 0x0800 w .running (actImg src f) s) := by
    simp only [List.mem_cons, List.not_mem_nil, or_false] at hc
    rcases hc with rfl | rfl | rfl | rfl | rfl | rfl | rfl
    on_goal 7 => exact ⟨_, _, congrArg Host.Outcome.next (if_neg hop)⟩
    all_goals exact ⟨_, _, rfl⟩
  obtain ⟨w, f, he⟩ := row
  exact ⟨fun h => he.trans (congrArg _ (imgRow_of_denied hr h w f)), fun h hb => he.trans (congrArg _ (imgRow_of_busy hr h hb w f))⟩

end Sys2Proof.Machine
end

section
/-! SUPPORT. The image loader's commands that start or end their work (R75 to R79, Table 3-14): what each does with a device in which no
other is in progress. -/

namespace Sys2Proof.Machine

/-! ### What the beginning of a write leaves of the loader's view -/

@[simp] theorem rowStarts_slotView (src : Src) (a : Addr) (s : State) (k : Fin 2) :
    slotView (rowStarts src a s).dev k = slotView s.dev k := by
  simp [slotView]

@[simp] theorem rowStarts_withImageData (src : Src) (a : Addr) (s : State) (nv : NonVol) :
    withImageData nv (rowStarts src a s).dev = withImageData nv s.dev := by
  simp [withImageData]

@[simp] theorem rowStarts_slotImage (src : Src) (a : Addr) (s : State) (nv : NonVol) (k : Fin 2) :
    slotImage nv (rowStarts src a s).dev k = slotImage nv s.dev k := by
  simp [slotImage]

@[simp] theorem rowStarts_slotNoLive (src : Src) (a : Addr) (s : State) (nv : NonVol) (k : Fin 2) :
    slotNoLive nv (rowStarts src a s).dev k = slotNoLive nv s.dev k := by
  simp [slotNoLive]

@[simp] theorem rowStarts_dataLost (src : Src) (a : Addr) (s : State) (k : Fin 2) :
    dataLost (rowStarts src a s).dev k = dataLost s.dev k := by
  simp [dataLost]

@[simp] theorem rowStarts_appliedSlot (src : Src) (a : Addr) (s : State) :
    appliedSlot (rowStarts src a s).dev = appliedSlot s.dev := by
  simp [appliedSlot]

/-! ### The rows, told by what their command does -/

/-- A command that does with the device in which its write has begun what `g` does. -/
theorem imgRow_as {src : Src} {s : State} (h : ImgFree src s) (w : Word) {f : TimeBase → NonVol → Device → Device}
    {g : Device → Device} (he : f s.tm s.nv (rowStarts src 0x0800 s).dev = g (rowStarts src 0x0800 s).dev) :
    (.next (rowWrite src 0x0800 w .running (actImg src f) s) : Answer) = .next (Wrote src 0x0800 0 g s) :=
  congrArg Host.Outcome.next ((imgRow_of_free h w f).trans (wrote_congr he 0))

/-- A command that makes `t` of the device in which its write has begun. -/
theorem imgRow_to {src : Src} {s : State} (h : ImgFree src s) (w : Word) {f : TimeBase → NonVol → Device → Device}
    {t : Device} (he : f s.tm s.nv (rowStarts src 0x0800 s).dev = t) :
    (.next (rowWrite src 0x0800 w .running (actImg src f) s) : Answer) = .next { s with dev := rowEnds src 0x0800 0 t } :=
  congrArg Host.Outcome.next ((imgRow_of_free h w f).trans ((wrote_eq ..).trans (by rw [he])))

/-! ### The commands -/

theorem eraseImage_of_running {d : Device} {slot : Fin 2} (h : d.img.running = some slot) (nv : NonVol) :
    eraseImage nv slot d = closeImg .state d := by
  simp [eraseImage, h]

theorem eraseImage_of_unused {d : Device} {slot : Fin 2} (hr : d.img.running ≠ some slot) (hp : (slotView d slot).phase ≠ .confirmed)
    (hf : d.ocs.pfail = false) (hw : regionWritable d.ocs (imageRegion slot) = true) (nv : NonVol) :
    ∃ ocs, eraseImage nv slot d = { d with
      ocs := ocs, img := { d.img with busy := true, cmd := some (.erase slot), storeWait := true } } := by
  simp only [eraseImage, hr, hp, hf, hw, decide_false, Bool.false_and, Bool.or_false, Bool.not_true, Bool.false_eq_true, if_false]
  obtain ⟨ocs, pumped, -⟩ := storePump_eq nv (addJob _ _)
  exact ⟨ocs, pumped⟩

theorem sealImage_of_empty {d : Device} {slot : Fin 2} (hp : (slotView d slot).phase = .empty)
    (hw : regionWritable d.ocs (imageRegion slot) = true) :
    sealImage slot d = if dataLost d slot then closeImg .store d else startCheck (.seal slot) d := by
  simp [sealImage, hp, hw]

theorem openImage_of_written {d : Device} {slot : Fin 2} (hs : d.sys.strapMode = false) (hp : (slotView d slot).phase = .written)
    (hw : regionWritable d.ocs (imageRegion slot) = true) : openImage slot d = startCheck (.liveOpen slot) d := by
  simp [openImage, hs, hp, hw]

/-- INDEX of a RAIL section names its rail. -/
theorem fin?_railIndex (r : Fin 64) : fin? 64 (BitVec.ofNat 8 r.val).toNat = some r := by
  have : r.val % 256 = r.val := Nat.mod_eq_of_lt (by omega)
  simp [fin?, this]

theorem applySection_of_rail {d : Device} {r : Fin 64} {nv : NonVol} (ho : d.img.trialOpen = true)
    (hs : (bankGet d.str.rails r).isSome = true) (hl : slotNoLive nv d d.img.trialSlot = false) :
    applySection nv 0x10 (BitVec.ofNat 8 r.val) d = startCheck (.apply 0x10 (BitVec.ofNat 8 r.val)) d := by
  have held : inForceHolds d 0x10 (BitVec.ofNat 8 r.val) = true := by simp only [inForceHolds, if_true, fin?_railIndex, hs]
  have live : wholeOnly 0x10 = false := rfl
  simp only [applySection, ho, held, live, hl, Bool.not_true, Bool.and_false, Bool.false_eq_true, if_false]

theorem applySection_of_wholeOnly {d : Device} {kind : Byte} (ho : d.img.trialOpen = true) (hk : wholeOnly kind = true) (nv : NonVol)
    (index : Byte) : applySection nv kind index d = closeImg .startupOnly d := by
  simp [applySection, ho, hk]

theorem wholeOnly_iff {kind : Byte} : wholeOnly kind = true ↔ kind = 0x01 ∨ kind = 0x02 ∨ kind = 0x20 := by
  simp [wholeOnly, or_assoc]

theorem imgErase_starts {src : Src} {slot : Fin 2} {s : State} (h : ImgFree src s) (hr : s.dev.img.running ≠ some slot)
    (hp : (slotView s.dev slot).phase ≠ .confirmed) (hf : s.dev.ocs.pfail = false)
    (hw : regionWritable s.dev.ocs (imageRegion slot) = true) :
    ∃ d, exec (.imgErase src slot) s = .next { s with dev := d } ∧
      d.img = { s.dev.img with busy := true, cmd := some (.erase slot), storeWait := true } ∧ d.str = s.dev.str ∧
      d.rails = s.dev.rails ∧ d.er = s.dev.er := by
  obtain ⟨ocs, erases⟩ := eraseImage_of_unused (d := (rowStarts src 0x0800 s).dev) (slot := slot)
    (by simpa using hr) (by simpa using hp) (by simpa using hf) (by simpa using hw) s.nv
  exact ⟨_, imgRow_to h _ erases, by simp⟩

/-- Settles O9, command by command: each is one write of IMG.CMD, and what the command does with the device is said above. -/
theorem imageCommandsStart : Obligations.ImageCommandsStart := by
  refine ⟨fun src slot s h => ⟨fun hr => ?_, imgErase_starts h⟩, fun src slot s h hp hw => ?_, fun src slot s h hs hp hw => ?_,
    fun src r s h ho hs hl => ?_, fun src op s h hop => ?_, fun src kind index s h ho hk => ?_⟩
  · exact imgRow_as h _ (eraseImage_of_running (by simpa using hr) _)
  · refine imgRow_as h _ ((sealImage_of_empty (by simpa using hp) (by simpa using hw)).trans ?_)
    rw [rowStarts_dataLost]
    split <;> rfl
  · exact imgRow_as h _ (openImage_of_written (by simpa using hs) (by simpa using hp) (by simpa using hw))
  · exact imgRow_as h _ (applySection_of_rail (by simpa using ho) (by simpa using hs) (by simpa using hl))
  · exact (congrArg Host.Outcome.next (if_neg hop)).trans (imgRow_as h _ rfl)
  · exact imgRow_as h _ (applySection_of_wholeOnly (by simpa using ho) (wholeOnly_iff.mpr hk) _ _)

end Sys2Proof.Machine
end

section
/-! SUPPORT. The ends of the loader's commands: CONFIRM and ROLLBACK of a trial (R87, R88), the words of IMG.DATA (R77), and the ends
of the checks (R60, R77, R78, R92). -/

namespace Sys2Proof.Machine

/-! ### Slots and commands -/

/-- The device with another view of a slot, and with the store as the record of it leaves that. -/
def shown (slot : Fin 2) (v : SlotView) (ocs : Store) (d : Device) : Device :=
  { d with ocs := ocs, img := { d.img with view := bankSet d.img.view slot v } }

@[simp] theorem shown_slotView (slot : Fin 2) (v : SlotView) (ocs : Store) (d : Device) : slotView (shown slot v ocs d) slot = v :=
  bankGet_bankSet_same ..

/-- A slot takes a state: its view shows it, and its record goes to the store (R75). -/
theorem setImageSlot_eq (nv : NonVol) (slot : Fin 2) (p : SlotPhase) (gen : Word) (len : Nat) (d : Device) :
    ∃ ocs, setImageSlot nv slot p gen len d = shown slot ⟨p, BitVec.ofNat 16 (ceilDiv len 1024), gen⟩ ocs d := by
  obtain ⟨ocs, pumped, -⟩ := storePump_eq nv (addJob _ _)
  exact ⟨ocs, pumped⟩

theorem moveImageSlot_eq (nv : NonVol) (slot : Fin 2) (p : SlotPhase) (d : Device) :
    ∃ v ocs, moveImageSlot nv slot p d = shown slot v ocs d ∧ (slotView (shown slot v ocs d) slot).phase = p := by
  obtain ⟨ocs, moved⟩ := setImageSlot_eq nv slot p (slotView d slot).gen ((slotView d slot).lenKb.toNat * 1024) d
  exact ⟨_, ocs, moved, congrArg SlotView.phase (shown_slotView ..)⟩

@[simp] theorem closeImg_slotView (res : ImgResult) (d : Device) (k : Fin 2) : slotView (closeImg res d) k = slotView d k := rfl

@[simp] theorem raiseImage_slotView (tm : TimeBase) (op : Nat) (slot : Fin 2) (kind index : Byte) (res : ImgResult) (d : Device)
    (k : Fin 2) : slotView (raiseImage tm op slot kind index res d) k = slotView d k := rfl

/-- Without a life-cycle change that waits, a command ends and nothing more. -/
theorem endImg_of_none {d : Device} (h : d.img.lcAfter = none) (tm : TimeBase) (nv : NonVol) (res : ImgResult) :
    endImg tm nv res d = closeImg res d := by
  have : (closeImg res d).img.lcAfter.isSome = false := by rw [show (closeImg res d).img.lcAfter = none from h]; rfl
  simp [endImg, this]

/-- What the end of a trial, or of a check that passes, leaves: the slot in its new phase, the loader free with OK, and the structure in
force and the rails as they were. -/
structure SlotMoved (slot : Fin 2) (p : SlotPhase) (d t : Device) : Prop where
  str : t.str = d.str
  rails : t.rails = d.rails
  phase : (slotView t slot).phase = p
  result : t.img.result = ImgResult.ok.code
  busy : t.img.busy = false

/-- A command that is written moves the slot in the device that its access reaches; the access adds what every write leaves. -/
theorem SlotMoved.of_row {src : Src} {a : Addr} {s : State} {slot : Fin 2} {p : SlotPhase} {t : Device}
    (h : SlotMoved slot p (rowStarts src a s).dev t) (st : Byte) : SlotMoved slot p s.dev (rowEnds src a st t) where
  str := by simp [h.str]
  rails := by simp [h.rails]
  phase := by simpa [slotView] using h.phase
  result := by simp [h.result]
  busy := by simp [h.busy]

/-! ### CONFIRM (R87) -/

theorem confirmImage_of_failing {d : Device} {b : Billet} {nv : NonVol} (ho : d.img.trialOpen = true)
    (hb : slotImage nv d d.img.trialSlot = .ok b) (hl : liveDiffer b.str d.str = true) (tm : TimeBase) :
    confirmImage tm nv d = closeImg .unconfirmable d := by
  simp [confirmImage, ho, hb, hl]

theorem confirmImage_of_passing {d : Device} {b : Billet} {nv : NonVol} (ho : d.img.trialOpen = true)
    (hb : slotImage nv d d.img.trialSlot = .ok b) (hl : liveDiffer b.str d.str = false)
    (hw : regionWritable d.ocs (imageRegion d.img.trialSlot) = true) (tm : TimeBase) :
    SlotMoved d.img.trialSlot .confirmed d (confirmImage tm nv d) ∧ (confirmImage tm nv d).img.trialOpen = false ∧
      (confirmImage tm nv d).img.liveOrder = [] ∧ (confirmImage tm nv d).img.running = some d.img.trialSlot ∧
      (confirmImage tm nv d).img.restartPending = wholeDiffer b.str d.str := by
  obtain ⟨v, ocs, moved, phase⟩ := moveImageSlot_eq nv d.img.trialSlot .confirmed d
  simp only [confirmImage, ho, hb, hl, hw, moved, Bool.not_true, Bool.false_eq_true, if_false]
  exact ⟨⟨rfl, rfl, phase, rfl, rfl⟩, rfl, rfl, rfl, rfl⟩

/-! ### ROLLBACK (R88) -/

theorem finishRollback_moves {d : Device} (h : d.img.lcAfter = none) (tm : TimeBase) (nv : NonVol) :
    SlotMoved d.img.trialSlot .rejected d (finishRollback tm nv d) ∧ (finishRollback tm nv d).img.trialOpen = false ∧
      (finishRollback tm nv d).img.running = appliedSlot d := by
  obtain ⟨v, ocs, moved, phase⟩ := moveImageSlot_eq nv d.img.trialSlot .rejected d
  have alone : (shown d.img.trialSlot v ocs d).img.lcAfter = none := h
  simp only [finishRollback, moved, alone]
  exact ⟨⟨rfl, rfl, phase, rfl, rfl⟩, rfl, rfl⟩

/-- With no live apply nothing is put back, and the rollback is done at once. -/
theorem rollbackImage_of_unapplied {d : Device} (ho : d.img.trialOpen = true) (hl : d.img.liveOrder = []) (tm : TimeBase)
    (nv : NonVol) :
    rollbackImage tm nv d = finishRollback tm nv { d with img := { d.img with busy := true, cmd := some .rollback } } := by
  simp [rollbackImage, startRollback, ho, hl, rollOn]

theorem imgConfirm_confirms {src : Src} {b : Billet} {s : State} (h : ImgFree src s) (ho : s.dev.img.trialOpen = true)
    (hb : slotImage s.nv s.dev s.dev.img.trialSlot = .ok b) (hl : liveDiffer b.str s.dev.str = false)
    (hw : regionWritable s.dev.ocs (imageRegion s.dev.img.trialSlot) = true) :
    ∃ d, exec (.imgConfirm src) s = .next { s with dev := d } ∧ SlotMoved s.dev.img.trialSlot .confirmed s.dev d ∧
      d.img.trialOpen = false ∧ d.img.liveOrder = [] ∧ d.img.running = some s.dev.img.trialSlot ∧
      d.img.restartPending = wholeDiffer b.str s.dev.str := by
  have passes := confirmImage_of_passing (d := (rowStarts src 0x0800 s).dev) (b := b) (nv := s.nv)
    (by simpa using ho) (by simpa using hb) (by simpa using hl) (by simpa using hw) s.tm
  rw [rowStarts_img, rowStarts_str] at passes
  obtain ⟨moved, opened, order, running, pending⟩ := passes
  exact ⟨_, imgRow_to h _ rfl, moved.of_row 0, by simpa using opened, by simpa using order, by simpa using running,
    by simpa using pending⟩

theorem imgRollback_rejects {src : Src} {s : State} (h : ImgFree src s) (ho : s.dev.img.trialOpen = true)
    (hl : s.dev.img.liveOrder = []) (hlc : s.dev.img.lcAfter = none) :
    ∃ d, exec (.imgRollback src) s = .next { s with dev := d } ∧ SlotMoved s.dev.img.trialSlot .rejected s.dev d ∧
      d.img.trialOpen = false ∧ d.img.running = appliedSlot s.dev := by
  have begun := rollbackImage_of_unapplied (d := (rowStarts src 0x0800 s).dev) (by simpa using ho) (by simpa using hl) s.tm s.nv
  rw [rowStarts_img] at begun
  obtain ⟨moved, opened, running⟩ := finishRollback_moves (d := { (rowStarts src 0x0800 s).dev with
    img := { s.dev.img with busy := true, cmd := some .rollback } }) hlc s.tm s.nv
  refine ⟨_, imgRow_to h _ begun, SlotMoved.of_row ⟨moved.str, moved.rails, moved.phase, moved.result, moved.busy⟩ 0,
    by simpa using opened, ?_⟩
  rw [rowEnds_img, running]
  exact rowStarts_appliedSlot src 0x0800 s

/-- Settles O10: each command is one write of IMG.CMD; where it ends at once the result says why, and where it ends the trial the
slot's record, the recorder and the loader alone change. -/
theorem trialsEnd : Obligations.TrialsEnd := by
  refine ⟨fun src b s h ho hb hl hw => ?_, fun src b s h ho hb hl => ?_, fun src s h ho hl hlc => ?_, fun src s h ho => ⟨?_, ?_⟩⟩
  · obtain ⟨d, he, moved, opened, order, running, pending⟩ := imgConfirm_confirms h ho hb hl hw
    exact ⟨d, he, moved.str, moved.rails, moved.phase, opened, order, running, pending, moved.result, moved.busy⟩
  · exact imgRow_as h _ (confirmImage_of_failing (by simpa using ho) (by simpa using hb) (by simpa using hl) _)
  · obtain ⟨d, he, moved, opened, running⟩ := imgRollback_rejects h ho hl hlc
    exact ⟨d, he, moved.str, moved.rails, moved.phase, opened, running, moved.result, moved.busy⟩
  · exact imgRow_as h _ (by simp [confirmImage, ho]; rfl)
  · exact imgRow_as h _ (by simp [rollbackImage, ho]; rfl)

/-! ### The words of IMG.DATA (R77) -/

theorem leBytes_word (w : Word) :
    leBytes 4 w.toNat = [w.setWidth 8, (w >>> 8).setWidth 8, (w >>> 16).setWidth 8, (w >>> 24).setWidth 8] := by
  have byteAt (k : Nat) : BitVec.ofNat 8 (w.toNat / 2 ^ k) = (w >>> k).setWidth 8 := by
    apply BitVec.eq_of_toNat_eq
    simp [Nat.shiftRight_eq_div_pow]
  simp only [leBytes, Nat.div_div_eq_div_mul, Nat.reduceMul, List.cons.injEq, and_true]
  exact ⟨by simp, byteAt 8, byteAt 16, byteAt 24⟩

/-- A write of IMG.DATA that reaches its register without the privilege. -/
theorem imgDataWrite_of_denied {src : Src} {s : State} (hr : Reaches src .running s) (h : ¬ MayChange s.dev src) (data : Word) :
    exec (.imgDataWrite src data) s = .next (Wrote src 0x080D stDenied id s) := by
  have denied : commissions src (rowStarts src 0x080D s).dev ≠ true := mt commissions_iff.mp (mt (mayChange_rowStarts ..).mp h)
  refine congrArg Host.Outcome.next ((rowWrite_of_reaches hr ..).trans ?_)
  rw [actImgData, writeState_of_denied denied]
  rfl

/-- A write of IMG.DATA with the privilege, told by what becomes of its word. -/
theorem imgDataWrite_as {src : Src} {s : State} (hr : Reaches src .running s) (h : MayChange s.dev src) {data : Word}
    {g : Device → Device} (he : writeImageData s.nv data (rowStarts src 0x080D s).dev = g (rowStarts src 0x080D s).dev) :
    exec (.imgDataWrite src data) s = .next (Wrote src 0x080D 0 g s) := by
  have allowed : commissions src (rowStarts src 0x080D s).dev = true := commissions_iff.mpr ((mayChange_rowStarts ..).mpr h)
  refine congrArg Host.Outcome.next ((rowWrite_of_reaches hr ..).trans (Eq.trans ?_ (wrote_congr he 0)))
  rw [actImgData, writeState_of_allowed allowed, rowStarts_nv]
  rfl

theorem writeImageData_of_none {d : Device} (h : d.img.fillSlot = none) (nv : NonVol) (data : Word) :
    writeImageData nv data d = { d with img := { d.img with dataAddr := d.img.dataAddr + 4 } } := by
  simp [writeImageData, h]

theorem writeImageData_of_erased {d : Device} {slot : Fin 2} {a : Nat} (h : d.img.fillSlot = some slot) (hb : d.img.busy = false)
    (hp : (slotView d slot).phase = .empty) (hn : d.img.dataAddr.toNat + 4 ≤ 61440)
    (hw : regionWritable d.ocs (imageRegion slot) = true) (ha : imageAddr d.ocs slot d.img.dataAddr.toNat = some a)
    (nv : NonVol) (data : Word) :
    writeImageData nv data d = storePump nv (addJob
      ⟨[.bytes [byteProg (a - a % 64) (a % 64) (leBytes 4 data.toNat)]], .record, .imageData, true⟩
      { d with img := { d.img with dataAddr := d.img.dataAddr + 4 } }) := by
  simp [writeImageData, h, hb, hp, hw, ha, Nat.not_lt.mpr hn]

/-! ### The ends of the checks (R92) -/

theorem checkEnds_of_seal {d : Device} {slot : Fin 2} (h : d.img.cmd = some (.seal slot)) (tm : TimeBase) (nv : NonVol) :
    checkEnds tm nv d = if dataOnItsWay d then d else sealChecked tm nv slot d := by
  simp [checkEnds, h]

theorem checkEnds_of_idle {d : Device} {slot : Fin 2} (h : d.img.cmd = some (.seal slot)) (hd : dataOnItsWay d = false)
    (tm : TimeBase) (nv : NonVol) : checkEnds tm nv d = sealChecked tm nv slot d := by
  rw [checkEnds_of_seal h, hd, if_neg Bool.false_ne_true]

theorem sealChecked_of_lost {d : Device} {slot : Fin 2} (hl : dataLost d slot = true) (hc : d.img.lcAfter = none) (tm : TimeBase)
    (nv : NonVol) : sealChecked tm nv slot d = closeImg .store d := by
  simp only [sealChecked, hl, if_true, endImg_of_none hc]

theorem sealChecked_of_error {d : Device} {slot : Fin 2} {nv : NonVol} {e : ImgResult} (hl : dataLost d slot = false)
    (hc : d.img.lcAfter = none) (he : slotImage nv d slot = .error e) (tm : TimeBase) :
    sealChecked tm nv slot d = closeImg e d := by
  simp only [sealChecked, hl, he, Bool.false_eq_true, if_false, endImg_of_none hc]

theorem sealChecked_of_ok {d : Device} {slot : Fin 2} {nv : NonVol} {b : Billet} (hl : dataLost d slot = false)
    (hc : d.img.lcAfter = none) (hb : slotImage nv d slot = .ok b) (tm : TimeBase) :
    SlotMoved slot .written d (sealChecked tm nv slot d) ∧ (slotView (sealChecked tm nv slot d) slot).gen = b.gen := by
  obtain ⟨ocs, moved⟩ := setImageSlot_eq nv slot .written b.gen b.len d
  have ends : sealChecked tm nv slot d =
      closeImg .ok (shown slot ⟨.written, BitVec.ofNat 16 (ceilDiv b.len 1024), b.gen⟩ ocs d) := by
    simp only [sealChecked, hl, hb, Bool.false_eq_true, if_false, moved]
    exact endImg_of_none (by exact hc) ..
  have view := shown_slotView slot ⟨.written, BitVec.ofNat 16 (ceilDiv b.len 1024), b.gen⟩ ocs d
  rw [ends]
  exact ⟨⟨rfl, rfl, congrArg SlotView.phase view, rfl, rfl⟩, congrArg SlotView.gen view⟩

/-- What LIVE_OPEN sets in the loader for an image that it opens (R78). -/
def trialOpened (slot : Fin 2) (b : Billet) (d : Device) : Device := { d with img := { d.img with
  trialOpen := true
  trialSlot := slot
  running := some slot
  liveOrder := []
  railSrc := bankMap d.img.railSrc fun _ x => ⟨x.slot, false, 0⟩
  loadTrial := loadUnits (engineLoad b.str.device.body.fgPeriod b.str.rails) } }

theorem trialOpened_slotView (slot : Fin 2) (b : Billet) (d : Device) (k : Fin 2) :
    slotView (trialOpened slot b d) k = slotView d k := rfl

theorem openChecked_of_above {d : Device} {slot : Fin 2} {nv : NonVol} {b : Billet} (hb : slotImage nv d slot = .ok b)
    (hn : b.noLive = false) (ha : ∀ q, d.img.running = some q → (slotView d q).gen.toNat < b.gen.toNat) (tm : TimeBase) :
    openChecked tm nv slot d = endImg tm nv .ok (raiseImage tm 1 slot 0 0 .ok
      (trialOpened slot b (moveImageSlot nv slot .trial (setReport d.img.applyCount b.clamps d)))) := by
  have report_running : (setReport d.img.applyCount b.clamps d).img.running = d.img.running := rfl
  have report_view (q : Fin 2) : slotView (setReport d.img.applyCount b.clamps d) q = slotView d q := rfl
  cases hr : d.img.running with
  | none => simp [openChecked, hb, hn, report_running, hr, trialOpened]
  | some q => simp [openChecked, hb, hn, report_running, report_view, hr, ha q hr, trialOpened]

theorem openChecked_opens {d : Device} {slot : Fin 2} {nv : NonVol} {b : Billet} (hc : d.img.lcAfter = none)
    (hb : slotImage nv d slot = .ok b) (hn : b.noLive = false)
    (ha : ∀ q, d.img.running = some q → (slotView d q).gen.toNat < b.gen.toNat) (tm : TimeBase) :
    SlotMoved slot .trial d (openChecked tm nv slot d) ∧ (openChecked tm nv slot d).img.trialOpen = true ∧
      (openChecked tm nv slot d).img.trialSlot = slot ∧ (openChecked tm nv slot d).img.running = some slot ∧
      (openChecked tm nv slot d).img.liveOrder = [] := by
  obtain ⟨v, ocs, moved, phase⟩ := moveImageSlot_eq nv slot .trial (setReport d.img.applyCount b.clamps d)
  rw [openChecked_of_above hb hn ha, moved, endImg_of_none (by exact hc)]
  refine ⟨⟨?str, ?rails, ?phase, rfl, rfl⟩, rfl, rfl, rfl, rfl⟩
  case str | rails => dsimp only [closeImg, raiseImage, raise, trialOpened, shown, setReport]
  case phase => rw [closeImg_slotView, raiseImage_slotView, trialOpened_slotView, phase]

theorem checkEnds_of_open {d : Device} {slot : Fin 2} (h : d.img.cmd = some (.liveOpen slot)) (tm : TimeBase) (nv : NonVol) :
    checkEnds tm nv d = openChecked tm nv slot d := by
  simp [checkEnds, h]

/-- IMG_CHECK_END changes the device alone. -/
theorem imgCheckEnd_to {s : State} {t : Device} (h : checkEnds s.tm s.nv s.dev = t) :
    exec .imgCheckEnd s = .next { s with dev := t } := by
  rw [← h]; rfl

/-- Settles O11: a word of IMG.DATA by what becomes of it, the end of a SEAL's check by what the check finds, and that of a
LIVE_OPEN. -/
theorem slotsFilled : Obligations.SlotsFilled := by
  refine ⟨fun src data s hr => ⟨fun h => imgDataWrite_of_denied hr h data, fun h hf => ?_, fun slot a h hf hb hp hn hw ha => ?_⟩,
    fun slot s hcmd hc => ⟨fun hd => ?_, fun hd hl => ?_, fun hd hl => ⟨fun e he => ?_, fun b hb => ?_⟩⟩,
    fun slot b s hcmd hc hb hn ha => ?_⟩
  · exact imgDataWrite_as hr h (writeImageData_of_none (by simpa using hf) ..)
  · refine imgDataWrite_as hr h ((writeImageData_of_erased (by simpa using hf) (by simpa using hb) (by simpa using hp)
      (by simpa using hn) (by simpa using hw) (by simpa using ha) ..).trans ?_)
    rw [leBytes_word]
  · exact imgCheckEnd_to ((checkEnds_of_seal hcmd ..).trans (if_pos hd))
  · exact imgCheckEnd_to ((checkEnds_of_idle hcmd hd ..).trans (sealChecked_of_lost hl hc ..))
  · exact imgCheckEnd_to ((checkEnds_of_idle hcmd hd ..).trans (sealChecked_of_error hl hc he _))
  · obtain ⟨moved, gen⟩ := sealChecked_of_ok hl hc hb s.tm
    exact ⟨_, imgCheckEnd_to (checkEnds_of_idle hcmd hd ..), moved.str, moved.phase, gen, moved.result, moved.busy⟩
  · obtain ⟨moved, opened, trial, running, order⟩ := openChecked_opens hc hb hn ha s.tm
    exact ⟨_, imgCheckEnd_to (checkEnds_of_open hcmd ..), moved.str, moved.rails, moved.phase, opened, trial, running, order,
      moved.result, moved.busy⟩

end Sys2Proof.Machine
end

section
/-! SUPPORT. The sections of a live apply (R79 to R83, R86, R182, R214): what comes into force when a section takes effect, and how the
command ends with it. -/

namespace Sys2Proof.Machine

/-! ### The end of a live apply (R79, R90) -/

/-- What the end of a live apply that has taken effect leaves: the structure, the rails, the loops and what waits as they are, the
apply counted, and OK as the result. -/
structure ApplyEnded (d t : Device) : Prop where
  str : t.str = d.str
  rails : t.rails = d.rails
  le : t.le = d.le
  waitRail : t.img.waitRail = d.img.waitRail
  waitSched : t.img.waitSched = d.img.waitSched
  waitPartners : t.img.waitPartners = d.img.waitPartners
  waitHkeep : t.img.waitHkeep = d.img.waitHkeep
  waitPeriph : t.img.waitPeriph = d.img.waitPeriph
  applyCount : t.img.applyCount = d.img.applyCount + 1
  result : t.img.result = ImgResult.ok.code

/-- One more live apply of the trial is noted, with the rails' sources after it. -/
def applyNoted (order : List (Byte × Byte)) (src : Bank 64 RailSrc) (d : Device) : Device :=
  { d with img := { d.img with applyCount := d.img.applyCount + 1, liveOrder := order, railSrc := src } }

theorem sectionEnds_of_ok {d : Device} (h : d.img.lcAfter = none) (tm : TimeBase) (nv : NonVol) (slot : Fin 2) (kind index : Byte)
    (removed : Bool) : ∃ order src, sectionEnds tm nv false slot kind index removed .ok d =
      closeImg .ok (raiseImage tm 2 slot kind index .ok (applyNoted order src d)) :=
  ⟨_, _, endImg_of_none (d := raiseImage tm 2 slot kind index .ok (applyNoted _ _ d)) h tm nv .ok⟩

theorem sectionEnds_ends {d : Device} (h : d.img.lcAfter = none) (tm : TimeBase) (nv : NonVol) (slot : Fin 2) (kind index : Byte)
    (removed : Bool) : ApplyEnded d (sectionEnds tm nv false slot kind index removed .ok d) := by
  obtain ⟨order, src, ends⟩ := sectionEnds_of_ok h tm nv slot kind index removed
  rw [ends]
  constructor <;> dsimp only [closeImg, raiseImage, raise, applyNoted]

/-! ### What putting a section into force changes -/

/-- The structure in force, the loader and the loops, which putting a section into force changes only where it says so. -/
def standing (d : Device) : Structure × Image × Engine := (d.str, d.img, d.le)

theorem str_of_standing {d : Device} {x : Structure × Image × Engine} (h : standing d = x) : d.str = x.1 := congrArg Prod.fst h
theorem img_of_standing {d : Device} {x : Structure × Image × Engine} (h : standing d = x) : d.img = x.2.1 :=
  congrArg (fun y => y.2.1) h
theorem le_of_standing {d : Device} {x : Structure × Image × Engine} (h : standing d = x) : d.le = x.2.2 :=
  congrArg (fun y => y.2.2) h

theorem ApplyEnded.of_standing {u t : Device} {x : Structure × Image × Engine} (h : ApplyEnded u t) (hu : standing u = x) :
    t.str = x.1 ∧ t.img.applyCount = x.2.1.applyCount + 1 :=
  ⟨h.str.trans (str_of_standing hu), h.applyCount.trans (congrArg (·.applyCount + 1) (img_of_standing hu))⟩

theorem standing_ite {c : Prop} [Decidable c] {a b : Device} {x : Structure × Image × Engine} (ha : standing a = x)
    (hb : standing b = x) : standing (if c then a else b) = x := by
  split
  · exact ha
  · exact hb

@[simp] theorem standing_onRail (d : Device) (r : Fin 64) (f : Rail → Rail) : standing (d.onRail r f) = standing d := rfl
@[simp] theorem standing_onSlot (d : Device) (g : Fin 512) (f : Slot → Slot) : standing (d.onSlot g f) = standing d := rfl
@[simp] theorem standing_onLane (d : Device) (n : Fin 64) (f : Lane → Lane) : standing (d.onLane n f) = standing d := rfl
@[simp] theorem standing_wakeFor (tm : TimeBase) (g : Fin 512) (d : Device) : standing (wakeFor tm g d) = standing d :=
  standing_onLane ..
@[simp] theorem standing_sendWrite (g : Fin 512) (a : Nat) (v : BitVec 16) (d : Device) :
    standing (sendWrite g a v d).1 = standing d :=
  (standing_onLane ..).trans (standing_onSlot ..)
@[simp] theorem standing_raiseRetire (tm : TimeBase) (r : Fin 64) (pos op : Nat) (res : CmdResult) (g : Nat) (d : Device) :
    standing (raiseRetire tm r pos op res g d) = standing d := rfl
@[simp] theorem standing_finishCmd (r : Fin 64) (pos : Nat) (res : CmdResult) (d : Device) :
    standing (finishCmd r pos res d) = standing d :=
  (standing_onRail ..).trans (standing_onRail ..)
@[simp] theorem standing_ledgerOp (e : Fin 128) (f : Entry → Entry) (d : Device) : standing (ledgerOp e f d) = standing d := rfl
@[simp] theorem standing_unplanEntry (tm : TimeBase) (e : Fin 128) (d : Device) : standing (unplanEntry tm e d) = standing d :=
  standing_ledgerOp ..

/-! ### SCHED, PARTNERS, HKEEP and PERIPH (R86) -/

theorem standing_applySched (tm : TimeBase) (new : Option (InForce SchedSect)) (d : Device) :
    standing (applySched tm new d) = ({ d.str with sched := new }, d.img, d.le) := by
  unfold applySched
  extract_lets str d1 hs d2 d3
  have h3 : standing d3 = standing d2 := foldl_keeps standing (fun u e => standing_unplanEntry tm e u) _ d2
  clear_value d3
  refine (foldl_keeps standing (fun u e => ?_) _ d3).trans h3
  exact standing_ite rfl (standing_ledgerOp ..)

theorem standing_applyPeriph (new : Option (InForce PeriphSect)) (d : Device) :
    standing (applyPeriph new d) = ({ d.str with periph := new }, d.img, d.le) := by
  unfold applyPeriph
  dsimp only
  split <;> rfl

theorem schedTakesEffect_of_sched {d : Device} {x : Option (InForce SchedSect)} {slot : Fin 2}
    (h : d.img.waitSched = some ⟨x, slot, false⟩) (hp : d.img.waitPartners = none) (hc : d.img.lcAfter = none) (tm : TimeBase)
    (nv : NonVol) : ∃ u, standing u = ({ d.str with sched := x }, { d.img with waitSched := none }, d.le) ∧
      ApplyEnded u (schedTakesEffect tm nv d) := by
  have put := standing_applySched tm x { d with img := { d.img with waitSched := none } }
  have ended := sectionEnds_ends (d := applySched tm x { d with img := { d.img with waitSched := none } })
    ((congrArg Image.lcAfter (img_of_standing put)).trans hc) tm nv slot 0x30 0 x.isNone
  have nothing := ended.waitPartners.trans ((congrArg Image.waitPartners (img_of_standing put)).trans hp)
  refine ⟨_, put, ?_⟩
  simp only [schedTakesEffect, h, nothing]
  exact ended

theorem schedTakesEffect_of_partners {d : Device} {x : Option (InForce (List PartnerEntry))} {slot : Fin 2}
    (h : d.img.waitPartners = some ⟨x, slot, false⟩) (hs : d.img.waitSched = none) (hc : d.img.lcAfter = none) (tm : TimeBase)
    (nv : NonVol) : ∃ u, standing u = ({ d.str with partners := x }, { d.img with waitPartners := none }, d.le) ∧
      ApplyEnded u (schedTakesEffect tm nv d) := by
  refine ⟨applyPartners x { d with img := { d.img with waitPartners := none } }, rfl, ?_⟩
  simp only [schedTakesEffect, h, hs]
  exact sectionEnds_ends (by exact hc) ..

theorem hkeepTakesEffect_of_waiting {d : Device} {x : Option (InForce (List HkEntry))} {slot : Fin 2}
    (h : d.img.waitHkeep = some ⟨x, slot, false⟩) (hc : d.img.lcAfter = none) (tm : TimeBase) (nv : NonVol) :
    ∃ u, standing u = ({ d.str with hkeep := x }, { d.img with waitHkeep := none }, d.le) ∧
      ApplyEnded u (hkeepTakesEffect tm nv d) := by
  refine ⟨applyHkeep x { d with img := { d.img with waitHkeep := none } }, rfl, ?_⟩
  simp only [hkeepTakesEffect, h]
  exact sectionEnds_ends (by exact hc) ..

theorem periphTakesEffect_of_waiting {d : Device} {x : Option (InForce PeriphSect)} {slot : Fin 2}
    (h : d.img.waitPeriph = some ⟨x, slot, false⟩) (hp : d.twp.polling = none) (hc : d.img.lcAfter = none) (tm : TimeBase)
    (nv : NonVol) : ∃ u, standing u = ({ d.str with periph := x }, { d.img with waitPeriph := none }, d.le) ∧
      ApplyEnded u (periphTakesEffect tm nv d) := by
  have put := standing_applyPeriph x { d with img := { d.img with waitPeriph := none } }
  refine ⟨_, put, ?_⟩
  simp only [periphTakesEffect, h, hp, Option.isSome_none, Bool.false_eq_true, if_false]
  exact sectionEnds_ends ((congrArg Image.lcAfter (img_of_standing put)).trans hc) ..

/-! ### A RAIL section (R79 to R83) -/

theorem standing_settleSlot (tm : TimeBase) (was : Device) (g : Fin 512) (d0 : Device) :
    standing (settleSlot tm was g d0) = standing d0 := by
  unfold settleSlot
  extract_lets d
  have owned : standing d = standing d0 := standing_ite rfl (standing_onSlot ..)
  clear_value d
  split
  · exact owned
  next live up l d1 trip d2 p form d3 d4 _ _ _ =>
    have limited : standing d1 = standing d := standing_ite (standing_onSlot ..) rfl
    clear_value d1
    have tripSent : standing d2 = standing d1 := standing_ite (by simp) rfl
    clear_value d2
    have configured : standing d4 = standing d2 := by simp [d4, d3]
    clear_value d4
    exact (standing_ite (by simp [configured]) rfl).trans (tripSent.trans (limited.trans owned))

/-- A section is loaded once the phases that it names, and those that it no longer names, have been settled. -/
theorem putRail_of_section (tm : TimeBase) (r : Fin 64) (x : InForce RailSect) (d : Device) :
    ∃ u, putRail tm r (some x) d = updateLoad (loadProtect (loadRail tm r (d.sect r) x.body u)) ∧
      standing u = ({ d.str with rails := bankSet d.str.rails r (some x) }, d.img, d.le) := by
  unfold putRail
  extract_lets olds str d1 news lost d2 d3 d4 d5
  refine ⟨d4, rfl, ?_⟩
  have h2 : standing d2 = standing d1 := foldl_keeps standing (fun u t => by simp) _ d1
  have h4 : standing d4 = standing d3 := foldl_keeps standing (fun u g => standing_settleSlot tm d g u) _ d3
  exact h4.trans h2

theorem setIlim_cfg (r q : Fin 64) (d : Device) : ((setIlim r d).rail q).cfg = (d.rail q).cfg := by
  unfold setIlim
  split
  · by_cases h : r = q
    · subst h; simp [Device.rail, Device.onRail]
    · simp [Device.rail, Device.onRail, bankGet_bankUpd_other _ _ h]
  · rfl

theorem setIlim_le (r : Fin 64) (d : Device) : (setIlim r d).le = d.le := by
  unfold setIlim
  split <;> rfl

theorem setIlim_img (r : Fin 64) (d : Device) : (setIlim r d).img = d.img := by
  unfold setIlim
  split <;> rfl

theorem loadProtect_eq (d : Device) : ∃ pm, loadProtect d = { d with pm := pm } := by
  unfold loadProtect
  dsimp only
  split
  · exact ⟨d.pm, rfl⟩
  · exact ⟨_, rfl⟩

theorem updateLoad_eq (d : Device) : ∃ load, updateLoad d = { d with img := { d.img with loadRun := load } } := ⟨_, rfl⟩

/-- With every write of a coefficient arrived, the section's coefficients replace them all (R182). -/
theorem loadCoefs_of_arrived {now : Nat} {l : LoopSt} (h : ∀ w ∈ l.coefLog, w.1 ≤ now) (b : RailSect) :
    (loadCoefs now b l).outer = b.outer ∧ (loadCoefs now b l).inner = b.inner ∧ (loadCoefs now b l).diverged = false := by
  have none_coming : (l.coefLog.filter fun w => decide (now < w.1)) = [] :=
    List.filter_eq_nil_iff.mpr fun w hw => by simpa using h w hw
  simp [loadCoefs, none_coming]

theorem loadRail_loop {tm : TimeBase} {r : Fin 64} {d : Device} (h : ∀ w ∈ (d.loop r).coefLog, w.1 ≤ tm.time.toNat)
    (was : Option RailSect) (b : RailSect) : ((loadRail tm r was b d).loop r).outer = b.outer ∧
      ((loadRail tm r was b d).loop r).inner = b.inner ∧ ((loadRail tm r was b d).loop r).diverged = false := by
  unfold loadRail
  simp only [Device.loop, setIlim_le, Device.onRail_le, Device.onLoop, bankGet_bankUpd_same]
  exact loadCoefs_of_arrived (by exact h) b

theorem loadRail_cfg (tm : TimeBase) (r : Fin 64) (was : Option RailSect) (b : RailSect) (d : Device) :
    ((loadRail tm r was b d).rail r).cfg = { (d.rail r).cfg with
      vset := BitVec.ofNat 20 b.vset, winLo := BitVec.ofNat 20 b.vmin, winHi := BitVec.ofNat 20 b.vmax } := by
  unfold loadRail
  simp only [setIlim_cfg]
  simp [Device.rail, Device.onRail, Device.onLoop]

theorem loadRail_img (tm : TimeBase) (r : Fin 64) (was : Option RailSect) (b : RailSect) (d : Device) :
    (loadRail tm r was b d).img = d.img := by
  unfold loadRail
  simp [setIlim_img]

/-- What a RAIL section loads where it takes effect at once: itself, its set-point and window, and, once every write of a coefficient
has arrived, its coefficients (R182, R214). -/
structure RailLoaded (now : Nat) (r : Fin 64) (x : InForce RailSect) (d t : Device) : Prop where
  str : t.str = { d.str with rails := bankSet d.str.rails r (some x) }
  vset : (t.rail r).cfg.vset = BitVec.ofNat 20 x.body.vset
  winLo : (t.rail r).cfg.winLo = BitVec.ofNat 20 x.body.vmin
  winHi : (t.rail r).cfg.winHi = BitVec.ofNat 20 x.body.vmax
  coefs : (∀ w ∈ (d.loop r).coefLog, w.1 ≤ now) →
    (t.loop r).outer = x.body.outer ∧ (t.loop r).inner = x.body.inner ∧ (t.loop r).diverged = false

theorem putRail_loads (tm : TimeBase) (r : Fin 64) (x : InForce RailSect) (d : Device) :
    RailLoaded tm.time.toNat r x d (putRail tm r (some x) d) ∧
      ∃ load, (putRail tm r (some x) d).img = { d.img with loadRun := load } := by
  obtain ⟨u, put, settled⟩ := putRail_of_section tm r x d
  have loop : u.loop r = d.loop r := congrArg (fun e => bankGet (Engine.loops e) r) (le_of_standing settled)
  have str := (str_of_inForce (inForce_of_spare (spare_loadRail tm r (d.sect r) x.body u))).trans (str_of_standing settled)
  have img : (loadRail tm r (d.sect r) x.body u).img = d.img := (loadRail_img ..).trans (img_of_standing settled)
  have cfg := loadRail_cfg tm r (d.sect r) x.body u
  have coefs := fun h => loadRail_loop (tm := tm) (d := u) (by rw [loop]; exact h) (d.sect r) x.body
  generalize loadRail tm r (d.sect r) x.body u = t at put str img cfg coefs
  obtain ⟨pm, protects⟩ := loadProtect_eq t
  obtain ⟨load, loads⟩ := updateLoad_eq { t with pm := pm }
  rw [put, protects, loads]
  refine ⟨⟨str, congrArg RailCfg.vset cfg, congrArg RailCfg.winLo cfg, congrArg RailCfg.winHi cfg, coefs⟩, load, ?_⟩
  rw [← img]

/-- A rail in OFF takes its section at once, unless a change of its group is held back (R79, R141). -/
theorem takeRail_of_off {r : Fin 64} {x : InForce RailSect} {d : Device} (hs : (d.rail r).state = .off)
    (hg : groupBlocked d r x.body = false) (tm : TimeBase) (slot : Fin 2) :
    takeRail tm r ⟨some x, slot, false⟩ d = some (putRail tm r (some x) d, .ok) := by
  have untripped : trippedNow tm d r = false := by simp [trippedNow, hs]
  have idle : railIdle (d.rail r) = true := by simp [railIdle, hs]
  simp only [takeRail, untripped, hg, idle, Bool.false_eq_true, if_false, if_true]

/-- The loader with other RAIL sections that wait. -/
def withWaitRail (w : Bank 64 (Option (Waiting RailSect))) (d : Device) : Device := { d with img := { d.img with waitRail := w } }

theorem withWaitRail_lcAfter (w : Bank 64 (Option (Waiting RailSect))) (d : Device) :
    (withWaitRail w d).img.lcAfter = d.img.lcAfter := rfl

theorem withWaitRail_applyCount (w : Bank 64 (Option (Waiting RailSect))) (d : Device) :
    (withWaitRail w d).img.applyCount = d.img.applyCount := rfl

theorem railTakesEffect_of_taken {r : Fin 64} {x : InForce RailSect} {slot : Fin 2} {tm : TimeBase} {d u : Device}
    (h : bankGet d.img.waitRail r = some ⟨some x, slot, false⟩) (taken : takeRail tm r ⟨some x, slot, false⟩ d = some (u, .ok))
    (nv : NonVol) : railTakesEffect tm nv r d =
      sectionEnds tm nv false slot 0x10 (byte r.val) false .ok (withWaitRail (bankSet u.img.waitRail r none) u) := by
  simp [railTakesEffect, h, taken, withWaitRail]

/-- The end of the apply leaves what the section has loaded. -/
theorem RailLoaded.of_ended {now : Nat} {r : Fin 64} {x : InForce RailSect} {d u t : Device}
    {w : Bank 64 (Option (Waiting RailSect))} (h : RailLoaded now r x d u) (ended : ApplyEnded (withWaitRail w u) t) :
    RailLoaded now r x d t := by
  have rail : t.rail r = u.rail r := congrArg (bankGet · r) ended.rails
  have loop : t.loop r = u.loop r := congrArg (fun e => bankGet (Engine.loops e) r) ended.le
  refine ⟨ended.str.trans h.str, ?_, ?_, ?_, ?_⟩
  · rw [rail]; exact h.vset
  · rw [rail]; exact h.winLo
  · rw [rail]; exact h.winHi
  · rw [loop]; exact h.coefs

theorem railTakesEffect_of_off {r : Fin 64} {x : InForce RailSect} {slot : Fin 2} {d : Device}
    (h : bankGet d.img.waitRail r = some ⟨some x, slot, false⟩) (hs : (d.rail r).state = .off) (hc : d.img.lcAfter = none)
    (hg : groupBlocked d r x.body = false) (tm : TimeBase) (nv : NonVol) :
    RailLoaded tm.time.toNat r x d (railTakesEffect tm nv r d) ∧ bankGet (railTakesEffect tm nv r d).img.waitRail r = none ∧
      (railTakesEffect tm nv r d).img.applyCount = d.img.applyCount + 1 ∧
      (railTakesEffect tm nv r d).img.result = ImgResult.ok.code := by
  obtain ⟨loaded, load, img⟩ := putRail_loads tm r x d
  have ends := railTakesEffect_of_taken h (takeRail_of_off hs hg tm slot) nv
  generalize putRail tm r (some x) d = u at loaded img ends
  have ended := sectionEnds_ends (d := withWaitRail (bankSet u.img.waitRail r none) u)
    (by rw [withWaitRail_lcAfter, img]; exact hc) tm nv slot 0x10 (byte r.val) false
  rw [← ends] at ended
  refine ⟨loaded.of_ended ended, ?_, ?_, ended.result⟩
  · rw [ended.waitRail]
    exact bankGet_bankSet_same ..
  · rw [ended.applyCount, withWaitRail_applyCount, img]

/-- Settles O12, section by section: what it puts into force, and the end of the apply after it. -/
theorem sectionsTakeEffect : Obligations.SectionsTakeEffect := by
  refine ⟨fun r x slot s h hs hc hg => ?_, fun x slot s h hp hc => ?_, fun x slot s h hs hc => ?_,
    fun x slot s h hc => ?_, fun x slot s h hp hc => ?_⟩
  · obtain ⟨loaded, served, count, result⟩ := railTakesEffect_of_off h hs hc hg s.tm s.nv
    have str := loaded.str
    refine ⟨railTakesEffect s.tm s.nv r s.dev, rfl, ?_, served, count, result, loaded.vset, loaded.winLo, loaded.winHi,
      loaded.coefs, (congrArg Structure.sched str :), (congrArg Structure.partners str :), (congrArg Structure.hkeep str :)⟩
    rw [str]
    exact bankGet_bankSet_same ..
  · obtain ⟨u, put, ended⟩ := schedTakesEffect_of_sched h hp hc s.tm s.nv
    obtain ⟨str, count⟩ := ended.of_standing put
    exact ⟨_, rfl, str, ended.waitSched.trans (congrArg Image.waitSched (img_of_standing put)), count, ended.result⟩
  · obtain ⟨u, put, ended⟩ := schedTakesEffect_of_partners h hs hc s.tm s.nv
    obtain ⟨str, count⟩ := ended.of_standing put
    exact ⟨_, rfl, str, ended.waitPartners.trans (congrArg Image.waitPartners (img_of_standing put)), count, ended.result⟩
  · obtain ⟨u, put, ended⟩ := hkeepTakesEffect_of_waiting h hc s.tm s.nv
    obtain ⟨str, count⟩ := ended.of_standing put
    exact ⟨_, rfl, str, ended.waitHkeep.trans (congrArg Image.waitHkeep (img_of_standing put)), count, ended.result⟩
  · obtain ⟨u, put, ended⟩ := periphTakesEffect_of_waiting h hp hc s.tm s.nv
    obtain ⟨str, count⟩ := ended.of_standing put
    exact ⟨_, rfl, str, ended.waitPeriph.trans (congrArg Image.waitPeriph (img_of_standing put)), count, ended.result⟩

end Sys2Proof.Machine
end

section
/-! SUPPORT. What the units that act on many things at once - protection, the rail manager, the loop engine, a slot that is lost -
leave of lanes and slots: of a lane all but its queue, its interrupt flags and its receiver's sleep, of a slot its counters,
measurements and settings. One law for each operation, in the order of the model's files. -/

namespace Sys2Proof.Machine

/-! ### The view -/

/-- A lane without what other units write into it: the cells that wait, the interrupt flags, the receiver's sleep (R362), and
whether its loss is asserted (R135). -/
def Lane.kept (l : Lane) : Lane := { l with queue := [], intStatus := 0, asleep := false, wokeAt := none, lossActive := false }

/-- A slot without what moves with its state: STATE and REASON, its rail, the discovery or calibration in progress with its tags
and figures, and its marks for RETAKE (R220). -/
def Slot.kept (s : Slot) : Slot :=
  { s with
    state := .absent, reason := .none, owner := none, disc := none, readAt := 0, cal := none, tag := 0, iofs := 0, missRun := 0
    sampledAt := none, heldBack := false, fresh := false }

/-- The lanes and the slots, so far as other units leave them alone. -/
def kept (d : Device) : (Fin 64 → Lane) × (Fin 512 → Slot) := (fun n => (d.lane n).kept, fun g => (d.slot g).kept)

/-- The slots that are ABSENT. -/
def absentees (d : Device) : Fin 512 → Bool := fun g => decide ((d.slot g).state = .absent)

/-- What the units leave of lanes and slots that do not move a slot into or out of ABSENT. -/
def path (d : Device) : ((Fin 64 → Lane) × (Fin 512 → Slot)) × (Fin 512 → Bool) := (kept d, absentees d)

theorem kept_of_path {d t : Device} (h : path d = path t) : kept d = kept t := congrArg Prod.fst h
theorem absentees_of_path {d t : Device} (h : path d = path t) : absentees d = absentees t := congrArg Prod.snd h
theorem lane_of_kept {d t : Device} (h : kept d = kept t) (n : Fin 64) : (d.lane n).kept = (t.lane n).kept :=
  congrFun (congrArg Prod.fst h) n
theorem slot_of_kept {d t : Device} (h : kept d = kept t) (g : Fin 512) : (d.slot g).kept = (t.slot g).kept :=
  congrFun (congrArg Prod.snd h) g

theorem kept_ext {d t : Device} (hl : ∀ n, (d.lane n).kept = (t.lane n).kept) (hs : ∀ g, (d.slot g).kept = (t.slot g).kept) :
    kept d = kept t := Prod.ext (funext hl) (funext hs)

/-! ### Changes of one lane, one slot or another part -/

@[simp] theorem path_mk (X : Device) (sys : Sys) (clk : Clk) (pins : Pins) (str : Structure) (img : Image) (tbi : Tbi)
    (phases : Bank 512 Phase) (le : Engine) (tune : Tune) (rails : Bank 64 Rail) (pm : Protect) (hkt : Housekeeping)
    (hs : Hearth) (ring : RingLink) (pp : Ports) (hsp : HostPort) (ports : Bank 3 PortState) (twp : TwoWire) (sg : Guard)
    (pwr : Power) (fw : Firmware) (ocs : Store) (er : Recorder) (bog : Bog) (cap : Capture) (draws : Nat) :
    path ⟨sys, clk, pins, str, img, X.lanes, X.slots, tbi, phases, le, tune, rails, pm, hkt, hs, ring, pp, hsp, ports, twp, sg,
      pwr, fw, ocs, er, bog, cap, draws⟩ = path X := rfl

@[simp] theorem path_onPhase (d : Device) (g : Fin 512) (f : Phase → Phase) : path (d.onPhase g f) = path d := rfl
@[simp] theorem path_onRail (d : Device) (r : Fin 64) (f : Rail → Rail) : path (d.onRail r f) = path d := rfl
@[simp] theorem path_onLoop (d : Device) (r : Fin 64) (f : LoopSt → LoopSt) : path (d.onLoop r f) = path d := rfl

theorem kept_onLane {f : Lane → Lane} (n : Fin 64) (d : Device) (h : ∀ l, (f l).kept = l.kept := by intro; rfl) :
    kept (d.onLane n f) = kept d := by
  refine kept_ext (fun m => ?_) fun g => rfl
  by_cases e : n = m
  · subst e; simp [h]
  · rw [Device.onLane_lane_other d f e]

theorem path_onLane {f : Lane → Lane} (n : Fin 64) (d : Device) (h : ∀ l, (f l).kept = l.kept := by intro; rfl) :
    path (d.onLane n f) = path d := Prod.ext (kept_onLane n d h) rfl

theorem kept_onSlot {f : Slot → Slot} (g : Fin 512) (d : Device) (h : ∀ s, (f s).kept = s.kept := by intro; rfl) :
    kept (d.onSlot g f) = kept d := by
  refine kept_ext (fun n => rfl) fun k => ?_
  by_cases e : g = k
  · subst e; simp [h]
  · rw [Device.onSlot_slot_other d f e]

theorem absentees_onSlot {f : Slot → Slot} (g : Fin 512) (d : Device) (h : ∀ s, (f s).state = s.state := by intro; rfl) :
    absentees (d.onSlot g f) = absentees d := by
  funext k
  by_cases e : g = k
  · subst e; simp [absentees, h]
  · simp [absentees, Device.onSlot_slot_other d f e]

theorem path_onSlot {f : Slot → Slot} (g : Fin 512) (d : Device) (h : ∀ s, (f s).kept = s.kept := by intro; rfl)
    (h' : ∀ s, (f s).state = s.state := by intro; rfl) : path (d.onSlot g f) = path d :=
  Prod.ext (kept_onSlot g d h) (absentees_onSlot g d h')

/-- Changes of a lane that agree on what is kept, of devices that agree on it. -/
theorem kept_onLane_congr {d t : Device} {f f' : Lane → Lane} (h : kept d = kept t) (n : Fin 64)
    (hf : ∀ l, (f l).kept = (f' l.kept).kept := by intro; rfl) (hf' : ∀ l, (f' l).kept = (f' l.kept).kept := by intro; rfl) :
    kept (d.onLane n f) = kept (t.onLane n f') := by
  refine kept_ext (fun m => ?_) fun g => slot_of_kept h g
  by_cases e : n = m
  · subst e
    rw [Device.onLane_lane, Device.onLane_lane, hf, lane_of_kept h, ← hf']
  · rw [Device.onLane_lane_other d f e, Device.onLane_lane_other t f' e, lane_of_kept h]

/-- One change of a lane, of devices that agree on what is kept. -/
theorem kept_onLane_both {d t : Device} {f : Lane → Lane} (h : kept d = kept t) (n : Fin 64)
    (hf : ∀ l, (f l).kept = (f l.kept).kept := by intro; rfl) : kept (d.onLane n f) = kept (t.onLane n f) :=
  kept_onLane_congr h n hf hf

@[simp] theorem path_foldl {α : Type} (f : Device → α → Device) (h : ∀ d x, path (f d x) = path d) (l : List α) (d : Device) :
    path (l.foldl f d) = path d := foldl_keeps path h l d

@[simp] theorem path_ite (c : Prop) [Decidable c] (a b : Device) : path (if c then a else b) = if c then path a else path b :=
  apply_ite path c a b

/-! ### Events, sources and cells -/

@[simp] theorem path_raise (tm : TimeBase) (code : Nat) (payload : List Byte) (d : Device) : path (raise tm code payload d) = path d :=
  rfl

@[simp] theorem path_captureTrigger (tm : TimeBase) (k : TriggerKind) (index : Nat) (d : Device) :
    path (captureTrigger tm k index d) = path d := by
  unfold captureTrigger
  split
  · rfl
  · cases d.cap.state <;> simp

@[simp] theorem path_clearSources (pick : ProtEntry → Bool) (d : Device) : path (clearSources pick d) = path d := rfl
@[simp] theorem path_phaseGone (r : Fin 64) (d : Device) : path (phaseGone r d) = path d := rfl

@[simp] theorem path_ownerLoses (g : Fin 512) (d : Device) : path (ownerLoses g d) = path d := by
  unfold ownerLoses; split <;> simp

@[simp] theorem path_queue (f : Lane → List QCell) (n : Fin 64) (d : Device) :
    path (d.onLane n fun l => { l with queue := f l }) = path d := path_onLane n d
@[simp] theorem path_sendCell (n : Fin 64) (c : DownCell) (order : Nat) (d : Device) : path (sendCell n c order d) = path d :=
  path_onLane n d
@[simp] theorem path_sendCmd (g : Fin 512) (op : Nat) (d : Device) : path (sendCmd g op d) = path d := path_sendCell ..
@[simp] theorem path_sendStop (g : Fin 512) (d : Device) : path (sendStop g d) = path d := path_sendCmd ..

@[simp] theorem path_wakeLane (now : Nat) (n : Fin 64) (d : Device) : path (wakeLane now n d) = path d :=
  path_onLane n d fun l => by split <;> rfl
@[simp] theorem path_wakeFor (tm : TimeBase) (g : Fin 512) (d : Device) : path (wakeFor tm g d) = path d := path_wakeLane ..
@[simp] theorem path_dropEdges (n : Fin 64) (d : Device) : path (dropEdges n d) = path d := path_onLane n d

@[simp] theorem path_sendRead (g : Fin 512) (addr : Nat) (d : Device) : path (sendRead g addr d) = path d :=
  (path_sendCell ..).trans (path_onSlot g d)

/-! ### A slot's state -/

/-- Of the slots a change of STATE changes that one alone. -/
theorem setSlot_slots (g : Fin 512) (st : SlotState) (why : SlotReason) (d : Device) :
    (setSlot g st why d).slots = bankUpd d.slots g fun s => { s with state := st, reason := why } := by
  have owner (k : Fin 512) (t : Device) : (ownerLoses k t).slots = t.slots := by unfold ownerLoses; split <;> rfl
  unfold setSlot
  dsimp only
  split <;> split <;> simp [owner]

@[simp] theorem setSlot_slot (g : Fin 512) (st : SlotState) (why : SlotReason) (d : Device) :
    (setSlot g st why d).slot g = { d.slot g with state := st, reason := why } := by
  simp [Device.slot, setSlot_slots]

theorem setSlot_slot_other {g k : Fin 512} (h : g ≠ k) (st : SlotState) (why : SlotReason) (d : Device) :
    (setSlot g st why d).slot k = d.slot k := by
  simp [Device.slot, setSlot_slots, bankGet_bankUpd_other _ _ h]

theorem setSlot_lane_kept (g : Fin 512) (st : SlotState) (why : SlotReason) (d : Device) (n : Fin 64) :
    ((setSlot g st why d).lane n).kept = (d.lane n).kept := by
  have owner (t : Device) : kept (ownerLoses g t) = kept t := kept_of_path (path_ownerLoses g t)
  unfold setSlot
  dsimp only
  split <;> split
  · exact lane_of_kept ((kept_onLane _ _).trans (owner _)) n
  · exact lane_of_kept (kept_onLane _ _) n
  · exact lane_of_kept (owner _) n
  · rfl

@[simp] theorem kept_setSlot (g : Fin 512) (st : SlotState) (why : SlotReason) (d : Device) : kept (setSlot g st why d) = kept d := by
  refine kept_ext (setSlot_lane_kept g st why d) fun k => ?_
  by_cases e : g = k
  · subst e; rw [setSlot_slot]; rfl
  · rw [setSlot_slot_other e]

/-- A slot that is fitted and stays so. -/
theorem path_setSlot {g : Fin 512} {st : SlotState} {d : Device} (h : st ≠ .absent) (h' : (d.slot g).state ≠ .absent)
    (why : SlotReason) : path (setSlot g st why d) = path d := by
  refine Prod.ext (kept_setSlot g st why d) (funext fun k => ?_)
  by_cases e : g = k
  · subst e; simp [path, absentees, h, h']
  · simp [path, absentees, setSlot_slot_other e]

theorem path_setSlot_of_serving {g : Fin 512} {st : SlotState} {d : Device} (h : st ≠ .absent) (h' : (d.slot g).state = .serving)
    (why : SlotReason) : path (setSlot g st why d) = path d := path_setSlot h (by simp [h']) why

/-! ### The loop engine and auto-tune -/

@[simp] theorem path_noteMode (tm : TimeBase) (r : Fin 64) (before after : Device) :
    path (noteMode tm r before after) = path after := by
  unfold noteMode; simp

@[simp] theorem path_releaseWaited (w : Waited) (d : Device) : path (releaseWaited w d) = path d := by
  unfold releaseWaited; split <;> rfl
@[simp] theorem path_releaseAll (r : Fin 64) (d : Device) : path (releaseAll r d) = path d := by
  unfold releaseAll; simp
@[simp] theorem path_presetOuter (r : Fin 64) (b : RailSect) (out : Int) (d : Device) : path (presetOuter r b out d) = path d := rfl
@[simp] theorem path_presetInner (r : Fin 64) (b : RailSect) (g : Fin 512) (duty : Nat) (d : Device) :
    path (presetInner r b g duty d) = path d := rfl

theorem path_endTune (tm : TimeBase) (res : TuneResult) (cycles : List (Nat × Int)) (d : Device) :
    path (endTune tm res cycles d) = path d := by
  unfold endTune
  cases d.tune.run with
  | none => rfl
  | some t =>
    dsimp only [raiseTune]
    rw [path_raise]
    split
    · simp
    split
    · simp
    split
    · exact (path_foldl _ (fun _ _ => path_presetInner ..) _ _).trans (by simp)
    · simp
@[simp] theorem path_endTuneOn (tm : TimeBase) (r : Fin 64) (res : TuneResult) (d : Device) :
    path (endTuneOn tm r res d) = path d := by
  unfold endTuneOn
  split
  · exact path_endTune ..
  · rfl

@[simp] theorem path_admitInner (g : Fin 512) (r : Fin 64) (b : RailSect) (q : Period) (ma : List Int) (mode : EvalMode) (d : Device) :
    path (admitInner g r b q ma mode d).1 = path d := by
  unfold admitInner; dsimp only; split <;> rfl
@[simp] theorem path_countOverrun (r : Fin 64) (inner : Bool) (d : Device) : path (countOverrun r inner d).1 = path d := rfl

/-! ### The rail manager -/

@[simp] theorem path_unplace (g : Fin 512) (stopAt : Option Nat) (d : Device) : path (unplace g stopAt d) = path d := by
  unfold unplace
  dsimp only
  rw [path_mk, path_onPhase]
  refine (path_onSlot g _).trans ?_
  split <;> rfl

@[simp] theorem path_raiseUnwinds (tm : TimeBase) (r : Fin 64) (unwound released : List (Fin 128)) (d : Device) :
    path (raiseUnwinds tm r unwound released d) = path d := by
  unfold raiseUnwinds raiseUnwind; simp
@[simp] theorem path_countUnwound (r : Fin 64) (n : Nat) (d : Device) : path (countUnwound r n d) = path d := by
  unfold countUnwound; simp
@[simp] theorem path_dropRecords (tm : TimeBase) (r : Fin 64) (pick : AddRecord → Bool) (d : Device) :
    path (dropRecords tm r pick d) = path d := by
  unfold dropRecords; simp
@[simp] theorem path_releaseRecords (tm : TimeBase) (r : Fin 64) (pick : AddRecord → Bool) (d : Device) :
    path (releaseRecords tm r pick d) = path d := by
  unfold releaseRecords; simp
@[simp] theorem path_discardRecords (tm : TimeBase) (r : Fin 64) (d : Device) : path (discardRecords tm r d) = path d := by
  unfold discardRecords; simp

@[simp] theorem path_changeState (tm : TimeBase) (r : Fin 64) (to' : RailState) (cause : RailCause) (d : Device) :
    path (changeState tm r to' cause d) = path d := by
  unfold changeState raiseRail
  cases to' <;> simp

@[simp] theorem path_emptyPlaced (atOnce : Bool) (r : Fin 64) (d : Device) : path (emptyPlaced atOnce r d) = path d := by
  refine path_foldl _ (fun d g => ?_) _ _
  cases atOnce with
  | false => exact path_unplace ..
  | true =>
    dsimp only
    rw [if_pos rfl]
    split
    · simp
    · rename_i serving
      split <;> (rw [path_setSlot_of_serving (by decide) (not_not.mp serving)]; simp)

@[simp] theorem path_endCmd (r : Fin 64) (res : CmdResult) (d : Device) : path (endCmd r res d) = path d := rfl
@[simp] theorem path_discardPending (tm : TimeBase) (r : Fin 64) (d : Device) : path (discardPending tm r d) = path d := by
  unfold discardPending raiseRetire
  dsimp only
  rw [path_onRail, path_foldl _ (fun d t => ?_)]
  · simp
  · simp

@[simp] theorem path_leaveRunning (tm : TimeBase) (r : Fin 64) (atOnce : Bool) (to' : RailState) (cause : RailCause) (d : Device) :
    path (leaveRunning tm r atOnce to' cause d) = path d := by
  unfold leaveRunning
  cases cause <;> simp

@[simp] theorem path_enterFault (tm : TimeBase) (r : Fin 64) (cause : RailCause) (d : Device) :
    path (enterFault tm r cause d) = path d := by
  unfold enterFault; simp
@[simp] theorem path_enterSafe (tm : TimeBase) (r : Fin 64) (cause : RailCause) (d : Device) :
    path (enterSafe tm r cause d) = path d := by
  unfold enterSafe; simp
@[simp] theorem path_leaveTrim (now : Nat) (d : Device) : path (leaveTrim now d) = path d :=
  path_foldl _ (fun d n => path_wakeLane now n d) _ _
@[simp] theorem path_raisePower (tm : TimeBase) (was is cause : Nat) (d : Device) : path (raisePower tm was is cause d) = path d :=
  path_raise ..
@[simp] theorem path_enterHold (tm : TimeBase) (r : Fin 64) (cause : RailCause) (d : Device) :
    path (enterHold tm r cause d) = path d := by
  unfold enterHold; simp
@[simp] theorem path_reportEngine (tm : TimeBase) (r : Fin 64) (cause : RailCause) (d : Device) :
    path (reportEngine tm r cause d) = path d := by
  unfold reportEngine; split <;> simp

@[simp] theorem path_immediateLeave (tm : TimeBase) (g : Fin 512) (d : Device) : path (immediateLeave tm g d) = path d := by
  unfold immediateLeave checkEmpty
  split
  · simp
  · simp

theorem kept_loseSlot (tm : TimeBase) (g : Fin 512) (why : SlotReason) (d : Device) : kept (loseSlot tm g why d) = kept d :=
  (kept_of_path (path_immediateLeave ..)).trans ((kept_onSlot g _).trans (kept_setSlot ..))

/-! ### The protection matrix -/

@[simp] theorem path_actOnRail (tm : TimeBase) (r : Fin 64) (a : Nat) (d : Device) : path (actOnRail tm r a d) = path d := by
  unfold actOnRail; simp

@[simp] theorem path_stopPhase (tm : TimeBase) (g : Fin 512) (d : Device) : path (stopPhase tm g d) = path d := by
  unfold stopPhase
  dsimp only
  split
  · exact path_immediateLeave ..
  split
  · simp
  split
  · rename_i serving
    rw [path_setSlot_of_serving (by decide) serving]
    simp
  · simp

@[simp] theorem path_tripPhase (tm : TimeBase) (g : Fin 512) (d : Device) : path (tripPhase tm g d) = path d := by
  unfold tripPhase
  rw [path_stopPhase]
  split <;> simp

@[simp] theorem path_fireEntry (tm : TimeBase) (i : Nat) (e : ProtEntry) (d : Device) : path (fireEntry tm i e d) = path d := by
  unfold fireEntry; simp

@[simp] theorem path_updateSources (tm : TimeBase) (f : ProtEntry → ProtSt → ProtSt) (d : Device) :
    path (updateSources tm f d) = path d := by
  unfold updateSources fireAll
  dsimp only
  split <;> simp

@[simp] theorem path_measSources (tm : TimeBase) (g : Fin 512) (v : Nat) (d : Device) : path (measSources tm g v d) = path d := by
  unfold measSources
  split
  · rfl
  · split <;> simp
@[simp] theorem path_sampleSources (tm : TimeBase) (g : Fin 512) (f : Bool) (ma : Option (List Int)) (d : Device) :
    path (sampleSources tm g f ma d) = path d := by
  unfold sampleSources; simp
@[simp] theorem path_laneSource (tm : TimeBase) (n : Fin 64) (lost : Bool) (d : Device) : path (laneSource tm n lost d) = path d :=
  (path_updateSources ..).trans (path_onLane n d)

end Sys2Proof.Machine
end

section
/-! SUPPORT. The phase lanes at work (04_phase_lanes.md): what each operation on a lane and on its slots leaves of the view `kept`, and
what a series of changes of lanes comes to. -/

namespace Sys2Proof.Machine

/-! ### Changes of lanes after each other -/

theorem onLane_congr {d : Device} {n : Fin 64} {f f' : Lane → Lane} (h : f (d.lane n) = f' (d.lane n)) :
    d.onLane n f = d.onLane n f' :=
  congrArg (fun l => { d with lanes := bankSet d.lanes n l }) h

theorem onLane_onLane (d : Device) (n : Fin 64) (f f' : Lane → Lane) : (d.onLane n f).onLane n f' = d.onLane n fun l => f' (f l) :=
  congrArg (fun b => { d with lanes := b }) (bankUpd_bankUpd d.lanes n f f')

theorem onLane_eq_self {d : Device} {n : Fin 64} {f : Lane → Lane} (h : f (d.lane n) = d.lane n) : d.onLane n f = d :=
  congrArg (fun b => { d with lanes := b }) (bankUpd_eq_self d.lanes n h)

theorem bankGet_foldl_bankUpd {n : Nat} {α : Type} (f : α → α) {l : List (Fin n)} (hl : l.Nodup) (b : Bank n α) (i : Fin n) :
    bankGet (l.foldl (fun b k => bankUpd b k f) b) i = if i ∈ l then f (bankGet b i) else bankGet b i := by
  induction l generalizing b with
  | nil => simp
  | cons k t ih =>
    obtain ⟨hk, ht⟩ := List.nodup_cons.mp hl
    rw [List.foldl_cons, ih ht]
    by_cases e : k = i
    · subst e; simp [hk]
    · simp [bankGet_bankUpd_other b f e, Ne.symm e]

theorem bank_ext {n : Nat} {α : Type} {a b : Bank n α} (h : ∀ i, bankGet a i = bankGet b i) : a = b :=
  Vector.ext fun i hi => h ⟨i, hi⟩

theorem foldl_onLane_lanes (f : Lane → Lane) (l : List (Fin 64)) (d : Device) :
    l.foldl (fun d n => d.onLane n f) d = { d with lanes := l.foldl (fun b n => bankUpd b n f) d.lanes } := by
  induction l generalizing d with
  | nil => rfl
  | cons n t ih => exact ih (d.onLane n f)

/-- One change of every lane. -/
theorem foldl_onLane (f : Lane → Lane) (d : Device) :
    (List.finRange 64).foldl (fun d n => d.onLane n f) d = { d with lanes := bankMap d.lanes fun _ => f } := by
  rw [foldl_onLane_lanes]
  refine congrArg (fun b => { d with lanes := b }) (bank_ext fun i => ?_)
  rw [bankGet_foldl_bankUpd f (List.nodup_finRange 64), bankGet_bankMap, if_pos (List.mem_finRange i)]

/-! ### Reading a field that is kept -/

theorem lane_of_onLane_kept {t d : Device} {n : Fin 64} {f : Lane → Lane} (h : kept t = kept (d.onLane n f)) :
    (t.lane n).kept = (f (d.lane n)).kept := by
  rw [lane_of_kept h, Device.onLane_lane]

theorem slot_of_onSlot_kept {t d : Device} {g : Fin 512} {f : Slot → Slot} (h : kept t = kept (d.onSlot g f)) :
    (t.slot g).kept = (f (d.slot g)).kept := by
  rw [slot_of_kept h, Device.onSlot_slot]

theorem kept_foldl {α : Type} {f : Device → α → Device} (h : ∀ d x, kept (f d x) = kept d) (l : List α) (d : Device) :
    kept (l.foldl f d) = kept d := foldl_keeps kept h l d

/-! ### Slots -/

theorem kept_discoverSlot (tm : TimeBase) (g : Fin 512) (d : Device) : kept (discoverSlot tm g d) = kept d :=
  (kept_of_path (path_sendRead ..)).trans ((kept_onSlot g _).trans (kept_of_path (path_wakeFor ..)))

theorem kept_slotRemoved (tm : TimeBase) (g : Fin 512) (d : Device) : kept (slotRemoved tm g d) = kept d := by
  unfold slotRemoved
  split
  · rfl
  iterate 2 exact (kept_setSlot ..).trans ((kept_loseSlot ..).trans (kept_onSlot g d))
  · exact (kept_setSlot ..).trans (kept_onSlot g d)

theorem kept_slotHalted (tm : TimeBase) (g : Fin 512) (fault : Byte) (d : Device) : kept (slotHalted tm g fault d) = kept d := by
  unfold slotHalted
  dsimp only
  split
  · rfl
  split
  · rfl
  · exact kept_loseSlot ..

theorem kept_returnSlot (g : Fin 512) (d : Device) : kept (returnSlot g d) = kept d := by
  unfold returnSlot
  split
  · exact (kept_setSlot ..).trans (kept_onSlot g d)
  · rfl

theorem kept_endCalibration (g : Fin 512) (ok : Bool) (d : Device) : kept (endCalibration g ok d) = kept d := by
  have stopped := (kept_of_path (path_sendStop g _)).trans (kept_onSlot (f := fun s => { s with cal := none, fresh := ok }) g d)
  unfold endCalibration
  dsimp only
  split <;> exact (kept_setSlot ..).trans stopped

theorem kept_sendNoPulse (tm : TimeBase) (g : Fin 512) (cells exact : Nat) (sum : Int) (prev : Nat) (d : Device) :
    kept (sendNoPulse tm g cells exact sum prev d) = kept d :=
  (kept_of_path (path_sendCell ..)).trans (kept_onSlot g d)

theorem kept_calPeriod (tm : TimeBase) (g : Fin 512) (samples : Option (List Int)) (d : Device) :
    kept (calPeriod tm g samples d) = kept d := by
  unfold calPeriod
  split
  · cases samples
    all_goals
      dsimp only
      split
      · exact (kept_endCalibration ..).trans (kept_onSlot g d)
      split
      · exact kept_endCalibration ..
      · exact kept_sendNoPulse ..
  · rfl

/-! ### Samples and measurements (R113 to R116, R126, R129) -/

theorem path_sampleToEngine (tm : TimeBase) (g : Fin 512) (q : Period) (exact : Bool) (ma : List Int) (d : Device) :
    path (sampleToEngine tm g q exact ma d) = path d := by
  unfold sampleToEngine
  split
  · rfl
  split
  · rfl
  split
  · rfl
  dsimp only
  split
  · rfl
  split
  · rfl
  split
  · exact path_admitInner ..
  split
  · simp
  · simp

/-- A slot with the flags of a SAMPLE cell counted (R115). -/
def flagsCounted (f sat : Bool) (s : Slot) : Slot :=
  { s with errOc := if f then satInc s.errOc else s.errOc, errSat := if sat then satInc s.errSat else s.errSat }

/-- The counters of a SAMPLE cell: a late cell on its lane, its flags on its slot. -/
def sampleCounted (n : Fin 64) (g : Fin 512) (f late sat : Bool) (d : Device) : Device :=
  (if late then d.onLane n fun l => { l with upLate := satInc l.upLate } else d).onSlot g (flagsCounted f sat)

theorem sampleCounted_lane (n : Fin 64) (g : Fin 512) (f late sat : Bool) (d : Device) :
    ((sampleCounted n g f late sat d).lane n).upLate = if late then satInc (d.lane n).upLate else (d.lane n).upLate := by
  unfold sampleCounted
  split <;> simp

theorem sampleCounted_slot (n : Fin 64) (g : Fin 512) (f late sat : Bool) (d : Device) :
    (sampleCounted n g f late sat d).slot g = flagsCounted f sat (d.slot g) := by
  unfold sampleCounted
  split <;> simp

/-- Beside its counters a SAMPLE cell moves what the protection, the calibration and the loop engine hold. -/
theorem kept_deliverSamples {n : Fin 64} {d : Device} (h : (d.lane n).state = .up) (tm : TimeBase) (slot : Fin 8) (f late sat : Bool)
    (samples : List Int) :
    kept (deliverSamples tm n slot f late sat samples d) = kept (sampleCounted n (globalSlot n slot) f late sat d) := by
  unfold deliverSamples
  rw [if_neg (not_not.mpr h)]
  have protection (ma : Option (List Int)) (t : Device) : kept (sampleSources tm (globalSlot n slot) f ma t) = kept t :=
    kept_of_path (path_sampleSources ..)
  dsimp only
  split
  · exact (kept_calPeriod ..).trans ((kept_onSlot ..).trans (protection ..))
  · split
    · exact (kept_onSlot ..).trans (protection ..)
    · refine (kept_of_path (path_sampleToEngine ..)).trans ((kept_of_path (path_onPhase ..)).trans ?_)
      exact (kept_onSlot ..).trans (protection ..)

/-- A missing cell is counted; what it ends is the calibration's, the rail's or the loop engine's. -/
theorem kept_missSample (tm : TimeBase) (g : Fin 512) (d : Device) :
    kept (missSample tm g d) = kept (d.onSlot g fun s => { s with errMissing := satInc s.errMissing, missRun := s.missRun + 1 }) := by
  generalize hu : (d.onSlot g fun s => { s with errMissing := satInc s.errMissing, missRun := s.missRun + 1 }) = u
  have ends (broken : Bool) (v : Device) (hv : path v = path u) :
      kept (if (v.slot g).missRun ≥ 3 then sendStop g (loseSlot tm g .missing v)
        else if broken then v.onSlot g fun s => { s with missRun := 0 } else v) = kept u := by
    refine Eq.trans ?_ (kept_of_path hv)
    split
    · exact (kept_of_path (path_sendStop ..)).trans (kept_loseSlot ..)
    split
    · exact kept_onSlot g v
    · rfl
  unfold missSample
  rw [hu]
  dsimp only
  split
  · exact kept_calPeriod ..
  split
  · rfl
  refine ends _ _ ?_
  split
  · split <;> simp
  · rfl

/-- What a MEAS cell leaves of its values, with the instants of R126. -/
def measTaken (tm : TimeBase) (g : Fin 512) (vout vin temp : BitVec 16) (d : Device) : MeasView :=
  let s := d.slot g
  let now := tm.time.toNat
  ⟨measVout s vout, measVin s vin, vin, temp, now,
    if decide (s.state = .serving) || decide (s.state = .calibrating) then s.sampledAt.getD now else now,
    match s.owner with | some r => (railCarrier d r).k | none => 0⟩

theorem kept_takeMeas {n : Fin 64} {d : Device} (h : (d.lane n).state = .up) (tm : TimeBase) (slot : Fin 8)
    (vout vin temp : BitVec 16) :
    kept (takeMeas tm n slot vout vin temp d) = kept (d.onSlot (globalSlot n slot) fun s =>
      { s with meas := some (measTaken tm (globalSlot n slot) vout vin temp d), measWas := s.meas, temp := temp }) := by
  unfold takeMeas
  rw [if_neg (not_not.mpr h)]
  refine (kept_of_path (path_measSources ..)).trans ?_
  cases owned : (d.slot (globalSlot n slot)).owner with
  | none => simp only [measTaken, owned]
  | some r => simp only [measTaken, owned]; rfl

/-! ### The slots of a lane that come and go (R123, R132) -/

theorem kept_setFitted (tm : TimeBase) (n : Fin 64) (mask : BitVec 8) (d : Device) :
    kept (setFitted tm n mask d) = kept (d.onLane n fun l => { l with fitted := mask }) := by
  unfold setFitted
  dsimp only
  split
  · rename_i same
    exact congrArg kept (onLane_eq_self (by rw [← same])).symm
  · refine (kept_foldl (fun d s => ?_) _ _).trans (kept_onLane_congr rfl n)
    split
    · exact kept_slotRemoved ..
    split
    · exact kept_discoverSlot ..
    · rfl

theorem kept_discoverFitted (tm : TimeBase) (n : Fin 64) (mask : BitVec 8) (pick : Slot → Bool) (d : Device) :
    kept (discoverFitted tm n mask pick d) = kept (d.onLane n fun l => { l with fitted := mask }) := by
  unfold discoverFitted
  refine (kept_foldl (fun d s => ?_) _ _).trans (kept_onLane_congr rfl n)
  dsimp only
  split
  · exact kept_slotRemoved ..
  split
  · exact kept_discoverSlot ..
  · rfl

/-! ### Retraining and loss (R133 to R135) -/

/-- A lane whose retraining begins. -/
def retrained (tm : TimeBase) (l : Lane) : Lane :=
  { l with
    state := .retrain, attempt := 0, retrains := satInc l.retrains, errTimes := [], dnTimes := []
    train := some ⟨0, tm.time.toNat, tm.time.toNat, []⟩ }

theorem kept_startRetrain {n : Fin 64} {d : Device} (h : (d.lane n).state = .up) (tm : TimeBase) :
    kept (startRetrain tm n d) = kept (d.onLane n (retrained tm)) := by
  unfold startRetrain
  rw [if_neg (not_not.mpr h)]
  refine (kept_foldl (fun d g => ?_) _ _).trans (kept_onLane_congr (kept_of_path (path_dropEdges n d)) n)
  split
  iterate 3 exact kept_onSlot g d
  · exact kept_loseSlot ..

theorem kept_laneLoss (tm : TimeBase) (n : Fin 64) (d : Device) :
    kept (laneLoss tm n d) = kept (d.onLane n fun l => { l with losses := satInc l.losses }) :=
  (kept_of_path ((path_laneSource ..).trans (path_raise ..))).trans (kept_onLane_congr rfl n)

/-! ### UP and UNUSED (Table 4-15) -/

theorem kept_enterUp (tm : TimeBase) (n : Fin 64) (d : Device) :
    kept (enterUp tm n d) = kept (d.onLane n fun l => { l with
      state := .up, train := none, attempt := 0, errTimes := [], dnTimes := [], idleSince := tm.time.toNat }) :=
  (kept_of_path (path_laneSource ..)).trans (kept_onLane_congr rfl n)

/-- A lane that has come UP with a module. -/
def cameUp (tm : TimeBase) (i : ModIdent) (seen : Option Byte) (l : Lane) : Lane :=
  { l with
    state := .up, train := none, attempt := 0, errTimes := [], dnTimes := [], idleSince := tm.time.toNat
    vendor := i.vendor, product := i.product, serial := i.serial, proto := i.proto, fitted := i.slots, dnSeen := seen }

theorem kept_trainingEnds {n : Fin 64} {t : Training} {d : Device} (hs : (d.lane n).state = .training)
    (ht : (d.lane n).train = some t) (h3 : t.step = 3) (tm : TimeBase) (i : ModIdent) :
    kept (trainingEnds tm n i d) = kept (d.onLane n (cameUp tm i none)) := by
  unfold trainingEnds
  rw [hs, ht]
  dsimp only
  rw [if_neg (not_not.mpr h3)]
  refine (kept_discoverFitted ..).trans ((kept_onLane_both (kept_enterUp ..) n).trans ?_)
  unfold takeIdentity
  simp only [onLane_onLane]
  rfl

theorem kept_retrainEnds {n : Fin 64} {t : Training} {d : Device} (hs : (d.lane n).state = .retrain)
    (ht : (d.lane n).train = some t) (h3 : t.step = 3) (tm : TimeBase) (i : ModIdent) :
    ∃ seen, kept (retrainEnds tm n (some i) d) = kept (d.onLane n (cameUp tm i seen)) := by
  have up : kept (enterUp tm n (takeIdentity n i d)) = _ := kept_enterUp ..
  unfold retrainEnds
  rw [hs, ht]
  dsimp only
  rw [if_neg (not_not.mpr h3)]
  split
  · refine ⟨(d.lane n).dnSeen, (kept_setFitted ..).trans ?_⟩
    refine (kept_onLane_both ((kept_foldl (fun d g => kept_returnSlot g d) _ _).trans up) n).trans ?_
    unfold takeIdentity
    simp only [onLane_onLane]
    exact congrArg kept (onLane_congr rfl)
  · refine ⟨none, (kept_discoverFitted ..).trans ((kept_onLane_both (kept_onLane_both (.trans ?_ up) n) n).trans ?_)⟩
    · refine kept_foldl (fun d g => ?_) _ _
      split
      · exact kept_onSlot g d
      · rfl
    · unfold takeIdentity
      simp only [onLane_onLane]
      rfl

end Sys2Proof.Machine
end

section
/-! SUPPORT. Writes of a LANE or SLOT word that are commands with a row of their own (Table 4-17, Table 4-23), and the events of the
lanes: what the state is afterwards. -/

namespace Sys2Proof.Machine

@[simp] theorem rowStarts_lane (src : Src) (a : Addr) (s : State) (n : Fin 64) : (rowStarts src a s).dev.lane n = s.dev.lane n := by
  simp [Device.lane]
@[simp] theorem rowStarts_slot (src : Src) (a : Addr) (s : State) (g : Fin 512) : (rowStarts src a s).dev.slot g = s.dev.slot g := by
  simp [Device.slot]

@[simp] theorem rowEnds_lanes (src : Src) (a : Addr) (st : Byte) (d : Device) : (rowEnds src a st d).lanes = d.lanes := by
  obtain ⟨_, _, _, _, h, -⟩ := rowEnds_sameButAccess src a st d; rw [h]
@[simp] theorem rowEnds_slots (src : Src) (a : Addr) (st : Byte) (d : Device) : (rowEnds src a st d).slots = d.slots := by
  obtain ⟨_, _, _, _, h, -⟩ := rowEnds_sameButAccess src a st d; rw [h]
@[simp] theorem rowEnds_lane (src : Src) (a : Addr) (st : Byte) (d : Device) (n : Fin 64) : (rowEnds src a st d).lane n = d.lane n := by
  simp [Device.lane]
@[simp] theorem rowEnds_slot (src : Src) (a : Addr) (st : Byte) (d : Device) (g : Fin 512) : (rowEnds src a st d).slot g = d.slot g := by
  simp [Device.slot]

/-- A write that needs ENGINEER, reaches its register and has it (R318). -/
theorem rowWrite_of_engineer {src : Src} {win : Window} {s : State} (hr : Reaches src win s) (hm : may s.dev src .engineer = true)
    (a : Addr) (w : Word) (f : TimeBase → NonVol → Device → Device) :
    rowWrite src a w win (writeState (engineer src) fun s => s.onDev (f s.tm s.nv)) s = Wrote src a 0 (f s.tm s.nv) s := by
  rw [rowWrite_of_reaches hr, writeState_of_allowed (by simpa [engineer] using hm)]
  simp [Wrote]

/-- What such a write leaves of lanes and slots. -/
theorem engineerRow_leaves {src : Src} {win : Window} {s : State} (hr : Reaches src win s) (hm : may s.dev src .engineer = true)
    (a : Addr) (w : Word) (f : TimeBase → NonVol → Device → Device) :
    ∃ d, rowWrite src a w win (writeState (engineer src) fun s => s.onDev (f s.tm s.nv)) s = { s with dev := d } ∧
      (∀ n, d.lane n = (f s.tm s.nv (rowStarts src a s).dev).lane n) ∧ ∀ g, d.slot g = (f s.tm s.nv (rowStarts src a s).dev).slot g :=
  ⟨_, (rowWrite_of_engineer hr hm a w f).trans (wrote_eq ..), fun _ => rowEnds_lane .., fun _ => rowEnds_slot ..⟩

end Sys2Proof.Machine
end

section
/-! SUPPORT. Training and retraining of a lane (R101, R131, R133 to R135), step by step. -/

namespace Sys2Proof.Machine

/-! ### Training (R101, R131) -/

theorem startTraining_of_down {n : Fin 64} {d : Device} (h : (d.lane n).state = .down) (tm : TimeBase) :
    startTraining tm n d = d.onLane n fun l =>
      { l with state := .training, attempt := 0, train := some ⟨0, tm.time.toNat, tm.time.toNat, []⟩ } := if_neg (not_not.mpr h)

theorem upstreamLock_of_down {n : Fin 64} {d : Device} (h : (d.lane n).state = .down) (tm : TimeBase) :
    upstreamLock tm n d = d.onLane n fun l => { l with
      state := .training, attempt := 0, train := some ⟨1, tm.time.toNat, tm.time.toNat, []⟩
      queue := l.queue ++ [⟨.echo 0, 0⟩] } := by
  unfold upstreamLock
  rw [startTraining_of_down h]
  simp only [Device.onLane_lane, if_true, sendEcho, sendCell, onLane_onLane]
  rfl

theorem echoReply_of_next {n : Fin 64} {t : Training} {tag : Byte} {d : Device} (ht : (d.lane n).train = some t) (h1 : t.step = 1)
    (htag : tag.toNat = t.rtd.length) (hlen : t.rtd.length < 7) (tm : TimeBase) (turn rtd : BitVec 16) :
    echoReply tm n tag turn rtd d = d.onLane n fun l => { l with
      train := some { t with step := 1, stepAt := tm.time.toNat, rtd := t.rtd ++ [(rtd, turn)] }
      queue := l.queue ++ [⟨.echo (byte (t.rtd.length + 1)), 0⟩] } := by
  have next : (t.rtd ++ [(rtd, turn)]).length = t.rtd.length + 1 := List.length_append
  have early : t.rtd.length + 1 < 8 := by omega
  have awaited : ¬(t.step ≠ 1 ∨ tag.toNat ≠ t.rtd.length) := by simp [h1, htag]
  simp only [echoReply, ht, if_neg awaited, next, if_pos early, sendEcho, sendCell, onLane_onLane]

theorem trainingTimeout_of_late {n : Fin 64} {t : Training} {tm : TimeBase} {d : Device} (hs : (d.lane n).state = .training)
    (ht : (d.lane n).train = some t) (h : tm.time.toNat - t.start ≥ 1600000) :
    trainingTimeout tm n d = d.onLane n fun l => { l with state := .down, train := none } := by
  have expired : stepExpired tm.time.toNat t = true := by simp [stepExpired, h]
  simp only [trainingTimeout, ht, expired, if_true, attemptFails, hs, trainingFails]

/-! ### Retraining (R133 to R135) -/

/-- Loss of lock of an UP lane whose receiver is awake. -/
theorem kept_upstreamLost {n : Fin 64} {d : Device} (hs : (d.lane n).state = .up) (ha : (d.lane n).asleep = false) (tm : TimeBase)
    (errors : Byte) : kept (upstreamLost tm n errors d) =
      kept (d.onLane n fun l => retrained tm { l with symErr := l.symErr + errors.setWidth 32 }) := by
  have counted : upstreamLost tm n errors d = startRetrain tm n (countSymbols n errors d) := by
    simp [upstreamLost, hs, causeRetrain, countSymbols, ha]
  rw [counted, kept_startRetrain (by simp [countSymbols, hs]), countSymbols, onLane_onLane]

theorem laneRetrain_of_up {n : Fin 64} {d : Device} (hs : (d.lane n).state = .up) (tm : TimeBase) :
    laneRetrain tm n d = startRetrain tm n d := by
  simp [laneRetrain, hs]

theorem retrainEnds_of_failed {n : Fin 64} {d : Device} (hs : (d.lane n).state = .retrain) (tm : TimeBase) :
    retrainEnds tm n none d = retrainFails tm n d := by
  simp [retrainEnds, hs]

theorem retrainFails_of_early {n : Fin 64} {d : Device} (h : (d.lane n).attempt < 2) (tm : TimeBase) :
    retrainFails tm n d = d.onLane n fun l =>
      { l with attempt := l.attempt + 1, train := some ⟨0, tm.time.toNat, tm.time.toNat, []⟩ } := by
  unfold retrainFails
  rw [if_neg (by omega)]
  exact onLane_congr rfl

theorem kept_retrainFails_of_last {n : Fin 64} {d : Device} (h : (d.lane n).attempt = 2) (tm : TimeBase) :
    kept (retrainFails tm n d) =
      kept (d.onLane n fun l => { l with state := .down, attempt := 3, train := none, losses := satInc l.losses }) := by
  unfold retrainFails
  rw [if_pos (by omega), kept_laneLoss, onLane_onLane, h]

/-- Settles O13, by what each event leaves of the lane: the steps of a training and the failures of an attempt change nothing else;
where other units act too - an end, a loss - the lane is read from the view that they keep. -/
theorem lanesTrain : Obligations.LanesTrain := by
  refine ⟨fun n s h => next_of_dev (startTraining_of_down h s.tm), fun n s h => next_of_dev (upstreamLock_of_down h s.tm),
    fun n t tag turn rtd s ht h1 htag hlen => next_of_dev (echoReply_of_next ht h1 htag hlen s.tm turn rtd),
    fun n t s hs ht h => next_of_dev (trainingTimeout_of_late hs ht h), fun n t ident s hs ht h3 => ?_, fun n s hs ha errors => ?_,
    fun src n s hs hm hr => ?_, fun n t ident s hs ht h3 => ?_,
    fun n s hs h => next_of_dev ((retrainEnds_of_failed hs s.tm).trans (retrainFails_of_early h s.tm)), fun n s hs h => ?_⟩
  · have is := lane_of_onLane_kept (kept_trainingEnds hs ht h3 s.tm ident)
    exact ⟨_, rfl, congrArg Lane.state is, congrArg Lane.train is, congrArg Lane.vendor is, congrArg Lane.product is,
      congrArg Lane.serial is, congrArg Lane.proto is, congrArg Lane.fitted is⟩
  · have is := lane_of_onLane_kept (kept_upstreamLost hs ha s.tm errors)
    exact ⟨_, rfl, congrArg Lane.state is, congrArg Lane.retrains is, congrArg Lane.attempt is, congrArg Lane.symErr is⟩
  · obtain ⟨d, row, lane, -⟩ := engineerRow_leaves hr hm (wordAt 0x1000 32 n.val 1) (withBits s (wordAt 0x1000 32 n.val 1) 1)
      fun tm _ => laneRetrain tm n
    have up : ((rowStarts src (wordAt 0x1000 32 n.val 1) s).dev.lane n).state = .up := by simpa using hs
    have is := lane_of_onLane_kept (kept_startRetrain up s.tm)
    rw [rowStarts_lane, ← laneRetrain_of_up up, ← lane] at is
    exact ⟨d, congrArg Host.Outcome.next row, congrArg Lane.state is, congrArg Lane.retrains is, congrArg Lane.attempt is⟩
  · obtain ⟨seen, ends⟩ := kept_retrainEnds hs ht h3 s.tm ident
    have is := lane_of_onLane_kept ends
    exact ⟨_, rfl, congrArg Lane.state is, congrArg Lane.train is, congrArg Lane.attempt is, congrArg Lane.serial is,
      congrArg Lane.fitted is⟩
  · have is := lane_of_onLane_kept ((congrArg kept (retrainEnds_of_failed hs s.tm)).trans (kept_retrainFails_of_last h s.tm))
    exact ⟨_, rfl, congrArg Lane.state is, congrArg Lane.losses is, congrArg Lane.train is⟩

end Sys2Proof.Machine
end

section
/-! SUPPORT. Lanes that leave service (R97, R133, R362, Table 4-15): DISABLE, the receiver's sleep in TRIM, and cells that are
discarded. -/

namespace Sys2Proof.Machine

/-! ### DISABLE (R133) -/

theorem laneServes_congr {d t : Device} (h : d.slots = t.slots) (n : Fin 64) : laneServes d n = laneServes t n := by
  unfold laneServes Device.slot
  rw [h]

theorem writeDisable_true (tm : TimeBase) (n : Fin 64) (d : Device) :
    writeDisable tm n true d = disableTakesEffect tm n (d.onLane n fun l => { l with disable := true }) := by
  simp only [writeDisable, if_true]

theorem disableTakesEffect_of_serving {n : Fin 64} {d : Device} (h : laneServes d n = true) (tm : TimeBase) :
    disableTakesEffect tm n d = d := by
  simp [disableTakesEffect, h]

theorem disableTakesEffect_of_free {n : Fin 64} {d : Device} (hd : (d.lane n).disable = true) (hs : (d.lane n).state ≠ .unused)
    (h : laneServes d n = false) (tm : TimeBase) : disableTakesEffect tm n d = laneUnused tm n d := by
  simp [disableTakesEffect, hd, hs, h]

/-- A slot of a lane that goes to UNUSED (Table 4-15). -/
def slotUnused (tm : TimeBase) (g : Fin 512) (d : Device) : Device :=
  let d := immediateLeave tm g (sendStop g (d.onSlot g fun s => { s with cal := none, disc := none, heldBack := false }))
  if (d.slot g).state = .absent then d else setSlot g .absent .none d

/-- A lane that goes to UNUSED, slot by slot. -/
theorem laneUnused_eq (tm : TimeBase) (n : Fin 64) (d : Device) : laneUnused tm n d = settleDomain (quadOfLane n)
    (((laneSlots n).foldl (fun d g => slotUnused tm g d) d).onLane n fun l => { l with state := .unused, train := none }) := rfl

theorem settleDomain_slot (q : Fin 4) (d : Device) (g : Fin 512) : (settleDomain q d).slot g = d.slot g := by
  unfold settleDomain
  dsimp only
  split <;> rfl

theorem kept_settleDomain (q : Fin 4) (d : Device) : kept (settleDomain q d) = kept d := by
  unfold settleDomain
  dsimp only
  split <;> rfl

theorem path_slotUnused_leave (tm : TimeBase) (g : Fin 512) (d : Device) :
    path (immediateLeave tm g (sendStop g (d.onSlot g fun s => { s with cal := none, disc := none, heldBack := false }))) = path d :=
  (path_immediateLeave ..).trans ((path_sendStop ..).trans (path_onSlot g d))

theorem kept_slotUnused (tm : TimeBase) (g : Fin 512) (d : Device) : kept (slotUnused tm g d) = kept d := by
  have left := kept_of_path (path_slotUnused_leave tm g d)
  unfold slotUnused
  dsimp only
  split
  · exact left
  · exact (kept_setSlot ..).trans left

theorem slotUnused_absent (tm : TimeBase) (g : Fin 512) (d : Device) : ((slotUnused tm g d).slot g).state = .absent := by
  unfold slotUnused
  dsimp only
  split
  · assumption
  · rw [setSlot_slot]

theorem slotUnused_absent_of_absent {k : Fin 512} {d : Device} (h : (d.slot k).state = .absent) (tm : TimeBase) (g : Fin 512) :
    ((slotUnused tm g d).slot k).state = .absent := by
  by_cases e : g = k
  · subst e; exact slotUnused_absent tm g d
  · have left := congrFun (absentees_of_path (path_slotUnused_leave tm g d)) k
    simp only [absentees, h, decide_true, decide_eq_true_eq] at left
    unfold slotUnused
    dsimp only
    split
    · exact left
    · rw [setSlot_slot_other e]; exact left

/-- The slots that have been gone through are ABSENT, as are those that were. -/
theorem foldl_slotUnused_absent (tm : TimeBase) (l : List (Fin 512)) {k : Fin 512} {d : Device}
    (h : k ∈ l ∨ (d.slot k).state = .absent) : ((l.foldl (fun d g => slotUnused tm g d) d).slot k).state = .absent := by
  induction l generalizing d with
  | nil => exact h.resolve_left List.not_mem_nil
  | cons g t ih =>
    refine ih ?_
    rcases h with hm | ha
    · rcases List.mem_cons.mp hm with rfl | hm
      · exact .inr (slotUnused_absent ..)
      · exact .inl hm
    · exact .inr (slotUnused_absent_of_absent ha ..)

theorem laneUnused_slot (tm : TimeBase) (n : Fin 64) (d : Device) (g : Fin 512) :
    (laneUnused tm n d).slot g = ((laneSlots n).foldl (fun d g => slotUnused tm g d) d).slot g := by
  rw [laneUnused_eq, settleDomain_slot, Device.onLane_slot]

theorem globalSlot_mem_laneSlots (n : Fin 64) (k : Fin 8) : globalSlot n k ∈ laneSlots n :=
  List.mem_map_of_mem (List.mem_finRange k)

theorem laneUnused_slot_absent (tm : TimeBase) (n : Fin 64) (d : Device) (k : Fin 8) :
    ((laneUnused tm n d).slot (globalSlot n k)).state = .absent := by
  rw [laneUnused_slot]
  exact foldl_slotUnused_absent tm _ (.inl (globalSlot_mem_laneSlots n k))

theorem kept_laneUnused (tm : TimeBase) (n : Fin 64) (d : Device) :
    kept (laneUnused tm n d) = kept (d.onLane n fun l => { l with state := .unused, train := none }) := by
  rw [laneUnused_eq, kept_settleDomain]
  exact kept_onLane_both (kept_foldl (fun d g => kept_slotUnused tm g d) _ _) n

/-! ### The receiver's sleep (R362) and discarded cells (R97) -/

theorem receiverSleeps_of_idle {n : Fin 64} {tm : TimeBase} {d : Device} (hm : d.pwr.mode = .trim) (ht : d.clk.trim = true)
    (hs : (d.lane n).state = .up)
    (hi : ∀ k : Fin 8, (d.slot (globalSlot n k)).state ≠ .serving ∧ (d.slot (globalSlot n k)).state ≠ .calibrating)
    (h : tm.time.toNat - (d.lane n).idleSince ≥ 800000) : receiverSleeps tm n d = d.onLane n fun l => { l with asleep := true } := by
  have idle : ((laneSlots n).any fun g =>
      decide ((d.slot g).state = .serving) || decide ((d.slot g).state = .calibrating)) = false := by
    simpa [laneSlots] using hi
  exact if_pos ⟨hm, ht, hs, idle, h⟩

theorem cellError_of_down {n : Fin 64} {d : Device} (h : (d.lane n).state = .down) (tm : TimeBase) (errors : Byte) :
    cellError tm n errors d = d.onLane n fun l => { l with
      crcErr := l.crcErr + 1, symErr := l.symErr + errors.setWidth 32
      errTimes := tm.time.toNat :: l.errTimes.filter fun t => decide (tm.time.toNat - t < 800000) } := by
  simp only [cellError, h, countSymbols, onLane_onLane, Device.onLane_lane, reduceCtorEq, false_and, if_false]
  exact onLane_congr rfl

/-- Settles O14: DISABLE by whether a slot serves, the receiver's sleep, and a discarded cell. -/
theorem laneLeaves : Obligations.LaneLeaves := by
  refine ⟨fun src n s hm hr => ⟨fun h => ?_, fun hs h => ?_⟩, fun n s hd hs h => ?_,
    fun n s hm ht hs hi h => next_of_dev (receiverSleeps_of_idle hm ht hs hi h),
    fun n errors s h => next_of_dev (cellError_of_down h s.tm errors)⟩
  all_goals have serves (src a) : laneServes (rowStarts src a s).dev n = laneServes s.dev n := laneServes_congr (rowStarts_slots ..) n
  · refine congrArg Host.Outcome.next ((rowWrite_of_engineer hr hm _ _ fun tm _ => writeDisable tm n true).trans (wrote_congr ?_ 0))
    exact (writeDisable_true ..).trans (disableTakesEffect_of_serving (d := Device.onLane _ n _) ((serves ..).trans h) s.tm)
  · obtain ⟨d, row, lane, -⟩ := engineerRow_leaves hr hm (wordAt 0x1000 32 n.val 1) (withBits s (wordAt 0x1000 32 n.val 1) 4)
      fun tm _ => writeDisable tm n true
    generalize hu : (rowStarts src (wordAt 0x1000 32 n.val 1) s).dev.onLane n (fun l => { l with disable := true }) = u
    have disabled : (u.lane n).disable = true := by subst hu; simp
    have free : disableTakesEffect s.tm n u = laneUnused s.tm n u := by
      subst hu
      exact disableTakesEffect_of_free (d := Device.onLane _ n _) disabled (by simpa using hs) ((serves ..).trans h) s.tm
    have is := lane_of_onLane_kept (kept_laneUnused s.tm n u)
    rw [← free, ← hu, ← writeDisable_true, ← lane] at is
    exact ⟨d, congrArg Host.Outcome.next row, (congrArg Lane.disable is).trans (by rw [hu]; exact disabled), congrArg Lane.state is⟩
  · have free := disableTakesEffect_of_free hd hs h s.tm
    refine ⟨_, next_of_dev free, ?_, laneUnused_slot_absent s.tm n s.dev⟩
    exact congrArg Lane.state (lane_of_onLane_kept (kept_laneUnused s.tm n s.dev))

end Sys2Proof.Machine
end

section
/-! SUPPORT. The cells of a module (R113 to R117, R126, R129) and the TIME cells (R102): what each leaves of its slot and its lane. -/

namespace Sys2Proof.Machine

/-! ### SAMPLE cells (R113 to R115) -/

theorem deliverSamples_counts {n : Fin 64} {d : Device} (h : (d.lane n).state = .up) (tm : TimeBase) (k : Fin 8) (f late sat : Bool)
    (samples : List Int) :
    ((deliverSamples tm n k f late sat samples d).slot (globalSlot n k)).errOc =
        (if f then satInc (d.slot (globalSlot n k)).errOc else (d.slot (globalSlot n k)).errOc) ∧
      ((deliverSamples tm n k f late sat samples d).slot (globalSlot n k)).errSat =
        (if sat then satInc (d.slot (globalSlot n k)).errSat else (d.slot (globalSlot n k)).errSat) ∧
      ((deliverSamples tm n k f late sat samples d).lane n).upLate =
        if late then satInc (d.lane n).upLate else (d.lane n).upLate := by
  have counted := kept_deliverSamples h tm k f late sat samples
  have slot := (slot_of_kept counted (globalSlot n k)).trans (congrArg Slot.kept (sampleCounted_slot ..))
  exact ⟨(congrArg Slot.errOc slot :), (congrArg Slot.errSat slot :),
    (congrArg Lane.upLate (lane_of_kept counted n)).trans (sampleCounted_lane ..)⟩

/-! ### STATUS (R117, R132, R134) -/

/-- What a STATUS cell reports of a lane, beside the slots so far as others leave them alone. -/
def reported (n : Fin 64) (d : Device) : (Fin 512 → Slot) × BitVec 8 × Option Byte :=
  ((kept d).2, (d.lane n).fitted, (d.lane n).dnSeen)

theorem reported_of_kept {d t : Device} (h : kept d = kept t) (n : Fin 64) : reported n d = reported n t := by
  have is := lane_of_kept h n
  have fitted : (d.lane n).fitted = (t.lane n).fitted := (congrArg Lane.fitted is :)
  have seen : (d.lane n).dnSeen = (t.lane n).dnSeen := (congrArg Lane.dnSeen is :)
  rw [reported, reported, h, fitted, seen]

theorem reported_causeRetrain (tm : TimeBase) (n : Fin 64) (d : Device) : reported n (causeRetrain tm n d) = reported n d := by
  unfold causeRetrain
  split
  · rfl
  by_cases up : (d.lane n).state = .up
  · rw [reported_of_kept (kept_startRetrain up tm)]
    simp [reported, retrained, kept]
  · rw [startRetrain, if_pos up]

theorem reported_countDnCrc (tm : TimeBase) (n : Fin 64) (dnCrc : Byte) (d : Device) :
    reported n (countDnCrc tm n dnCrc d).1 = ((kept d).2, (d.lane n).fitted, some dnCrc) := by
  simp [reported, countDnCrc, kept]

/-- What LATE has advanced by since a module's last report (Table 4-18). -/
def lateAdvance (late : Byte) (s : Slot) : Nat :=
  match s.lateSeen with
  | some o => (late - o).toNat
  | none => 0

/-- A slot whose module reports. -/
def statusTaken (adv : Nat) (late st : Byte) (s : Slot) : Slot :=
  { s with lateSeen := some late, errLate := satAdd s.errLate adv, modState := st }

theorem reported_takeStatus {n : Fin 64} {d : Device} (h : (d.lane n).state = .up) (tm : TimeBase) (slot : Fin 8)
    (modslots dnCrc late fault st : Byte) : reported n (takeStatus tm n slot modslots dnCrc late fault st d) =
      ((kept (d.onSlot (globalSlot n slot) (statusTaken (lateAdvance late (d.slot (globalSlot n slot))) late st))).2, modslots,
        some dnCrc) := by
  have fitted (t : Device) : ((setFitted tm n modslots t).lane n).fitted = modslots :=
    (congrArg Lane.fitted (lane_of_onLane_kept (kept_setFitted tm n modslots t)) :)
  unfold takeStatus
  rw [if_neg (not_not.mpr h)]
  dsimp only
  rw [apply_ite (reported n), reported_causeRetrain, ite_self, apply_ite (reported n), reported_of_kept (kept_slotHalted ..), ite_self,
    reported_countDnCrc, fitted, kept_setFitted]
  rfl

/-! ### TIME cells (R102) -/

theorem timeCells_eq (d : Device) : timeCells d = { d with
    lanes := bankMap d.lanes fun _ l => if l.state = .up then { l with queue := l.queue ++ [⟨.time 0 0, 0⟩] } else l } := by
  rw [← foldl_onLane, timeCells]
  congr
  funext d n
  split
  · rename_i up
    exact onLane_congr (if_pos up).symm
  · rename_i other
    exact (onLane_eq_self (if_neg other)).symm

/-- Settles O15, cell by cell: its own counts and values, in the view that protection, loop engine and rails keep. -/
theorem cellsArrive : Obligations.CellsArrive := by
  refine ⟨fun n k f late body s h => ?_, fun n k f late body s h => ?_, fun n k vout vin temp s h => ?_,
    fun n k modslots dnCrc late fault st s h => ?_, fun g s => ?_, fun s => next_of_dev (timeCells_eq s.dev)⟩
  · obtain ⟨oc, sat, lane⟩ := deliverSamples_counts h s.tm k f late false (rawSamples body)
    exact ⟨_, rfl, oc, sat, lane⟩
  · obtain ⟨oc, sat, lane⟩ := deliverSamples_counts h s.tm k f late (cmpSat body) (cmpSamples body)
    exact ⟨_, rfl, oc, sat, lane⟩
  · have slot := slot_of_onSlot_kept (kept_takeMeas h s.tm k vout vin temp)
    refine ⟨_, rfl, congrArg Slot.temp slot, congrArg Slot.measWas slot, _, _, congrArg Slot.meas slot, fun hs hc => ?_,
      fun hs at' hat => ?_⟩
    · simp [hs, hc]
    · simp [hs, hat]
  · have report := reported_takeStatus h s.tm k modslots dnCrc late fault st
    have slot : ((takeStatus s.tm n k modslots dnCrc late fault st s.dev).slot (globalSlot n k)).kept =
        (statusTaken (lateAdvance late (s.dev.slot (globalSlot n k))) late st (s.dev.slot (globalSlot n k))).kept :=
      (congrFun (congrArg Prod.fst report) (globalSlot n k)).trans (congrArg Slot.kept (Device.onSlot_slot ..))
    exact ⟨_, rfl, congrArg Slot.modState slot, congrArg Slot.lateSeen slot, congrArg (·.2.1) report, congrArg (·.2.2) report⟩
  · exact ⟨_, rfl, congrArg Slot.errMissing (slot_of_onSlot_kept (kept_missSample s.tm g s.dev))⟩

end Sys2Proof.Machine
end

section
/-! SUPPORT. The commands of SLOT.CMD and the writes of SLOT.CAL_I and CAL_V (R124 to R128, Tables 4-12 and 4-23): what each does with
its slot. -/

namespace Sys2Proof.Machine

/-! ### What an access leaves of the view of admission and calibration -/

@[simp] theorem rowStarts_slotExpected (src : Src) (a : Addr) (s : State) (g : Fin 512) :
    slotExpected (rowStarts src a s).dev g = slotExpected s.dev g := by
  obtain ⟨_, _, _, _, h, -⟩ := rowStarts_sameButAccess src a s; rw [h]; rfl
@[simp] theorem rowStarts_admissionFailure (src : Src) (a : Addr) (s : State) (g : Fin 512) :
    admissionFailure (rowStarts src a s).dev g = admissionFailure s.dev g := by
  obtain ⟨_, _, _, _, h, -⟩ := rowStarts_sameButAccess src a s; rw [h]; rfl
@[simp] theorem rowStarts_slotLimit (src : Src) (a : Addr) (s : State) (g : Fin 512) :
    slotLimit (rowStarts src a s).dev g = slotLimit s.dev g := by
  obtain ⟨_, _, _, _, h, -⟩ := rowStarts_sameButAccess src a s; rw [h]; rfl
@[simp] theorem rowStarts_phase (src : Src) (a : Addr) (s : State) (g : Fin 512) : (rowStarts src a s).dev.phase g = s.dev.phase g := by
  simp [Device.phase]

/-! ### ADMIT (R124, R127) -/

theorem admitSlot_of_open {g : Fin 512} {d : Device}
    (h : (d.slot g).state = .found ∨ (d.slot g).state = .refused ∨ (d.slot g).state = .lost) :
    admitSlot g d = checkSlot true g d := by
  rcases h with h | h | h <;> simp [admitSlot, h]

theorem admissionFailure_of_unexpected {g : Fin 512} {d : Device} (h : slotExpected d g = false) :
    admissionFailure d g = some .notExpected := by
  simp [admissionFailure, h]

theorem checkSlot_of_failing {g : Fin 512} {why : SlotReason} {d : Device} (h : admissionFailure d g = some why) (accepts : Bool) :
    checkSlot accepts g d = setSlot g .refused why d := by
  simp [checkSlot, h]

theorem checkSlot_of_passing {g : Fin 512} {d : Device} (h : admissionFailure d g = none) :
    checkSlot true g d = setSlot g .calibrating .none
      (d.onSlot g fun s => { s with limit := slotLimit d g, cal := none, heldBack := false }) := by
  simp [checkSlot, h]

/-! ### REFUSE, RECAL and CAL_SAVE (R125, R127, R389) -/

theorem refuseSlot_of_found {g : Fin 512} {d : Device} (h : (d.slot g).state = .found) :
    refuseSlot g d = setSlot g .refused .host d := by
  simp [refuseSlot, h]

/-- The first WRITE of a calibration, CFG_PERIOD, under the slot's tag. -/
theorem sendConfig_period_slot (tm : TimeBase) (g : Fin 512) (d : Device) : (sendConfig tm 0 g d).slot g =
    { d.slot g with cal := some (.writing 0 (d.slot g).tag tm.time.toNat), tag := (d.slot g).tag + 1 } := by
  have awake : (wakeFor tm g d).slot g = d.slot g := rfl
  simp [sendConfig, sendWrite, sendCell, awake]

theorem recalSlot_of_unplaced {g : Fin 512} {d : Device} (h : (d.slot g).state = .admitted) (hp : (d.phase g).placed = false)
    (tm : TimeBase) : recalSlot tm g d = sendConfig tm 0 g (setSlot g .calibrating .none d) := if_pos ⟨h, hp⟩

theorem saveCalibration_of_shut {d : Device} (h : d.ocs.pfail = true ∨ regionWritable d.ocs 2 = false) (nv : NonVol) (g : Fin 512) :
    saveCalibration nv g d = d := by
  rcases h with h | h <;> simp [saveCalibration, h]

theorem saveCalibration_of_open {d : Device} (hp : d.ocs.pfail = false) (hw : regionWritable d.ocs 2 = true) (nv : NonVol)
    (g : Fin 512) : saveCalibration nv g d = storePump nv (addJob ⟨[.record ⟨0x20, (d.lane (laneOf g)).serial, byte (slotOf g).val,
      leBytes 2 (d.slot g).igain.toNat ++ leBytes 2 (d.slot g).vgain.toNat ++ leBytes 2 (d.slot g).vofs.toNat, 2, none⟩],
      .record, .cal g, true⟩ d) := by
  simp [saveCalibration, hp, hw]

/-- Settles O16, command by command: what an access that reaches its register does with the slot. -/
theorem slotCommands : Obligations.SlotCommands := by
  refine ⟨fun src g s hm hr hs => ⟨fun hx => ?_, fun hx => ?_⟩, fun src g s hm hr => ⟨fun hs => ?_, fun hs hp => ?_, ?_, ?_,
    fun data => ⟨?_, ?_⟩, fun h => ?_, fun hp hw => ?_⟩⟩
  · obtain ⟨d, row, -, slot⟩ := engineerRow_leaves hr hm (wordAt 0x2000 8 g.val 5) 1 fun _ _ => admitSlot g
    rw [admitSlot_of_open (by simpa using hs), checkSlot_of_failing (admissionFailure_of_unexpected (by simpa using hx))] at slot
    exact ⟨d, congrArg Host.Outcome.next row, by simp [slot]⟩
  · obtain ⟨d, row, -, slot⟩ := engineerRow_leaves hr hm (wordAt 0x2000 8 g.val 5) 1 fun _ _ => admitSlot g
    rw [admitSlot_of_open (by simpa using hs), checkSlot_of_passing (by simpa using hx)] at slot
    exact ⟨d, congrArg Host.Outcome.next row, by simp [slot]⟩
  · obtain ⟨d, row, -, slot⟩ := engineerRow_leaves hr hm (wordAt 0x2000 8 g.val 5) 2 fun _ _ => refuseSlot g
    rw [refuseSlot_of_found (by simpa using hs)] at slot
    exact ⟨d, congrArg Host.Outcome.next row, by simp [slot]⟩
  · obtain ⟨d, row, -, slot⟩ := engineerRow_leaves hr hm (wordAt 0x2000 8 g.val 5) 3 fun tm _ => recalSlot tm g
    rw [recalSlot_of_unplaced (by simpa using hs) (by simpa using hp)] at slot
    exact ⟨d, congrArg Host.Outcome.next row, by simp [slot, sendConfig_period_slot]⟩
  · exact congrArg Host.Outcome.next (rowWrite_of_engineer hr hm _ _ fun _ _ => sendCmd g 3)
  · exact congrArg Host.Outcome.next (rowWrite_of_engineer hr hm _ _ fun _ _ => sendCmd g 4)
  · exact congrArg Host.Outcome.next (rowWrite_of_engineer hr hm _ _ fun _ _ => writeSlotCal g false data)
  · exact congrArg Host.Outcome.next (rowWrite_of_engineer hr hm _ _ fun _ _ => writeSlotCal g true data)
  · refine congrArg Host.Outcome.next ((rowWrite_of_engineer hr hm _ _ fun _ nv => saveCalibration nv g).trans (wrote_congr ?_ 0))
    exact saveCalibration_of_shut (by simpa using h) s.nv g
  · refine congrArg Host.Outcome.next ((rowWrite_of_engineer hr hm _ _ fun _ nv => saveCalibration nv g).trans (wrote_congr ?_ 0))
    exact saveCalibration_of_open (by simpa using hp) (by simpa using hw) s.nv g

end Sys2Proof.Machine
end

section
/-! SUPPORT. The persistent memories keep their canonical form (R372 to R375): every operation of the store, of recovery and of the
code flash on them. -/

namespace Sys2Proof.Machine

/-- A fold keeps what each of its steps keeps. -/
theorem foldl_preserves {σ α : Type} {P : σ → Prop} {f : σ → α → σ} (h : ∀ x a, P x → P (f x a)) (l : List α) {x : σ} (hx : P x) :
    P (l.foldl f x) := List.foldlRecOn l f hx fun y hy a _ => h y a hy

namespace MemoryHolds

variable {nv : NonVol}

/-! ### Programs and erases -/

theorem bytesProgrammed (h : MemoryHolds nv) (a : Nat) (bs : List Byte) : MemoryHolds (programBytes nv a bs) :=
  ⟨programBytes_wf bs a h.1, by simpa using h.2⟩

theorem chunkProgrammed (h : MemoryHolds nv) (c : ChunkProg) : MemoryHolds (programChunk nv c) := h.bytesProgrammed c.addr c.bytes

theorem chunksProgrammed (h : MemoryHolds nv) (cs : List ChunkProg) : MemoryHolds (cs.foldl programChunk nv) :=
  foldl_preserves (fun _ c hx => hx.chunkProgrammed c) cs h

theorem chunkInterrupted (h : MemoryHolds nv) (c : ChunkProg) : MemoryHolds (interruptChunk nv c) :=
  ⟨interruptChunk_wf c h.1, by simpa using h.2⟩

theorem sectorErased (h : MemoryHolds nv) (p : Fin 128) : MemoryHolds (eraseSector nv p) := ⟨eraseSector_wf p h.1, h.2⟩

theorem erasesInterrupted (h : MemoryHolds nv) (ps : List (Fin 128)) : MemoryHolds (ps.foldl interruptErase nv) :=
  foldl_preserves (f := interruptErase) (fun _ _ hx => hx) ps h

/-- One code slot written, with memory in canonical form. -/
theorem codeSlotSet (h : MemoryHolds nv) (s : Fin 2) {c : CodeSlot} (hc : cellsWf c.bytes = true) :
    MemoryHolds { nv with code := bankSet nv.code s c } := by
  refine ⟨h.1, fun k => ?_⟩
  rw [bankGet_bankSet]
  split
  · exact hc
  · exact h.2 k

/-! ### The ends of programs and erases (R379, R383, R394) -/

theorem wornOut (h : MemoryHolds nv) (tm : TimeBase) (p : Fin 128) (d : Device) : MemoryHolds (wearOut tm nv p d).1 := by
  unfold wearOut
  dsimp only
  repeat' split
  all_goals exact h

theorem eraseWornOut (h : MemoryHolds nv) (tm : TimeBase) (p : Fin 128) (d : Device) : MemoryHolds (wornErase tm nv p d).1 :=
  h.wornOut tm p d

theorem programFailed (h : MemoryHolds nv) (tm : TimeBase) (j : Job) (c : ChunkProg) (d : Device) :
    MemoryHolds (programFailed tm nv j c d).1 := by
  unfold Machine.programFailed
  dsimp only
  split
  · exact h.wornOut tm _ _
  · exact h

theorem chunkEnded (h : MemoryHolds nv) (tm : TimeBase) (verified : Bool) (d : Device) :
    MemoryHolds (chunkEnd tm verified nv d).1 := by
  unfold chunkEnd
  split
  · exact h
  · split
    · exact h
    · next c _ =>
      split
      · dsimp only
        split <;> exact h.chunkProgrammed c
      · dsimp only
        split <;> exact (h.chunkInterrupted c).programFailed tm _ _ _

theorem eraseEnded (h : MemoryHolds nv) (tm : TimeBase) (verified : Bool) (d : Device) :
    MemoryHolds (eraseEnd tm verified nv d).1 := by
  unfold eraseEnd
  split
  · exact h
  · split
    · next p tries _ rest _ =>
      split
      · have worn (out : Bool) (d : Device) : 
            MemoryHolds (if out then wornErase tm (eraseSector nv p) p d else (eraseSector nv p, d)).1 := by
          split
          · exact (h.sectorErased p).eraseWornOut tm p d
          · exact h.sectorErased p
        dsimp only
        split <;> exact worn _ _
      · dsimp only
        split
        · split
          · split <;> exact h.eraseWornOut tm p _
          · exact h.eraseWornOut tm p _
        · exact h
    · exact h

theorem programEnded (h : MemoryHolds nv) (tm : TimeBase) (verified : Bool) (d : Device) :
    MemoryHolds (programEnds tm verified (nv, d)).1 := h.chunkEnded tm verified d

theorem jobErased (h : MemoryHolds nv) (tm : TimeBase) (verified : Bool) (d : Device) :
    MemoryHolds (eraseEnds tm verified (nv, d)).1 := h.eraseEnded tm verified d

/-! ### What stops the store's work (R305, R307, R374, R389, R390) -/

theorem eraseStopped (h : MemoryHolds nv) (d : Device) : MemoryHolds (stopErase nv d).1 := h.erasesInterrupted _

theorem storeAborted (h : MemoryHolds nv) (d : Device) : MemoryHolds (abortStore nv d).1 := by
  unfold abortStore
  dsimp only
  split
  · exact h
  · dsimp only
    split
    · exact h.chunkInterrupted _
    · exact h

theorem shutdownEntered (h : MemoryHolds nv) (tm : TimeBase) (cause index : Nat) (temp : BitVec 16) (d : Device) :
    MemoryHolds (enterShutdown tm cause index temp nv d).1 := h.eraseStopped _

theorem windowClosed (h : MemoryHolds nv) (tm : TimeBase) (d : Device) : MemoryHolds (closeWindow tm nv d).1 := by
  unfold closeWindow
  split
  · exact h
  · exact h.eraseStopped _

theorem dieSampled (h : MemoryHolds nv) (tm : TimeBase) (temps : Vector (Option (BitVec 16)) 8) (d : Device) :
    MemoryHolds (dieSample tm temps nv d).1 := by
  have atWindow (out opens : Bool) (d : Device) :
      MemoryHolds (if out then closeWindow tm nv d else if opens then (nv, openWindow tm nv d) else (nv, d)).1 := by
    split
    · exact h.windowClosed tm d
    · split <;> exact h
  unfold dieSample
  extract_lets
  split
  next nv' d' hwindow =>
    have kept : MemoryHolds (nv', d').1 := hwindow ▸ atWindow _ _ _
    split
    · split
      · exact kept
      · exact kept.shutdownEntered ..
    · exact kept

theorem roundEnded (h : MemoryHolds nv) (tm : TimeBase) (d : Device) : MemoryHolds (roundEnd tm nv d).1 := by
  unfold roundEnd
  split
  · exact h
  · dsimp only
    split
    · split
      · exact h
      · exact h.shutdownEntered ..
    · exact h

/-! ### Recovery (R387, R388, R394, R407, R415) -/

theorem ranNow (h : MemoryHolds nv) (fuel : Nat) (st : Store) (steps : List JobStep) : MemoryHolds (runNow nv fuel st steps).1 := by
  induction fuel generalizing nv st steps with
  | zero => exact h
  | succ fuel ih =>
    unfold runNow
    split
    · exact h
    · split
      case h_1 => exact h
      case h_2 => exact ih ((h.chunksProgrammed _).chunkProgrammed _) _ _
      case h_3 => exact ih (h.chunkProgrammed _) _ _
      case h_4 => exact ih (h.chunksProgrammed _) _ _
      case h_5 => exact ih (h.sectorErased _) _ _
      all_goals exact ih h _ _

theorem groupSettled {x : NonVol × Recovered} (h : MemoryHolds x.1) (whole size commit void n : Nat) (good : NonVol → Bool) :
    MemoryHolds (settleGroup whole size commit void n good x).1 := by
  have zeroed {nv : NonVol} (h : MemoryHolds nv) (a : Nat) : MemoryHolds (zeroBytes nv a n) := h.bytesProgrammed a _
  unfold settleGroup
  dsimp only
  split_ifs
  · exact h
  · exact zeroed (zeroed h _) _
  · exact zeroed h _
  · exact zeroed (zeroed h _) _
  · exact h
  · exact zeroed h _
  · exact zeroed h _
  · exact h

theorem recordsSettled {x : Settling} (h : MemoryHolds x.nv) (p : Fin 128) : MemoryHolds (settleRecords p x).nv := by
  unfold settleRecords
  split
  · exact h
  · exact foldl_preserves (P := fun y : NonVol × Recovered => MemoryHolds y.1) (fun _ _ hy => hy.groupSettled ..) _ h

theorem eventsSettled {x : Settling} (h : MemoryHolds x.nv) (addrs : List Nat) : MemoryHolds (settleEvents addrs x).nv :=
  foldl_preserves (P := fun y : NonVol × Recovered => MemoryHolds y.1) (fun _ _ hy => hy.groupSettled ..) addrs h

theorem counterSettled {x : Settling} (h : MemoryHolds x.nv) (c : Fin 16) : MemoryHolds (settleCounter c x).nv := by
  unfold settleCounter
  split
  · exact h
  · exact foldl_preserves (fun _ _ hy => hy.bytesProgrammed _ _) _ h

theorem stepsRun {x : Settling} (h : MemoryHolds x.nv) (steps : List JobStep) : MemoryHolds (settleRun steps x).nv := h.ranNow ..

theorem erasesRedone {x : Settling} (h : MemoryHolds x.nv) : MemoryHolds (redoErases x).nv :=
  foldl_preserves (P := fun y : Settling => MemoryHolds y.nv) (fun _ _ hy => hy.ranNow ..) _ h

theorem compactionFinished {x : Settling} (h : MemoryHolds x.nv) (r : Fin 11) : MemoryHolds (finishCompaction r x).nv := by
  unfold finishCompaction
  split
  · split
    · exact h.stepsRun _
    · exact h
  · exact h

theorem wipesRedone {x : Settling} (h : MemoryHolds x.nv) : MemoryHolds (redoWipes x).nv := by
  unfold redoWipes
  split
  · exact h
  · dsimp only
    split
    · exact h
    · refine stepsRun (foldl_preserves (P := fun y : Settling => MemoryHolds y.nv) (fun y r hy => ?_) _ h) _
      have compacted : MemoryHolds (if r = 4 then finishCompaction 4 y else y).nv := by
        split
        · exact hy.compactionFinished 4
        · exact hy
      exact compacted.ranNow ..

theorem wornCopied {x : Settling} (h : MemoryHolds x.nv) : MemoryHolds (copyWorn x).nv :=
  foldl_preserves (P := fun y : Settling => MemoryHolds y.nv) (fun _ _ hy => hy.stepsRun _) _ h

theorem mapLoaded {x : Settling} (h : MemoryHolds x.nv) : MemoryHolds (loadMap x).nv := h
theorem sectorsLoaded {x : Settling} (h : MemoryHolds x.nv) : MemoryHolds (loadSectors x).nv := h
theorem countsLoaded {x : Settling} (h : MemoryHolds x.nv) : MemoryHolds (loadCounts x).nv := h

/-- The lets of recovery one after the other: the memories pass through the steps of Table 15-5 and R415. -/
theorem recovered (h : MemoryHolds nv) (st : Store) : MemoryHolds (recoverStore nv st).nv := by
  unfold recoverStore
  extract_lets _ start x1 records x2 x3 x4 _ x5 x6 x7 x8 x9 _ x10 x11 x12 _ x13 x14 _ x15 x16 _ _ x17 x18 _ stale x19
  have settled (x : Settling) (p : Fin 128) (hx : MemoryHolds x.nv) : MemoryHolds (settleRecords p x).nv := hx.recordsSettled p
  have h1 : MemoryHolds x1.nv := mapLoaded (foldl_preserves (P := fun y : Settling => MemoryHolds y.nv) settled _ (x := start) h)
  clear_value x1
  have h2 : MemoryHolds x2.nv := by
    refine mapLoaded (foldl_preserves (P := fun y : Settling => MemoryHolds y.nv) (fun x p hx => ?_) _ h1)
    split
    · exact settled x p hx
    · exact hx
  clear_value x2
  have h3 : MemoryHolds x3.nv := sectorsLoaded h2
  clear_value x3
  have h5 : MemoryHolds x5.nv := countsLoaded (x := { x4 with st := _ }) h3
  clear_value x5
  have h6 : MemoryHolds x6.nv := sectorsLoaded (erasesRedone h5)
  clear_value x6
  have h7 : MemoryHolds x7.nv := foldl_preserves (P := fun y : Settling => MemoryHolds y.nv) settled _ h6
  have h8 : MemoryHolds x8.nv := by
    refine foldl_preserves (P := fun y : Settling => MemoryHolds y.nv) (fun x p hx => ?_) _ h7
    split
    · exact hx.eventsSettled _
    · exact hx
  have h9 : MemoryHolds x9.nv := sectorsLoaded h8
  clear_value x9
  have h11 : MemoryHolds x11.nv :=
    foldl_preserves (P := fun y : Settling => MemoryHolds y.nv) (fun _ c hx => hx.counterSettled c) _ (x := x10) h9
  clear_value x11
  have h13 : MemoryHolds x13.nv := ranNow (nv := x12.nv) h11 ..
  clear_value x13
  have h16 : MemoryHolds x16.nv := wornCopied (wipesRedone (x := x15) h13)
  clear_value x16
  have h18 : MemoryHolds x18.nv := eventsSettled (x := x17) h16 _
  clear_value x18
  have h19 : MemoryHolds x19.nv := by
    refine foldl_preserves (P := fun y : Settling => MemoryHolds y.nv) (fun x l hx => ?_) _ h18
    split
    · exact hx.ranNow ..
    · exact hx
  exact h19

theorem copiedLate (h : MemoryHolds nv) (lc : LifeCycle) (st : Store) : MemoryHolds (copyLate lc nv st).1 := by
  refine foldl_preserves (P := fun y : NonVol × Nat × Nat => MemoryHolds y.1) (fun x b hx => ?_) _ h
  split
  · exact hx
  · split
    · exact hx.bytesProgrammed ..
    · exact hx

/-! ### The code flash (R367) -/

variable {x : NonVol × Device}

theorem codeMoved (h : MemoryHolds nv) (tm : TimeBase) (op : Nat) (s : Fin 2) (p : SlotPhase) (d : Device) :
    MemoryHolds (moveCode tm op s p (nv, d)).1 := by
  unfold moveCode
  dsimp only
  split
  · exact h
  · exact h.codeSlotSet s (h.2 s)

theorem booted (h : MemoryHolds nv) (tm : TimeBase) (d : Device) : MemoryHolds (bootFirmware tm (nv, d)).1 := by
  refine foldl_preserves (P := fun y : NonVol × Device => MemoryHolds y.1) (fun y s hy => ?_) _ h
  dsimp only
  split
  · exact hy.codeMoved ..
  · exact hy

theorem trialRejected (h : MemoryHolds nv) (tm : TimeBase) (op : Nat) (d : Device) : MemoryHolds (rejectTrial tm op (nv, d)).1 := by
  unfold rejectTrial
  split
  · exact h
  · exact h.codeMoved ..

theorem trialTimedOut (h : MemoryHolds x.1) (tm : TimeBase) : MemoryHolds (Machine.fwTrialTimeout tm x).1 := by
  unfold Machine.fwTrialTimeout
  split
  · exact h
  · split
    · exact h.trialRejected ..
    · exact h

theorem watchdogExpired (h : MemoryHolds x.1) (tm : TimeBase) : MemoryHolds (watchdog tm x).1 := by
  unfold watchdog
  split
  · exact h
  · dsimp only
    split
    · exact h.trialRejected ..
    · exact h

theorem codeFlashEnded (h : MemoryHolds x.1) (tm : TimeBase) : MemoryHolds (codeFlashEnd tm x).1 := by
  unfold codeFlashEnd
  split
  · exact h
  · exact (h.codeMoved ..).codeSlotSet _ rfl
  · next s _ =>
    dsimp only
    split
    · refine codeMoved (h.codeSlotSet s ?_) ..
      exact h.2 s
    · exact h

theorem codeErased (h : MemoryHolds x.1) (s : Fin 2) : MemoryHolds (fwEraseStart s x).1 := by
  unfold fwEraseStart
  dsimp only
  split <;> exact h

theorem codeSealed (h : MemoryHolds x.1) (s : Fin 2) : MemoryHolds (fwSealStart s x).1 := by
  unfold fwSealStart
  split <;> exact h

theorem codeSwitched (h : MemoryHolds x.1) (tm : TimeBase) (s : Fin 2) : MemoryHolds (fwSwitch tm s x).1 := by
  unfold fwSwitch
  dsimp only
  split
  · exact h
  · exact h.codeMoved ..

theorem codeConfirmed (h : MemoryHolds x.1) (tm : TimeBase) : MemoryHolds (fwConfirm tm x).1 := by
  unfold fwConfirm
  split
  · exact h
  · next s _ =>
    have confirmed : MemoryHolds (moveCode tm 4 s .confirmed x).1 := h.codeMoved ..
    dsimp only
    split
    · exact confirmed.codeMoved ..
    · exact confirmed

theorem codeRolledBack (h : MemoryHolds x.1) (tm : TimeBase) : MemoryHolds (fwRollback tm x).1 := by
  unfold fwRollback
  split
  · exact h
  · exact h.trialRejected ..

theorem codeWritten (h : MemoryHolds x.1) (data : Word) : MemoryHolds (writeFwData data x).1 := by
  unfold writeFwData
  dsimp only
  split
  · exact h
  · next s _ =>
    split
    · exact h
    · exact h.codeSlotSet s (foldl_preserves (P := fun m => cellsWf m = true) (fun _ _ hm => cellsWf_cellsSet _ _ hm) _ (h.2 s))

/-- A firmware command from a source: refused, or carried out. -/
theorem codeCommanded {f : NonVol × Device → NonVol × Device} (hf : ∀ y, MemoryHolds y.1 → MemoryHolds (f y).1)
    (h : MemoryHolds x.1) (src : Src) : MemoryHolds (fwCommand src f x).1 := by
  unfold fwCommand
  dsimp only
  split_ifs
  · exact h
  · exact h
  · exact h
  · exact h
  · exact hf (x.1, x.2) h

/-! ### A reset (R33, R374) -/

theorem flashReset (h : MemoryHolds nv) (cold : Bool) (d : Device) : MemoryHolds (resetFlash cold nv d) := by
  have stopped : MemoryHolds (match d.ocs.current.bind headProg with
      | some c => if cold then interruptChunk nv c else programChunk nv c
      | none => nv) := by
    split
    · split
      · exact h.chunkInterrupted _
      · exact h.chunkProgrammed _
    · exact h
  unfold resetFlash
  dsimp only
  split
  · exact (stopped.erasesInterrupted _).codeSlotSet _ rfl
  · exact stopped.erasesInterrupted _

theorem reset (h : MemoryHolds nv) (kind : ResetKind) (d : Device) : MemoryHolds (wholeReset kind nv d).1 := by
  unfold wholeReset
  split
  · exact h
  · exact h.flashReset ..

end MemoryHolds
end Sys2Proof.Machine
end

section
/-! SUPPORT. Time and the persistent memories (R138, R139, R364, R372): a change of the state that keeps TIME at 800 times the device
microsecond, and the memories in their canonical form; resets, start-up, power and ABORT are such changes. -/

namespace Sys2Proof.Machine

/-! ### What a change of the state keeps -/

/-- From one state to another TIME keeps R139 and the memories their canonical form, and a microsecond boundary is not left: what a
command does. -/
structure Keeps (s t : State) : Prop where
  time : TimeHolds s.tm → TimeHolds t.tm
  memory : MemoryHolds s.nv → MemoryHolds t.nv
  boundary : s.tm.phase = 0 → t.tm.phase = 0

namespace Keeps

theorem refl (s : State) : Keeps s s := ⟨id, id, id⟩

theorem trans {s t u : State} (h : Keeps s t) (h' : Keeps t u) : Keeps s u :=
  ⟨h'.time ∘ h.time, h'.memory ∘ h.memory, h'.boundary ∘ h.boundary⟩

/-- A change of the device alone. -/
theorem device (s : State) (d : Device) : Keeps s { s with dev := d } := ⟨id, id, id⟩

theorem onDev (s : State) (f : Device → Device) : Keeps s (s.onDev f) := device s _

theorem thenOnDev {s t : State} (h : Keeps s t) (f : Device → Device) : Keeps s (t.onDev f) := h.trans (onDev t f)

/-- A change of the memories and the device. -/
theorem memories {s : State} {nv : NonVol} (h : MemoryHolds s.nv → MemoryHolds nv) (d : Device) :
    Keeps s { s with nv := nv, dev := d } := ⟨id, h, id⟩

/-- TIME starts anew at a microsecond boundary. -/
theorem restarts {s : State} {tm : TimeBase} {nv : NonVol} (htm : TimeHolds tm) (hp : tm.phase = 0)
    (h : MemoryHolds s.nv → MemoryHolds nv) (d : Device) : Keeps s { s with tm := tm, nv := nv, dev := d } :=
  ⟨fun _ => htm, h, fun _ => hp⟩

theorem ite {c : Prop} [Decidable c] {s t u : State} (ht : Keeps s t) (hu : Keeps s u) : Keeps s (if c then t else u) := by
  split
  · exact ht
  · exact hu

end Keeps

/-! ### Resets, start-up and power -/

theorem timeHolds_timeReset : TimeHolds TimeBase.reset := timeHolds_reset

theorem resetState_keeps (kind : ResetKind) (s : State) : Keeps s (resetState kind s) := by
  unfold resetState
  dsimp only
  split
  · exact .memories (·.reset kind s.dev) _
  · exact .restarts timeHolds_timeReset rfl (·.reset kind s.dev) _

theorem clockLost_keeps (s : State) : Keeps s (clockLost s) := by
  unfold clockLost
  split
  · exact .refl s
  · exact ((Keeps.onDev s _).trans (resetState_keeps ..)).trans (.device ..)

theorem ramFails_keeps (blk : RamBlock) (correctable : Bool) (s : State) : Keeps s (ramFails blk correctable s) := by
  unfold ramFails
  split
  · exact .onDev s _
  · split
    · exact .onDev s _
    all_goals exact (Keeps.onDev s _).trans (resetState_keeps ..)

/-- At the start TIME, the device microsecond and the T-tick in it are zero. -/
theorem startTime_keeps (s : State) : Keeps s (startTime s) := .restarts (fun _ => rfl) rfl id _

theorem wipeEnds_keeps (s : State) : Keeps s (wipeEnds s) := .ite (.refl s) <| .ite (startTime_keeps s) (.onDev s _)

theorem pllLocks_keeps (s : State) : Keeps s (pllLocks s) :=
  .ite (.refl s) <| .ite ((Keeps.onDev s _).trans (startTime_keeps _)) (.onDev s _)

theorem portsStart_keeps (s : State) {t : State} (h : Keeps s t) : Keeps s (portsStart s t) := .ite (h.thenOnDev _) h

/-- The calendar is no part of TIME. -/
theorem timeHolds_withCalendar {tm : TimeBase} (h : TimeHolds tm) (cal : BitVec 48) : TimeHolds { tm with cal := cal } := h

/-- Recovery loads the calendar, and works on the memories. -/
theorem recoveryEnds_keeps (s : State) : Keeps s (recoveryEnds s) := by
  unfold recoveryEnds
  split
  · exact .refl s
  · extract_lets x st _ sg _ nv y _ _ _ _ tm _ _ _ _ f
    have htime : TimeHolds s.tm → TimeHolds tm := (timeHolds_withCalendar · _)
    have hphase : tm.phase = s.tm.phase := rfl
    have hmemory : MemoryHolds s.nv → MemoryHolds f.1 := by
      intro h
      have hx : MemoryHolds x.nv := h.recovered _
      clear_value x
      have hnv : MemoryHolds nv := hx.copiedLate sg.lc st
      clear_value nv
      have hy : MemoryHolds y.nv := hnv.ranNow ..
      clear_value y
      exact hy.booted ..
    clear_value f tm
    exact ⟨htime, hmemory, hphase.trans⟩

theorem pfailFalls_keeps (s : State) : Keeps s (pfailFalls s) := .ite (.refl s) (.memories (·.eraseStopped _) _)

theorem pfailRises_keeps (s : State) : Keeps s (pfailRises s) := .ite (.refl s) (.onDev s _)

theorem pfailOver_keeps (s : State) : Keeps s (pfailOver s) := .ite (.refl s) (.device s _)

theorem debugReset_keeps (s : State) : Keeps s (debugReset s) := .ite (.refl s) (resetState_keeps ..)

/-- R139 asks nothing of TIME while LCLK stands still. -/
theorem enterStandby_keeps (s : State) : Keeps s (enterStandby s) := by
  refine .ite (.refl s) ?_
  split
  · exact .onDev s _
  · exact ⟨fun _ h => absurd h Bool.false_ne_true, id, id⟩

/-- At a microsecond boundary TIME is reloaded as R139 has it. -/
theorem resumeNow_keeps (cause : Nat) {s : State} (h : s.tm.phase = 0) : Keeps s (resumeNow cause s) where
  time _ _ := by simp [resumeNow, reloadTime, h]
  memory := id
  boundary := id

theorem wakeDevice_keeps (cause : Nat) (s : State) : Keeps s (wakeDevice cause s) := by
  unfold wakeDevice
  split_ifs with _ hp
  · exact .refl s
  · exact resumeNow_keeps cause hp
  · exact .onDev s _

theorem wake_keeps (c : WakeCause) (s : State) : Keeps s (wake c s) := by
  unfold wake
  split
  · exact wakeDevice_keeps _ s
  · exact .refl s

theorem wakeHot_keeps (was : Device) (s : State) : Keeps s (wakeHot was s) :=
  .ite (wakeDevice_keeps 5 s) <| .ite (wakeDevice_keeps 4 s) (.refl s)

theorem enterRun_keeps (s : State) : Keeps s (enterRun s) := by
  unfold enterRun
  split
  · exact .onDev s _
  · exact .onDev s _
  · exact (wakeDevice_keeps 1 s).thenOnDev _

/-! ### ABORT (R322, R323) -/

theorem abortOne_keeps (f : AbortFunc) (sda : Bool × Option (Fin 9)) (s : State) : Keeps s (abortOne f sda s).1 := by
  cases f with
  | store => exact .memories (·.storeAborted s.dev) _
  | nothing | bad | global => exact .refl s
  | tune | railApply | bog | twoWire | training | session | access => exact .device s _

theorem abortAll_keeps (sda : Bool × Option (Fin 9)) (s : State) : Keeps s (abortAll sda s).1 := by
  refine foldl_preserves (P := fun x : State × AbortResult × List (Byte × Byte) => Keeps s x.1) (fun x f hx => ?_) _ (.refl s)
  have next : Keeps s (abortOne f sda x.1).1 := hx.trans (abortOne_keeps f sda x.1)
  dsimp only
  split <;> exact next

theorem abortCommand_keeps (p : Port) (func index : Byte) (sda : Bool × Option (Fin 9)) (s : State) :
    Keeps s (abortCommand p func index sda s).2 := by
  unfold abortCommand
  dsimp only
  split_ifs
  · exact .refl s
  · exact .onDev s _
  · exact .onDev s _
  · split
    · exact .onDev s _
    · exact (abortAll_keeps sda s).thenOnDev _
  · split
    · exact .onDev s _
    · exact (abortOne_keeps _ sda s).thenOnDev _

theorem abortBlind_keeps (p : Port) (func index : Byte) (s : State) : Keeps s (abortBlind p func index s).2 :=
  (Keeps.device s _).trans (abortCommand_keeps p func index _ _)

theorem abortWrite_keeps (p : Port) (func index : Byte) (sda : Option (Bool × Option (Fin 9))) (s : State) :
    Keeps s (abortWrite p func index sda s).2 := by
  cases sda with
  | none => exact abortBlind_keeps p func index s
  | some x => exact abortCommand_keeps p func index x s

end Sys2Proof.Machine
end

section
/-! SUPPORT. What a write of a word does (Acts.lean, RegsWrite.lean) keeps time and the persistent memories: the shapes of a write, the
writes that act on more than the device, and every window of the map (R319). -/

namespace Sys2Proof.Machine

/-! ### The shapes of a write (Acts.lean) -/

/-- The write of a word keeps time and the memories. -/
structure WriteKeeps (f : WordWrite) : Prop where
  keeps (s : State) : Keeps s (f s).2

namespace WriteKeeps

/-- A write that changes nothing. -/
@[simp] theorem idle {st : Byte} : WriteKeeps fun s => (st, s) := ⟨Keeps.refl⟩

@[simp] theorem denied : WriteKeeps writeDenied := idle

theorem state {ok : Device → Bool} {f : State → State} (hf : ∀ s, Keeps s (f s)) : WriteKeeps (writeState ok f) where
  keeps s := by
    unfold writeState
    split
    · exact hf s
    · exact .refl s

@[simp] theorem fields {ok : Device → Bool} {f : Device → Device} : WriteKeeps (writeFields ok f) := state fun s => .onDev s f

@[simp] theorem device {ok : Device → Bool} {f : State → Device → Device} : WriteKeeps (writeState ok fun s => s.onDev (f s)) :=
  state fun s => .onDev s (f s)

@[simp] theorem nothing {src : Src} : WriteKeeps (writeNothing src) := fields

theorem command {ok : Device → Bool} {f : State → State} (hf : ∀ s, Keeps s (f s)) : WriteKeeps (writeCommand ok f) := ⟨hf⟩

@[simp] theorem command_device {ok : Device → Bool} {f : State → Device → Device} :
    WriteKeeps (writeCommand ok fun s => s.onDev (f s)) := command fun s => .onDev s (f s)

/-- A choice of writes, from which `simp` goes on to each of them. -/
@[simp] theorem ite_iff {c : Prop} [Decidable c] {f g : WordWrite} :
    WriteKeeps (if c then f else g) ↔ if c then WriteKeeps f else WriteKeeps g := by split <;> rfl

@[simp] theorem both {f g : WordWrite} (hf : WriteKeeps f) (hg : WriteKeeps g) : WriteKeeps (writeBoth f g) :=
  ⟨fun s => (hf.keeps s).trans (hg.keeps (f s).2)⟩

@[simp] theorem asked {b : Bool} {f : WordWrite} (hf : WriteKeeps f) : WriteKeeps (writeIf b f) := by
  unfold writeIf
  split
  · exact hf
  · exact idle

/-! ### The commands of power, firmware and recorder -/

theorem power {src : Src} {ok : Device → Bool} {least : Level} {f : State → State} (hf : ∀ s, Keeps s (f s)) :
    WriteKeeps (writeCommand ok (powerCommand src least f)) := command fun s => .ite (hf s) <| .ite (.onDev s _) (.refl s)

@[simp] theorem power_device {src : Src} {ok : Device → Bool} {least : Level} {f : State → Device → Device} :
    WriteKeeps (writeCommand ok (powerCommand src least fun s => s.onDev (f s))) := power fun s => .onDev s (f s)

@[simp] theorem resetWarm {src : Src} : WriteKeeps (actResetWarm src) := state (resetState_keeps .soft)
@[simp] theorem pwrRun {src : Src} : WriteKeeps (actPwrRun src) := power enterRun_keeps
@[simp] theorem pwrStandby {src : Src} : WriteKeeps (actPwrStandby src) := power enterStandby_keeps

theorem stores {ok : Device → Bool} {f : NonVol × Device → NonVol × Device} (hf : ∀ x, MemoryHolds x.1 → MemoryHolds (f x).1) :
    WriteKeeps (writeState ok (onStores f)) := state fun s => .memories (hf (s.nv, s.dev)) _

theorem firmware {src : Src} {f : TimeBase → NonVol × Device → NonVol × Device}
    (hf : ∀ tm x, MemoryHolds x.1 → MemoryHolds (f tm x).1) : WriteKeeps (actFw src f) :=
  command fun s => .memories (fun h => h.codeCommanded (x := (s.nv, s.dev)) (hf s.tm) src) _

@[simp] theorem fwData {src : Src} {data : Word} : WriteKeeps (actFwData src data) := stores fun _ h => h.codeWritten data
@[simp] theorem fwErase {src : Src} {slot : Fin 2} : WriteKeeps (actFw src fun _ => fwEraseStart slot) :=
  firmware fun _ _ h => h.codeErased slot
@[simp] theorem fwSeal {src : Src} {slot : Fin 2} : WriteKeeps (actFw src fun _ => fwSealStart slot) :=
  firmware fun _ _ h => h.codeSealed slot
@[simp] theorem fwSwitch {src : Src} {slot : Fin 2} : WriteKeeps (actFw src fun tm => Machine.fwSwitch tm slot) :=
  firmware fun tm _ h => h.codeSwitched tm slot
@[simp] theorem fwConfirm {src : Src} : WriteKeeps (actFw src Machine.fwConfirm) := firmware fun tm _ h => h.codeConfirmed tm
@[simp] theorem fwRollback {src : Src} : WriteKeeps (actFw src Machine.fwRollback) := firmware fun tm _ h => h.codeRolledBack tm
@[simp] theorem fwBad {src : Src} : WriteKeeps (actFwBad src) := firmware fun _ _ h => h

theorem recorder {src : Src} {ok : Device → Bool} {least : Level} {f : State → State} (hf : ∀ s, Keeps s (f s)) :
    WriteKeeps (writeCommand ok (erCommand src least f)) :=
  command fun s => .ite (.ite (.onDev s _) (hf s)) <| .ite (.onDev s _) (.refl s)

@[simp] theorem recorder_device {src : Src} {ok : Device → Bool} {least : Level} {f : State → Device → Device} :
    WriteKeeps (writeCommand ok (erCommand src least fun s => s.onDev (f s))) := recorder fun s => .onDev s (f s)

/-- TIME_SET sets the calendar alone. -/
@[simp] theorem timeSet {src : Src} : WriteKeeps (actTimeSet src) := recorder fun _ => ⟨(timeHolds_withCalendar · _), id, id⟩

/-! ### The windows of the map (R319) -/

theorem sys (src : Src) (a : Nat) (w : Word) : WriteKeeps (writeSys src a w) := by
  simp [writeSys, actResetSupervisor, actResetQuadrant]

theorem clk (src : Src) (a : Nat) (w : Word) : WriteKeeps (writeClk src a w) := by
  simp [writeClk, actPwrTrim, actQopSmoulder, actQopQrun]

theorem portRegs (src : Src) (p : Port) (off : Nat) (w : Word) : WriteKeeps (writePortRegs src p off w) := by
  simp [writePortRegs, actOpen, actProve, actClose, actSession]

theorem life (src : Src) (n : Nat) : WriteKeeps (writeLife src n) := by
  simp [writeLife, actLife]

theorem guard (src : Src) (a : Nat) (w : Word) : WriteKeeps (writeGuard src a w) := by
  simp only [writeGuard, portRegs, life, actKey, ite_iff, fields, command_device, nothing, ite_self]

theorem fw (src : Src) (a : Nat) (w : Word) : WriteKeeps (writeFw src a w) := by
  simp [writeFw]

theorem hsp (src : Src) (a : Nat) (w : Word) : WriteKeeps (writeHsp src a w) := by
  cases src with
  | port p => simp [writeHsp, (⟨abortBlind_keeps p _ _⟩ : WriteKeeps (abortBlind p _ _))]
  | sup => simp [writeHsp]

theorem img (src : Src) (a : Nat) (w : Word) : WriteKeeps (writeImg src a w) := by
  simp [writeImg, actImg, actImgBad, actImgData]

theorem lane (src : Src) (n : Fin 64) (off : Nat) (w : Word) : WriteKeeps (writeLane src n off w) := by
  have control (f : State → Device → Device) : WriteKeeps fun s => writeFields (engineer src) (f s) s := ⟨fun s => fields.keeps s⟩
  simp [writeLane, control, actRetrain]

theorem slot (src : Src) (g : Fin 512) (off : Nat) (w : Word) : WriteKeeps (writeSlot src g off w) := by
  simp [writeSlot, actSlotCal, actAdmit, actRefuse, actRecal, actCalSave, actIdentify]

theorem tbi (src : Src) (a : Nat) (w : Word) : WriteKeeps (writeTbi src a w) := by
  unfold writeTbi
  cases within a 0x3018 8 <;> cases within a 0x3080 64 <;> simp [actBase]

theorem railCmd (src : Src) (r : Fin 64) (n : Nat) : WriteKeeps (writeRailCmd src r n) := by
  simp [writeRailCmd, actRail, actArm, actDisarm, actStart, actStop, actSoftstop, actClear, actRetire, actRestore, actRailBad]

theorem rail (src : Src) (r : Fin 64) (off : Nat) (w : Word) : WriteKeeps (writeRail src r off w) := by
  unfold writeRail
  cases within off 25 4 <;> simp [railCmd, actVset, actVnext, actWindow, actTripped]

theorem loop (src : Src) (r : Fin 64) (off : Nat) (low : Option Word) (w : Word) : WriteKeeps (writeLoop src r off low w) := by
  have shift (outer : Bool) (k : Fin 8) : WriteKeeps (writeShift src r outer k low w) := ⟨fun s => fields.keeps s⟩
  simp [writeLoop, actLoopClear, shift]

theorem engine (src : Src) (a : Nat) (w : Word) : WriteKeeps (writeEngine src a w) := by
  unfold writeEngine
  cases within a 0x6100 256 <;> simp [actLeClear]

theorem tune (src : Src) (a : Nat) (w : Word) : WriteKeeps (writeTune src a w) := by
  simp [writeTune, actAtStart, actAtStop]

theorem hearth (src : Src) (a : Nat) (w : Word) : WriteKeeps (writeHearth src a w) := by
  refine ⟨fun s => ?_⟩
  unfold writeHearth
  generalize s.dev.hs.planStart = start
  refine keeps (f := ite _ _ _) ?_ s
  simp [actPlan, actInvalidate, actSquash, actHeartbeat]

theorem partner (src : Src) (h : Fin 256) (off : Nat) (w : Word) : WriteKeeps (writePartner src h off w) := by
  simp [writePartner, actEvict]

theorem ports (src : Src) (a : Nat) (w : Word) : WriteKeeps (writePorts src a w) := by
  unfold writePorts
  cases within a 0x8010 32 <;> simp [actBitTiming]

theorem protect (src : Src) (a : Nat) (w : Word) : WriteKeeps (writeProtect src a w) := by
  unfold writeProtect
  cases within a 0x8418 8 <;> simp [actFirst, actLatch]

theorem housekeeping (src : Src) (a : Nat) (w : Word) : WriteKeeps (writeHousekeeping src a w) := by
  unfold writeHousekeeping
  cases within a 0x8810 12 <;> simp

theorem store (src : Src) (a : Nat) (w : Word) : WriteKeeps (writeStore src a w) := by
  unfold writeStore
  cases within a 0x9040 56 <;> simp [actUserRead, actUserWrite, actProtect, actOcsBad]

theorem recorderWindow (src : Src) (a : Nat) (low : Option Word) (w : Word) : WriteKeeps (writeRecorder src a low w) := by
  simp [writeRecorder, actErClear, actSelect]

theorem bog (src : Src) (a : Nat) (w : Word) : WriteKeeps (writeBog src a w) := by
  unfold writeBog
  cases within a 0x9820 16 <;> simp [actBog, actDiscover, actDetach, actFormat, actReadBlock, actReadCapbuf, actBogBad, actCapArm,
    actCapStop, actTrigger]

theorem twp (src : Src) (a : Nat) (w : Word) : WriteKeeps (writeTwp src a w) := by
  have recover : WriteKeeps (writeRecover src) := ⟨fun s => (Keeps.device s _).trans (device.keeps _)⟩
  simp [writeTwp, actTwpTiming, recover, actPollNow]

/-- A write of any word keeps time and the memories (R319). -/
theorem word (src : Src) (a : Nat) (low : Option Word) (w : Word) : WriteKeeps (writeWord src a low w) := by
  simp [writeWord, sys, clk, guard, fw, hsp, img, lane, slot, tbi, rail, loop, engine, tune, hearth, partner, ports, protect,
    housekeeping, store, recorderWindow, bog, twp]

end WriteKeeps
end Sys2Proof.Machine
end

section
/-! SUPPORT. Every command and every T-tick keeps time and the persistent memories (R138, R139, R364, R372): the accesses of the ports
and of the supervisor through the writes that they make, the other commands through the operations that they are. -/

namespace Sys2Proof.Machine

/-! ### Accesses of the ports and of the supervisor (R6 to R9, R45, R317) -/

theorem rowStarts_keeps (src : Src) (a : Addr) (s : State) : Keeps s (rowStarts src a s) := by
  cases src <;> exact .device s _

theorem rowHangs_keeps (src : Src) (a : Addr) (w : Word) (s : State) : Keeps s (rowHangs src a w s) := by
  cases src <;> exact .device s _

theorem turnedAway_keeps (src : Src) (s : State) :
    Keeps s (match src with | .sup => s | .port p => s.onDev (turnedAway p)) := by
  cases src
  · exact .onDev s _
  · exact .refl s

theorem rowWrite_keeps {f : WordWrite} (hf : WriteKeeps f) (src : Src) (a : Addr) (w : Word) (win : Window) (s : State) :
    Keeps s (rowWrite src a w win f s) :=
  .ite (turnedAway_keeps src s) <| .ite ((rowStarts_keeps src a s).thenOnDev _) <| .ite (rowHangs_keeps src a w s) <|
    ((rowStarts_keeps src a s).trans (hf.keeps _)).thenOnDev _

theorem rowResets_keeps {f : WordWrite} (hf : WriteKeeps f) (src : Src) (a : Addr) (s : State) : Keeps s (rowResets src a f s) :=
  have made : Keeps s (f (rowStarts src a s)).2 := (rowStarts_keeps src a s).trans (hf.keeps _)
  .ite (turnedAway_keeps src s) <| .ite made (made.thenOnDev _)

theorem supWrite_keeps (a : Addr) (w : Word) (s : State) : Keeps s (supWrite a w s) :=
  .ite (.refl s) <| .ite (rowHangs_keeps .sup a w s) <|
    ((rowStarts_keeps .sup a s).trans ((WriteKeeps.word ..).keeps _)).thenOnDev _

theorem resumeSup_keeps (s : State) : Keeps s (resumeSup s) := by
  unfold resumeSup
  split
  · exact .refl s
  · exact .ite ((Keeps.onDev s _).trans (supWrite_keeps ..)) (.refl s)

theorem writePaired_keeps (p : Port) (a : Addr) (w : Word) (hold : Hold) (s : State) : Keeps s (writePaired p a w hold s).2 := by
  have written (low : Option Word) : Keeps s (writeWord (.port p) a.toNat low w s).2 := (WriteKeeps.word ..).keeps s
  unfold writePaired
  extract_lets n low x
  split
  · dsimp only
    exact (written low).thenOnDev _
  · exact written low

theorem debugWindow_keeps (a : Nat) (w : Option Word) (s : State) : Keeps s (debugWindow a w s).2.2 := by
  cases w
  · exact .device s _
  · exact .refl s

theorem definedWord_keeps (p : Port) (a : Addr) (w : Option Word) (holds : PortState) (s : State) :
    Keeps s (definedWord p a w holds s).2.2 := by
  cases w with
  | none =>
    unfold definedWord
    dsimp only
    split
    · exact .refl s
    · exact .device s _
  | some w => exact writePaired_keeps p a w holds.writeHold s

theorem throughWindow_keeps {win : Window} {f : State → Word × Byte × State} (hf : ∀ s, Keeps s (f s).2.2) {s : State}
    {x : Word × Byte × State} (h : throughWindow win f s = some x) : Keeps s x.2.2 := by
  unfold throughWindow at h
  split_ifs at h <;> obtain rfl := Option.some.inj h
  · exact .refl s
  · exact hf s

theorem accessWord_keeps {p : Port} {a : Addr} {w : Option Word} {s : State} {x : Word × Byte × State}
    (h : accessWord p a w s = some x) : Keeps s x.2.2 := by
  unfold accessWord at h
  extract_lets n t at h
  refine (Keeps.onDev s fun d => touch s.tm (.port p) (settleAlert d)).trans (t := t) ?_
  split_ifs at h
  · exact throughWindow_keeps (debugWindow_keeps _ w) h
  · exact throughWindow_keeps .refl h
  · obtain rfl := Option.some.inj h
    exact .refl _
  · exact throughWindow_keeps (definedWord_keeps p a w _) h

theorem runWords_keeps (p : Port) (todo : List (Addr × Option Word)) (acc : PendingAccess) (s : State) :
    Keeps s (runWords p todo acc s).2 := by
  induction todo generalizing acc s with
  | nil => exact .refl s
  | cons x rest ih =>
    obtain ⟨a, w⟩ := x
    unfold runWords
    split
    · exact .refl s
    · split
      · exact .refl s
      · next h => exact ((accessWord_keeps h).thenOnDev _).trans (ih ..)

theorem runAccess_keeps (p : Port) (acc : PendingAccess) (s : State) : Keeps s (runAccess p acc s) := by
  have words (acc' : PendingAccess) : Keeps s (runWords p acc.todo acc' (s.onDev fun d => d.onPort p fun y =>
      { y with pending := some acc' })).2 := (Keeps.onDev s _).trans (runWords_keeps ..)
  unfold runAccess
  exact .ite ((words _).thenOnDev _) <| .ite ((words _).thenOnDev _) ((words _).thenOnDev _)

theorem startAccess_keeps (p : Port) (write : Bool) (todo : List (Addr × Option Word)) (header : List Byte) (s : State) :
    Keeps s (startAccess p write todo header s) := runAccess_keeps p _ s

theorem singleAccess_keeps (p : Port) (a : Addr) (w : Option Word) (s : State) : Keeps s (singleAccess p a w s) :=
  .ite (.onDev s _) <| (Keeps.onDev s _).trans (startAccess_keeps ..)

theorem withLevel_keeps (p : Port) (rank : Nat) {f : State → State} (hf : ∀ s, Keeps s (f s)) (s : State) :
    Keeps s (withLevel p rank f s) := by
  refine .ite (hf s) (Keeps.thenOnDev (.trans ?_ (hf _)) _)
  exact .ite (.onDev s _) (.onDev s _)

theorem resumeAccess_keeps (p : Port) (s : State) : Keeps s (resumeAccess p s) := by
  unfold resumeAccess
  split
  · exact .refl s
  · exact withLevel_keeps p _ (runAccess_keeps p _) s

theorem busFault_keeps (s : State) : Keeps s (busFault s) := .device s _

theorem portTimesOut_keeps (p : Port) (s : State) : Keeps s (portTimesOut p s) := by
  unfold portTimesOut
  split
  · exact (busFault_keeps s).thenOnDev _
  · split
    · exact .refl s
    · exact .ite (.refl s) (((busFault_keeps s).thenOnDev _).trans (withLevel_keeps p _ (runAccess_keeps p _) _))

theorem supTimesOut_keeps (s : State) : Keeps s (supTimesOut s) := by
  unfold supTimesOut
  split
  · exact busFault_keeps s
  · exact .ite (.refl s) ((Keeps.onDev s _).trans (busFault_keeps _))

/-! ### Frames, ABORT, the two-wire target and the debug port -/

theorem makeAccess_keeps (acc : HostAccess) (s : State) : Keeps s (makeAccess acc s) := by
  unfold makeAccess
  exact ((Keeps.onDev s _).trans (startAccess_keeps ..)).thenOnDev _

theorem accessFrame_keeps (acc : HostAccess) (hcrc : Byte) (s : State) : Keeps s (accessFrame acc hcrc s) :=
  have starts : Keeps s (s.onDev hostFrameStarts) := .onDev s _
  .ite (.refl s) <| .ite (starts.thenOnDev _) <| .ite (starts.thenOnDev _) <| .ite (starts.thenOnDev _) <|
    starts.trans (makeAccess_keeps acc _)

theorem cutFrame_keeps (stage : CutStage) (s : State) : Keeps s (cutFrame stage s) := by
  unfold cutFrame
  refine .ite (.refl s) ?_
  cases stage with
  | beforeHcrc | stalled => exact .onDev s _
  | afterHcrc acc hcrc =>
    have starts : Keeps s (s.onDev hostFrameStarts) := .onDev s _
    have made := starts.trans (makeAccess_keeps acc _)
    exact .ite (starts.thenOnDev _) <| .ite (starts.thenOnDev _) <| .ite (starts.thenOnDev _) <| .ite (made.thenOnDev _) made

theorem debugAborts_keeps (func index : Byte) (sda : Option (Bool × Option (Fin 9))) (s : State) :
    Keeps s (debugAborts func index sda s) := by
  unfold debugAborts
  exact ((Keeps.onDev s _).trans (abortWrite_keeps ..)).thenOnDev _

theorem abortFrom_keeps (way : AbortWay) (func index : Byte) (sda : Option (Bool × Option (Fin 9))) (s : State) :
    Keeps s (abortFrom way func index sda s) := by
  cases way with
  | frame hcrc =>
    have starts : Keeps s (s.onDev hostFrameStarts) := .onDev s _
    exact .ite (.refl s) <| .ite (starts.thenOnDev _) ((starts.trans (abortWrite_keeps ..)).thenOnDev _)
  | write p =>
    exact .ite (debugAborts_keeps ..)
      (rowWrite_keeps ⟨abortWrite_keeps p func index sda⟩ _ _ _ _ s)

theorem commitPage_keeps (pointer : Addr) (data : List Byte) (s : State) : Keeps s (commitPage pointer data s) :=
  .ite (.onDev s _) ((Keeps.onDev s _).trans (startAccess_keeps ..))

theorem targetWrite_keeps (bytes : List Byte) (stop : Bool) (s : State) : Keeps s (targetWrite bytes stop s) := by
  have starts : Keeps s (s.onDev targetStarts) := .onDev s _
  refine .ite (.onDev s _) <| .ite (starts.thenOnDev _) <| .ite (starts.thenOnDev _) ?_
  dsimp only
  split
  · exact starts.trans (commitPage_keeps ..)
  · exact starts

theorem targetRead_keeps (pointer : Option Addr) (data : List Byte) (words : Nat) (s : State) :
    Keeps s (targetRead pointer data words s) := by
  unfold targetRead
  refine .ite (.onDev s _) <| .ite (.onDev s _) ?_
  dsimp only
  split
  · exact ((Keeps.onDev s _).trans (startAccess_keeps ..)).thenOnDev _
  · exact (Keeps.onDev s _).trans (startAccess_keeps ..)

theorem dbgWindow_keeps {f : State → State} (hf : ∀ s, Keeps s (f s)) (s : State) : Keeps s (dbgWindow f s) :=
  .ite ((Keeps.onDev s _).thenOnDev _) ((Keeps.onDev s _).trans (hf _))

theorem dbgAccess_keeps (op : DbgOp) (s : State) : Keeps s (dbgAccess op s) := by
  have full (f : Device → Device) : Keeps s (dbgWindow (dbgFull f) s) := dbgWindow_keeps (fun t => .onDev t _) s
  refine .ite (.refl s) ?_
  cases op with
  | regRead a => exact singleAccess_keeps .debug a none s
  | regWrite a w =>
    exact .ite (debugAborts_keeps ..) (singleAccess_keeps .debug a (some w) s)
  | windowRead a => exact dbgWindow_keeps (fun t => (debugWindow_keeps a.toNat none t).thenOnDev _) s
  | memRead a => exact dbgWindow_keeps (fun t => .onDev t _) s
  | halt | step | resume | memWrite => exact full _

/-! ### Every command -/

theorem onBoth_keeps {f : TimeBase → NonVol × Device → NonVol × Device} (hf : ∀ tm x, MemoryHolds x.1 → MemoryHolds (f tm x).1)
    {s t : State} (h : onBoth f s = .next t) : Keeps s t := by
  cases h
  exact .memories (hf s.tm (s.nv, s.dev)) _

theorem wokenHot_keeps {s : State} {nv : NonVol} (h : MemoryHolds s.nv → MemoryHolds nv) (d : Device) :
    Keeps s (wakeHot s.dev { s with nv := nv, dev := d }) := (Keeps.memories h d).trans (wakeHot_keeps s.dev _)

theorem next_keeps {s t u : State} (hu : Keeps s u) (h : Host.Outcome.next u = (.next t : Answer)) : Keeps s t :=
  Host.Outcome.next.inj h ▸ hu

/-- What every command keeps, command by command: most act on the device alone; those that have a row of their own in the register
tables do so through `rowWrite`. -/
theorem exec_keeps (c : Instr) {s t : State} (h : exec c s = .next t) : Keeps s t := by
  cases c
  case registerWrite src a w =>
    cases src
    case port p => exact next_keeps (singleAccess_keeps p a (some w) s) h
    case sup => exact next_keeps (supWrite_keeps a w s) h
  case pairLowRead | pairHighRead | pairLowWrite | pairHighWrite => exact next_keeps (.ite (singleAccess_keeps ..) (.refl s)) h
  case busTimeout src =>
    cases src
    case port p => exact next_keeps (.ite (portTimesOut_keeps p s) (.refl s)) h
    case sup => exact next_keeps (supTimesOut_keeps s) h
  case stalledAccessComplete p => exact next_keeps (resumeAccess_keeps p s) h
  case ramError blk correctable => exact next_keeps (ramFails_keeps blk correctable s) h
  case clockLoss => exact next_keeps (clockLost_keeps s) h
  case supplyTrip | rstNLow => exact next_keeps ((Keeps.device s _).trans (resetState_keeps _ _)) h
  case pll0Lock => exact next_keeps (portsStart_keeps s (pllLocks_keeps s)) h
  case wipeEnd => exact next_keeps (portsStart_keeps s (wipeEnds_keeps s)) h
  case storeRecoveryEnd => exact next_keeps (recoveryEnds_keeps s) h
  case pfailFall => exact next_keeps (pfailFalls_keeps s) h
  case pfailNRise => exact next_keeps (pfailRises_keeps s) h
  case pfailRecovered => exact next_keeps (pfailOver_keeps s) h
  case debugReset => exact next_keeps (debugReset_keeps s) h
  case wake cause => exact next_keeps (wake_keeps cause s) h
  case watchdogExpiry => exact onBoth_keeps (fun tm _ h => h.watchdogExpired tm) h
  case fwTrialTimeout => exact onBoth_keeps (fun tm _ h => h.trialTimedOut tm) h
  case codeFlashOperationEnd => exact onBoth_keeps (fun tm _ h => h.codeFlashEnded tm) h
  case chunkProgramComplete verified => exact onBoth_keeps (fun tm _ h => h.programEnded tm verified _) h
  case sectorEraseComplete verified => exact onBoth_keeps (fun tm _ h => h.jobErased tm verified _) h
  case housekeepingRoundEnd => exact next_keeps (wokenHot_keeps (·.roundEnded s.tm s.dev) _) h
  case dieSample temps => exact next_keeps (wokenHot_keeps (·.dieSampled s.tm temps s.dev) _) h
  case hostRead | hostWrite => exact next_keeps (accessFrame_keeps _ _ s) h
  case frameCutOff stage => exact next_keeps (cutFrame_keeps stage s) h
  case abortAutotune | abortRailApply | abortStoreOperation | abortBogTransfer | abortTwoWire | abortLaneTraining | abortSession
    | abortPendingAccess | abortGlobal => exact next_keeps (abortFrom_keeps _ _ _ _ s) h
  case badFunc => exact next_keeps (.ite (.refl s) (abortFrom_keeps _ _ _ _ s)) h
  case twpTargetWrite write => exact next_keeps (targetWrite_keeps write.bytes write.stop s) h
  case twpTargetRead pointer words => cases pointer <;> exact next_keeps (targetRead_keeps _ _ _ s) h
  case dbgAccess op => exact next_keeps (dbgAccess_keeps op s) h
  case resetCtrlWarm src => exact next_keeps (rowResets_keeps .resetWarm src _ s) h
  case openSession | prove | close => exact next_keeps (rowWrite_keeps .device _ _ _ _ s) h
  case pwrRun => exact next_keeps (rowWrite_keeps .pwrRun _ _ _ _ s) h
  case pwrStandby => exact next_keeps (rowWrite_keeps .pwrStandby _ _ _ _ s) h
  case pwrTrim | qopSmoulder | qopQrun => exact next_keeps (rowWrite_keeps .power_device _ _ _ _ s) h
  case fwDataWrite => exact next_keeps (rowWrite_keeps .fwData _ _ _ _ s) h
  case fwErase => exact next_keeps (rowWrite_keeps .fwErase _ _ _ _ s) h
  case fwSeal => exact next_keeps (rowWrite_keeps .fwSeal _ _ _ _ s) h
  case switch => exact next_keeps (rowWrite_keeps .fwSwitch _ _ _ _ s) h
  case fwConfirm => exact next_keeps (rowWrite_keeps .fwConfirm _ _ _ _ s) h
  case fwRollback => exact next_keeps (rowWrite_keeps .fwRollback _ _ _ _ s) h
  case fwBadOp => exact next_keeps (.ite (.refl s) (rowWrite_keeps .fwBad _ _ _ _ s)) h
  case timeSet => exact next_keeps (rowWrite_keeps .timeSet _ _ _ _ s) h
  case erClear | select => exact next_keeps (rowWrite_keeps .recorder_device _ _ _ _ s) h
  case imgBadOp | railBadOp | ocsBadOp | bogBadOp =>
    exact next_keeps (.ite (.refl s) (rowWrite_keeps .command_device _ _ _ _ s)) h
  case resetCtrlSupervisor | resetCtrlQuadrant | imgDataWrite | laneRetrain | laneDisable | slotAdmit | refuse | recal | calSave
    | identifyOn | identifyOff | slotCalWrite | baseSet | vsetWrite | vnextWrite | windowWrite | trippedClear | loopClear
    | leClear | atStop | heartbeat | plan | invalidate | squash | evict | restart | bitTimingWrite | latchClear | firstClr
    | captureArm | captureStop | trigger | recover | pollNow | twpTimingWrite =>
    exact next_keeps (rowWrite_keeps .device _ _ _ _ s) h
  case imgErase | imgSeal | liveOpen | apply | imgConfirm | imgRollback | arm | disarm | start | stop | softstop | clear | retire
    | restore | atStart | keyCmd | lcCommission | lcService | lcMaintain | lcRetired | lcReturn | userRead | userWrite | protect
    | discover | detach | format | readBlock | readCapbuf =>
    exact next_keeps (rowWrite_keeps .command_device _ _ _ _ s) h
  all_goals exact next_keeps (.onDev s _) h

/-! ### Every T-tick (R138, R139) -/

/-- At the 800th T-tick the next device microsecond begins; TIME and the microsecond are counted modulo 2^64. -/
theorem nextMicrosecond (us : BitVec 64) :
    BitVec.ofNat 64 (800 * us.toNat + 799) + 1 = BitVec.ofNat 64 (800 * (us + 1).toNat) := by
  apply BitVec.eq_of_toNat_eq
  simp only [BitVec.toNat_add, BitVec.toNat_ofNat, show (1 : BitVec 64).toNat = 1 from rfl]
  omega

theorem tickCounts_lclk (tm : TimeBase) : (tickCounts tm).lclk = tm.lclk := by
  unfold tickCounts
  dsimp only
  split <;> rfl

/-- TIME and the T-tick of the microsecond advance together. -/
theorem timeHolds_tickCounts {tm : TimeBase} (h : TimeHolds tm) : TimeHolds (tickCounts tm) := by
  intro hlclk
  rw [tickCounts_lclk] at hlclk
  unfold tickCounts
  dsimp only
  rw [if_pos hlclk, h hlclk]
  split
  · next hp =>
    have next : (tm.phase + 1).val = tm.phase.val + 1 := Fin.val_add_one_of_lt' (by omega)
    dsimp only
    rw [next, ← Nat.add_assoc, BitVec.ofNat_add _ 1]
    rfl
  · have last : tm.phase.val = 799 := by omega
    rw [last]
    exact nextMicrosecond tm.us

theorem timeHolds_tickCalendar {tm : TimeBase} (h : TimeHolds tm) : TimeHolds (tickCalendar tm) := by
  unfold tickCalendar
  dsimp only
  split_ifs <;> exact h

theorem timeHolds_tickTime {tm : TimeBase} (h : TimeHolds tm) : TimeHolds (tickTime tm) := by
  unfold tickTime
  split
  · exact timeHolds_tickCalendar (timeHolds_tickCounts h)
  · exact h

theorem tick_keeps (s : State) (htm : TimeHolds s.tm) (hnv : MemoryHolds s.nv) :
    TimeHolds (tick s).tm ∧ MemoryHolds (tick s).nv := by
  unfold tick
  split
  · exact ⟨htm, hnv⟩
  · extract_lets tm t
    have ticked : Keeps { s with tm := tm, dev := tickDevice tm s.dev } t := resumeSup_keeps _
    have htick : TimeHolds tm := timeHolds_tickTime htm
    clear_value t
    split
    · split
      · next cause _ hp =>
        have resumed := ticked.trans (resumeNow_keeps cause (ticked.boundary hp))
        exact ⟨resumed.time htick, resumed.memory hnv⟩
      · exact ⟨ticked.time htick, ticked.memory hnv⟩
    · exact ⟨ticked.time htick, ticked.memory hnv⟩

/-- Settles O56: a step is a command, or a T-tick. -/
theorem timeAndMemoryKept : Obligations.TimeAndMemoryKept := by
  intro s t htm hnv hstep
  unfold step at hstep
  split at hstep
  · cases hstep
    exact tick_keeps s htm hnv
  · next c rest _ =>
    have kept := exec_keeps c hstep
    exact ⟨kept.time htm, kept.memory hnv⟩

end Sys2Proof.Machine
end

section
/-! SUPPORT. A T-tick of time (R138, R139, assumption 25): what it leaves of the power state and of the supervisor's hung access, and
the wake that waits for the microsecond boundary (R364). -/

namespace Sys2Proof.Machine

/-! ### Losing a slot is no matter of power -/

theorem foldl_pwr {α : Type} {f : Device → α → Device} (h : ∀ d x, (f d x).pwr = d.pwr) (l : List α) (d : Device) :
    (l.foldl f d).pwr = d.pwr := foldl_keeps Device.pwr h l d

@[simp] theorem raise_pwr (tm : TimeBase) (code : Nat) (payload : List Byte) (d : Device) : (raise tm code payload d).pwr = d.pwr := rfl

@[simp] theorem captureTrigger_pwr (tm : TimeBase) (k : TriggerKind) (index : Nat) (d : Device) :
    (captureTrigger tm k index d).pwr = d.pwr := by
  unfold captureTrigger
  split
  · rfl
  · cases d.cap.state <;> simp [apply_ite Device.pwr]

@[simp] theorem clearSources_pwr (pick : ProtEntry → Bool) (d : Device) : (clearSources pick d).pwr = d.pwr := rfl

@[simp] theorem setSlot_pwr (g : Fin 512) (st : SlotState) (why : SlotReason) (d : Device) : (setSlot g st why d).pwr = d.pwr := by
  simp only [setSlot, ownerLoses, phaseGone, apply_ite Device.pwr, Device.onLane_pwr]
  cases (d.onSlot g fun s => { s with state := st, reason := why }).slot g |>.owner <;> simp

@[simp] theorem sendStop_pwr (g : Fin 512) (d : Device) : (sendStop g d).pwr = d.pwr := rfl

@[simp] theorem unplace_pwr (g : Fin 512) (stopAt : Option Nat) (d : Device) : (unplace g stopAt d).pwr = d.pwr := by
  simp [unplace, apply_ite Device.pwr]

@[simp] theorem noteMode_pwr (tm : TimeBase) (r : Fin 64) (before after : Device) : (noteMode tm r before after).pwr = after.pwr := by
  simp [noteMode, apply_ite Device.pwr]

@[simp] theorem presetInner_pwr (r : Fin 64) (b : RailSect) (g : Fin 512) (duty : Nat) (d : Device) :
    (presetInner r b g duty d).pwr = d.pwr := rfl

@[simp] theorem presetOuter_pwr (r : Fin 64) (b : RailSect) (out : Int) (d : Device) : (presetOuter r b out d).pwr = d.pwr := rfl

@[simp] theorem presetInners_pwr (r : Fin 64) (b : RailSect) (gs : List (Fin 512)) (d : Device) :
    (gs.foldl (fun d g => presetInner r b g (d.phase g).duty d) d).pwr = d.pwr :=
  foldl_pwr (fun d g => presetInner_pwr r b g (d.phase g).duty d) gs d

@[simp] theorem endTune_pwr (tm : TimeBase) (res : TuneResult) (cycles : List (Nat × Int)) (d : Device) :
    (endTune tm res cycles d).pwr = d.pwr := by
  unfold endTune
  split
  · rfl
  · simp only [raiseTune, raise_pwr]
    split
    · simp
    · simp [apply_ite Device.pwr]

@[simp] theorem endTuneOn_pwr (tm : TimeBase) (r : Fin 64) (res : TuneResult) (d : Device) : (endTuneOn tm r res d).pwr = d.pwr := by
  simp [endTuneOn, apply_ite Device.pwr]

@[simp] theorem raiseUnwinds_pwr (tm : TimeBase) (r : Fin 64) (un re : List (Fin 128)) (d : Device) :
    (raiseUnwinds tm r un re d).pwr = d.pwr := by
  unfold raiseUnwinds
  exact foldl_pwr (fun _ _ => by simp [raiseUnwind, apply_ite Device.pwr]) _ _

@[simp] theorem countUnwound_pwr (r : Fin 64) (n : Nat) (d : Device) : (countUnwound r n d).pwr = d.pwr := by
  simp [countUnwound, apply_ite Device.pwr]

@[simp] theorem changeState_pwr (tm : TimeBase) (r : Fin 64) (to' : RailState) (cause : RailCause) (d : Device) :
    (changeState tm r to' cause d).pwr = d.pwr := by
  unfold changeState
  cases to' <;> simp [raiseRail]

@[simp] theorem emptyPlaced_pwr (atOnce : Bool) (r : Fin 64) (d : Device) : (emptyPlaced atOnce r d).pwr = d.pwr := by
  unfold emptyPlaced
  refine foldl_pwr (fun d g => ?_) _ _
  dsimp only
  split
  · split
    · simp
    · split <;> simp
  · simp

@[simp] theorem endCmd_pwr (r : Fin 64) (res : CmdResult) (d : Device) : (endCmd r res d).pwr = d.pwr := rfl

@[simp] theorem discardPending_pwr (tm : TimeBase) (r : Fin 64) (d : Device) : (discardPending tm r d).pwr = d.pwr := by
  unfold discardPending
  rw [Device.onRail_pwr, foldl_pwr fun _ _ => by simp [raiseRetire], apply_ite Device.pwr, endCmd_pwr, ite_self]

@[simp] theorem leaveRunning_pwr (tm : TimeBase) (r : Fin 64) (atOnce : Bool) (to' : RailState) (cause : RailCause) (d : Device) :
    (leaveRunning tm r atOnce to' cause d).pwr = d.pwr := by
  unfold leaveRunning
  dsimp only
  split <;> simp [discardRecords]

@[simp] theorem immediateLeave_pwr (tm : TimeBase) (g : Fin 512) (d : Device) : (immediateLeave tm g d).pwr = d.pwr := by
  unfold immediateLeave
  split
  · simp
  · simp [apply_ite Device.pwr, checkEmpty, enterFault, dropRecords]

/-- A retraining loses the lane's slots. -/
@[simp] theorem startRetrain_pwr (tm : TimeBase) (n : Fin 64) (d : Device) : (startRetrain tm n d).pwr = d.pwr := by
  unfold startRetrain
  split
  · rfl
  · refine (foldl_pwr (fun d g => ?_) _ _).trans rfl
    split <;> simp [loseSlot]

/-! ### The device at a T-tick -/

/-- The power state and the supervisor, which no T-tick moves. -/
def steady (d : Device) : Power × Firmware := (d.pwr, d.fw)

@[simp] theorem steady_onTwp (d : Device) (f : TwoWire → TwoWire) : steady (d.onTwp f) = steady d := rfl
@[simp] theorem steady_onPer (d : Device) (e : Fin 32) (f : PerStatus → PerStatus) : steady (d.onPer e f) = steady d := rfl
@[simp] theorem steady_twpInt (i : Nat) (d : Device) : steady (twpInt i d) = steady d := rfl

@[simp] theorem steady_raiseTwp (tm : TimeBase) (event : Nat) (e : Option (Fin 32)) (d : Device) :
    steady (raiseTwp tm event e d) = steady d := by
  cases e <;> rfl

@[simp] theorem steady_pollFails (tm : TimeBase) (e : Fin 32) (res : PollResult) (d : Device) :
    steady (pollFails tm e res d) = steady d := by
  simp [pollFails, apply_ite steady]

theorem steady_busRecoveryEnds (tm : TimeBase) (x : Recovery) (d : Device) : steady (busRecoveryEnds tm x d) = steady d := by
  unfold busRecoveryEnds
  split
  · simp
  · rw [steady_raiseTwp, steady_twpInt, steady_onTwp]
    split
    · split <;> simp
    · rfl

theorem steady_tickRecovery (tm : TimeBase) (d : Device) : steady (tickRecovery tm d) = steady d := by
  unfold tickRecovery
  split
  · split
    · exact steady_busRecoveryEnds ..
    · rfl
  · rfl

theorem steady_tickFuncs (tm : TimeBase) (d : Device) : steady (tickFuncs tm d) = steady d := by
  unfold tickFuncs
  split <;> rfl

theorem steady_tickTrim (tm : TimeBase) (d : Device) : steady (tickTrim tm d) = steady d := by
  unfold tickTrim
  split <;> rfl

theorem steady_tickDevice (tm : TimeBase) (d : Device) : steady (tickDevice tm d) = steady d :=
  calc steady (tickDevice tm d)
    _ = steady (tickTrim tm (tickFuncs tm (tickRecovery tm { d with lanes := bankMap d.lanes (tickLane tm.time.toNat d) }))) := rfl
    _ = steady { d with lanes := bankMap d.lanes (tickLane tm.time.toNat d) } := by
        rw [steady_tickTrim, steady_tickFuncs, steady_tickRecovery]

theorem tickDevice_pwr (tm : TimeBase) (d : Device) : (tickDevice tm d).pwr = d.pwr := congrArg Prod.fst (steady_tickDevice tm d)
theorem tickDevice_fw (tm : TimeBase) (d : Device) : (tickDevice tm d).fw = d.fw := congrArg Prod.snd (steady_tickDevice tm d)

/-! ### Waking (R364) -/

@[simp] theorem storePump_pwr (nv : NonVol) (d : Device) : (storePump nv d).pwr = d.pwr :=
  (congrArg Device.pwr (aside_storePump nv d) :)

@[simp] theorem copyShutdowns_pwr (nv : NonVol) (d : Device) : (copyShutdowns nv d).pwr = d.pwr :=
  (congrArg Device.pwr (aside_copyShutdowns nv d) :)

@[simp] theorem settleBus_pwr (b : Fin 2) (d : Device) : (settleBus b d).pwr = d.pwr := by
  simp [settleBus, autoRecover, apply_ite Device.pwr]

/-- Once awake the device is in RUN, and waits no longer. -/
theorem resumeDevice_pwr (tm : TimeBase) (gap cause : Nat) (nv : NonVol) (d : Device) :
    (resumeDevice tm gap cause nv d).pwr = { d.pwr with mode := .run, waking := none, cause := BitVec.ofNat 3 cause } := by
  simp only [resumeDevice, storePump_pwr, copyShutdowns_pwr, raisePower, raise_pwr]
  rw [foldl_pwr fun d n => startRetrain_pwr tm n d, settleBus_pwr, settleBus_pwr]

@[simp] theorem spare_copyShutdowns (nv : NonVol) (d : Device) : spare (copyShutdowns nv d) = spare d := by
  unfold copyShutdowns
  (repeat' split) <;> simp

theorem spare_startRetrains (tm : TimeBase) (ns : List (Fin 64)) (d : Device) :
    spare (ns.foldl (fun d n => startRetrain tm n d) d) = spare d :=
  spare_foldl _ (fun d n => spare_startRetrain tm n d) ns d

/-- The clocks, but for the trim mark that a T-tick sets. -/
def clocks (d : Device) : Clk := (spare d).2.1

theorem clocksOn_of_clocks {d : Device} {c : Clk} (h : clocks d = c) :
    d.clk.lclkOn = c.lclkOn ∧ d.clk.eclkOn = c.eclkOn ∧ d.clk.sclkOn = c.sclkOn := by
  subst h
  exact ⟨rfl, rfl, rfl⟩

/-- Once awake every clock runs. -/
theorem resumeDevice_clocks (tm : TimeBase) (gap cause : Nat) (nv : NonVol) (d : Device) :
    clocks (resumeDevice tm gap cause nv d) =
      { d.clk with qclk := bankFill 4 true, lclkOn := true, eclkOn := true, sclkOn := true, trim := false } := by
  unfold clocks resumeDevice
  dsimp only
  rw [spare_storePump, spare_copyShutdowns, spare_raisePower, spare_startRetrains, spare_settleBus, spare_settleBus, spare]

theorem resumeNow_awake (cause : Nat) (s : State) : Awake s (resumeNow cause s) := by
  obtain ⟨hl, he, hs⟩ := clocksOn_of_clocks (resumeDevice_clocks (reloadTime s.tm)
    ((reloadTime s.tm).time.toNat - s.tm.time.toNat) cause s.nv s.dev)
  unfold Awake resumeNow
  dsimp only
  rw [hl, he, hs, resumeDevice_pwr]
  exact ⟨rfl, rfl, rfl, rfl, rfl, rfl, rfl, rfl⟩

/-! ### A step with no command waiting -/

theorem tickCalendar_time (tm : TimeBase) : (tickCalendar tm).time = tm.time := by
  unfold tickCalendar
  split
  · rfl
  · exact (apply_ite TimeBase.time _ _ _).trans (ite_self _)

theorem tickCalendar_phase (tm : TimeBase) : (tickCalendar tm).phase = tm.phase := by
  unfold tickCalendar
  split
  · rfl
  · exact (apply_ite TimeBase.phase _ _ _).trans (ite_self _)

/-- TIME counts the T-ticks while LCLK runs (R138). -/
theorem tickTime_time {tm : TimeBase} (h : tm.running = true) : (tickTime tm).time = if tm.lclk then tm.time + 1 else tm.time := by
  rw [tickTime, if_pos h, tickCalendar_time]
  exact (apply_ite TimeBase.time _ _ _).trans (ite_self _)

/-- After the last T-tick of a microsecond the next begins. -/
theorem tickTime_phase_of_last {tm : TimeBase} (h : tm.running = true) (hp : tm.phase.val = 799) : (tickTime tm).phase = 0 := by
  rw [tickTime, if_pos h, tickCalendar_phase]
  simp [tickCounts, hp]

/-- Time and the device after a T-tick, before a wake that waits. -/
def ticked (s : State) : State := { s with tm := tickTime s.tm, dev := tickDevice (tickTime s.tm) s.dev }

theorem resumeSup_ticked {s : State} (h : s.dev.fw.hung = none) :
    resumeSup { s with tm := tickTime s.tm, dev := tickDevice (tickTime s.tm) s.dev } = ticked s := by
  simp only [resumeSup, tickDevice_fw, h, ticked]

theorem ticked_waking (s : State) : (ticked s).dev.pwr.waking = s.dev.pwr.waking := by
  rw [ticked, tickDevice_pwr]

/-- With no access of the supervisor that hangs and no wake that waits, a T-tick moves time and the device. -/
theorem tick_of_awake {s : State} (hrun : s.tm.running = true) (hhung : s.dev.fw.hung = none) (hwake : s.dev.pwr.waking = none) :
    tick s = ticked s := by
  simp only [tick, hrun, Bool.not_true, Bool.false_eq_true, if_false, resumeSup_ticked hhung, ticked_waking, hwake]

/-- A wake that waits is carried out at the microsecond boundary (R364). -/
theorem tick_of_waking {s : State} {k : Nat} (hrun : s.tm.running = true) (hhung : s.dev.fw.hung = none)
    (hwake : s.dev.pwr.waking = some k) (hp : (tickTime s.tm).phase = 0) : tick s = resumeNow k (ticked s) := by
  simp only [tick, hrun, Bool.not_true, Bool.false_eq_true, if_false, resumeSup_ticked hhung, ticked_waking, hwake, if_pos hp]

theorem step_of_idle {s : State} (h : s.pending = []) : step s = .next (tick s) := by
  simp [step, h]

/-- Settles O53: the cases of a step, and of a wake that waits or not. -/
theorem stepRunsFront : Obligations.StepRunsFront := by
  refine ⟨fun c rest s h => by simp [step, h], fun s h => ⟨⟨_, step_of_idle h⟩, fun hrun => ?_⟩,
    fun s h hrun hhung => ⟨fun hwake => ?_, fun k hwake hlast => ?_⟩⟩
  · rw [step_of_idle h, tick, hrun]
    rfl
  · refine ⟨tickDevice (tickTime s.tm) s.dev, (step_of_idle h).trans ?_, fun hl => ?_, fun hl => ?_⟩
    · rw [tick_of_awake hrun hhung hwake, ticked]
    · rw [tickTime_time hrun, if_pos hl]
    · rw [tickTime_time hrun, hl]
      rfl
  · refine ⟨resumeNow k (ticked s), (step_of_idle h).trans ?_, resumeNow_awake k (ticked s), ?_, rfl, h⟩
    · rw [tick_of_waking hrun hhung hwake (tickTime_phase_of_last hrun hlast)]
    · rw [resumeNow, resumeDevice_pwr]

end Sys2Proof.Machine
end

section
/-! SUPPORT. The ring tracker (R149 to R151, Table 5-2): the forwarded pulse, a measurement, and an edge in each state. -/

namespace Sys2Proof.Machine

/-! ### The forwarded pulse, the link's report, and a measurement -/

/-- A member's tracker as an edge finds it: SYNCIN goes on to its own SYNCOUT (R149). -/
def forwarding (now : Nat) (r : Tracker) : Tracker := { r with syncout := true, syncEnd := some (now + 80) }

theorem forwardSync_of_acquiring {r : Tracker} (h : r.state = .acquiring) (now : Nat) : forwardSync now r = forwarding now r := by
  simp only [forwardSync, h, forwarding]

theorem forwardSync_of_locked {r : Tracker} (h : r.state = .locked) (now : Nat) : forwardSync now r = forwarding now r := by
  simp only [forwardSync, h, forwarding]

/-- What the link reported within the last two epochs stands (R249). -/
theorem freshLink_of_heard {tm : TimeBase} {d : Device} {since : Nat} (h : d.ring.heardAt = some since)
    (h' : tm.time.toNat - since ≤ 1600000) : freshLink tm d = d := by
  simp only [freshLink, h, if_pos h']

/-- What the link still reports is what it reported. -/
theorem freshLink_eq (tm : TimeBase) (d : Device) : ∃ link : Option Nat, (∀ n, link = some n → d.tbi.ring.linkEpoch = some n) ∧
    freshLink tm d = { d with tbi := { d.tbi with ring := { d.tbi.ring with linkEpoch := link } } } := by
  unfold freshLink
  split
  · split
    · exact ⟨_, fun _ => id, rfl⟩
    · exact ⟨none, nofun, rfl⟩
  · exact ⟨_, fun _ => id, rfl⟩

/-- The first edge sets the offset (R150). -/
theorem measureEpoch_of_first {r : Tracker} (h : r.first = true) (e ta : Int) :
    measureEpoch r e ta = ({ r with
      epoch := e, eps := ta - r.syncDelay.toNat - e * 25600000, rate := 0, first := false, second := true }, false) := by
  simp only [measureEpoch, if_pos h]

/-- The error of an edge against what offset and rate predict (R150). -/
def epochError (r : Tracker) (e ta : Int) : Int := ta - r.syncDelay.toNat - e * 25600000 - (r.eps + r.rate)

/-- From the third edge on the error corrects offset and rate (R150). -/
theorem measureEpoch_of_tracking {r : Tracker} (h : r.first = false) (h' : r.second = false) (e ta : Int) :
    measureEpoch r e ta = ({ r with
      epoch := e, err := epochError r e ta, eps := r.eps + r.rate + epochError r e ta / 4
      rate := r.rate + epochError r e ta / 32 }, true) := by
  simp only [measureEpoch, h, h', Bool.false_eq_true, if_false, epochError]

/-! ### An edge (R150, R151) -/

theorem syncEdge_of_acquiring {tm : TimeBase} {fine : Nat} {d : Device} {e : Nat} (hst : d.tbi.ring.state = .acquiring)
    (hlink : d.tbi.ring.linkEpoch = some e) :
    syncEdge tm fine d =
      let m := measureEpoch (forwarding tm.time.toNat d.tbi.ring) e (32 * tm.time.toNat + fine)
      let run := if m.1.err.natAbs ≤ 32 then m.1.goodRun + 1 else 0
      { d with tbi := { d.tbi with ring :=
        if !m.2 then m.1
        else if run ≥ 16 then { m.1 with state := .locked, locks := m.1.locks + 1, goodRun := 0, badRun := 0 }
        else { m.1 with goodRun := run } } } := by
  have hst' : (forwarding tm.time.toNat d.tbi.ring).state = .acquiring := hst
  have hlink' : (forwarding tm.time.toNat d.tbi.ring).linkEpoch = some e := hlink
  simp only [syncEdge, forwardSync_of_acquiring hst, hst', hlink']
  split_ifs <;> rfl

/-- In LOCKED an edge that is not far off, on a link that does not disagree, is one more measurement. -/
theorem syncEdge_of_locked_near {tm : TimeBase} {fine : Nat} {d : Device} {err : Int} (hst : d.tbi.ring.state = .locked)
    (hlink : ∀ n : Nat, d.tbi.ring.linkEpoch = some n → (n : Int) = d.tbi.ring.epoch + 1)
    (hfirst : d.tbi.ring.first = false) (hsecond : d.tbi.ring.second = false)
    (herr : err = epochError d.tbi.ring (d.tbi.ring.epoch + 1) (32 * tm.time.toNat + fine)) (hnear : err.natAbs ≤ 3200) :
    ∃ run, (syncEdge tm fine d).tbi.ring = { forwarding tm.time.toNat d.tbi.ring with
      epoch := d.tbi.ring.epoch + 1, err := err, eps := d.tbi.ring.eps + d.tbi.ring.rate + err / 4
      rate := d.tbi.ring.rate + err / 32, goodRun := run, badRun := 0 } := by
  have hst' : (forwarding tm.time.toNat d.tbi.ring).state = .locked := hst
  unfold syncEdge
  simp only [forwardSync_of_locked hst, hst', measureEpoch_of_tracking (r := forwarding _ _) hfirst hsecond]
  subst herr
  -- neither HOLDOVER, nor back from it
  have follow {a b c : Device} {p : Prop} [Decidable p] :
      (if (epochError d.tbi.ring (d.tbi.ring.epoch + 1) (32 * tm.time.toNat + fine)).natAbs > 3200 then a
        else if RingState.locked = .holdover ∧ p then b else c) = c := by
    rw [if_neg (Nat.not_lt.2 hnear), if_neg fun h => nomatch h.1]
  split
  case h_1 n hn => exact ⟨_, congrArg (·.tbi.ring) ((if_neg (not_not.2 (hlink n hn))).trans follow)⟩
  case h_2 => exact ⟨_, congrArg (·.tbi.ring) follow⟩

/-- In LOCKED a link that reports another number restarts the tracker (R151). -/
theorem syncEdge_of_locked_disagreeing {tm : TimeBase} {fine n : Nat} {d : Device} (hst : d.tbi.ring.state = .locked)
    (hlink : d.tbi.ring.linkEpoch = some n) (hn : (n : Int) ≠ d.tbi.ring.epoch + 1) :
    syncEdge tm fine d = raiseRing tm 2 { d with tbi := { d.tbi with
      ring := restartTracker (forwarding tm.time.toNat d.tbi.ring) } } := by
  have hst' : (forwarding tm.time.toNat d.tbi.ring).state = .locked := hst
  have hlink' : (forwarding tm.time.toNat d.tbi.ring).linkEpoch = some n := hlink
  unfold syncEdge
  simp only [forwardSync_of_locked hst, hst', hlink']
  exact if_pos hn

/-- A pulse that stays out takes LOCKED into HOLDOVER (R151). -/
theorem syncMissing_of_locked {tm : TimeBase} {d : Device} (hst : d.tbi.ring.state = .locked) :
    syncMissing tm d = raiseRing tm 1 { d with tbi := { d.tbi with ring := { d.tbi.ring with
      epoch := d.tbi.ring.epoch + 1, eps := d.tbi.ring.eps + d.tbi.ring.rate
      state := .holdover, holdovers := d.tbi.ring.holdovers + 1, badRun := 0, goodRun := 0 } } } := by
  simp only [syncMissing, hst]

theorem exec_syncinEdge (fine : Fin 32) (s : State) :
    exec (.syncinEdge fine) s = .next { s with dev := syncEdge s.tm fine.val (freshLink s.tm s.dev) } := rfl

theorem exec_syncPulseMissing (s : State) : exec .syncPulseMissing s = .next { s with dev := syncMissing s.tm s.dev } := rfl

/-! ### An epoch of the reference (R149, R249) -/

theorem exec_epochPulse {s : State} (h : s.dev.tbi.ring.state = .reference) :
    exec .epochPulse s = .next { s with dev := ringStart s.tm { s.dev with
      tbi := { s.dev.tbi with ring := { s.dev.tbi.ring with syncout := true } } } } := by
  simp only [exec, execEpochPulse, onDevice, State.onDev, if_pos h]

/-- A ring frame is the ring link's alone. -/
theorem ringStart_eq (tm : TimeBase) (d : Device) : ∃ link, ringStart tm d = { d with ring := link } := by
  unfold ringStart
  dsimp only
  split
  · exact ⟨d.ring, rfl⟩
  · exact ⟨_, rfl⟩

/-- Settles O19: the tracker's states, and the cases of an edge. -/
theorem ringTracks : Obligations.RingTracks := by
  refine ⟨fun s hst => ?_, fun fine e since s hst hfirst hlink hheard hfresh => ?_,
    fun fine e since err s hst hfirst hsecond hlink hheard hfresh herr hsmall hrun => ?_,
    fun fine err s hst hlink hfirst hsecond herr hnear => ?_, fun fine n since s hst hlink hheard hfresh hn => ?_, fun s hst => ?_⟩
  · obtain ⟨link, hlink⟩ := ringStart_eq s.tm { s.dev with tbi := { s.dev.tbi with ring := { s.dev.tbi.ring with syncout := true } } }
    exact ⟨link, by rw [exec_epochPulse hst, hlink]⟩
  · rw [exec_syncinEdge, freshLink_of_heard hheard hfresh, syncEdge_of_acquiring hst hlink]
    rw [measureEpoch_of_first (r := forwarding _ _) hfirst]
    rfl
  · have hrun' : ¬ s.dev.tbi.ring.goodRun + 1 ≥ 16 := by omega
    rw [exec_syncinEdge, freshLink_of_heard hheard hfresh, syncEdge_of_acquiring hst hlink]
    rw [measureEpoch_of_tracking (r := forwarding _ _) hfirst hsecond]
    simp only [epochError, forwarding, ← herr, Bool.not_true, Bool.false_eq_true, if_false, if_pos hsmall, if_neg hrun']
  · obtain ⟨link, hreported, hfresh⟩ := freshLink_eq s.tm s.dev
    obtain ⟨run, hedge⟩ := syncEdge_of_locked_near (tm := s.tm) (fine := fine.val) (d := freshLink s.tm s.dev)
      (by rw [hfresh]; exact hst) (by rw [hfresh]; exact fun n h => hlink n (hreported n h))
      (by rw [hfresh]; exact hfirst) (by rw [hfresh]; exact hsecond) (by rw [hfresh]; exact herr) hnear
    refine ⟨_, exec_syncinEdge fine s, ?_⟩
    rw [hedge, hfresh]
    exact ⟨hst, rfl, rfl, rfl, rfl⟩
  · rw [exec_syncinEdge, freshLink_of_heard hheard hfresh, syncEdge_of_locked_disagreeing hst hlink hn]
    exact ⟨_, rfl, rfl, rfl, rfl, rfl⟩
  · exact ⟨_, by rw [exec_syncPulseMissing, syncMissing_of_locked hst]; rfl⟩

end Sys2Proof.Machine
end

section
/-! SUPPORT. The carriers (R140, R145, R153): the step of one group, and what a period start leaves of them. -/

namespace Sys2Proof.Machine

/-! ### What a period start ends -/

@[simp] theorem spare_stopCalibration (g : Fin 512) (d : Device) : spare (stopCalibration g d) = spare d := by
  unfold stopCalibration
  split
  · rfl
  · split <;> simp

@[simp] theorem spare_stopQuadrant (tm : TimeBase) (q : Fin 4) (d : Device) : spare (stopQuadrant tm q d) = spare d := by
  unfold stopQuadrant
  refine (spare_foldl _ (fun d g => ?_) _ _).trans ((spare_foldl _ (fun d n => spare_dropEdges n d) _ _).trans rfl)
  dsimp only
  split
  · split <;> simp
  · simp

@[simp] theorem spare_settleSmoulder (tm : TimeBase) (d : Device) : spare (settleSmoulder tm d) = spare d :=
  spare_foldl _ (fun d q => by split <;> simp) _ d

/-- The carriers stay with what SpareFrame says of an operation. -/
theorem carriers_of_spare {d t : Device} (h : spare d = spare t) : d.tbi.carriers = t.tbi.carriers :=
  congrArg (·.2.2.2.2.2.2.2.2.2) h

/-- The rails of a group take their boundary. -/
theorem spare_railBoundaries (tm : TimeBase) (vs : Bank 8 (Nat × Nat)) (rs : List (Fin 64 × RailSect)) (d : Device) :
    spare (rs.foldl (fun d x => railBoundary tm x.1 x.2 vs d) d) = spare d :=
  spare_foldl (fun d (x : Fin 64 × RailSect) => railBoundary tm x.1 x.2 vs d) (fun d x => spare_railBoundary tm x.1 x.2 vs d) rs d

/-- Over-current is judged and the group's rails take their boundary; the carriers stay. -/
theorem spare_boundaries (tm : TimeBase) (g : Fin 8) (vs : Bank 8 (Nat × Nat)) (d : Device) :
    spare ((groupRails d g).foldl (fun d x => railBoundary tm x.1 x.2 vs d)
      (railCurrentValues tm ((groupRails d g).map (·.1)) d)) = spare d := by
  rw [spare_railBoundaries, spare_railCurrentValues]

theorem exec_carrierStart (g : Fin 8) (s : State) :
    exec (.carrierStart g) s = .next { s with dev := carrierStarts s.tm g s.dev } := rfl

theorem carrierStarts_carriers (tm : TimeBase) (g : Fin 8) (d : Device) :
    (carrierStarts tm g d).tbi.carriers = (carrierPeriod tm g d).tbi.carriers := carriers_of_spare (spare_settleSmoulder tm _)

/-- A carrier that runs goes on. -/
theorem carriers_of_running {g : Fin 8} {d : Device} (hen : bankGet d.str.device.body.fgEnable g = true)
    (hrun : (bankGet d.tbi.carriers g).started = true) (tm : TimeBase) :
    (carrierStarts tm g d).tbi.carriers = (advanceCarrier g d).tbi.carriers := by
  rw [carrierStarts_carriers, carrierPeriod, hen]
  simp only [Bool.not_true, Bool.false_eq_true, if_false, if_pos hrun]
  exact carriers_of_spare (spare_boundaries ..)

/-- A carrier that has not started starts at TBI's start instant. -/
theorem carriers_of_starting {g : Fin 8} {t : Nat} {d : Device} (hen : bankGet d.str.device.body.fgEnable g = true)
    (hidle : (bankGet d.tbi.carriers g).started = false) (hstart : d.tbi.startAt = some t) (tm : TimeBase) :
    (carrierStarts tm g d).tbi.carriers = (startCarrier g t d).tbi.carriers := by
  rw [carrierStarts_carriers, carrierPeriod, hen]
  simp only [hidle, hstart, Bool.not_true, Bool.false_eq_true, if_false]
  exact carriers_of_spare (spare_boundaries ..)

/-! ### A carrier goes on, or starts -/

/-- A group that is not ring-locked keeps its period (R153). -/
theorem planCarrier_of_free {d : Device} {g : Fin 8} (h : ringLocked d g = false) (c1 : Nat) :
    planCarrier d g c1 = (c1 + groupPeriod d g, false) := by
  simp only [planCarrier, h, Bool.not_false, if_true]

theorem advanceCarrier_same (g : Fin 8) (d : Device) :
    bankGet (advanceCarrier g d).tbi.carriers g =
      { bankGet d.tbi.carriers g with
        k := (bankGet d.tbi.carriers g).k + 1, c0 := (bankGet d.tbi.carriers g).c1, c1 := (bankGet d.tbi.carriers g).c2
        c2 := (planCarrier d g (bankGet d.tbi.carriers g).c2).1, locked := (planCarrier d g (bankGet d.tbi.carriers g).c2).2
        vs := bankFill 8 (0, 0) } := bankGet_bankUpd_same ..

theorem advanceCarrier_other {g h : Fin 8} (d : Device) (hne : h ≠ g) :
    bankGet (advanceCarrier g d).tbi.carriers h = bankGet d.tbi.carriers h := bankGet_bankUpd_other _ _ hne.symm

/-- One group in the common start (R140). -/
def startOne (t : Nat) (d : Device) (g : Fin 8) : Device :=
  if !bankGet d.str.device.body.fgEnable g then d else
  let p := groupPeriod d g
  let c0 :=
    if ringLocked d g ∧ d.tbi.ring.state = .locked then
      let step := p + stretchOf p
      let r := ringTime d t
      let rofs := (bankGet d.tbi.carriers g).rofs.toNat
      let goal := rofs + ((r - rofs) / step + 1) * step
      t + (goal - r).toNat
    else t
  let c1 := planCarrier d g c0
  let c2 := planCarrier d g c1.1
  d.onCarrier g fun c => { c with started := true, k := 0, c0 := c0, c1 := c1.1, c2 := c2.1, locked := c2.2 }

theorem startCarriers_eq (t : Nat) (d : Device) : startCarriers t d = (List.finRange 8).foldl (startOne t) d := rfl

/-- What the start of a carrier reads and leaves: the structure, the ring-locked groups and the ring tracker. -/
def ringPlan (d : Device) : Structure × BitVec 8 × Tracker := (d.str, d.tbi.ringlock, d.tbi.ring)

theorem ringPlan_startOne (t : Nat) (d : Device) (g : Fin 8) : ringPlan (startOne t d g) = ringPlan d := by
  unfold startOne
  split <;> rfl

theorem ringLocked_of_ringPlan {d u : Device} (h : ringPlan d = ringPlan u) (g : Fin 8) : ringLocked d g = ringLocked u g := by
  obtain ⟨-, hlock, hring⟩ : d.str = u.str ∧ d.tbi.ringlock = u.tbi.ringlock ∧ d.tbi.ring = u.tbi.ring := by
    simpa [ringPlan] using h
  rw [ringLocked, hlock, hring, ringLocked]

theorem str_of_ringPlan {d u : Device} (h : ringPlan d = ringPlan u) : d.str = u.str := congrArg Prod.fst h

/-- A carrier of period `p` that starts at `t` with index 0. -/
def StartsAt (t p : Nat) (c : Carrier) : Prop :=
  c.started = true ∧ c.k = 0 ∧ c.c0 = t ∧ c.c1 = t + p ∧ c.c2 = t + 2 * p

theorem startOne_same {d : Device} {g : Fin 8} (hen : bankGet d.str.device.body.fgEnable g = true) (hfree : ringLocked d g = false)
    (t : Nat) : StartsAt t (groupPeriod d g) (bankGet (startOne t d g).tbi.carriers g) := by
  simp only [startOne, hen, hfree, planCarrier_of_free hfree, Bool.not_true, Bool.false_eq_true, false_and, if_false]
  rw [Device.onCarrier_tbi, bankGet_bankUpd_same]
  exact ⟨rfl, rfl, rfl, rfl, by ring⟩

theorem startOne_other {g h : Fin 8} (hne : h ≠ g) (t : Nat) (d : Device) :
    bankGet (startOne t d h).tbi.carriers g = bankGet d.tbi.carriers g := by
  unfold startOne
  split
  · rfl
  · exact bankGet_bankUpd_other _ _ hne

/-- Once its turn has come the carrier of a group has started, and the turns of the others leave it. -/
theorem startOne_foldl {u : Device} {g : Fin 8} (hen : bankGet u.str.device.body.fgEnable g = true) (hfree : ringLocked u g = false)
    (t : Nat) (gs : List (Fin 8)) (d : Device) (hd : ringPlan d = ringPlan u)
    (h : g ∈ gs ∨ StartsAt t (groupPeriod u g) (bankGet d.tbi.carriers g)) :
    StartsAt t (groupPeriod u g) (bankGet (gs.foldl (startOne t) d).tbi.carriers g) := by
  induction gs generalizing d with
  | nil => exact h.resolve_left List.not_mem_nil
  | cons x gs ih =>
    refine ih _ ((ringPlan_startOne t d x).trans hd) ?_
    have hstr := str_of_ringPlan hd
    by_cases hx : x = g
    · subst hx
      right
      have hperiod : groupPeriod d x = groupPeriod u x := by rw [groupPeriod, hstr, groupPeriod]
      exact hperiod ▸ startOne_same (hstr ▸ hen) ((ringLocked_of_ringPlan hd x).trans hfree) t
    · rw [startOne_other hx]
      exact h.imp_left fun hmem => (List.mem_cons.1 hmem).resolve_left (Ne.symm hx)

theorem startCarrier_startsAt {g : Fin 8} {d : Device} (hen : bankGet d.str.device.body.fgEnable g = true)
    (hfree : ringLocked d g = false) (t : Nat) :
    StartsAt t (groupPeriod d g) (bankGet (startCarrier g t d).tbi.carriers g) := by
  rw [startCarrier, Device.onCarrier_tbi, bankGet_bankUpd_same, startCarriers_eq]
  exact startOne_foldl hen hfree t _ d rfl (.inl (List.mem_finRange g))

end Sys2Proof.Machine
end

section
/-! SUPPORT. The EDGE cell of a placed phase's next period (R143, R144, R128). -/

namespace Sys2Proof.Machine

theorem exec_edgeBuild (g : Fin 512) (s : State) :
    exec (.edgeBuild g) s = .next { s with dev := buildEdge s.tm.time.toNat g s.dev } := rfl

/-- A cell without a pulse has both edges at zero (R144). -/
theorem pulseFields_of_nopulse {frac len p minoff minpulse : Nat} (h : (pulseFields frac len p minoff minpulse).2.2 = true) :
    (pulseFields frac len p minoff minpulse).1 = 0 ∧ (pulseFields frac len p minoff minpulse).2.1 = 0 := by
  unfold pulseFields at h ⊢
  dsimp only at h ⊢
  split_ifs with hw
  · exact ⟨rfl, rfl⟩
  · rw [if_neg hw] at h
    exact absurd h Bool.false_ne_true

/-- A phase that is built, on a lane that is UP, with its next period: the slot's rail and that period. -/
structure Building (g : Fin 512) (b : RailSect) (angle left k next : Nat) (d : Device) : Prop where
  owned : ∃ r, (d.slot g).owner = some r ∧ d.sect r = some b
  placed : (d.phase g).placed = true
  angled : (d.phase g).angled = true
  up : (d.lane (laneOf g)).state = .up
  next : nextStart (bankGet d.tbi.carriers b.fgroup) (groupPeriod d b.fgroup) (d.phase g) = some (angle, left, k, next)

/-- The phase once the cell of the period that `was` tells is built: the duty released last is in force, and it waits for the next
period. -/
def builtPhase (was : Phase) (angle left k next limit : Nat) (dir np : Bool) (q : Phase) : Phase :=
  { q with
    angle := angle, move := left, kNext := k, pstart := next, prevDuty := was.newDuty.getD was.prevDuty, builtFor := was.kNext
    dutyWas := was.prevDuty, newDuty := none, stopAt := none, startDue := false, firstAt := none, dir := dir, nopulse := np
    periods := q.periods ++ [⟨was.pstart, next, was.kNext, q.share, limit⟩] }

/-- START, before the first cell after a join (R128). -/
def startedFor (g : Fin 512) (d : Device) : Device :=
  if (d.phase g).startDue then enterServing g (sendCmd g 1 (if (d.phase g).stopAt.isSome then sendStop g d else d)) else d

theorem buildEdge_of_awaiting {g : Fin 512} {b : RailSect} {angle left k next now : Nat} {d : Device}
    (h : Building g b angle left k next d) (hwait : awaitsReceiver now g d = true) :
    buildEdge now g d = d.onPhase g fun q =>
      { q with angle := angle, move := left, kNext := k, pstart := next, firstAt := some k } := by
  obtain ⟨⟨r, hown, hsect⟩, hplaced, hangled, hup, hnext⟩ := h
  simp only [buildEdge, hown, hsect, hplaced, hangled, hup, hnext, hwait]
  rfl

/-- Once the receiver is awake the cell goes out. -/
theorem buildEdge_of_awake {g : Fin 512} {b : RailSect} {angle left k next now : Nat} {d : Device}
    (h : Building g b angle left k next d) (hawake : awaitsReceiver now g d = false) :
    ∃ on off np dir limit, (np = true → on = 0 ∧ off = 0) ∧
      buildEdge now g d = ((sendCell (laneOf g) (.edge (slotOf g) (BitVec.ofNat 24 (d.phase g).pstart) on off np dir)
        (d.phase g).pstart (startedFor g d)).onPhase g (builtPhase (d.phase g) angle left k next limit dir np)) := by
  obtain ⟨⟨r, hown, hsect⟩, hplaced, hangled, hup, hnext⟩ := h
  simp only [buildEdge, hown, hsect, hplaced, hangled, hup, hnext, hawake]
  refine ⟨_, _, _, _, _, fun hnp => ?_, rfl⟩
  obtain ⟨hon, hoff⟩ := pulseFields_of_nopulse hnp
  rw [hon, hoff]
  exact ⟨rfl, rfl⟩

/-! ### START before the first cell (R128, R203) -/

theorem onLane_queue {f : Lane → Lane} (h : ∀ l, (f l).queue = l.queue) (n m : Fin 64) (d : Device) :
    ((d.onLane n f).lane m).queue = (d.lane m).queue := by
  by_cases e : n = m
  · subst e
    rw [Device.onLane_lane, h]
  · rw [Device.onLane_lane_other d f e]

/-- A change of STATE sends nothing. -/
theorem setSlot_queue (g : Fin 512) (st : SlotState) (why : SlotReason) (d : Device) (n : Fin 64) :
    ((setSlot g st why d).lane n).queue = (d.lane n).queue := by
  have owner (u : Device) : (ownerLoses g u).lane n = u.lane n := by unfold ownerLoses; split <;> rfl
  unfold setSlot
  dsimp only
  split <;> split
  · exact (onLane_queue (by intro; rfl) _ n _).trans (congrArg Lane.queue (owner _))
  · exact onLane_queue (by intro; rfl) _ n _
  · exact congrArg Lane.queue (owner _)
  · rfl

theorem startedFor_of_none {g : Fin 512} {d : Device} (h : (d.phase g).startDue = false) : startedFor g d = d := by
  rw [startedFor, h]
  rfl

theorem startedFor_of_admitted {g : Fin 512} {d : Device} (h : (d.phase g).startDue = true) (hstop : (d.phase g).stopAt = none)
    (hs : (d.slot g).state = .admitted) :
    startedFor g d = setSlot g .serving .none ((sendCmd g 1 d).onSlot g fun s => { s with sampledAt := none }) := by
  have hs' : ((sendCmd g 1 d).slot g).state = .admitted := hs
  simp only [startedFor, h, hstop, Option.isSome_none, Bool.false_eq_true, if_false, if_true, enterServing, hs']

theorem awaitsReceiver_of_none_due {g : Fin 512} {d : Device} (h : (d.phase g).startDue = false) (now : Nat) :
    awaitsReceiver now g d = false := by
  rw [awaitsReceiver, h]
  rfl

theorem awaitsReceiver_of_awake {g : Fin 512} {d : Device} (h : (d.lane (laneOf g)).wokeAt = none) (now : Nat) :
    awaitsReceiver now g d = false := by
  rw [awaitsReceiver, h, Bool.and_false]

theorem awaitsReceiver_of_waking {g : Fin 512} {d : Device} {woke now : Nat} (h : (d.phase g).startDue = true)
    (hwoke : (d.lane (laneOf g)).wokeAt = some woke) (hnow : now < woke + 800 * min 10 Config.laneWake) :
    awaitsReceiver now g d = true := by
  simp [awaitsReceiver, h, hwoke, hnow]

/-- Settles O18: the carriers go on or start, the phase's cell goes out or waits, and the base is written. -/
theorem periodsBuilt : Obligations.PeriodsBuilt := by
  refine ⟨fun g s hen hrun => ⟨_, exec_carrierStart g s, ?_⟩, fun g t s hen hidle hstart hfree => ⟨_, exec_carrierStart g s, ?_⟩,
    fun g r b angle left k next s hown hsect hplaced hangled hup hnext => ?_, fun src r base s hm hr => ?_⟩
  · rw [carriers_of_running hen hrun, advanceCarrier_same]
    refine ⟨rfl, rfl, rfl, fun hfree => ?_, fun h hne => advanceCarrier_other s.dev hne⟩
    rw [planCarrier_of_free hfree]
  · rw [carriers_of_starting hen hidle hstart]
    exact startCarrier_startsAt hen hfree t
  · have building : Building g b angle left k next s.dev := ⟨⟨r, hown, hsect⟩, hplaced, hangled, hup, hnext⟩
    refine ⟨fun hdue => ?_, fun hdue hstop hwoke hadm => ?_, fun woke hdue hwoke hnow => ?_⟩
    · obtain ⟨on, off, np, dir, limit, hnp, built⟩ :=
        buildEdge_of_awake building (awaitsReceiver_of_none_due hdue s.tm.time.toNat)
      rw [startedFor_of_none hdue] at built
      refine ⟨_, on, off, np, dir, (exec_edgeBuild g s).trans (by rw [built]), ?_, hnp, ?_⟩
      · simp [sendCell]
      · rw [Device.onPhase_phase]
        exact ⟨rfl, rfl, rfl, rfl, rfl, rfl, rfl, rfl, rfl, rfl, rfl, fun n hne => Device.onLane_lane_other s.dev _ hne.symm⟩
    · obtain ⟨on, off, np, dir, limit, -, built⟩ :=
        buildEdge_of_awake building (awaitsReceiver_of_awake hwoke s.tm.time.toNat)
      rw [startedFor_of_admitted hdue hstop hadm] at built
      refine ⟨_, on, off, np, dir, (exec_edgeBuild g s).trans (by rw [built]), ?_, ?_, ?_⟩
      · simp [sendCell, setSlot_queue, sendCmd, byte]
      · simp [sendCell]
      · simp [builtPhase]
    · rw [exec_edgeBuild, buildEdge_of_awaiting building (awaitsReceiver_of_waking hdue hwoke hnow)]
  · exact congrArg Host.Outcome.next (rowWrite_of_engineer hr hm _ _ fun _ _ => writeBase r base)

end Sys2Proof.Machine
end

section
/-! SUPPORT. Correctable RAM errors (R28, R179): their record, and the count that the loop engine keeps of its own. -/

namespace Sys2Proof.Machine

/-- A correctable error of the loop engine's RAM is counted in LE.ECC, and recorded as any other (R179). -/
theorem ramFails_correctable_le (s : State) :
    ramFails .le true s = s.onDev fun d => raiseRam s.tm .le { d with le := { d.le with ecc := satInc d.le.ecc } } := rfl

/-- A correctable error of another block's RAM is recorded, and that is all (R28). -/
theorem ramFails_correctable_of_ne_le {blk : RamBlock} (hb : blk ≠ .le) (s : State) :
    ramFails blk true s = s.onDev (raiseRam s.tm blk) := by
  simp [ramFails, hb]

/-- The record of a RAM error changes the recorder alone, and its free value is drawn (R28). -/
theorem raiseRam_eq (tm : TimeBase) (blk : RamBlock) (d : Device) : raiseRam tm blk d = { d with
    er := raiseIn tm 0x01 (leBytes 1 1 ++ leBytes 1 (faultNibble d.draws blk) ++
      leBytes 4 (Config.faultDetail 1 (faultNibble d.draws blk)).toNat) d.er
    draws := d.draws + 1 } := rfl

theorem exec_ramError (blk : RamBlock) (correctable : Bool) (s : State) :
    exec (.ramError blk correctable) s = .next (ramFails blk correctable s) := rfl

/-- Settles O6: a correctable error leaves its record, with the loop engine's count beside it; an uncorrectable one of the loop
engine leaves its fault and is the warm reset, which `resetsComplete` says of each block that resets the device. -/
theorem engineRamErrors : Obligations.EngineRamErrors := by
  unfold Obligations.EngineRamErrors
  obtain ⟨-, -, -, -, -, reset⟩ := resetsComplete
  refine ⟨fun s => ⟨(Config.faultDetail 1 3).toNat, ?_⟩, fun s h => ?_,
    fun blk s hb => ⟨faultNibble s.dev.draws blk, (Config.faultDetail 1 (faultNibble s.dev.draws blk)).toNat, ?_⟩⟩
  · rw [exec_ramError, ramFails_correctable_le, State.onDev, raiseRam_eq]
    rfl
  · exact reset .le s h (by decide)
  · rw [exec_ramError, ramFails_correctable_of_ne_le hb, State.onDev, raiseRam_eq]

end Sys2Proof.Machine
end

section
/-! SUPPORT. Auto-tune (R194, R195, R198): how a run begins, what turns a START away, and what the end of a run leaves. -/

namespace Sys2Proof.Machine

/-! ### What the beginning of a write leaves of Table 7-2's checks -/

@[simp] theorem rowStarts_goalOf (src : Src) (a : Addr) (s : State) (r : Fin 64) :
    goalOf (rowStarts src a s).dev r = goalOf s.dev r := by
  obtain ⟨_, _, _, _, h, -⟩ := rowStarts_sameButAccess src a s; rw [h]; rfl
@[simp] theorem rowStarts_tuneCheck (src : Src) (a : Addr) (s : State) (r : Fin 64) (inner : Bool) (goal : Nat) :
    tuneCheck (rowStarts src a s).dev r inner goal = tuneCheck s.dev r inner goal := by
  obtain ⟨_, _, _, _, h, -⟩ := rowStarts_sameButAccess src a s; rw [h]; rfl

/-! ### START (R194, R195) -/

/-- The run that a START makes: it waits for its first sample instant. -/
def waitingRun (tm : TimeBase) (r : Fin 64) (inner : Bool) (rule : BitVec 2) : TuneRun :=
  ⟨r, inner, if rule = 3 then 2 else rule, tm.time.toNat, true, 0, true, false, 0, [], 0, 0, none, 0, [], 0⟩

section
variable {src : Src} {d : Device}

theorem startTune_of_running (h : d.tune.run.isSome = true) (tm : TimeBase) (r : Fin 64) (inner : Bool) (rule : BitVec 2) :
    startTune tm src r inner rule d = { d with tune := { d.tune with ignored := true } } := if_pos h

variable (hrun : d.tune.run = none)
include hrun

theorem startTune_of_denied (hm : ¬ MayChange d src) (tm : TimeBase) (r : Fin 64) (inner : Bool) (rule : BitVec 2) :
    startTune tm src r inner rule d = noRun tm r inner .denied 0 d := by
  have denied : (!(may d src .engineer && lifeAllows d)) = true := by
    rw [Bool.not_eq_true', Bool.eq_false_iff]
    exact mt commissions_iff.mp hm
  simp only [startTune, hrun, denied, Option.isSome_none, Bool.false_eq_true, if_false, if_true]

theorem startTune_of_refused {r : Fin 64} {inner : Bool} {c : Nat} (hm : MayChange d src)
    (hc : tuneCheck d r inner (goalOf d r) = some c) (tm : TimeBase) (rule : BitVec 2) :
    startTune tm src r inner rule d = noRun tm r inner .refused c d := by
  obtain ⟨level, life⟩ := hm
  simp [startTune, hrun, level, life, hc]

theorem startTune_of_passing {r : Fin 64} {inner : Bool} (hm : MayChange d src) (hc : tuneCheck d r inner (goalOf d r) = none)
    (tm : TimeBase) (rule : BitVec 2) : startTune tm src r inner rule d = { d with tune := { d.tune with
      result := 0, check := 0, cycle := 0, ignored := false, loop := inner, rail := r
      run := some (waitingRun tm r inner rule) } } := by
  obtain ⟨level, life⟩ := hm
  simp [startTune, hrun, level, life, hc, waitingRun]

end

/-- A run that ends before it begins changes its registers and the recorder alone (R201). -/
theorem noRun_eq (tm : TimeBase) (r : Fin 64) (inner : Bool) (res : TuneResult) (check : Nat) (d : Device) :
    ∃ er, noRun tm r inner res check d = { d with er := er, tune := { d.tune with
      result := res.code, check := BitVec.ofNat 4 check, loop := inner, rail := r } } := ⟨_, rfl⟩

section
variable {src : Src} {s : State} (hr : Reaches src .engine s)
include hr

/-- AT.CMD START that reaches its register: its access shows whether the source has the right to it. -/
theorem exec_atStart (hm : may s.dev src .none = true) (r : Fin 64) (loop : BitVec 1) (rule : BitVec 2) :
    exec (.atStart src r loop rule) s = .next (Wrote src 0x6800 (if commissions src s.dev then 0 else stDenied)
      (startTune s.tm src r (decide (loop = 1)) rule) s) := by
  refine congrArg Host.Outcome.next ((rowWrite_of_reaches hr ..).trans ?_)
  simp [actAtStart, writeCommand, Wrote, commissions, byLevel, State.onDev, hm]

/-- AT.CMD STOP that reaches its register ends the run, and its access leaves what the end of the run leaves. -/
theorem exec_atStop (hm : may s.dev src .engineer = true) :
    exec (.atStop src) s = .next { s with dev := rowEnds src 0x6800 0 (endTune s.tm .stopped [] (rowStarts src 0x6800 s).dev) } :=
  congrArg Host.Outcome.next ((rowWrite_of_engineer hr hm 0x6800 2 fun tm _ => stopTune tm).trans (wrote_eq ..))

end

theorem exec_autotuneTimeout (s : State) : exec .autotuneTimeout s = .next { s with dev := tuneExpires s.tm s.dev } := rfl

theorem tuneExpires_of_elapsed {tm : TimeBase} {d : Device} {t : TuneRun} (hrun : d.tune.run = some t) (hw : t.waiting = false)
    (h : tm.time.toNat - t.start ≥ msTicks d.tune.runMax.toNat) : tuneExpires tm d = endTune tm .timeout [] d := by
  simp [tuneExpires, hrun, hw, h]

/-! ### The end of a run (R198, Table 12-11) -/

/-- What the end of a run tells the host: the registers of auto-tune, and HSP.EVT. -/
def tuneReport (d : Device) : Tune × BitVec 5 := (d.tune, d.hsp.evt)

theorem tuneReport_rowEnds (src : Src) (a : Addr) (st : Byte) (d : Device) :
    tuneReport (rowEnds src a st d) = tuneReport d := by
  obtain ⟨_, _, _, _, h, -, hhsp, -⟩ := rowEnds_sameButAccess src a st d; rw [h, hhsp]; rfl

theorem tuneReport_noteMode (tm : TimeBase) (r : Fin 64) (before after : Device) :
    tuneReport (noteMode tm r before after) = tuneReport after := by
  unfold noteMode; split <;> rfl

/-- BUSY falls: the run is over with its result. -/
def dropRun (res : TuneResult) (d : Device) : Device :=
  { d with tune := { d.tune with result := res.code, run := none }, hsp := { d.hsp with evt := setBit d.hsp.evt 2 } }

/-- The tuned loop resumes from the output in force, where the run had begun (R186, R198). -/
def resumeLoop (t : TuneRun) (d : Device) : Device :=
  match d.sect t.rail with
  | none => d
  | some b =>
    if t.waiting then d
    else if t.inner then (placedOf d t.rail).foldl (fun d g => presetInner t.rail b g (d.phase g).duty d) d
    else presetOuter t.rail b (d.loop t.rail).dem d

theorem tuneReport_resumeLoop (t : TuneRun) (d : Device) : tuneReport (resumeLoop t d) = tuneReport d := by
  unfold resumeLoop
  split
  · rfl
  split_ifs
  · rfl
  · exact foldl_keeps tuneReport (f := fun d g => presetInner t.rail _ g (d.phase g).duty d) (fun _ _ => rfl) _ d
  · rfl

/-- A run that ends without figures: BUSY falls, its loop resumes, and the run is recorded. -/
theorem endTune_eq {d : Device} {t : TuneRun} {res : TuneResult} (hrun : d.tune.run = some t) (hres : res ≠ .done)
    (tm : TimeBase) (cycles : List (Nat × Int)) :
    endTune tm res cycles d = raiseTune tm t.rail t.inner (resumeLoop t (noteMode tm t.rail d (dropRun res d))) := by
  unfold endTune
  rw [hrun]
  cases res with
  | done => exact absurd rfl hres
  | _ => rfl

/-- That its loop resumes and that it is recorded changes nothing of what the end of a run reports. -/
theorem tuneReport_endTune {d : Device} {t : TuneRun} {res : TuneResult} (hrun : d.tune.run = some t) (hres : res ≠ .done)
    (tm : TimeBase) (cycles : List (Nat × Int)) : tuneReport (endTune tm res cycles d) = tuneReport (dropRun res d) := by
  rw [endTune_eq hrun hres]
  exact (tuneReport_resumeLoop ..).trans (tuneReport_noteMode ..)

/-- What the report of an ended run shows: BUSY low, the result, and AT_DONE set (Table 12-11). -/
theorem ended_of_tuneReport {d e : Device} {res : TuneResult} (h : tuneReport d = tuneReport (dropRun res e)) :
    d.tune.run = none ∧ d.tune.result = res.code ∧ d.hsp.evt.getLsbD 2 = true := by
  obtain ⟨htune, hevt⟩ : d.tune = (dropRun res e).tune ∧ d.hsp.evt = (dropRun res e).hsp.evt := Prod.mk.inj h
  rw [htune, hevt]
  exact ⟨rfl, rfl, setBit_getLsbD (by decide) _⟩

/-- Settles O21: a START by whether a run is in progress, the source's right and the checks; STOP and the limit each end the run. -/
theorem autotuneRuns : Obligations.AutotuneRuns := by
  refine ⟨fun src r loop rule s hreg hr => ?_, fun src t s hm hr hrun => ?_, fun t s hrun hw h => ?_⟩
  · have right : MayChange (rowStarts src 0x6800 s).dev src ↔ MayChange s.dev src := mayChange_rowStarts ..
    rw [exec_atStart hr hreg]
    refine ⟨fun hrun hm => ?_, fun hrun hm hc => ?_, fun c hrun hm hc => ?_, fun hrun hm => ?_⟩
    · rw [if_pos (commissions_iff.mpr hm)]
      exact congrArg Host.Outcome.next (wrote_congr (startTune_of_running (by simpa using hrun) ..) 0)
    · rw [if_pos (commissions_iff.mpr hm)]
      exact ⟨waitingRun s.tm r (decide (loop = 1)) rule, rfl, rfl, rfl, rfl, rfl, congrArg Host.Outcome.next
        (wrote_congr (startTune_of_passing (by simpa using hrun) (right.mpr hm) (by simpa using hc) ..) 0)⟩
    · rw [if_pos (commissions_iff.mpr hm)]
      obtain ⟨er, ended⟩ := noRun_eq s.tm r (decide (loop = 1)) .refused c (rowStarts src 0x6800 s).dev
      have refused := startTune_of_refused (by simpa using hrun) (right.mpr hm) (by simpa using hc) s.tm rule
      exact ⟨er, congrArg Host.Outcome.next (wrote_congr (refused.trans ended) 0)⟩
    · rw [if_neg (mt commissions_iff.mp hm)]
      obtain ⟨er, ended⟩ := noRun_eq s.tm r (decide (loop = 1)) .denied 0 (rowStarts src 0x6800 s).dev
      have denied := startTune_of_denied (by simpa using hrun) (mt right.mp hm) s.tm r (decide (loop = 1)) rule
      exact ⟨er, congrArg Host.Outcome.next (wrote_congr (denied.trans ended) stDenied)⟩
  · have ended := tuneReport_endTune (d := (rowStarts src 0x6800 s).dev) (res := .stopped) (by simpa using hrun) (by decide) s.tm []
    exact ⟨_, exec_atStop hr hm, ended_of_tuneReport ((tuneReport_rowEnds ..).trans ended)⟩
  · refine ⟨_, exec_autotuneTimeout s, ?_⟩
    rw [tuneExpires_of_elapsed hrun hw h]
    exact ended_of_tuneReport (tuneReport_endTune hrun (by decide) ..)

end Sys2Proof.Machine
end

section
/-! SUPPORT. What the rail manager's operations leave of the rails (R22, R170, R206, R224 to R228): of every rail all but its interrupt
flags, and of one rail all but its addition records and what moves with them. One law for each operation, in the order of the model's
files; and a rail that leaves its running state places no phase any more. -/

namespace Sys2Proof.Machine

/-! ### The views -/

/-- A rail without its interrupt flags. -/
def Rail.unflagged (x : Rail) : Rail := { x with intStatus := 0 }

/-- A rail without its addition records and what they move (R224 to R228): the warmings and leaves under way for them, the dwell, their
count, and the interrupt flags. -/
def Rail.kept (x : Rail) : Rail := { x with stack := [], warming := [], unwinding := [], dwell := 0, unwinds := 0, intStatus := 0 }

/-- All the rails without their interrupt flags. -/
def unflagged (d : Device) : Fin 64 → Rail := fun r => (d.rail r).unflagged

theorem unflagged_of_rails {d t : Device} (h : d.rails = t.rails) : unflagged d = unflagged t := by
  unfold unflagged Device.rail; rw [h]

theorem rail_unflagged {d t : Device} (h : unflagged d = unflagged t) (r : Fin 64) : (d.rail r).unflagged = (t.rail r).unflagged :=
  congrFun h r

theorem onRail_unflagged {f : Rail → Rail} (r : Fin 64) (d : Device) (h : ∀ x, (f x).unflagged = x.unflagged := by intro; rfl) :
    unflagged (d.onRail r f) = unflagged d := by
  funext k
  by_cases e : r = k
  · subst e; simp [unflagged, h]
  · simp [unflagged, Device.onRail_rail_other d f e]

theorem onRail_kept {f : Rail → Rail} (r : Fin 64) (d : Device) (h : ∀ x, (f x).kept = x.kept := by intro; rfl) :
    ((d.onRail r f).rail r).kept = (d.rail r).kept := by
  rw [Device.onRail_rail, h]

theorem rail_of_rails {d t : Device} (h : d.rails = t.rails) (r : Fin 64) : d.rail r = t.rail r := by
  unfold Device.rail; rw [h]

/-- Two changes of one rail are one. -/
theorem onRail_onRail (d : Device) (r : Fin 64) (f g : Rail → Rail) : (d.onRail r f).onRail r g = d.onRail r fun x => g (f x) := by
  simp [Device.onRail, bankUpd, bankSet, bankGet]

/-! ### What leaves the rails alone -/

theorem captureTrigger_eq (tm : TimeBase) (k : TriggerKind) (index : Nat) (d : Device) :
    ∃ er bog cap, captureTrigger tm k index d = { d with er := er, bog := bog, cap := cap } := by
  unfold captureTrigger
  split
  · exact ⟨_, _, _, rfl⟩
  split
  · exact ⟨_, _, _, rfl⟩
  · exact ⟨_, _, _, rfl⟩
  all_goals split <;> exact ⟨_, _, _, rfl⟩

theorem noteMode_eq (tm : TimeBase) (r : Fin 64) (before after : Device) :
    ∃ le, noteMode tm r before after = { after with le := le } := by
  unfold noteMode
  split <;> exact ⟨_, rfl⟩

@[simp] theorem noteMode_rails (tm : TimeBase) (r : Fin 64) (before after : Device) :
    (noteMode tm r before after).rails = after.rails := by
  obtain ⟨_, h⟩ := noteMode_eq tm r before after; rw [h]

@[simp] theorem unplace_rails (g : Fin 512) (stopAt : Option Nat) (d : Device) : (unplace g stopAt d).rails = d.rails := by
  unfold unplace
  split <;> rfl

theorem resumeLoop_rails (t : TuneRun) (d : Device) : (resumeLoop t d).rails = d.rails := by
  unfold resumeLoop
  split
  · rfl
  split_ifs
  · rfl
  · exact foldl_keeps Device.rails (f := fun d g => presetInner t.rail _ g (d.phase g).duty d) (fun _ _ => rfl) _ d
  · rfl

theorem raiseTune_rails (tm : TimeBase) (r : Fin 64) (inner : Bool) (d : Device) : (raiseTune tm r inner d).rails = d.rails := rfl

@[simp] theorem endTuneOn_rails (tm : TimeBase) (r : Fin 64) {res : TuneResult} (hres : res ≠ .done) (d : Device) :
    (endTuneOn tm r res d).rails = d.rails := by
  unfold endTuneOn
  split
  · cases hrun : d.tune.run with
    | none => simp [endTune, hrun]
    | some t =>
      rw [endTune_eq hrun hres, raiseTune_rails, resumeLoop_rails, noteMode_rails]
      rfl
  · rfl

@[simp] theorem raiseUnwinds_rails (tm : TimeBase) (r : Fin 64) (unwound released : List (Fin 128)) (d : Device) :
    (raiseUnwinds tm r unwound released d).rails = d.rails := by
  refine foldl_keeps Device.rails (fun d e => ?_) _ _
  unfold raiseUnwind
  split <;> rfl

@[simp] theorem sendBias_foldl_rails (tm : TimeBase) (gs : List (Fin 512)) (d : Device) :
    (gs.foldl (fun d g => sendBias tm g d) d).rails = d.rails :=
  foldl_keeps Device.rails (f := fun d g => sendBias tm g d) (fun _ _ => rfl) gs d

/-! ### Addition records (R24, R225 to R227) -/

theorem countUnwound_kept (r : Fin 64) (n : Nat) (d : Device) : ((countUnwound r n d).rail r).kept = (d.rail r).kept := by
  unfold countUnwound
  split
  · rfl
  · exact onRail_kept r d

theorem raiseUnwinds_rail (tm : TimeBase) (r k : Fin 64) (unwound released : List (Fin 128)) (d : Device) :
    (raiseUnwinds tm r unwound released d).rail k = d.rail k := rail_of_rails (raiseUnwinds_rails ..) k

theorem unwindRail_kept (tm : TimeBase) (r : Fin 64) (bySection : Bool) (d : Device) :
    ((unwindRail tm r bySection d).rail r).kept = (d.rail r).kept := by
  refine (onRail_kept r _).trans ?_
  unfold unwindWhere
  rw [raiseUnwinds_rail, countUnwound_kept]
  exact onRail_kept r d

theorem dropRecords_kept (tm : TimeBase) (r : Fin 64) (pick : AddRecord → Bool) (d : Device) :
    ((dropRecords tm r pick d).rail r).kept = (d.rail r).kept := by
  unfold dropRecords
  rw [raiseUnwinds_rail, countUnwound_kept]
  exact onRail_kept r d

theorem discardRecords_rail (tm : TimeBase) (r : Fin 64) (d : Device) :
    (discardRecords tm r d).rail r = { d.rail r with stack := [], warming := [], unwinding := [], ended := [] } :=
  (raiseUnwinds_rail ..).trans (Device.onRail_rail ..)

/-! ### A change of STATE (Table 8-2) -/

/-- A change of STATE changes its rail, and beside it the log of modes, the under-voltage sources, and the rail's base in OFF. -/
theorem changeState_eq (tm : TimeBase) (r : Fin 64) (to' : RailState) (cause : RailCause) (d : Device) :
    ∃ flags le pm tbi er, changeState tm r to' cause d = { d with
      rails := bankSet d.rails r { d.rail r with
        state := to', cause := causeAfter (d.rail r) to' cause, since := tm.time.toNat, goodRun := 0, intStatus := flags }
      le := le, pm := pm, tbi := tbi, er := er } := by
  unfold changeState
  dsimp only
  rw [(noteMode_eq tm r d _).choose_spec]
  cases to' <;> exact ⟨_, _, _, _, _, rfl⟩

/-- Of the protection sources a change of STATE clears some, or none (R212). -/
theorem changeState_pm (tm : TimeBase) (r : Fin 64) (to' : RailState) (cause : RailCause) (d : Device) :
    (changeState tm r to' cause d).pm = d.pm ∨ ∃ pick, (changeState tm r to' cause d).pm = (clearSources pick d).pm := by
  unfold changeState
  dsimp only
  rw [(noteMode_eq tm r d _).choose_spec]
  cases to'
  case regulate | hold => exact .inl rfl
  all_goals exact .inr ⟨fun e => decide (e.source = 4) && decide (e.srcIndex = r.val), rfl⟩

theorem changeState_unflagged (tm : TimeBase) (r : Fin 64) (to' : RailState) (cause : RailCause) (d : Device) :
    ((changeState tm r to' cause d).rail r).unflagged = { (d.rail r).unflagged with
      state := to', cause := causeAfter (d.rail r) to' cause, since := tm.time.toNat, goodRun := 0 } := by
  obtain ⟨_, _, _, _, _, h⟩ := changeState_eq tm r to' cause d
  rw [h, Device.rail, bankGet_bankSet_same]
  rfl

/-! ### Seats (R142, R203) -/

/-- Whether a phase is placed, and which rail's it is. -/
def seat (d : Device) (g : Fin 512) : Bool × Option (Fin 64) := ((d.phase g).placed, (d.slot g).owner)

theorem mem_placedOf {d : Device} {r : Fin 64} {g : Fin 512} : g ∈ placedOf d r ↔
    seat d g = (true, some r) ∧ (g ∈ railPhases d r ∨ g ∈ (bankGet d.tbi.rails r).leavers) := by
  simp only [placedOf, leaversOf, List.mem_append, List.mem_filter, seat, Prod.mk.injEq, Bool.and_eq_true, decide_eq_true_eq,
    Bool.not_eq_true', List.contains_eq_mem, decide_eq_false_iff_not]
  tauto

/-- Once each placed phase of a rail has left, and no other phase has moved, the rail's placed set is empty. -/
theorem placedOf_eq_nil {d t : Device} {r : Fin 64} (hstr : d.str = t.str) (htbi : d.tbi = t.tbi)
    (moved : ∀ g, seat d g = seat t g ∨ (seat d g).1 = false) (left : ∀ g ∈ placedOf t r, (seat d g).1 = false) :
    placedOf d r = [] := by
  refine List.eq_nil_iff_forall_not_mem.mpr fun g hg => ?_
  obtain ⟨seated, listed⟩ := mem_placedOf.mp hg
  have placed : ¬ (seat d g).1 = false := by simp [seated]
  refine placed (left g (mem_placedOf.mpr ⟨((moved g).resolve_right placed).symm.trans seated, ?_⟩))
  simpa [railPhases, Device.sect, hstr, htbi] using listed

/-- The sections in force, the timebase, the seats, and the rails without their interrupt flags: what the state of a slot, the cells
of a lane and the marks of a phase do not bear upon. -/
def seating (d : Device) : (Structure × Tbi) × (Fin 512 → Bool × Option (Fin 64)) × (Fin 64 → Rail) :=
  ((d.str, d.tbi), seat d, unflagged d)

theorem seating_onSlot {f : Slot → Slot} (g : Fin 512) (d : Device) (h : ∀ s, (f s).owner = s.owner := by intro; rfl) :
    seating (d.onSlot g f) = seating d := by
  have seats : seat (d.onSlot g f) = seat d := by
    funext k
    by_cases e : g = k
    · subst e; simp [seat, h]
    · simp [seat, Device.onSlot_slot_other d f e]
  exact congrArg (fun x => ((d.str, d.tbi), x, unflagged d)) seats

theorem seating_onPhase {f : Phase → Phase} (g : Fin 512) (d : Device) (h : ∀ p, (f p).placed = p.placed := by intro; rfl) :
    seating (d.onPhase g f) = seating d := by
  have seats : seat (d.onPhase g f) = seat d := by
    funext k
    by_cases e : g = k
    · subst e; simp [seat, h]
    · simp [seat, Device.onPhase_phase_other d f e]
  exact congrArg (fun x => ((d.str, d.tbi), x, unflagged d)) seats

theorem seating_ownerLoses (g : Fin 512) (d : Device) : seating (ownerLoses g d) = seating d := by
  unfold ownerLoses phaseGone
  split
  · exact congrArg (fun x => ((d.str, d.tbi), seat d, x)) (onRail_unflagged _ d)
  · rfl

theorem seating_setSlot (g : Fin 512) (st : SlotState) (why : SlotReason) (d : Device) :
    seating (setSlot g st why d) = seating d := by
  have marked : seating (d.onSlot g fun s => { s with state := st, reason := why }) = seating d := seating_onSlot g d
  unfold setSlot
  dsimp only
  split <;> split
  · exact (seating_ownerLoses ..).trans marked
  · exact marked
  · exact (seating_ownerLoses ..).trans marked
  · exact marked

/-! ### The placed set empties (R22, R290) -/

theorem unplace_seat_same (g : Fin 512) (stopAt : Option Nat) (d : Device) : (seat (unplace g stopAt d) g).1 = false := by
  simp [unplace, seat, Device.phase]

theorem unplace_seat_other {g k : Fin 512} (h : g ≠ k) (stopAt : Option Nat) (d : Device) :
    seat (unplace g stopAt d) k = seat d k := by
  unfold unplace seat Device.phase Device.slot
  dsimp only
  split <;> simp [bankGet_bankUpd_other _ _ h, clearSources]

/-- One phase leaves as the placed set of its rail is emptied. -/
def unseat (atOnce : Bool) (d : Device) (g : Fin 512) : Device :=
  if atOnce then
    let d := unplace g none d
    let d := d.onLane (laneOf g) fun l => { l with queue := l.queue.filter fun q => match q.cell with
      | .edge s _ _ _ _ _ => decide (s ≠ slotOf g)
      | _ => true }
    let after := (d.phase g).after
    let d := sendStop g (d.onPhase g fun p => { p with after := .admitted })
    if (d.slot g).state ≠ .serving then d else
    match after with
    | .admitted => setSlot g .admitted .none d
    | .retired => setSlot g .retired .none d
  else unplace g (some (d.phase g).pstart) d

theorem emptyPlaced_eq (atOnce : Bool) (r : Fin 64) (d : Device) :
    emptyPlaced atOnce r d = (placedOf d r).foldl (unseat atOnce) d := rfl

/-- A phase that leaves is unplaced; the STOP that follows at once is no matter of seats. -/
theorem seating_unseat (atOnce : Bool) (d : Device) (g : Fin 512) :
    ∃ stopAt, seating (unseat atOnce d g) = seating (unplace g stopAt d) := by
  unfold unseat
  cases atOnce with
  | false => exact ⟨_, rfl⟩
  | true =>
    refine ⟨none, ?_⟩
    have stopped (l : Lane → Lane) (t : Device) :
        seating (sendStop g ((t.onLane (laneOf g) l).onPhase g fun p => { p with after := .admitted })) = seating t :=
      seating_onPhase (d := t.onLane (laneOf g) l) g
    rw [if_pos rfl]
    dsimp only
    split
    · exact stopped ..
    · split
      · exact (seating_setSlot ..).trans (stopped ..)
      · exact (seating_setSlot ..).trans (stopped ..)

theorem unseat_seat_other (atOnce : Bool) (d : Device) {g k : Fin 512} (h : g ≠ k) : seat (unseat atOnce d g) k = seat d k := by
  obtain ⟨stopAt, hs⟩ := seating_unseat atOnce d g
  exact (congrArg (fun x => x.2.1 k) hs).trans (unplace_seat_other h ..)

theorem unseat_seat_same (atOnce : Bool) (d : Device) (g : Fin 512) : (seat (unseat atOnce d g) g).1 = false := by
  obtain ⟨stopAt, hs⟩ := seating_unseat atOnce d g
  exact (congrArg (fun x => (x.2.1 g).1) hs).trans (unplace_seat_same ..)

theorem unseat_lists (atOnce : Bool) (d : Device) (g : Fin 512) :
    (unseat atOnce d g).str = d.str ∧ (unseat atOnce d g).tbi = d.tbi := by
  obtain ⟨stopAt, hs⟩ := seating_unseat atOnce d g
  have lists : ((unplace g stopAt d).str, (unplace g stopAt d).tbi) = (d.str, d.tbi) := by unfold unplace; split <;> rfl
  exact Prod.mk.inj ((congrArg Prod.fst hs).trans lists)

theorem unseat_unflagged (atOnce : Bool) (d : Device) (g : Fin 512) : unflagged (unseat atOnce d g) = unflagged d := by
  obtain ⟨stopAt, hs⟩ := seating_unseat atOnce d g
  exact (congrArg (fun x => x.2.2) hs).trans (unflagged_of_rails (unplace_rails ..))

/-- A phase that has left stays unplaced, and a phase is moved only by leaving. -/
theorem unseat_foldl_seat (atOnce : Bool) (k : Fin 512) (gs : List (Fin 512)) (d : Device) :
    (k ∈ gs → (seat (gs.foldl (unseat atOnce) d) k).1 = false) ∧
    (seat (gs.foldl (unseat atOnce) d) k = seat d k ∨ (seat (gs.foldl (unseat atOnce) d) k).1 = false) := by
  induction gs generalizing d with
  | nil => simp
  | cons g gs ih =>
    obtain ⟨left, moved⟩ := ih (unseat atOnce d g)
    by_cases e : g = k
    · subst e
      have gone : (seat ((g :: gs).foldl (unseat atOnce) d) g).1 = false :=
        moved.elim (fun same => same ▸ unseat_seat_same atOnce d g) id
      exact ⟨fun _ => gone, .inr gone⟩
    · rw [unseat_seat_other atOnce d e] at moved
      exact ⟨fun hk => left ((List.mem_cons.mp hk).resolve_left (Ne.symm e)), moved⟩

theorem placedOf_emptyPlaced (atOnce : Bool) (r : Fin 64) (d : Device) : placedOf (emptyPlaced atOnce r d) r = [] := by
  rw [emptyPlaced_eq]
  exact placedOf_eq_nil (foldl_keeps Device.str (fun d g => (unseat_lists atOnce d g).1) _ d)
    (foldl_keeps Device.tbi (fun d g => (unseat_lists atOnce d g).2) _ d)
    (fun g => (unseat_foldl_seat ..).2) fun g hg => (unseat_foldl_seat ..).1 hg

theorem emptyPlaced_unflagged (atOnce : Bool) (r : Fin 64) (d : Device) : unflagged (emptyPlaced atOnce r d) = unflagged d :=
  foldl_keeps unflagged (unseat_unflagged atOnce) _ d

/-! ### A rail leaves its running state (Table 8-2, R170, R225) -/

/-- The window fills up from the queue: together they hold what they held. -/
theorem refillFrom_evals (k : Nat) (e : Engine) : (refillFrom k e).window ++ (refillFrom k e).queue = e.window ++ e.queue := by
  fun_induction refillFrom k e
  case case3 e q qs hq room ih => rw [ih]; simp [hq]
  all_goals rfl

theorem cancelRail_evals (r : Fin 64) (e : Engine) : ∀ x ∈ (cancelRail r e).window ++ (cancelRail r e).queue, x.rail ≠ r := by
  intro x hx
  rw [cancelRail, cancelEvals, refillWindow, refillFrom_evals] at hx
  simp only [List.mem_append, List.mem_filter, Bool.not_eq_true', decide_eq_false_iff_not] at hx
  exact hx.elim And.right And.right

section
variable {cause : RailCause} (hf : cause ≠ .pmFault) (hs : cause ≠ .pmSafe)
include hf hs

/-- Without a trip nothing that waits for the rail's next boundary is discarded (R24). -/
theorem leaveRunning_eq (tm : TimeBase) (r : Fin 64) (atOnce : Bool) (to' : RailState) (d : Device) :
    ∃ e, leaveRunning tm r atOnce to' cause d = ({ e with le := cancelRail r e.le }).onRail r (fun x => { x with
        stopping := false, meas := none, ready := none }) ∧ placedOf e r = [] ∧
      (e.rail r).unflagged = { (d.rail r).unflagged with
        state := to', cause := causeAfter (d.rail r) to' cause, since := tm.time.toNat, goodRun := 0
        stack := [], warming := [], unwinding := [], ended := [] } := by
  refine ⟨emptyPlaced atOnce r (discardRecords tm r (changeState tm r to' cause (endTuneOn tm r .state d))), ?_,
    placedOf_emptyPlaced .., ?_⟩
  · unfold leaveRunning
    cases cause with
    | pmFault => exact absurd rfl hf
    | pmSafe => exact absurd rfl hs
    | _ => rfl
  · have changed := changeState_unflagged tm r to' cause (endTuneOn tm r .state d)
    rw [rail_of_rails (endTuneOn_rails tm r (by decide) d) r] at changed
    rw [rail_unflagged (emptyPlaced_unflagged ..), discardRecords_rail]
    exact congrArg (fun x : Rail => { x with stack := [], warming := [], unwinding := [], ended := [] }) changed

/-- The rail that has left, its interrupt flags aside. -/
theorem leaveRunning_unflagged (tm : TimeBase) (r : Fin 64) (atOnce : Bool) (to' : RailState) (d : Device) :
    ((leaveRunning tm r atOnce to' cause d).rail r).unflagged = { (d.rail r).unflagged with
      state := to', cause := causeAfter (d.rail r) to' cause, since := tm.time.toNat, goodRun := 0
      stack := [], warming := [], unwinding := [], ended := [], stopping := false, meas := none, ready := none } := by
  obtain ⟨e, he, -, hr⟩ := leaveRunning_eq hf hs tm r atOnce to' d
  rw [he, Device.onRail_rail]
  exact congrArg (fun x : Rail => { x with stopping := false, meas := none, ready := none }) hr

theorem leaveRunning_evals (tm : TimeBase) (r : Fin 64) (atOnce : Bool) (to' : RailState) (d : Device) :
    ∀ x ∈ (leaveRunning tm r atOnce to' cause d).le.window ++ (leaveRunning tm r atOnce to' cause d).le.queue, x.rail ≠ r := by
  obtain ⟨e, he, -, -⟩ := leaveRunning_eq hf hs tm r atOnce to' d
  rw [he]
  exact cancelRail_evals r e.le

/-- FAULT by a timer or a report: the cause is kept, and no phase of the rail is placed any more. -/
theorem enterFault_leaves (tm : TimeBase) (r : Fin 64) (d : Device) :
    ((enterFault tm r cause d).rail r).state = .fault ∧ ((enterFault tm r cause d).rail r).cause = cause ∧
      placedOf (enterFault tm r cause d) r = [] := by
  obtain ⟨_, _, _, captured⟩ := captureTrigger_eq tm .railFault r.val (leaveRunning tm r true .fault cause d)
  obtain ⟨e, he, empty, -⟩ := leaveRunning_eq hf hs tm r true .fault d
  have left := leaveRunning_unflagged hf hs tm r true .fault d
  rw [enterFault, captured]
  exact ⟨congrArg Rail.state left, congrArg Rail.cause left, he ▸ empty⟩

end

end Sys2Proof.Machine
end

section
/-! SUPPORT. The commands of RAIL.CMD (R210, R211, R219, R220, R229, Table 8-2): what each does with a rail that it is taken for. -/

namespace Sys2Proof.Machine

/-! ### A command is taken (R229) -/

/-- The device as a command of RAIL.CMD finds it: its write has begun, and its position is kept. -/
def railTaken (src : Src) (r : Fin 64) (pos : Nat) (s : State) : Device :=
  (rowStarts src (railCmdAt r) s).dev.onRail r fun x => { x with cmdPos := BitVec.ofNat 7 pos }

@[simp] theorem railTaken_rail (src : Src) (r : Fin 64) (pos : Nat) (s : State) :
    (railTaken src r pos s).rail r = { s.dev.rail r with cmdPos := BitVec.ofNat 7 pos } := by
  simp [railTaken, Device.rail]
@[simp] theorem railTaken_may (src k : Src) (least : Level) (r : Fin 64) (pos : Nat) (s : State) :
    may (railTaken src r pos s) k least = may s.dev k least := rowStarts_may src k least (railCmdAt r) s
@[simp] theorem railTaken_sourceActive (src : Src) (r k : Fin 64) (pos : Nat) (s : State) :
    railSourceActive (railTaken src r pos s) k = railSourceActive s.dev k := by
  obtain ⟨_, _, _, _, h, -⟩ := rowStarts_sameButAccess src (railCmdAt r) s; rw [railTaken, h]; rfl
@[simp] theorem railTaken_phaseAt (src : Src) (r k : Fin 64) (pos i : Nat) (s : State) :
    phaseAt (railTaken src r pos s) k i = phaseAt s.dev k i := by
  obtain ⟨_, _, _, _, h, -⟩ := rowStarts_sameButAccess src (railCmdAt r) s; rw [railTaken, h]; rfl
@[simp] theorem railTaken_slot (src : Src) (r : Fin 64) (pos : Nat) (s : State) (g : Fin 512) :
    (railTaken src r pos s).slot g = s.dev.slot g := rowStarts_slot src (railCmdAt r) s g
@[simp] theorem railTaken_lane (src : Src) (r : Fin 64) (pos : Nat) (s : State) (n : Fin 64) :
    (railTaken src r pos s).lane n = s.dev.lane n := rowStarts_lane src (railCmdAt r) s n

@[simp] theorem rowEnds_le (src : Src) (a : Addr) (st : Byte) (d : Device) : (rowEnds src a st d).le = d.le := by
  obtain ⟨_, _, _, _, h, -⟩ := rowEnds_sameButAccess src a st d; rw [h]
@[simp] theorem rowEnds_rail (src : Src) (a : Addr) (st : Byte) (d : Device) (r : Fin 64) : (rowEnds src a st d).rail r = d.rail r :=
  rail_of_rails (rowEnds_rails ..) r
@[simp] theorem rowEnds_available (src : Src) (a : Addr) (st : Byte) (d : Device) (r : Fin 64) (g : Fin 512) :
    available (rowEnds src a st d) r g = available d r g := by
  obtain ⟨_, _, _, _, h, -⟩ := rowEnds_sameButAccess src a st d; rw [h]; rfl

section
variable {src : Src} {least : Level} {r : Fin 64} {s : State} (h : RailFree src least r s)
include h

/-- A command that is taken acts on the device in which its write has begun; the access shows its own condition. -/
theorem railRow_wrote (w : Word) (ok : Device → Bool) (pos : Nat) (f : TimeBase → Device → Device) :
    rowWrite src (railCmdAt r) w .core (actRail src ok least r pos f) s =
      Wrote src (railCmdAt r) (if ok (rowStarts src (railCmdAt r) s).dev then 0 else stDenied)
        (fun d => f s.tm (d.onRail r fun x => { x with cmdPos := BitVec.ofNat 7 pos })) s := by
  obtain ⟨level, reached, free⟩ := h
  have idle : ((rowStarts src (railCmdAt r) s).dev.rail r).cmdBusy = false :=
    (congrArg Rail.cmdBusy (rail_of_rails (rowStarts_rails ..) r)).trans free
  rw [rowWrite_of_reaches reached]
  simp [actRail, writeCommand, Wrote, railCommand, byLevelOr, level, idle, State.onDev]

/-- What a command that is taken leaves. -/
theorem railRow_eq (w : Word) (ok : Device → Bool) (pos : Nat) (f : TimeBase → Device → Device) :
    rowWrite src (railCmdAt r) w .core (actRail src ok least r pos f) s = { s with
      dev := rowEnds src (railCmdAt r) (if ok (rowStarts src (railCmdAt r) s).dev then 0 else stDenied)
        (f s.tm (railTaken src r pos s)) } :=
  (railRow_wrote h w ok pos f).trans (wrote_eq ..)

end

/-- The end of a command: RESULT, BUSY and INT_STATUS.CMD (Table 8-6). -/
@[simp] theorem endCmd_rail (r : Fin 64) (res : CmdResult) (d : Device) : (endCmd r res d).rail r =
    { d.rail r with cmdBusy := false, cmdResult := res.code, intStatus := setBit (d.rail r).intStatus 3 } := Device.onRail_rail ..

/-- A command that ends at once with a result leaves that alone. -/
theorem endCmd_onRail (r : Fin 64) (pos : Nat) (res : CmdResult) (d : Device) :
    endCmd r res (d.onRail r fun x => { x with cmdPos := BitVec.ofNat 7 pos }) = RailEnded r pos res d := onRail_onRail ..

/-! ### STOP and SOFTSTOP (R210) -/

theorem stopRail_of_runs {d : Device} {r : Fin 64} (h : (d.rail r).state.runs = true) (tm : TimeBase) :
    stopRail tm r d = endCmd r .ok (leaveRunning tm r true .armed .hostStop d) := if_pos h

theorem stopRail_stops {d : Device} {r : Fin 64} (h : (d.rail r).state.runs = true) (tm : TimeBase) :
    ((stopRail tm r d).rail r).state = .armed ∧ ((stopRail tm r d).rail r).cause = .hostStop ∧
      ((stopRail tm r d).rail r).cmdResult = CmdResult.ok.code ∧ ((stopRail tm r d).rail r).stack = [] := by
  have left := leaveRunning_unflagged (cause := .hostStop) (by decide) (by decide) tm r true .armed d
  rw [stopRail_of_runs h, endCmd_rail]
  exact ⟨congrArg Rail.state left, (congrArg Rail.cause left).trans (if_pos h), rfl, congrArg Rail.stack left⟩

theorem goalOf_of_stopping {d : Device} {r : Fin 64} (h : (d.rail r).stopping = true) : goalOf d r = 0 := if_pos h

/-- SOFTSTOP ramps down from REGULATE, and turns a RAMP around. -/
theorem softStop_ramps {d : Device} {r : Fin 64} (h : (d.rail r).state = .regulate ∨ (d.rail r).state = .ramp) (tm : TimeBase) :
    ((softStop tm r d).rail r).state = .ramp ∧ ((softStop tm r d).rail r).stopping = true ∧
      ((softStop tm r d).rail r).cmdResult = CmdResult.ok.code := by
  unfold softStop
  rcases h with h | h <;> rw [h] <;> dsimp only <;> rw [endCmd_rail]
  · have changed := changeState_unflagged tm r .ramp .none
      ((unwindRail tm r false (releaseAll r (endTuneOn tm r .state d))).onRail r fun x => { x with stopping := true })
    rw [Device.onRail_rail] at changed
    exact ⟨congrArg Rail.state changed, congrArg Rail.stopping changed, rfl⟩
  · have unwound := unwindRail_kept tm r false (d.onRail r fun x => { x with stopping := true })
    rw [Device.onRail_rail] at unwound
    exact ⟨(congrArg Rail.state unwound).trans h, congrArg Rail.stopping unwound, rfl⟩

/-! ### CLEAR (R211) -/

/-- The states that CLEAR leaves, from the level that each asks for (R229). -/
def Clears (d : Device) (src : Src) (r : Fin 64) : Prop :=
  (d.rail r).state = .fault ∨ (d.rail r).state = .safe ∧ may d src .engineer = true

theorem clearRail_of_source {d : Device} {src : Src} {r : Fin 64} (h : Clears d src r) (hs : railSourceActive d r = true)
    (tm : TimeBase) : clearRail tm src r d = endCmd r .source d := by
  rcases h with h | ⟨h, level⟩
  · simp [clearRail, h, hs]
  · simp [clearRail, h, level, hs]

theorem clearRail_clears {d : Device} {src : Src} {r : Fin 64} (h : Clears d src r) (hs : railSourceActive d r = false)
    (tm : TimeBase) : ((clearRail tm src r d).rail r).state = .armed ∧ ((clearRail tm src r d).rail r).retries = 0 ∧
      ((clearRail tm src r d).rail r).cmdResult = CmdResult.ok.code := by
  have cleared : clearRail tm src r d =
      endCmd r .ok (changeState tm r .armed .none (d.onRail r fun x => { x with retries := 0 })) := by
    rcases h with h | ⟨h, level⟩
    · simp [clearRail, h, hs]
    · simp [clearRail, h, level, hs]
  have changed := changeState_unflagged tm r .armed .none (d.onRail r fun x => { x with retries := 0 })
  rw [Device.onRail_rail] at changed
  rw [cleared, endCmd_rail]
  exact ⟨congrArg Rail.state changed, congrArg Rail.retries changed, rfl⟩

theorem clearRail_of_denied {d : Device} {src : Src} {r : Fin 64} (h : (d.rail r).state = .safe) (hm : may d src .engineer = false)
    (tm : TimeBase) : clearRail tm src r d = endCmd r .denied d := by
  simp [clearRail, h, hm]

section
variable {src : Src} {r : Fin 64} {s : State} (h : RailFree src .operate r s)
include h

theorem exec_stop : ∃ st, exec (.stop src r) s =
    .next { s with dev := rowEnds src (railCmdAt r) st (stopRail s.tm r (railTaken src r 0 s)) } :=
  ⟨_, congrArg Host.Outcome.next (railRow_eq h 4 (operate src) 0 fun tm => stopRail tm r)⟩

theorem exec_softstop : ∃ st, exec (.softstop src r) s =
    .next { s with dev := rowEnds src (railCmdAt r) st (softStop s.tm r (railTaken src r 0 s)) } :=
  ⟨_, congrArg Host.Outcome.next (railRow_eq h 5 (operate src) 0 fun tm => softStop tm r)⟩

theorem exec_clear : ∃ st, exec (.clear src r) s =
    .next { s with dev := rowEnds src (railCmdAt r) st (clearRail s.tm src r (railTaken src r 0 s)) } :=
  ⟨_, congrArg Host.Outcome.next (railRow_eq h 6 _ 0 fun tm => clearRail tm src r)⟩

/-- CLEAR that ends at once with a result; its access shows the level that the state asks for (Table 14-1). -/
theorem exec_clear_of_ended {res : CmdResult} (he : clearRail s.tm src r (railTaken src r 0 s) = endCmd r res (railTaken src r 0 s)) :
    exec (.clear src r) s = .next (Wrote src (railCmdAt r) (if may s.dev src (clearLevel r s.dev) then 0 else stDenied)
      (RailEnded r 0 res) s) := by
  have level : clearLevel r (rowStarts src (railCmdAt r) s).dev = clearLevel r s.dev := by
    unfold clearLevel; rw [rail_of_rails (rowStarts_rails ..)]
  have row := railRow_wrote h 6 (fun d => may d src (clearLevel r d)) 0 fun tm => clearRail tm src r
  rw [level, rowStarts_may] at row
  exact congrArg Host.Outcome.next (row.trans (wrote_congr (he.trans (endCmd_onRail ..)) _))

end

/-- Settles O23: each command by the state that it finds the rail in. -/
theorem railsStopAndClear : Obligations.RailsStopAndClear := by
  intro src r s h
  have softened (hs : (s.dev.rail r).state = .regulate ∨ (s.dev.rail r).state = .ramp) :
      ∃ d, exec (.softstop src r) s = .next { s with dev := d } ∧ (d.rail r).state = .ramp ∧ (d.rail r).stopping = true ∧
        (d.rail r).cmdResult = CmdResult.ok.code ∧ goalOf d r = 0 := by
    obtain ⟨st, he⟩ := exec_softstop h
    obtain ⟨state, stopping, result⟩ := softStop_ramps (d := railTaken src r 0 s) (r := r) (by simpa using hs) s.tm
    refine ⟨_, he, ?_, ?_, ?_, goalOf_of_stopping ?_⟩ <;> rw [rowEnds_rail] <;> assumption
  have cleared (hc : Clears s.dev src r) (hs : railSourceActive s.dev r = false) :
      ∃ d, exec (.clear src r) s = .next { s with dev := d } ∧ (d.rail r).state = .armed ∧ (d.rail r).retries = 0 ∧
        (d.rail r).cmdResult = CmdResult.ok.code := by
    obtain ⟨st, he⟩ := exec_clear h
    refine ⟨_, he, ?_⟩
    rw [rowEnds_rail]
    exact clearRail_clears (by simpa [Clears] using hc) (by simpa using hs) s.tm
  refine ⟨fun hr => ?_, fun hs => softened (.inl hs), fun hs => softened (.inr hs), fun hs => cleared (.inl hs),
    fun hs hm => ?_, fun hs hm hq => ?_, fun hs hq => ?_⟩
  · obtain ⟨st, he⟩ := exec_stop h
    have runs : ((railTaken src r 0 s).rail r).state.runs = true := by simpa using hr
    obtain ⟨state, cause, result, stack⟩ := stopRail_stops runs s.tm
    refine ⟨_, he, ?_⟩
    rw [rowEnds_rail, rowEnds_le]
    refine ⟨state, cause, result, stack, ?_⟩
    rw [stopRail_of_runs runs]
    exact leaveRunning_evals (cause := .hostStop) (by decide) (by decide) s.tm r true .armed (railTaken src r 0 s)
  · have denied := exec_clear_of_ended h (clearRail_of_denied (by simpa using hs) (by simpa using hm) s.tm)
    have level : may s.dev src (clearLevel r s.dev) = false := by simpa [clearLevel, hs] using hm
    rwa [level] at denied
  · obtain ⟨d, he, state, retries, -⟩ := cleared (.inr ⟨hs, hm⟩) hq
    exact ⟨d, he, state, retries⟩
  · have ended := exec_clear_of_ended h (clearRail_of_source (.inl (by simpa using hs)) (by simpa using hq) s.tm)
    have level : may s.dev src (clearLevel r s.dev) = true := by simpa [clearLevel, hs] using h.1
    rwa [level] at ended

end Sys2Proof.Machine
end

section
/-! SUPPORT. RETIRE and RESTORE (R219, R220): what each does with the phase at its position. -/

namespace Sys2Proof.Machine

/-! ### What the commands do -/

theorem available_of_retiring {d : Device} {r : Fin 64} {t : Retiring} (h : t ∈ (d.rail r).retiring) :
    available d r t.phase = false := by
  have busy : ((d.rail r).retiring.any fun x => decide (x.phase = t.phase)) = true :=
    List.any_eq_true.mpr ⟨t, h, decide_eq_true rfl⟩
  simp [available, busy]

theorem retirePhase_of_none {d : Device} {r : Fin 64} {pos : Fin 128} (h : phaseAt d r pos.val = none) (tm : TimeBase) :
    retirePhase tm r pos d = endCmd r .position d := by
  simp [retirePhase, h]

/-- A phase that retires: the command is in progress, and its addition records have left (R224). -/
theorem retirePhase_kept {d : Device} {r : Fin 64} {pos : Fin 128} {g : Fin 512} (h : phaseAt d r pos.val = some g) (tm : TimeBase) :
    ((retirePhase tm r pos d).rail r).kept =
      { (d.rail r).kept with cmdBusy := true, retiring := (d.rail r).retiring ++ [⟨g, pos, false⟩] } := by
  have dropped := dropRecords_kept tm r (fun y => decide (y.phase = g)) (d.onRail r fun x => { x with
    cmdBusy := true
    retiring := x.retiring ++ [⟨g, pos, false⟩]
    unwinding := x.unwinding.filter fun y => decide (y.phase ≠ g) })
  rw [Device.onRail_rail] at dropped
  simp only [retirePhase, h]
  split
  · exact (onRail_kept r _).trans dropped
  · exact dropped

/-- From then on the command is in progress, and the phase is unavailable (R203). -/
theorem retirePhase_retires {d : Device} {r : Fin 64} {pos : Fin 128} {g : Fin 512} (h : phaseAt d r pos.val = some g)
    (tm : TimeBase) : ((retirePhase tm r pos d).rail r).cmdBusy = true ∧
      ((retirePhase tm r pos d).rail r).cmdPos = (d.rail r).cmdPos ∧ available (retirePhase tm r pos d) r g = false ∧
      ((retirePhase tm r pos d).rail r).retiring = (d.rail r).retiring ++ [⟨g, pos, false⟩] := by
  have kept := retirePhase_kept h tm
  have retiring : ((retirePhase tm r pos d).rail r).retiring = (d.rail r).retiring ++ [⟨g, pos, false⟩] :=
    congrArg Rail.retiring kept
  exact ⟨congrArg Rail.cmdBusy kept, (congrArg Rail.cmdPos kept :), available_of_retiring (t := ⟨g, pos, false⟩) (by simp [retiring]),
    retiring⟩

/-- The record of a RETIRE or RESTORE changes the recorder alone. -/
theorem raiseRetire_eq (tm : TimeBase) (r : Fin 64) (pos op : Nat) (res : CmdResult) (g : Nat) (d : Device) :
    raiseRetire tm r pos op res g d = { d with
      er := raiseIn tm 0x41 ([byte r.val, byte pos, byte op, res.code] ++ leBytes 2 g) d.er } := rfl

theorem raiseRetire_slot (tm : TimeBase) (r : Fin 64) (pos op : Nat) (res : CmdResult) (g : Nat) (d : Device) (k : Fin 512) :
    (raiseRetire tm r pos op res g d).slot k = d.slot k := rfl
theorem raiseRetire_rail (tm : TimeBase) (r k : Fin 64) (pos op : Nat) (res : CmdResult) (g : Nat) (d : Device) :
    (raiseRetire tm r pos op res g d).rail k = d.rail k := rfl
theorem endCmd_slot (r : Fin 64) (res : CmdResult) (d : Device) (g : Fin 512) : (endCmd r res d).slot g = d.slot g := rfl

theorem restorePhase_of_none {d : Device} {r : Fin 64} {pos : Fin 128} (h : phaseAt d r pos.val = none) (tm : TimeBase) :
    restorePhase tm r pos d = raiseRetire tm r pos.val 8 .position 0 (endCmd r .position d) := by
  simp [restorePhase, h]

section
variable {d : Device} {r : Fin 64} {pos : Fin 128} {g : Fin 512} (h : phaseAt d r pos.val = some g)
include h

/-- A RETIRED phase that is fitted on an UP lane and in no retirement is ADMITTED again, from the next boundary on. -/
theorem restorePhase_of_retired (hs : (d.slot g).state = .retired) (hfit : (d.lane (laneOf g)).fitted.getLsbD (slotOf g).val = true)
    (hup : (d.lane (laneOf g)).state = .up) (hr : (d.rail r).retiring = []) (tm : TimeBase) :
    restorePhase tm r pos d = raiseRetire tm r pos.val 8 .ok g.val (endCmd r .ok
      (setSlot g .admitted .none (d.onSlot g fun s => { s with fresh := true, heldBack := false }))) := by
  simp [restorePhase, h, hs, hfit, hup, hr]

theorem restorePhase_admits (hs : (d.slot g).state = .retired) (hfit : (d.lane (laneOf g)).fitted.getLsbD (slotOf g).val = true)
    (hup : (d.lane (laneOf g)).state = .up) (hr : (d.rail r).retiring = []) (tm : TimeBase) :
    ((restorePhase tm r pos d).slot g).state = .admitted ∧ ((restorePhase tm r pos d).slot g).heldBack = false ∧
      ((restorePhase tm r pos d).rail r).cmdResult = CmdResult.ok.code ∧ ((restorePhase tm r pos d).rail r).cmdBusy = false := by
  rw [restorePhase_of_retired h hs hfit hup hr, raiseRetire_slot, raiseRetire_rail, endCmd_rail, endCmd_slot, setSlot_slot,
    Device.onSlot_slot]
  exact ⟨rfl, rfl, rfl, rfl⟩

/-- A phase that is neither RETIRED nor held back has nothing to be restored from. -/
theorem restorePhase_of_other (hs : (d.slot g).state ≠ .retired) (hb : (d.slot g).heldBack = false) (tm : TimeBase) :
    restorePhase tm r pos d = raiseRetire tm r pos.val 8 .position g.val (endCmd r .position d) := by
  simp [restorePhase, h, hs, hb]

end

/-! ### The rows -/

section
variable {src : Src} {r : Fin 64} {s : State} (h : RailFree src .engineer r s)
include h

/-- A command that needs ENGINEER and is taken shows no refusal. -/
theorem engineerRail_wrote (w : Word) (pos : Nat) (f : TimeBase → Device → Device) :
    rowWrite src (railCmdAt r) w .core (actRail src (engineer src) .engineer r pos f) s =
      Wrote src (railCmdAt r) 0 (fun d => f s.tm (d.onRail r fun x => { x with cmdPos := BitVec.ofNat 7 pos })) s := by
  have level : engineer src (rowStarts src (railCmdAt r) s).dev = true := (rowStarts_may ..).trans h.1
  rw [railRow_wrote h, if_pos level]

variable (pos : Fin 128)

theorem exec_retire : exec (.retire src r pos) s =
    .next { s with dev := rowEnds src (railCmdAt r) 0 (retirePhase s.tm r pos (railTaken src r pos.val s)) } :=
  congrArg Host.Outcome.next ((engineerRail_wrote h _ pos.val fun tm => retirePhase tm r pos).trans (wrote_eq ..))

theorem exec_restore : exec (.restore src r pos) s =
    .next { s with dev := rowEnds src (railCmdAt r) 0 (restorePhase s.tm r pos (railTaken src r pos.val s)) } :=
  congrArg Host.Outcome.next ((engineerRail_wrote h _ pos.val fun tm => restorePhase tm r pos).trans (wrote_eq ..))

theorem exec_retire_of_none (hp : phaseAt s.dev r pos.val = none) :
    exec (.retire src r pos) s = .next (Wrote src (railCmdAt r) 0 (RailEnded r pos.val .position) s) := by
  have ended := retirePhase_of_none (d := railTaken src r pos.val s) (r := r) (pos := pos) (by simpa using hp) s.tm
  exact congrArg Host.Outcome.next ((engineerRail_wrote h _ pos.val fun tm => retirePhase tm r pos).trans
    (wrote_congr (ended.trans (endCmd_onRail ..)) 0))

/-- RESTORE that ends at once leaves its result, and its record. -/
theorem exec_restore_of_ended {g : Nat} (he : restorePhase s.tm r pos (railTaken src r pos.val s) =
      raiseRetire s.tm r pos.val 8 .position g (endCmd r .position (railTaken src r pos.val s))) :
    ∃ er, exec (.restore src r pos) s = .next (Wrote src (railCmdAt r) 0 (fun d =>
      { RailEnded r pos.val .position d with er := er }) s) := by
  rw [raiseRetire_eq, railTaken, endCmd_onRail] at he
  exact ⟨_, congrArg Host.Outcome.next ((engineerRail_wrote h _ pos.val fun tm => restorePhase tm r pos).trans (wrote_congr he 0))⟩

end

/-- Settles O24: RETIRE and RESTORE by the phase at their position, and RESTORE by the state of its slot. -/
theorem phasesRetire : Obligations.PhasesRetire := by
  intro src r pos s h
  refine ⟨fun hp => ⟨exec_retire_of_none h pos hp, ?_⟩, fun g hp => ?_, fun g hp hs hfit hup hr => ?_, fun g hp hs hb => ?_⟩
  · exact exec_restore_of_ended h pos (restorePhase_of_none ((railTaken_phaseAt ..).trans hp) s.tm)
  · have retires := retirePhase_retires ((railTaken_phaseAt src r r pos.val pos.val s).trans hp) s.tm
    rw [railTaken_rail] at retires
    refine ⟨_, exec_retire h pos, ?_⟩
    rw [rowEnds_rail, rowEnds_available]
    exact retires
  · refine ⟨_, exec_restore h pos, ?_⟩
    rw [rowEnds_rail, rowEnds_slot]
    exact restorePhase_admits ((railTaken_phaseAt ..).trans hp) (by simpa using hs) (by simpa using hfit) (by simpa using hup)
      (by simpa using hr) s.tm
  · exact exec_restore_of_ended h pos (restorePhase_of_other ((railTaken_phaseAt ..).trans hp) (by simpa using hs) (by simpa using hb) s.tm)

end Sys2Proof.Machine
end

section
/-! SUPPORT. The timers of a rail (R206, R211), its tripped phases (R221), its voltage requests (R215), and the warm start of a
Kindling entry (R222 to R224). -/

namespace Sys2Proof.Machine

/-! ### What a change of STATE leaves of a START's conditions (R203, R207, R288) -/

theorem zip_map_zip {α β : Type} (f : α × β → β) (as : List α) (bs : List β) :
    as.zip ((as.zip bs).map f) = (as.zip bs).map fun x => (x.1, f x) := by
  induction as generalizing bs with
  | nil => rfl
  | cons a as ih => cases bs <;> simp [ih]

/-- The sources that act on a rail, by the sources' states (R288). -/
theorem railSourceActive_eq_false {d : Device} {r : Fin 64} : railSourceActive d r = false ↔ d.hkt.tsd = false ∧
    ∀ x ∈ d.pm.entries.zip d.pm.st, x.2.active = true → entryRail d x.1 ≠ some r ∧ x.1.action ≠ 4 := by
  simp only [railSourceActive, Bool.or_eq_false_iff, List.any_eq_false, Bool.and_eq_true, Bool.or_eq_true, decide_eq_true_eq, not_and,
    not_or]

/-- Sources that clear make no rail's source active. -/
theorem clearSources_inactive {d : Device} {r : Fin 64} (h : railSourceActive d r = false) (pick : ProtEntry → Bool) :
    railSourceActive (clearSources pick d) r = false := by
  obtain ⟨cool, quiet⟩ := railSourceActive_eq_false.mp h
  refine railSourceActive_eq_false.mpr ⟨cool, fun y hy active => ?_⟩
  rw [clearSources, Protect.withSt, zip_map_zip] at hy
  obtain ⟨x, hx, rfl⟩ := List.mem_map.mp hy
  refine quiet x hx ?_
  by_cases hp : pick x.1 = true
  · simp [hp] at active
  · simpa [hp] using active

theorem railSourceActive_congr {d t : Device} (hpm : d.pm = t.pm) (hkt : d.hkt = t.hkt) (hs : d.slots = t.slots) (r : Fin 64) :
    railSourceActive d r = railSourceActive t r := by
  unfold railSourceActive entryRail Device.slot
  rw [hpm, hkt, hs]

/-- A change of STATE makes no rail's source active (R212, R288). -/
theorem changeState_inactive {d : Device} {k : Fin 64} (h : railSourceActive d k = false) (tm : TimeBase) (r : Fin 64)
    (to' : RailState) (cause : RailCause) : railSourceActive (changeState tm r to' cause d) k = false := by
  obtain ⟨_, _, _, _, _, he⟩ := changeState_eq tm r to' cause d
  have hkt : (changeState tm r to' cause d).hkt = d.hkt := by rw [he]
  have slots : (changeState tm r to' cause d).slots = d.slots := by rw [he]
  rcases changeState_pm tm r to' cause d with pm | ⟨pick, pm⟩
  · exact (railSourceActive_congr pm hkt slots k).trans h
  · exact (railSourceActive_congr (t := clearSources pick d) pm hkt slots k).trans (clearSources_inactive h pick)

theorem availablePhases_congr {d t : Device} {r : Fin 64} (hstr : d.str = t.str) (hs : d.slots = t.slots) (hc : d.clk = t.clk)
    (hp : d.pwr = t.pwr) (hr : (d.rail r).retiring = (t.rail r).retiring) (ht : (d.rail r).tripped = (t.rail r).tripped) :
    availablePhases d r = availablePhases t r := by
  unfold availablePhases railPhases available quadLeaving Device.slot Device.sect
  rw [hstr, hs, hc, hp, hr, ht]

theorem changeState_availablePhases (tm : TimeBase) (r : Fin 64) (to' : RailState) (cause : RailCause) (d : Device) :
    availablePhases (changeState tm r to' cause d) r = availablePhases d r := by
  have changed := changeState_unflagged tm r to' cause d
  obtain ⟨_, _, _, _, _, h⟩ := changeState_eq tm r to' cause d
  exact availablePhases_congr (by rw [h]) (by rw [h]) (by rw [h]) (by rw [h]) (congrArg Rail.retiring changed :)
    (congrArg Rail.tripped changed :)

/-! ### The retry timer (R207, R211) -/

/-- What a START of an ARMED rail asks for (R207). -/
def Startable (d : Device) (r : Fin 64) : Prop :=
  lifecycleRuns d = true ∧ railSourceActive d r = false ∧ (d.sect r).isSome = true ∧
    minPhases d r ≤ (availablePhases d r).length

/-- A START that is not refused begins the start measurement. -/
theorem startRail_of_startable {d : Device} {r : Fin 64} (h : Startable d r) (tm : TimeBase) : (startRail tm r d).2 = .ok ∧
    (startRail tm r d).1.rail r = { d.rail r with meas := some ⟨tm.time.toNat, availablePhases d r, []⟩, ready := none } := by
  obtain ⟨life, quiet, sect, enough⟩ := h
  have started : startRail tm r d = (((availablePhases d r).foldl (fun d g => sendBias tm g d) d).onRail r fun x => { x with
      meas := some ⟨tm.time.toNat, availablePhases d r, []⟩, ready := none }, .ok) := by
    simp [startRail, life, quiet, Option.isNone_iff_eq_none, Option.isSome_iff_ne_none.mp sect, Nat.not_lt.mpr enough]
  rw [started]
  refine ⟨rfl, (Device.onRail_rail ..).trans ?_⟩
  rw [rail_of_rails (sendBias_foldl_rails ..)]

/-- The rail in ARMED again, with one retry more. -/
def retried (tm : TimeBase) (r : Fin 64) (d : Device) : Device :=
  changeState tm r .armed .none (d.onRail r fun x => { x with retries := x.retries + 1 })

theorem retried_unflagged (tm : TimeBase) (r : Fin 64) (d : Device) : ((retried tm r d).rail r).unflagged = { (d.rail r).unflagged with
    state := .armed, cause := causeAfter (d.rail r) .armed .none, since := tm.time.toNat, goodRun := 0
    retries := (d.rail r).retries + 1 } := by
  have changed := changeState_unflagged tm r .armed .none (d.onRail r fun x => { x with retries := x.retries + 1 })
  rw [Device.onRail_rail] at changed
  exact changed

/-- A rail that can be started still can once the retry is counted. -/
theorem Startable.of_retried {d : Device} {r : Fin 64} (h : Startable d r) (tm : TimeBase) : Startable (retried tm r d) r := by
  obtain ⟨life, quiet, sect, enough⟩ := h
  have phases : availablePhases (retried tm r d) r = availablePhases d r :=
    (changeState_availablePhases ..).trans (availablePhases_congr rfl rfl rfl rfl (by simp) (by simp))
  obtain ⟨_, _, _, _, _, he⟩ := changeState_eq tm r .armed .none (d.onRail r fun x => { x with retries := x.retries + 1 })
  refine ⟨?_, changeState_inactive (by exact quiet) tm r .armed .none, ?_, ?_⟩
  · rw [retried, he]; exact life
  · rw [retried, he]; exact sect
  · rw [phases, retried, he]; exact enough

/-- The retry timer's START, where nothing refuses it (R211). -/
theorem retryRail_starts {d : Device} {r : Fin 64} (h : Startable d r) (hf : (d.rail r).state = .fault) {tm : TimeBase}
    (hdue : msTicks (d.rail r).cfg.retryDelay.toNat ≤ tm.time.toNat - (d.rail r).since)
    (hleft : (d.rail r).retries.toNat < (d.rail r).cfg.retryMax.toNat) (hready : d.sys.step = .ready) :
    ((retryRail tm r d).rail r).state = .armed ∧ ((retryRail tm r d).rail r).cmdBusy = true ∧
      ((retryRail tm r d).rail r).retries = (d.rail r).retries + 1 := by
  have armed := retried_unflagged tm r d
  obtain ⟨ok, started⟩ := startRail_of_startable (h.of_retried tm) tm
  obtain ⟨-, quiet, -⟩ := h
  have due : retryRail tm r d = (startRail tm r (retried tm r d)).1.onRail r fun x => { x with cmdBusy := true } := by
    unfold retryRail
    rw [if_pos ⟨hf, hdue, hleft, quiet, decide_eq_true hready⟩]
    dsimp only
    rw [← retried, ok]
  rw [due, Device.onRail_rail, started]
  exact ⟨congrArg Rail.state armed, rfl, congrArg Rail.retries armed⟩

/-! ### RAMP_MAX, HOLD_MAX and the 10 s of REGULATE (R206) -/

theorem rampExpires_of_due {d : Device} {r : Fin 64} (hs : (d.rail r).state = .ramp) (hn : (d.rail r).stopping = false)
    {tm : TimeBase} (hdue : msTicks (max 1 (d.rail r).cfg.rampMax.toNat) ≤ tm.time.toNat - (d.rail r).rampSince) :
    rampExpires tm r d = enterFault tm r .rampTimeout d := by
  simp [rampExpires, hs, hn, hdue]

theorem holdExpires_of_due {d : Device} {r : Fin 64} (hs : (d.rail r).state = .hold) {tm : TimeBase}
    (hdue : msTicks (10 * max 1 (d.rail r).cfg.holdMax.toNat) ≤ tm.time.toNat - (d.rail r).since) :
    holdExpires tm r d = enterFault tm r .holdTimeout d := if_pos ⟨hs, hdue⟩

theorem resetRetries_of_due {d : Device} {r : Fin 64} (hs : (d.rail r).state = .regulate) {tm : TimeBase}
    (hdue : msTicks 10000 ≤ tm.time.toNat - (d.rail r).since) :
    resetRetries tm r d = d.onRail r fun x => { x with retries := 0 } := if_pos ⟨hs, hdue⟩

/-! ### Tripped phases (R221) -/

/-- A write of ones to RAIL.TRIPPED leaves the phases at no position written. -/
theorem clearTripped_eq (r : Fin 64) (i : Fin 4) (data : Word) (d : Device) : ∃ keep : List (Fin 512),
    clearTripped r i data d = d.onRail r (fun x => { x with tripped := keep }) ∧
    ∀ g, g ∈ keep ↔ g ∈ (d.rail r).tripped ∧
      ¬ ∃ j, j < 32 ∧ data.getLsbD j = true ∧ (railPhases d r)[32 * i.val + j]? = some g := by
  refine ⟨_, rfl, fun g => ?_⟩
  simp only [List.mem_filter, Bool.not_eq_true', List.contains_eq_mem, decide_eq_false_iff_not, List.mem_filterMap, List.mem_range,
    Option.ite_none_right_eq_some]
  rfl

/-! ### The warm start of an entry (R222 to R224) -/

theorem mem_unplaced_of_candidate {d : Device} {r : Fin 64} {k : Nat} {g : Fin 512}
    (h : g ∈ ((unplacedPhases d r).filter fun g => !isAddition d r g).take k) :
    g ∈ unplacedPhases d r ∧ isAddition d r g = false := by
  simpa using List.mem_filter.mp (List.mem_of_mem_take h)

/-- The records of an entry's new additions, newest first. -/
def newRecords (r : Fin 64) (e : Fin 128) (k : Nat) (d : Device) : List AddRecord :=
  ((makeRecords r e k d).2.map fun g => (⟨e, g, .chosen⟩ : AddRecord)).reverse

theorem length_newRecords (r : Fin 64) (e : Fin 128) (k : Nat) (d : Device) : (newRecords r e k d).length =
    min (min k (16 - (d.rail r).stack.length)) ((unplacedPhases d r).filter fun g => !isAddition d r g).length := by
  simp [newRecords, makeRecords]

/-- The phases chosen are available, unplaced, and no additions yet (R223). -/
theorem newRecords_chosen {r : Fin 64} {e : Fin 128} {k : Nat} {d : Device} {y : AddRecord} (h : y ∈ newRecords r e k d) :
    y.entry = e ∧ y.step = .chosen ∧ y.phase ∈ unplacedPhases d r ∧ isAddition d r y.phase = false := by
  obtain ⟨g, hg, rfl⟩ := List.mem_map.mp (List.mem_reverse.mp h)
  exact ⟨rfl, rfl, mem_unplaced_of_candidate hg⟩

theorem makeRecords_stack (r : Fin 64) (e : Fin 128) (k : Nat) (d : Device) :
    ((makeRecords r e k d).1.rail r).stack = newRecords r e k d ++ (d.rail r).stack := congrArg Rail.stack (Device.onRail_rail ..)

/-- A warm start puts its new records in front of the rail's. -/
theorem warmPhases_stack (tm : TimeBase) (r : Fin 64) (e : Fin 128) (s k : Nat) (d : Device) :
    ((warmPhases tm r e s k d).rail r).stack = newRecords r e k d ++ (d.rail r).stack := by
  unfold warmPhases
  dsimp only
  split
  case isTrue none => simp [newRecords, List.isEmpty_iff.mp none]
  case isFalse => exact (congrArg Rail.stack (Device.onRail_rail ..)).trans (makeRecords_stack ..)

theorem warmPhases_hs (tm : TimeBase) (r : Fin 64) (e : Fin 128) (s k : Nat) (d : Device) :
    (warmPhases tm r e s k d).hs = d.hs := by
  unfold warmPhases
  dsimp only
  split <;> rfl

/-- The entry's warm start has come (R223). -/
def markWarmed (e : Fin 128) (d : Device) : Device :=
  { d with hs := { d.hs with ledger := bankUpd d.hs.ledger e fun x => { x with warmed := true } } }

theorem warmStart_of_not_granted {d : Device} {e : Fin 128} (h : (bankGet d.hs.ledger e).state ≠ .granted) (tm : TimeBase) :
    warmStart tm e d = d := by
  unfold warmStart
  dsimp only
  split
  · exact if_pos h
  · rfl

theorem warmStartDue_of_over {d : Device} {e : Fin 128}
    (h : (bankGet d.hs.ledger e).warmed = true ∨ (bankGet d.hs.ledger e).state ≠ .granted) (tm : TimeBase) :
    warmStartDue tm e d = d := by
  unfold warmStartDue
  dsimp only
  split
  · rcases h with warmed | state
    · rw [warmed]; rfl
    · rw [warmStart_of_not_granted state, ite_self]
  · rfl

section
variable {d : Device} {e : Fin 128} {r : Fin 64} {start : Nat} (hr : (bankGet d.hs.ledger e).rail = some r)
  (hst : (bankGet d.hs.ledger e).start = some start) (hg : (bankGet d.hs.ledger e).state = .granted)
include hr hst hg

/-- The warm start of a GRANTED entry is made once; records come with it where R222's conditions held and hold. -/
theorem warmStart_of_granted (tm : TimeBase) : warmStart tm e d =
    if !(bankGet d.hs.ledger e).kindle || !kindlingOn d r then markWarmed e d
    else warmPhases tm r e start (phasesNeeded d r (bankGet d.hs.ledger e)) (markWarmed e d) := by
  unfold warmStart
  dsimp only
  split
  case h_1 r' start' hr' hst' =>
    obtain rfl := Option.some.inj (hr.symm.trans hr')
    obtain rfl := Option.some.inj (hst.symm.trans hst')
    exact if_neg (not_not.mpr hg)
  case h_2 other => exact absurd hst (other r start hr)

theorem warmStartDue_of_due {b : RailSect} (hb : d.sect r = some b) (hw : (bankGet d.hs.ledger e).warmed = false) {tm : TimeBase}
    (hdue : notEarlierUs (word tm.us.toNat) (word (start * 1000) - word (b.lead * 1000)) = true) : warmStartDue tm e d =
    if !(bankGet d.hs.ledger e).kindle || !kindlingOn d r then markWarmed e d
    else warmPhases tm r e start (phasesNeeded d r (bankGet d.hs.ledger e)) (markWarmed e d) := by
  rw [← warmStart_of_granted hr hst hg]
  simp [warmStartDue, hr, hst, hb, hw, hdue]

end

/-! ### The rows -/

/-- A write of RAIL.TRIPPED that reaches its register. -/
theorem exec_trippedClear {src : Src} {s : State} (hr : Reaches src .core s) (hm : may s.dev src .engineer = true) (r : Fin 64)
    (i : Fin 4) (data : Word) : exec (.trippedClear src r i data) s =
      .next (Wrote src (wordAt 0x4000 32 r.val (25 + i.val)) 0 (clearTripped r i data) s) :=
  congrArg Host.Outcome.next (rowWrite_of_engineer hr hm _ _ fun _ _ => clearTripped r i data)

/-- Settles O26: each timer where its time has come, and the warm start by whether it was made and by its conditions. -/
theorem railTimers : Obligations.RailTimers := by
  refine ⟨fun r s => ⟨fun hs hn hdue => ?_, fun hs hdue => ?_, fun hs hdue => ?_, fun hf hdue hleft hq hready hlife hsect henough => ?_⟩,
    fun src r i data s hm hr => ?_, fun r h s => rfl, fun e s h => ?_, fun e r start b x s hx hr hst hb hw hg hdue => ?_⟩
  · exact ⟨_, next_of_dev (rampExpires_of_due hs hn hdue), enterFault_leaves (by decide) (by decide) ..⟩
  · exact ⟨_, next_of_dev (holdExpires_of_due hs hdue), enterFault_leaves (by decide) (by decide) ..⟩
  · exact next_of_dev (resetRetries_of_due hs hdue)
  · exact ⟨_, rfl, retryRail_starts ⟨hlife, hq, hsect, henough⟩ hf hdue hleft hready⟩
  · obtain ⟨keep, cleared, kept⟩ := clearTripped_eq r i data (rowStarts src (wordAt 0x4000 32 r.val (25 + i.val)) s).dev
    rw [rail_of_rails (rowStarts_rails ..)] at kept
    simp only [railPhases, Device.sect, rowStarts_str] at kept
    exact ⟨keep, (exec_trippedClear hr hm r i data).trans (congrArg Host.Outcome.next (wrote_congr cleared 0)), kept⟩
  · exact next_of_dev (warmStartDue_of_over h s.tm)
  · subst hx
    refine ⟨_, next_of_dev (warmStartDue_of_due hr hst hg hb hw hdue), ?_⟩
    split
    case isTrue off =>
      refine ⟨rfl, fun _ => rfl, fun kindle on => ?_⟩
      simp [kindle, on] at off
    case isFalse on =>
      refine ⟨congrArg Hearth.ledger (warmPhases_hs ..), fun off => ?_, fun _ _ => ⟨_, warmPhases_stack .., ?_, ?_⟩⟩
      · rcases off with off | off <;> simp [off] at on
      · exact fun y hy => newRecords_chosen hy
      · exact length_newRecords ..

end Sys2Proof.Machine
end

section
/-! SUPPORT. The ledger's operations (R238, Table 9-4): what each does to the scheduler, and that the frames, records and Kindling's
undoings which go with it leave the scheduler alone. -/

namespace Sys2Proof.Machine

/-! ### What the frames to a partner change (R271, R276) -/

theorem sendTo_eq (tm : TimeBase) (h : Fin 256) (id : BitVec 29) (payload : List Byte) (start : Option Word) (d : Device) :
    ∃ pp, sendTo tm h id payload start d = { d with pp := pp } := by
  unfold sendTo
  dsimp only
  split_ifs <;> exact ⟨_, rfl⟩

theorem sendKind_eq (tm : TimeBase) (k : FrameKind) (h : Fin 256) (payload : List Byte) (start : Option Word) (d : Device) :
    ∃ pp, sendKind tm k h payload start d = { d with pp := pp } := sendTo_eq ..

theorem tellEntry_eq (tm : TimeBase) (k : FrameKind) (h : Fin 256) (tag entry : Nat) (payload : List Byte) (start : Option Word)
    (d : Device) : ∃ pp, tellEntry tm k h tag entry payload start d = { d with pp := pp } :=
  sendTo_eq tm h _ payload start (noteFrame h (byte tag) (byte entry) _ payload d)

@[simp] theorem tellEntry_hs (tm : TimeBase) (k : FrameKind) (h : Fin 256) (tag entry : Nat) (payload : List Byte)
    (start : Option Word) (d : Device) : (tellEntry tm k h tag entry payload start d).hs = d.hs := by
  obtain ⟨_, eq⟩ := tellEntry_eq tm k h tag entry payload start d; rw [eq]

/-! ### What the records of an entry change (R226, R227, R254) -/

@[simp] theorem raiseLedger_hs (tm : TimeBase) (event : Nat) (e : Fin 128) (d : Device) : (raiseLedger tm event e d).hs = d.hs := rfl

@[simp] theorem unwindWhere_hs (tm : TimeBase) (r : Fin 64) (bySection : Bool) (pick : AddRecord → Bool) (d : Device) :
    (unwindWhere tm r bySection pick d).hs = d.hs := by
  unfold unwindWhere raiseUnwinds
  refine (foldl_keeps Device.hs (fun d e => ?_) _ _).trans ?_
  · unfold raiseUnwind
    split <;> rfl
  · unfold countUnwound
    split <;> rfl

@[simp] theorem unwindEntry_hs (tm : TimeBase) (e : Fin 128) (d : Device) : (unwindEntry tm e d).hs = d.hs := by
  unfold unwindEntry
  split
  · rfl
  · exact unwindWhere_hs ..

@[simp] theorem rewarm_hs (tm : TimeBase) (e : Fin 128) (d : Device) : (rewarm tm e d).hs = d.hs := by
  unfold rewarm
  dsimp only
  split
  · split_ifs
    · rfl
    · exact unwindWhere_hs ..
    · exact warmPhases_hs ..
    · rfl
  · rfl

/-! ### One operation on the ledger (R238) -/

/-- An entry takes a new value and the operation's number. -/
def Entry.op (f : Entry → Entry) (n : Word) (x : Entry) : Entry := { f x with opSeq := n }

/-- The scheduler after an operation on an entry. -/
def Hearth.opOn (e : Fin 128) (f : Entry → Entry) (x : Hearth) : Hearth :=
  { x with opSeq := x.opSeq + 1, ledger := bankUpd x.ledger e (Entry.op f (x.opSeq + 1)) }

theorem led_of_upd {d t : Device} {e : Fin 128} {f : Entry → Entry} (h : t.hs.ledger = bankUpd d.hs.ledger e f) :
    t.led e = f (d.led e) := by
  simp [Device.led, h]

theorem led_of_upd_other {d t : Device} {e k : Fin 128} {f : Entry → Entry} (h : t.hs.ledger = bankUpd d.hs.ledger e f)
    (hk : k ≠ e) : t.led k = d.led k := by
  simp only [Device.led, h]
  exact bankGet_bankUpd_other _ _ hk.symm

/-! ### The operations of Table 9-4 -/

/-- Charges of unbegun bins are taken back. -/
def Hearth.withdrawn (tm : TimeBase) (e : Fin 128) (x : Hearth) : Hearth :=
  { x with charges := uncharge e (tickNow tm + 1) x.charges }

/-- An entry that ends, with its reason and tick. -/
def Entry.over (state : LedState) (why : LedReason) (tick : Nat) (x : Entry) : Entry :=
  { x with state := state, reason := why, endedAt := tick }

/-- A squash is counted, with its interrupt bit. -/
def Hearth.squashCounted (x : Hearth) : Hearth := { x with squashes := x.squashes + 1, intStatus := setBit x.intStatus 2 }

theorem squashEntry_hs (tm : TimeBase) (e : Fin 128) (why : LedReason) (hint : Nat) (d : Device) : (squashEntry tm e why hint d).hs =
    ((d.hs.withdrawn tm e).opOn e (Entry.over .squashed why (tickNow tm))).squashCounted := by
  unfold squashEntry
  extract_lets x withdrawn closed hs counted unwound refuse
  have ended : closed.hs = (d.hs.withdrawn tm e).opOn e (Entry.over .squashed why (tickNow tm)) := rfl
  rw [← ended]
  clear_value closed
  have told : unwound.hs = closed.hs.squashCounted := unwindEntry_hs tm e counted
  have refused (r : FrameReason) : (refuse r unwound).hs = unwound.hs := tellEntry_hs ..
  rw [← told]
  split
  case h_1 | h_2 | h_3 => exact refused _
  case h_4 => rfl

theorem finishEntry_hs (tm : TimeBase) (e : Fin 128) (why : LedReason) (d : Device) :
    (finishEntry tm e why d).hs = (d.hs.withdrawn tm e).opOn e (Entry.over .done why (tickNow tm)) := by
  unfold finishEntry
  dsimp only
  split <;> rfl

/-- An entry whose plan is taken back. -/
def Entry.unplanned (x : Entry) : Entry := { x with state := .queued, start := none }

theorem unplanEntry_eq (tm : TimeBase) (e : Fin 128) (d : Device) :
    unplanEntry tm e d = { d with hs := (d.hs.withdrawn tm e).opOn e Entry.unplanned } := rfl

/-- An entry PLANNED at a tick, as the n-th in order; `told` is the start that DEFER has announced. -/
def Entry.placed (k n : Nat) (told : Entry → Option Nat) (x : Entry) : Entry :=
  { x with state := .planned, start := some k, first := k, plannedOrder := n, deferred := told x }

/-- The scheduler with an entry PLANNED at a tick. -/
def Hearth.placed (e : Fin 128) (k : Nat) (told : Entry → Option Nat) (x : Hearth) : Hearth :=
  { x with charges := x.charges ++ chargesFrom e true k (bankGet x.ledger e).segs, order := x.order + 1 }.opOn e
    (Entry.placed k (x.order + 1) told)

theorem planEntry_eq (tm : TimeBase) (e : Fin 128) (k : Nat) (d : Device) :
    ∃ told pp, planEntry tm e k d = { d with hs := d.hs.placed e k told, pp := pp } := by
  unfold planEntry
  dsimp only
  split
  · obtain ⟨pp, eq⟩ := tellEntry_eq tm .defer _ _ _ _ _ _
    exact ⟨_, pp, eq⟩
  · exact ⟨_, _, rfl⟩

end Sys2Proof.Machine
end

section
/-! SUPPORT. The planner (R244, R245): the commands of HS.PLAN_CMD, and what a pass leaves alone. -/

namespace Sys2Proof.Machine

/-! ### PLAN (R245), by its checks -/

/-- PLAN_START and PLAN_RESULT as a PLAN leaves them. -/
def planTold (start : Word) (r : PlanResult) (d : Device) : Device :=
  { d with hs := { d.hs with planStart := start, planResult := r.code } }

theorem not_planInWindow_iff {s : State} {e : Fin 128} {k : Nat} : ¬ PlanInWindow s e k ↔
    k < (s.dev.led e).early ∨ (s.dev.led e).last < k ∨ k < tickNow s.tm + 1 ∨
      tickNow s.tm + 2048 < k + totalMs (s.dev.led e).segs := by
  unfold PlanInWindow; omega

/-- A device with another PLAN_START and two-wire port, which no check of PLAN reads. -/
def noted (start : Word) (twp : TwoWire) (d : Device) : Device := { d with hs := { d.hs with planStart := start }, twp := twp }

theorem insert_noted (start : Word) (twp : TwoWire) (d : Device) (e : Fin 128) (l : List (Fin 128)) :
    plannedNewestFirst.insert (noted start twp d) e l = plannedNewestFirst.insert d e l := by
  induction l with
  | nil => rfl
  | cons y ys ih =>
    simp only [plannedNewestFirst.insert, ih]
    rfl

theorem plannedNewestFirst_noted (start : Word) (twp : TwoWire) (d : Device) :
    plannedNewestFirst (noted start twp d) = plannedNewestFirst d := by
  unfold plannedNewestFirst
  simp only [insert_noted]
  rfl

theorem planFits_noted (start : Word) (twp : TwoWire) {s : State} {e : Fin 128} {k : Nat} :
    PlanFits { s with dev := noted start twp s.dev } e k ↔ PlanFits s e k := by
  have loads_noted (xs : List (Fin 128)) :
      loads (noted start twp s.dev) (tickNow s.tm) xs = loads s.dev (tickNow s.tm) xs := rfl
  unfold PlanFits
  rw [plannedNewestFirst_noted, loads_noted]
  exact Iff.rfl

section
variable {s : State} {e : Fin 128} (start : Word)

/-- STATE also ends a PLAN while the supervisor does not run (assumption 41). -/
theorem planCommand_of_state (h : (s.dev.led e).state ≠ .queued ∨ supRunning s.tm s.dev = false) :
    planCommand s.tm e start s.dev = planTold start .state s.dev :=
  if_pos (h.imp_right fun off => congrArg (!·) off)

variable (hq : (s.dev.led e).state = .queued) (hr : supRunning s.tm s.dev = true)
include hq hr

theorem passes_state_check : ¬ ((s.dev.led e).state ≠ .queued ∨ (!supRunning s.tm s.dev) = true) := by simp [hq, hr]

theorem planCommand_of_outside (hw : ¬ PlanInWindow s e (PlanTick s start)) :
    planCommand s.tm e start s.dev = planTold start .window s.dev :=
  (if_neg (passes_state_check hq hr)).trans (if_pos (not_planInWindow_iff.mp hw))

variable (hw : PlanInWindow s e (PlanTick s start))
include hw

theorem planCommand_of_overload (hf : ¬ PlanFits s e (PlanTick s start)) :
    planCommand s.tm e start s.dev = planTold start .budget s.dev :=
  (if_neg (passes_state_check hq hr)).trans <| (if_neg (mt not_planInWindow_iff.mpr (not_not.mpr hw))).trans <|
    if_pos ((Bool.not_eq_true' _).mpr (Bool.eq_false_iff.mpr (mt (planFits_noted start s.dev.twp).mp hf)))

theorem planCommand_of_fits (hf : PlanFits s e (PlanTick s start)) : ∃ told pp, planCommand s.tm e start s.dev = { s.dev with
    hs := { s.dev.hs.placed e (PlanTick s start) told with planStart := start, planResult := 0 }, pp := pp } := by
  obtain ⟨told, pp, placed⟩ :=
    planEntry_eq s.tm e (PlanTick s start) { s.dev with hs := { s.dev.hs with planStart := start } }
  refine ⟨told, pp, (if_neg (passes_state_check hq hr)).trans ?_⟩
  refine (if_neg (mt not_planInWindow_iff.mpr (not_not.mpr hw))).trans ?_
  have fits : PlanFits { s with dev := noted start s.dev.twp s.dev } e (PlanTick s start) := (planFits_noted ..).mpr hf
  exact (if_neg fun high => Bool.eq_false_iff.mp ((Bool.not_eq_true' _).mp high) fits).trans (congrArg (planResult .ok) placed)

end

/-! ### The rows -/

/-- A command of HS.PLAN_CMD that reaches its register. -/
theorem planRow_eq {s : State} (hr : Reaches .sup .served s) (w : Word) (f : TimeBase → Device → Device) :
    rowWrite .sup planCmdAt w .served (writeState (engineer .sup) fun s => s.onDev (f s.tm)) s = Wrote .sup planCmdAt 0 (f s.tm) s :=
  rowWrite_of_engineer hr rfl planCmdAt w fun tm _ => f tm

section
variable {s : State} (hreach : Reaches .sup .served s) {f : Device → Device}
include hreach

theorem exec_plan {e : Fin 128} {start : Word} (h : planCommand s.tm e start (rowStarts .sup planCmdAt s).dev =
    f (rowStarts .sup planCmdAt s).dev) : exec (.plan e start) s = .next (Wrote .sup planCmdAt 0 f s) :=
  congrArg Host.Outcome.next ((planRow_eq hreach _ fun tm => planCommand tm e start).trans (wrote_congr h 0))

theorem exec_invalidate {e : Fin 128} (h : invalidateCommand s.tm e (rowStarts .sup planCmdAt s).dev =
    f (rowStarts .sup planCmdAt s).dev) : exec (.invalidate e) s = .next (Wrote .sup planCmdAt 0 f s) :=
  congrArg Host.Outcome.next ((planRow_eq hreach _ fun tm => invalidateCommand tm e).trans (wrote_congr h 0))

theorem exec_squash {e : Fin 128} {hint : BitVec 16} (h : squashCommand s.tm e hint.toNat (rowStarts .sup planCmdAt s).dev =
    f (rowStarts .sup planCmdAt s).dev) : exec (.squash e hint) s = .next (Wrote .sup planCmdAt 0 f s) :=
  congrArg Host.Outcome.next ((planRow_eq hreach _ fun tm => squashCommand tm e hint.toNat).trans (wrote_congr h 0))

end

/-! ### PLAN -/

/-- The write of PLAN_CMD that has begun changes nothing that PLAN checks. -/
theorem planFits_begun {s : State} {e : Fin 128} {k : Nat} : PlanFits (rowStarts .sup planCmdAt s) e k ↔ PlanFits s e k :=
  planFits_noted s.dev.hs.planStart _

theorem plan_places {s : State} (hreach : Reaches .sup .served s) {e : Fin 128} {start : Word}
    (hq : (s.dev.led e).state = .queued) (hr : supRunning s.tm s.dev = true) (hw : PlanInWindow s e (PlanTick s start))
    (hf : PlanFits s e (PlanTick s start)) : ∃ told d, exec (.plan e start) s = .next { s with dev := d } ∧
      d.hs = { s.dev.hs.placed e (PlanTick s start) told with planStart := start, planResult := 0 } ∧
      d.rails = s.dev.rails ∧ d.phases = s.dev.phases ∧ d.er = s.dev.er := by
  obtain ⟨told, pp, placed⟩ := planCommand_of_fits (s := rowStarts .sup planCmdAt s) start hq hr hw (planFits_begun.mpr hf)
  exact ⟨told, _, (exec_plan hreach (f := fun d => { d with
    hs := { s.dev.hs.placed e (PlanTick s start) told with planStart := start, planResult := 0 }, pp := pp }) placed).trans
      (congrArg Host.Outcome.next (wrote_eq ..)), rfl, rfl, rfl, rfl⟩

/-- Settles O29: the checks of PLAN in their order, on the device in which the write of PLAN_CMD has begun. -/
theorem planPlaces : Obligations.PlanPlaces := by
  intro e start s hreach told
  refine ⟨fun h => exec_plan hreach (planCommand_of_state (s := rowStarts .sup planCmdAt s) start h),
    fun hq hr hw => exec_plan hreach (planCommand_of_outside (s := rowStarts .sup planCmdAt s) start hq hr hw),
    fun hq hr hw hf => exec_plan hreach
      (planCommand_of_overload (s := rowStarts .sup planCmdAt s) start hq hr hw (mt planFits_begun.mp hf)),
    fun hq hr hw hf => ?_⟩
  obtain ⟨told, d, runs, hs, rails, phases, er⟩ := plan_places hreach hq hr hw hf
  have ledger : d.hs.ledger = bankUpd s.dev.hs.ledger e _ := congrArg Hearth.ledger hs
  have placed := led_of_upd ledger
  exact ⟨d, runs, congrArg Entry.state placed, congrArg Entry.start placed, congrArg Entry.opSeq placed,
    congrArg Hearth.opSeq hs, congrArg Hearth.planResult hs, congrArg Hearth.planStart hs, fun k => led_of_upd_other ledger,
    congrArg Hearth.charges hs, rails, phases, er⟩

end Sys2Proof.Machine
end

section
/-! SUPPORT. INVALIDATE and SQUASH (Table 9-4), the planner's pass (R244), and the ring link (R248 to R251). -/

namespace Sys2Proof.Machine

/-! ### INVALIDATE and SQUASH -/

theorem invalidateCommand_of_planned {tm : TimeBase} {e : Fin 128} {d : Device} (h : (d.led e).state = .planned)
    (hr : supRunning tm d = true) : invalidateCommand tm e d = { d with hs := { d.hs with
      charges := uncharge e (tickNow tm + 1) d.hs.charges
      opSeq := d.hs.opSeq + 1
      ledger := bankUpd d.hs.ledger e fun x => { x with state := .queued, start := none, opSeq := d.hs.opSeq + 1 }
      planResult := 0 } } := by
  rw [invalidateCommand, if_pos ⟨h, hr⟩, unplanEntry_eq]
  rfl

theorem invalidateCommand_of_state {tm : TimeBase} {e : Fin 128} {d : Device}
    (h : (d.led e).state ≠ .planned ∨ supRunning tm d = false) : invalidateCommand tm e d = planResult .state d :=
  if_neg fun ⟨planned, runs⟩ => h.elim (· planned) fun off => Bool.false_ne_true (off.symm.trans runs)

theorem squashCommand_of_open {e : Fin 128} {d : Device} (h : (d.led e).state = .queued ∨ (d.led e).state = .planned)
    (tm : TimeBase) (hint : Nat) : squashCommand tm e hint d = planResult .ok (squashEntry tm e .nofit hint d) := by
  unfold squashCommand
  rcases h with h | h <;> rw [h]

theorem squashCommand_of_state {e : Fin 128} {d : Device} (hq : (d.led e).state ≠ .queued) (hp : (d.led e).state ≠ .planned)
    (tm : TimeBase) (hint : Nat) : squashCommand tm e hint d = planResult .state d := by
  unfold squashCommand
  split
  case h_1 h => exact absurd h hq
  case h_2 h => exact absurd h hp
  case h_3 => rfl

/-! ### A pass of the planner (R244) -/

/-- What planning leaves alone: entries that are neither QUEUED nor PLANNED, and what the last pass saw of K and p. -/
structure PlanKeeps (d t : Device) : Prop where
  entries : ∀ k, (d.led k).state ≠ .queued → (d.led k).state ≠ .planned → t.led k = d.led k
  cap : t.hs.lastCap = d.hs.lastCap
  pause : t.hs.lastPause = d.hs.lastPause

namespace PlanKeeps

theorem refl (d : Device) : PlanKeeps d d := ⟨fun _ _ _ => rfl, rfl, rfl⟩

theorem trans {d t u : Device} (h : PlanKeeps d t) (h' : PlanKeeps t u) : PlanKeeps d u where
  entries k hq hp := by
    have same := h.entries k hq hp
    rw [← same]
    exact h'.entries k (same ▸ hq) (same ▸ hp)
  cap := h'.cap.trans h.cap
  pause := h'.pause.trans h.pause

theorem foldl {α : Type} {f : Device → α → Device} (h : ∀ d x, PlanKeeps d (f d x)) (l : List α) (d : Device) :
    PlanKeeps d (l.foldl f d) := by
  induction l generalizing d with
  | nil => exact refl d
  | cons a t ih => exact (h d a).trans (ih (f d a))

theorem of_ledger {d t : Device} {e : Fin 128} {f : Entry → Entry} (ht : t.hs.ledger = bankUpd d.hs.ledger e f)
    (he : (d.led e).state = .queued ∨ (d.led e).state = .planned)
    (cap : t.hs.lastCap = d.hs.lastCap) (pause : t.hs.lastPause = d.hs.lastPause) : PlanKeeps d t where
  entries k hq hp := by
    refine led_of_upd_other ht ?_
    rintro rfl
    exact he.elim hq hp
  cap := cap
  pause := pause

end PlanKeeps

theorem invalidateCommand_keeps (tm : TimeBase) (e : Fin 128) (d : Device) : PlanKeeps d (invalidateCommand tm e d) := by
  unfold invalidateCommand
  split
  case isTrue h => exact .of_ledger (f := Entry.op Entry.unplanned (d.hs.opSeq + 1)) rfl (.inr h.1) rfl rfl
  case isFalse => exact ⟨fun _ _ _ => rfl, rfl, rfl⟩

theorem planEntry_keeps {e : Fin 128} {d : Device} (h : (d.led e).state = .queued) (tm : TimeBase) (k : Nat) :
    PlanKeeps d (planEntry tm e k d) := by
  obtain ⟨told, pp, placed⟩ := planEntry_eq tm e k d
  rw [placed]
  exact .of_ledger (f := Entry.op (Entry.placed k (d.hs.order + 1) told) (d.hs.opSeq + 1)) rfl (.inl h) rfl rfl

theorem planCommand_keeps (tm : TimeBase) (e : Fin 128) (start : Word) (d : Device) : PlanKeeps d (planCommand tm e start d) := by
  unfold planCommand
  dsimp only
  split_ifs with going
  case neg =>
    obtain ⟨queued, -⟩ := not_or.mp going
    obtain ⟨entries, cap, pause⟩ := planEntry_keeps (not_not.mp queued) tm (tickAtOrAfter (tickNow tm) start).toNat
    exact ⟨entries, cap, pause⟩
  all_goals exact ⟨fun _ _ _ => rfl, rfl, rfl⟩

theorem planPass_of_running {tm : TimeBase} {d : Device} (hm : d.hs.mode = 0) (hr : supRunning tm d = true) :
    PlanKeeps { d with hs := { d.hs with lastCap := d.hs.railCap, lastPause := d.hs.pause } } (planPass tm d) := by
  unfold planPass
  rw [if_neg (by simp [hm, hr])]
  refine (PlanKeeps.foldl (fun d e => invalidateCommand_keeps tm e d) ..).trans (.foldl (fun d e => ?_) ..)
  split
  · exact planCommand_keeps ..
  · exact .refl d

/-! ### The ring link -/

theorem ringFrame_of_off {d : Device} (h : d.str.device.body.ringSize < 2 ∨ d.pwr.mode = .standby) (tm : TimeBase)
    (bytes : List Byte) : ringFrame tm bytes d = d := by
  have off : (!ringLive d) = true := by
    rcases h with h | h <;> simp [ringLive, h]
  exact if_pos off

section
variable {d : Device} (hsize : 2 ≤ d.str.device.body.ringSize) (hmode : d.pwr.mode ≠ .standby) {bytes : List Byte}
include hsize hmode

theorem ringLive_of_ring : ¬ (!ringLive d) = true := by simp [ringLive, hsize, hmode]

theorem ringFrame_of_invalid (h : ringValid d bytes = false) (tm : TimeBase) :
    ringFrame tm bytes d = { d with ring := { d.ring with errors := d.ring.errors + 1 } } :=
  (if_neg (ringLive_of_ring hsize hmode)).trans (if_pos (congrArg (!·) h))

/-- A valid frame gives the share and the epoch number; the end of a loss leaves its record. -/
theorem ringFrame_of_valid (h : ringValid d bytes = true) (tm : TimeBase) : ∃ shares out unsent er,
    ringFrame tm bytes d = { d with
      tbi := { d.tbi with ring := { d.tbi.ring with linkEpoch := some (beAt bytes 2 6) } }
      ring := { d.ring with
        frames := d.ring.frames + 1
        share := word (beAt bytes (0x0C + 12 * d.str.device.body.ringPos) 4)
        nextEpoch := BitVec.ofNat 48 (beAt bytes 2 6)
        heardAt := some tm.time.toNat
        shareNext := some (tickNow tm, word (beAt bytes (0x0C + 12 * d.str.device.body.ringPos) 4))
        lost := false, shares := shares, out := out, unsent := unsent }
      er := er } ∧ (d.ring.lost = false → er = d.er) := by
  unfold ringFrame
  rw [if_neg (ringLive_of_ring hsize hmode), if_neg (by simp [h])]
  dsimp only
  split
  case isTrue back => exact ⟨_, _, _, _, rfl, fun kept => absurd (kept.symm.trans back) Bool.false_ne_true⟩
  case isFalse => exact ⟨_, _, _, _, rfl, fun _ => rfl⟩

end

theorem ringTimeout_of_due {tm : TimeBase} {d : Device} {t : Nat} (hh : d.ring.heardAt = some t) (hl : d.ring.lost = false)
    (hdue : t + 80000000 ≤ tm.time.toNat) : ∃ er, ringTimeout tm d = { d with
      ring := { d.ring with shareNow := none, shareNext := none, lost := true }
      hs := { d.hs with intStatus := setBit d.hs.intStatus 6 }
      er := er } := by
  unfold ringTimeout
  rw [hh]
  dsimp only
  rw [if_neg (by simp only [hl, Bool.false_eq_true, false_or]; omega)]
  exact ⟨_, rfl⟩

/-! ### The rows -/

theorem squash_ends {s : State} (hreach : Reaches .sup .served s) {e : Fin 128} (hint : BitVec 16)
    (h : (s.dev.led e).state = .queued ∨ (s.dev.led e).state = .planned) :
    ∃ d, exec (.squash e hint) s = .next { s with dev := d } ∧
      d.hs = { ((s.dev.hs.withdrawn s.tm e).opOn e (Entry.over .squashed .nofit (tickNow s.tm))).squashCounted with
        planResult := 0 } := by
  have hs := squashEntry_hs s.tm e .nofit hint.toNat (rowStarts .sup planCmdAt s).dev
  rw [rowStarts_hs] at hs
  have told := exec_squash hreach (f := fun d => planResult .ok (squashEntry s.tm e .nofit hint.toNat d))
    (squashCommand_of_open (d := (rowStarts .sup planCmdAt s).dev) h s.tm hint.toNat)
  exact ⟨_, told.trans (congrArg Host.Outcome.next (wrote_eq ..)), congrArg (fun x : Hearth => { x with planResult := 0 }) hs⟩

/-- Settles O30: the commands by the state of their entry, the pass by what each of its plans and invalidations leaves, and the
ring link by whether it runs and its frame is valid. -/
theorem plannerAndRing : Obligations.PlannerAndRing := by
  refine ⟨fun e s hreach hp hr => ?_, fun e s hreach h => ?_, fun e hint s hreach h => ?_, fun e hint s hreach hq hp => ?_,
    fun s hm hr => ?_, fun bytes s h => ?_, fun bytes s hsize hmode h => ?_, fun bytes s hsize hmode h => ?_,
    fun t s hh hl hdue => ?_⟩
  · exact exec_invalidate hreach (invalidateCommand_of_planned (d := (rowStarts .sup planCmdAt s).dev) hp hr)
  · exact exec_invalidate hreach (invalidateCommand_of_state (d := (rowStarts .sup planCmdAt s).dev) h)
  · obtain ⟨d, runs, hs⟩ := squash_ends hreach hint h
    have ledger : d.hs.ledger = bankUpd s.dev.hs.ledger e _ := congrArg Hearth.ledger hs
    have squashed := led_of_upd ledger
    exact ⟨d, runs, congrArg Entry.state squashed, congrArg Entry.reason squashed, congrArg Entry.endedAt squashed,
      fun k => led_of_upd_other ledger, congrArg Hearth.squashes hs, congrArg Hearth.intStatus hs,
      congrArg Hearth.planResult hs, congrArg Hearth.charges hs⟩
  · exact exec_squash hreach (squashCommand_of_state (d := (rowStarts .sup planCmdAt s).dev) hq hp ..)
  · obtain ⟨entries, cap, pause⟩ := planPass_of_running hm hr
    exact ⟨planPass s.tm s.dev, rfl, cap, pause, entries⟩
  · exact next_of_dev (ringFrame_of_off h ..)
  · exact next_of_dev (ringFrame_of_invalid hsize hmode h ..)
  · obtain ⟨shares, out, unsent, er, eq, quiet⟩ := ringFrame_of_valid hsize hmode h s.tm
    exact ⟨_, next_of_dev eq, rfl, rfl, rfl, rfl, rfl, rfl, rfl, rfl, rfl, quiet⟩
  · obtain ⟨er, eq⟩ := ringTimeout_of_due hh hl hdue
    exact ⟨er, next_of_dev eq⟩

end Sys2Proof.Machine
end

section
/-! SUPPORT. The frames with which a partner requests, cancels, reverses and completes motions, and asks for voltages (R270, R274,
R275): on a bus that listens, from the holder of its handle, while the supervisor runs. -/

namespace Sys2Proof.Machine

/-! ### A frame for this device (R256, R259, R267) -/

/-- A frame for this device has come over a bus, and its controller has counted it. -/
def counted (b : Fin 2) (d : Device) : Device := (received b d).onBus b fun c => { c with rx := c.rx + 1 }

theorem arrived_of_listens {b : Fin 2} {d : Device} (h : busListens d b = true) (f : Device → Device) :
    arrived b d.pp.node f d = f (counted b d) := by
  obtain ⟨live, on⟩ := Bool.and_eq_true_iff.mp h
  have here : (portsLive (received b d) && decide (d.pp.node = (received b d).pp.node)) = true :=
    Bool.and_eq_true_iff.mpr ⟨live, decide_eq_true rfl⟩
  simp only [arrived, on, here, counted, Bool.not_true, Bool.false_eq_true, if_false, if_true]

/-- The device as such a frame from a handle leaves it before it is acted upon: the handle's bus and lease are renewed. -/
def heard (tm : TimeBase) (b : Fin 2) (h : Fin 256) (unit : Option (BitVec 16)) (d : Device) : Device :=
  heardFrom tm b h unit (counted b d)

theorem heard_partner (tm : TimeBase) (b : Fin 2) (h : Fin 256) (unit : Option (BitVec 16)) (d : Device) :
    ∃ home lastRx leaseFrom frames, bankGet (heard tm b h unit d).pp.partners h =
      { bankGet d.pp.partners h with home := home, lastRx := lastRx, leaseFrom := leaseFrom, frames := frames } := by
  have same : (counted b d).pp.partners = d.pp.partners := rfl
  simp only [heard, heardFrom, Device.onPartner, bankGet_bankUpd_same, same]
  split_ifs <;> exact ⟨_, _, _, _, rfl⟩

theorem heard_eq (tm : TimeBase) (b : Fin 2) (h : Fin 256) (unit : Option (BitVec 16)) (d : Device) : ∃ buses partners draws,
    heard tm b h unit d = { d with pp := { d.pp with buses := buses, partners := partners }, draws := draws } := by
  have count : ∃ buses draws, counted b d = { d with pp := { d.pp with buses := buses }, draws := draws } := ⟨_, _, rfl⟩
  obtain ⟨buses, draws, count⟩ := count
  unfold heard
  rw [count]
  exact ⟨buses, _, draws, rfl⟩

section
variable (tm : TimeBase) (b : Fin 2) (h : Fin 256) (unit : Option (BitVec 16)) (d : Device)

@[simp] theorem heard_held : (bankGet (heard tm b h unit d).pp.partners h).held = (bankGet d.pp.partners h).held := by
  obtain ⟨_, _, _, _, eq⟩ := heard_partner tm b h unit d; rw [eq]
@[simp] theorem heard_unit : (bankGet (heard tm b h unit d).pp.partners h).unit = (bankGet d.pp.partners h).unit := by
  obtain ⟨_, _, _, _, eq⟩ := heard_partner tm b h unit d; rw [eq]
@[simp] theorem heard_tagItem (tag : Byte) :
    tagItem (bankGet (heard tm b h unit d).pp.partners h) tag = tagItem (bankGet d.pp.partners h) tag := by
  obtain ⟨_, _, _, _, eq⟩ := heard_partner tm b h unit d; rw [eq]; rfl

@[simp] theorem heard_hs : (heard tm b h unit d).hs = d.hs := by obtain ⟨_, _, _, eq⟩ := heard_eq tm b h unit d; rw [eq]
@[simp] theorem heard_rails : (heard tm b h unit d).rails = d.rails := by obtain ⟨_, _, _, eq⟩ := heard_eq tm b h unit d; rw [eq]
@[simp] theorem heard_er : (heard tm b h unit d).er = d.er := by obtain ⟨_, _, _, eq⟩ := heard_eq tm b h unit d; rw [eq]
@[simp] theorem heard_supRunning (tm' : TimeBase) : supRunning tm' (heard tm b h unit d) = supRunning tm' d := by
  obtain ⟨_, _, _, eq⟩ := heard_eq tm b h unit d; rw [eq]; rfl
@[simp] theorem heard_openEntries (k : Fin 256) : openEntries (heard tm b h unit d) k = openEntries d k := by
  obtain ⟨_, _, _, eq⟩ := heard_eq tm b h unit d; rw [eq]; rfl
@[simp] theorem heard_maxOpen : maxOpen (heard tm b h unit d) = maxOpen d := by
  obtain ⟨_, _, _, eq⟩ := heard_eq tm b h unit d; rw [eq]; rfl
@[simp] theorem heard_standingOf (k u : Nat) : standingOf (heard tm b h unit d) k u = standingOf d k u := by
  obtain ⟨_, _, _, eq⟩ := heard_eq tm b h unit d; rw [eq]; rfl
@[simp] theorem heard_led (e : Fin 128) : (heard tm b h unit d).led e = d.led e := by simp [Device.led]
@[simp] theorem heard_rail (r : Fin 64) : (heard tm b h unit d).rail r = d.rail r := by simp [Device.rail]

end

theorem heard_partner_other (tm : TimeBase) (b : Fin 2) {h k : Fin 256} (unit : Option (BitVec 16)) (d : Device) (hk : k ≠ h) :
    bankGet (heard tm b h unit d).pp.partners k = bankGet d.pp.partners k := bankGet_bankUpd_other _ _ hk.symm

/-! ### Profiles -/

theorem profileShort_of_length {segs : Nat} {p : List ProfileSeg} (h : p.length = segs) : profileShort segs p = false := by
  simp [profileShort, h]

/-! ### MOTION_REQ (R270) -/

theorem tagItem_keepTag (h : Fin 256) (tag : Byte) (d : Device) :
    (tagItem (bankGet (keepTag h tag d).pp.partners h) tag).isSome = true := by
  have last : (⟨tag, 0xFF, 0, []⟩ : TagMem) ∈ (bankGet (keepTag h tag d).pp.partners h).tags := by
    simp only [keepTag, Device.onPartner, bankGet_bankUpd_same]
    rw [List.drop_append_of_le_length (by simp)]
    exact List.mem_append_right _ (List.mem_singleton_self _)
  exact List.find?_isSome.mpr ⟨_, List.mem_reverse.mpr last, decide_eq_true rfl⟩

theorem refreshStanding_eq (h : Fin 256) (d : Device) : ∃ listed ceil vreqOk rail peakMax,
    refreshStanding h d = d.onPartner h fun p =>
      { p with listed := listed, ceil := ceil, vreqOk := vreqOk, rail := rail, peakMax := peakMax } := by
  unfold refreshStanding
  dsimp only
  split
  · exact ⟨_, _, _, _, _, congrArg (fun b => { d with pp := { d.pp with partners := b } })
      (bankUpd_eq_self d.pp.partners h rfl).symm⟩
  · exact ⟨_, _, _, _, _, rfl⟩

section
variable (h : Fin 256) (d : Device)

@[simp] theorem refreshStanding_hs : (refreshStanding h d).hs = d.hs := by
  obtain ⟨_, _, _, _, _, eq⟩ := refreshStanding_eq h d; rw [eq]; rfl
@[simp] theorem refreshStanding_rails : (refreshStanding h d).rails = d.rails := by
  obtain ⟨_, _, _, _, _, eq⟩ := refreshStanding_eq h d; rw [eq]; rfl
@[simp] theorem refreshStanding_er : (refreshStanding h d).er = d.er := by
  obtain ⟨_, _, _, _, _, eq⟩ := refreshStanding_eq h d; rw [eq]; rfl
@[simp] theorem refreshStanding_rail (r : Fin 64) : (refreshStanding h d).rail r = d.rail r := by simp [Device.rail]
@[simp] theorem refreshStanding_supRunning (tm : TimeBase) : supRunning tm (refreshStanding h d) = supRunning tm d := by
  obtain ⟨_, _, _, _, _, eq⟩ := refreshStanding_eq h d; rw [eq]; rfl
@[simp] theorem refreshStanding_tagItem (tag : Byte) :
    tagItem (bankGet (refreshStanding h d).pp.partners h) tag = tagItem (bankGet d.pp.partners h) tag := by
  obtain ⟨_, _, _, _, _, eq⟩ := refreshStanding_eq h d; rw [eq]; simp [Device.onPartner, tagItem]
theorem refreshStanding_other {k : Fin 256} (hk : k ≠ h) :
    bankGet (refreshStanding h d).pp.partners k = bankGet d.pp.partners k := by
  obtain ⟨_, _, _, _, _, eq⟩ := refreshStanding_eq h d; rw [eq]; exact bankGet_bankUpd_other _ _ hk.symm

end

/-- The holder's standing is taken up anew (R86). -/
theorem refreshStanding_of_held {h : Fin 256} {d : Device} (held : (bankGet d.pp.partners h).held = true) :
    (bankGet (refreshStanding h d).pp.partners h).held = true ∧
      (bankGet (refreshStanding h d).pp.partners h).vreqOk = (standingOf d h.val (bankGet d.pp.partners h).unit.toNat).vreqOk ∧
      (bankGet (refreshStanding h d).pp.partners h).rail = (standingOf d h.val (bankGet d.pp.partners h).unit.toNat).rail := by
  simp [refreshStanding, held, Device.onPartner]

/-- A request awaits intake. -/
def withRequest (q : Request) (d : Device) : Device := { d with hs := { d.hs with requests := d.hs.requests ++ [q] } }

/-- A MOTION_REQ of the holder whose checks pass (Table 10-7); `t` is the device that has heard it. -/
theorem motionFrame_of_accepted {tm : TimeBase} {b : Fin 2} {h : Fin 256} {tag : Byte} {d t : Device} {segs cls : Nat}
    {unit : BitVec 16} {profile : List ProfileSeg} (ht : heardFrom tm b h (some unit) d = t) (hr : supRunning tm t = true)
    (held : (bankGet t.pp.partners h).held = true) (hu : (bankGet t.pp.partners h).unit = unit) (hc : cls ≤ 2)
    (hlen : profile.length = segs) (hv : profileValid segs profile = true) (htag : tagItem (bankGet t.pp.partners h) tag = none)
    (ho : openEntries t h < maxOpen t) (earliest latest : Word) :
    motionFrame tm b h tag segs cls unit earliest latest profile d = withRequest
      ⟨h, tag, max (Fin.ofNat 3 cls) (standingOf t h.val unit.toNat).ceil, unit, earliest, latest, segsOf profile⟩
      (refreshStanding h (keepTag h tag t)) := by
  unfold motionFrame withRequest
  rw [if_neg (by simp [profileShort_of_length hlen]), ht, ← hlen, List.take_length]
  simp [hr, held, hu, htag, hlen, hv, not_lt.mpr hc, not_le.mpr ho]

/-! ### CANCEL, COMPLETE and REVERSE (R274) -/

/-- The profile of a REVERSE is as long as its SEGS says, and valid. -/
def EntryFrame.Whole : EntryFrame → Prop
  | .cancel | .complete => True
  | .reverse segs p => p.length = segs ∧ profileValid segs p = true

/-- A frame of the holder about an entry of the handle that its TAG names, where Table 9-4 has a row for it; `t` is the device that
has heard it. -/
theorem entryFrame_of_acted {tm : TimeBase} {b : Fin 2} {h : Fin 256} {tag entry : Byte} {d t : Device} {e : Fin 128}
    {x : TagMem} {f : EntryFrame} {d' : Device} {bytes : List Byte} (ht : heardFrom tm b h none d = t)
    (hr : supRunning tm t = true) (held : (bankGet t.pp.partners h).held = true)
    (hx : tagItem (bankGet t.pp.partners h) tag = some x) (hxe : x.entry = entry) (he : entry.toNat = e.val)
    (hh : (t.led e).handle = h) (hf : f.Whole) (act : actOnEntry tm tag e f t = some (d', bytes)) :
    entryFrame tm b h tag entry f d = tellEntry tm f.answer h tag.toNat e.val bytes none d' := by
  have named : fin? 128 entry.toNat = some e := by simp [fin?, he]
  unfold entryFrame
  rw [ht]
  cases f with
  | cancel | complete => simp [hr, held, named, hx, hxe, hh, act]
  | reverse segs p =>
    obtain ⟨hlen, hv⟩ := hf
    subst hlen
    simp [profileShort_of_length rfl, hr, held, named, hx, hxe, hh, act, hv]

section
variable {e : Fin 128} {d : Device} (tm : TimeBase) (tag : Byte)

theorem cancel_acts (h : (d.led e).state = .queued ∨ (d.led e).state = .planned ∨ (d.led e).state = .granted ∨
    (d.led e).state = .active) : ∃ bytes, actOnEntry tm tag e .cancel d = some (squashEntry tm e .cancel noHint d, bytes) := by
  have cancels : cancelEntry tm e d = some (squashEntry tm e .cancel noHint d) := by
    unfold cancelEntry
    rcases h with h | h | h | h <;> rw [h]
  rw [actOnEntry, cancels]
  exact ⟨_, rfl⟩

theorem complete_acts (h : (d.led e).state = .active) :
    ∃ bytes, actOnEntry tm tag e .complete d = some (finishEntry tm e .none d, bytes) := by
  have completes : completeEntry tm e d = some (finishEntry tm e .none d) := by
    unfold completeEntry
    rw [h]
  rw [actOnEntry, completes]
  exact ⟨_, rfl⟩

/-- An entry with a profile in place of its own, from a tick on. -/
def Entry.reversed (segs : List Seg) (first : Nat) (x : Entry) : Entry := { x with segs := segs, first := first }

/-- A profile that ends within the horizon replaces that of an ACTIVE entry whole (R239). -/
theorem reverse_acts (h : (d.led e).state = .active) {segs : Nat} {p : List ProfileSeg} (hlen : p.length = segs)
    (hl : totalMs (segsOf p) ≤ 2047) : ∃ d' bytes, actOnEntry tm tag e (.reverse segs p) d = some (d', bytes) ∧
      d'.hs.ledger = bankUpd d.hs.ledger e (Entry.op (Entry.reversed (segsOf p) (tickNow tm + 1)) (d.hs.opSeq + 1)) := by
  have fits : ¬ totalMs (segsOf p) > tickNow tm + 2048 - (tickNow tm + 1) := by omega
  have reverses : ∃ x, reverseEntry tm e (segsOf p) d = some x ∧
      x.1.hs.ledger = bankUpd d.hs.ledger e (Entry.op (Entry.reversed (segsOf p) (tickNow tm + 1)) (d.hs.opSeq + 1)) := by
    unfold reverseEntry
    simp only [h, fits, decide_false, Bool.false_eq_true, if_false]
    exact ⟨_, rfl, congrArg Hearth.ledger (rewarm_hs ..)⟩
  obtain ⟨x, reverses, ledger⟩ := reverses
  rw [actOnEntry, List.take_of_length_le hlen.le, reverses]
  exact ⟨_, _, rfl, ledger⟩

end

/-! ### VREQ (R275) -/

/-- A rail with one more voltage request. -/
def Rail.wanting (q : VRequest) (x : Rail) : Rail := { x with requests := x.requests ++ [q] }

/-- The first VREQ of a handle on a rail with room for it; `t` is the device that has heard it. -/
theorem vreqFrame_of_first {tm : TimeBase} {b : Fin 2} {h : Fin 256} {value : Word} {d t : Device} {r : Fin 64}
    (ht : refreshStanding h (heardFrom tm b h none d) = t) (hr : supRunning tm t = true)
    (held : (bankGet t.pp.partners h).held = true) (ok : (bankGet t.pp.partners h).vreqOk = true)
    (rail : (bankGet t.pp.partners h).rail = some r) (hv : bits value.toNat 19 0 ≠ 0)
    (first : ∀ q ∈ (t.rail r).requests, q.handle ≠ h) (room : (t.rail r).requests.length < 16) (tag : Byte) :
    ∃ pp, vreqFrame tm b h tag value d =
      { t.onRail r (Rail.wanting ⟨h, bits value.toNat 19 0, tm.time.toNat⟩) with pp := pp } := by
  have new : ((t.rail r).requests.any fun q => decide (q.handle = h)) = false := by simpa using first
  have answered : vreqFrame tm b h tag value d = sendKind tm .vreqAck h
      (vreqAckBytes tag.toNat FrameReason.ok.code (word (clampWindow t r (bits value.toNat 19 0)))) none
      (t.onRail r (Rail.wanting ⟨h, bits value.toNat 19 0, tm.time.toNat⟩)) := by
    unfold vreqFrame
    rw [ht]
    simp only [held, hr, ok, rail, hv, new, Bool.not_true, Bool.false_eq_true, if_false, ge_iff_le, not_le.mpr room]
    rfl
  rw [answered]
  exact sendKind_eq ..

/-! ### The rows -/

section
variable {b : Bus} {h : Fin 256} {s : State} (listens : busListens s.dev (busIdx b) = true)
include listens

/-- A frame for this device does what its row says with the device that has counted it. -/
theorem next_of_listens (f : TimeBase → Device → Device) {d : Device} (hd : f s.tm (counted (busIdx b) s.dev) = d) :
    onDevice (fun tm => arrived (busIdx b) s.dev.pp.node (f tm)) s = .next { s with dev := d } :=
  next_of_dev ((arrived_of_listens listens (f s.tm)).trans hd)

variable (hr : supRunning s.tm s.dev = true) (held : (bankGet s.dev.pp.partners h).held = true)
include hr held

theorem motionReq_joins {tag : BitVec 8} {segs : BitVec 4} {cls : BitVec 2} {unit : BitVec 16} {profile : List ProfileSeg}
    (hu : (bankGet s.dev.pp.partners h).unit = unit) (hc : cls.toNat ≤ 2) (hlen : profile.length = segs.toNat)
    (hv : profileValid segs.toNat profile = true) (htag : tagItem (bankGet s.dev.pp.partners h) tag = none)
    (ho : openEntries s.dev h < maxOpen s.dev) (earliest latest : BitVec 32) :
    ∃ d, exec (.motionReq b s.dev.pp.node h tag segs cls unit earliest latest profile) s = .next { s with dev := d } ∧
      d.hs = { s.dev.hs with requests := s.dev.hs.requests ++ [⟨h, tag,
        max (Fin.ofNat 3 cls.toNat) (standingOf s.dev h.val unit.toNat).ceil, unit, earliest, latest, segsOf profile⟩] } ∧
      (tagItem (bankGet d.pp.partners h) tag).isSome = true ∧ d.rails = s.dev.rails ∧ d.er = s.dev.er ∧
      ∀ k, k ≠ h → bankGet d.pp.partners k = bankGet s.dev.pp.partners k := by
  have made := motionFrame_of_accepted (d := counted (busIdx b) s.dev) (t := heard s.tm (busIdx b) h (some unit) s.dev) rfl
    (by simpa using hr) (by simpa using held) (by simpa using hu) hc hlen hv (by simpa using htag) (by simpa using ho)
    earliest latest
  refine ⟨_, next_of_listens listens (fun tm =>
    motionFrame tm (busIdx b) h tag segs.toNat cls.toNat unit earliest latest profile) made, ?_, ?_, ?_, ?_, fun k hk => ?_⟩
  · simp [withRequest, keepTag, Device.onPartner]
  · simpa [withRequest] using tagItem_keepTag h tag _
  · simp [withRequest, keepTag, Device.onPartner]
  · simp [withRequest, keepTag, Device.onPartner]
  · exact (refreshStanding_other h _ hk).trans ((bankGet_bankUpd_other _ _ hk.symm).trans (heard_partner_other _ _ _ _ hk))

/-- A frame about an entry leaves the scheduler as its row of Table 9-4 does; the answer goes out beside it. -/
theorem entryRow_acts {tag entry : BitVec 8} {e : Fin 128} {x : TagMem} (hx : tagItem (bankGet s.dev.pp.partners h) tag = some x)
    (hxe : x.entry = entry) (he : entry.toNat = e.val) (hh : (s.dev.led e).handle = h) {f : EntryFrame}
    {d' : Device} {bytes : List Byte}
    (act : actOnEntry s.tm tag e f (heard s.tm (busIdx b) h none s.dev) = some (d', bytes)) (hf : f.Whole) :
    ∃ d, onDevice (fun tm => arrived (busIdx b) s.dev.pp.node (entryFrame tm (busIdx b) h tag entry f)) s =
      .next { s with dev := d } ∧ d.hs = d'.hs :=
  ⟨_, next_of_listens listens (fun tm => entryFrame tm (busIdx b) h tag entry f)
    (entryFrame_of_acted (t := heard s.tm (busIdx b) h none s.dev) rfl (by simpa using hr) (by simpa using held)
      (by simpa using hx) hxe he (by simpa using hh) hf act), tellEntry_hs ..⟩

theorem vreq_joins {value : BitVec 32} {r : Fin 64}
    (ok : (standingOf s.dev h.val (bankGet s.dev.pp.partners h).unit.toNat).vreqOk = true)
    (rail : (standingOf s.dev h.val (bankGet s.dev.pp.partners h).unit.toNat).rail = some r) (hv : bits value.toNat 19 0 ≠ 0)
    (first : ∀ q ∈ (s.dev.rail r).requests, q.handle ≠ h) (room : (s.dev.rail r).requests.length < 16) (tag : BitVec 8) :
    ∃ d, exec (.vreq b s.dev.pp.node h tag value) s = .next { s with dev := d } ∧
      d.rails = bankUpd s.dev.rails r (Rail.wanting ⟨h, bits value.toNat 19 0, s.tm.time.toNat⟩) ∧
      d.hs = s.dev.hs ∧ d.er = s.dev.er := by
  obtain ⟨still, allowed, place⟩ := refreshStanding_of_held (h := h) (d := heard s.tm (busIdx b) h none s.dev)
    (by simpa using held)
  obtain ⟨pp, answered⟩ := vreqFrame_of_first (d := counted (busIdx b) s.dev)
    (t := refreshStanding h (heard s.tm (busIdx b) h none s.dev)) rfl (by simpa using hr) still
    (allowed.trans (by simpa using ok)) (place.trans (by simpa using rail)) hv (by simpa using first) (by simpa using room) tag
  exact ⟨_, next_of_listens listens (fun tm => vreqFrame tm (busIdx b) h tag value) answered, by simp, by simp, by simp⟩

end

/-- Settles O33: each frame is heard, and then acts: the request by its checks, those about an entry by their rows of Table 9-4. -/
theorem partnersRequest : Obligations.PartnersRequest := by
  refine ⟨fun b h tag segs cls unit earliest latest profile s listens hr held hu hc hlen hv htag ho =>
      motionReq_joins listens hr held hu hc hlen hv htag ho earliest latest,
    fun b h tag entry e x s listens hr held hx hxe he hh => ⟨fun hs => ?_, fun hs => ?_, fun segs profile hs hlen hv hl => ?_⟩,
    fun b h tag value r s listens hr held ok rail hv first room => vreq_joins listens hr held ok rail hv first room tag⟩
  · obtain ⟨bytes, act⟩ := cancel_acts s.tm tag (d := heard s.tm (busIdx b) h none s.dev) (by simpa using hs)
    obtain ⟨d, runs, left⟩ := entryRow_acts listens hr held hx hxe he hh act trivial
    have hs := left.trans (squashEntry_hs ..)
    rw [heard_hs] at hs
    have ledger : d.hs.ledger = bankUpd s.dev.hs.ledger e _ := congrArg Hearth.ledger hs
    have squashed := led_of_upd ledger
    exact ⟨d, runs, congrArg Entry.state squashed, congrArg Entry.reason squashed, fun k => led_of_upd_other ledger,
      congrArg Hearth.squashes hs⟩
  · obtain ⟨bytes, act⟩ := complete_acts s.tm tag (d := heard s.tm (busIdx b) h none s.dev) (by simpa using hs)
    obtain ⟨d, runs, left⟩ := entryRow_acts listens hr held hx hxe he hh act trivial
    have hs := left.trans (finishEntry_hs ..)
    rw [heard_hs] at hs
    have ledger : d.hs.ledger = bankUpd s.dev.hs.ledger e _ := congrArg Hearth.ledger hs
    have done := led_of_upd ledger
    exact ⟨d, runs, congrArg Entry.state done, congrArg Entry.reason done, fun k => led_of_upd_other ledger⟩
  · obtain ⟨d', bytes, act, ledger⟩ :=
      reverse_acts s.tm tag (d := heard s.tm (busIdx b) h none s.dev) (by simpa using hs) hlen hl
    obtain ⟨d, runs, left⟩ := entryRow_acts listens hr held hx hxe he hh act ⟨hlen, hv⟩
    rw [← left, heard_hs] at ledger
    have reversed := led_of_upd ledger
    exact ⟨d, runs, (congrArg Entry.state reversed).trans hs, congrArg Entry.segs reversed, congrArg Entry.first reversed,
      by rw [reversed]; rfl, fun k => led_of_upd_other ledger⟩

end Sys2Proof.Machine
end

section
/-! SUPPORT. Partners that join and leave (R265 to R269): what the leaving of a handle does to the ledger and to the handle, the
frames JOIN, LEAVE and KEEPALIVE, and frames that are discarded (R259). -/

namespace Sys2Proof.Machine

/-- A fold over a list with `a` in it: the other elements keep `P` until the turn of `a` makes it `Q`, which every element keeps. -/
theorem foldl_settles {σ α : Type} {P Q : σ → Prop} {f : σ → α → σ} {a : α} (turn : ∀ x, P x → Q (f x a))
    (wait : ∀ x b, b ≠ a → P x → P (f x b)) (stay : ∀ x b, Q x → Q (f x b)) {l : List α} (ha : a ∈ l) {x : σ} (hx : P x) :
    Q (l.foldl f x) := by
  induction l generalizing x with
  | nil => cases ha
  | cons b t ih =>
    by_cases hb : b = a
    · subst hb
      exact foldl_preserves stay t (turn x hx)
    · exact ih ((List.mem_cons.mp ha).resolve_left (Ne.symm hb)) (wait x b hb hx)

/-! ### The entries of a handle that leaves (Table 9-4, R267) -/

@[simp] theorem unwindWhere_pp (tm : TimeBase) (r : Fin 64) (bySection : Bool) (pick : AddRecord → Bool) (d : Device) :
    (unwindWhere tm r bySection pick d).pp = d.pp := by
  unfold unwindWhere raiseUnwinds
  refine (foldl_keeps Device.pp (fun d e => ?_) _ _).trans ?_
  · unfold raiseUnwind
    split <;> rfl
  · unfold countUnwound
    split <;> rfl

@[simp] theorem unwindEntry_pp (tm : TimeBase) (e : Fin 128) (d : Device) : (unwindEntry tm e d).pp = d.pp := by
  unfold unwindEntry
  split
  · rfl
  · exact unwindWhere_pp ..

/-- No frame goes to a partner that leaves. -/
theorem squashEntry_left_pp (tm : TimeBase) (e : Fin 128) (hint : Nat) (d : Device) :
    (squashEntry tm e .left hint d).pp = d.pp := by
  simp [squashEntry, hsInt, ledgerOp, onCharges]

theorem revokeEntry_left_pp (tm : TimeBase) (e : Fin 128) (d : Device) : (revokeEntry tm e .left d).pp = d.pp := by
  simp [revokeEntry, raiseLedger, raise, hsInt, ledgerOp, onCharges]

theorem revokeEntry_left_ledger (tm : TimeBase) (e : Fin 128) (d : Device) : (revokeEntry tm e .left d).hs.ledger =
    bankUpd d.hs.ledger e (Entry.op (Entry.over .revoked .left (tickNow tm)) (d.hs.opSeq + 1)) := by
  unfold revokeEntry
  extract_lets x withdrawn closed hs counted
  exact congrArg Hearth.ledger (unwindEntry_hs tm e counted)

/-- What one entry of a handle that leaves comes to. -/
def leaveEntry (tm : TimeBase) (d : Device) (e : Fin 128) : Device :=
  match (d.led e).state with
  | .queued | .planned => squashEntry tm e .left noHint d
  | .granted => revokeEntry tm e .left d
  | _ => d

theorem handleLeaves_eq (tm : TimeBase) (h : Fin 256) (d : Device) :
    handleLeaves tm h d = (bankWhere d.hs.ledger fun x => decide (x.handle = h)).foldl (leaveEntry tm) d := rfl

theorem leaveEntry_pp (tm : TimeBase) (d : Device) (e : Fin 128) : (leaveEntry tm d e).pp = d.pp := by
  unfold leaveEntry
  split
  · exact squashEntry_left_pp ..
  · exact squashEntry_left_pp ..
  · exact revokeEntry_left_pp ..
  · rfl

theorem leaveEntry_led_other (tm : TimeBase) (d : Device) {e k : Fin 128} (hk : k ≠ e) :
    (leaveEntry tm d e).led k = d.led k := by
  have squashed := led_of_upd_other (congrArg Hearth.ledger (squashEntry_hs tm e .left noHint d)) hk
  unfold leaveEntry
  split
  · exact squashed
  · exact squashed
  · exact led_of_upd_other (revokeEntry_left_ledger tm e d) hk
  · rfl

/-- An entry SQUASHED because its handle has left. -/
def Entry.LeftSquashed (x : Entry) : Prop := x.state = .squashed ∧ x.reason = .left

theorem leaveEntry_of_queued {d : Device} {e : Fin 128} (h : (d.led e).state = .queued) (tm : TimeBase) :
    ((leaveEntry tm d e).led e).LeftSquashed := by
  have squashes : leaveEntry tm d e = squashEntry tm e .left noHint d := by rw [leaveEntry, h]
  have squashed := led_of_upd (congrArg Hearth.ledger (squashEntry_hs tm e .left noHint d))
  rw [squashes, squashed]
  exact ⟨rfl, rfl⟩

theorem leaveEntry_keeps_squashed {d : Device} {e : Fin 128} (h : (d.led e).LeftSquashed) (tm : TimeBase) (k : Fin 128) :
    ((leaveEntry tm d k).led e).LeftSquashed := by
  by_cases hk : e = k
  · subst hk
    rwa [leaveEntry, h.1]
  · rwa [leaveEntry_led_other tm d hk]

@[simp] theorem handleLeaves_pp (tm : TimeBase) (h : Fin 256) (d : Device) : (handleLeaves tm h d).pp = d.pp :=
  foldl_keeps Device.pp (leaveEntry_pp tm) _ d

theorem handleLeaves_led_other {d : Device} {e : Fin 128} {h : Fin 256} (hh : (d.led e).handle ≠ h) (tm : TimeBase) :
    (handleLeaves tm h d).led e = d.led e := by
  rw [handleLeaves_eq]
  refine List.foldlRecOn (motive := fun t : Device => t.led e = d.led e) _ _ rfl fun t same k hk => ?_
  have mine : (d.led k).handle = h := of_decide_eq_true (List.mem_filter.mp hk).2
  exact (leaveEntry_led_other tm t (by rintro rfl; exact hh mine)).trans same

theorem handleLeaves_keeps_squashed {d : Device} {e : Fin 128} (h : (d.led e).LeftSquashed) (tm : TimeBase) (k : Fin 256) :
    ((handleLeaves tm k d).led e).LeftSquashed :=
  foldl_preserves (P := fun t : Device => (t.led e).LeftSquashed) (fun _ k ht => leaveEntry_keeps_squashed ht tm k) _ h

/-- A QUEUED entry of a handle that leaves is SQUASHED. -/
theorem handleLeaves_squashes {d : Device} {e : Fin 128} (hq : (d.led e).state = .queued) (tm : TimeBase) :
    ((handleLeaves tm (d.led e).handle d).led e).LeftSquashed := by
  have mine : e ∈ bankWhere d.hs.ledger fun x => decide (x.handle = (d.led e).handle) :=
    List.mem_filter.mpr ⟨List.mem_finRange e, decide_eq_true rfl⟩
  exact foldl_settles (P := fun t : Device => (t.led e).state = .queued) (Q := fun t : Device => (t.led e).LeftSquashed)
    (fun t ht => leaveEntry_of_queued ht tm)
    (fun t k hk ht => (congrArg Entry.state (leaveEntry_led_other tm t hk.symm)).trans ht)
    (fun t k ht => leaveEntry_keeps_squashed ht tm k) mine hq

/-! ### A handle is freed (R267, R268) -/

/-- A handle that nobody holds: its home bus stays, and an unlisted one enters holdoff for its last unit. -/
def Partner.freed (tm : TimeBase) (p : Partner) : Partner :=
  { Partner.reset with home := p.home, holdoff := if p.listed then none else some (tm.time.toNat, p.unit) }

/-- The handle is freed, with interrupt bit 1. -/
def Ports.freed (tm : TimeBase) (h : Fin 256) (x : Ports) : Ports :=
  { x with partners := bankUpd x.partners h (Partner.freed tm), intStatus := setBit x.intStatus 1 }

/-- The ports count why a handle has left (Table 10-10); a takeover sets interrupt bit 3 as well. -/
def LeaveCause.counted (why : LeaveCause) (x : Ports) : Ports :=
  match why with
  | .leave | .evict => { x with leaves := x.leaves + 1 }
  | .takeover => { x with takeovers := x.takeovers + 1, intStatus := setBit x.intStatus 3 }
  | .expiry => { x with expiries := x.expiries + 1 }

theorem freeHandle_pp (tm : TimeBase) (h : Fin 256) (why : LeaveCause) (d : Device) :
    (freeHandle tm h why d).pp = why.counted (d.pp.freed tm h) := by
  unfold freeHandle dropRequests
  cases why <;> simp [raisePartner, raise, ppInt, Device.onPartner, LeaveCause.counted, Ports.freed, Partner.freed, bankUpd]

theorem freeHandle_leaves (tm : TimeBase) (h : Fin 256) (d : Device) {why : LeaveCause} (hw : why = .leave ∨ why = .evict) :
    (freeHandle tm h why d).pp.leaves = d.pp.leaves + 1 := by
  rw [freeHandle_pp]
  rcases hw with rfl | rfl <;> rfl

theorem freeHandle_partners (tm : TimeBase) (h : Fin 256) (why : LeaveCause) (d : Device) :
    (freeHandle tm h why d).pp.partners = bankUpd d.pp.partners h (Partner.freed tm) := by
  rw [freeHandle_pp]
  cases why <;> rfl

theorem freeHandle_held (tm : TimeBase) (h : Fin 256) (why : LeaveCause) (d : Device) :
    (bankGet (freeHandle tm h why d).pp.partners h).held = false := by
  rw [freeHandle_partners, bankGet_bankUpd_same]
  rfl

theorem freeHandle_partner_other (tm : TimeBase) {h k : Fin 256} (why : LeaveCause) (d : Device) (hk : k ≠ h) :
    bankGet (freeHandle tm h why d).pp.partners k = bankGet d.pp.partners k := by
  rw [freeHandle_partners, bankGet_bankUpd_other _ _ hk.symm]

/-! ### Frames to a handle (R276) -/

theorem bankUpd_congr {n : Nat} {α : Type} {b : Bank n α} {i : Fin n} {f g : α → α} (h : f (bankGet b i) = g (bankGet b i)) :
    bankUpd b i f = bankUpd b i g := congrArg (bankSet b i) h

/-- A handle with another count of refusals. -/
def Partner.refused (n : Byte) (p : Partner) : Partner := { p with refusals := n }

theorem queueFrame_eq (tm : TimeBase) (b : Fin 2) (id : BitVec 29) (payload : List Byte) (start : Option Word) (d : Device) :
    ∃ buses, queueFrame tm b id payload start d = { d with pp := { d.pp with buses := buses } } := ⟨_, rfl⟩

theorem queueFrame_both_eq (tm : TimeBase) (id : BitVec 29) (payload : List Byte) (start : Option Word) (d : Device) :
    ∃ buses, queueFrame tm 1 id payload start (queueFrame tm 0 id payload start d) =
      { d with pp := { d.pp with buses := buses } } := by
  obtain ⟨_, eq⟩ := queueFrame_eq tm 0 id payload start d
  rw [eq]
  exact queueFrame_eq ..

/-- A frame to a handle joins queues, and one that refuses is counted. -/
theorem sendTo_counts (tm : TimeBase) (h : Fin 256) (id : BitVec 29) (payload : List Byte) (start : Option Word) (d : Device) :
    ∃ buses refusals, sendTo tm h id payload start d = { d with pp := { d.pp with
      buses := buses, partners := bankUpd d.pp.partners h (Partner.refused refusals) } } := by
  unfold sendTo
  extract_lets told
  have counts : ∃ refusals, told = d.onPartner h (Partner.refused refusals) := by
    unfold told
    split_ifs
    · refine ⟨(if (bankGet d.pp.partners h).held then (bankGet d.pp.partners h).refusals + 1
        else (bankGet d.pp.partners h).refusals), congrArg (fun ps => { d with pp := { d.pp with partners := ps } })
        (bankUpd_congr ?_)⟩
      unfold Partner.refused
      split_ifs <;> rfl
    · exact ⟨(bankGet d.pp.partners h).refusals, congrArg (fun ps => { d with pp := { d.pp with partners := ps } })
        (bankUpd_eq_self d.pp.partners h rfl).symm⟩
  obtain ⟨refusals, counts⟩ := counts
  rw [counts]
  split_ifs
  · obtain ⟨buses, queued⟩ := queueFrame_both_eq tm id payload start (d.onPartner h (Partner.refused refusals))
    exact ⟨buses, refusals, queued⟩
  · obtain ⟨buses, queued⟩ := queueFrame_eq tm _ id payload start (d.onPartner h (Partner.refused refusals))
    exact ⟨buses, refusals, queued⟩

theorem sendKind_counts (tm : TimeBase) (k : FrameKind) (h : Fin 256) (payload : List Byte) (start : Option Word) (d : Device) :
    ∃ buses refusals, sendKind tm k h payload start d = { d with pp := { d.pp with
      buses := buses, partners := bankUpd d.pp.partners h (Partner.refused refusals) } } := sendTo_counts ..

/-! ### JOIN (R265) -/

/-- What JOIN writes of the holder of a handle: the unit, its nonce and bus, and the lease from now on. -/
structure Partner.Joined (tm : TimeBase) (b : Fin 2) (unit : BitVec 16) (nonce : Word) (p : Partner) : Prop where
  held : p.held = true
  unit : p.unit = unit
  nonce : p.nonce = nonce
  home : p.home = decide (b = 1)
  leaseFrom : p.leaseFrom = tm.time.toNat

theorem joinAck_counts (tm : TimeBase) (h : Fin 256) (d : Device) : ∃ buses refusals, joinAck tm h d = { d with pp := { d.pp with
    buses := buses, partners := bankUpd d.pp.partners h (Partner.refused refusals) } } := sendKind_counts ..

/-- A handle that is given: what JOIN changes of the ports and of the handle. -/
theorem giveHandle_joins (tm : TimeBase) (b : Fin 2) (h : Fin 256) (unit : BitVec 16) (nonce : Word) (d : Device) :
    ∃ p, p.Joined tm b unit nonce ∧ (giveHandle tm b h unit nonce d).pp.partners = bankUpd d.pp.partners h (fun _ => p) ∧
      (giveHandle tm b h unit nonce d).pp.joins = d.pp.joins + 1 ∧
      (giveHandle tm b h unit nonce d).pp.intStatus = setBit d.pp.intStatus 0 ∧
      (giveHandle tm b h unit nonce d).hs = d.hs ∧ (giveHandle tm b h unit nonce d).er = d.er := by
  unfold giveHandle
  extract_lets standing now _ given
  obtain ⟨buses, refusals, told⟩ :=
    joinAck_counts tm h (ppInt 0 { given with pp := { given.pp with joins := given.pp.joins + 1 } })
  rw [told]
  exact ⟨_, ⟨rfl, rfl, rfl, rfl, rfl⟩, bankUpd_bankUpd d.pp.partners h _ _, rfl, rfl, rfl, rfl⟩

/-- A JOIN of a unit that holds no handle and is not listed takes the handle that is free for it (R265 step 6). -/
theorem joinFrame_of_unlisted {tm : TimeBase} {unit : BitVec 16} {rejoin : Bool} {prev h : Fin 256} {d : Device}
    (life : lifecycleRuns d = true) (hr : supRunning tm d = true)
    (new : ∀ k, (bankGet d.pp.partners k).held = true → (bankGet d.pp.partners k).unit ≠ unit)
    (unlisted : listingOf d unit.toNat = none) (free : unlistedHandle tm unit rejoin prev d = some h) (b : Fin 2) (nonce : Word) :
    joinFrame tm b unit nonce rejoin prev 1 d = giveHandle tm b h unit nonce d := by
  have nobody : (bankWhere d.pp.partners fun p => p.held && decide (p.unit = unit)) = [] :=
    List.filter_eq_nil_iff.mpr fun k _ mine => by
      obtain ⟨held, same⟩ := Bool.and_eq_true_iff.mp mine
      exact new k held (of_decide_eq_true same)
  simp [joinFrame, life, hr, nobody, unlisted, free]

/-! ### A frame from the holder (R256, R267) -/

section
variable (b : Fin 2) (d : Device)

theorem counted_eq : ∃ buses draws, counted b d = { d with pp := { d.pp with buses := buses }, draws := draws } := ⟨_, _, rfl⟩

@[simp] theorem counted_partners : (counted b d).pp.partners = d.pp.partners := by
  obtain ⟨_, _, eq⟩ := counted_eq b d; rw [eq]
@[simp] theorem counted_supRunning (tm : TimeBase) : supRunning tm (counted b d) = supRunning tm d := by
  obtain ⟨_, _, eq⟩ := counted_eq b d; rw [eq]; rfl
@[simp] theorem counted_hs : (counted b d).hs = d.hs := by
  obtain ⟨_, _, eq⟩ := counted_eq b d; rw [eq]
@[simp] theorem counted_rails : (counted b d).rails = d.rails := by
  obtain ⟨_, _, eq⟩ := counted_eq b d; rw [eq]
@[simp] theorem counted_er : (counted b d).er = d.er := by
  obtain ⟨_, _, eq⟩ := counted_eq b d; rw [eq]
@[simp] theorem counted_lifecycleRuns : lifecycleRuns (counted b d) = lifecycleRuns d := by
  obtain ⟨_, _, eq⟩ := counted_eq b d; rw [eq]; rfl
@[simp] theorem counted_listingOf (unit : Nat) : listingOf (counted b d) unit = listingOf d unit := by
  obtain ⟨_, _, eq⟩ := counted_eq b d; rw [eq]; rfl
@[simp] theorem counted_unlistedHandle (tm : TimeBase) (unit : BitVec 16) (rejoin : Bool) (prev : Fin 256) :
    unlistedHandle tm unit rejoin prev (counted b d) = unlistedHandle tm unit rejoin prev d := by
  obtain ⟨_, _, eq⟩ := counted_eq b d; rw [eq]; rfl

theorem counted_bus_same : (bankGet (counted b d).pp.buses b).rx = (bankGet d.pp.buses b).rx + 1 ∧
    (bankGet (counted b d).pp.buses b).queue = (bankGet d.pp.buses b).queue := by
  simp only [counted, received, Device.onBus, bankGet_bankUpd_same]
  unfold settleErrors
  split_ifs <;> exact ⟨rfl, rfl⟩

theorem counted_queue (k : Fin 2) : (bankGet (counted b d).pp.buses k).queue = (bankGet d.pp.buses k).queue := by
  by_cases hk : b = k
  · subst hk
    exact (counted_bus_same b d).2
  · simp only [counted, received, Device.onBus, bankGet_bankUpd_other _ _ hk]

end

/-- A holder that has been heard: its home bus and its lease are renewed. -/
def Partner.heard (tm : TimeBase) (b : Fin 2) (p : Partner) : Partner :=
  { p with home := decide (b = 1), lastRx := word tm.us.toNat, leaseFrom := tm.time.toNat, frames := p.frames + 1 }

theorem heard_of_holder {h : Fin 256} {d : Device} {unit : BitVec 16} (held : (bankGet d.pp.partners h).held = true)
    (hu : (bankGet d.pp.partners h).unit = unit) (tm : TimeBase) (b : Fin 2) :
    heard tm b h (some unit) d = (counted b d).onPartner h (Partner.heard tm b) := by
  refine congrArg (fun ps => { counted b d with pp := { (counted b d).pp with partners := ps } }) (bankUpd_congr ?_)
  simp [held, hu, Partner.heard]

theorem heard_leaves (tm : TimeBase) (b : Fin 2) (h : Fin 256) (unit : Option (BitVec 16)) (d : Device) :
    (heard tm b h unit d).pp.leaves = d.pp.leaves := by
  obtain ⟨_, _, _, eq⟩ := heard_eq tm b h unit d; rw [eq]

/-! ### LEAVE and its likes (R267 to R269) -/

/-- LEAVE of the holder while the supervisor runs: LEAVE_ACK goes out, and the handle is freed. -/
theorem leaveFrame_of_holder {tm : TimeBase} {b : Fin 2} {h : Fin 256} {unit : BitVec 16} {d t : Device}
    (ht : heardFrom tm b h (some unit) d = t) (hr : supRunning tm t = true) (held : (bankGet t.pp.partners h).held = true)
    (hu : (bankGet t.pp.partners h).unit = unit) : leaveFrame tm b h unit d =
      freeHandle tm h .leave (sendKind tm .leaveAck h (beBytes 2 unit.toNat ++ [0, 0]) none t) := by
  unfold leaveFrame
  rw [ht]
  simp [hr, held, hu]

theorem keepaliveFrame_of_running {tm : TimeBase} {d : Device} (hr : supRunning tm d = true) (b : Fin 2) (h : Fin 256)
    (unit : BitVec 16) : keepaliveFrame tm b h unit d = heardFrom tm b h (some unit) d := if_pos hr

theorem leaseExpires_of_due {tm : TimeBase} {h : Fin 256} {d : Device} (held : (bankGet d.pp.partners h).held = true)
    (hr : supRunning tm d = true) (hm : d.pwr.mode ≠ .standby)
    (due : msTicks (leaseMs d) ≤ tm.time.toNat - (bankGet d.pp.partners h).leaseFrom) :
    leaseExpires tm h d = freeHandle tm h .expiry d := if_pos ⟨held, hr, hm, due⟩

theorem leaseExpires_of_early {tm : TimeBase} {h : Fin 256} {d : Device}
    (early : tm.time.toNat - (bankGet d.pp.partners h).leaseFrom < msTicks (leaseMs d)) : leaseExpires tm h d = d :=
  if_neg fun ⟨_, _, _, due⟩ => not_le.mpr early due

theorem evictHandle_of_held {h : Fin 256} {d : Device} (held : (bankGet d.pp.partners h).held = true) (tm : TimeBase) :
    evictHandle tm h d = freeHandle tm h .evict d := if_pos held

theorem dropRequests_led (h : Fin 256) (d : Device) (e : Fin 128) : (dropRequests h d).led e = d.led e := rfl

/-- A handle that nobody has claimed when LEASE has passed since the supervisor's start loses its entries (R269). -/
theorem orphansLeave_squashes {tm : TimeBase} {d : Device} {e : Fin 128}
    (due : msTicks (leaseMs d) ≤ tm.time.toNat - d.pp.supStart) (hq : (d.led e).state = .queued)
    (orphan : (bankGet d.pp.partners (d.led e).handle).held = false) : ((orphansLeave tm d).led e).LeftSquashed := by
  unfold orphansLeave
  rw [if_neg (not_lt.mpr due)]
  have isOpen : e ∈ entriesIn d fun s => decide (s ≠ .free) && !s.ended := List.mem_filter.mpr ⟨List.mem_finRange e, by
    change (decide ((d.led e).state ≠ .free) && !(d.led e).state.ended) = true
    rw [hq]
    rfl⟩
  have claimed : (!(bankGet d.pp.partners (d.led e).handle).held && (entriesIn d fun s => decide (s ≠ .free) && !s.ended).any
      fun k => decide ((d.led k).handle = (d.led e).handle)) = true :=
    Bool.and_eq_true_iff.mpr ⟨congrArg (!·) orphan, List.any_eq_true.mpr ⟨e, isOpen, decide_eq_true rfl⟩⟩
  refine foldl_settles (a := (d.led e).handle) (P := fun t : Device => t.led e = d.led e)
    (Q := fun t : Device => (t.led e).LeftSquashed)
    (fun t same => by rw [dropRequests_led, ← same]; exact handleLeaves_squashes (same ▸ hq) tm)
    (fun t k hk same => by rw [dropRequests_led, handleLeaves_led_other (same ▸ hk.symm), same])
    (fun t k ht => by rw [dropRequests_led]; exact handleLeaves_keeps_squashed ht tm k)
    ?_ rfl
  exact List.mem_filter.mpr ⟨List.mem_finRange _, claimed⟩

/-! ### Frames that are discarded (R259) -/

section
variable (d : Device)

theorem discardFrame_pp : (discardFrame d).pp =
    { d.pp with discards := satInc d.pp.discards, intStatus := setBit d.pp.intStatus 8 } := rfl
@[simp] theorem discardFrame_hs : (discardFrame d).hs = d.hs := rfl
@[simp] theorem discardFrame_rails : (discardFrame d).rails = d.rails := rfl
@[simp] theorem discardFrame_er : (discardFrame d).er = d.er := rfl

end

theorem frameDiscarded_of_bad {b : Fin 2} {id : BitVec 29} {payload : List Byte} {d : Device} (listens : busListens d b = true)
    (here : BitVec.ofNat 4 (bits id.toNat 20 17) = d.pp.node) (bad : frameBad id payload = true) :
    frameDiscarded b id payload d = discardFrame (counted b d) := by
  rw [frameDiscarded, here, arrived_of_listens listens, if_pos bad]

/-! ### The rows -/

@[simp] theorem rowEnds_pp (src : Src) (a : Addr) (st : Byte) (d : Device) : (rowEnds src a st d).pp = d.pp := by
  obtain ⟨_, _, _, _, h, -⟩ := rowEnds_sameButAccess src a st d; rw [h]

section
variable {b : Bus} {s : State} (listens : busListens s.dev (busIdx b) = true)
include listens

theorem join_takes {unit : BitVec 16} {jflags prev : BitVec 8} {h : Fin 256} (life : lifecycleRuns s.dev = true)
    (hr : supRunning s.tm s.dev = true)
    (new : ∀ k, (bankGet s.dev.pp.partners k).held = true → (bankGet s.dev.pp.partners k).unit ≠ unit)
    (unlisted : listingOf s.dev unit.toNat = none)
    (free : unlistedHandle s.tm unit (jflags.getLsbD 0) (Fin.ofNat 256 prev.toNat) s.dev = some h) (nonce : BitVec 32) :
    exec (.join b s.dev.pp.node unit nonce jflags prev 1) s =
      .next { s with dev := giveHandle s.tm (busIdx b) h unit nonce (counted (busIdx b) s.dev) } :=
  next_of_listens listens
    (fun tm => joinFrame tm (busIdx b) unit nonce (jflags.getLsbD 0) (Fin.ofNat 256 prev.toNat) 1)
    (joinFrame_of_unlisted (d := counted (busIdx b) s.dev) (by simpa using life) (by simpa using hr) (by simpa using new)
      (by simpa using unlisted) (by simpa using free) (busIdx b) nonce)

section
variable {h : Fin 256} {unit : BitVec 16} (hr : supRunning s.tm s.dev = true)
  (held : (bankGet s.dev.pp.partners h).held = true) (hu : (bankGet s.dev.pp.partners h).unit = unit)
include hr held hu

theorem leave_frees : ∃ d, exec (.leave b s.dev.pp.node h unit) s = .next { s with dev := d } ∧
    (bankGet d.pp.partners h).held = false ∧ d.pp.leaves = s.dev.pp.leaves + 1 ∧
    ∀ k, k ≠ h → bankGet d.pp.partners k = bankGet s.dev.pp.partners k := by
  have left := leaveFrame_of_holder (d := counted (busIdx b) s.dev) (t := heard s.tm (busIdx b) h (some unit) s.dev) rfl
    (by simpa using hr) (by simpa using held) (by simpa using hu)
  obtain ⟨buses, refusals, sent⟩ := sendKind_counts s.tm .leaveAck h (beBytes 2 unit.toNat ++ [0, 0]) none
    (heard s.tm (busIdx b) h (some unit) s.dev)
  rw [sent] at left
  refine ⟨_, next_of_listens listens (fun tm => leaveFrame tm (busIdx b) h unit) left, freeHandle_held .., ?_, fun k hk => ?_⟩
  · rw [freeHandle_leaves _ _ _ (.inl rfl), heard_leaves]
  · exact (freeHandle_partner_other s.tm .leave _ hk).trans
      ((bankGet_bankUpd_other _ _ hk.symm).trans (heard_partner_other _ _ _ _ hk))

theorem keepalive_renews : exec (.keepalive b s.dev.pp.node h unit) s =
    .next { s with dev := (counted (busIdx b) s.dev).onPartner h (Partner.heard s.tm (busIdx b)) } :=
  next_of_listens listens (fun tm => keepaliveFrame tm (busIdx b) h unit)
    ((keepaliveFrame_of_running (d := counted (busIdx b) s.dev) (by simpa using hr) ..).trans (heard_of_holder held hu s.tm (busIdx b)))

end

end

theorem evict_frees {src : Src} {h : Fin 256} {s : State} (hm : may s.dev src .engineer = true) (hr : Reaches src .served s)
    (held : (bankGet s.dev.pp.partners h).held = true) : ∃ d, exec (.evict src h) s = .next { s with dev := d } ∧
      (bankGet d.pp.partners h).held = false ∧ d.pp.leaves = s.dev.pp.leaves + 1 := by
  have row := rowWrite_of_engineer hr hm (wordAt 0x7800 8 h.val 5) 1 fun tm _ => evictHandle tm h
  refine ⟨_, congrArg Host.Outcome.next (row.trans (wrote_eq ..)), ?_⟩
  rw [rowEnds_pp, evictHandle_of_held (by simpa using held)]
  exact ⟨freeHandle_held .., by rw [freeHandle_leaves _ _ _ (.inr rfl), rowStarts_pp]⟩

/-- Settles O32: each frame, timer and command by its row; what frees a handle does so in one way. -/
theorem partnersJoinAndLeave : Obligations.PartnersJoinAndLeave := by
  refine ⟨fun b node unit nonce jflags prev proto s listens hn hp life hr new unlisted h free => ?_,
    fun b node h unit s listens hn hr held hu => hn ▸ leave_frees listens hr held hu,
    fun b node h unit s listens hn hr held hu => ?_,
    fun h s held hr hm => ⟨fun due => ?_, fun early => next_of_dev (leaseExpires_of_early early)⟩,
    fun h s ended => next_of_dev (if_neg (by simp [ended])),
    fun src h s hm hr held => evict_frees hm hr held,
    fun e s due hq orphan => ⟨_, rfl, orphansLeave_squashes due hq orphan⟩,
    fun b id payload s listens here bad => ?_⟩
  · subst hn hp
    obtain ⟨p, joined, partners, joins, int, hs, er⟩ :=
      giveHandle_joins s.tm (busIdx b) h unit nonce (counted (busIdx b) s.dev)
    refine ⟨_, join_takes listens life hr new unlisted free nonce, ?_⟩
    rw [partners, counted_partners, bankGet_bankUpd_same]
    exact ⟨joined.held, joined.unit, joined.nonce, joined.home, joined.leaseFrom,
      fun k hk => bankGet_bankUpd_other _ _ hk.symm, joins, int, hs.trans (counted_hs ..), er.trans (counted_er ..)⟩
  · subst hn
    obtain ⟨rx, queue⟩ := counted_bus_same (busIdx b) s.dev
    exact ⟨_, keepalive_renews listens hr held hu, rfl, rx, queue, by simp, by simp, by simp⟩
  · have freed := freeHandle_pp s.tm h .expiry s.dev
    exact ⟨_, next_of_dev (leaseExpires_of_due held hr hm due), freeHandle_held .., congrArg Ports.expiries freed,
      congrArg Ports.intStatus freed⟩
  · refine ⟨_, next_of_dev (frameDiscarded_of_bad listens here bad), ?_⟩
    rw [discardFrame_pp]
    exact ⟨(counted_bus_same (busIdx b) s.dev).1, rfl, rfl, rfl, counted_queue (busIdx b) s.dev, by simp, by simp, by simp⟩

end Sys2Proof.Machine
end

section
/-! SUPPORT. The room of the event queue (R409): what the recorder's own operations do to it. -/

namespace Sys2Proof.Machine

/-- The queue of a recorder keeps its room: at most four entries of the reserved ones, and at most 60 of the others (R409). -/
def HasRoom (e : Recorder) : Prop :=
  (e.queue.filter (·.spare)).length ≤ 4 ∧ (e.queue.filter fun x => !x.spare).length ≤ 60

theorem eventsBounded_iff {d : Device} : EventsBounded d ↔ HasRoom d.er := Iff.rfl

/-- Entries taken out leave room. -/
theorem HasRoom.of_sublist {e e' : Recorder} (h : HasRoom e) (hq : e'.queue.Sublist e.queue) : HasRoom e' :=
  ⟨(hq.filter _).length_le.trans h.1, (hq.filter _).length_le.trans h.2⟩

/-- Entries changed in place take no more room. -/
theorem HasRoom.of_map {e e' : Recorder} (h : HasRoom e) {f : Event → Event} (hf : ∀ x, (f x).spare = x.spare)
    (hq : e'.queue = e.queue.map f) : HasRoom e' := by
  unfold HasRoom
  rw [hq, List.filter_map, List.filter_map, List.length_map, List.length_map]
  simpa [HasRoom, Function.comp_def, hf] using h

/-- What is not reserved is general. -/
theorem length_general (q : List Event) :
    q.length - (q.filter (·.spare)).length = (q.filter fun x => !x.spare).length := by
  have := List.length_eq_length_filter_add (l := q) (·.spare)
  omega

/-- An entry more, wherever it stands: it is a reserved one of fewer than four, or a general one of fewer than 60. -/
theorem HasRoom.of_entry {e e' : Recorder} (h : HasRoom e) {x : Event} {l r : List Event} (he : e.queue = l ++ r)
    (hq : e'.queue = l ++ x :: r) (room : if x.spare then (e.queue.filter (·.spare)).length < 4 else
      (e.queue.filter fun x => !x.spare).length < 60) : HasRoom e' := by
  unfold HasRoom at h ⊢
  rw [hq]
  cases hx : x.spare <;> simp [hx, he] at room h ⊢ <;> omega

/-- An event takes a free entry, or is dropped (R409, R410). -/
theorem pushEvent_room {tm : TimeBase} {atHead : Bool} {code : Nat} {payload : List Byte} {ref : Option Nat}
    {stamp : Option (BitVec 48 × BitVec 6 × Bool)} {e : Recorder} (h : HasRoom e) :
    HasRoom (pushEvent tm atHead code payload ref stamp e).1 := by
  unfold pushEvent
  extract_lets spares general spare ev place q
  have general_eq : general = (e.queue.filter fun x => !x.spare).length := length_general e.queue
  split
  · next free =>
    have room : if ev.spare then spares < 4 else (e.queue.filter fun x => !x.spare).length < 60 := by
      change if spare then _ else _
      rw [Bool.or_eq_true, decide_eq_true_eq] at free
      split
      · next reserved => exact of_decide_eq_true (Bool.and_eq_true _ _ ▸ reserved).2
      · next other => exact general_eq ▸ free.resolve_left other
    cases atHead with
    | true => exact h.of_entry (List.take_append_drop place e.queue).symm rfl room
    | false => exact h.of_entry (List.append_nil e.queue).symm rfl room
  · exact h

/-- A fold keeps the room that each of its steps keeps. -/
theorem foldl_recorder_room {α : Type} {f : Recorder → α → Recorder} {l : List α} {e : Recorder}
    (hf : ∀ e a, HasRoom e → HasRoom (f e a)) (h : HasRoom e) : HasRoom (l.foldl f e) := foldl_preserves hf l h

theorem foldl_room {α : Type} {f : Device → α → Device} {l : List α} {d : Device}
    (hf : ∀ (d : Device) a, HasRoom d.er → HasRoom (f d a).er) (h : HasRoom d.er) : HasRoom (l.foldl f d).er :=
  foldl_preserves (P := fun d : Device => HasRoom d.er) hf l h

theorem ite_recorder_room {c : Prop} [Decidable c] {a b : Recorder} (ha : HasRoom a) (hb : HasRoom b) :
    HasRoom (if c then a else b) := by
  split
  · exact ha
  · exact hb

theorem ite_room {c : Prop} [Decidable c] {a b : Device} (ha : HasRoom a.er) (hb : HasRoom b.er) :
    HasRoom (if c then a else b).er := by
  split
  · exact ha
  · exact hb

theorem ite_snd_room {α : Type} {c : Prop} [Decidable c] {a b : α × Device} (ha : HasRoom a.2.er) (hb : HasRoom b.2.er) :
    HasRoom (if c then a else b).2.er := by
  split
  · exact ha
  · exact hb

theorem ite_fst_room {α : Type} {c : Prop} [Decidable c] {a b : Device × α} (ha : HasRoom a.1.er) (hb : HasRoom b.1.er) :
    HasRoom (if c then a else b).1.er := by
  split
  · exact ha
  · exact hb

theorem ite_state_room {c : Prop} [Decidable c] {a b : State} (ha : HasRoom a.dev.er) (hb : HasRoom b.dev.er) :
    HasRoom (if c then a else b).dev.er := by
  split
  · exact ha
  · exact hb

theorem ite_middle_room {α β : Type} {c : Prop} [Decidable c] {a b : α × Device × β} (ha : HasRoom a.2.1.er)
    (hb : HasRoom b.2.1.er) :
    HasRoom (if c then a else b).2.1.er := by
  split
  · exact ha
  · exact hb

theorem ite_fst_state_room {α : Type} {c : Prop} [Decidable c] {a b : State × α} (ha : HasRoom a.1.dev.er)
    (hb : HasRoom b.1.dev.er) : HasRoom (if c then a else b).1.dev.er := by
  split
  · exact ha
  · exact hb

theorem ite_answer_room {α : Type} {c : Prop} [Decidable c] {a b : α × State} (ha : HasRoom a.2.dev.er)
    (hb : HasRoom b.2.dev.er) : HasRoom (if c then a else b).2.dev.er := by
  split
  · exact ha
  · exact hb

theorem ite_write_room {c : Prop} [Decidable c] {a b : WordWrite} {s : State} (ha : HasRoom (a s).2.dev.er)
    (hb : HasRoom (b s).2.dev.er) : HasRoom ((if c then a else b) s).2.dev.er := by
  split
  · exact ha
  · exact hb

theorem foldl_snd_room {α β : Type} {f : β × Device → α → β × Device} {l : List α} {x : β × Device}
    (hf : ∀ (x : β × Device) a, HasRoom x.2.er → HasRoom (f x a).2.er) (h : HasRoom x.2.er) : HasRoom (l.foldl f x).2.er :=
  foldl_preserves (P := fun x : β × Device => HasRoom x.2.er) hf l h

theorem foldl_fst_room {α β : Type} {f : Device × β → α → Device × β} {l : List α} {x : Device × β}
    (hf : ∀ (x : Device × β) a, HasRoom x.1.er → HasRoom (f x a).1.er) (h : HasRoom x.1.er) : HasRoom (l.foldl f x).1.er :=
  foldl_preserves (P := fun x : Device × β => HasRoom x.1.er) hf l h

theorem foldl_fst_state_room {α β : Type} {f : State × β → α → State × β} {l : List α} {x : State × β}
    (hf : ∀ (x : State × β) a, HasRoom x.1.dev.er → HasRoom (f x a).1.dev.er) (h : HasRoom x.1.dev.er) :
    HasRoom (l.foldl f x).1.dev.er := foldl_preserves (P := fun x : State × β => HasRoom x.1.dev.er) hf l h

theorem reset_room : HasRoom Recorder.reset := ⟨Nat.zero_le _, Nat.zero_le _⟩

theorem endChain_room {tm : TimeBase} {e : Recorder} {c : Chain} (h : HasRoom e) : HasRoom (endChain tm e c) :=
  ite_recorder_room h (pushEvent_room h)

theorem endChains_room {tm : TimeBase} {e : Recorder} (h : HasRoom e) : HasRoom (endChains tm e) :=
  foldl_recorder_room (fun _ _ h => endChain_room h) h

theorem raiseIn_room {tm : TimeBase} {code : Nat} {payload : List Byte} {e0 : Recorder} (h : HasRoom e0) :
    HasRoom (raiseIn tm code payload e0) := by
  have ended : HasRoom (endChains tm e0) := endChains_room h
  exact ite_recorder_room ended (ite_recorder_room (pushEvent_room ended) (pushEvent_room ended))

theorem resolveSeq_room {id : Nat} {seq : Word} {e : Recorder} (h : HasRoom e) : HasRoom (resolveSeq id seq e) :=
  h.of_map (fun x => by split <;> rfl) rfl

theorem dropOldest_room {tm : TimeBase} {e : Recorder} (h : HasRoom e) : HasRoom (dropOldest tm e) :=
  h.of_sublist (List.drop_sublist 1 e.queue)

/-! ### What a command or a write adds to its own operation -/

section
variable {src : Src} {least : Level} {d : Device} {s : State} {f g : Device → Device}

theorem byLevel_room (room : HasRoom d.er) (hf : ∀ d : Device, HasRoom d.er → HasRoom (f d).er) :
    HasRoom (byLevel src least f d).er := ite_room (hf d room) room

theorem byLevelOr_room (room : HasRoom d.er) (hd : ∀ d : Device, HasRoom d.er → HasRoom (g d).er)
    (hf : ∀ d : Device, HasRoom d.er → HasRoom (f d).er) : HasRoom (byLevelOr src least g f d).er :=
  ite_room (hf d room) (ite_room (hd d room) room)

theorem railCommand_room {r : Fin 64} {pos : Nat} (room : HasRoom d.er) (hf : ∀ d : Device, HasRoom d.er → HasRoom (f d).er) :
    HasRoom (railCommand src least r pos f d).er :=
  byLevelOr_room room (fun _ room => room) fun _ room => ite_room room (hf _ room)

theorem bogCommand_room (room : HasRoom d.er) (hf : ∀ d : Device, HasRoom d.er → HasRoom (f d).er) :
    HasRoom (bogCommand f d).er := ite_room room (hf d room)

theorem imgCommand_room (room : HasRoom d.er) (hf : ∀ d : Device, HasRoom d.er → HasRoom (f d).er) :
    HasRoom (imgCommand src f d).er := ite_room room (ite_room room (ite_room room (hf d room)))

theorem storeCommand_room (room : HasRoom d.er) (hf : ∀ d : Device, HasRoom d.er → HasRoom (f d).er) :
    HasRoom (storeCommand f d).er := ite_room room (ite_room room (hf d room))

theorem fwCommand_room {f : NonVol × Device → NonVol × Device} {x : NonVol × Device} (room : HasRoom x.2.er)
    (hf : ∀ x : NonVol × Device, HasRoom x.2.er → HasRoom (f x).2.er) : HasRoom (fwCommand src f x).2.er :=
  ite_snd_room room (ite_snd_room room (ite_snd_room room (ite_snd_room room (hf _ room))))

theorem powerCommand_room {f : State → State} (room : HasRoom s.dev.er)
    (hf : ∀ s : State, HasRoom s.dev.er → HasRoom (f s).dev.er) : HasRoom (powerCommand src least f s).dev.er :=
  ite_state_room (hf s room) (ite_state_room room room)

theorem erCommand_room {f : State → State} (room : HasRoom s.dev.er)
    (hf : ∀ s : State, HasRoom s.dev.er → HasRoom (f s).dev.er) : HasRoom (erCommand src least f s).dev.er :=
  ite_state_room (ite_state_room room (hf s room)) (ite_state_room room room)

theorem onStores_room {f : NonVol × Device → NonVol × Device} (room : HasRoom s.dev.er)
    (hf : ∀ x : NonVol × Device, HasRoom x.2.er → HasRoom (f x).2.er) : HasRoom (onStores f s).dev.er := hf _ room

theorem arrived_room {b : Fin 2} {node : BitVec 4} (room : HasRoom d.er)
    (hf : ∀ d : Device, HasRoom d.er → HasRoom (f d).er) : HasRoom (arrived b node f d).er :=
  ite_room room (ite_room (hf _ room) room)

theorem writeState_room {ok : Device → Bool} {f : State → State} (room : HasRoom s.dev.er)
    (hf : ∀ s : State, HasRoom s.dev.er → HasRoom (f s).dev.er) : HasRoom (writeState ok f s).2.dev.er :=
  ite_answer_room (hf s room) room

theorem writeFields_room {ok : Device → Bool} (room : HasRoom s.dev.er)
    (hf : ∀ d : Device, HasRoom d.er → HasRoom (f d).er) : HasRoom (writeFields ok f s).2.dev.er :=
  writeState_room room fun _ room => hf _ room

theorem writeCommand_room {ok : Device → Bool} {f : State → State} (room : HasRoom s.dev.er)
    (hf : ∀ s : State, HasRoom s.dev.er → HasRoom (f s).dev.er) : HasRoom (writeCommand ok f s).2.dev.er := hf s room

theorem writeBoth_room {a b : WordWrite} (room : HasRoom s.dev.er) (ha : ∀ s : State, HasRoom s.dev.er → HasRoom (a s).2.dev.er)
    (hb : ∀ s : State, HasRoom s.dev.er → HasRoom (b s).2.dev.er) : HasRoom (writeBoth a b s).2.dev.er := hb _ (ha s room)

theorem writeIf_room {c : Bool} {a : WordWrite} (room : HasRoom s.dev.er)
    (ha : ∀ s : State, HasRoom s.dev.er → HasRoom (a s).2.dev.er) : HasRoom (writeIf c a s).2.dev.er :=
  ite_write_room (ha s room) room

theorem turnedAway_er (p : Port) (d : Device) : (turnedAway p d).er = d.er := by
  unfold turnedAway
  (repeat' split) <;> rfl

theorem wordStarts_er (p : Port) (a : Addr) (write : Bool) (d : Device) : (wordStarts p a write d).er = d.er := by
  cases p <;> rfl

theorem onPort_er (p : Port) (f : PortState → PortState) (d : Device) : (d.onPort p f).er = d.er := rfl

theorem settleAlert_er (d : Device) : (settleAlert d).er = d.er := rfl

theorem rowHangs_er (src : Src) (a : Addr) (w : Word) (s : State) : (rowHangs src a w s).dev.er = s.dev.er := by
  cases src with
  | sup => rfl
  | port p => simp only [rowHangs, State.onDev_dev, settleAlert_er, onPort_er, wordStarts_er]

/-- A write of one word that its source cannot begin leaves the recorder alone. -/
theorem untaken_room (room : HasRoom s.dev.er) : HasRoom (match src with
    | .sup => s
    | .port p => s.onDev (turnedAway p)).dev.er := by
  cases src with
  | sup => exact room
  | port p => exact (turnedAway_er p s.dev).symm ▸ room

/-- A write that is a row of its own: the access itself leaves the recorder alone. -/
theorem rowWrite_room {a : Addr} {w : Word} {win : Window} {f : WordWrite} (room : HasRoom s.dev.er)
    (hf : ∀ s : State, HasRoom s.dev.er → HasRoom (f s).2.dev.er) : HasRoom (rowWrite src a w win f s).dev.er := by
  have started : HasRoom (rowStarts src a s).dev.er := by rwa [rowStarts_er]
  unfold rowWrite
  dsimp only
  split_ifs
  · exact untaken_room room
  · simpa using started
  · exact (rowHangs_er src a w s).symm ▸ room
  · simpa using hf _ started

theorem rowResets_room {a : Addr} {f : WordWrite} (room : HasRoom s.dev.er)
    (hf : ∀ s : State, HasRoom s.dev.er → HasRoom (f s).2.dev.er) : HasRoom (rowResets src a f s).dev.er := by
  have started : HasRoom (rowStarts src a s).dev.er := by rwa [rowStarts_er]
  unfold rowResets
  dsimp only
  split_ifs
  · exact untaken_room room
  · simpa using hf _ started
  · simpa using hf _ started

end

/-! ### Resets and the calendar -/

/-- A reset that is taken empties the queue. -/
theorem resetState_room {kind : ResetKind} {s : State} (room : HasRoom s.dev.er) : HasRoom (resetState kind s).dev.er :=
  ite_snd_room (c := s.dev.sys.step = .held ∧ kind ≠ .cold) room reset_room

/-- Events raised before a TIME_SET keep the time in force, and TIME_SET is raised. -/
theorem timeSet_room {tm : TimeBase} {src : Src} {d : Device} (room : HasRoom d.er) : HasRoom (timeSet tm src d).2.er :=
  pushEvent_room (endChains_room (room.of_map (fun x => by split <;> rfl) rfl))

/-! ### Challenges (R355) -/

theorem takeCtr_er {d : Device} {x : Word × Device} (h : takeCtr d = some x) : x.2.er = d.er := by
  unfold takeCtr at h
  dsimp only at h
  split at h
  · exact absurd h (by simp)
  · obtain rfl := Option.some.inj h
    rfl

theorem showChallenge_room {p : Port} {level : BitVec 2} {d : Device} (room : HasRoom d.er) :
    HasRoom (showChallenge p level d).er := by
  unfold showChallenge
  split
  · exact room
  · next taken => exact takeCtr_er taken ▸ room

theorem showDebugChallenge_room {d : Device} (room : HasRoom d.er) : HasRoom (showDebugChallenge d).er := by
  unfold showDebugChallenge
  split
  · exact room
  · next taken => exact takeCtr_er taken ▸ room

end Sys2Proof.Machine
end

section
/-! SUPPORT. The room of the event queue, function by function: each lemma follows the branches of the definition that it is about,
and the lemmas stand in the order of the model's files. -/

namespace Sys2Proof.Machine

variable {tm : TimeBase} {nv : NonVol} {d : Device} {s : State} {src : Src} {p : Port} {x : NonVol × Device}
  {r n : Fin 64} {g : Fin 512} {e : Recorder} {a : Addr} {w : Word} {b : Fin 2} {h : Fin 256}

/-! ### Events -/

theorem raise_room {code : ℕ} {payload : List Byte} (room : HasRoom d.er) : HasRoom (raise tm code payload d).er :=
  raiseIn_room room

theorem raiseFault_room {kind : ℕ} {source : ℕ} {detail : ℕ} (room : HasRoom d.er) :
    HasRoom (raiseFault tm kind source detail d).er :=
  raise_room room

theorem captureTrigger_room {k : TriggerKind} {index : ℕ} (room : HasRoom d.er) : HasRoom (captureTrigger tm k index d).er := by
  unfold captureTrigger
  refine ite_room ?_ ?_
  · exact room
  · split
    · exact raise_room room
    · exact room
    · exact ite_room room room
    · exact ite_room room room

/-! ### LaneBase -/

theorem setSlot_room {st : SlotState} {why : SlotReason} (room : HasRoom d.er) : HasRoom (setSlot g st why d).er := by
  unfold setSlot
  dsimp only [Device.onLane, ownerLoses, phaseGone, Device.onRail, Device.onSlot]
  with_reducible refine ite_room ?_ ?_
  · with_reducible refine ite_room ?_ ?_
    · split
      · with_reducible exact room
      · with_reducible exact room
    · with_reducible exact room
  · with_reducible refine ite_room ?_ ?_
    · split
      · with_reducible exact room
      · with_reducible exact room
    · with_reducible exact room

theorem sendStop_room (room : HasRoom d.er) : HasRoom (sendStop g d).er := room

/-! ### Access -/

theorem touch_room (room : HasRoom d.er) : HasRoom (touch tm src d).er := by
  unfold touch
  split
  · exact room
  · exact ite_room room room

/-! ### Timebase -/

theorem raiseRing_room {event : ℕ} (room : HasRoom d.er) : HasRoom (raiseRing tm event d).er := raise_room room

theorem syncEdge_room {fine : ℕ} (room : HasRoom d.er) : HasRoom (syncEdge tm fine d).er := by
  unfold syncEdge
  dsimp only
  split
  · with_reducible exact room
  · with_reducible exact room
  · split
    · with_reducible exact room
    · with_reducible exact ite_room room (ite_room room room)
  · split
    · with_reducible refine ite_room ?_ ?_
      · with_reducible exact raiseRing_room room
      · with_reducible refine ite_room ?_ ?_
        · split
          · with_reducible exact ite_room (raiseRing_room room) room
          · with_reducible exact raiseRing_room room
        · with_reducible exact ite_room room room
    · with_reducible refine ite_room ?_ ?_
      · split
        · with_reducible exact ite_room (raiseRing_room room) room
        · with_reducible exact raiseRing_room room
      · with_reducible exact ite_room room room
  · split
    · with_reducible refine ite_room ?_ ?_
      · with_reducible exact raiseRing_room room
      · with_reducible refine ite_room ?_ ?_
        · split
          · with_reducible exact ite_room (raiseRing_room room) room
          · with_reducible exact raiseRing_room room
        · with_reducible exact ite_room room room
    · with_reducible refine ite_room ?_ ?_
      · split
        · with_reducible exact ite_room (raiseRing_room room) room
        · with_reducible exact raiseRing_room room
      · with_reducible exact ite_room room room

theorem syncMissing_room (room : HasRoom d.er) : HasRoom (syncMissing tm d).er := by
  unfold syncMissing
  dsimp only
  split
  · with_reducible exact raiseRing_room room
  · with_reducible exact room
  · with_reducible exact room

theorem recompute_room {written : Option ℕ} (room : HasRoom d.er) : HasRoom (recompute r written d).er :=
  ite_room room (foldl_room (fun _ _ room => room) room)

theorem orderedJoin_room (room : HasRoom d.er) : HasRoom (orderedJoin r g d).er := by
  unfold orderedJoin
  refine ite_room ?_ ?_
  · split
    · exact ite_room room room
    · exact room
  · exact recompute_room room

theorem unplace_room {stopAt : Option ℕ} (room : HasRoom d.er) : HasRoom (unplace g stopAt d).er := ite_room room room

theorem stepWeight_room {k : ℕ} (room : HasRoom d.er) : HasRoom (stepWeight k g d).1.er := by
  unfold stepWeight
  dsimp only [Device.onPhase]
  split
  · with_reducible exact room
  · with_reducible exact ite_fst_room room room
  · with_reducible exact ite_fst_room (unplace_room room) room

theorem stepWeights_room (room : HasRoom d.er) : HasRoom (stepWeights r d).er :=
  foldl_room (fun _ _ room => ite_room (recompute_room (stepWeight_room room)) (stepWeight_room room)) room

theorem settleJoiners_room (room : HasRoom d.er) : HasRoom (settleJoiners r d).er :=
  foldl_room (fun _ _ room => ite_room room (ite_room (stepWeight_room room) room)) room

theorem fixShares_room (room : HasRoom d.er) : HasRoom (fixShares r d).er := by
  unfold fixShares
  split
  · exact room
  · exact foldl_room (fun _ _ room => room) room

theorem buildEdge_room {now : ℕ} (room : HasRoom d.er) : HasRoom (buildEdge now g d).er := by
  unfold buildEdge
  dsimp only [Device.onPhase, sendCell, Device.onLane, enterServing, Device.onSlot, sendCmd, sendStop]
  split
  · with_reducible exact room
  · split
    · with_reducible exact room
    · with_reducible refine ite_room ?_ ?_
      · with_reducible exact room
      · split
        · with_reducible exact room
        · with_reducible refine ite_room ?_ ?_
          · with_reducible exact room
          · with_reducible refine ite_room ?_ ?_
            · split
              · with_reducible exact setSlot_room (ite_room room room)
              · with_reducible exact ite_room room room
            · with_reducible exact room

theorem emitStops_room {now : ℕ} {gs : List (Fin 512)} (room : HasRoom d.er) : HasRoom (emitStops now gs d).er := by
  unfold emitStops
  refine foldl_room (fun _ _ room => ?_) room
  split
  · refine ite_room ?_ ?_
    · refine ite_room ?_ ?_
      · split
        · exact setSlot_room room
        · exact setSlot_room room
      · exact room
    · exact room
  · exact room

/-! ### Engine -/

theorem noteMode_room {before : Device} {after : Device} (room : HasRoom after.er) : HasRoom (noteMode tm r before after).er :=
  ite_room room room

theorem startEval_room {now : ℕ} {slice : Fin 8} (room : HasRoom d.er) : HasRoom (startEval now slice d).er := by
  unfold startEval
  refine ite_room ?_ ?_
  · exact room
  · split
    · exact room
    · split
      · exact room
      · exact room

theorem releaseWaited_room {w : Waited} (room : HasRoom d.er) : HasRoom (releaseWaited w d).er := by
  unfold releaseWaited
  split
  · exact room
  · exact room

theorem releaseAll_room (room : HasRoom d.er) : HasRoom (releaseAll r d).er :=
  foldl_room (fun _ _ room => releaseWaited_room room) room

theorem releaseDue_room {loop : LoopRef} {k : ℕ} (room : HasRoom d.er) : HasRoom (releaseDue loop k d).er :=
  foldl_room (fun _ _ room => releaseWaited_room room) room

theorem releaseOldest_room {loop : LoopRef} (room : HasRoom d.er) : HasRoom (releaseOldest loop d).er := by
  unfold releaseOldest
  split
  · exact room
  · exact releaseWaited_room room

theorem completeEval_room {now : ℕ} {slice : Fin 8} (room : HasRoom d.er) : HasRoom (completeEval now slice d).er := by
  unfold completeEval
  dsimp only [releaseDem, Device.onLoop, runOuter, runInner, Device.onPhase, releaseDuty]
  split
  · with_reducible exact room
  · split
    · split
      · split
        · with_reducible exact room
        · with_reducible exact room
      · split
        · with_reducible exact room
        · with_reducible exact room
    · split
      · with_reducible exact room
      · with_reducible exact room

theorem admitInner_room {b : RailSect} {q : Period} {ma : List ℤ} {mode : EvalMode} (room : HasRoom d.er) :
    HasRoom (admitInner g r b q ma mode d).1.er := by
  unfold admitInner
  dsimp only
  split
  · with_reducible exact room
  · with_reducible exact room

theorem admitOuter_room {b : RailSect} {j : ℕ} {instant : ℕ} {target : ℕ} {v : ℕ} {mode : EvalMode} (room : HasRoom d.er) :
    HasRoom (admitOuter r b j instant target v mode d).1.er := by
  unfold admitOuter
  dsimp only [Device.onLoop]
  split
  · with_reducible exact room
  · with_reducible exact room

/-! ### Tune -/

theorem raiseTune_room {inner : Bool} (room : HasRoom d.er) : HasRoom (raiseTune tm r inner d).er := raise_room room

theorem endTune_room {res : TuneResult} {cycles : List (ℕ × ℤ)} (room : HasRoom d.er) :
    HasRoom (endTune tm res cycles d).er := by
  unfold endTune
  split
  · exact room
  · refine raiseTune_room ?_
    split
    · exact noteMode_room room
    · exact ite_room (noteMode_room room) (ite_room (foldl_room (fun _ _ room => room) (noteMode_room room))
        (noteMode_room room))

theorem endTuneOn_room {res : TuneResult} (room : HasRoom d.er) : HasRoom (endTuneOn tm r res d).er :=
  ite_room (endTune_room room) room

theorem beginTune_room {now : ℕ} {target : ℕ} (room : HasRoom d.er) : HasRoom (beginTune tm now target d).er := by
  unfold beginTune
  split
  · exact room
  · exact ite_room room (noteMode_room (releaseAll_room room))

theorem relayStep_room {now : ℕ} {v : ℕ} (room : HasRoom d.er) : HasRoom (relayStep tm now v d).er := by
  unfold relayStep
  split
  · exact room
  · exact ite_room room (ite_room (endTune_room room) (ite_room (endTune_room room) (ite_room (endTune_room room) (ite_room
      (ite_room (endTune_room room) (foldl_room (fun _ _ room => room) room)) (ite_room (endTune_room room) room)))))

/-! ### RailState -/

theorem countUnwound_room {n : ℕ} (room : HasRoom d.er) : HasRoom (countUnwound r n d).er := ite_room room room

theorem raiseUnwinds_room {unwound : List (Fin 128)} {released : List (Fin 128)} (room : HasRoom d.er) :
    HasRoom (raiseUnwinds tm r unwound released d).er :=
  foldl_room (fun _ _ room => ite_room room (raise_room room)) room

theorem unwindWhere_room {bySection : Bool} {pick : AddRecord → Bool} (room : HasRoom d.er) :
    HasRoom (unwindWhere tm r bySection pick d).er :=
  raiseUnwinds_room (countUnwound_room room)

theorem unwindEntry_room {e : Fin 128} (room : HasRoom d.er) : HasRoom (unwindEntry tm e d).er := by
  unfold unwindEntry
  split
  · exact room
  · exact unwindWhere_room room

theorem unwindRail_room {bySection : Bool} (room : HasRoom d.er) : HasRoom (unwindRail tm r bySection d).er :=
  unwindWhere_room room

theorem releaseRecords_room {pick : AddRecord → Bool} (room : HasRoom d.er) : HasRoom (releaseRecords tm r pick d).er :=
  ite_room room (raiseUnwinds_room (countUnwound_room room))

theorem dropRecords_room {pick : AddRecord → Bool} (room : HasRoom d.er) : HasRoom (dropRecords tm r pick d).er :=
  raiseUnwinds_room (countUnwound_room room)

theorem discardRecords_room (room : HasRoom d.er) : HasRoom (discardRecords tm r d).er := raiseUnwinds_room room

theorem changeState_room {to' : RailState} {cause : RailCause} (room : HasRoom d.er) :
    HasRoom (changeState tm r to' cause d).er := by
  unfold changeState
  refine raise_room ?_
  refine ite_room ?_ ?_
  · split
    · exact noteMode_room room
    · exact noteMode_room room
    · exact noteMode_room room
  · split
    · exact noteMode_room room
    · exact noteMode_room room
    · exact noteMode_room room

theorem emptyPlaced_room {atOnce : Bool} (room : HasRoom d.er) : HasRoom (emptyPlaced atOnce r d).er := by
  unfold emptyPlaced
  dsimp only [sendStop, sendCmd, sendCell, Device.onLane, Device.onPhase]
  with_reducible refine foldl_room (fun _ _ room => ?_) room
  with_reducible refine ite_room ?_ ?_
  · with_reducible refine ite_room ?_ ?_
    · with_reducible exact unplace_room room
    · split
      · with_reducible exact setSlot_room (unplace_room room)
      · with_reducible exact setSlot_room (unplace_room room)
  · with_reducible exact unplace_room room

theorem endCmd_room {res : CmdResult} (room : HasRoom d.er) : HasRoom (endCmd r res d).er := room

theorem raiseRetire_room {pos : ℕ} {op : ℕ} {res : CmdResult} {g : ℕ} (room : HasRoom d.er) :
    HasRoom (raiseRetire tm r pos op res g d).er :=
  raise_room room

theorem discardPending_room (room : HasRoom d.er) : HasRoom (discardPending tm r d).er :=
  foldl_room (fun _ _ room => raiseRetire_room room) (ite_room room room)

theorem leaveRunning_room {atOnce : Bool} {to' : RailState} {cause : RailCause} (room : HasRoom d.er) :
    HasRoom (leaveRunning tm r atOnce to' cause d).er := by
  unfold leaveRunning
  dsimp only [Device.onRail]
  split
  · with_reducible exact discardPending_room (emptyPlaced_room (discardRecords_room (changeState_room (endTuneOn_room room))))
  · with_reducible exact discardPending_room (emptyPlaced_room (discardRecords_room (changeState_room (endTuneOn_room room))))
  · with_reducible exact emptyPlaced_room (discardRecords_room (changeState_room (endTuneOn_room room)))

theorem enterFault_room {cause : RailCause} (room : HasRoom d.er) : HasRoom (enterFault tm r cause d).er :=
  captureTrigger_room (leaveRunning_room room)

theorem leaveTrim_room {now : ℕ} (room : HasRoom d.er) : HasRoom (leaveTrim now d).er := foldl_room (fun _ _ room => room) room

theorem raisePower_room {was : ℕ} {is : ℕ} {cause : ℕ} (room : HasRoom d.er) : HasRoom (raisePower tm was is cause d).er :=
  raise_room room

theorem enterHold_room {cause : RailCause} (room : HasRoom d.er) : HasRoom (enterHold tm r cause d).er := by
  unfold enterHold
  dsimp only [Device.onRail]
  with_reducible exact changeState_room (releaseRecords_room (releaseAll_room (endTuneOn_room (ite_room (raisePower_room
                   (leaveTrim_room room)) room))))

theorem reportEngine_room {cause : RailCause} (room : HasRoom d.er) : HasRoom (reportEngine tm r cause d).er := by
  unfold reportEngine
  split
  · exact enterHold_room room
  · exact enterFault_room room
  · exact enterFault_room room
  · exact room

theorem checkEmpty_room (room : HasRoom d.er) : HasRoom (checkEmpty tm r d).er := ite_room (enterFault_room room) room

theorem immediateLeave_room (room : HasRoom d.er) : HasRoom (immediateLeave tm g d).er := by
  unfold immediateLeave
  dsimp only [Device.onRail]
  split
  · with_reducible exact unplace_room room
  · with_reducible exact ite_room room (checkEmpty_room (dropRecords_room (unplace_room (endTuneOn_room room))))

theorem loseSlot_room {why : SlotReason} (room : HasRoom d.er) : HasRoom (loseSlot tm g why d).er :=
  immediateLeave_room (setSlot_room room)

theorem startRail_room (room : HasRoom d.er) : HasRoom (startRail tm r d).1.er :=
  ite_fst_room room (ite_fst_room room (ite_fst_room room (foldl_room (fun _ _ room => room) room)))

theorem endMeasurement_room (room : HasRoom d.er) : HasRoom (endMeasurement r d).er := by
  unfold endMeasurement
  dsimp only [endCmd, Device.onRail, Device.onLoop]
  split
  · with_reducible exact ite_room (ite_room room room) (ite_room (ite_room room room) (ite_room room room))
  · with_reducible exact room

/-! ### Boundary -/

theorem warmPhases_room {e : Fin 128} {s : ℕ} {k : ℕ} (room : HasRoom d.er) : HasRoom (warmPhases tm r e s k d).er :=
  ite_room room room

theorem warmStart_room {e : Fin 128} (room : HasRoom d.er) : HasRoom (warmStart tm e d).er := by
  unfold warmStart
  dsimp only
  split
  · with_reducible exact ite_room room (ite_room room (warmPhases_room room))
  · with_reducible exact room

theorem rewarm_room {e : Fin 128} (room : HasRoom d.er) : HasRoom (rewarm tm e d).er := by
  unfold rewarm
  dsimp only
  split
  · with_reducible exact ite_room room (ite_room (unwindWhere_room room) (ite_room (warmPhases_room room) room))
  · with_reducible exact room

theorem releaseEnded_room (room : HasRoom d.er) : HasRoom (releaseEnded tm r d).er :=
  foldl_room (fun _ _ room => releaseRecords_room room) room

theorem joinDue_room {gs : List (Fin 512)} (room : HasRoom d.er) : HasRoom (joinDue tm r gs d).er := by
  induction gs generalizing d with
  | nil => exact room
  | cons g gs ih =>
    unfold joinDue
    refine ite_room ?_ (ih (dropRecords_room room))
    exact orderedJoin_room (endTuneOn_room room)

theorem kindlingBoundary_room (room : HasRoom d.er) : HasRoom (kindlingBoundary tm r d).er := by
  unfold kindlingBoundary
  split
  · exact endTuneOn_room room
  · exact joinDue_room room

theorem joinUntil_room {ok : List (Fin 512) → Device → Bool} {gs js : List (Fin 512)} (room : HasRoom d.er) :
    HasRoom (joinUntil ok r gs js d).1.er := by
  induction gs generalizing js d with
  | nil => exact room
  | cons g gs ih => exact ite_fst_room room (ih (orderedJoin_room room))

theorem finishRetire_room {t : Retiring} (room : HasRoom d.er) : HasRoom (finishRetire tm r t d).er :=
  raiseRetire_room (ite_room room (setSlot_room room))

theorem retireBoundary_room {t : Retiring} (room : HasRoom d.er) : HasRoom (retireBoundary tm r t d).er := by
  unfold retireBoundary
  dsimp only [markLeaving, Device.onPhase, Device.onRail, orderedLeave, endCmd]
  with_reducible exact ite_room room (ite_room (ite_room room (finishRetire_room room)) (ite_room (endTuneOn_room
                   (joinUntil_room room)) (raiseRetire_room (ite_room (joinUntil_room room) (endTuneOn_room
                   (joinUntil_room room))))))

theorem quadrantBoundary_room (room : HasRoom d.er) : HasRoom (quadrantBoundary tm r d).er := by
  unfold quadrantBoundary
  refine ite_room ?_ ?_
  · exact room
  · refine ite_room ?_ ?_
    · exact foldl_room (fun _ _ room => room) (joinUntil_room (endTuneOn_room room))
    · split
      · exact enterHold_room (foldl_room (fun _ _ room => room) (joinUntil_room (endTuneOn_room room)))
      · exact foldl_room (fun _ _ room => room) (joinUntil_room (endTuneOn_room room))

theorem shed_room {sect : RailSect} {x : Rail} {weight hi i : Nat} (room : HasRoom d.er) :
    HasRoom (shedAdd.shed tm r sect x weight hi i d).er := by
  unfold shedAdd.shed
  dsimp only
  refine ite_room ?_ room
  split
  · exact ite_room (endTuneOn_room room) room
  · exact room

theorem shedAdd_room {sect : RailSect} (room : HasRoom d.er) : HasRoom (shedAdd tm r sect d).er := by
  unfold shedAdd
  refine ite_room room ?_
  extract_lets x weight hi free count i
  refine ite_room ?_ ?_
  · exact foldl_room (fun _ _ room => orderedJoin_room room) room
  · clear_value free
    cases free with
    | nil => exact shed_room room
    | cons g gs => exact ite_room (orderedJoin_room room) (shed_room room)

theorem outerRules_room {b : RailSect} {v : Option ℕ} (room : HasRoom d.er) : HasRoom (outerRules tm r b v d).er := by
  unfold outerRules
  dsimp only [Device.onRail]
  split
  · with_reducible exact ite_room (changeState_room room) room
  · split
    · with_reducible exact room
    · with_reducible exact ite_room room (ite_room (changeState_room room) room)
  · with_reducible exact ite_room (enterHold_room room) (ite_room (enterHold_room room) room)
  · split
    · with_reducible exact room
    · with_reducible exact ite_room (changeState_room room) room
  · with_reducible exact room

theorem formVoltages_room {b : RailSect} {vs : Bank 8 (ℕ × ℕ)} {j : ℕ} {instant : ℕ} (room : HasRoom d.er) :
    HasRoom (formVoltages r b vs j instant d).1.er := by
  unfold formVoltages
  dsimp only [Device.onLoop]
  split
  · with_reducible exact room
  · with_reducible exact room

theorem rulesAndReport_room {b : RailSect} {v : Option ℕ} {report : Option RailCause} (room : HasRoom d.er) :
    HasRoom (rulesAndReport tm r b v report d).er := by
  unfold rulesAndReport
  dsimp only
  split
  · split
    · with_reducible exact reportEngine_room (outerRules_room room)
    · with_reducible exact outerRules_room room
  · with_reducible refine outerRules_room ?_
    split
    · with_reducible exact reportEngine_room room
    · with_reducible exact room

theorem outerInstant_room {b : RailSect} {vs : Bank 8 (ℕ × ℕ)} {j : ℕ} {instant : ℕ} (room : HasRoom d.er) :
    HasRoom (outerInstant tm r b vs j instant d).er := by
  unfold outerInstant
  dsimp only [countStale, Device.onLoop, countOverrun]
  split
  · with_reducible exact room
  · split
    · with_reducible exact rulesAndReport_room (formVoltages_room room)
    · with_reducible exact ite_room (rulesAndReport_room (ite_room (formVoltages_room room) (relayStep_room
                       (formVoltages_room room)))) (ite_room (rulesAndReport_room (admitOuter_room (formVoltages_room room)))
                       (rulesAndReport_room (admitOuter_room (formVoltages_room room))))

theorem beginTuneOn_room {inner : Bool} {now : ℕ} (room : HasRoom d.er) : HasRoom (beginTuneOn tm r inner now d).er := by
  unfold beginTuneOn
  split
  · exact ite_room (beginTune_room room) room
  · exact room

theorem beginPrecharge_room {b : RailSect} {s : StartReady} (room : HasRoom d.er) : HasRoom (beginPrecharge tm r b s d).er :=
  foldl_room (fun _ _ room => orderedJoin_room room) (changeState_room room)

theorem boundaryDecisions_room {b : RailSect} (room : HasRoom d.er) : HasRoom (boundaryDecisions tm r b d).er := by
  unfold boundaryDecisions
  extract_lets d1 d2 d3 d4 d5 d6 t
  have room1 : HasRoom d1.er := foldl_room (fun _ _ room => retireBoundary_room room) room
  clear_value d1
  have room2 : HasRoom d2.er := foldl_room (fun _ _ room => ite_room room room) room1
  clear_value d2
  have room3 : HasRoom d3.er := quadrantBoundary_room room2
  clear_value d3
  have room4 : HasRoom d4.er := by
    unfold d4
    split
    · exact ite_room (beginPrecharge_room room3) room3
    · exact room3
  clear_value d4
  have room5 : HasRoom d5.er := releaseEnded_room room4
  clear_value d5
  have room6 : HasRoom d6.er := ite_room (kindlingBoundary_room room5) room5
  clear_value d6
  split
  · exact recompute_room room6
  · exact room6

theorem presetCleared_room {b : RailSect} (room : HasRoom d.er) : HasRoom (presetCleared r b d).er :=
  ite_room room (foldl_room (fun _ _ room => room) room)

theorem railBoundary_room {b : RailSect} {vs : Bank 8 (Nat × Nat)} (room : HasRoom d.er) :
    HasRoom (railBoundary tm r b vs d).er := by
  unfold railBoundary
  extract_lets c d1 d2 t _ d3 outer d4 d5 d6 d7 d8 d9 d10 d11 d12 d13
  have room1 : HasRoom d1.er := room
  clear_value d1
  have room2 : HasRoom d2.er := releaseDue_room room1
  clear_value d2
  have room3 : HasRoom d3.er := ite_room (recompute_room room2) room2
  clear_value d3
  have room4 : HasRoom d4.er := boundaryDecisions_room room3
  clear_value d4
  have room5 : HasRoom d5.er := by
    refine ite_room ?_ room4
    split
    · exact shedAdd_room room4
    · exact shedAdd_room room4
    · exact room4
  clear_value d5
  have room8 : HasRoom d8.er := fixShares_room (settleJoiners_room (stepWeights_room room5))
  clear_value d8
  have room9 : HasRoom d9.er := foldl_room (fun _ _ room => room) (presetCleared_room room8)
  clear_value d9
  have room10 : HasRoom d10.er := checkEmpty_room room9
  clear_value d10
  have room11 : HasRoom d11.er := beginTuneOn_room (ite_room (beginTuneOn_room room10) room10)
  clear_value d11
  have room12 : HasRoom d12.er := ite_room (outerInstant_room room11) room11
  clear_value d12
  have room13 : HasRoom d13.er := by
    unfold d13
    split
    · exact ite_room (relayStep_room room12) room12
    · exact room12
  clear_value d13
  exact foldl_room (fun _ _ room => finishRetire_room room) (emitStops_room room13)

/-! ### Protect -/

theorem loadProtect_room (room : HasRoom d.er) : HasRoom (loadProtect d).er := ite_room room room

theorem actOnRail_room {a : ℕ} (room : HasRoom d.er) : HasRoom (actOnRail tm r a d).er :=
  ite_room room (ite_room (captureTrigger_room (leaveRunning_room room)) (ite_room (enterFault_room room) room))

theorem stopPhase_room (room : HasRoom d.er) : HasRoom (stopPhase tm g d).er :=
  ite_room (immediateLeave_room room) (ite_room (immediateLeave_room room) (ite_room (setSlot_room (immediateLeave_room room))
      (immediateLeave_room room)))

theorem tripPhase_room (room : HasRoom d.er) : HasRoom (tripPhase tm g d).er := by
  unfold tripPhase
  refine stopPhase_room ?_
  split
  · exact endTuneOn_room room
  · exact room

theorem fireEntry_room {i : ℕ} {e : ProtEntry} (room : HasRoom d.er) : HasRoom (fireEntry tm i e d).er :=
  ite_room (raise_room room) (captureTrigger_room (raise_room room))

theorem fireAll_room {fired : List (ℕ × ProtEntry)} (room : HasRoom d.er) : HasRoom (fireAll tm fired d).er := by
  unfold fireAll
  split
  · exact room
  · exact foldl_room (fun _ _ room => tripPhase_room room) (foldl_room (fun _ _ room => actOnRail_room room) (foldl_room
      (fun _ _ room => fireEntry_room room) room))

theorem updateSources_room {f : ProtEntry → ProtSt → ProtSt} (room : HasRoom d.er) : HasRoom (updateSources tm f d).er :=
  fireAll_room room

theorem vsenseSources_room {n : Fin 8} {code : BitVec 16} (room : HasRoom d.er) : HasRoom (vsenseSources tm n code d).er :=
  updateSources_room room

theorem measSources_room {v : ℕ} (room : HasRoom d.er) : HasRoom (measSources tm g v d).er := by
  unfold measSources
  split
  · exact room
  · split
    · exact room
    · exact ite_room (updateSources_room room) room

theorem sampleSources_room {f : Bool} {ma : Option (List ℤ)} (room : HasRoom d.er) : HasRoom (sampleSources tm g f ma d).er :=
  updateSources_room room

theorem laneSource_room {lost : Bool} (room : HasRoom d.er) : HasRoom (laneSource tm n lost d).er := updateSources_room room

/-! ### Store -/

theorem setReadonly_room {r : Fin 11} (room : HasRoom d.er) : HasRoom (setReadonly tm r d).er :=
  ite_room room (raise_room (ite_recorder_room room (ite_recorder_room room room)))

theorem wearOut_room {p : Fin 128} (room : HasRoom d.er) : HasRoom (wearOut tm nv p d).2.er := by
  unfold wearOut
  dsimp only
  with_reducible refine ite_snd_room ?_ ?_
  · with_reducible exact room
  · split
    · with_reducible exact raise_room room
    · split
      · with_reducible exact raise_room (raise_room room)
      · with_reducible refine ite_snd_room ?_ ?_
        · split
          · split
            · with_reducible exact raise_room (raiseIn_room (raise_room room))
            · with_reducible exact setReadonly_room (raise_room room)
          · with_reducible exact setReadonly_room (raise_room room)
        · with_reducible exact setReadonly_room (raise_room room)

theorem storePump_room (room : HasRoom d.er) : HasRoom (storePump nv d).er := by
  unfold storePump
  refine ite_room ?_ ?_
  · exact room
  · split
    · exact room
    · exact ite_room room (ite_room room room)

theorem programFailed_room {j : Job} {c : ChunkProg} (room : HasRoom d.er) : HasRoom (programFailed tm nv j c d).2.1.er :=
  ite_middle_room (wearOut_room room) room

theorem chunkEnd_room {verified : Bool} (room : HasRoom d.er) : HasRoom (chunkEnd tm verified nv d).2.1.er := by
  unfold chunkEnd
  dsimp only [refreshCounters]
  split
  · with_reducible exact room
  · split
    · with_reducible exact room
    · with_reducible refine ite_middle_room ?_ ?_
      · split
        · with_reducible exact room
        · with_reducible exact room
      · with_reducible exact ite_middle_room (programFailed_room room) (programFailed_room room)

theorem sectorReady_room {p : Fin 128} (room : HasRoom d.er) : HasRoom (sectorReady p d).er := by
  unfold sectorReady
  split
  · exact room
  · exact ite_room room room

theorem wornErase_room {p : Fin 128} (room : HasRoom d.er) : HasRoom (wornErase tm nv p d).2.er := by
  unfold wornErase
  dsimp only
  split
  · with_reducible exact ite_room (wearOut_room room) (sectorReady_room (wearOut_room room))
  · with_reducible exact wearOut_room room

theorem eraseEnd_room {verified : Bool} (room : HasRoom d.er) : HasRoom (eraseEnd tm verified nv d).2.1.er := by
  unfold eraseEnd
  dsimp only
  split
  · with_reducible exact room
  · split
    · with_reducible refine ite_middle_room ?_ ?_
      · split
        · with_reducible exact ite_snd_room (wornErase_room room) room
        · with_reducible exact ite_snd_room (wornErase_room room) room
      · with_reducible refine ite_middle_room ?_ ?_
        · split
          · with_reducible exact ite_middle_room (wornErase_room room) (wornErase_room room)
          · with_reducible exact wornErase_room room
        · with_reducible exact room
    · with_reducible exact room

/-! ### Housekeep -/

theorem setIlim_room (room : HasRoom d.er) : HasRoom (setIlim r d).er := by
  unfold setIlim
  split
  · exact room
  · exact room

theorem reportExhausted_room {e : Bool} (room : HasRoom d.er) : HasRoom (reportExhausted tm r e d).er := ite_room room room

theorem throttleRails_room (room : HasRoom d.er) : HasRoom (throttleRails tm d).er :=
  foldl_room (fun _ _ room => reportExhausted_room (setIlim_room room)) room

theorem enterShutdown_room {cause : ℕ} {index : ℕ} {temp : BitVec 16} (room : HasRoom d.er) :
    HasRoom (enterShutdown tm cause index temp nv d).2.er := by
  unfold enterShutdown
  dsimp only [stopErase]
  with_reducible exact foldl_room (fun _ _ room => actOnRail_room room) (captureTrigger_room room)

theorem raiseWindow_room {opened : Bool} (room : HasRoom d.er) : HasRoom (raiseWindow tm opened d).er := raise_room room

theorem closeWindow_room (room : HasRoom d.er) : HasRoom (closeWindow tm nv d).2.er := ite_snd_room room (raiseWindow_room room)

theorem openWindow_room (room : HasRoom d.er) : HasRoom (openWindow tm nv d).er :=
  ite_room room (storePump_room (raiseWindow_room room))

theorem dieSample_room {temps : Vector (Option (BitVec 16)) 8} (room : HasRoom d.er) :
    HasRoom (dieSample tm temps nv d).2.er := by
  unfold dieSample
  dsimp only
  split
  · with_reducible exact ite_snd_room (ite_snd_room (closeWindow_room room) (ite_snd_room (openWindow_room room) room))
                     (enterShutdown_room (ite_snd_room (closeWindow_room room) (ite_snd_room (openWindow_room room) room)))
  · with_reducible exact ite_snd_room (closeWindow_room room) (ite_snd_room (openWindow_room room) room)

theorem windowOpens_room (room : HasRoom d.er) : HasRoom (windowOpens tm nv d).er := by
  unfold windowOpens
  split
  · exact ite_room (openWindow_room room) room
  · exact room

theorem channelEvents_room {c : Fin 96} {old new : Channel} (room : HasRoom d.er) :
    HasRoom (channelEvents tm c old new d).er := by
  unfold channelEvents
  extract_lets mark d1 flag
  have marked {b : Bool} {i : Nat} {d : Device} (room : HasRoom d.er) : HasRoom (mark b i d).er := ite_room room room
  have flagged {was is : Bool} {n : Nat} {d : Device} (room : HasRoom d.er) : HasRoom (flag was is n d).er :=
    ite_room room (marked (raise_room room))
  have room1 : HasRoom d1.er := ite_room room (marked (raise_room room))
  exact flagged (flagged (flagged room1))

theorem exhaustedEvents_room {old : Bank 64 Throttle} (room : HasRoom d.er) : HasRoom (exhaustedEvents tm old d).er :=
  foldl_room (fun _ _ room => ite_room room (ite_room (raise_room room) (raise_room room))) room

theorem roundEnd_room (room : HasRoom d.er) : HasRoom (roundEnd tm nv d).2.er := by
  unfold roundEnd
  refine ite_snd_room ?_ ?_
  · exact room
  · refine storePump_room ?_
    refine ite_room ?_ ?_
    · refine raise_room ?_
      refine exhaustedEvents_room ?_
      refine foldl_room (fun _ _ room => channelEvents_room room) ?_
      refine throttleRails_room ?_
      refine ite_room ?_ ?_
      · split
        · exact ite_snd_room (updateSources_room room) (enterShutdown_room (updateSources_room room))
        · exact updateSources_room room
      · split
        · exact ite_snd_room (updateSources_room room) (enterShutdown_room (updateSources_room room))
        · exact updateSources_room room
    · refine exhaustedEvents_room ?_
      refine foldl_room (fun _ _ room => channelEvents_room room) ?_
      refine throttleRails_room ?_
      refine ite_room ?_ ?_
      · split
        · exact ite_snd_room (updateSources_room room) (enterShutdown_room (updateSources_room room))
        · exact updateSources_room room
      · split
        · exact ite_snd_room (updateSources_room room) (enterShutdown_room (updateSources_room room))
        · exact updateSources_room room

theorem housekeepingBias_room (room : HasRoom d.er) : HasRoom (housekeepingBias tm d).er :=
  foldl_room (fun _ _ room => ite_room room room) room

/-! ### Lane -/

theorem checkSlot_room {accepts : Bool} (room : HasRoom d.er) : HasRoom (checkSlot accepts g d).er := by
  unfold checkSlot
  split
  · exact setSlot_room room
  · exact ite_room (setSlot_room room) (setSlot_room room)

theorem admitFound_room (room : HasRoom d.er) : HasRoom (admitFound tm d).er :=
  foldl_room (fun _ _ room => ite_room (checkSlot_room room) room) room

theorem sendConfig_room {i : Fin 3} (room : HasRoom d.er) : HasRoom (sendConfig tm i g d).er := by
  unfold sendConfig
  split
  · exact room
  · exact room
  · exact room

theorem startCalibration_room (room : HasRoom d.er) : HasRoom (startCalibration tm nv g d).er :=
  ite_room (sendConfig_room room) room

theorem endCalibration_room {ok : Bool} (room : HasRoom d.er) : HasRoom (endCalibration g ok d).er :=
  ite_room (setSlot_room room) (setSlot_room room)

theorem calPeriod_room {samples : Option (List ℤ)} (room : HasRoom d.er) : HasRoom (calPeriod tm g samples d).er := by
  unfold calPeriod
  split
  · exact ite_room (endCalibration_room room) (ite_room (endCalibration_room room) room)
  · exact room

theorem reply_room {addr : Byte} {tag : Byte} {data : BitVec 16} {result : Byte} (room : HasRoom d.er) :
    HasRoom (reply tm g addr tag data result d).er := by
  unfold reply
  dsimp only [Device.onSlot, sendRead, sendCell, Device.onLane, slotFound, sendNoPulse, sendCmd]
  with_reducible refine ite_room ?_ ?_
  · with_reducible exact room
  · split
    · with_reducible exact ite_room room (ite_room (setSlot_room room) (ite_room room (ite_room (checkSlot_room
                       (setSlot_room room)) (setSlot_room room))))
    · with_reducible refine ite_room ?_ ?_
      · with_reducible exact room
      · with_reducible refine ite_room ?_ ?_
        · with_reducible exact setSlot_room room
        · split
          · with_reducible exact sendConfig_room room
          · with_reducible exact sendConfig_room room
          · with_reducible exact room
    · with_reducible exact room

theorem replyTimeout_room (room : HasRoom d.er) : HasRoom (replyTimeout tm g d).er := by
  unfold replyTimeout
  dsimp only [Device.onSlot]
  split
  · with_reducible exact ite_room (setSlot_room room) room
  · with_reducible exact ite_room (setSlot_room room) room
  · with_reducible exact room

theorem admitSlot_room (room : HasRoom d.er) : HasRoom (admitSlot g d).er := by
  unfold admitSlot
  split
  · exact checkSlot_room room
  · exact checkSlot_room room
  · exact checkSlot_room room
  · exact room

theorem refuseSlot_room (room : HasRoom d.er) : HasRoom (refuseSlot g d).er := by
  unfold refuseSlot
  split
  · exact setSlot_room room
  · exact setSlot_room room
  · exact room

theorem recalSlot_room (room : HasRoom d.er) : HasRoom (recalSlot tm g d).er :=
  ite_room (sendConfig_room (setSlot_room room)) room

theorem saveCalibration_room (room : HasRoom d.er) : HasRoom (saveCalibration nv g d).er := ite_room room (storePump_room room)

theorem sampleToEngine_room {q : Period} {exact : Bool} {ma : List ℤ} (room : HasRoom d.er) :
    HasRoom (sampleToEngine tm g q exact ma d).er := by
  unfold sampleToEngine
  dsimp only [Device.onLoop, Device.onPhase, countOverrun]
  with_reducible refine ite_room ?_ ?_
  · with_reducible exact room
  · split
    · with_reducible exact room
    · split
      · with_reducible exact room
      · with_reducible exact ite_room room (ite_room room (ite_room (admitInner_room room) (ite_room (reportEngine_room
                         (admitInner_room room)) (admitInner_room room))))

theorem deliverSamples_room {slot : Fin 8} {f : Bool} {late : Bool} {sat : Bool} {samples : List ℤ} (room : HasRoom d.er) :
    HasRoom (deliverSamples tm n slot f late sat samples d).er := by
  unfold deliverSamples
  dsimp only [Device.onSlot, Device.onLane, Device.onPhase]
  with_reducible refine ite_room ?_ ?_
  · with_reducible exact room
  · split
    · with_reducible exact calPeriod_room (sampleSources_room (ite_room room room))
    · split
      · with_reducible exact sampleSources_room (ite_room room room)
      · with_reducible exact sampleToEngine_room (sampleSources_room (ite_room room room))

theorem missSample_room (room : HasRoom d.er) : HasRoom (missSample tm g d).er := by
  unfold missSample
  extract_lets d1 broken d2
  have room1 : HasRoom d1.er := room
  clear_value d1
  split
  · exact calPeriod_room room1
  · have room2 : HasRoom d2.er := by
      unfold d2
      split
      · exact ite_room room1 room1
      · exact room1
    exact ite_room room1 (ite_room (sendStop_room (loseSlot_room room2)) (ite_room room2 room2))

theorem takeMeas_room {slot : Fin 8} {vout : BitVec 16} {vin : BitVec 16} {temp : BitVec 16} (room : HasRoom d.er) :
    HasRoom (takeMeas tm n slot vout vin temp d).er := by
  unfold takeMeas
  refine ite_room ?_ ?_
  · exact room
  · refine measSources_room ?_
    split
    · exact room
    · exact room

theorem startRetrain_room (room : HasRoom d.er) : HasRoom (startRetrain tm n d).er := by
  unfold startRetrain
  refine ite_room ?_ ?_
  · exact room
  · refine foldl_room (fun _ _ room => ?_) room
    split
    · exact room
    · exact room
    · exact room
    · exact loseSlot_room room

theorem causeRetrain_room (room : HasRoom d.er) : HasRoom (causeRetrain tm n d).er := ite_room room (startRetrain_room room)

theorem slotRemoved_room (room : HasRoom d.er) : HasRoom (slotRemoved tm g d).er := by
  unfold slotRemoved
  split
  · exact room
  · exact setSlot_room (loseSlot_room room)
  · exact setSlot_room (loseSlot_room room)
  · exact setSlot_room room

theorem setFitted_room {mask : BitVec 8} (room : HasRoom d.er) : HasRoom (setFitted tm n mask d).er :=
  ite_room room (foldl_room (fun _ _ room => ite_room (slotRemoved_room room) (ite_room room room)) room)

theorem slotHalted_room {fault : Byte} (room : HasRoom d.er) : HasRoom (slotHalted tm g fault d).er :=
  ite_room room (ite_room room (loseSlot_room room))

theorem takeStatus_room {slot : Fin 8} {modslots : Byte} {dnCrc : Byte} {late : Byte} {fault : Byte} {st : Byte}
    (room : HasRoom d.er) :
    HasRoom (takeStatus tm n slot modslots dnCrc late fault st d).er :=
  ite_room room (ite_room (causeRetrain_room (ite_room (slotHalted_room (setFitted_room room)) (setFitted_room room)))
      (ite_room (slotHalted_room (setFitted_room room)) (setFitted_room room)))

theorem upstreamLost_room {symbols : Byte} (room : HasRoom d.er) : HasRoom (upstreamLost tm n symbols d).er := by
  unfold upstreamLost
  split
  · exact room
  · exact causeRetrain_room room

theorem cellError_room {symbols : Byte} (room : HasRoom d.er) : HasRoom (cellError tm n symbols d).er := by
  unfold cellError
  split
  · exact room
  · exact ite_room (causeRetrain_room room) room

theorem startTraining_room (room : HasRoom d.er) : HasRoom (startTraining tm n d).er := ite_room room room

theorem upstreamLock_room (room : HasRoom d.er) : HasRoom (upstreamLock tm n d).er := by
  unfold upstreamLock
  dsimp only [sendEcho, sendCell, Device.onLane]
  split
  · with_reducible exact ite_room (startTraining_room room) (startTraining_room room)
  · with_reducible exact startTraining_room room

theorem laneLoss_room (room : HasRoom d.er) : HasRoom (laneLoss tm n d).er := laneSource_room (raise_room room)

theorem retrainFails_room (room : HasRoom d.er) : HasRoom (retrainFails tm n d).er := ite_room (laneLoss_room room) room

theorem attemptFails_room (room : HasRoom d.er) : HasRoom (attemptFails tm n d).er := by
  unfold attemptFails
  split
  · exact room
  · exact retrainFails_room room
  · exact room

theorem trainingTimeout_room (room : HasRoom d.er) : HasRoom (trainingTimeout tm n d).er := by
  unfold trainingTimeout
  split
  · exact ite_room (attemptFails_room room) room
  · exact room

theorem echoReply_room {tag : Byte} {turn : BitVec 16} {rtd : BitVec 16} (room : HasRoom d.er) :
    HasRoom (echoReply tm n tag turn rtd d).er := by
  unfold echoReply
  split
  · exact room
  · exact ite_room room (ite_room room (ite_room (attemptFails_room room) (foldl_room (fun _ _ room => room) room)))

theorem enterUp_room (room : HasRoom d.er) : HasRoom (enterUp tm n d).er := laneSource_room room

theorem discoverFitted_room {mask : BitVec 8} {pick : Slot → Bool} (room : HasRoom d.er) :
    HasRoom (discoverFitted tm n mask pick d).er :=
  foldl_room (fun _ _ room => ite_room (slotRemoved_room room) (ite_room room room)) room

theorem trainingEnds_room {i : ModIdent} (room : HasRoom d.er) : HasRoom (trainingEnds tm n i d).er := by
  unfold trainingEnds
  split
  · exact ite_room room (discoverFitted_room (enterUp_room room))
  · exact room

theorem returnSlot_room (room : HasRoom d.er) : HasRoom (returnSlot g d).er := ite_room (setSlot_room room) room

theorem retrainEnds_room {res : Option ModIdent} (room : HasRoom d.er) : HasRoom (retrainEnds tm n res d).er := by
  unfold retrainEnds
  dsimp only [takeIdentity, Device.onLane, Device.onSlot]
  split
  · with_reducible exact retrainFails_room room
  · with_reducible exact ite_room room (ite_room (setFitted_room (foldl_room (fun _ _ room => returnSlot_room room)
                     (enterUp_room room))) (discoverFitted_room (foldl_room (fun _ _ room => ite_room room room)
                     (enterUp_room room))))
  · with_reducible exact room

theorem laneRetrain_room (room : HasRoom d.er) : HasRoom (laneRetrain tm n d).er := by
  unfold laneRetrain
  split
  · exact ite_room room (startTraining_room room)
  · exact startRetrain_room room
  · exact room

theorem settleDomain_room {q : Fin 4} (room : HasRoom d.er) : HasRoom (settleDomain q d).er := ite_room room room

theorem laneUnused_room (room : HasRoom d.er) : HasRoom (laneUnused tm n d).er := by
  unfold laneUnused
  dsimp only [Device.onLane, sendStop, sendCmd, sendCell, Device.onSlot]
  with_reducible exact settleDomain_room (foldl_room (fun _ _ room => ite_room (immediateLeave_room room) (setSlot_room
                   (immediateLeave_room room))) room)

theorem disableTakesEffect_room (room : HasRoom d.er) : HasRoom (disableTakesEffect tm n d).er :=
  ite_room (laneUnused_room room) room

theorem laneDown_room (room : HasRoom d.er) : HasRoom (laneDown n d).er := ite_room room room

theorem domainOn_room {q : Fin 4} (room : HasRoom d.er) : HasRoom (domainOn q d).er :=
  ite_room room (foldl_room (fun _ _ room => ite_room (laneDown_room room) room) room)

theorem writeDisable_room {v : Bool} (room : HasRoom d.er) : HasRoom (writeDisable tm n v d).er :=
  ite_room (disableTakesEffect_room room) (laneDown_room room)

theorem timeCells_room (room : HasRoom d.er) : HasRoom (timeCells d).er := foldl_room (fun _ _ room => ite_room room room) room

theorem biasTimer_room (room : HasRoom d.er) : HasRoom (biasTimer tm d).er :=
  foldl_room (fun _ _ room => ite_room (foldl_room (fun _ _ room => room) room) (foldl_room (fun _ _ room => room) room))
      (foldl_room (fun _ _ room => room) room)

theorem receiverSleeps_room (room : HasRoom d.er) : HasRoom (receiverSleeps tm n d).er := ite_room room room

/-! ### Rails -/

theorem armRail_room (room : HasRoom d.er) : HasRoom (armRail tm r d).er :=
  ite_room room (ite_room room (changeState_room room))

theorem disarmRail_room (room : HasRoom d.er) : HasRoom (disarmRail tm r d).er :=
  ite_room (endCmd_room (discardRecords_room (changeState_room room))) (endCmd_room room)

theorem commandStart_room (room : HasRoom d.er) : HasRoom (commandStart tm r d).er :=
  ite_room room (ite_room (startRail_room room) (startRail_room room))

theorem stopRail_room (room : HasRoom d.er) : HasRoom (stopRail tm r d).er :=
  ite_room (endCmd_room (leaveRunning_room room)) (endCmd_room room)

theorem softStop_room (room : HasRoom d.er) : HasRoom (softStop tm r d).er := by
  unfold softStop
  dsimp only [endCmd, Device.onRail]
  split
  · with_reducible exact unwindRail_room room
  · with_reducible exact changeState_room (unwindRail_room (releaseAll_room (endTuneOn_room room)))
  · with_reducible exact room

theorem clearRail_room (room : HasRoom d.er) : HasRoom (clearRail tm src r d).er := by
  unfold clearRail
  split
  · exact ite_room room (changeState_room room)
  · exact ite_room (ite_room room (changeState_room room)) room
  · exact ite_room room room

theorem retirePhase_room {pos : Fin 128} (room : HasRoom d.er) : HasRoom (retirePhase tm r pos d).er := by
  unfold retirePhase
  split
  · exact room
  · exact ite_room (dropRecords_room room) (dropRecords_room room)

theorem restorePhase_room {pos : Fin 128} (room : HasRoom d.er) : HasRoom (restorePhase tm r pos d).er := by
  unfold restorePhase
  split
  · exact raiseRetire_room room
  · exact raiseRetire_room (ite_snd_room (setSlot_room room) (ite_snd_room room room))

theorem rampRail_room (room : HasRoom d.er) : HasRoom (rampRail tm r d).er := by
  unfold rampRail
  refine ite_room ?_ ?_
  · exact room
  · split
    · exact room
    · exact ite_room (leaveRunning_room room) room

theorem rampAll_room (room : HasRoom d.er) : HasRoom (rampAll tm d).er := foldl_room (fun _ _ room => rampRail_room room) room

theorem rampExpires_room (room : HasRoom d.er) : HasRoom (rampExpires tm r d).er := by
  unfold rampExpires
  dsimp only
  split
  · with_reducible exact ite_room (enterFault_room room) room
  · with_reducible exact ite_room (enterFault_room room) room
  · with_reducible exact room

theorem holdExpires_room (room : HasRoom d.er) : HasRoom (holdExpires tm r d).er := ite_room (enterFault_room room) room

theorem retryRail_room (room : HasRoom d.er) : HasRoom (retryRail tm r d).er := by
  unfold retryRail
  dsimp only [Device.onRail, endCmd]
  with_reducible refine ite_room ?_ ?_
  · split
    · with_reducible exact startRail_room (changeState_room room)
    · with_reducible exact startRail_room (changeState_room room)
    · with_reducible exact startRail_room (changeState_room room)
  · with_reducible exact room

theorem resetRetries_room (room : HasRoom d.er) : HasRoom (resetRetries tm r d).er := ite_room room room

theorem measurementEnds_room (room : HasRoom d.er) : HasRoom (measurementEnds tm r d).er := by
  unfold measurementEnds
  split
  · exact ite_room (endMeasurement_room room) room
  · exact room

theorem strapStart_room (room : HasRoom d.er) : HasRoom (strapStart tm d).er := ite_room (commandStart_room room) room

theorem warmStartDue_room {e : Fin 128} (room : HasRoom d.er) : HasRoom (warmStartDue tm e d).er := by
  unfold warmStartDue
  dsimp only
  split
  · with_reducible exact ite_room (warmStart_room room) room
  · with_reducible exact room

theorem carrierPeriod_room {g : Fin 8} (room : HasRoom d.er) : HasRoom (carrierPeriod tm g d).er := by
  unfold carrierPeriod
  refine ite_room ?_ ?_
  · exact room
  · refine ite_room ?_ ?_
    · exact foldl_room (fun _ _ room => railBoundary_room room) (updateSources_room room)
    · split
      · exact foldl_room (fun _ _ room => railBoundary_room room) (updateSources_room room)
      · exact room

theorem vsenseEnds_room {v : Fin 8} {code : BitVec 16} (room : HasRoom d.er) : HasRoom (vsenseEnds tm v code d).er :=
  vsenseSources_room room

theorem deadlinePasses_room {loop : LoopRef} (room : HasRoom d.er) : HasRoom (deadlinePasses tm loop d).er := by
  unfold deadlinePasses
  dsimp only [countOverrun, Device.onLoop]
  with_reducible refine ite_room ?_ ?_
  · with_reducible exact room
  · split
    · with_reducible exact room
    · with_reducible exact ite_room (reportEngine_room room) room

theorem writeCoef_room {outer : Bool} {k : Fin 8} {m : Option Word} {s : Byte} (room : HasRoom d.er) :
    HasRoom (writeCoef tm r outer k m s d).er :=
  ite_room room room

theorem noRun_room {inner : Bool} {res : TuneResult} {check : ℕ} (room : HasRoom d.er) :
    HasRoom (noRun tm r inner res check d).er :=
  raiseTune_room room

theorem startTune_room {inner : Bool} {rule : BitVec 2} (room : HasRoom d.er) :
    HasRoom (startTune tm src r inner rule d).er := by
  unfold startTune
  refine ite_room ?_ ?_
  · exact room
  · refine ite_room ?_ ?_
    · exact noRun_room room
    · split
      · exact noRun_room room
      · exact room

theorem tuneExpires_room (room : HasRoom d.er) : HasRoom (tuneExpires tm d).er := by
  unfold tuneExpires
  split
  · exact ite_room (endTune_room room) room
  · exact room

/-! ### Recorder -/

theorem reserveSeq_room (room : HasRoom d.er) : HasRoom (reserveSeq nv d).er := by
  unfold reserveSeq
  exact ite_room room (ite_room room (storePump_room room))

theorem seqAtStart_room {was : ℕ} {v : ℕ} (room : HasRoom e) : HasRoom (seqAtStart was v e) :=
  ite_recorder_room room (ite_recorder_room room room)

theorem writeEvent_room (room : HasRoom d.er) : HasRoom (writeEvent tm nv d).er := by
  unfold writeEvent
  split
  · exact room
  · refine ite_room ?_ ?_
    · exact room
    · refine ite_room ?_ ?_
      · exact reserveSeq_room room
      · refine ite_room ?_ ?_
        · exact ite_room (dropOldest_room room) (ite_room room (resolveSeq_room (HasRoom.of_sublist room
            (List.drop_sublist _ _))))
        · split
          · exact ite_room (setReadonly_room room) room
          · exact ite_room (storePump_room (resolveSeq_room room)) room

theorem copyPermanent_room {bs : List Byte} (room : HasRoom d.er) : HasRoom (copyPermanent nv bs d).er := by
  unfold copyPermanent
  refine ite_room ?_ ?_
  · exact room
  · split
    · exact room
    · exact storePump_room room

theorem rotateCirculating_room (room : HasRoom d.er) : HasRoom (rotateCirculating nv d).er := by
  unfold rotateCirculating
  split
  · split
    · exact ite_room (storePump_room room) room
    · exact room
  · exact room

theorem raiseLost_room (room : HasRoom d.er) : HasRoom (raiseLost tm d).er := ite_room (raise_room room) room

theorem writeCleared_room {clear : Word} (room : HasRoom d.er) : HasRoom (writeCleared tm nv clear d).er := by
  unfold writeCleared
  split
  · exact room
  · exact ite_room room (storePump_room room)

theorem eventCommitted_room (room : HasRoom d.er) : HasRoom (eventCommitted tm nv d).er := by
  unfold eventCommitted
  split
  · exact room
  · extract_lets _ e _ cap _ d1 d2
    have room0 : HasRoom e := room.of_sublist List.filter_sublist
    clear_value e
    have room1 : HasRoom d1.er := room0
    clear_value d1
    have room2 : HasRoom d2.er := rotateCirculating_room (copyPermanent_room (raiseLost_room room1))
    clear_value d2
    exact ite_room (ite_room (ite_room (reserveSeq_room room2) (writeCleared_room room2)) room2) room2

theorem clearCommitted_room {seq : Word} (room : HasRoom d.er) : HasRoom (clearCommitted nv seq d).er := by
  unfold clearCommitted
  split
  · exact room
  · refine storePump_room ?_
    refine copyPermanent_room ?_
    refine foldl_room (fun _ _ room => ?_) room
    split
    · exact ite_room room room
    · exact room

theorem passTail_room {k : ℕ} {p : Fin 128} (room : HasRoom d.er) : HasRoom (passTail k nv p d).er := ite_room room room

theorem selectEnds_room {res : ℕ} {x : Option (ℕ × List Byte)} (room : HasRoom d.er) : HasRoom (selectEnds res x d).er := by
  unfold selectEnds
  split
  · exact room
  · exact room

theorem selectRecord_room {areas : BitVec 4} (room : HasRoom d.er) : HasRoom (selectRecord nv areas d).er :=
  ite_room (ite_room room (ite_room room (selectEnds_room room))) (selectEnds_room room)

theorem selectFromBog_room {bytes : List Byte} (room : HasRoom d.er) : HasRoom (selectFromBog nv bytes d).er :=
  selectEnds_room room

theorem startClear_room {areas : BitVec 4} (room : HasRoom d.er) : HasRoom (startClear tm src areas d).er :=
  ite_room room (ite_room room (ite_room room (ite_room room (ite_room (pushEvent_room (endChains_room room)) (pushEvent_room
      (endChains_room room))))))

theorem writeShutdown_room (room : HasRoom d.er) : HasRoom (writeShutdown tm nv d).er := by
  unfold writeShutdown
  split
  · exact room
  · refine ite_room ?_ ?_
    · exact room
    · refine ite_room ?_ ?_
      · exact room
      · split
        · exact room
        · exact storePump_room room

theorem shutdownWritten_room (room : HasRoom d.er) : HasRoom (shutdownWritten d).er := by
  unfold shutdownWritten
  split
  · exact room
  · exact room

theorem copyShutdowns_room (room : HasRoom d.er) : HasRoom (copyShutdowns nv d).er := by
  unfold copyShutdowns
  refine ite_room ?_ ?_
  · exact room
  · split
    · exact room
    · split
      · exact room
      · exact storePump_room room

theorem shutdownCopied_room (room : HasRoom d.er) : HasRoom (shutdownCopied nv d).er := by
  unfold shutdownCopied
  refine copyShutdowns_room ?_
  split
  · refine ite_room ?_ ?_
    · refine storePump_room ?_
      split
      · exact rotateCirculating_room (copyPermanent_room room)
      · exact room
    · split
      · exact rotateCirculating_room (copyPermanent_room room)
      · exact room
  · split
    · exact rotateCirculating_room (copyPermanent_room room)
    · exact room

theorem recorderFails_room {first : Bool} (room : HasRoom d.er) : HasRoom (recorderFails tm first d).er :=
  ite_room (pushEvent_room (endChains_room (ite_room room room))) (ite_room room room)

theorem recorderRecovers_room (room : HasRoom d.er) : HasRoom (recorderRecovers tm d).er := raise_room room

/-! ### Archive -/

theorem raiseBog_room {event : ℕ} {device : ℕ} {block : ℕ} {detail : ℕ} (room : HasRoom d.er) :
    HasRoom (raiseBog tm event device block detail d).er :=
  raise_room room

theorem finishClear_room (room : HasRoom d.er) : HasRoom (finishClear d).er := ite_room room room

theorem bogFail_room {device : ℕ} (room : HasRoom d.er) : HasRoom (bogFail tm device d).er :=
  ite_room (ite_room (raiseBog_room room) (raiseBog_room room)) (ite_room (raiseBog_room room) (raiseBog_room room))

theorem bogPump_room (room : HasRoom d.er) : HasRoom (bogPump tm d).er :=
  ite_room room (ite_room (ite_room room room) (ite_room room (ite_room room (ite_room room room))))

theorem discovered_room {d0 : Option FlashInfo} {d1 : Option FlashInfo} {control : Option ControlInfo} (room : HasRoom d.er) :
    HasRoom (discovered tm d0 d1 control d).er := by
  unfold discovered
  refine ite_room ?_ ?_
  · split
    · exact room
    · exact bogFail_room room
  · split
    · exact ite_room (raiseBog_room room) (bogPump_room (raiseBog_room room))
    · exact ite_room (raiseBog_room room) (raiseBog_room room)

theorem formatted_room (room : HasRoom d.er) : HasRoom (formatted tm d).er := bogPump_room (raiseBog_room room)

theorem startLog_room {detach : Bool} (room : HasRoom d.er) : HasRoom (startLog tm nv detach d).er := by
  unfold startLog
  dsimp only
  split
  · with_reducible exact room
  · with_reducible exact ite_room (raiseBog_room room) room

theorem writeLogBlock_room (room : HasRoom d.er) : HasRoom (writeLogBlock tm nv d).er :=
  ite_room room (ite_room (startLog_room room) room)

theorem logWritten_room {records : List (List Byte)} {last : Word} {detach : Bool} {reused : Option Word}
    (room : HasRoom d.er) :
    HasRoom (logWritten tm nv records last detach reused d).er :=
  ite_room (raiseBog_room (ite_room (foldl_room (fun _ _ room => copyPermanent_room room) (ite_recorder_room room room))
      (ite_recorder_room room room))) (bogPump_room (ite_room (foldl_room (fun _ _ room => copyPermanent_room room)
      (ite_recorder_room room room)) (ite_recorder_room room room)))

theorem wornBlock_room {block : Nat} (room : HasRoom d.er) : HasRoom (wornBlock tm block d).er := by
  unfold wornBlock
  extract_lets dev logical _ d1
  have room1 : HasRoom d1.er := raiseBog_room room
  clear_value d1
  refine ite_room (bogFail_room room1) ?_
  split
  · exact raiseBog_room room1
  · exact ite_room (bogFail_room (raise_room room1)) (raise_room room1)

theorem copyComplete_room (room : HasRoom d.er) : HasRoom (copyComplete tm d).er := ite_room room (bogPump_room room)

theorem controlWritten_room (room : HasRoom d.er) : HasRoom (controlWritten tm d).er := by
  unfold controlWritten endEr startCopy
  dsimp only
  split
  · exact ite_room room room
  · exact ite_room room room
  · exact bogPump_room (ite_room room room)

theorem archiveEnd_room {res : ArchiveResult} (room : HasRoom d.er) : HasRoom (archiveEnd tm nv res d).er := by
  unfold archiveEnd
  refine ite_room ?_ ?_
  · exact room
  · split
    · exact discovered_room room
    · exact formatted_room room
    · exact controlWritten_room room
    · exact logWritten_room room
    · exact logWritten_room room
    · exact bogPump_room room
    · exact bogPump_room (selectFromBog_room room)
    · exact ite_room room (wornBlock_room room)
    · exact ite_room room (wornBlock_room room)
    · exact ite_room room (wornBlock_room room)
    · exact ite_room room (wornBlock_room room)
    · exact room

theorem bogDiscover_room (room : HasRoom d.er) : HasRoom (bogDiscover d).er := bogCommand_room room (fun _ room => room)

theorem bogDetach_room (room : HasRoom d.er) : HasRoom (bogDetach tm nv d).er :=
  bogCommand_room room (fun _ room => ite_room room (ite_room (raiseBog_room room) (startLog_room room)))

theorem bogFormat_room (room : HasRoom d.er) : HasRoom (bogFormat d).er :=
  bogCommand_room room (fun _ room => ite_room room room)

theorem bogReadBlock_room {block : ℕ} (room : HasRoom d.er) : HasRoom (bogReadBlock block d).er :=
  bogCommand_room room (fun _ room => ite_room room (ite_room room room))

theorem bogReadCapbuf_room {part : ℕ} (room : HasRoom d.er) : HasRoom (bogReadCapbuf part d).er :=
  bogCommand_room room (fun _ room => ite_room room room)

theorem bogAbort_room (room : HasRoom d.er) : HasRoom (bogAbort d).1.er := by
  unfold bogAbort
  split
  · exact room
  · split
    · exact ite_room room room
    · exact room
    · exact room
    · exact ite_room (ite_room (ite_room room room) (ite_room room room)) (ite_room (ite_room room room) (ite_room room room))
    · exact ite_room room room
    · exact ite_room room room
    · exact ite_room room room

theorem takeSample_room (room : HasRoom d.er) : HasRoom (takeSample tm d).er := by
  unfold takeSample
  dsimp only
  split
  · with_reducible exact room
  · with_reducible exact ite_room (bogPump_room room) room
  · with_reducible exact room
  · with_reducible exact room

theorem capArm_room (room : HasRoom d.er) : HasRoom (capArm d).er := ite_room room room

theorem capConfigure_room {f : Capture → Capture} (room : HasRoom d.er) : HasRoom (capConfigure f d).er := ite_room room room

/-! ### Frames -/

theorem queueFrame_room {id : BitVec 29} {payload : List Byte} {start : Option Word} (room : HasRoom d.er) :
    HasRoom (queueFrame tm b id payload start d).er := room

theorem sendTo_room {id : BitVec 29} {payload : List Byte} {start : Option Word} (room : HasRoom d.er) :
    HasRoom (sendTo tm h id payload start d).er := by
  unfold sendTo
  extract_lets d1
  have room1 : HasRoom d1.er := ite_room room room
  clear_value d1
  exact ite_room (queueFrame_room (queueFrame_room room1)) (queueFrame_room room1)

theorem sendKind_room {k : FrameKind} {payload : List Byte} {start : Option Word} (room : HasRoom d.er) :
    HasRoom (sendKind tm k h payload start d).er :=
  sendTo_room room

theorem keepTag_room {tag : Byte} (room : HasRoom d.er) : HasRoom (keepTag h tag d).er := room

theorem tellEntry_room {k : FrameKind} {tag : ℕ} {entry : ℕ} {payload : List Byte} {start : Option Word} (room : HasRoom d.er) :
    HasRoom (tellEntry tm k h tag entry payload start d).er :=
  sendTo_room room

theorem tellIntake_room {k : FrameKind} {tag : ℕ} {entry : ℕ} {payload : List Byte} (room : HasRoom d.er) :
    HasRoom (tellIntake tm k h tag entry payload d).er :=
  sendTo_room room

/-! ### Hearth -/

theorem ledgerOp_room {e : Fin 128} {f : Entry → Entry} (room : HasRoom d.er) : HasRoom (ledgerOp e f d).er := room

theorem onCharges_room {f : List Charge → List Charge} (room : HasRoom d.er) : HasRoom (onCharges f d).er := room

theorem hsInt_room {i : Nat} (room : HasRoom d.er) : HasRoom (hsInt i d).er := room

theorem raiseLedger_room {event : ℕ} {e : Fin 128} (room : HasRoom d.er) : HasRoom (raiseLedger tm event e d).er :=
  raise_room room

theorem raiseHearth_room {event : ℕ} (room : HasRoom d.er) : HasRoom (raiseHearth tm event d).er := raise_room room

theorem takeShare_room {n : ℕ} (room : HasRoom d.er) : HasRoom (takeShare n d).er := by
  unfold takeShare
  split
  · exact ite_room room room
  · exact room

theorem takePause_room {n : ℕ} (room : HasRoom d.er) : HasRoom (takePause n r d).er := ite_room room room

theorem takeQuantities_room {n : ℕ} {d0 : Device} (room : HasRoom d0.er) : HasRoom (takeQuantities n d0).er := by
  unfold takeQuantities
  with_reducible exact foldl_room (fun _ _ room => takePause_room room) (takeShare_room room)

theorem grantOnRail_room {e : Fin 128} (room : HasRoom d.er) : HasRoom (grantOnRail tm e d).er := by
  unfold grantOnRail
  split
  · exact room
  · exact endTuneOn_room room

theorem grantEntry_room {e : Fin 128} {s : ℕ} (room : HasRoom d.er) : HasRoom (grantEntry tm e s d).er :=
  tellEntry_room (grantOnRail_room room)

theorem revokeEntry_room {e : Fin 128} {why : LedReason} (room : HasRoom d.er) : HasRoom (revokeEntry tm e why d).er := by
  unfold revokeEntry
  dsimp only [hsInt, ledgerOp, onCharges]
  split
  · with_reducible exact tellEntry_room (raiseLedger_room (unwindEntry_room room))
  · with_reducible exact raiseLedger_room (unwindEntry_room room)

theorem squashEntry_room {e : Fin 128} {why : LedReason} {hint : Nat} (room : HasRoom d.er) :
    HasRoom (squashEntry tm e why hint d).er := by
  unfold squashEntry
  dsimp only
  cases why with
  | window | busy | nofit =>
    with_reducible exact tellEntry_room (raiseLedger_room (unwindEntry_room (hsInt_room (ledgerOp_room (onCharges_room room)))))
  | _ => with_reducible exact unwindEntry_room (hsInt_room (ledgerOp_room (onCharges_room room)))

theorem finishEntry_room {e : Fin 128} {why : LedReason} (room : HasRoom d.er) : HasRoom (finishEntry tm e why d).er := by
  unfold finishEntry
  dsimp only [Device.onRail, ledgerOp, onCharges]
  split
  · with_reducible exact room
  · with_reducible exact room

theorem intakeOne_room {n : ℕ} {q : Request} (room : HasRoom d.er) : HasRoom (intakeOne tm n d q).er := by
  unfold intakeOne
  split
  · exact tellIntake_room room
  · exact room
  · exact ite_room (grantEntry_room (tellIntake_room room)) (tellIntake_room room)

theorem activate_room {n : ℕ} (room : HasRoom d.er) : HasRoom (activate n d).er :=
  foldl_room (fun _ _ room => ite_room room room) room

theorem completionTimeout_room {n : ℕ} {e : Fin 128} (room : HasRoom d.er) : HasRoom (completionTimeout tm n e d).er :=
  ite_room (tellEntry_room (finishEntry_room room)) room

theorem freeEnded_room {n : ℕ} (room : HasRoom d.er) : HasRoom (freeEnded n d).er :=
  foldl_room (fun _ _ room => ite_room room room) room

theorem committedCheck_room {k fuel : Nat} (room : HasRoom d.er) : HasRoom (committedCheck tm k fuel d).er := by
  induction fuel generalizing d with
  | zero => exact room
  | succ fuel ih =>
    unfold committedCheck
    refine ite_room room ?_
    dsimp only
    split
    · exact raiseHearth_room room
    · exact ih (revokeEntry_room room)

theorem plannedCheck_room {n : ℕ} (room : HasRoom d.er) : HasRoom (plannedCheck tm n d).er :=
  ite_room room (raiseHearth_room (foldl_room (fun _ _ room => room) room))

theorem windowSquashes_room {n : ℕ} (room : HasRoom d.er) : HasRoom (windowSquashes tm n d).er :=
  foldl_room (fun _ _ room => ite_room (squashEntry_room room) (ite_room (squashEntry_room room) room)) room

theorem confirmEntries_room {n : ℕ} (room : HasRoom d.er) : HasRoom (confirmEntries tm n d).er :=
  foldl_room (fun _ _ room => ite_room (grantEntry_room room) room) (foldl_room (fun _ _ room => room) room)

theorem noteAbsence_room (room : HasRoom d.er) : HasRoom (noteAbsence tm d).er := ite_room (raiseHearth_room room) room

theorem hearthTick_room (room : HasRoom d.er) : HasRoom (hearthTick tm d).er := by
  unfold hearthTick
  extract_lets n _ d1 d2 d3 d4 reqs _ d5 d6 d7 d8
  refine ite_room room ?_
  have room1 : HasRoom d1.er := noteAbsence_room room
  clear_value d1
  have room3 : HasRoom d3.er :=
    foldl_room (fun _ _ room => completionTimeout_room room) (activate_room (takeQuantities_room room1))
  clear_value d3
  have room4 : HasRoom d4.er := freeEnded_room room3
  clear_value d4
  have room6 : HasRoom d6.er := committedCheck_room (foldl_room (fun _ _ room => intakeOne_room room) room4)
  clear_value d6
  have room8 : HasRoom d8.er := windowSquashes_room (ite_room (plannedCheck_room room6) room6)
  clear_value d8
  exact ite_room (confirmEntries_room room8) room8

theorem pauseUpdate_room (room : HasRoom d.er) : HasRoom (pauseUpdate tm r d).er := by
  unfold pauseUpdate
  split
  · exact room
  · exact ite_room room room

theorem planResult_room {res : PlanResult} (room : HasRoom d.er) : HasRoom (planResult res d).er := room

theorem planEntry_room {e : Fin 128} {s : ℕ} (room : HasRoom d.er) : HasRoom (planEntry tm e s d).er :=
  ite_room (tellEntry_room room) room

theorem planCommand_room {e : Fin 128} {start : Word} {d0 : Device} (room : HasRoom d0.er) :
    HasRoom (planCommand tm e start d0).er :=
  ite_room room (ite_room room (ite_room room (planEntry_room room)))

theorem invalidateCommand_room {e : Fin 128} (room : HasRoom d.er) : HasRoom (invalidateCommand tm e d).er := ite_room room room

theorem squashCommand_room {e : Fin 128} {hint : Nat} (room : HasRoom d.er) : HasRoom (squashCommand tm e hint d).er := by
  unfold squashCommand
  split
  · with_reducible exact planResult_room (squashEntry_room room)
  · with_reducible exact planResult_room (squashEntry_room room)
  · with_reducible exact planResult_room room

theorem planPass_room (room : HasRoom d.er) : HasRoom (planPass tm d).er := by
  unfold planPass
  refine ite_room ?_ ?_
  · exact room
  · refine foldl_room (fun _ _ room => ?_) (foldl_room (fun _ _ room => invalidateCommand_room room) room)
    split
    · exact planCommand_room room
    · exact room

theorem cancelEntry_room {i : Fin 128} {d' : Device} (room : HasRoom d.er)
    (h : cancelEntry tm i d = some d') : HasRoom d'.er := by
  unfold cancelEntry at h
  split at h <;> cases h <;> exact squashEntry_room room

theorem completeEntry_room {i : Fin 128} {d' : Device} (room : HasRoom d.er) (h : completeEntry tm i d = some d') :
    HasRoom d'.er := by
  unfold completeEntry at h
  split at h <;> cases h
  exact finishEntry_room room

theorem reverseEntry_room {i : Fin 128} {segs : List Seg} {y : Device × Nat × Nat × Bool} (room : HasRoom d.er)
    (h : reverseEntry tm i segs d = some y) : HasRoom y.1.er := by
  unfold reverseEntry at h
  extract_lets x k act at h
  have acted (start : Nat) : HasRoom (act start).1.er := rewarm_room room
  split at h <;> cases h <;> exact acted _

theorem handleLeaves_room (room : HasRoom d.er) : HasRoom (handleLeaves tm h d).er := by
  unfold handleLeaves
  refine foldl_room (fun _ _ room => ?_) room
  split
  · exact squashEntry_room room
  · exact squashEntry_room room
  · exact revokeEntry_room room
  · exact room

theorem applySched_room {new : Option (InForce SchedSect)} (room : HasRoom d.er) : HasRoom (applySched tm new d).er :=
  foldl_room (fun _ _ room => ite_room room room) (foldl_room (fun _ _ room => room) room)

theorem ringStart_room (room : HasRoom d.er) : HasRoom (ringStart tm d).er := ite_room room room

theorem ringFrame_room {bs : List Byte} (room : HasRoom d.er) : HasRoom (ringFrame tm bs d).er :=
  ite_room room (ite_room room (ite_room (raiseHearth_room room) room))

theorem freshLink_room (room : HasRoom d.er) : HasRoom (freshLink tm d).er := by
  unfold freshLink
  split
  · exact ite_room room room
  · exact room

theorem ringTimeout_room (room : HasRoom d.er) : HasRoom (ringTimeout tm d).er := by
  unfold ringTimeout
  split
  · exact ite_room room (raiseHearth_room room)
  · exact room

/-! ### Partner -/

theorem raisePartner_room {event : ℕ} {h : ℕ} {b : ℕ} {reason : FrameReason} {unit : ℕ} (room : HasRoom d.er) :
    HasRoom (raisePartner tm event h b reason unit d).er :=
  raise_room room

theorem heardFrom_room {unit : Option (BitVec 16)} (room : HasRoom d.er) : HasRoom (heardFrom tm b h unit d).er := room

theorem freeHandle_room {why : LeaveCause} (room : HasRoom d.er) : HasRoom (freeHandle tm h why d).er := by
  unfold freeHandle
  refine handleLeaves_room ?_
  split
  · exact room
  · exact raisePartner_room room
  · exact raisePartner_room room
  · exact raisePartner_room room

theorem withPorts_room {pp : Ports} (room : HasRoom d.er) : HasRoom { d with pp := pp }.er := room

theorem leaveFrame_room {unit : BitVec 16} (room : HasRoom d.er) : HasRoom (leaveFrame tm b h unit d).er := by
  unfold leaveFrame
  extract_lets d1 p ack
  have sent : ack d1 = sendKind tm .leaveAck h (beBytes 2 unit.toNat ++ [0, 0]) none d1 := rfl
  have room1 : HasRoom d1.er := heardFrom_room room
  have told : HasRoom (ack d1).er := sent ▸ sendKind_room room1
  clear_value ack
  exact ite_room told (ite_room (freeHandle_room told) (withPorts_room told))

theorem keepaliveFrame_room {unit : BitVec 16} (room : HasRoom d.er) : HasRoom (keepaliveFrame tm b h unit d).er :=
  ite_room room room

theorem leaseExpires_room (room : HasRoom d.er) : HasRoom (leaseExpires tm h d).er := ite_room (freeHandle_room room) room

theorem holdoffEnds_room (room : HasRoom d.er) : HasRoom (holdoffEnds tm h d).er := ite_room room room

theorem orphansLeave_room (room : HasRoom d.er) : HasRoom (orphansLeave tm d).er :=
  ite_room room (foldl_room (fun _ _ room => handleLeaves_room room) room)

theorem joinAck_room (room : HasRoom d.er) : HasRoom (joinAck tm h d).er := sendKind_room room

theorem giveHandle_room {unit : BitVec 16} {nonce : Word} (room : HasRoom d.er) : HasRoom (giveHandle tm b h unit nonce d).er :=
  joinAck_room room

theorem joinFrame_room {unit : BitVec 16} {nonce : Word} {rejoin : Bool} {prev : Fin 256} {proto : BitVec 16}
    (room : HasRoom d.er) :
    HasRoom (joinFrame tm b unit nonce rejoin prev proto d).er := by
  unfold joinFrame
  refine ite_room ?_ ?_
  · extract_lets _
    exact room
  · refine ite_room ?_ ?_
    · extract_lets _
      exact room
    · refine ite_room ?_ ?_
      · extract_lets _
        exact room
      · split
        · exact ite_room (joinAck_room room) (giveHandle_room (freeHandle_room room))
        · split
          · exact giveHandle_room (ite_room (freeHandle_room room) room)
          · split
            · exact giveHandle_room room
            · extract_lets _
              exact room

theorem discardFrame_room (room : HasRoom d.er) : HasRoom (discardFrame d).er := room

theorem refreshStanding_room (room : HasRoom d.er) : HasRoom (refreshStanding h d).er := ite_room room room

theorem motionFrame_room {tag : Byte} {segs : Nat} {cls : Nat} {unit : BitVec 16} {earliest latest : Word}
    {profile : List ProfileSeg} (room : HasRoom d.er) :
    HasRoom (motionFrame tm b h tag segs cls unit earliest latest profile d).er := by
  have room1 : HasRoom (heardFrom tm b h (some unit) d).er := heardFrom_room room
  unfold motionFrame
  refine ite_room room ?_
  generalize heardFrom tm b h (some unit) d = d1 at room1 ⊢
  dsimp only
  with_reducible refine ite_room (sendKind_room room1) (ite_room (sendKind_room room1) ?_)
  split
  · with_reducible exact ite_room room1 (sendTo_room room1)
  · with_reducible exact ite_room (sendKind_room room1) (ite_room (sendKind_room room1) (refreshStanding_room
                     (keepTag_room room1)))

theorem actOnEntry_room {tag : Byte} {i : Fin 128} {f : EntryFrame} {y : Device × List Byte} (room : HasRoom d.er)
    (h : actOnEntry tm tag i f d = some y) : HasRoom y.1.er := by
  unfold actOnEntry at h
  dsimp only at h
  split at h
  · obtain ⟨d', hd, rfl⟩ := Option.map_eq_some_iff.mp h
    exact cancelEntry_room room hd
  · obtain ⟨d', hd, rfl⟩ := Option.map_eq_some_iff.mp h
    exact completeEntry_room room hd
  · obtain ⟨z, hz, rfl⟩ := Option.map_eq_some_iff.mp h
    exact reverseEntry_room room hz

theorem entryFrame_room {tag entry : Byte} {f : EntryFrame} (room : HasRoom d.er) :
    HasRoom (entryFrame tm b h tag entry f d).er := by
  have room1 : HasRoom (heardFrom tm b h none d).er := heardFrom_room room
  unfold entryFrame
  generalize heardFrom tm b h none d = d1 at room1 ⊢
  have refused {why : FrameReason} : HasRoom (tellEntry tm .refuse h tag.toNat entry.toNat
      (refuseBytes tag.toNat entry.toNat why.code f.type noHint) none d1).er := tellEntry_room room1
  dsimp only
  with_reducible refine ite_room (discardFrame_room room) (ite_room refused ?_)
  split
  · with_reducible exact refused
  · with_reducible refine ite_room refused ?_
    split
    · next acted => with_reducible exact ite_room refused (tellEntry_room (actOnEntry_room room1 acted))
    · split
      · with_reducible exact ite_room (sendTo_room room1) refused
      · with_reducible exact refused

theorem vreqFrame_room {tag : Byte} {value : Word} (room : HasRoom d.er) : HasRoom (vreqFrame tm b h tag value d).er := by
  have room1 : HasRoom (refreshStanding h (heardFrom tm b h none d)).er := refreshStanding_room (heardFrom_room room)
  unfold vreqFrame
  generalize refreshStanding h (heardFrom tm b h none d) = d1 at room1 ⊢
  dsimp only
  with_reducible refine ite_room (sendKind_room room1) (ite_room (sendKind_room room1) (ite_room (sendKind_room room1) ?_))
  split
  · with_reducible exact sendKind_room room1
  · refine ite_room (sendKind_room room1) (ite_room (sendKind_room room1) (ite_room (sendKind_room room1)
      (sendKind_room room1)))

theorem heartbeat_room {d0 : Device} (room : HasRoom d0.er) : HasRoom (heartbeat tm d0).er := by
  unfold heartbeat
  dsimp only
  with_reducible exact ite_room room (ite_room (ite_room (raiseHearth_room (noteAbsence_room room)) (noteAbsence_room room))
                   (admitFound_room (foldl_room (fun _ _ room => ite_room (freeHandle_room room) room) (ite_room
                   (raiseHearth_room (noteAbsence_room room)) (noteAbsence_room room)))))

theorem repeat_room {f : Device → Device} {k : Nat} (room : HasRoom d.er) (hf : ∀ d : Device, HasRoom d.er → HasRoom (f d).er) :
    HasRoom (Nat.repeat f k d).er := by
  induction k with
  | zero => exact room
  | succ k ih => exact hf _ ih

theorem dropStale_room {sync : Bool} (room : HasRoom d.er) : HasRoom (dropStale tm sync b d).er := by
  unfold dropStale
  extract_lets old k d1 d2
  refine ite_room room (ite_room ?_ room)
  exact repeat_room room fun _ room => raisePartner_room room

theorem dropGrant_room {e : Fin 128} (room : HasRoom d.er) : HasRoom (dropGrant tm e b d).er := ite_room room room

theorem syncTimer_room (room : HasRoom d.er) : HasRoom (syncTimer tm d).er :=
  foldl_room (fun _ _ room => ite_room room room) room

theorem frameStarts_room {d0 : Device} (room : HasRoom d0.er) : HasRoom (frameStarts tm b d0).er := by
  unfold frameStarts
  dsimp only [Device.onBus]
  with_reducible refine ite_room ?_ ?_
  · with_reducible exact dropStale_room (dropStale_room room)
  · split
    · with_reducible exact dropStale_room (dropStale_room room)
    · with_reducible exact dropStale_room (dropStale_room room)

theorem frameEnds_room (room : HasRoom d.er) : HasRoom (frameEnds b d).er := by
  unfold frameEnds
  split
  · exact room
  · exact room

theorem frameDiscarded_room {id : BitVec 29} {payload : List Byte} (room : HasRoom d.er) :
    HasRoom (frameDiscarded b id payload d).er :=
  arrived_room room (fun _ room => ite_room room room)

theorem busPassive_room (room : HasRoom d.er) : HasRoom (busPassive tm b d).er := by
  unfold busPassive
  dsimp only [ppInt, Device.onBus, drawErrors]
  with_reducible exact ite_room room (raisePartner_room room)

theorem enterBusOff_room (room : HasRoom d.er) : HasRoom (enterBusOff tm b d).er := by
  unfold enterBusOff
  dsimp only [ppInt, Device.onBus, drawErrors]
  with_reducible exact ite_room room (raisePartner_room room)

theorem autoRecover_room (room : HasRoom d.er) : HasRoom (autoRecover d).er := ite_room room room

theorem busRecovered_room (room : HasRoom d.er) : HasRoom (busRecovered tm b d).er := ite_room (raisePartner_room room) room

theorem settleBus_room (room : HasRoom d.er) : HasRoom (settleBus b d).er := autoRecover_room room

theorem writeBusCtrl_room {data : Word} (room : HasRoom d.er) : HasRoom (writeBusCtrl b data d).er :=
  ite_room (settleBus_room room) (settleBus_room room)

/-! ### Loader -/

theorem setImageSlot_room {s : Fin 2} {p : SlotPhase} {gen : Word} {len : ℕ} (room : HasRoom d.er) :
    HasRoom (setImageSlot nv s p gen len d).er :=
  storePump_room room

theorem moveImageSlot_room {s : Fin 2} {p : SlotPhase} (room : HasRoom d.er) : HasRoom (moveImageSlot nv s p d).er :=
  setImageSlot_room room

theorem raiseImage_room {op : ℕ} {s : Fin 2} {kind : Byte} {index : Byte} {res : ImgResult} (room : HasRoom d.er) :
    HasRoom (raiseImage tm op s kind index res d).er :=
  raise_room room

theorem setReport_room {k : Word} {es : List ClampEntry} (room : HasRoom d.er) : HasRoom (setReport k es d).er := room

theorem settleSlot_room {was : Device} {d0 : Device} (room : HasRoom d0.er) : HasRoom (settleSlot tm was g d0).er := by
  unfold settleSlot
  dsimp only [Device.onSlot, sendWrite, sendCell, Device.onLane, wakeFor, wakeLane]
  split
  · with_reducible exact ite_room room room
  · with_reducible exact ite_room (ite_room (ite_room (ite_room room room) (ite_room room room)) (ite_room
                     (ite_room room room) (ite_room room room))) (ite_room (ite_room (ite_room room room)
                     (ite_room room room)) (ite_room (ite_room room room) (ite_room room room)))

theorem loadRail_room {was : Option RailSect} {b : RailSect} (room : HasRoom d.er) : HasRoom (loadRail tm r was b d).er :=
  setIlim_room room

theorem putRail_room {new : Option (InForce RailSect)} {d0 : Device} (room : HasRoom d0.er) :
    HasRoom (putRail tm r new d0).er := by
  unfold putRail updateLoad finishCmd endCmd
  refine loadProtect_room ?_
  split
  · exact loadRail_room (foldl_room (fun _ _ room => settleSlot_room room) (foldl_room
      (fun _ _ room => raiseRetire_room room) room))
  · exact foldl_room (fun _ _ room => settleSlot_room room) (foldl_room (fun _ _ room => raiseRetire_room room) room)

theorem keepHistories_room {old : RailSect} {b : RailSect} {was : Device} (room : HasRoom d.er) :
    HasRoom (keepHistories r old b was d).er :=
  ite_room (ite_room room room) (foldl_room (fun _ _ room => room) (ite_room room room))

theorem putRunning_room {old : RailSect} {new : InForce RailSect} {was d' : Device} (room : HasRoom was.er)
    (h : putRunning tm r old new was = some d') : HasRoom d'.er := by
  unfold putRunning at h
  extract_lets sect d1 set gone d2 tbi d3 d4 joiners d5 kept d6 d7 at h
  have room1 : HasRoom d1.er := unwindRail_room (endTuneOn_room room)
  clear_value d1
  have room2 : HasRoom d2.er := foldl_room (fun _ _ room => room) room1
  clear_value d2
  have room4 : HasRoom d4.er := putRail_room room2
  clear_value d4
  have room5 : HasRoom d5.er := foldl_room (fun _ _ room => orderedJoin_room room) room4
  clear_value d5
  have room6 : HasRoom d6.er := ite_room room5 (recompute_room room5)
  clear_value d6
  have room7 : HasRoom d7.er := ite_room (keepHistories_room room6) room6
  clear_value d7
  split at h
  · cases h
  · cases h
    exact ite_room room7 room7

theorem takeRail_room {w : Waiting RailSect} {y : Device × ImgResult} (room : HasRoom d.er) (h : takeRail tm r w d = some y) :
    HasRoom y.1.er := by
  unfold takeRail at h
  dsimp only at h
  split at h
  · split_ifs at h <;> cases h
    · exact putRail_room room
    · exact room
  · split_ifs at h
    · cases h; exact room
    · cases h; exact room
    · cases h; exact putRail_room room
    · split at h
      · cases h
      · split_ifs at h
        split at h <;> cases h
        · next put => exact putRunning_room room put
        · exact room

theorem applyPeriph_room {new : Option (InForce PeriphSect)} (room : HasRoom d.er) : HasRoom (applyPeriph new d).er := by
  unfold applyPeriph
  dsimp only
  split
  · with_reducible exact room
  · with_reducible exact room

theorem stage_room {s : Fin 2} {rollback : Bool} {kind : Byte} {index : Byte} {x : Option (Section × Word)}
    (room : HasRoom d.er) :
    HasRoom (stage s rollback kind index x d).er := by
  unfold stage
  split
  · exact room
  · exact room
  · exact room
  · exact room
  · exact room
  · exact room
  · split
    · split
      · exact room
      · exact room
    · exact room
    · exact room
    · exact room
    · exact room
    · exact room

theorem queueChange_room {lc : LifeCycle} (room : HasRoom d.er) : HasRoom (queueChange nv lc d).er := storePump_room room

theorem finishRollback_room (room : HasRoom d.er) : HasRoom (finishRollback tm nv d).er := by
  unfold finishRollback
  dsimp only [closeImg]
  split
  · with_reducible exact queueChange_room (raiseImage_room (raiseImage_room (moveImageSlot_room room)))
  · with_reducible exact raiseImage_room (raiseImage_room (moveImageSlot_room room))

theorem rollOn_room {left : List (Byte × Byte)} (room : HasRoom d.er) : HasRoom (rollOn tm nv left d).er := by
  induction left generalizing d with
  | nil => exact finishRollback_room room
  | cons y rest ih =>
    obtain ⟨kind, index⟩ := y
    unfold rollOn
    extract_lets left
    split
    · exact ih room
    · split
      · exact stage_room room
      · exact ih room
      · split
        · exact ih room
        · exact stage_room room

theorem startRollback_room (room : HasRoom d.er) : HasRoom (startRollback tm nv d).er := rollOn_room room

theorem endImg_room {res : ImgResult} (room : HasRoom d.er) : HasRoom (endImg tm nv res d).er :=
  ite_room (startRollback_room room) room

theorem sectionEnds_room {rollback : Bool} {s : Fin 2} {kind : Byte} {index : Byte} {removed : Bool} {res : ImgResult}
    (room : HasRoom d.er) :
    HasRoom (sectionEnds tm nv rollback s kind index removed res d).er :=
  ite_room (rollOn_room (ite_room room room)) (endImg_room (raiseImage_room (ite_room room room)))

theorem railTakesEffect_room (room : HasRoom d.er) : HasRoom (railTakesEffect tm nv r d).er := by
  unfold railTakesEffect
  split
  · exact room
  · split
    · exact room
    · next taken => exact ite_room room (sectionEnds_room (takeRail_room room taken))

theorem schedTakesEffect_room (room : HasRoom d.er) : HasRoom (schedTakesEffect tm nv d).er := by
  unfold schedTakesEffect
  dsimp only [applyPartners]
  split
  · split
    · with_reducible exact room
    · with_reducible exact sectionEnds_room (applySched_room room)
  · with_reducible refine sectionEnds_room ?_
    split
    · with_reducible exact room
    · with_reducible exact sectionEnds_room (applySched_room room)

theorem hkeepTakesEffect_room (room : HasRoom d.er) : HasRoom (hkeepTakesEffect tm nv d).er := by
  unfold hkeepTakesEffect
  split
  · exact room
  · exact sectionEnds_room room

theorem periphTakesEffect_room (room : HasRoom d.er) : HasRoom (periphTakesEffect tm nv d).er := by
  unfold periphTakesEffect
  split
  · exact room
  · exact ite_room room (sectionEnds_room (applyPeriph_room room))

theorem eraseImage_room {s : Fin 2} (room : HasRoom d.er) : HasRoom (eraseImage nv s d).er :=
  ite_room room (ite_room room (storePump_room room))

theorem imageErased_room {s : Fin 2} (room : HasRoom d.er) : HasRoom (imageErased tm nv s d).er := by
  unfold imageErased
  refine endImg_room ?_
  refine foldl_room (fun _ _ room => ?_) room
  split
  · exact sectorReady_room room
  · exact room

theorem eraseLost_room {tag : StoreTag} (room : HasRoom d.er) : HasRoom (eraseLost tm nv tag d).er := by
  unfold eraseLost
  split
  · exact ite_room (endImg_room room) room
  · exact room

theorem writeImageData_room {data : Word} (room : HasRoom d.er) : HasRoom (writeImageData nv data d).er := by
  unfold writeImageData
  split
  · exact room
  · refine ite_room ?_ ?_
    · exact room
    · refine ite_room ?_ ?_
      · exact room
      · split
        · exact room
        · exact storePump_room room

theorem sealImage_room {s : Fin 2} (room : HasRoom d.er) : HasRoom (sealImage s d).er := ite_room room (ite_room room room)

theorem openImage_room {s : Fin 2} (room : HasRoom d.er) : HasRoom (openImage s d).er := ite_room room (ite_room room room)

theorem applySection_room {kind : Byte} {index : Byte} (room : HasRoom d.er) : HasRoom (applySection nv kind index d).er :=
  ite_room room (ite_room room (ite_room room (ite_room room room)))

theorem confirmImage_room (room : HasRoom d.er) : HasRoom (confirmImage tm nv d).er := by
  unfold confirmImage
  dsimp only [closeImg]
  with_reducible refine ite_room ?_ ?_
  · with_reducible exact room
  · split
    · with_reducible exact room
    · with_reducible exact ite_room room (ite_room room (raiseImage_room (moveImageSlot_room room)))

theorem rollbackImage_room (room : HasRoom d.er) : HasRoom (rollbackImage tm nv d).er := ite_room (startRollback_room room) room

theorem sealChecked_room {s : Fin 2} (room : HasRoom d.er) : HasRoom (sealChecked tm nv s d).er := by
  unfold sealChecked
  refine ite_room ?_ ?_
  · exact endImg_room room
  · split
    · exact endImg_room room
    · exact endImg_room (setImageSlot_room room)

theorem openChecked_room {s : Fin 2} (room : HasRoom d.er) : HasRoom (openChecked tm nv s d).er := by
  unfold openChecked
  split
  · exact endImg_room room
  · exact ite_room (endImg_room room) (ite_room (endImg_room room) (endImg_room (raiseImage_room (moveImageSlot_room room))))

theorem applyChecked_room {kind : Byte} {index : Byte} (room : HasRoom d.er) :
    HasRoom (applyChecked tm nv kind index d).er := by
  unfold applyChecked
  dsimp only [setReport]
  split
  · with_reducible exact ite_room (stage_room room) (sectionEnds_room room)
  · with_reducible exact sectionEnds_room room
  · split
    · with_reducible exact sectionEnds_room room
    · split
      · with_reducible exact sectionEnds_room room
      · with_reducible exact stage_room room
    · with_reducible exact stage_room room

theorem checkEnds_room (room : HasRoom d.er) : HasRoom (checkEnds tm nv d).er := by
  unfold checkEnds
  split
  · exact ite_room room (sealChecked_room room)
  · exact openChecked_room room
  · exact ite_room room (applyChecked_room room)
  · exact room

theorem abortApply_room (room : HasRoom d.er) : HasRoom (abortApply tm nv r d).1.er := by
  unfold abortApply
  split
  · exact ite_fst_room (endImg_room (raiseImage_room room)) room
  · exact room

/-! ### Supervisor -/

theorem supervisorStart_room (room : HasRoom d.er) : HasRoom (supervisorStart tm d).er := ite_room room room

theorem moveCode_room {op : ℕ} {s : Fin 2} {p : SlotPhase} (room : HasRoom x.2.er) : HasRoom (moveCode tm op s p x).2.er :=
  ite_snd_room room (raise_room room)

theorem rejectTrial_room {op : ℕ} (room : HasRoom x.2.er) : HasRoom (rejectTrial tm op x).2.er := by
  unfold rejectTrial
  dsimp only [bootInto, supervisorReset]
  split
  · with_reducible exact room
  · with_reducible exact moveCode_room room

theorem bootFirmware_room (room : HasRoom x.2.er) : HasRoom (bootFirmware tm x).2.er := by
  unfold bootFirmware
  with_reducible exact foldl_snd_room (fun _ _ room => ite_snd_room (moveCode_room room) room) room

theorem fwEraseStart_room {s : Fin 2} (room : HasRoom x.2.er) : HasRoom (fwEraseStart s x).2.er := ite_snd_room room room

theorem fwSealStart_room {s : Fin 2} (room : HasRoom x.2.er) : HasRoom (fwSealStart s x).2.er := ite_snd_room room room

theorem codeFlashEnd_room (room : HasRoom x.2.er) : HasRoom (codeFlashEnd tm x).2.er := by
  unfold codeFlashEnd
  dsimp only [endFw]
  split
  · with_reducible exact room
  · with_reducible exact moveCode_room room
  · split
    · with_reducible exact moveCode_room room
    · with_reducible exact room

theorem writeFwData_room {data : Word} (room : HasRoom x.2.er) : HasRoom (writeFwData data x).2.er := by
  unfold writeFwData
  split
  · exact room
  · exact ite_snd_room room room

theorem fwSwitch_room {s : Fin 2} (room : HasRoom x.2.er) : HasRoom (fwSwitch tm s x).2.er := by
  unfold fwSwitch
  dsimp only [endFw, addCause, bootInto, supervisorReset]
  with_reducible exact ite_snd_room room (moveCode_room room)

theorem fwConfirm_room (room : HasRoom x.2.er) : HasRoom (fwConfirm tm x).2.er := by
  unfold fwConfirm
  dsimp only [endFw, addJob]
  split
  · with_reducible exact room
  · with_reducible exact ite_snd_room (moveCode_room (ite_room (storePump_room (moveCode_room room)) (moveCode_room room)))
                     (ite_room (storePump_room (moveCode_room room)) (moveCode_room room))

theorem fwRollback_room (room : HasRoom x.2.er) : HasRoom (fwRollback tm x).2.er := ite_snd_room room (rejectTrial_room room)

theorem fwTrialTimeout_room (room : HasRoom x.2.er) : HasRoom (fwTrialTimeout tm x).2.er := by
  unfold fwTrialTimeout
  split
  · exact room
  · exact ite_snd_room (rejectTrial_room room) room

theorem watchdog_room (room : HasRoom x.2.er) : HasRoom (watchdog tm x).2.er :=
  ite_snd_room room (ite_snd_room (rejectTrial_room (raiseFault_room room)) (raiseFault_room room))

/-! ### Startup -/

theorem supplyTrip_room (room : HasRoom s.dev.er) : HasRoom (supplyTrip s).dev.er := resetState_room room

theorem releaseFilter_room (room : HasRoom d.er) : HasRoom (releaseFilter d).er := ite_room room room

theorem rstLow_room (room : HasRoom s.dev.er) : HasRoom (rstLow s).dev.er := resetState_room room

theorem clockLost_room (room : HasRoom s.dev.er) : HasRoom (clockLost s).dev.er := ite_state_room room (resetState_room room)

theorem raiseRam_room {blk : RamBlock} (room : HasRoom d.er) : HasRoom (raiseRam tm blk d).er := raiseFault_room room

theorem ramFails_room {blk : RamBlock} {correctable : Bool} (room : HasRoom s.dev.er) :
    HasRoom (ramFails blk correctable s).dev.er := by
  unfold ramFails
  refine ite_state_room ?_ ?_
  · exact raiseRam_room (ite_room room room)
  · split
    · exact raiseRam_room room
    · exact resetState_room room
    · exact resetState_room room
    · exact resetState_room room
    · exact resetState_room room

theorem resetQuadrant_room {q : Fin 4} (room : HasRoom d.er) : HasRoom (resetQuadrant tm q d).er :=
  foldl_room (fun _ _ room => foldl_room (fun _ _ room => room) room) (foldl_room (fun _ _ room => laneUnused_room room) room)

theorem quadGone_room {q : Fin 4} (room : HasRoom d.er) : HasRoom (quadGone q d).er :=
  foldl_room (fun _ _ room => ite_room room room) room

theorem askQuadrantReset_room {q : Fin 4} (room : HasRoom d.er) : HasRoom (askQuadrantReset tm q d).er := by
  unfold askQuadrantReset
  with_reducible exact quadGone_room room

theorem quadrantResets_room {q : Fin 4} (room : HasRoom d.er) : HasRoom (quadrantResets tm q d).er :=
  ite_room (resetQuadrant_room room) room

theorem holdQuadrant_room {q : Fin 4} (room : HasRoom d.er) : HasRoom (holdQuadrant tm q d).er :=
  foldl_room (fun _ _ room => ite_room (enterHold_room room) room) room

theorem quadrantTimesOut_room {q : Fin 4} (room : HasRoom d.er) : HasRoom (quadrantTimesOut tm q d).er := by
  unfold quadrantTimesOut
  split
  · exact room
  · exact ite_room (resetQuadrant_room (holdQuadrant_room room)) room

theorem filterEnds_room (room : HasRoom d.er) : HasRoom (filterEnds nv d).er := ite_room room room

theorem wipeEnds_room (room : HasRoom s.dev.er) : HasRoom (wipeEnds s).dev.er := ite_state_room room (ite_state_room room room)

theorem pllLocks_room (room : HasRoom s.dev.er) : HasRoom (pllLocks s).dev.er := ite_state_room room (ite_state_room room room)

theorem lockIsLate_room (room : HasRoom d.er) : HasRoom (lockIsLate d).er := ite_room room room

theorem selectSlot_room (room : HasRoom d.er) : HasRoom (selectSlot tm nv d).er := by
  unfold selectSlot
  dsimp only
  split
  · with_reducible refine ite_room ?_ ?_
    · with_reducible refine moveImageSlot_room ?_
      with_reducible refine foldl_room (fun _ _ room => ?_) room
      split
      · with_reducible exact raiseImage_room (moveImageSlot_room room)
      · with_reducible exact ite_room room (raiseImage_room room)
      · with_reducible exact ite_room room (raiseImage_room room)
      · with_reducible exact room
    · with_reducible refine foldl_room (fun _ _ room => ?_) room
      split
      · with_reducible exact raiseImage_room (moveImageSlot_room room)
      · with_reducible exact ite_room room (raiseImage_room room)
      · with_reducible exact ite_room room (raiseImage_room room)
      · with_reducible exact room
  · with_reducible refine foldl_room (fun _ _ room => ?_) room
    split
    · with_reducible exact raiseImage_room (moveImageSlot_room room)
    · with_reducible exact ite_room room (raiseImage_room room)
    · with_reducible exact ite_room room (raiseImage_room room)
    · with_reducible exact room

theorem loadRecorder_room {st : Store} {perm : Nat × Nat} (room : HasRoom e) : HasRoom (loadRecorder nv st perm e) :=
  room.of_sublist (List.Sublist.refl _)

theorem raiseStart_room (room : HasRoom d.er) : HasRoom (raiseStart tm nv d).er := pushEvent_room room

theorem raiseDeferred_room (room : HasRoom d.er) : HasRoom (raiseDeferred tm d).er :=
  foldl_room (fun _ _ room => raiseFault_room room) room

theorem raiseRecovery_room {x : Settling} (room : HasRoom d.er) : HasRoom (raiseRecovery tm x d).er :=
  ite_room (raise_room (foldl_room (fun _ _ room => raise_room (raiseFault_room room)) room)) (foldl_room
      (fun _ _ room => raise_room (raiseFault_room room)) room)

theorem afterRecovery_room (room : HasRoom d.er) : HasRoom (afterRecovery tm nv d).er :=
  ite_room room (copyShutdowns_room (selectSlot_room room))

theorem recoveryEnds_room (room : HasRoom s.dev.er) : HasRoom (recoveryEnds s).dev.er := by
  unfold recoveryEnds
  refine ite_state_room room ?_
  extract_lets x st d sg perm nv y was st2 er _ tm _ _ _ d2 f
  have room1 : HasRoom er := seqAtStart_room (loadRecorder_room room)
  clear_value er
  have room2 : HasRoom (raiseRecovery tm x (raiseDeferred tm d2)).er := raiseRecovery_room (raiseDeferred_room room1)
  have room3 : HasRoom f.2.er := bootFirmware_room room2
  clear_value f
  exact afterRecovery_room (raiseStart_room room3)

theorem applyRing_room {x : DeviceSect} (room : HasRoom d.er) : HasRoom (applyRing tm x d).er :=
  ite_room room (ite_room room (raiseRing_room room))

theorem putStructure_room {str : Structure} (room : HasRoom d.er) : HasRoom (putStructure tm str d).er := by
  unfold putStructure updateLoad
  dsimp only
  refine foldl_room (fun _ _ room => settleDomain_room room) ?_
  refine foldl_room (fun _ _ room => laneDown_room room) ?_
  refine applyRing_room ?_
  refine applyPeriph_room ?_
  refine loadProtect_room ?_
  refine foldl_room (fun _ _ room => ?_) room
  split
  · exact loadRail_room room
  · exact room

theorem trainLanes_room (room : HasRoom d.er) : HasRoom (trainLanes tm d).er :=
  foldl_room (fun _ _ room => startTraining_room room) room

theorem wholeApply_room (room : HasRoom d.er) : HasRoom (wholeApply tm nv d).er := by
  unfold wholeApply
  refine ite_room room ?_
  extract_lets next strap
  have room1 {d : Device} (room : HasRoom d.er) : HasRoom (next d).er := by
    dsimp only [next]
    with_reducible exact trainLanes_room room
  have room2 {d : Device} (room : HasRoom d.er) : HasRoom (strap d).er := by
    dsimp only [strap]
    with_reducible exact room1 (putStructure_room room)
  clear_value next strap
  split
  · exact room2 room
  · split
    · exact room2 (raiseImage_room room)
    · dsimp only
      with_reducible exact room1 (raiseImage_room (setReport_room (putStructure_room room)))

theorem strapPhases_room {found : List (Fin 512)} (room : HasRoom d.er) : HasRoom (strapPhases tm found d).er := by
  unfold strapPhases
  split
  · exact room
  · dsimp only
    with_reducible exact putRail_room room

theorem reachReady_room (room : HasRoom d.er) : HasRoom (reachReady tm d).er := by
  unfold reachReady
  refine ite_room room ?_
  extract_lets found d1 _ d2 d3 d4 d5 _ d6 d7
  have room1 : HasRoom d1.er := ite_room (strapPhases_room room) room
  clear_value d1
  have room3 : HasRoom d3.er := by
    refine foldl_room (fun _ _ room => ?_) room1
    split <;> exact room
  clear_value d3
  have room4 : HasRoom d4.er := by
    refine ite_room room3 (foldl_room (fun _ _ room => ?_) room3)
    split
    · split <;> exact room
    · exact room
  clear_value d4
  have room5 : HasRoom d5.er := foldl_room (fun _ _ room => ite_room (laneLoss_room room) room) room4
  clear_value d5
  have room7 : HasRoom d7.er := settleBus_room (settleBus_room room5)
  clear_value d7
  exact ite_room room7 room7

theorem pfailFalls_room (room : HasRoom s.dev.er) : HasRoom (pfailFalls s).dev.er :=
  ite_state_room room (storePump_room (recorderFails_room room))

theorem pfailRises_room (room : HasRoom s.dev.er) : HasRoom (pfailRises s).dev.er := ite_state_room room (ite_room room room)

theorem pfailOver_room (room : HasRoom s.dev.er) : HasRoom (pfailOver s).dev.er :=
  ite_state_room room (ite_room (afterRecovery_room (storePump_room (ite_room (recorderRecovers_room room) room)))
      (copyShutdowns_room (storePump_room (ite_room (recorderRecovers_room room) room))))

/-! ### Power -/

theorem stopCalibration_room (room : HasRoom d.er) : HasRoom (stopCalibration g d).er := by
  unfold stopCalibration
  split
  · exact room
  · split
    · exact room
    · exact room

theorem stopQuadrant_room {q : Fin 4} (room : HasRoom d.er) : HasRoom (stopQuadrant tm q d).er :=
  foldl_room (fun _ _ room => ite_room (ite_room (setSlot_room (immediateLeave_room (stopCalibration_room room)))
      (immediateLeave_room (stopCalibration_room room))) (stopCalibration_room room)) (foldl_room (fun _ _ room => room) room)

theorem settleSmoulder_room (room : HasRoom d.er) : HasRoom (settleSmoulder tm d).er :=
  foldl_room (fun _ _ room => ite_room (stopQuadrant_room room) room) room

theorem smoulderQuadrant_room {q : Fin 4} (room : HasRoom d.er) : HasRoom (smoulderQuadrant tm q d).er := by
  unfold smoulderQuadrant
  dsimp only [endPower]
  with_reducible exact ite_room room (settleSmoulder_room (raisePower_room (quadGone_room room)))

theorem smoulderTimesOut_room {q : Fin 4} (room : HasRoom d.er) : HasRoom (smoulderTimesOut tm q d).er := by
  unfold smoulderTimesOut
  split
  · exact room
  · exact ite_room (stopQuadrant_room (holdQuadrant_room room)) room

theorem wakeQuadrant_room {q : Fin 4} (room : HasRoom d.er) : HasRoom (wakeQuadrant tm q d).er :=
  ite_room room (ite_room room (raisePower_room room))

theorem carrierStarts_room {g : Fin 8} (room : HasRoom d.er) : HasRoom (carrierStarts tm g d).er :=
  settleSmoulder_room (carrierPeriod_room room)

theorem enterTrim_room (room : HasRoom d.er) : HasRoom (enterTrim tm d).er := by
  unfold enterTrim
  split
  · exact room
  · exact room
  · exact ite_room room (raisePower_room room)

theorem stopClocks_room (room : HasRoom d.er) : HasRoom (stopClocks d).er := settleBus_room (settleBus_room room)

theorem enterStandby_room (room : HasRoom s.dev.er) : HasRoom (enterStandby s).dev.er := by
  unfold enterStandby
  refine ite_state_room ?_ ?_
  · exact room
  · split
    · exact room
    · exact stopClocks_room (raisePower_room room)

theorem resumeDevice_room {gap : ℕ} {cause : ℕ} (room : HasRoom d.er) : HasRoom (resumeDevice tm gap cause nv d).er := by
  unfold resumeDevice
  with_reducible exact storePump_room (copyShutdowns_room (raisePower_room (foldl_room
                   (fun _ _ room => startRetrain_room room) (settleBus_room (settleBus_room room)))))

theorem resumeNow_room {cause : ℕ} (room : HasRoom s.dev.er) : HasRoom (resumeNow cause s).dev.er := by
  unfold resumeNow
  with_reducible exact resumeDevice_room room

theorem wakeDevice_room {cause : ℕ} (room : HasRoom s.dev.er) : HasRoom (wakeDevice cause s).dev.er :=
  ite_state_room room (ite_state_room (resumeNow_room room) room)

theorem wake_room {c : WakeCause} (room : HasRoom s.dev.er) : HasRoom (wake c s).dev.er := by
  unfold wake
  split
  · exact wakeDevice_room room
  · exact room

theorem wakeHot_room {was : Device} (room : HasRoom s.dev.er) : HasRoom (wakeHot was s).dev.er :=
  ite_state_room (wakeDevice_room room) (ite_state_room (wakeDevice_room room) room)

theorem enterRun_room (room : HasRoom s.dev.er) : HasRoom (enterRun s).dev.er := by
  unfold enterRun
  split
  · exact room
  · exact raisePower_room (leaveTrim_room room)
  · exact wakeDevice_room room

/-! ### Guard -/

theorem writePort_room {locked : ℕ} (room : HasRoom d.er) : HasRoom (writePort nv p locked d).er := storePump_room room

theorem raiseSession_room {event : ℕ} {level : ℕ} {fails : ℕ} {lock : ℕ} (room : HasRoom d.er) :
    HasRoom (raiseSession tm p event level fails lock d).er :=
  raise_room room

theorem reserveBlock_room (room : HasRoom d.er) : HasRoom (reserveBlock nv d).er := storePump_room room

theorem blockReserved_room (room : HasRoom d.er) : HasRoom (blockReserved d).er := by
  unfold blockReserved
  refine ite_room ?_ ?_
  · refine showDebugChallenge_room ?_
    refine foldl_room (fun _ _ room => ?_) room
    split
    · exact showChallenge_room room
    · exact room
  · refine foldl_room (fun _ _ room => ?_) room
    split
    · exact showChallenge_room room
    · exact room

theorem openSession_room {level : BitVec 2} (room : HasRoom d.er) : HasRoom (openSession tm nv p level d).er :=
  ite_room room (ite_room room (ite_room (showChallenge_room room) (ite_room room (ite_room room (reserveBlock_room room)))))

theorem lockPort_room {level : ℕ} (room : HasRoom d.er) : HasRoom (lockPort tm p level d).er := raiseSession_room room

theorem countFailure_room {level : ℕ} (room : HasRoom d.er) : HasRoom (countFailure tm nv p level d).er :=
  ite_room (writePort_room room) (writePort_room (lockPort_room room))

theorem proofGood_room {dproof : List Byte} (room : HasRoom d.er) : HasRoom (proofGood tm nv p dproof d).er :=
  ite_room (writePort_room (raiseSession_room room)) (raiseSession_room room)

theorem prove_room (room : HasRoom d.er) : HasRoom (prove tm nv p d).er := by
  unfold prove
  refine ite_room ?_ ?_
  · exact room
  · refine ite_room ?_ ?_
    · exact room
    · refine ite_room ?_ ?_
      · exact proofGood_room room
      · refine ite_room ?_ ?_
        · exact ite_room (proofGood_room room) room
        · split
          · exact room
          · exact ite_room (proofGood_room room) (countFailure_room (raiseSession_room room))

theorem tokenEnds_room {scope : BitVec 2} {r : GuardResult} (room : HasRoom d.er) : HasRoom (tokenEnds tm scope r d).er :=
  raise_room room

theorem tokenFailed_room (room : HasRoom d.er) : HasRoom (tokenFailed tm d).er := by
  unfold tokenFailed
  split
  · exact room
  · exact ite_room (tokenEnds_room room) (tokenEnds_room room)

theorem portWritten_room (room : HasRoom d.er) : HasRoom (portWritten tm p d).er := by
  unfold portWritten
  dsimp only [guardInt, proofFailed, endSession, Device.onSession, closeSession]
  with_reducible exact ite_room room (ite_room (ite_room (tokenFailed_room (ite_room room room)) (ite_room room room))
                   (ite_room (tokenFailed_room (ite_room room room)) (ite_room room room)))

theorem sessionIdle_room (room : HasRoom d.er) : HasRoom (sessionIdle tm p d).er := ite_room (raiseSession_room room) room

theorem lockoutEnds_room (room : HasRoom d.er) : HasRoom (lockoutEnds tm nv p d).er := by
  unfold lockoutEnds
  split
  · exact room
  · exact ite_room (writePort_room room) room

theorem installKey_room {target : BitVec 3} (room : HasRoom d.er) : HasRoom (installKey nv p target d).er := by
  unfold installKey
  dsimp only [endGuard, guardInt, addJob]
  split
  · with_reducible exact room
  · with_reducible exact ite_room room (ite_room room (storePump_room room))

theorem keyCommand_room {target : BitVec 3} (room : HasRoom d.er) : HasRoom (keyCommand nv src target d).er := by
  unfold keyCommand
  split
  · exact room
  · exact ite_room room (installKey_room room)

theorem keyWritten_room {t : Fin 5} {gen : Word} {key : List Byte} (room : HasRoom d.er) :
    HasRoom (keyWritten tm t gen key d).er :=
  raise_room room

theorem beginChange_room {new : LifeCycle} (room : HasRoom d.er) : HasRoom (beginChange tm nv new d).er :=
  ite_room (ite_room room (startRollback_room room)) (queueChange_room room)

theorem changeLife_room {new : LifeCycle} (room : HasRoom d.er) : HasRoom (changeLife tm nv src new d).er := by
  unfold changeLife
  refine ite_room ?_ ?_
  · exact room
  · refine ite_room ?_ ?_
    · exact room
    · refine ite_room ?_ ?_
      · exact room
      · refine ite_room ?_ ?_
        · exact room
        · refine ite_room ?_ ?_
          · exact room
          · split
            · exact room
            · exact beginChange_room room

theorem queueWipe_room {lc : LifeCycle} {r : Fin 11} (room : HasRoom d.er) : HasRoom (queueWipe nv lc r d).er :=
  ite_room room room

theorem clearVolatile_room {lc : LifeCycle} (room : HasRoom d.er) : HasRoom (clearVolatile lc d).er := by
  unfold clearVolatile
  split
  · exact room
  · exact room
  · exact room

theorem lifeWritten_room {lc : LifeCycle} {mask : Word} (room : HasRoom d.er) : HasRoom (lifeWritten tm nv lc mask d).er :=
  ite_room (foldl_room (fun _ _ room => queueWipe_room room) (raise_room (clearVolatile_room (foldl_room
      (fun _ _ room => room) room)))) (foldl_room (fun _ _ room => queueWipe_room room) (raise_room (clearVolatile_room
      (foldl_room (fun _ _ room => room) room))))

theorem wipesDone_room (room : HasRoom d.er) : HasRoom (wipesDone nv d).er := ite_room room (storePump_room room)

theorem debugReset_room (room : HasRoom s.dev.er) : HasRoom (debugReset s).dev.er := ite_state_room room (resetState_room room)

theorem debugChallenge_room (room : HasRoom d.er) : HasRoom (debugChallenge tm nv d).er :=
  ite_room room (ite_room room (ite_room (showDebugChallenge_room room) (ite_room room (ite_room room
      (reserveBlock_room room)))))

theorem tokenGood_room {scope : BitVec 2} (room : HasRoom d.er) : HasRoom (tokenGood tm scope d).er := tokenEnds_room room

theorem debugToken_room {scope : BitVec 2} {token : BitVec 256} (room : HasRoom d.er) :
    HasRoom (debugToken tm nv scope token d).er := by
  unfold debugToken
  refine ite_room ?_ ?_
  · exact room
  · extract_lets d1 _
    have room1 : HasRoom d1.er := room
    refine ite_room ?_ ?_
    · exact raise_room room1
    · refine ite_room ?_ ?_
      · exact tokenEnds_room room1
      · refine ite_room ?_ ?_
        · exact tokenEnds_room room1
        · refine ite_room ?_ ?_
          · exact tokenGood_room room1
          · refine ite_room ?_ ?_
            · exact tokenEnds_room room1
            · refine ite_room ?_ ?_
              · exact raise_room room1
              · refine ite_room ?_ ?_
                · exact tokenEnds_room room1
                · split
                  · exact tokenEnds_room room1
                  · exact ite_room (tokenGood_room room1) (countFailure_room room1)

theorem driveSelected_room {k : DriveKind} (room : HasRoom d.er) : HasRoom (driveSelected k d).er := ite_room room room

/-! ### StoreEnd -/

theorem userRead_room {block : Fin 128} (room : HasRoom d.er) : HasRoom (userRead nv block d).er := by
  unfold userRead
  split
  · exact room
  · exact room

theorem userWrite_room {block : Fin 128} (room : HasRoom d.er) : HasRoom (userWrite nv block d).er :=
  ite_room room (ite_room room (ite_room room (storePump_room room)))

theorem protectUser_room {level : BitVec 2} (room : HasRoom d.er) : HasRoom (protectUser nv level d).er :=
  ite_room room (ite_room room (storePump_room room))

theorem protectWritten_room {level : BitVec 2} (room : HasRoom d.er) : HasRoom (protectWritten tm level d).er :=
  ite_room room (raise_room room)

theorem abortStore_room (room : HasRoom d.er) : HasRoom (abortStore nv d).2.1.er :=
  ite_middle_room room (storePump_room (ite_room (foldl_room (fun _ _ room => room) room) (foldl_room
      (fun _ _ room => room) room)))

theorem clearGoesOn_room (room : HasRoom d.er) : HasRoom (clearGoesOn tm d).er :=
  ite_room (bogPump_room (finishClear_room room)) (bogPump_room room)

theorem numbersReserved_room (room : HasRoom d.er) : HasRoom (numbersReserved tm nv d).er := by
  unfold numbersReserved seqReserved seqGrant
  dsimp only
  split
  · exact ite_room (writeCleared_room room) room
  · exact room

theorem counterWritten_room {k : Fin 16} (room : HasRoom d.er) : HasRoom (counterWritten tm nv k d).er :=
  ite_room (blockReserved_room room) (ite_room (numbersReserved_room room) room)

theorem sectorErased_room {p : Fin 128} (room : HasRoom d.er) : HasRoom (sectorErased p d).er :=
  ite_room (sectorReady_room room) (sectorReady_room room)

theorem regionWiped_room {r : Fin 11} {ls : List (Fin 128)} (room : HasRoom d.er) : HasRoom (regionWiped nv r ls d).er :=
  ite_room room room

theorem jobDone_room {tag : StoreTag} (room : HasRoom d.er) : HasRoom (jobDone tm tag nv d).er := by
  unfold jobDone
  split
  · exact room
  · exact room
  · exact room
  · exact room
  · exact room
  · exact room
  · exact imageErased_room room
  · exact keyWritten_room room
  · exact lifeWritten_room room
  · exact room
  · exact protectWritten_room room
  · exact portWritten_room room
  · exact clearGoesOn_room (eventCommitted_room room)
  · exact copyShutdowns_room (shutdownWritten_room room)
  · exact shutdownCopied_room room
  · exact bogPump_room (finishClear_room (clearCommitted_room room))
  · exact counterWritten_room room
  · exact sectorErased_room room
  · exact regionWiped_room room
  · exact room

theorem nextEventPlace_room {tag : StoreTag} {y : Store × Recorder × Nat} (room : HasRoom d.er)
    (h : nextEventPlace nv tag d = some y) : HasRoom y.2.1 := by
  cases tag with
  | event | copied | shutdown =>
    obtain ⟨z, _, eq⟩ := Option.map_eq_some_iff.mp h
    exact (congrArg (·.2.1) eq) ▸ room
  | permanent =>
    obtain ⟨z, _, eq⟩ := Option.map_eq_some_iff.mp h
    exact (congrArg (·.2.1) eq) ▸ room.of_sublist (List.Sublist.refl _)
  | _ => cases h

theorem relocate_room (room : HasRoom d.er) : HasRoom (relocate nv d).er := by
  unfold relocate
  split
  · exact room
  · extract_lets tail own
    refine ite_room room ?_
    split
    · exact room
    · next placed => exact nextEventPlace_room room placed

theorem programEnds_room {verified : Bool} (room : HasRoom x.2.er) : HasRoom (programEnds tm verified x).2.er := by
  unfold programEnds
  extract_lets intent busy y nv d1 d2 d3 d4 d5
  have room1 : HasRoom d1.er := chunkEnd_room room
  clear_value d1
  have room2 : HasRoom d2.er := by
    clear_value intent
    cases intent with
    | none => exact room1
    | some p => exact passTail_room room1
  clear_value d2
  exact storePump_room (jobDone_room (ite_room (relocate_room room2) room2))

theorem eraseEnds_room {verified : Bool} (room : HasRoom x.2.er) : HasRoom (eraseEnds tm verified x).2.er :=
  storePump_room (jobDone_room (eraseLost_room (eraseEnd_room room)))

theorem recordEvent_room (room : HasRoom d.er) : HasRoom (recordEvent tm nv d).er :=
  ite_room (raiseLost_room (writeEvent_room room)) (writeEvent_room room)

theorem chainsEnd_room (room : HasRoom d.er) : HasRoom (chainsEnd tm d).er := endChains_room room

/-! ### TwoWirePort -/

theorem startPoll_room (room : HasRoom d.er) : HasRoom (startPoll d).er := by
  unfold startPoll
  refine ite_room ?_ ?_
  · exact room
  · split
    · exact room
    · exact room

theorem raiseTwp_room {event : ℕ} {e : Option (Fin 32)} (room : HasRoom d.er) : HasRoom (raiseTwp tm event e d).er := by
  unfold raiseTwp
  split
  · exact raise_room room
  · exact raise_room room

theorem pollFails_room {e : Fin 32} {res : PollResult} (room : HasRoom d.er) : HasRoom (pollFails tm e res d).er :=
  ite_room (raiseTwp_room room) room

theorem pollSucceeds_room {e : Fin 32} {value : List Byte} (room : HasRoom d.er) : HasRoom (pollSucceeds tm e value d).er :=
  ite_room (raiseTwp_room room) room

theorem startRecovery_room {e : Option (Fin 32)} {freedAt : Option (Fin 9)} (room : HasRoom d.er) :
    HasRoom (startRecovery tm e freedAt d).er :=
  ite_room room room

theorem busRecoveryEnds_room {x : Recovery} (room : HasRoom d.er) : HasRoom (busRecoveryEnds tm x d).er := by
  unfold busRecoveryEnds
  split
  · exact room
  · refine raiseTwp_room ?_
    split
    · exact ite_room (pollFails_room room) room
    · exact room

theorem tickRecovery_room (room : HasRoom d.er) : HasRoom (tickRecovery tm d).er := by
  unfold tickRecovery
  split
  · exact ite_room (busRecoveryEnds_room room) room
  · exact room

theorem sclHeld_room {e : Option (Fin 32)} (room : HasRoom d.er) : HasRoom (sclHeld tm e d).er :=
  ite_room room (raiseTwp_room room)

theorem pollOutcome_room {e : Fin 32} {p : PeriphEntry} {s : PollOutcome} (room : HasRoom d.er) :
    HasRoom (pollOutcome tm e p d s).er := by
  unfold pollOutcome
  dsimp only [endPoll, Device.onTwp, Device.onPer, twpInt, pollOutcomeHeld]
  split
  · with_reducible exact ite_room room (ite_room (pollFails_room room) (pollSucceeds_room room))
  · with_reducible exact pollFails_room room
  · with_reducible exact pollFails_room room
  · with_reducible exact ite_room room (pollFails_room room)
  · with_reducible exact pollFails_room room
  · with_reducible exact ite_room room (sclHeld_room (pollFails_room room))
  · with_reducible exact startRecovery_room room

theorem afterPoll_room (room : HasRoom d.er) : HasRoom (afterPoll tm d).er := by
  unfold afterPoll
  split
  · exact startRecovery_room room
  · exact room

theorem pollRuns_room {e : Fin 32} {o : PollOutcome} (room : HasRoom d.er) : HasRoom (pollRuns tm e o d).er := by
  unfold pollRuns
  split
  · exact room
  · exact ite_room (afterPoll_room (pollOutcome_room room)) room

theorem pollDue_room {e : Fin 32} (room : HasRoom d.er) : HasRoom (pollDue tm e d).er :=
  ite_room room (ite_room (pollFails_room room) (startPoll_room room))

theorem busFrees_room (room : HasRoom d.er) : HasRoom (busFrees d).er := startPoll_room room

theorem recoveryRetries_room {freedAt : Option (Fin 9)} (room : HasRoom d.er) : HasRoom (recoveryRetries tm freedAt d).er := by
  unfold recoveryRetries
  split
  · exact ite_room (startRecovery_room room) room
  · exact room

theorem recoverAfterReset_room (room : HasRoom d.er) : HasRoom (recoverAfterReset tm d).er := by
  unfold recoverAfterReset
  split
  · exact startRecovery_room room
  · exact room

theorem discardIf_room {writing : Bool} (room : HasRoom d.er) : HasRoom (discardIf writing d).er := ite_room room room

theorem busError_room {role : TwpRole} (room : HasRoom d.er) : HasRoom (busError tm role d).er := by
  unfold busError
  refine ite_room ?_ ?_
  · exact room
  · split
    · exact discardIf_room room
    · split
      · exact pollRuns_room room
      · exact room

theorem clockLowTimeout_room {role : TwpRole} (room : HasRoom d.er) : HasRoom (clockLowTimeout tm role d).er := by
  unfold clockLowTimeout
  refine ite_room ?_ ?_
  · exact room
  · split
    · exact discardIf_room (sclHeld_room room)
    · split
      · exact pollRuns_room room
      · exact sclHeld_room room

theorem abortPoll_room {sdaHeld : Bool} {freedAt : Option (Fin 9)} (room : HasRoom d.er) :
    HasRoom (abortPoll tm sdaHeld freedAt d).1.er := by
  unfold abortPoll
  dsimp only [endPoll, Device.onTwp, Device.onPer]
  split
  · with_reducible exact room
  · with_reducible exact ite_room (startRecovery_room (pollFails_room room)) (afterPoll_room (pollFails_room room))

/-! ### ExecStart -/

theorem portsStart_room {t : State} (room : HasRoom t.dev.er) : HasRoom (portsStart s t).dev.er :=
  ite_state_room (recoverAfterReset_room room) room

/-! ### RegsSys -/

theorem settleAlert_room (room : HasRoom d.er) : HasRoom (settleAlert d).er := room

/-! ### Abort -/

theorem finishAccess_room {acc : PendingAccess} (room : HasRoom d.er) : HasRoom (finishAccess p acc d).er := by
  unfold finishAccess
  split
  · exact ite_room room room
  · exact room
  · exact room

theorem noteLast_room {status : Byte} (room : HasRoom d.er) : HasRoom (noteLast p a status d).er := by
  unfold noteLast
  split
  · exact room
  · exact room
  · exact room

theorem releaseAccess_room {acc : PendingAccess} (room : HasRoom d.er) : HasRoom (releaseAccess p acc d).er :=
  finishAccess_room (noteLast_room (ite_room room room))

theorem abortAccess_room (room : HasRoom d.er) : HasRoom (abortAccess p d).1.er := by
  unfold abortAccess
  split
  · exact ite_fst_room room (releaseAccess_room room)
  · exact room

theorem abortTraining_room (room : HasRoom d.er) : HasRoom (abortTraining tm n d).1.er := by
  unfold abortTraining
  split
  · exact room
  · exact laneLoss_room room
  · exact room
  · exact room
  · exact room

theorem abortOne_room {f : AbortFunc} {sda : Bool × Option (Fin 9)} (room : HasRoom s.dev.er) :
    HasRoom (abortOne f sda s).1.dev.er := by
  unfold abortOne
  dsimp only [abortTune, abortSessionOf, closeSession, Device.onSession]
  split
  · with_reducible exact ite_fst_room (endTune_room room) room
  · with_reducible exact abortApply_room room
  · with_reducible exact abortStore_room room
  · with_reducible exact bogAbort_room room
  · with_reducible exact abortPoll_room room
  · with_reducible exact abortTraining_room room
  · with_reducible exact ite_fst_room room room
  · with_reducible exact abortAccess_room room
  · with_reducible exact room
  · with_reducible exact room
  · with_reducible exact room

theorem abortAll_room {sda : Bool × Option (Fin 9)} (room : HasRoom s.dev.er) : HasRoom (abortAll sda s).1.dev.er := by
  unfold abortAll
  with_reducible exact foldl_fst_state_room (fun _ _ room => ite_fst_state_room (abortOne_room room) (abortOne_room room)) room

theorem abortCommand_room {func : Byte} {index : Byte} {sda : Bool × Option (Fin 9)} (room : HasRoom s.dev.er) :
    HasRoom (abortCommand p func index sda s).2.dev.er := by
  unfold abortCommand
  dsimp only [State.onDev, abortEnds, showAbort, launch]
  with_reducible refine ite_answer_room ?_ ?_
  · with_reducible exact room
  · with_reducible refine ite_answer_room ?_ ?_
    · with_reducible exact room
    · with_reducible refine ite_answer_room ?_ ?_
      · with_reducible exact room
      · split
        · with_reducible exact room
        · with_reducible exact ite_answer_room (abortAll_room room) (abortOne_room room)

theorem recordAbort_room {x : Port × Option AbortFlight} (room : HasRoom d.er) : HasRoom (recordAbort tm d x).er := by
  unfold recordAbort
  split
  · exact ite_room (foldl_room (fun _ _ room => raise_room room) room) room
  · exact room

theorem abortDoneAt_room (room : HasRoom d.er) : HasRoom (abortDoneAt tm p d).er := by
  unfold abortDoneAt
  split
  · exact room
  · exact foldl_room (fun _ _ room => recordAbort_room room) room

theorem abortBlind_room {func : Byte} {index : Byte} (room : HasRoom s.dev.er) : HasRoom (abortBlind p func index s).2.dev.er :=
  abortCommand_room room

theorem abortWrite_room {func : Byte} {index : Byte} {sda : Option (Bool × Option (Fin 9))} (room : HasRoom s.dev.er) :
    HasRoom (abortWrite p func index sda s).2.dev.er := by
  unfold abortWrite
  split
  · exact abortCommand_room room
  · exact abortBlind_room room

/-! ### Acts -/

theorem writeNothing_room (room : HasRoom s.dev.er) : HasRoom (writeNothing src s).2.dev.er :=
  writeFields_room room (fun _ room => room)

theorem actResetWarm_room (room : HasRoom s.dev.er) : HasRoom (actResetWarm src s).2.dev.er :=
  writeState_room room (fun _ room => resetState_room room)

theorem actResetSupervisor_room (room : HasRoom s.dev.er) : HasRoom (actResetSupervisor src s).2.dev.er :=
  writeFields_room room (fun _ room => room)

theorem actResetQuadrant_room {q : Fin 4} (room : HasRoom s.dev.er) : HasRoom (actResetQuadrant src q s).2.dev.er :=
  writeState_room room (fun _ room => askQuadrantReset_room room)

theorem actPwrRun_room (room : HasRoom s.dev.er) : HasRoom (actPwrRun src s).2.dev.er :=
  writeCommand_room room (fun _ room => powerCommand_room room (fun _ room => enterRun_room room))

theorem actPwrTrim_room (room : HasRoom s.dev.er) : HasRoom (actPwrTrim src s).2.dev.er :=
  writeCommand_room room (fun _ room => powerCommand_room room (fun _ room => enterTrim_room room))

theorem actPwrStandby_room (room : HasRoom s.dev.er) : HasRoom (actPwrStandby src s).2.dev.er :=
  writeCommand_room room (fun _ room => powerCommand_room room (fun _ room => enterStandby_room room))

theorem actQopSmoulder_room {q : Fin 4} (room : HasRoom s.dev.er) : HasRoom (actQopSmoulder src q s).2.dev.er :=
  writeCommand_room room (fun _ room => powerCommand_room room (fun _ room => smoulderQuadrant_room room))

theorem actQopQrun_room {q : Fin 4} (room : HasRoom s.dev.er) : HasRoom (actQopQrun src q s).2.dev.er :=
  writeCommand_room room (fun _ room => powerCommand_room room (fun _ room => wakeQuadrant_room room))

theorem actSession_room {f : TimeBase → NonVol → Device → Device} (room : HasRoom s.dev.er)
    (hf : ∀ tm nv (d : Device), HasRoom d.er → HasRoom (f tm nv d).er) : HasRoom (actSession src p f s).2.dev.er :=
  writeState_room room fun s room => hf s.tm s.nv s.dev room

theorem actOpen_room {level : BitVec 2} (room : HasRoom s.dev.er) : HasRoom (actOpen src p level s).2.dev.er :=
  actSession_room room (fun _ _ _ room => openSession_room room)

theorem actProve_room (room : HasRoom s.dev.er) : HasRoom (actProve src p s).2.dev.er :=
  actSession_room room (fun _ _ _ room => prove_room room)

theorem actClose_room (room : HasRoom s.dev.er) : HasRoom (actClose src p s).2.dev.er :=
  actSession_room room (fun _ _ _ room => room)

theorem actKey_room {target : BitVec 3} (room : HasRoom s.dev.er) : HasRoom (actKey src target s).2.dev.er :=
  writeCommand_room room (fun _ room => keyCommand_room room)

theorem actLife_room {new : LifeCycle} (room : HasRoom s.dev.er) : HasRoom (actLife src new s).2.dev.er :=
  writeCommand_room room (fun _ room => changeLife_room room)

theorem actFwData_room {data : Word} (room : HasRoom s.dev.er) : HasRoom (actFwData src data s).2.dev.er :=
  writeState_room room (fun _ room => onStores_room room (fun _ room => writeFwData_room room))

theorem actFw_room {f : TimeBase → NonVol × Device → NonVol × Device} (room : HasRoom s.dev.er)
    (hf : ∀ tm (x : NonVol × Device), HasRoom x.2.er → HasRoom (f tm x).2.er) : HasRoom (actFw src f s).2.dev.er :=
  writeCommand_room room fun s room => onStores_room room fun _ room => fwCommand_room room (hf s.tm)

theorem actFwBad_room (room : HasRoom s.dev.er) : HasRoom (actFwBad src s).2.dev.er := actFw_room room (fun _ _ room => room)

theorem actImgData_room {data : Word} (room : HasRoom s.dev.er) : HasRoom (actImgData src data s).2.dev.er :=
  writeState_room room (fun _ room => writeImageData_room room)

theorem actImg_room {f : TimeBase → NonVol → Device → Device} (room : HasRoom s.dev.er)
    (hf : ∀ tm nv (d : Device), HasRoom d.er → HasRoom (f tm nv d).er) : HasRoom (actImg src f s).2.dev.er :=
  writeCommand_room room fun s room => imgCommand_room room (hf s.tm s.nv)

theorem actImgBad_room (room : HasRoom s.dev.er) : HasRoom (actImgBad src s).2.dev.er :=
  actImg_room room (fun _ _ _ room => room)

theorem actRetrain_room (room : HasRoom s.dev.er) : HasRoom (actRetrain src n s).2.dev.er :=
  writeState_room room (fun _ room => laneRetrain_room room)

theorem actDisable_room {b : Bool} (room : HasRoom s.dev.er) : HasRoom (actDisable src n b s).2.dev.er :=
  writeState_room room (fun _ room => writeDisable_room room)

theorem actAdmit_room (room : HasRoom s.dev.er) : HasRoom (actAdmit src g s).2.dev.er :=
  writeFields_room room (fun _ room => admitSlot_room room)

theorem actRefuse_room (room : HasRoom s.dev.er) : HasRoom (actRefuse src g s).2.dev.er :=
  writeFields_room room (fun _ room => refuseSlot_room room)

theorem actRecal_room (room : HasRoom s.dev.er) : HasRoom (actRecal src g s).2.dev.er :=
  writeState_room room (fun _ room => recalSlot_room room)

theorem actCalSave_room (room : HasRoom s.dev.er) : HasRoom (actCalSave src g s).2.dev.er :=
  writeState_room room (fun _ room => saveCalibration_room room)

theorem actIdentify_room {on : Bool} (room : HasRoom s.dev.er) : HasRoom (actIdentify src g on s).2.dev.er :=
  writeFields_room room (fun _ room => room)

theorem actSlotCal_room {voltage : Bool} {data : Word} (room : HasRoom s.dev.er) :
    HasRoom (actSlotCal src g voltage data s).2.dev.er :=
  writeFields_room room (fun _ room => room)

theorem actBase_room {base : BitVec 16} (room : HasRoom s.dev.er) : HasRoom (actBase src r base s).2.dev.er :=
  writeFields_room room (fun _ room => room)

theorem actRail_room {ok : Device → Bool} {least : Level} {pos : Nat} {f : TimeBase → Device → Device}
    (room : HasRoom s.dev.er) (hf : ∀ tm (d : Device), HasRoom d.er → HasRoom (f tm d).er) :
    HasRoom (actRail src ok least r pos f s).2.dev.er :=
  writeCommand_room room fun s room => railCommand_room room (hf s.tm)

theorem actArm_room (room : HasRoom s.dev.er) : HasRoom (actArm src r s).2.dev.er :=
  actRail_room room (fun _ _ room => armRail_room room)

theorem actDisarm_room (room : HasRoom s.dev.er) : HasRoom (actDisarm src r s).2.dev.er :=
  actRail_room room (fun _ _ room => disarmRail_room room)

theorem actStart_room (room : HasRoom s.dev.er) : HasRoom (actStart src r s).2.dev.er :=
  actRail_room room (fun _ _ room => commandStart_room room)

theorem actStop_room (room : HasRoom s.dev.er) : HasRoom (actStop src r s).2.dev.er :=
  actRail_room room fun _ _ room => stopRail_room room

theorem actSoftstop_room (room : HasRoom s.dev.er) : HasRoom (actSoftstop src r s).2.dev.er :=
  actRail_room room (fun _ _ room => softStop_room room)

theorem actClear_room (room : HasRoom s.dev.er) : HasRoom (actClear src r s).2.dev.er :=
  actRail_room room (fun _ _ room => clearRail_room room)

theorem actRetire_room {pos : Fin 128} (room : HasRoom s.dev.er) : HasRoom (actRetire src r pos s).2.dev.er :=
  actRail_room room (fun _ _ room => retirePhase_room room)

theorem actRestore_room {pos : Fin 128} (room : HasRoom s.dev.er) : HasRoom (actRestore src r pos s).2.dev.er :=
  actRail_room room (fun _ _ room => restorePhase_room room)

theorem actRailBad_room (room : HasRoom s.dev.er) : HasRoom (actRailBad src r s).2.dev.er :=
  actRail_room room (fun _ _ room => room)

theorem actVset_room {data : Word} (room : HasRoom s.dev.er) : HasRoom (actVset src r data s).2.dev.er :=
  writeFields_room room (fun _ room => room)

theorem actVnext_room {data : Word} (room : HasRoom s.dev.er) : HasRoom (actVnext src r data s).2.dev.er :=
  writeFields_room room (fun _ room => room)

theorem actWindow_room {high : Bool} {data : Word} (room : HasRoom s.dev.er) : HasRoom (actWindow src r high data s).2.dev.er :=
  writeFields_room room (fun _ room => room)

theorem actTripped_room {i : Fin 4} {data : Word} (room : HasRoom s.dev.er) : HasRoom (actTripped src r i data s).2.dev.er :=
  writeFields_room room (fun _ room => room)

theorem actLoopClear_room (room : HasRoom s.dev.er) : HasRoom (actLoopClear src r s).2.dev.er :=
  writeFields_room room (fun _ room => room)

theorem actLeClear_room (room : HasRoom s.dev.er) : HasRoom (actLeClear src s).2.dev.er :=
  writeFields_room room (fun _ room => room)

theorem actAtStart_room {loop : BitVec 1} {rule : BitVec 2} (room : HasRoom s.dev.er) :
    HasRoom (actAtStart src r loop rule s).2.dev.er :=
  writeCommand_room room (fun _ room => byLevel_room room (fun _ room => startTune_room room))

theorem actAtStop_room (room : HasRoom s.dev.er) : HasRoom (actAtStop src s).2.dev.er := by
  unfold actAtStop
  dsimp only [State.onDev, stopTune]
  with_reducible exact writeState_room room (fun _ room => endTune_room room)

theorem actPlan_room {e : Fin 128} {start : Word} (room : HasRoom s.dev.er) : HasRoom (actPlan e start s).2.dev.er :=
  writeState_room room (fun _ room => planCommand_room room)

theorem actInvalidate_room {e : Fin 128} (room : HasRoom s.dev.er) : HasRoom (actInvalidate e s).2.dev.er :=
  writeState_room room (fun _ room => invalidateCommand_room room)

theorem actSquash_room {e : Fin 128} {hint : BitVec 16} (room : HasRoom s.dev.er) : HasRoom (actSquash e hint s).2.dev.er :=
  writeState_room room (fun _ room => squashCommand_room room)

theorem actHeartbeat_room (room : HasRoom s.dev.er) : HasRoom (actHeartbeat s).2.dev.er :=
  writeState_room room (fun _ room => bogPump_room (heartbeat_room room))

theorem actEvict_room (room : HasRoom s.dev.er) : HasRoom (actEvict src h s).2.dev.er :=
  writeState_room room (fun _ room => ite_room (freeHandle_room room) room)

theorem actRestart_room {b : Bus} (room : HasRoom s.dev.er) : HasRoom (actRestart src b s).2.dev.er :=
  writeFields_room room (fun _ room => room)

theorem actBitTiming_room {b : Bus} {which : Fin 3} {data : Word} (room : HasRoom s.dev.er) :
    HasRoom (actBitTiming src b which data s).2.dev.er :=
  writeFields_room room (fun _ room => room)

theorem actLatch_room {i : Fin 8} {data : Word} (room : HasRoom s.dev.er) : HasRoom (actLatch src i data s).2.dev.er :=
  writeFields_room room (fun _ room => room)

theorem actFirst_room (room : HasRoom s.dev.er) : HasRoom (actFirst src s).2.dev.er :=
  writeFields_room room (fun _ room => room)

theorem storeDenied_room (room : HasRoom d.er) : HasRoom (storeDenied d).er := ite_room room room

theorem actUserRead_room {block : Fin 128} (room : HasRoom s.dev.er) : HasRoom (actUserRead src block s).2.dev.er :=
  writeCommand_room room (fun _ room => byLevelOr_room room (fun _ room => storeDenied_room room)
      (fun _ room => storeCommand_room room (fun _ room => userRead_room room)))

theorem actUserWrite_room {block : Fin 128} (room : HasRoom s.dev.er) : HasRoom (actUserWrite src block s).2.dev.er :=
  writeCommand_room room (fun _ room => byLevelOr_room room (fun _ room => storeDenied_room room) (fun _ room => ite_room
      (storeCommand_room room (fun _ room => userWrite_room room)) (storeDenied_room room)))

theorem actProtect_room {level : BitVec 2} (room : HasRoom s.dev.er) : HasRoom (actProtect src level s).2.dev.er :=
  writeCommand_room room (fun _ room => byLevelOr_room room (fun _ room => storeDenied_room room) (fun _ room => ite_room
      (storeCommand_room room (fun _ room => protectUser_room room)) (storeDenied_room room)))

theorem actOcsBad_room (room : HasRoom s.dev.er) : HasRoom (actOcsBad src s).2.dev.er :=
  writeCommand_room room (fun _ room => byLevelOr_room room (fun _ room => storeDenied_room room)
      (fun _ room => ite_room room room))

theorem actTimeSet_room (room : HasRoom s.dev.er) : HasRoom (actTimeSet src s).2.dev.er :=
  writeCommand_room room (fun _ room => erCommand_room room (fun _ room => timeSet_room room))

theorem actErClear_room {areas : BitVec 4} (room : HasRoom s.dev.er) : HasRoom (actErClear src areas s).2.dev.er :=
  writeCommand_room room (fun _ room => erCommand_room room (fun _ room => startClear_room room))

theorem actSelect_room {areas : BitVec 4} (room : HasRoom s.dev.er) : HasRoom (actSelect src areas s).2.dev.er :=
  writeCommand_room room (fun _ room => erCommand_room room (fun _ room => selectRecord_room room))

theorem actBog_room {least : Level} {f : TimeBase → NonVol → Device → Device} (room : HasRoom s.dev.er)
    (hf : ∀ tm nv (d : Device), HasRoom d.er → HasRoom (f tm nv d).er) : HasRoom (actBog src least f s).2.dev.er :=
  writeCommand_room room fun s room => byLevelOr_room room (fun _ room => room) (hf s.tm s.nv)

theorem actDiscover_room (room : HasRoom s.dev.er) : HasRoom (actDiscover src s).2.dev.er :=
  actBog_room room (fun _ _ _ room => bogDiscover_room room)

theorem actDetach_room (room : HasRoom s.dev.er) : HasRoom (actDetach src s).2.dev.er :=
  actBog_room room (fun _ _ _ room => bogDetach_room room)

theorem actFormat_room (room : HasRoom s.dev.er) : HasRoom (actFormat src s).2.dev.er :=
  actBog_room room (fun _ _ _ room => bogFormat_room room)

theorem actReadBlock_room {block : BitVec 24} (room : HasRoom s.dev.er) : HasRoom (actReadBlock src block s).2.dev.er :=
  actBog_room room (fun _ _ _ room => bogReadBlock_room room)

theorem actReadCapbuf_room {part : BitVec 24} (room : HasRoom s.dev.er) : HasRoom (actReadCapbuf src part s).2.dev.er :=
  actBog_room room (fun _ _ _ room => bogReadCapbuf_room room)

theorem actBogBad_room (room : HasRoom s.dev.er) : HasRoom (actBogBad src s).2.dev.er :=
  actBog_room room (fun _ _ _ room => bogCommand_room room (fun _ room => room))

theorem actCapArm_room (room : HasRoom s.dev.er) : HasRoom (actCapArm src s).2.dev.er :=
  writeFields_room room (fun _ room => capArm_room room)

theorem actCapStop_room (room : HasRoom s.dev.er) : HasRoom (actCapStop src s).2.dev.er :=
  writeFields_room room (fun _ room => room)

theorem actTrigger_room (room : HasRoom s.dev.er) : HasRoom (actTrigger src s).2.dev.er :=
  writeState_room room (fun _ room => captureTrigger_room room)

theorem actRecover_room {freedAt : Option (Fin 9)} (room : HasRoom s.dev.er) : HasRoom (actRecover src freedAt s).2.dev.er :=
  writeState_room room (fun _ room => ite_room room (startRecovery_room room))

theorem actPollNow_room {e : Fin 32} (room : HasRoom s.dev.er) : HasRoom (actPollNow src e s).2.dev.er :=
  writeFields_room room (fun _ room => ite_room room (startPoll_room room))

theorem actTwpTiming_room {second : Bool} {data : Word} (room : HasRoom s.dev.er) :
    HasRoom (actTwpTiming src second data s).2.dev.er :=
  writeFields_room room (fun _ room => room)

/-! ### RegsWrite -/

theorem writeSys_room {a : ℕ} (room : HasRoom s.dev.er) : HasRoom (writeSys src a w s).2.dev.er :=
  ite_write_room (writeFields_room room (fun _ room => room)) (ite_write_room (ite_write_room (writeFields_room room
      (fun _ room => room)) (ite_write_room (actResetWarm_room room) (ite_write_room (actResetSupervisor_room room)
      (ite_write_room (actResetQuadrant_room room) (writeFields_room room (fun _ room => room)))))) (writeNothing_room room))

theorem writeClk_room {a : ℕ} (room : HasRoom s.dev.er) : HasRoom (writeClk src a w s).2.dev.er :=
  ite_write_room (writeBoth_room room (fun _ room => ite_write_room (actPwrRun_room room) (ite_write_room
      (actPwrTrim_room room) (ite_write_room (actPwrStandby_room room) (writeNothing_room room))))
      (fun _ room => ite_write_room (actQopQrun_room room) (ite_write_room (actQopSmoulder_room room)
      (writeNothing_room room)))) (ite_write_room (writeFields_room room (fun _ room => room)) (writeNothing_room room))

theorem writePortRegs_room {off : ℕ} (room : HasRoom s.dev.er) : HasRoom (writePortRegs src p off w s).2.dev.er :=
  ite_write_room room (ite_write_room (ite_write_room (actOpen_room room) (ite_write_room (actProve_room room) (ite_write_room
      (actClose_room room) (writeFields_room room (fun _ room => room))))) (ite_write_room (writeFields_room room
      (fun _ room => room)) (ite_write_room (writeFields_room room (fun _ room => room)) (writeFields_room room
      (fun _ room => room)))))

theorem writeLife_room {n : ℕ} (room : HasRoom s.dev.er) : HasRoom (writeLife src n s).2.dev.er :=
  ite_write_room (writeNothing_room room) (ite_write_room (actLife_room room) (ite_write_room (actLife_room room)
      (ite_write_room (actLife_room room) (ite_write_room (actLife_room room) (ite_write_room (actLife_room room)
      (ite_write_room (actLife_room room) (writeFields_room room (fun _ room => room))))))))

theorem writeGuard_room {a : ℕ} (room : HasRoom s.dev.er) : HasRoom (writeGuard src a w s).2.dev.er :=
  ite_write_room (writePortRegs_room room) (ite_write_room (writePortRegs_room room) (ite_write_room (writePortRegs_room room)
      (ite_write_room (writeLife_room room) (ite_write_room (actKey_room room) (ite_write_room (writeFields_room room
      (fun _ room => room)) (ite_write_room (writeFields_room room (fun _ room => room)) (ite_write_room
      (writeFields_room room (fun _ room => room)) (ite_write_room (writeFields_room room (fun _ room => room))
      (writeNothing_room room)))))))))

theorem writeFw_room {a : ℕ} (room : HasRoom s.dev.er) : HasRoom (writeFw src a w s).2.dev.er :=
  ite_write_room (ite_write_room (actFw_room room (fun _ _ room => fwEraseStart_room room)) (ite_write_room (actFw_room room
      (fun _ _ room => fwSealStart_room room)) (ite_write_room (actFw_room room (fun _ _ room => fwSwitch_room room))
      (ite_write_room (actFw_room room (fun _ _ room => fwConfirm_room room)) (ite_write_room (actFw_room room
      (fun _ _ room => fwRollback_room room)) (actFwBad_room room)))))) (ite_write_room (writeFields_room room
      (fun _ room => room)) (ite_write_room (actFwData_room room) (ite_write_room (writeFields_room room (fun _ room => room))
      (writeNothing_room room))))

theorem writeHsp_room {a : ℕ} (room : HasRoom s.dev.er) : HasRoom (writeHsp src a w s).2.dev.er := by
  unfold writeHsp
  refine ite_write_room ?_ ?_
  · exact writeFields_room room (fun _ room => room)
  · refine ite_write_room ?_ ?_
    · exact writeFields_room room (fun _ room => room)
    · refine ite_write_room ?_ ?_
      · exact writeFields_room room (fun _ room => room)
      · refine ite_write_room ?_ ?_
        · split
          · exact abortBlind_room room
          · exact room
        · exact writeNothing_room room

theorem writeImg_room {a : ℕ} (room : HasRoom s.dev.er) : HasRoom (writeImg src a w s).2.dev.er :=
  ite_write_room (ite_write_room (actImg_room room (fun _ _ _ room => eraseImage_room room)) (ite_write_room (actImg_room room
      (fun _ _ _ room => sealImage_room room)) (ite_write_room (actImg_room room (fun _ _ _ room => openImage_room room))
      (ite_write_room (actImg_room room (fun _ _ _ room => applySection_room room)) (ite_write_room (actImg_room room
      (fun _ _ _ room => confirmImage_room room)) (ite_write_room (actImg_room room
      (fun _ _ _ room => rollbackImage_room room)) (actImgBad_room room))))))) (ite_write_room (writeFields_room room
      (fun _ room => room)) (ite_write_room (actImgData_room room) (writeNothing_room room)))

theorem writeLane_room {off : ℕ} (room : HasRoom s.dev.er) : HasRoom (writeLane src n off w s).2.dev.er :=
  ite_write_room (writeBoth_room room (fun _ room => writeFields_room room (fun _ room => writeDisable_room room))
      (fun _ room => writeIf_room room (fun _ room => actRetrain_room room))) (ite_write_room (writeFields_room room
      (fun _ room => room)) (ite_write_room (writeFields_room room (fun _ room => room)) (writeFields_room room
      (fun _ room => room))))

theorem writeSlot_room {off : ℕ} (room : HasRoom s.dev.er) : HasRoom (writeSlot src g off w s).2.dev.er :=
  ite_write_room (actSlotCal_room room) (ite_write_room (actSlotCal_room room) (ite_write_room (ite_write_room
      (actAdmit_room room) (ite_write_room (actRefuse_room room) (ite_write_room (actRecal_room room) (ite_write_room
      (actCalSave_room room) (ite_write_room (actIdentify_room room) (ite_write_room (actIdentify_room room)
      (writeFields_room room (fun _ room => room)))))))) (writeFields_room room (fun _ room => room))))

theorem writeTbi_room {a : ℕ} (room : HasRoom s.dev.er) : HasRoom (writeTbi src a w s).2.dev.er := by
  unfold writeTbi
  refine ite_write_room ?_ ?_
  · exact writeFields_room room (fun _ room => room)
  · refine ite_write_room ?_ ?_
    · exact writeFields_room room (fun _ room => room)
    · cases within a 0x3018 8 with
      | some _ =>
        refine writeFields_room room ?_
        intro _ room
        extract_lets _
        exact room
      | none =>
        cases within a 0x3080 64 with
        | some _ =>
          exact actBase_room room
        | none =>
          exact writeFields_room room (fun _ room => room)

theorem writeRailCmd_room {n : ℕ} (room : HasRoom s.dev.er) : HasRoom (writeRailCmd src r n s).2.dev.er :=
  ite_write_room (actArm_room room) (ite_write_room (actDisarm_room room) (ite_write_room (actStart_room room) (ite_write_room
      (actStop_room room) (ite_write_room (actSoftstop_room room) (ite_write_room (actClear_room room) (ite_write_room
      (actRetire_room room) (ite_write_room (actRestore_room room) (actRailBad_room room))))))))

theorem writeRailCtrl_room (room : HasRoom d.er) : HasRoom (writeRailCtrl r w d).er :=
  ite_room (foldl_room (fun _ _ room => room) room) room

theorem writeRail_room {off : ℕ} (room : HasRoom s.dev.er) : HasRoom (writeRail src r off w s).2.dev.er := by
  unfold writeRail
  refine ite_write_room ?_ ?_
  · exact writeRailCmd_room room
  · refine ite_write_room ?_ ?_
    · exact actVset_room room
    · refine ite_write_room ?_ ?_
      · exact actVnext_room room
      · refine ite_write_room ?_ ?_
        · exact actWindow_room room
        · refine ite_write_room ?_ ?_
          · exact actWindow_room room
          · refine ite_write_room ?_ ?_
            · exact writeFields_room room (fun _ room => room)
            · refine ite_write_room ?_ ?_
              · exact writeFields_room room (fun _ room => room)
              · refine ite_write_room ?_ ?_
                · exact writeFields_room room (fun _ room => room)
                · refine ite_write_room ?_ ?_
                  · exact writeFields_room room (fun _ room => room)
                  · refine ite_write_room ?_ ?_
                    · exact writeFields_room room (fun _ room => writeRailCtrl_room room)
                    · refine ite_write_room ?_ ?_
                      · exact writeFields_room room (fun _ room => room)
                      · refine ite_write_room ?_ ?_
                        · exact writeFields_room room (fun _ room => room)
                        · cases within off 25 4 with
                          | some _ =>
                            exact actTripped_room room
                          | none =>
                            exact writeFields_room room (fun _ room => room)

theorem writeLoop_room {off : ℕ} {low : Option Word} (room : HasRoom s.dev.er) :
    HasRoom (writeLoop src r off low w s).2.dev.er :=
  ite_write_room (writeBoth_room room (fun _ room => writeFields_room room (fun _ room => room))
      (fun _ room => writeIf_room room (fun _ room => actLoopClear_room room))) (ite_write_room (writeFields_room room
      (fun _ room => room)) (ite_write_room (writeFields_room room (fun _ room => room)) (ite_write_room (ite_write_room
      (writeFields_room room (fun _ room => writeCoef_room room)) (writeFields_room room (fun _ room => room)))
      (writeFields_room room (fun _ room => room)))))

theorem writeEngine_room {a : ℕ} (room : HasRoom s.dev.er) : HasRoom (writeEngine src a w s).2.dev.er := by
  unfold writeEngine
  refine ite_write_room ?_ ?_
  · exact ite_write_room (actLeClear_room room) (writeFields_room room (fun _ room => room))
  · refine ite_write_room ?_ ?_
    · exact writeFields_room room (fun _ room => room)
    · refine ite_write_room ?_ ?_
      · exact writeFields_room room (fun _ room => room)
      · cases within a 0x6100 256 with
        | some _ =>
          exact ite_write_room (writeFields_room room (fun _ room => room)) (ite_write_room (writeFields_room room
              (fun _ room => room)) (ite_write_room (writeFields_room room (fun _ room => room)) (writeFields_room room
              (fun _ room => room))))
        | none =>
          exact writeFields_room room (fun _ room => room)

theorem writeTune_room {a : ℕ} (room : HasRoom s.dev.er) : HasRoom (writeTune src a w s).2.dev.er :=
  ite_write_room (ite_write_room (actAtStart_room room) (ite_write_room (actAtStop_room room) (writeFields_room room
      (fun _ room => room)))) (ite_write_room (writeFields_room room (fun _ room => room)) (ite_write_room
      (writeFields_room room (fun _ room => room)) (ite_write_room (writeFields_room room (fun _ room => room))
      (writeFields_room room (fun _ room => room)))))

theorem writeHearth_room {a : ℕ} (room : HasRoom s.dev.er) : HasRoom (writeHearth src a w s).2.dev.er := by
  unfold writeHearth
  extract_lets _ _ _
  exact ite_write_room (writeFields_room room (fun _ room => room)) (ite_write_room (writeFields_room room
      (fun _ room => room)) (ite_write_room (writeFields_room room (fun _ room => room)) (ite_write_room
      (writeFields_room room (fun _ room => room)) (ite_write_room (writeFields_room room (fun _ room => room))
      (ite_write_room (writeFields_room room (fun _ room => room)) (ite_write_room (ite_write_room room (ite_write_room
      (writeFields_room room (fun _ room => room)) (ite_write_room (ite_write_room (actPlan_room room) (ite_write_room
      (actInvalidate_room room) (ite_write_room (actSquash_room room) (writeNothing_room room)))) (ite_write_room
      (actHeartbeat_room room) (writeNothing_room room))))) (ite_write_room (writeFields_room room (fun _ room => room))
      (writeFields_room room (fun _ room => room)))))))))

theorem writePartner_room {off : ℕ} (room : HasRoom s.dev.er) : HasRoom (writePartner src h off w s).2.dev.er :=
  ite_write_room (actEvict_room room) (writeFields_room room (fun _ room => room))

theorem writePorts_room {a : ℕ} (room : HasRoom s.dev.er) : HasRoom (writePorts src a w s).2.dev.er := by
  unfold writePorts
  refine ite_write_room ?_ ?_
  · exact writeFields_room room (fun _ room => autoRecover_room room)
  · refine ite_write_room ?_ ?_
    · exact writeFields_room room (fun _ room => room)
    · refine ite_write_room ?_ ?_
      · exact writeFields_room room (fun _ room => room)
      · refine ite_write_room ?_ ?_
        · exact writeFields_room room (fun _ room => room)
        · cases within a 0x8010 32 with
          | some _ =>
            exact ite_write_room (writeFields_room room (fun _ room => writeBusCtrl_room room)) (ite_write_room
                (actBitTiming_room room) (ite_write_room (actBitTiming_room room) (ite_write_room (actBitTiming_room room)
                (writeFields_room room (fun _ room => room)))))
          | none =>
            exact writeFields_room room (fun _ room => room)

theorem writeProtect_room {a : ℕ} (room : HasRoom s.dev.er) : HasRoom (writeProtect src a w s).2.dev.er := by
  unfold writeProtect
  refine ite_write_room ?_ ?_
  · exact writeFields_room room (fun _ room => room)
  · refine ite_write_room ?_ ?_
    · exact writeFields_room room (fun _ room => room)
    · refine ite_write_room ?_ ?_
      · exact writeFields_room room (fun _ room => room)
      · refine ite_write_room ?_ ?_
        · exact writeFields_room room (fun _ room => room)
        · refine ite_write_room ?_ ?_
          · exact ite_write_room (actFirst_room room) (writeFields_room room (fun _ room => room))
          · cases within a 0x8418 8 with
            | some _ =>
              exact actLatch_room room
            | none =>
              exact writeFields_room room (fun _ room => room)

theorem writeHousekeeping_room {a : ℕ} (room : HasRoom s.dev.er) : HasRoom (writeHousekeeping src a w s).2.dev.er := by
  unfold writeHousekeeping
  refine ite_write_room ?_ ?_
  · exact writeFields_room room (fun _ room => room)
  · refine ite_write_room ?_ ?_
    · exact writeFields_room room (fun _ room => room)
    · refine ite_write_room ?_ ?_
      · exact writeFields_room room (fun _ room => room)
      · refine ite_write_room ?_ ?_
        · exact writeFields_room room (fun _ room => room)
        · cases within a 0x8810 12 with
          | some _ =>
            exact ite_write_room (writeFields_room room (fun _ room => room)) (ite_write_room (writeFields_room room
                (fun _ room => room)) (writeFields_room room (fun _ room => room)))
          | none =>
            exact writeFields_room room (fun _ room => room)

theorem writeStore_room {a : ℕ} (room : HasRoom s.dev.er) : HasRoom (writeStore src a w s).2.dev.er := by
  unfold writeStore
  refine ite_write_room ?_ ?_
  · exact ite_write_room (actUserRead_room room) (ite_write_room (actUserWrite_room room) (ite_write_room
      (actProtect_room room) (actOcsBad_room room)))
  · refine ite_write_room ?_ ?_
    · exact writeFields_room room (fun _ room => room)
    · refine ite_write_room ?_ ?_
      · exact writeFields_room room (fun _ room => room)
      · cases within a 0x9040 56 with
        | some _ =>
          exact writeFields_room room (fun _ room => room)
        | none =>
          exact writeFields_room room (fun _ room => room)

theorem writeRecorder_room {a : ℕ} {low : Option Word} (room : HasRoom s.dev.er) :
    HasRoom (writeRecorder src a low w s).2.dev.er :=
  ite_write_room (writeFields_room room (fun _ room => room)) (ite_write_room (writeFields_room room (fun _ room => room))
      (ite_write_room (ite_write_room (actTimeSet_room room) (ite_write_room (actErClear_room room) (ite_write_room
      (actSelect_room room) (writeFields_room room (fun _ room => room))))) (ite_write_room (writeFields_room room
      (fun _ room => room)) (ite_write_room (writeFields_room room (fun _ room => room)) (ite_write_room
      (writeFields_room room (fun _ room => room)) (writeFields_room room (fun _ room => room)))))))

theorem writeBog_room {a : ℕ} (room : HasRoom s.dev.er) : HasRoom (writeBog src a w s).2.dev.er := by
  unfold writeBog
  refine ite_write_room ?_ ?_
  · exact ite_write_room (actDiscover_room room) (ite_write_room (actDetach_room room) (ite_write_room (actFormat_room room)
      (ite_write_room (actReadBlock_room room) (ite_write_room (actReadCapbuf_room room) (actBogBad_room room)))))
  · refine ite_write_room ?_ ?_
    · exact writeFields_room room (fun _ room => room)
    · refine ite_write_room ?_ ?_
      · exact writeFields_room room (fun _ room => room)
      · refine ite_write_room ?_ ?_
        · exact writeFields_room room (fun _ room => room)
        · refine ite_write_room ?_ ?_
          · exact writeBoth_room room (fun _ room => writeFields_room room (fun _ room => capConfigure_room room))
              (fun _ room => ite_write_room (actCapArm_room room) (ite_write_room (actCapStop_room room) (ite_write_room
              (actTrigger_room room) (writeNothing_room room))))
          · refine ite_write_room ?_ ?_
            · exact writeFields_room room (fun _ room => capConfigure_room room)
            · refine ite_write_room ?_ ?_
              · exact writeFields_room room (fun _ room => capConfigure_room room)
              · cases within a 0x9820 16 with
                | some _ =>
                  exact writeFields_room room (fun _ room => capConfigure_room room)
                | none =>
                  exact writeFields_room room (fun _ room => room)

theorem writeRecover_room (room : HasRoom s.dev.er) : HasRoom (writeRecover src s).2.dev.er := actRecover_room room

theorem writeTwp_room {a : ℕ} (room : HasRoom s.dev.er) : HasRoom (writeTwp src a w s).2.dev.er :=
  ite_write_room (writeFields_room room (fun _ room => room)) (ite_write_room (actTwpTiming_room room) (ite_write_room
      (actTwpTiming_room room) (ite_write_room (writeFields_room room (fun _ room => room)) (ite_write_room (ite_write_room
      (writeRecover_room room) (ite_write_room (actPollNow_room room) (writeFields_room room (fun _ room => room))))
      (ite_write_room (writeFields_room room (fun _ room => room)) (ite_write_room (writeFields_room room
      (fun _ room => room)) (ite_write_room (writeFields_room room (fun _ room => room)) (ite_write_room
      (writeFields_room room (fun _ room => room)) (writeFields_room room (fun _ room => room))))))))))

theorem writeWord_room {a : ℕ} {low : Option Word} (room : HasRoom s.dev.er) : HasRoom (writeWord src a low w s).2.dev.er :=
  ite_write_room (writeSys_room room) (ite_write_room (writeClk_room room) (ite_write_room (writeGuard_room room)
      (ite_write_room (writeFw_room room) (ite_write_room (writeHsp_room room) (ite_write_room (writeImg_room room)
      (ite_write_room (writeLane_room room) (ite_write_room (writeFields_room room (fun _ room => room)) (ite_write_room
      (writeSlot_room room) (ite_write_room (writeTbi_room room) (ite_write_room (writeRail_room room) (ite_write_room
      (writeFields_room room (fun _ room => room)) (ite_write_room (writeLoop_room room) (ite_write_room
      (writeEngine_room room) (ite_write_room (writeTune_room room) (ite_write_room (writeHearth_room room) (ite_write_room
      (writePartner_room room) (ite_write_room (writePorts_room room) (ite_write_room (writeProtect_room room) (ite_write_room
      (writeHousekeeping_room room) (ite_write_room (writeStore_room room) (ite_write_room (writeRecorder_room room)
      (ite_write_room (writeBog_room room) (writeTwp_room room)))))))))))))))))))))))

/-! ### HostPort -/

theorem countMerged_room {a : ℕ} (room : HasRoom d.er) : HasRoom (countMerged a d).er := by
  unfold countMerged
  split
  · exact room
  · exact room

theorem readPaired_room {hold : Hold} (room : HasRoom s.dev.er) : HasRoom (readPaired p a hold s).2.dev.er :=
  countMerged_room room

theorem writePaired_room {hold : Hold} (room : HasRoom s.dev.er) : HasRoom (writePaired p a w hold s).2.dev.er :=
  ite_answer_room (writeWord_room room) (writeWord_room room)

theorem debugWindow_room {a : Nat} {w : Option Word} (room : HasRoom s.dev.er) : HasRoom (debugWindow a w s).2.2.dev.er := by
  cases w <;> exact room

theorem definedWord_room {w : Option Word} {holds : PortState} (room : HasRoom s.dev.er) :
    HasRoom (definedWord p a w holds s).2.2.dev.er := by
  cases w with
  | none =>
    unfold definedWord
    dsimp only
    split
    · exact room
    · exact readPaired_room (hold := holds.readHold) room
  | some w => exact writePaired_room room

theorem throughWindow_room {win : Window} {f : State → Word × Byte × State} {y : Word × Byte × State} (room : HasRoom s.dev.er)
    (hf : ∀ s : State, HasRoom s.dev.er → HasRoom (f s).2.2.dev.er) (h : throughWindow win f s = some y) :
    HasRoom y.2.2.dev.er := by
  unfold throughWindow at h
  split_ifs at h <;> obtain rfl := Option.some.inj h
  · exact room
  · exact hf s room

theorem accessWord_room {w : Option Word} {y : Word × Byte × State} (room : HasRoom s.dev.er)
    (h : accessWord p a w s = some y) : HasRoom y.2.2.dev.er := by
  unfold accessWord at h
  extract_lets n t at h
  have touched : HasRoom t.dev.er := touch_room room
  clear_value t
  split_ifs at h
  · exact throughWindow_room touched (fun _ room => debugWindow_room room) h
  · exact throughWindow_room touched (fun _ room => room) h
  · obtain rfl := Option.some.inj h
    exact touched
  · exact throughWindow_room touched (fun _ room => definedWord_room room) h

theorem runWords_room {todo : List (Addr × Option Word)} {acc : PendingAccess} (room : HasRoom s.dev.er) :
    HasRoom (runWords p todo acc s).2.dev.er := by
  induction todo generalizing acc s with
  | nil => exact room
  | cons x rest ih =>
    obtain ⟨a, w⟩ := x
    unfold runWords
    refine ite_answer_room room ?_
    split
    · exact room
    · next made => exact ih (noteLast_room (accessWord_room room made))

theorem runAccess_room {acc : PendingAccess} (room : HasRoom s.dev.er) : HasRoom (runAccess p acc s).dev.er := by
  unfold runAccess
  extract_lets acc0 x
  have room1 : HasRoom x.2.dev.er := runWords_room room
  clear_value x
  exact ite_state_room room1 (ite_state_room (finishAccess_room room1) room1)

theorem startAccess_room {write : Bool} {todo : List (Addr × Option Word)} {header : List Byte} (room : HasRoom s.dev.er) :
    HasRoom (startAccess p write todo header s).dev.er :=
  runAccess_room room

theorem turnedAway_room (room : HasRoom d.er) : HasRoom (turnedAway p d).er := by
  unfold turnedAway
  refine ite_room ?_ ?_
  · exact room
  · split
    · exact ite_room room room
    · exact room
    · exact room

theorem wordStarts_room {write : Bool} (room : HasRoom d.er) : HasRoom (wordStarts p a write d).er := by
  unfold wordStarts
  split
  · exact room
  · exact room
  · exact room

theorem singleAccess_room {w : Option Word} (room : HasRoom s.dev.er) : HasRoom (singleAccess p a w s).dev.er :=
  ite_state_room (turnedAway_room room) (startAccess_room (wordStarts_room room))

theorem rowStarts_room (room : HasRoom s.dev.er) : HasRoom (rowStarts src a s).dev.er := by
  unfold rowStarts
  split
  · exact room
  · exact touch_room (wordStarts_room room)

theorem rowHangs_room (room : HasRoom s.dev.er) : HasRoom (rowHangs src a w s).dev.er := by
  unfold rowHangs
  split
  · exact room
  · exact wordStarts_room room

theorem supWrite_room (room : HasRoom s.dev.er) : HasRoom (supWrite a w s).dev.er :=
  ite_state_room room (ite_state_room (rowHangs_room room) (writeWord_room (rowStarts_room room)))

theorem resumeSup_room (room : HasRoom s.dev.er) : HasRoom (resumeSup s).dev.er := by
  unfold resumeSup
  split
  · exact room
  · exact ite_state_room (supWrite_room room) room

theorem withLevel_room {rank : Nat} {f : State → State} (room : HasRoom s.dev.er)
    (hf : ∀ s : State, HasRoom s.dev.er → HasRoom (f s).dev.er) : HasRoom (withLevel p rank f s).dev.er :=
  ite_state_room (hf s room) (hf _ (ite_state_room room room))

theorem resumeAccess_room (room : HasRoom s.dev.er) : HasRoom (resumeAccess p s).dev.er := by
  unfold resumeAccess
  split
  · exact room
  · exact withLevel_room room fun _ room => runAccess_room room

theorem busFault_room (room : HasRoom s.dev.er) : HasRoom (busFault s).dev.er := raiseFault_room room

theorem portTimesOut_room (room : HasRoom s.dev.er) : HasRoom (portTimesOut p s).dev.er := by
  unfold portTimesOut
  split
  · split <;> exact noteLast_room (touch_room (busFault_room room))
  · split
    · exact room
    · exact ite_state_room room (withLevel_room (noteLast_room (busFault_room room)) fun _ room => runAccess_room room)

theorem supTimesOut_room (room : HasRoom s.dev.er) : HasRoom (supTimesOut s).dev.er := by
  unfold supTimesOut
  split
  · exact busFault_room room
  · exact ite_state_room room (busFault_room room)

theorem cutStalled_room (room : HasRoom d.er) : HasRoom (cutStalled d).er := by
  unfold cutStalled
  split
  · exact ite_room room room
  · exact room

theorem hostFrameStarts_room (room : HasRoom d.er) : HasRoom (hostFrameStarts d).er := cutStalled_room room

theorem frameAnswers_room {x : Response} (room : HasRoom d.er) : HasRoom (frameAnswers x d).er := room

theorem crcFails_room {header body : List Byte} (room : HasRoom d.er) : HasRoom (crcFails header body d).er := room

theorem malformed_room (room : HasRoom d.er) : HasRoom (malformed d).er := room

theorem makeAccess_room {acc : HostAccess} (room : HasRoom s.dev.er) : HasRoom (makeAccess acc s).dev.er :=
  startAccess_room room

theorem accessFrame_room {acc : HostAccess} {hcrc : Byte} (room : HasRoom s.dev.er) :
    HasRoom (accessFrame acc hcrc s).dev.er := by
  have room1 : HasRoom (s.onDev hostFrameStarts).dev.er := hostFrameStarts_room room
  unfold accessFrame
  generalize s.onDev hostFrameStarts = t at room1 ⊢
  exact ite_state_room room (ite_state_room (malformed_room room1) (ite_state_room (crcFails_room room1)
    (ite_state_room (frameAnswers_room room1) (makeAccess_room room1))))

theorem holdResponse_room (room : HasRoom d.er) : HasRoom (holdResponse d).er := by
  unfold holdResponse
  split
  · exact room
  · exact room

theorem cutFrame_room {stage : CutStage} (room : HasRoom s.dev.er) : HasRoom (cutFrame stage s).dev.er := by
  unfold cutFrame
  dsimp only [State.onDev, malformed, crcFails, frameAnswers]
  with_reducible refine ite_state_room ?_ ?_
  · with_reducible exact room
  · split
    · with_reducible exact hostFrameStarts_room room
    · with_reducible exact cutStalled_room room
    · with_reducible exact ite_state_room (hostFrameStarts_room room) (ite_state_room (hostFrameStarts_room room)
                       (ite_state_room (hostFrameStarts_room room) (ite_state_room (holdResponse_room (makeAccess_room
                       (hostFrameStarts_room room))) (makeAccess_room (hostFrameStarts_room room)))))

theorem statusFrame_room {hcrc : Byte} (room : HasRoom d.er) : HasRoom (statusFrame hcrc d).er := by
  have room1 : HasRoom (hostFrameStarts d).er := hostFrameStarts_room room
  unfold statusFrame
  generalize hostFrameStarts d = d1 at room1 ⊢
  exact ite_room room (ite_room (crcFails_room room1) (frameAnswers_room room1))

theorem fetchFrame_room {hcrc : Byte} (room : HasRoom d.er) : HasRoom (fetchFrame hcrc d).er := by
  have room1 : HasRoom (hostFrameStarts d).er := hostFrameStarts_room room
  unfold fetchFrame
  generalize hostFrameStarts d = d1 at room1 ⊢
  refine ite_room room (ite_room (crcFails_room room1) ?_)
  split
  · exact frameAnswers_room room1
  · exact frameAnswers_room room1

theorem abortFrame_room {func index : Byte} {sda : Option (Bool × Option (Fin 9))} {hcrc : Byte} (room : HasRoom s.dev.er) :
    HasRoom (abortFrame func index sda hcrc s).dev.er := by
  have room1 : HasRoom (s.onDev hostFrameStarts).dev.er := hostFrameStarts_room room
  unfold abortFrame
  generalize s.onDev hostFrameStarts = t at room1 ⊢
  have room2 : HasRoom (abortWrite .spi func index sda t).2.dev.er := abortWrite_room room1
  refine ite_state_room room (ite_state_room (crcFails_room room1) ?_)
  generalize abortWrite .spi func index sda t = y at room2 ⊢
  exact settleAlert_room (frameAnswers_room room2)

theorem debugAborts_room {func : Byte} {index : Byte} {sda : Option (Bool × Option (Fin 9))} (room : HasRoom s.dev.er) :
    HasRoom (debugAborts func index sda s).dev.er :=
  abortWrite_room (touch_room room)

theorem abortFrom_room {way : AbortWay} {func : Byte} {index : Byte} {sda : Option (Bool × Option (Fin 9))}
    (room : HasRoom s.dev.er) :
    HasRoom (abortFrom way func index sda s).dev.er := by
  unfold abortFrom
  split
  · exact abortFrame_room room
  · exact ite_state_room (debugAborts_room room) (rowWrite_room room (fun _ room => abortWrite_room room))

theorem commitPage_room {pointer : Addr} {data : List Byte} (room : HasRoom s.dev.er) :
    HasRoom (commitPage pointer data s).dev.er :=
  ite_state_room room (startAccess_room room)

theorem targetWrite_room {bytes : List Byte} {stop : Bool} (room : HasRoom s.dev.er) :
    HasRoom (targetWrite bytes stop s).dev.er := by
  unfold targetWrite
  dsimp only [State.onDev, Device.onTwp, targetRestarts, targetStarts, discardPage, twpInt]
  with_reducible refine ite_state_room ?_ ?_
  · with_reducible exact room
  · with_reducible refine ite_state_room ?_ ?_
    · split
      · with_reducible exact discardIf_room room
      · with_reducible exact room
    · with_reducible refine ite_state_room ?_ ?_
      · with_reducible exact room
      · split
        · with_reducible exact commitPage_room room
        · with_reducible exact room

theorem targetRead_room {pointer : Option Addr} {data : List Byte} {words : ℕ} (room : HasRoom s.dev.er) :
    HasRoom (targetRead pointer data words s).dev.er := by
  unfold targetRead
  dsimp only [State.onDev, Device.onTwp, targetStarts]
  with_reducible refine ite_state_room ?_ ?_
  · with_reducible exact room
  · with_reducible refine ite_state_room ?_ ?_
    · with_reducible exact discardIf_room room
    · split
      · with_reducible exact startAccess_room (discardIf_room room)
      · with_reducible exact startAccess_room (discardIf_room room)

theorem stretchEnds_room (room : HasRoom d.er) : HasRoom (stretchEnds d).er := by
  unfold stretchEnds
  split
  · split
    · exact room
    · exact ite_room room room
  · exact room

theorem alertResponse_room {won : Bool} {d0 : Device} (room : HasRoom d0.er) : HasRoom (alertResponse won d0).er :=
  ite_room room room

theorem dbgFull_room {f : Device → Device} (room : HasRoom s.dev.er) (hf : ∀ d : Device, HasRoom d.er → HasRoom (f d).er) :
    HasRoom (dbgFull f s).dev.er := ite_room (hf _ room) room

theorem dbgWindow_room {f : State → State} (room : HasRoom s.dev.er)
    (hf : ∀ s : State, HasRoom s.dev.er → HasRoom (f s).dev.er) : HasRoom (dbgWindow f s).dev.er :=
  have touched : HasRoom (s.onDev (touch s.tm (.port .debug))).dev.er := touch_room room
  ite_state_room touched (hf _ touched)

theorem dbgAccess_room {op : DbgOp} (room : HasRoom s.dev.er) : HasRoom (dbgAccess op s).dev.er := by
  unfold dbgAccess
  refine ite_state_room room ?_
  cases op with
  | regRead a => exact singleAccess_room room
  | regWrite a w => exact ite_state_room (debugAborts_room room) (singleAccess_room room)
  | windowRead a => exact dbgWindow_room room fun _ room => debugWindow_room (a := a.toNat) (w := none) room
  | halt | step | resume | memWrite => exact dbgWindow_room room fun _ room => dbgFull_room room fun _ room => room
  | memRead a => exact dbgWindow_room room fun _ room => ite_room room room

/-! ### Tick -/

theorem tickFuncs_room (room : HasRoom d.er) : HasRoom (tickFuncs tm d).er := ite_room room room

theorem tickTrim_room (room : HasRoom d.er) : HasRoom (tickTrim tm d).er := ite_room room room

theorem tickDevice_room (room : HasRoom d.er) : HasRoom (tickDevice tm d).er :=
  tickTrim_room (tickFuncs_room (tickRecovery_room room))

theorem tick_room (room : HasRoom s.dev.er) : HasRoom (tick s).dev.er := by
  unfold tick
  dsimp only
  with_reducible refine ite_state_room ?_ ?_
  · with_reducible exact room
  · split
    · with_reducible exact ite_state_room (resumeNow_room (resumeSup_room (tickDevice_room room))) (resumeSup_room
                       (tickDevice_room room))
    · with_reducible exact resumeSup_room (tickDevice_room room)

/-! ### Every command, and every T-tick -/

theorem next_room {t u : State} (h : Host.Outcome.next u = (.next t : Answer)) (room : HasRoom u.dev.er) : HasRoom t.dev.er :=
  Host.Outcome.next.inj h ▸ room

theorem onDev_room {f : Device → Device} {t : State} (h : Host.Outcome.next (s.onDev f) = (.next t : Answer))
    (room : HasRoom (f s.dev).er) : HasRoom t.dev.er := next_room h room

/-- Every command leaves the event queue its room. -/
theorem exec_room (c : Instr) {t : State} (room : HasRoom s.dev.er) (h : exec c s = .next t) : HasRoom t.dev.er := by
  cases c with
  | registerWrite src _ _ =>
    cases src with
    | port p => exact next_room h (singleAccess_room room)
    | sup => exact next_room h (supWrite_room room)
  | pairLowRead | pairHighRead | pairLowWrite | pairHighWrite =>
    exact next_room h (ite_state_room (singleAccess_room room) room)
  | supplyTrip => exact next_room h (supplyTrip_room room)
  | supplyRelease | rstNRise => exact onDev_room h (releaseFilter_room room)
  | rstNLow => exact next_room h (rstLow_room room)
  | resetCtrlWarm => exact next_room h (rowResets_room room (fun _ room => actResetWarm_room room))
  | resetCtrlSupervisor => exact next_room h (rowWrite_room room (fun _ room => actResetSupervisor_room room))
  | resetCtrlQuadrant => exact next_room h (rowWrite_room room (fun _ room => actResetQuadrant_room room))
  | quadrantReset => exact onDev_room h (quadrantResets_room room)
  | quadrantResetTimeout => exact onDev_room h (quadrantTimesOut_room room)
  | watchdogExpiry => exact next_room h (watchdog_room room)
  | ramError => exact next_room h (ramFails_room room)
  | busTimeout src =>
    cases src with
    | port p => exact next_room h (ite_state_room (portTimesOut_room room) room)
    | sup => exact next_room h (supTimesOut_room room)
  | stalledAccessComplete => exact next_room h (resumeAccess_room room)
  | clockLoss => exact next_room h (clockLost_room room)
  | refclkPresent | vreqExpiry | housekeepingRound | tapReset => exact onDev_room h room
  | pll0Lock => exact next_room h (portsStart_room (pllLocks_room room))
  | pllLockTimeout => exact onDev_room h (lockIsLate_room room)
  | pfailFall => exact next_room h (pfailFalls_room room)
  | pfailRecovered => exact next_room h (pfailOver_room room)
  | startupFilterEnd => exact onDev_room h (filterEnds_room room)
  | wipeEnd => exact next_room h (portsStart_room (wipeEnds_room room))
  | storeRecoveryEnd => exact next_room h (recoveryEnds_room room)
  | wholeApplyEnd => exact onDev_room h (wholeApply_room room)
  | ready => exact onDev_room h (reachReady_room room)
  | strapStartTimer => exact onDev_room h (strapStart_room room)
  | supervisorStart => exact onDev_room h (supervisorStart_room room)
  | imgDataWrite => exact next_room h (rowWrite_room room (fun _ room => actImgData_room room))
  | imgErase =>
    exact next_room h (rowWrite_room room (fun _ room => actImg_room room (fun _ _ _ room => eraseImage_room room)))
  | imgSeal =>
    exact next_room h (rowWrite_room room (fun _ room => actImg_room room (fun _ _ _ room => sealImage_room room)))
  | liveOpen =>
    exact next_room h (rowWrite_room room (fun _ room => actImg_room room (fun _ _ _ room => openImage_room room)))
  | apply =>
    exact next_room h (rowWrite_room room (fun _ room => actImg_room room (fun _ _ _ room => applySection_room room)))
  | imgConfirm =>
    exact next_room h (rowWrite_room room (fun _ room => actImg_room room (fun _ _ _ room => confirmImage_room room)))
  | imgRollback =>
    exact next_room h (rowWrite_room room (fun _ room => actImg_room room (fun _ _ _ room => rollbackImage_room room)))
  | imgBadOp => exact next_room h (ite_state_room room (rowWrite_room room (fun _ room => actImgBad_room room)))
  | railSectionTakeEffect => exact onDev_room h (railTakesEffect_room room)
  | schedSectionTakeEffect => exact onDev_room h (schedTakesEffect_room room)
  | hkeepSectionTakeEffect => exact onDev_room h (hkeepTakesEffect_room room)
  | periphSectionTakeEffect => exact onDev_room h (periphTakesEffect_room room)
  | upstreamLock => exact onDev_room h (upstreamLock_room room)
  | trainingPollTimer => exact onDev_room h (startTraining_room room)
  | trainingStepTimeout => exact onDev_room h (trainingTimeout_room room)
  | laneTrainingEnd => exact onDev_room h (trainingEnds_room room)
  | upstreamLossOfLock => exact onDev_room h (upstreamLost_room room)
  | retrainAttemptEnd => exact onDev_room h (retrainEnds_room room)
  | laneRetrain => exact next_room h (rowWrite_room room (fun _ room => actRetrain_room room))
  | laneDisable => exact next_room h (rowWrite_room room (fun _ room => actDisable_room room))
  | laneDisableTakeEffect => exact onDev_room h (disableTakesEffect_room room)
  | timeCellTimer => exact onDev_room h (timeCells_room room)
  | sampleRaw | sampleCmp => exact onDev_room h (deliverSamples_room room)
  | meas => exact onDev_room h (takeMeas_room room)
  | status => exact onDev_room h (takeStatus_room room)
  | reply => exact onDev_room h (reply_room room)
  | echoReply => exact onDev_room h (echoReply_room room)
  | upstreamCellError => exact onDev_room h (cellError_room room)
  | replyTimeout => exact onDev_room h (replyTimeout_room room)
  | calibration => exact onDev_room h (startCalibration_room room)
  | sampleMissing => exact onDev_room h (missSample_room room)
  | slotAdmit => exact next_room h (rowWrite_room room (fun _ room => actAdmit_room room))
  | refuse => exact next_room h (rowWrite_room room (fun _ room => actRefuse_room room))
  | recal => exact next_room h (rowWrite_room room (fun _ room => actRecal_room room))
  | calSave => exact next_room h (rowWrite_room room (fun _ room => actCalSave_room room))
  | identifyOn | identifyOff => exact next_room h (rowWrite_room room (fun _ room => actIdentify_room room))
  | slotCalWrite => exact next_room h (rowWrite_room room (fun _ room => actSlotCal_room room))
  | biasTimer => exact onDev_room h (biasTimer_room room)
  | housekeepingBias => exact onDev_room h (housekeepingBias_room room)
  | carrierStart => exact onDev_room h (carrierStarts_room room)
  | edgeBuild => exact onDev_room h (buildEdge_room room)
  | baseSet => exact next_room h (rowWrite_room room (fun _ room => actBase_room room))
  | epochPulse => exact onDev_room h (ite_room (ringStart_room room) room)
  | syncinEdge => exact onDev_room h (syncEdge_room (freshLink_room room))
  | syncPulseMissing => exact onDev_room h (syncMissing_room room)
  | evaluationStart => exact onDev_room h (startEval_room room)
  | evaluationComplete => exact onDev_room h (completeEval_room room)
  | resultRelease => exact onDev_room h (releaseOldest_room room)
  | evaluationDeadline => exact onDev_room h (deadlinePasses_room room)
  | loopClear => exact next_room h (rowWrite_room room (fun _ room => actLoopClear_room room))
  | leClear => exact next_room h (rowWrite_room room (fun _ room => actLeClear_room room))
  | atStart => exact next_room h (rowWrite_room room (fun _ room => actAtStart_room room))
  | atStop => exact next_room h (rowWrite_room room (fun _ room => actAtStop_room room))
  | autotuneTimeout => exact onDev_room h (tuneExpires_room room)
  | arm => exact next_room h (rowWrite_room room (fun _ room => actArm_room room))
  | disarm => exact next_room h (rowWrite_room room (fun _ room => actDisarm_room room))
  | start => exact next_room h (rowWrite_room room (fun _ room => actStart_room room))
  | startMeasurementEnd => exact onDev_room h (measurementEnds_room room)
  | stop => exact next_room h (rowWrite_room room (fun _ room => actStop_room room))
  | softstop => exact next_room h (rowWrite_room room (fun _ room => actSoftstop_room room))
  | clear => exact next_room h (rowWrite_room room (fun _ room => actClear_room room))
  | retire => exact next_room h (rowWrite_room room (fun _ room => actRetire_room room))
  | restore => exact next_room h (rowWrite_room room (fun _ room => actRestore_room room))
  | railBadOp => exact next_room h (ite_state_room room (rowWrite_room room (fun _ room => actRailBad_room room)))
  | vsetWrite => exact next_room h (rowWrite_room room (fun _ room => actVset_room room))
  | vnextWrite => exact next_room h (rowWrite_room room (fun _ room => actVnext_room room))
  | windowWrite => exact next_room h (rowWrite_room room (fun _ room => actWindow_room room))
  | rampStep => exact onDev_room h (rampAll_room room)
  | rampTimeout => exact onDev_room h (rampExpires_room room)
  | holdTimeout => exact onDev_room h (holdExpires_room room)
  | retryTimer => exact onDev_room h (retryRail_room room)
  | retriesResetTimer => exact onDev_room h (resetRetries_room room)
  | trippedClear => exact next_room h (rowWrite_room room (fun _ room => actTripped_room room))
  | kindlingWarmStart => exact onDev_room h (warmStartDue_room room)
  | hearthTick => exact onDev_room h (hearthTick_room room)
  | entryCompletionTimeout => exact onDev_room h (completionTimeout_room room)
  | pauseUpdate => exact onDev_room h (pauseUpdate_room room)
  | supervisorAbsence => exact onDev_room h (noteAbsence_room room)
  | heartbeat => exact next_room h (rowWrite_room room (fun _ room => actHeartbeat_room room))
  | planPass => exact onDev_room h (planPass_room room)
  | plan => exact next_room h (rowWrite_room room (fun _ room => actPlan_room room))
  | invalidate => exact next_room h (rowWrite_room room (fun _ room => actInvalidate_room room))
  | squash => exact next_room h (rowWrite_room room (fun _ room => actSquash_room room))
  | ringFrame => exact onDev_room h (ringFrame_room room)
  | ringShareTimeout => exact onDev_room h (ringTimeout_room room)
  | syncTimer => exact onDev_room h (syncTimer_room room)
  | syncDrop | txFrameTimeout => exact onDev_room h (dropStale_room room)
  | frameTransmitted b done =>
    refine onDev_room (f := if done then frameEnds (busIdx b) else frameStarts s.tm (busIdx b)) h ?_
    split
    · exact frameEnds_room room
    · exact frameStarts_room room
  | grantUnsentAtStart => exact onDev_room h (dropGrant_room (b := 1) (dropGrant_room (b := 0) room))
  | partnerFrameDiscard => exact onDev_room h (frameDiscarded_room room)
  | join => exact onDev_room h (arrived_room room (fun _ room => joinFrame_room room))
  | leave => exact onDev_room h (arrived_room room (fun _ room => leaveFrame_room room))
  | keepalive => exact onDev_room h (arrived_room room (fun _ room => keepaliveFrame_room room))
  | motionReq => exact onDev_room h (arrived_room room (fun _ room => motionFrame_room room))
  | cancel | reverse | complete => exact onDev_room h (arrived_room room (fun _ room => entryFrame_room room))
  | vreq => exact onDev_room h (arrived_room room (fun _ room => vreqFrame_room room))
  | leaseExpiry => exact onDev_room h (leaseExpires_room room)
  | holdoffEnd => exact onDev_room h (holdoffEnds_room room)
  | orphanHandleTimeout => exact onDev_room h (orphansLeave_room room)
  | evict => exact next_room h (rowWrite_room room (fun _ room => actEvict_room room))
  | busErrorPassive => exact onDev_room h (busPassive_room room)
  | busOff => exact onDev_room h (enterBusOff_room room)
  | restart => exact next_room h (rowWrite_room room (fun _ room => actRestart_room room))
  | busOffRecoveryEnd => exact onDev_room h (busRecovered_room room)
  | bitTimingWrite => exact next_room h (rowWrite_room room (fun _ room => actBitTiming_room room))
  | vsenseConversion => exact onDev_room h (vsenseEnds_room room)
  | latchClear => exact next_room h (rowWrite_room room (fun _ room => actLatch_room room))
  | firstClr => exact next_room h (rowWrite_room room (fun _ room => actFirst_room room))
  | housekeepingRoundEnd => exact next_room h (wakeHot_room (copyShutdowns_room (roundEnd_room room)))
  | dieSample => exact next_room h (wakeHot_room (dieSample_room room))
  | shutdownRecordWrite => exact onDev_room h (writeShutdown_room room)
  | storeWindowOpen => exact onDev_room h (copyShutdowns_room (windowOpens_room room))
  | hostRead | hostWrite => exact next_room h (accessFrame_room room)
  | hostStatus => exact next_room h (statusFrame_room room)
  | fetch => exact next_room h (fetchFrame_room room)
  | malformedFrame => exact onDev_room h (ite_room (malformed_room (hostFrameStarts_room room)) room)
  | frameCutOff => exact next_room h (cutFrame_room room)
  | abortAutotune | abortRailApply | abortStoreOperation | abortBogTransfer | abortTwoWire | abortLaneTraining
    | abortSession | abortPendingAccess | abortGlobal =>
    exact next_room h (abortFrom_room room)
  | badFunc => exact next_room h (ite_state_room room (abortFrom_room room))
  | abortDone => exact onDev_room h (abortDoneAt_room room)
  | twpTargetWrite => exact next_room h (targetWrite_room room)
  | twpTargetRead pointer _ =>
    cases pointer with
    | none => exact next_room h (targetRead_room room)
    | some x => exact next_room h (targetRead_room room)
  | twpBusError => exact onDev_room h (busError_room room)
  | twpClockLowTimeout => exact onDev_room h (clockLowTimeout_room room)
  | twpStretchTimeout => exact next_room h (stretchEnds_room room)
  | alertResponse => exact next_room h (alertResponse_room room)
  | periphPollDue => exact onDev_room h (pollDue_room room)
  | periphPoll => exact onDev_room h (pollRuns_room room)
  | recover => exact next_room h (rowWrite_room room (fun _ room => actRecover_room room))
  | recoveryRetryTimer => exact onDev_room h (recoveryRetries_room room)
  | pollNow => exact next_room h (rowWrite_room room (fun _ room => actPollNow_room room))
  | twpTimingWrite => exact next_room h (rowWrite_room room (fun _ room => actTwpTiming_room room))
  | openSession => exact next_room h (rowWrite_room room (fun _ room => actOpen_room room))
  | prove => exact next_room h (rowWrite_room room (fun _ room => actProve_room room))
  | close => exact next_room h (rowWrite_room room (fun _ room => actClose_room room))
  | sessionIdleTimeout => exact onDev_room h (sessionIdle_room room)
  | lockoutEnd => exact onDev_room h (lockoutEnds_room room)
  | keyCmd => exact next_room h (rowWrite_room room (fun _ room => actKey_room room))
  | lcCommission | lcService | lcMaintain | lcRetired | lcReturn =>
    exact next_room h (rowWrite_room room (fun _ room => actLife_room room))
  | lcWipesComplete => exact onDev_room h (wipesDone_room room)
  | debugReset => exact next_room h (debugReset_room room)
  | dbgChal => exact onDev_room h (debugChallenge_room room)
  | dbgToken => exact onDev_room h (debugToken_room room)
  | dbgAccess => exact next_room h (dbgAccess_room room)
  | driveInstruction => exact onDev_room h (driveSelected_room room)
  | pwrRun => exact next_room h (rowWrite_room room (fun _ room => actPwrRun_room room))
  | pwrTrim => exact next_room h (rowWrite_room room (fun _ room => actPwrTrim_room room))
  | pwrStandby => exact next_room h (rowWrite_room room (fun _ room => actPwrStandby_room room))
  | qopSmoulder => exact next_room h (rowWrite_room room (fun _ room => actQopSmoulder_room room))
  | qopQrun => exact next_room h (rowWrite_room room (fun _ room => actQopQrun_room room))
  | smoulderTimeout => exact onDev_room h (smoulderTimesOut_room room)
  | wake => exact next_room h (wake_room room)
  | laneReceiverSleep => exact onDev_room h (receiverSleeps_room room)
  | fwDataWrite => exact next_room h (rowWrite_room room (fun _ room => actFwData_room room))
  | fwErase =>
    exact next_room h (rowWrite_room room (fun _ room => actFw_room room (fun _ _ room => fwEraseStart_room room)))
  | fwSeal => exact next_room h (rowWrite_room room (fun _ room => actFw_room room (fun _ _ room => fwSealStart_room room)))
  | switch => exact next_room h (rowWrite_room room (fun _ room => actFw_room room (fun _ _ room => fwSwitch_room room)))
  | fwConfirm => exact next_room h (rowWrite_room room (fun _ room => actFw_room room (fun _ _ room => fwConfirm_room room)))
  | fwRollback =>
    exact next_room h (rowWrite_room room (fun _ room => actFw_room room (fun _ _ room => fwRollback_room room)))
  | fwBadOp => exact next_room h (ite_state_room room (rowWrite_room room (fun _ room => actFwBad_room room)))
  | fwTrialTimeout => exact next_room h (fwTrialTimeout_room room)
  | chunkProgramComplete => exact next_room h (programEnds_room room)
  | sectorEraseComplete => exact next_room h (eraseEnds_room room)
  | userRead => exact next_room h (rowWrite_room room (fun _ room => actUserRead_room room))
  | userWrite => exact next_room h (rowWrite_room room (fun _ room => actUserWrite_room room))
  | protect => exact next_room h (rowWrite_room room (fun _ room => actProtect_room room))
  | ocsBadOp => exact next_room h (ite_state_room room (rowWrite_room room (fun _ room => actOcsBad_room room)))
  | eventRecordWrite => exact onDev_room h (recordEvent_room room)
  | repeatChainEnd => exact onDev_room h (chainsEnd_room room)
  | timeSet => exact next_room h (rowWrite_room room (fun _ room => actTimeSet_room room))
  | erClear => exact next_room h (rowWrite_room room (fun _ room => actErClear_room room))
  | select => exact next_room h (rowWrite_room room (fun _ room => actSelect_room room))
  | bogBlockWrite => exact onDev_room h (writeLogBlock_room room)
  | discover => exact next_room h (rowWrite_room room (fun _ room => actDiscover_room room))
  | detach => exact next_room h (rowWrite_room room (fun _ room => actDetach_room room))
  | format => exact next_room h (rowWrite_room room (fun _ room => actFormat_room room))
  | readBlock => exact next_room h (rowWrite_room room (fun _ room => actReadBlock_room room))
  | readCapbuf => exact next_room h (rowWrite_room room (fun _ room => actReadCapbuf_room room))
  | bogBadOp => exact next_room h (ite_state_room room (rowWrite_room room (fun _ room => actBogBad_room room)))
  | captureArm => exact next_room h (rowWrite_room room (fun _ room => actCapArm_room room))
  | captureStop => exact next_room h (rowWrite_room room (fun _ room => actCapStop_room room))
  | trigger => exact next_room h (rowWrite_room room (fun _ room => actTrigger_room room))
  | captureSample => exact onDev_room h (takeSample_room room)
  | captureCopyComplete => exact onDev_room h (copyComplete_room room)
  | pfailNRise => exact next_room h (pfailRises_room room)
  | imgCheckEnd => exact onDev_room h (checkEnds_room room)
  | codeFlashOperationEnd => exact next_room h (codeFlashEnd_room room)
  | archiveFlashOperationEnd => exact onDev_room h (archiveEnd_room room)
  | twpBusFree => exact onDev_room h (busFrees_room room)
  | quadrantDomainOn => exact onDev_room h (domainOn_room room)

/-- Settles O57: a step is a command, or a T-tick. -/
theorem eventsBoundedKept : Obligations.EventsBoundedKept := by
  intro s t bounded hstep
  unfold step at hstep
  split at hstep
  · cases hstep
    exact tick_room bounded
  · next c rest _ => exact exec_room (s := { s with pending := rest }) c bounded hstep

end Sys2Proof.Machine
end

section
/-! SUPPORT. Bits of the store's flash that only fall (R372, R373): what the memories' own operations do, and the shapes of commands
and writes. -/

namespace Sys2Proof.Machine

/-- From one content of the flash to another no bit has moved from 0 to 1; and the later one is canonical. -/
structure BitsFell (old new : List Host.Cell) : Prop where
  wf : cellsWf new = true
  bits : ∀ a, cellsGet new a &&& cellsGet old a = cellsGet new a

/-- Since an earlier content of the memories no bit of the store's flash has moved from 0 to 1. -/
def Fallen (old nv : NonVol) : Prop := BitsFell old.flash nv.flash

section
variable {old nv : NonVol} {s : State} {src : Src} {p : Port}

theorem Fallen.refl (h : cellsWf nv.flash = true) : Fallen nv nv := ⟨h, fun _ => BitVec.and_self⟩

/-! ### Programs, and programs cut off -/

theorem programByte_fallen {a : Nat} {b : Byte} (fallen : Fallen old nv) : Fallen old (programByte nv a b) where
  wf := programByte_wf a b fallen.wf
  bits x := by
    rw [programByte_get a b x fallen.wf]
    split
    · next h => rw [h, BitVec.and_assoc, BitVec.and_comm b, ← BitVec.and_assoc, fallen.bits]
    · exact fallen.bits x

theorem programBytes_fallen {a : Nat} {bs : List Byte} (fallen : Fallen old nv) : Fallen old (programBytes nv a bs) := by
  induction bs generalizing nv a with
  | nil => exact fallen
  | cons b bs ih => exact ih (programByte_fallen fallen)

theorem programChunk_fallen {c : ChunkProg} (fallen : Fallen old nv) : Fallen old (programChunk nv c) := programBytes_fallen fallen

theorem interruptByte_fallen {k a : Nat} {b : Byte} (fallen : Fallen old nv) : Fallen old (interruptByte k nv a b) := by
  unfold Fallen
  obtain h | h := interruptByte_flash k nv a b
  · exact h ▸ fallen
  · exact h ▸ programByte_fallen fallen

theorem interruptBytes_fallen {k a : Nat} {bs : List Byte} (fallen : Fallen old nv) : Fallen old (interruptBytes k nv a bs) := by
  induction bs generalizing nv a with
  | nil => exact fallen
  | cons b bs ih => exact ih (interruptByte_fallen fallen)

theorem interruptChunk_fallen {c : ChunkProg} (fallen : Fallen old nv) : Fallen old (interruptChunk nv c) :=
  interruptBytes_fallen fallen

/-! ### Choices and folds -/

theorem ite_fallen {c : Prop} [Decidable c] {a b : NonVol} (ha : Fallen old a) (hb : Fallen old b) :
    Fallen old (if c then a else b) := by
  split
  · exact ha
  · exact hb

theorem ite_fst_fallen {α : Type} {c : Prop} [Decidable c] {a b : NonVol × α} (ha : Fallen old a.1) (hb : Fallen old b.1) :
    Fallen old (if c then a else b).1 := by
  split
  · exact ha
  · exact hb

theorem ite_state_fallen {c : Prop} [Decidable c] {a b : State} (ha : Fallen old a.nv) (hb : Fallen old b.nv) :
    Fallen old (if c then a else b).nv := by
  split
  · exact ha
  · exact hb

theorem ite_answer_fallen {α : Type} {c : Prop} [Decidable c] {a b : α × State} (ha : Fallen old a.2.nv)
    (hb : Fallen old b.2.nv) : Fallen old (if c then a else b).2.nv := by
  split
  · exact ha
  · exact hb

theorem ite_fst_state_fallen {α : Type} {c : Prop} [Decidable c] {a b : State × α} (ha : Fallen old a.1.nv)
    (hb : Fallen old b.1.nv) : Fallen old (if c then a else b).1.nv := by
  split
  · exact ha
  · exact hb

theorem ite_write_fallen {c : Prop} [Decidable c] {a b : WordWrite} (ha : Fallen old (a s).2.nv) (hb : Fallen old (b s).2.nv) :
    Fallen old ((if c then a else b) s).2.nv := by
  split
  · exact ha
  · exact hb

theorem foldl_fallen {α : Type} {f : NonVol → α → NonVol} {l : List α} {nv : NonVol}
    (hf : ∀ nv a, Fallen old nv → Fallen old (f nv a)) (h : Fallen old nv) : Fallen old (l.foldl f nv) := foldl_preserves hf l h

theorem foldl_fst_fallen {α β : Type} {f : NonVol × β → α → NonVol × β} {l : List α} {x : NonVol × β}
    (hf : ∀ (x : NonVol × β) a, Fallen old x.1 → Fallen old (f x a).1) (h : Fallen old x.1) : Fallen old (l.foldl f x).1 :=
  foldl_preserves (P := fun x : NonVol × β => Fallen old x.1) hf l h

theorem foldl_fst_state_fallen {α β : Type} {f : State × β → α → State × β} {l : List α} {x : State × β}
    (hf : ∀ (x : State × β) a, Fallen old x.1.nv → Fallen old (f x a).1.nv) (h : Fallen old x.1.nv) :
    Fallen old (l.foldl f x).1.nv := foldl_preserves (P := fun x : State × β => Fallen old x.1.nv) hf l h

/-! ### What a command or a write adds to its own operation -/

theorem interruptErase_fallen {p : Fin 128} (fallen : Fallen old nv) : Fallen old (interruptErase nv p) := fallen

theorem fwCommand_fallen {f : NonVol × Device → NonVol × Device} {x : NonVol × Device} (fallen : Fallen old x.1)
    (hf : ∀ x : NonVol × Device, Fallen old x.1 → Fallen old (f x).1) : Fallen old (fwCommand src f x).1 :=
  ite_fst_fallen fallen (ite_fst_fallen fallen (ite_fst_fallen fallen (ite_fst_fallen fallen (hf _ fallen))))

theorem powerCommand_fallen {least : Level} {f : State → State} (fallen : Fallen old s.nv)
    (hf : ∀ s : State, Fallen old s.nv → Fallen old (f s).nv) : Fallen old (powerCommand src least f s).nv :=
  ite_state_fallen (hf s fallen) (ite_state_fallen fallen fallen)

theorem erCommand_fallen {least : Level} {f : State → State} (fallen : Fallen old s.nv)
    (hf : ∀ s : State, Fallen old s.nv → Fallen old (f s).nv) : Fallen old (erCommand src least f s).nv :=
  ite_state_fallen (ite_state_fallen fallen (hf s fallen)) (ite_state_fallen fallen fallen)

theorem onStores_fallen {f : NonVol × Device → NonVol × Device} (fallen : Fallen old s.nv)
    (hf : ∀ x : NonVol × Device, Fallen old x.1 → Fallen old (f x).1) : Fallen old (onStores f s).nv := hf _ fallen

theorem writeState_fallen {ok : Device → Bool} {f : State → State} (fallen : Fallen old s.nv)
    (hf : ∀ s : State, Fallen old s.nv → Fallen old (f s).nv) : Fallen old (writeState ok f s).2.nv :=
  ite_answer_fallen (hf s fallen) fallen

theorem writeFields_fallen {ok : Device → Bool} {f : Device → Device} (fallen : Fallen old s.nv) :
    Fallen old (writeFields ok f s).2.nv := writeState_fallen fallen fun _ fallen => fallen

theorem writeCommand_fallen {ok : Device → Bool} {f : State → State} (fallen : Fallen old s.nv)
    (hf : ∀ s : State, Fallen old s.nv → Fallen old (f s).nv) : Fallen old (writeCommand ok f s).2.nv := hf s fallen

theorem writeBoth_fallen {a b : WordWrite} (fallen : Fallen old s.nv)
    (ha : ∀ s : State, Fallen old s.nv → Fallen old (a s).2.nv) (hb : ∀ s : State, Fallen old s.nv → Fallen old (b s).2.nv) :
    Fallen old (writeBoth a b s).2.nv := hb _ (ha s fallen)

theorem writeIf_fallen {c : Bool} {a : WordWrite} (fallen : Fallen old s.nv)
    (ha : ∀ s : State, Fallen old s.nv → Fallen old (a s).2.nv) : Fallen old (writeIf c a s).2.nv :=
  ite_write_fallen (ha s fallen) fallen

theorem untaken_fallen (fallen : Fallen old s.nv) : Fallen old (match src with
    | .sup => s
    | .port p => s.onDev (turnedAway p)).nv := by
  cases src <;> exact fallen

theorem rowStarts_fallen {a : Addr} (fallen : Fallen old s.nv) : Fallen old (rowStarts src a s).nv := by
  cases src <;> exact fallen

theorem rowHangs_fallen {a : Addr} {w : Word} (fallen : Fallen old s.nv) : Fallen old (rowHangs src a w s).nv := by
  cases src <;> exact fallen

/-- A write that is a row of its own: the access itself leaves the memories alone. -/
theorem rowWrite_fallen {a : Addr} {w : Word} {win : Window} {f : WordWrite} (fallen : Fallen old s.nv)
    (hf : ∀ s : State, Fallen old s.nv → Fallen old (f s).2.nv) : Fallen old (rowWrite src a w win f s).nv :=
  ite_state_fallen (untaken_fallen fallen) (ite_state_fallen (rowStarts_fallen fallen)
    (ite_state_fallen (rowHangs_fallen fallen) (hf _ (rowStarts_fallen fallen))))

theorem rowResets_fallen {a : Addr} {f : WordWrite} (fallen : Fallen old s.nv)
    (hf : ∀ s : State, Fallen old s.nv → Fallen old (f s).2.nv) : Fallen old (rowResets src a f s).nv :=
  ite_state_fallen (untaken_fallen fallen) (ite_state_fallen (hf _ (rowStarts_fallen fallen)) (hf _ (rowStarts_fallen fallen)))

theorem withLevel_fallen {rank : Nat} {f : State → State} (fallen : Fallen old s.nv)
    (hf : ∀ s : State, Fallen old s.nv → Fallen old (f s).nv) : Fallen old (withLevel p rank f s).nv :=
  ite_state_fallen (hf s fallen) (hf _ (ite_state_fallen fallen fallen))

theorem dbgWindow_fallen {f : State → State} (fallen : Fallen old s.nv)
    (hf : ∀ s : State, Fallen old s.nv → Fallen old (f s).nv) : Fallen old (dbgWindow f s).nv :=
  ite_state_fallen fallen (hf _ fallen)

/-! ### Writes that act on the device alone -/

theorem writeOnDev_fallen {ok : Device → Bool} {f : State → Device → Device} (fallen : Fallen old s.nv) :
    Fallen old (writeState ok (fun s => s.onDev (f s)) s).2.nv := writeState_fallen fallen fun _ fallen => fallen

theorem actSession_fallen {f : TimeBase → NonVol → Device → Device} (fallen : Fallen old s.nv) :
    Fallen old (actSession src p f s).2.nv := writeOnDev_fallen fallen

theorem actFw_fallen {f : TimeBase → NonVol × Device → NonVol × Device} (fallen : Fallen old s.nv)
    (hf : ∀ tm (x : NonVol × Device), Fallen old x.1 → Fallen old (f tm x).1) : Fallen old (actFw src f s).2.nv :=
  writeCommand_fallen fallen fun s fallen => onStores_fallen fallen fun _ fallen => fwCommand_fallen fallen (hf s.tm)

end
end Sys2Proof.Machine
end

section
/-! SUPPORT. Bits of the store's flash that only fall, function by function: each lemma follows the branches of the definition that it
is about, and the lemmas stand in the order of the model's files. -/

namespace Sys2Proof.Machine

variable {old : NonVol} {tm : TimeBase} {nv : NonVol} {d : Device} {s : State} {src : Src} {p : Port} {x : NonVol × Device}
  {r n : Fin 64} {g : Fin 512} {a : Addr} {w : Word} {b : Fin 2} {h : Fin 256}

/-! ### Store -/

theorem wearOut_fallen {p : Fin 128} (fallen : Fallen old nv) : Fallen old (wearOut tm nv p d).1 := by
  unfold wearOut
  refine ite_fst_fallen ?_ ?_
  · exact fallen
  · extract_lets d1
    have fallen1 : Fallen old d1 := fallen
    clear_value d1
    split
    · exact fallen1
    · extract_lets _ _ d2 _
      have fallen2 : Fallen old d2 := ite_fallen fallen1 fallen1
      clear_value d2
      split
      · exact fallen2
      · refine ite_fst_fallen ?_ ?_
        · split
          · split
            · extract_lets _ _
              exact fallen2
            · exact fallen1
          · exact fallen1
        · exact fallen2

theorem stopErase_fallen (fallen : Fallen old nv) : Fallen old (stopErase nv d).1 :=
  foldl_fallen (fun _ _ fallen => interruptErase_fallen fallen) fallen

theorem programFailed_fallen {j : Job} {c : ChunkProg} (fallen : Fallen old nv) : Fallen old (programFailed tm nv j c d).1 :=
  ite_fst_fallen (wearOut_fallen fallen) fallen

theorem chunkEnd_fallen {verified : Bool} (fallen : Fallen old nv) : Fallen old (chunkEnd tm verified nv d).1 := by
  unfold chunkEnd
  split
  · exact fallen
  · split
    · exact fallen
    · refine ite_fst_fallen ?_ ?_
      · extract_lets d1 _ _
        have fallen1 : Fallen old d1 := programChunk_fallen fallen
        clear_value d1
        split
        · exact fallen1
        · exact fallen1
      · exact ite_fst_fallen (programFailed_fallen (interruptChunk_fallen fallen)) (programFailed_fallen
          (interruptChunk_fallen fallen))

/-! ### Housekeep -/

theorem enterShutdown_fallen {cause : ℕ} {index : ℕ} {temp : BitVec 16} (fallen : Fallen old nv) :
    Fallen old (enterShutdown tm cause index temp nv d).1 :=
  stopErase_fallen fallen

theorem closeWindow_fallen (fallen : Fallen old nv) : Fallen old (closeWindow tm nv d).1 :=
  ite_fst_fallen fallen (stopErase_fallen fallen)

theorem dieSample_fallen {temps : Vector (Option (BitVec 16)) 8} (fallen : Fallen old nv) :
    Fallen old (dieSample tm temps nv d).1 := by
  unfold dieSample
  dsimp only
  split
  · with_reducible exact ite_fst_fallen (ite_fst_fallen (closeWindow_fallen fallen) (ite_fst_fallen fallen fallen))
                     (enterShutdown_fallen (ite_fst_fallen (closeWindow_fallen fallen) (ite_fst_fallen fallen fallen)))
  · with_reducible exact ite_fst_fallen (closeWindow_fallen fallen) (ite_fst_fallen fallen fallen)

theorem roundEnd_fallen (fallen : Fallen old nv) : Fallen old (roundEnd tm nv d).1 := by
  unfold roundEnd
  dsimp only
  with_reducible refine ite_fst_fallen ?_ ?_
  · with_reducible exact fallen
  · split
    · with_reducible exact ite_fst_fallen fallen (enterShutdown_fallen fallen)
    · with_reducible exact fallen

/-! ### Supervisor -/

theorem moveCode_fallen {op : ℕ} {s : Fin 2} {p : SlotPhase} (fallen : Fallen old x.1) : Fallen old (moveCode tm op s p x).1 :=
  ite_fst_fallen fallen fallen

theorem rejectTrial_fallen {op : ℕ} (fallen : Fallen old x.1) : Fallen old (rejectTrial tm op x).1 := by
  unfold rejectTrial
  split
  · exact fallen
  · exact moveCode_fallen fallen

theorem fwEraseStart_fallen {s : Fin 2} (fallen : Fallen old x.1) : Fallen old (fwEraseStart s x).1 :=
  ite_fst_fallen fallen fallen

theorem fwSealStart_fallen {s : Fin 2} (fallen : Fallen old x.1) : Fallen old (fwSealStart s x).1 :=
  ite_fst_fallen fallen fallen

theorem codeFlashEnd_fallen (fallen : Fallen old x.1) : Fallen old (codeFlashEnd tm x).1 := by
  unfold codeFlashEnd
  dsimp only
  split
  · exact fallen
  · exact moveCode_fallen fallen
  · split
    · exact moveCode_fallen fallen
    · exact fallen

theorem writeFwData_fallen {data : Word} (fallen : Fallen old x.1) : Fallen old (writeFwData data x).1 := by
  unfold writeFwData
  split
  · exact fallen
  · exact ite_fst_fallen fallen fallen

theorem fwSwitch_fallen {s : Fin 2} (fallen : Fallen old x.1) : Fallen old (fwSwitch tm s x).1 :=
  ite_fst_fallen fallen (moveCode_fallen fallen)

theorem fwConfirm_fallen (fallen : Fallen old x.1) : Fallen old (fwConfirm tm x).1 := by
  unfold fwConfirm
  dsimp only
  split
  · with_reducible exact fallen
  · with_reducible exact ite_fst_fallen (moveCode_fallen (moveCode_fallen fallen)) (moveCode_fallen fallen)

theorem fwRollback_fallen (fallen : Fallen old x.1) : Fallen old (fwRollback tm x).1 :=
  ite_fst_fallen fallen (rejectTrial_fallen fallen)

theorem fwTrialTimeout_fallen (fallen : Fallen old x.1) : Fallen old (fwTrialTimeout tm x).1 := by
  unfold fwTrialTimeout
  split
  · exact fallen
  · exact ite_fst_fallen (rejectTrial_fallen fallen) fallen

theorem watchdog_fallen (fallen : Fallen old x.1) : Fallen old (watchdog tm x).1 :=
  ite_fst_fallen fallen (ite_fst_fallen (rejectTrial_fallen fallen) fallen)

/-! ### Startup -/

theorem resetFlash_fallen {cold : Bool} (fallen : Fallen old nv) : Fallen old (resetFlash cold nv d) := by
  unfold resetFlash
  extract_lets d1 d2
  have fallen1 : Fallen old d1 := by
    unfold d1
    split
    · exact ite_fallen (interruptChunk_fallen fallen) (programChunk_fallen fallen)
    · exact fallen
  clear_value d1
  have fallen2 : Fallen old d2 := foldl_fallen (fun _ _ fallen => interruptErase_fallen fallen) fallen1
  clear_value d2
  split
  · exact fallen2
  · exact fallen2

theorem wholeReset_fallen {kind : ResetKind} (fallen : Fallen old nv) : Fallen old (wholeReset kind nv d).1 :=
  ite_fst_fallen fallen (resetFlash_fallen fallen)

theorem resetState_fallen {kind : ResetKind} (fallen : Fallen old s.nv) : Fallen old (resetState kind s).nv :=
  wholeReset_fallen fallen

theorem supplyTrip_fallen (fallen : Fallen old s.nv) : Fallen old (supplyTrip s).nv := resetState_fallen fallen

theorem rstLow_fallen (fallen : Fallen old s.nv) : Fallen old (rstLow s).nv := resetState_fallen fallen

theorem clockLost_fallen (fallen : Fallen old s.nv) : Fallen old (clockLost s).nv :=
  ite_state_fallen fallen (resetState_fallen fallen)

theorem ramFails_fallen {blk : RamBlock} {correctable : Bool} (fallen : Fallen old s.nv) :
    Fallen old (ramFails blk correctable s).nv := by
  unfold ramFails
  refine ite_state_fallen ?_ ?_
  · exact fallen
  · split
    · exact fallen
    · exact resetState_fallen fallen
    · exact resetState_fallen fallen
    · exact resetState_fallen fallen
    · exact resetState_fallen fallen

theorem wipeEnds_fallen (fallen : Fallen old s.nv) : Fallen old (wipeEnds s).nv :=
  ite_state_fallen fallen (ite_state_fallen fallen fallen)

theorem pllLocks_fallen (fallen : Fallen old s.nv) : Fallen old (pllLocks s).nv :=
  ite_state_fallen fallen (ite_state_fallen fallen fallen)

theorem pfailFalls_fallen (fallen : Fallen old s.nv) : Fallen old (pfailFalls s).nv :=
  ite_state_fallen fallen (stopErase_fallen fallen)

theorem pfailRises_fallen (fallen : Fallen old s.nv) : Fallen old (pfailRises s).nv := ite_state_fallen fallen fallen

theorem pfailOver_fallen (fallen : Fallen old s.nv) : Fallen old (pfailOver s).nv := ite_state_fallen fallen fallen

/-! ### Power -/

theorem enterStandby_fallen (fallen : Fallen old s.nv) : Fallen old (enterStandby s).nv := by
  unfold enterStandby
  refine ite_state_fallen ?_ ?_
  · exact fallen
  · split
    · exact fallen
    · exact fallen

theorem wakeDevice_fallen {cause : ℕ} (fallen : Fallen old s.nv) : Fallen old (wakeDevice cause s).nv :=
  ite_state_fallen fallen (ite_state_fallen fallen fallen)

theorem wake_fallen {c : WakeCause} (fallen : Fallen old s.nv) : Fallen old (wake c s).nv := by
  unfold wake
  split
  · exact wakeDevice_fallen fallen
  · exact fallen

theorem wakeHot_fallen {was : Device} (fallen : Fallen old s.nv) : Fallen old (wakeHot was s).nv :=
  ite_state_fallen (wakeDevice_fallen fallen) (ite_state_fallen (wakeDevice_fallen fallen) fallen)

theorem enterRun_fallen (fallen : Fallen old s.nv) : Fallen old (enterRun s).nv := by
  unfold enterRun
  dsimp only [State.onDev]
  split
  · with_reducible exact fallen
  · with_reducible exact fallen
  · with_reducible exact wakeDevice_fallen fallen

/-! ### Guard -/

theorem debugReset_fallen (fallen : Fallen old s.nv) : Fallen old (debugReset s).nv :=
  ite_state_fallen fallen (resetState_fallen fallen)

/-! ### StoreEnd -/

theorem abortStore_fallen (fallen : Fallen old nv) : Fallen old (abortStore nv d).1 := by
  unfold abortStore
  refine ite_fst_fallen ?_ ?_
  · exact fallen
  · split
    · exact interruptChunk_fallen fallen
    · exact fallen

theorem programEnds_fallen {verified : Bool} (fallen : Fallen old x.1) : Fallen old (programEnds tm verified x).1 :=
  chunkEnd_fallen fallen

/-! ### ExecStart -/

theorem portsStart_fallen {t : State} (fallen : Fallen old t.nv) : Fallen old (portsStart s t).nv :=
  ite_state_fallen fallen fallen

/-! ### Abort -/

theorem abortOne_fallen {f : AbortFunc} {sda : Bool × Option (Fin 9)} (fallen : Fallen old s.nv) :
    Fallen old (abortOne f sda s).1.nv := by
  unfold abortOne
  split
  · exact fallen
  · exact fallen
  · exact abortStore_fallen fallen
  · exact fallen
  · exact fallen
  · exact fallen
  · exact fallen
  · exact fallen
  · exact fallen
  · exact fallen
  · exact fallen

theorem abortAll_fallen {sda : Bool × Option (Fin 9)} (fallen : Fallen old s.nv) : Fallen old (abortAll sda s).1.nv := by
  unfold abortAll
  with_reducible exact foldl_fst_state_fallen (fun _ _ fallen => ite_fst_state_fallen (abortOne_fallen fallen)
                   (abortOne_fallen fallen)) fallen

theorem abortCommand_fallen {func : Byte} {index : Byte} {sda : Bool × Option (Fin 9)} (fallen : Fallen old s.nv) :
    Fallen old (abortCommand p func index sda s).2.nv := by
  unfold abortCommand
  dsimp only [State.onDev]
  with_reducible refine ite_answer_fallen ?_ ?_
  · with_reducible exact fallen
  · with_reducible refine ite_answer_fallen ?_ ?_
    · with_reducible exact fallen
    · with_reducible refine ite_answer_fallen ?_ ?_
      · with_reducible exact fallen
      · split
        · with_reducible exact fallen
        · with_reducible exact ite_answer_fallen (abortAll_fallen fallen) (abortOne_fallen fallen)

theorem abortBlind_fallen {func : Byte} {index : Byte} (fallen : Fallen old s.nv) :
    Fallen old (abortBlind p func index s).2.nv :=
  abortCommand_fallen fallen

theorem abortWrite_fallen {func : Byte} {index : Byte} {sda : Option (Bool × Option (Fin 9))} (fallen : Fallen old s.nv) :
    Fallen old (abortWrite p func index sda s).2.nv := by
  unfold abortWrite
  split
  · exact abortCommand_fallen fallen
  · exact abortBlind_fallen fallen

/-! ### Acts -/

theorem writeNothing_fallen (fallen : Fallen old s.nv) : Fallen old (writeNothing src s).2.nv := writeFields_fallen fallen

theorem actResetWarm_fallen (fallen : Fallen old s.nv) : Fallen old (actResetWarm src s).2.nv :=
  writeState_fallen fallen (fun _ fallen => resetState_fallen fallen)

theorem actResetSupervisor_fallen (fallen : Fallen old s.nv) : Fallen old (actResetSupervisor src s).2.nv :=
  writeFields_fallen fallen

theorem actResetQuadrant_fallen {q : Fin 4} (fallen : Fallen old s.nv) : Fallen old (actResetQuadrant src q s).2.nv := by
  unfold actResetQuadrant
  dsimp only [State.onDev]
  with_reducible exact writeState_fallen fallen (fun _ fallen => fallen)

theorem actPwrRun_fallen (fallen : Fallen old s.nv) : Fallen old (actPwrRun src s).2.nv :=
  writeCommand_fallen fallen (fun _ fallen => powerCommand_fallen fallen (fun _ fallen => enterRun_fallen fallen))

theorem actPwrTrim_fallen (fallen : Fallen old s.nv) : Fallen old (actPwrTrim src s).2.nv :=
  writeCommand_fallen fallen (fun _ fallen => powerCommand_fallen fallen (fun _ fallen => fallen))

theorem actPwrStandby_fallen (fallen : Fallen old s.nv) : Fallen old (actPwrStandby src s).2.nv :=
  writeCommand_fallen fallen (fun _ fallen => powerCommand_fallen fallen (fun _ fallen => enterStandby_fallen fallen))

theorem actQopSmoulder_fallen {q : Fin 4} (fallen : Fallen old s.nv) : Fallen old (actQopSmoulder src q s).2.nv :=
  writeCommand_fallen fallen (fun _ fallen => powerCommand_fallen fallen (fun _ fallen => fallen))

theorem actQopQrun_fallen {q : Fin 4} (fallen : Fallen old s.nv) : Fallen old (actQopQrun src q s).2.nv :=
  writeCommand_fallen fallen (fun _ fallen => powerCommand_fallen fallen (fun _ fallen => fallen))

theorem actOpen_fallen {level : BitVec 2} (fallen : Fallen old s.nv) : Fallen old (actOpen src p level s).2.nv :=
  actSession_fallen fallen

theorem actProve_fallen (fallen : Fallen old s.nv) : Fallen old (actProve src p s).2.nv := actSession_fallen fallen

theorem actClose_fallen (fallen : Fallen old s.nv) : Fallen old (actClose src p s).2.nv := actSession_fallen fallen

theorem actKey_fallen {target : BitVec 3} (fallen : Fallen old s.nv) : Fallen old (actKey src target s).2.nv :=
  writeCommand_fallen fallen (fun _ fallen => fallen)

theorem actLife_fallen {new : LifeCycle} (fallen : Fallen old s.nv) : Fallen old (actLife src new s).2.nv :=
  writeCommand_fallen fallen (fun _ fallen => fallen)

theorem actFwData_fallen {data : Word} (fallen : Fallen old s.nv) : Fallen old (actFwData src data s).2.nv :=
  writeState_fallen fallen (fun _ fallen => onStores_fallen fallen (fun _ fallen => writeFwData_fallen fallen))

theorem actFwBad_fallen (fallen : Fallen old s.nv) : Fallen old (actFwBad src s).2.nv :=
  actFw_fallen fallen (fun _ _ fallen => fallen)

theorem actImgData_fallen {data : Word} (fallen : Fallen old s.nv) : Fallen old (actImgData src data s).2.nv :=
  writeState_fallen fallen (fun _ fallen => fallen)

theorem actImg_fallen {f : TimeBase → NonVol → Device → Device} (fallen : Fallen old s.nv) : Fallen old (actImg src f s).2.nv :=
  writeCommand_fallen fallen (fun _ fallen => fallen)

theorem actImgBad_fallen (fallen : Fallen old s.nv) : Fallen old (actImgBad src s).2.nv := actImg_fallen fallen

theorem actRetrain_fallen (fallen : Fallen old s.nv) : Fallen old (actRetrain src n s).2.nv :=
  writeState_fallen fallen (fun _ fallen => fallen)

theorem actDisable_fallen {b : Bool} (fallen : Fallen old s.nv) : Fallen old (actDisable src n b s).2.nv :=
  writeState_fallen fallen (fun _ fallen => fallen)

theorem actAdmit_fallen (fallen : Fallen old s.nv) : Fallen old (actAdmit src g s).2.nv := writeFields_fallen fallen

theorem actRefuse_fallen (fallen : Fallen old s.nv) : Fallen old (actRefuse src g s).2.nv := writeFields_fallen fallen

theorem actRecal_fallen (fallen : Fallen old s.nv) : Fallen old (actRecal src g s).2.nv :=
  writeState_fallen fallen (fun _ fallen => fallen)

theorem actCalSave_fallen (fallen : Fallen old s.nv) : Fallen old (actCalSave src g s).2.nv :=
  writeState_fallen fallen (fun _ fallen => fallen)

theorem actIdentify_fallen {on : Bool} (fallen : Fallen old s.nv) : Fallen old (actIdentify src g on s).2.nv :=
  writeFields_fallen fallen

theorem actSlotCal_fallen {voltage : Bool} {data : Word} (fallen : Fallen old s.nv) :
    Fallen old (actSlotCal src g voltage data s).2.nv :=
  writeFields_fallen fallen

theorem actBase_fallen {base : BitVec 16} (fallen : Fallen old s.nv) : Fallen old (actBase src r base s).2.nv :=
  writeFields_fallen fallen

theorem actRail_fallen {ok : Device → Bool} {least : Level} {pos : ℕ} {f : TimeBase → Device → Device}
    (fallen : Fallen old s.nv) :
    Fallen old (actRail src ok least r pos f s).2.nv :=
  writeCommand_fallen fallen (fun _ fallen => fallen)

theorem actArm_fallen (fallen : Fallen old s.nv) : Fallen old (actArm src r s).2.nv := actRail_fallen fallen

theorem actDisarm_fallen (fallen : Fallen old s.nv) : Fallen old (actDisarm src r s).2.nv := actRail_fallen fallen

theorem actStart_fallen (fallen : Fallen old s.nv) : Fallen old (actStart src r s).2.nv := actRail_fallen fallen

theorem actStop_fallen (fallen : Fallen old s.nv) : Fallen old (actStop src r s).2.nv := actRail_fallen fallen

theorem actSoftstop_fallen (fallen : Fallen old s.nv) : Fallen old (actSoftstop src r s).2.nv := actRail_fallen fallen

theorem actClear_fallen (fallen : Fallen old s.nv) : Fallen old (actClear src r s).2.nv := actRail_fallen fallen

theorem actRetire_fallen {pos : Fin 128} (fallen : Fallen old s.nv) : Fallen old (actRetire src r pos s).2.nv :=
  actRail_fallen fallen

theorem actRestore_fallen {pos : Fin 128} (fallen : Fallen old s.nv) : Fallen old (actRestore src r pos s).2.nv :=
  actRail_fallen fallen

theorem actRailBad_fallen (fallen : Fallen old s.nv) : Fallen old (actRailBad src r s).2.nv := actRail_fallen fallen

theorem actVset_fallen {data : Word} (fallen : Fallen old s.nv) : Fallen old (actVset src r data s).2.nv :=
  writeFields_fallen fallen

theorem actVnext_fallen {data : Word} (fallen : Fallen old s.nv) : Fallen old (actVnext src r data s).2.nv :=
  writeFields_fallen fallen

theorem actWindow_fallen {high : Bool} {data : Word} (fallen : Fallen old s.nv) :
    Fallen old (actWindow src r high data s).2.nv :=
  writeFields_fallen fallen

theorem actTripped_fallen {i : Fin 4} {data : Word} (fallen : Fallen old s.nv) : Fallen old (actTripped src r i data s).2.nv :=
  writeFields_fallen fallen

theorem actLoopClear_fallen (fallen : Fallen old s.nv) : Fallen old (actLoopClear src r s).2.nv := writeFields_fallen fallen

theorem actLeClear_fallen (fallen : Fallen old s.nv) : Fallen old (actLeClear src s).2.nv := writeFields_fallen fallen

theorem actAtStart_fallen {loop : BitVec 1} {rule : BitVec 2} (fallen : Fallen old s.nv) :
    Fallen old (actAtStart src r loop rule s).2.nv :=
  writeCommand_fallen fallen (fun _ fallen => fallen)

theorem actAtStop_fallen (fallen : Fallen old s.nv) : Fallen old (actAtStop src s).2.nv :=
  writeState_fallen fallen (fun _ fallen => fallen)

theorem actPlan_fallen {e : Fin 128} {start : Word} (fallen : Fallen old s.nv) : Fallen old (actPlan e start s).2.nv :=
  writeState_fallen fallen (fun _ fallen => fallen)

theorem actInvalidate_fallen {e : Fin 128} (fallen : Fallen old s.nv) : Fallen old (actInvalidate e s).2.nv :=
  writeState_fallen fallen (fun _ fallen => fallen)

theorem actSquash_fallen {e : Fin 128} {hint : BitVec 16} (fallen : Fallen old s.nv) : Fallen old (actSquash e hint s).2.nv :=
  writeState_fallen fallen (fun _ fallen => fallen)

theorem actHeartbeat_fallen (fallen : Fallen old s.nv) : Fallen old (actHeartbeat s).2.nv :=
  writeState_fallen fallen (fun _ fallen => fallen)

theorem actEvict_fallen (fallen : Fallen old s.nv) : Fallen old (actEvict src h s).2.nv :=
  writeState_fallen fallen (fun _ fallen => fallen)

theorem actRestart_fallen {b : Bus} (fallen : Fallen old s.nv) : Fallen old (actRestart src b s).2.nv :=
  writeFields_fallen fallen

theorem actBitTiming_fallen {b : Bus} {which : Fin 3} {data : Word} (fallen : Fallen old s.nv) :
    Fallen old (actBitTiming src b which data s).2.nv :=
  writeFields_fallen fallen

theorem actLatch_fallen {i : Fin 8} {data : Word} (fallen : Fallen old s.nv) : Fallen old (actLatch src i data s).2.nv :=
  writeFields_fallen fallen

theorem actFirst_fallen (fallen : Fallen old s.nv) : Fallen old (actFirst src s).2.nv := writeFields_fallen fallen

theorem actUserRead_fallen {block : Fin 128} (fallen : Fallen old s.nv) : Fallen old (actUserRead src block s).2.nv :=
  writeCommand_fallen fallen (fun _ fallen => fallen)

theorem actUserWrite_fallen {block : Fin 128} (fallen : Fallen old s.nv) : Fallen old (actUserWrite src block s).2.nv :=
  writeCommand_fallen fallen (fun _ fallen => fallen)

theorem actProtect_fallen {level : BitVec 2} (fallen : Fallen old s.nv) : Fallen old (actProtect src level s).2.nv :=
  writeCommand_fallen fallen (fun _ fallen => fallen)

theorem actOcsBad_fallen (fallen : Fallen old s.nv) : Fallen old (actOcsBad src s).2.nv :=
  writeCommand_fallen fallen (fun _ fallen => fallen)

theorem actTimeSet_fallen (fallen : Fallen old s.nv) : Fallen old (actTimeSet src s).2.nv :=
  writeCommand_fallen fallen (fun _ fallen => erCommand_fallen fallen (fun _ fallen => fallen))

theorem actErClear_fallen {areas : BitVec 4} (fallen : Fallen old s.nv) : Fallen old (actErClear src areas s).2.nv :=
  writeCommand_fallen fallen (fun _ fallen => erCommand_fallen fallen (fun _ fallen => fallen))

theorem actSelect_fallen {areas : BitVec 4} (fallen : Fallen old s.nv) : Fallen old (actSelect src areas s).2.nv :=
  writeCommand_fallen fallen (fun _ fallen => erCommand_fallen fallen (fun _ fallen => fallen))

theorem actBog_fallen {least : Level} {f : TimeBase → NonVol → Device → Device} (fallen : Fallen old s.nv) :
    Fallen old (actBog src least f s).2.nv :=
  writeCommand_fallen fallen (fun _ fallen => fallen)

theorem actDiscover_fallen (fallen : Fallen old s.nv) : Fallen old (actDiscover src s).2.nv := actBog_fallen fallen

theorem actDetach_fallen (fallen : Fallen old s.nv) : Fallen old (actDetach src s).2.nv := actBog_fallen fallen

theorem actFormat_fallen (fallen : Fallen old s.nv) : Fallen old (actFormat src s).2.nv := actBog_fallen fallen

theorem actReadBlock_fallen {block : BitVec 24} (fallen : Fallen old s.nv) : Fallen old (actReadBlock src block s).2.nv :=
  actBog_fallen fallen

theorem actReadCapbuf_fallen {part : BitVec 24} (fallen : Fallen old s.nv) : Fallen old (actReadCapbuf src part s).2.nv :=
  actBog_fallen fallen

theorem actBogBad_fallen (fallen : Fallen old s.nv) : Fallen old (actBogBad src s).2.nv := actBog_fallen fallen

theorem actCapArm_fallen (fallen : Fallen old s.nv) : Fallen old (actCapArm src s).2.nv := writeFields_fallen fallen

theorem actCapStop_fallen (fallen : Fallen old s.nv) : Fallen old (actCapStop src s).2.nv := writeFields_fallen fallen

theorem actTrigger_fallen (fallen : Fallen old s.nv) : Fallen old (actTrigger src s).2.nv :=
  writeState_fallen fallen (fun _ fallen => fallen)

theorem actRecover_fallen {freedAt : Option (Fin 9)} (fallen : Fallen old s.nv) : Fallen old (actRecover src freedAt s).2.nv :=
  writeState_fallen fallen (fun _ fallen => fallen)

theorem actPollNow_fallen {e : Fin 32} (fallen : Fallen old s.nv) : Fallen old (actPollNow src e s).2.nv :=
  writeFields_fallen fallen

theorem actTwpTiming_fallen {second : Bool} {data : Word} (fallen : Fallen old s.nv) :
    Fallen old (actTwpTiming src second data s).2.nv :=
  writeFields_fallen fallen

/-! ### RegsWrite -/

theorem writeSys_fallen {a : ℕ} (fallen : Fallen old s.nv) : Fallen old (writeSys src a w s).2.nv :=
  ite_write_fallen (writeFields_fallen fallen) (ite_write_fallen (ite_write_fallen (writeFields_fallen fallen)
      (ite_write_fallen (actResetWarm_fallen fallen) (ite_write_fallen (actResetSupervisor_fallen fallen) (ite_write_fallen
      (actResetQuadrant_fallen fallen) (writeFields_fallen fallen))))) (writeNothing_fallen fallen))

theorem writeClk_fallen {a : ℕ} (fallen : Fallen old s.nv) : Fallen old (writeClk src a w s).2.nv :=
  ite_write_fallen (writeBoth_fallen fallen (fun _ fallen => ite_write_fallen (actPwrRun_fallen fallen) (ite_write_fallen
      (actPwrTrim_fallen fallen) (ite_write_fallen (actPwrStandby_fallen fallen) (writeNothing_fallen fallen))))
      (fun _ fallen => ite_write_fallen (actQopQrun_fallen fallen) (ite_write_fallen (actQopSmoulder_fallen fallen)
      (writeNothing_fallen fallen)))) (ite_write_fallen (writeFields_fallen fallen) (writeNothing_fallen fallen))

theorem writePortRegs_fallen {off : ℕ} (fallen : Fallen old s.nv) : Fallen old (writePortRegs src p off w s).2.nv :=
  ite_write_fallen fallen (ite_write_fallen (ite_write_fallen (actOpen_fallen fallen) (ite_write_fallen
      (actProve_fallen fallen) (ite_write_fallen (actClose_fallen fallen) (writeFields_fallen fallen)))) (ite_write_fallen
      (writeFields_fallen fallen) (ite_write_fallen (writeFields_fallen fallen) (writeFields_fallen fallen))))

theorem writeLife_fallen {n : ℕ} (fallen : Fallen old s.nv) : Fallen old (writeLife src n s).2.nv :=
  ite_write_fallen (writeNothing_fallen fallen) (ite_write_fallen (actLife_fallen fallen) (ite_write_fallen
      (actLife_fallen fallen) (ite_write_fallen (actLife_fallen fallen) (ite_write_fallen (actLife_fallen fallen)
      (ite_write_fallen (actLife_fallen fallen) (ite_write_fallen (actLife_fallen fallen) (writeFields_fallen fallen)))))))

theorem writeGuard_fallen {a : ℕ} (fallen : Fallen old s.nv) : Fallen old (writeGuard src a w s).2.nv :=
  ite_write_fallen (writePortRegs_fallen fallen) (ite_write_fallen (writePortRegs_fallen fallen) (ite_write_fallen
      (writePortRegs_fallen fallen) (ite_write_fallen (writeLife_fallen fallen) (ite_write_fallen (actKey_fallen fallen)
      (ite_write_fallen (writeFields_fallen fallen) (ite_write_fallen (writeFields_fallen fallen) (ite_write_fallen
      (writeFields_fallen fallen) (ite_write_fallen (writeFields_fallen fallen) (writeNothing_fallen fallen)))))))))

theorem writeFw_fallen {a : ℕ} (fallen : Fallen old s.nv) : Fallen old (writeFw src a w s).2.nv :=
  ite_write_fallen (ite_write_fallen (actFw_fallen fallen (fun _ _ fallen => fwEraseStart_fallen fallen)) (ite_write_fallen
      (actFw_fallen fallen (fun _ _ fallen => fwSealStart_fallen fallen)) (ite_write_fallen (actFw_fallen fallen
      (fun _ _ fallen => fwSwitch_fallen fallen)) (ite_write_fallen (actFw_fallen fallen
      (fun _ _ fallen => fwConfirm_fallen fallen)) (ite_write_fallen (actFw_fallen fallen
      (fun _ _ fallen => fwRollback_fallen fallen)) (actFwBad_fallen fallen)))))) (ite_write_fallen
      (writeFields_fallen fallen) (ite_write_fallen (actFwData_fallen fallen) (ite_write_fallen (writeFields_fallen fallen)
      (writeNothing_fallen fallen))))

theorem writeHsp_fallen {a : ℕ} (fallen : Fallen old s.nv) : Fallen old (writeHsp src a w s).2.nv := by
  unfold writeHsp
  refine ite_write_fallen ?_ ?_
  · exact writeFields_fallen fallen
  · refine ite_write_fallen ?_ ?_
    · exact writeFields_fallen fallen
    · refine ite_write_fallen ?_ ?_
      · exact writeFields_fallen fallen
      · refine ite_write_fallen ?_ ?_
        · split
          · exact abortBlind_fallen fallen
          · exact fallen
        · exact writeNothing_fallen fallen

theorem writeImg_fallen {a : ℕ} (fallen : Fallen old s.nv) : Fallen old (writeImg src a w s).2.nv :=
  ite_write_fallen (ite_write_fallen (actImg_fallen fallen) (ite_write_fallen (actImg_fallen fallen) (ite_write_fallen
      (actImg_fallen fallen) (ite_write_fallen (actImg_fallen fallen) (ite_write_fallen (actImg_fallen fallen)
      (ite_write_fallen (actImg_fallen fallen) (actImgBad_fallen fallen))))))) (ite_write_fallen (writeFields_fallen fallen)
      (ite_write_fallen (actImgData_fallen fallen) (writeNothing_fallen fallen)))

theorem writeLane_fallen {off : ℕ} (fallen : Fallen old s.nv) : Fallen old (writeLane src n off w s).2.nv :=
  ite_write_fallen (writeBoth_fallen fallen (fun _ fallen => writeFields_fallen fallen) (fun _ fallen => writeIf_fallen fallen
      (fun _ fallen => actRetrain_fallen fallen))) (ite_write_fallen (writeFields_fallen fallen) (ite_write_fallen
      (writeFields_fallen fallen) (writeFields_fallen fallen)))

theorem writeSlot_fallen {off : ℕ} (fallen : Fallen old s.nv) : Fallen old (writeSlot src g off w s).2.nv :=
  ite_write_fallen (actSlotCal_fallen fallen) (ite_write_fallen (actSlotCal_fallen fallen) (ite_write_fallen (ite_write_fallen
      (actAdmit_fallen fallen) (ite_write_fallen (actRefuse_fallen fallen) (ite_write_fallen (actRecal_fallen fallen)
      (ite_write_fallen (actCalSave_fallen fallen) (ite_write_fallen (actIdentify_fallen fallen) (ite_write_fallen
      (actIdentify_fallen fallen) (writeFields_fallen fallen))))))) (writeFields_fallen fallen)))

theorem writeTbi_fallen {a : ℕ} (fallen : Fallen old s.nv) : Fallen old (writeTbi src a w s).2.nv := by
  unfold writeTbi
  refine ite_write_fallen ?_ ?_
  · exact writeFields_fallen fallen
  · refine ite_write_fallen ?_ ?_
    · exact writeFields_fallen fallen
    · cases within a 0x3018 8 with
      | some _ =>
        exact writeFields_fallen fallen
      | none =>
        cases within a 0x3080 64 with
        | some _ =>
          exact actBase_fallen fallen
        | none =>
          exact writeFields_fallen fallen

theorem writeRailCmd_fallen {n : ℕ} (fallen : Fallen old s.nv) : Fallen old (writeRailCmd src r n s).2.nv :=
  ite_write_fallen (actArm_fallen fallen) (ite_write_fallen (actDisarm_fallen fallen) (ite_write_fallen
      (actStart_fallen fallen) (ite_write_fallen (actStop_fallen fallen) (ite_write_fallen (actSoftstop_fallen fallen)
      (ite_write_fallen (actClear_fallen fallen) (ite_write_fallen (actRetire_fallen fallen) (ite_write_fallen
      (actRestore_fallen fallen) (actRailBad_fallen fallen))))))))

theorem writeRail_fallen {off : ℕ} (fallen : Fallen old s.nv) : Fallen old (writeRail src r off w s).2.nv := by
  unfold writeRail
  refine ite_write_fallen ?_ ?_
  · exact writeRailCmd_fallen fallen
  · refine ite_write_fallen ?_ ?_
    · exact actVset_fallen fallen
    · refine ite_write_fallen ?_ ?_
      · exact actVnext_fallen fallen
      · refine ite_write_fallen ?_ ?_
        · exact actWindow_fallen fallen
        · refine ite_write_fallen ?_ ?_
          · exact actWindow_fallen fallen
          · refine ite_write_fallen ?_ ?_
            · exact writeFields_fallen fallen
            · refine ite_write_fallen ?_ ?_
              · exact writeFields_fallen fallen
              · refine ite_write_fallen ?_ ?_
                · exact writeFields_fallen fallen
                · refine ite_write_fallen ?_ ?_
                  · exact writeFields_fallen fallen
                  · refine ite_write_fallen ?_ ?_
                    · exact writeFields_fallen fallen
                    · refine ite_write_fallen ?_ ?_
                      · exact writeFields_fallen fallen
                      · refine ite_write_fallen ?_ ?_
                        · exact writeFields_fallen fallen
                        · cases within off 25 4 with
                          | some _ =>
                            exact actTripped_fallen fallen
                          | none =>
                            exact writeFields_fallen fallen

theorem writeLoop_fallen {off : ℕ} {low : Option Word} (fallen : Fallen old s.nv) :
    Fallen old (writeLoop src r off low w s).2.nv :=
  ite_write_fallen (writeBoth_fallen fallen (fun _ fallen => writeFields_fallen fallen) (fun _ fallen => writeIf_fallen fallen
      (fun _ fallen => actLoopClear_fallen fallen))) (ite_write_fallen (writeFields_fallen fallen) (ite_write_fallen
      (writeFields_fallen fallen) (ite_write_fallen (ite_write_fallen (writeFields_fallen fallen) (writeFields_fallen fallen))
      (writeFields_fallen fallen))))

theorem writeEngine_fallen {a : ℕ} (fallen : Fallen old s.nv) : Fallen old (writeEngine src a w s).2.nv := by
  unfold writeEngine
  refine ite_write_fallen ?_ ?_
  · exact ite_write_fallen (actLeClear_fallen fallen) (writeFields_fallen fallen)
  · refine ite_write_fallen ?_ ?_
    · exact writeFields_fallen fallen
    · refine ite_write_fallen ?_ ?_
      · exact writeFields_fallen fallen
      · cases within a 0x6100 256 with
        | some _ =>
          exact ite_write_fallen (writeFields_fallen fallen) (ite_write_fallen (writeFields_fallen fallen) (ite_write_fallen
              (writeFields_fallen fallen) (writeFields_fallen fallen)))
        | none =>
          exact writeFields_fallen fallen

theorem writeTune_fallen {a : ℕ} (fallen : Fallen old s.nv) : Fallen old (writeTune src a w s).2.nv :=
  ite_write_fallen (ite_write_fallen (actAtStart_fallen fallen) (ite_write_fallen (actAtStop_fallen fallen)
      (writeFields_fallen fallen))) (ite_write_fallen (writeFields_fallen fallen) (ite_write_fallen
      (writeFields_fallen fallen) (ite_write_fallen (writeFields_fallen fallen) (writeFields_fallen fallen))))

theorem writeHearth_fallen {a : ℕ} (fallen : Fallen old s.nv) : Fallen old (writeHearth src a w s).2.nv := by
  unfold writeHearth
  extract_lets _ _ _
  exact ite_write_fallen (writeFields_fallen fallen) (ite_write_fallen (writeFields_fallen fallen) (ite_write_fallen
      (writeFields_fallen fallen) (ite_write_fallen (writeFields_fallen fallen) (ite_write_fallen (writeFields_fallen fallen)
      (ite_write_fallen (writeFields_fallen fallen) (ite_write_fallen (ite_write_fallen fallen (ite_write_fallen
      (writeFields_fallen fallen) (ite_write_fallen (ite_write_fallen (actPlan_fallen fallen) (ite_write_fallen
      (actInvalidate_fallen fallen) (ite_write_fallen (actSquash_fallen fallen) (writeNothing_fallen fallen))))
      (ite_write_fallen (actHeartbeat_fallen fallen) (writeNothing_fallen fallen))))) (ite_write_fallen
      (writeFields_fallen fallen) (writeFields_fallen fallen))))))))

theorem writePartner_fallen {off : ℕ} (fallen : Fallen old s.nv) : Fallen old (writePartner src h off w s).2.nv :=
  ite_write_fallen (actEvict_fallen fallen) (writeFields_fallen fallen)

theorem writePorts_fallen {a : ℕ} (fallen : Fallen old s.nv) : Fallen old (writePorts src a w s).2.nv := by
  unfold writePorts
  refine ite_write_fallen ?_ ?_
  · exact writeFields_fallen fallen
  · refine ite_write_fallen ?_ ?_
    · exact writeFields_fallen fallen
    · refine ite_write_fallen ?_ ?_
      · exact writeFields_fallen fallen
      · refine ite_write_fallen ?_ ?_
        · exact writeFields_fallen fallen
        · cases within a 0x8010 32 with
          | some _ =>
            exact ite_write_fallen (writeFields_fallen fallen) (ite_write_fallen (actBitTiming_fallen fallen)
                (ite_write_fallen (actBitTiming_fallen fallen) (ite_write_fallen (actBitTiming_fallen fallen)
                (writeFields_fallen fallen))))
          | none =>
            exact writeFields_fallen fallen

theorem writeProtect_fallen {a : ℕ} (fallen : Fallen old s.nv) : Fallen old (writeProtect src a w s).2.nv := by
  unfold writeProtect
  refine ite_write_fallen ?_ ?_
  · exact writeFields_fallen fallen
  · refine ite_write_fallen ?_ ?_
    · exact writeFields_fallen fallen
    · refine ite_write_fallen ?_ ?_
      · exact writeFields_fallen fallen
      · refine ite_write_fallen ?_ ?_
        · exact writeFields_fallen fallen
        · refine ite_write_fallen ?_ ?_
          · exact ite_write_fallen (actFirst_fallen fallen) (writeFields_fallen fallen)
          · cases within a 0x8418 8 with
            | some _ =>
              exact actLatch_fallen fallen
            | none =>
              exact writeFields_fallen fallen

theorem writeHousekeeping_fallen {a : ℕ} (fallen : Fallen old s.nv) : Fallen old (writeHousekeeping src a w s).2.nv := by
  unfold writeHousekeeping
  refine ite_write_fallen ?_ ?_
  · exact writeFields_fallen fallen
  · refine ite_write_fallen ?_ ?_
    · exact writeFields_fallen fallen
    · refine ite_write_fallen ?_ ?_
      · exact writeFields_fallen fallen
      · refine ite_write_fallen ?_ ?_
        · exact writeFields_fallen fallen
        · cases within a 0x8810 12 with
          | some _ =>
            exact ite_write_fallen (writeFields_fallen fallen) (ite_write_fallen (writeFields_fallen fallen)
                (writeFields_fallen fallen))
          | none =>
            exact writeFields_fallen fallen

theorem writeStore_fallen {a : ℕ} (fallen : Fallen old s.nv) : Fallen old (writeStore src a w s).2.nv := by
  unfold writeStore
  refine ite_write_fallen ?_ ?_
  · exact ite_write_fallen (actUserRead_fallen fallen) (ite_write_fallen (actUserWrite_fallen fallen) (ite_write_fallen
      (actProtect_fallen fallen) (actOcsBad_fallen fallen)))
  · refine ite_write_fallen ?_ ?_
    · exact writeFields_fallen fallen
    · refine ite_write_fallen ?_ ?_
      · exact writeFields_fallen fallen
      · cases within a 0x9040 56 with
        | some _ =>
          exact writeFields_fallen fallen
        | none =>
          exact writeFields_fallen fallen

theorem writeRecorder_fallen {a : ℕ} {low : Option Word} (fallen : Fallen old s.nv) :
    Fallen old (writeRecorder src a low w s).2.nv :=
  ite_write_fallen (writeFields_fallen fallen) (ite_write_fallen (writeFields_fallen fallen) (ite_write_fallen
      (ite_write_fallen (actTimeSet_fallen fallen) (ite_write_fallen (actErClear_fallen fallen) (ite_write_fallen
      (actSelect_fallen fallen) (writeFields_fallen fallen)))) (ite_write_fallen (writeFields_fallen fallen) (ite_write_fallen
      (writeFields_fallen fallen) (ite_write_fallen (writeFields_fallen fallen) (writeFields_fallen fallen))))))

theorem writeBog_fallen {a : ℕ} (fallen : Fallen old s.nv) : Fallen old (writeBog src a w s).2.nv := by
  unfold writeBog
  refine ite_write_fallen ?_ ?_
  · exact ite_write_fallen (actDiscover_fallen fallen) (ite_write_fallen (actDetach_fallen fallen) (ite_write_fallen
      (actFormat_fallen fallen) (ite_write_fallen (actReadBlock_fallen fallen) (ite_write_fallen (actReadCapbuf_fallen fallen)
      (actBogBad_fallen fallen)))))
  · refine ite_write_fallen ?_ ?_
    · exact writeFields_fallen fallen
    · refine ite_write_fallen ?_ ?_
      · exact writeFields_fallen fallen
      · refine ite_write_fallen ?_ ?_
        · exact writeFields_fallen fallen
        · refine ite_write_fallen ?_ ?_
          · exact writeBoth_fallen fallen (fun _ fallen => writeFields_fallen fallen) (fun _ fallen => ite_write_fallen
              (actCapArm_fallen fallen) (ite_write_fallen (actCapStop_fallen fallen) (ite_write_fallen
              (actTrigger_fallen fallen) (writeNothing_fallen fallen))))
          · refine ite_write_fallen ?_ ?_
            · exact writeFields_fallen fallen
            · refine ite_write_fallen ?_ ?_
              · exact writeFields_fallen fallen
              · cases within a 0x9820 16 with
                | some _ =>
                  exact writeFields_fallen fallen
                | none =>
                  exact writeFields_fallen fallen

theorem writeRecover_fallen (fallen : Fallen old s.nv) : Fallen old (writeRecover src s).2.nv := actRecover_fallen fallen

theorem writeTwp_fallen {a : ℕ} (fallen : Fallen old s.nv) : Fallen old (writeTwp src a w s).2.nv :=
  ite_write_fallen (writeFields_fallen fallen) (ite_write_fallen (actTwpTiming_fallen fallen) (ite_write_fallen
      (actTwpTiming_fallen fallen) (ite_write_fallen (writeFields_fallen fallen) (ite_write_fallen (ite_write_fallen
      (writeRecover_fallen fallen) (ite_write_fallen (actPollNow_fallen fallen) (writeFields_fallen fallen)))
      (ite_write_fallen (writeFields_fallen fallen) (ite_write_fallen (writeFields_fallen fallen) (ite_write_fallen
      (writeFields_fallen fallen) (ite_write_fallen (writeFields_fallen fallen) (writeFields_fallen fallen)))))))))

theorem writeWord_fallen {a : ℕ} {low : Option Word} (fallen : Fallen old s.nv) : Fallen old (writeWord src a low w s).2.nv :=
  ite_write_fallen (writeSys_fallen fallen) (ite_write_fallen (writeClk_fallen fallen) (ite_write_fallen
      (writeGuard_fallen fallen) (ite_write_fallen (writeFw_fallen fallen) (ite_write_fallen (writeHsp_fallen fallen)
      (ite_write_fallen (writeImg_fallen fallen) (ite_write_fallen (writeLane_fallen fallen) (ite_write_fallen
      (writeFields_fallen fallen) (ite_write_fallen (writeSlot_fallen fallen) (ite_write_fallen (writeTbi_fallen fallen)
      (ite_write_fallen (writeRail_fallen fallen) (ite_write_fallen (writeFields_fallen fallen) (ite_write_fallen
      (writeLoop_fallen fallen) (ite_write_fallen (writeEngine_fallen fallen) (ite_write_fallen (writeTune_fallen fallen)
      (ite_write_fallen (writeHearth_fallen fallen) (ite_write_fallen (writePartner_fallen fallen) (ite_write_fallen
      (writePorts_fallen fallen) (ite_write_fallen (writeProtect_fallen fallen) (ite_write_fallen
      (writeHousekeeping_fallen fallen) (ite_write_fallen (writeStore_fallen fallen) (ite_write_fallen
      (writeRecorder_fallen fallen) (ite_write_fallen (writeBog_fallen fallen) (writeTwp_fallen fallen)))))))))))))))))))))))

/-! ### HostPort -/

theorem writePaired_fallen {hold : Hold} (fallen : Fallen old s.nv) : Fallen old (writePaired p a w hold s).2.nv :=
  ite_answer_fallen (writeWord_fallen fallen) (writeWord_fallen fallen)

theorem debugWindow_fallen {a : Nat} {w : Option Word} (fallen : Fallen old s.nv) : Fallen old (debugWindow a w s).2.2.nv := by
  cases w <;> exact fallen

theorem definedWord_fallen {w : Option Word} {holds : PortState} (fallen : Fallen old s.nv) :
    Fallen old (definedWord p a w holds s).2.2.nv := by
  cases w with
  | none =>
    unfold definedWord
    dsimp only
    split <;> exact fallen
  | some w => exact writePaired_fallen fallen

theorem throughWindow_fallen {win : Window} {f : State → Word × Byte × State} {y : Word × Byte × State}
    (fallen : Fallen old s.nv)
    (hf : ∀ s : State, Fallen old s.nv → Fallen old (f s).2.2.nv)
        (h : throughWindow win f s = some y) : Fallen old y.2.2.nv := by
  unfold throughWindow at h
  split_ifs at h <;> obtain rfl := Option.some.inj h
  · exact fallen
  · exact hf s fallen

theorem accessWord_fallen {w : Option Word} {y : Word × Byte × State} (fallen : Fallen old s.nv)
    (h : accessWord p a w s = some y) : Fallen old y.2.2.nv := by
  unfold accessWord at h
  extract_lets n t at h
  have touched : Fallen old t.nv := fallen
  clear_value t
  split_ifs at h
  · exact throughWindow_fallen touched (fun _ fallen => debugWindow_fallen fallen) h
  · exact throughWindow_fallen touched (fun _ fallen => fallen) h
  · obtain rfl := Option.some.inj h
    exact touched
  · exact throughWindow_fallen touched (fun _ fallen => definedWord_fallen fallen) h

theorem runWords_fallen {todo : List (Addr × Option Word)} {acc : PendingAccess} (fallen : Fallen old s.nv) :
    Fallen old (runWords p todo acc s).2.nv := by
  induction todo generalizing acc s with
  | nil => exact fallen
  | cons x rest ih =>
    obtain ⟨a, w⟩ := x
    unfold runWords
    refine ite_answer_fallen fallen ?_
    split
    · exact fallen
    · next made => exact ih (accessWord_fallen fallen made)

theorem runAccess_fallen {acc : PendingAccess} (fallen : Fallen old s.nv) : Fallen old (runAccess p acc s).nv := by
  unfold runAccess
  extract_lets acc0 x
  have ran : Fallen old x.2.nv := runWords_fallen fallen
  clear_value x
  exact ite_state_fallen ran (ite_state_fallen ran ran)

theorem startAccess_fallen {write : Bool} {todo : List (Addr × Option Word)} {header : List Byte} (fallen : Fallen old s.nv) :
    Fallen old (startAccess p write todo header s).nv :=
  runAccess_fallen fallen

theorem singleAccess_fallen {w : Option Word} (fallen : Fallen old s.nv) : Fallen old (singleAccess p a w s).nv :=
  ite_state_fallen fallen (startAccess_fallen fallen)

theorem supWrite_fallen (fallen : Fallen old s.nv) : Fallen old (supWrite a w s).nv :=
  ite_state_fallen fallen (ite_state_fallen (rowHangs_fallen fallen) (writeWord_fallen (rowStarts_fallen fallen)))

theorem resumeAccess_fallen (fallen : Fallen old s.nv) : Fallen old (resumeAccess p s).nv := by
  unfold resumeAccess
  split
  · exact fallen
  · exact withLevel_fallen fallen (fun _ fallen => runAccess_fallen fallen)

theorem portTimesOut_fallen (fallen : Fallen old s.nv) : Fallen old (portTimesOut p s).nv := by
  unfold portTimesOut
  split
  · exact fallen
  · split
    · exact fallen
    · exact ite_state_fallen fallen (withLevel_fallen fallen (fun _ fallen => runAccess_fallen fallen))

theorem supTimesOut_fallen (fallen : Fallen old s.nv) : Fallen old (supTimesOut s).nv := by
  unfold supTimesOut
  split
  · exact fallen
  · exact ite_state_fallen fallen fallen

theorem makeAccess_fallen {acc : HostAccess} (fallen : Fallen old s.nv) : Fallen old (makeAccess acc s).nv :=
  startAccess_fallen fallen

theorem accessFrame_fallen {acc : HostAccess} {hcrc : Byte} (fallen : Fallen old s.nv) :
    Fallen old (accessFrame acc hcrc s).nv :=
  ite_state_fallen fallen (ite_state_fallen fallen (ite_state_fallen fallen (ite_state_fallen fallen
      (makeAccess_fallen fallen))))

theorem cutFrame_fallen {stage : CutStage} (fallen : Fallen old s.nv) : Fallen old (cutFrame stage s).nv := by
  unfold cutFrame
  refine ite_state_fallen ?_ ?_
  · exact fallen
  · split
    · exact fallen
    · exact fallen
    · exact ite_state_fallen fallen (ite_state_fallen fallen (ite_state_fallen fallen (ite_state_fallen
        (makeAccess_fallen fallen) (makeAccess_fallen fallen))))

theorem abortFrame_fallen {func : Byte} {index : Byte} {sda : Option (Bool × Option (Fin 9))} {hcrc : Byte}
    (fallen : Fallen old s.nv) :
    Fallen old (abortFrame func index sda hcrc s).nv :=
  ite_state_fallen fallen (ite_state_fallen fallen (abortWrite_fallen fallen))

theorem debugAborts_fallen {func : Byte} {index : Byte} {sda : Option (Bool × Option (Fin 9))} (fallen : Fallen old s.nv) :
    Fallen old (debugAborts func index sda s).nv :=
  abortWrite_fallen fallen

theorem abortFrom_fallen {way : AbortWay} {func : Byte} {index : Byte} {sda : Option (Bool × Option (Fin 9))}
    (fallen : Fallen old s.nv) :
    Fallen old (abortFrom way func index sda s).nv := by
  unfold abortFrom
  split
  · exact abortFrame_fallen fallen
  · exact ite_state_fallen (debugAborts_fallen fallen) (rowWrite_fallen fallen (fun _ fallen => abortWrite_fallen fallen))

theorem commitPage_fallen {pointer : Addr} {data : List Byte} (fallen : Fallen old s.nv) :
    Fallen old (commitPage pointer data s).nv :=
  ite_state_fallen fallen (startAccess_fallen fallen)

theorem targetWrite_fallen {bytes : List Byte} {stop : Bool} (fallen : Fallen old s.nv) :
    Fallen old (targetWrite bytes stop s).nv := by
  unfold targetWrite
  dsimp only [State.onDev]
  with_reducible refine ite_state_fallen ?_ ?_
  · with_reducible exact fallen
  · with_reducible refine ite_state_fallen ?_ ?_
    · with_reducible exact fallen
    · with_reducible refine ite_state_fallen ?_ ?_
      · with_reducible exact fallen
      · split
        · with_reducible exact commitPage_fallen fallen
        · with_reducible exact fallen

theorem targetRead_fallen {pointer : Option Addr} {data : List Byte} {words : ℕ} (fallen : Fallen old s.nv) :
    Fallen old (targetRead pointer data words s).nv := by
  unfold targetRead
  dsimp only [State.onDev]
  with_reducible refine ite_state_fallen ?_ ?_
  · with_reducible exact fallen
  · with_reducible refine ite_state_fallen ?_ ?_
    · with_reducible exact fallen
    · split
      · with_reducible exact startAccess_fallen fallen
      · with_reducible exact startAccess_fallen fallen

theorem dbgAccess_fallen {op : DbgOp} (fallen : Fallen old s.nv) : Fallen old (dbgAccess op s).nv := by
  unfold dbgAccess
  refine ite_state_fallen fallen ?_
  cases op with
  | regRead a => exact singleAccess_fallen fallen
  | regWrite a w => exact ite_state_fallen (debugAborts_fallen fallen) (singleAccess_fallen fallen)
  | windowRead a => exact dbgWindow_fallen fallen fun _ fallen => debugWindow_fallen (a := a.toNat) (w := none) fallen
  | halt | step | resume | memWrite | memRead => exact dbgWindow_fallen fallen fun _ fallen => fallen

/-! ### Every command -/

theorem next_fallen {t u : State} (h : Host.Outcome.next u = (.next t : Answer)) (fallen : Fallen old u.nv) : Fallen old t.nv :=
  Host.Outcome.next.inj h ▸ fallen

theorem onDev_fallen {f : Device → Device} {t : State} (h : Host.Outcome.next (s.onDev f) = (.next t : Answer))
    (fallen : Fallen old s.nv) : Fallen old t.nv := Host.Outcome.next.inj h ▸ fallen

/-- Every command but the two that erase; the last arm is that of the commands that change the device alone. -/
theorem exec_fallen (c : Instr) {t : State} (fallen : Fallen old s.nv) (recovers : c ≠ .storeRecoveryEnd)
    (erases : ∀ v, c ≠ .sectorEraseComplete v) (h : exec c s = .next t) : Fallen old t.nv := by
  cases c with
  | storeRecoveryEnd => exact absurd rfl recovers
  | sectorEraseComplete v => exact absurd rfl (erases v)
  | registerWrite src _ _ =>
    cases src with
    | port p => exact next_fallen h (singleAccess_fallen fallen)
    | sup => exact next_fallen h (supWrite_fallen fallen)
  | pairLowRead | pairHighRead | pairLowWrite | pairHighWrite => exact next_fallen h (ite_state_fallen (singleAccess_fallen fallen) fallen)
  | supplyTrip => exact next_fallen h (supplyTrip_fallen fallen)
  | rstNLow => exact next_fallen h (rstLow_fallen fallen)
  | resetCtrlWarm => exact next_fallen h (rowResets_fallen fallen (fun _ fallen => actResetWarm_fallen fallen))
  | resetCtrlSupervisor => exact next_fallen h (rowWrite_fallen fallen (fun _ fallen => actResetSupervisor_fallen fallen))
  | resetCtrlQuadrant => exact next_fallen h (rowWrite_fallen fallen (fun _ fallen => actResetQuadrant_fallen fallen))
  | watchdogExpiry => exact next_fallen h (watchdog_fallen fallen)
  | ramError => exact next_fallen h (ramFails_fallen fallen)
  | busTimeout src =>
    cases src with
    | port p => exact next_fallen h (ite_state_fallen (portTimesOut_fallen fallen) fallen)
    | sup => exact next_fallen h (supTimesOut_fallen fallen)
  | stalledAccessComplete => exact next_fallen h (resumeAccess_fallen fallen)
  | clockLoss => exact next_fallen h (clockLost_fallen fallen)
  | pll0Lock => exact next_fallen h (portsStart_fallen (pllLocks_fallen fallen))
  | pfailFall => exact next_fallen h (pfailFalls_fallen fallen)
  | pfailRecovered => exact next_fallen h (pfailOver_fallen fallen)
  | wipeEnd => exact next_fallen h (portsStart_fallen (wipeEnds_fallen fallen))
  | imgDataWrite => exact next_fallen h (rowWrite_fallen fallen (fun _ fallen => actImgData_fallen fallen))
  | imgErase | imgSeal | liveOpen | apply | imgConfirm | imgRollback => exact next_fallen h (rowWrite_fallen fallen (fun _ fallen => actImg_fallen fallen))
  | imgBadOp => exact next_fallen h (ite_state_fallen fallen (rowWrite_fallen fallen (fun _ fallen => actImgBad_fallen fallen)))
  | laneRetrain => exact next_fallen h (rowWrite_fallen fallen (fun _ fallen => actRetrain_fallen fallen))
  | laneDisable => exact next_fallen h (rowWrite_fallen fallen (fun _ fallen => actDisable_fallen fallen))
  | slotAdmit => exact next_fallen h (rowWrite_fallen fallen (fun _ fallen => actAdmit_fallen fallen))
  | refuse => exact next_fallen h (rowWrite_fallen fallen (fun _ fallen => actRefuse_fallen fallen))
  | recal => exact next_fallen h (rowWrite_fallen fallen (fun _ fallen => actRecal_fallen fallen))
  | calSave => exact next_fallen h (rowWrite_fallen fallen (fun _ fallen => actCalSave_fallen fallen))
  | identifyOn | identifyOff => exact next_fallen h (rowWrite_fallen fallen (fun _ fallen => actIdentify_fallen fallen))
  | slotCalWrite => exact next_fallen h (rowWrite_fallen fallen (fun _ fallen => actSlotCal_fallen fallen))
  | baseSet => exact next_fallen h (rowWrite_fallen fallen (fun _ fallen => actBase_fallen fallen))
  | loopClear => exact next_fallen h (rowWrite_fallen fallen (fun _ fallen => actLoopClear_fallen fallen))
  | leClear => exact next_fallen h (rowWrite_fallen fallen (fun _ fallen => actLeClear_fallen fallen))
  | atStart => exact next_fallen h (rowWrite_fallen fallen (fun _ fallen => actAtStart_fallen fallen))
  | atStop => exact next_fallen h (rowWrite_fallen fallen (fun _ fallen => actAtStop_fallen fallen))
  | arm => exact next_fallen h (rowWrite_fallen fallen (fun _ fallen => actArm_fallen fallen))
  | disarm => exact next_fallen h (rowWrite_fallen fallen (fun _ fallen => actDisarm_fallen fallen))
  | start => exact next_fallen h (rowWrite_fallen fallen (fun _ fallen => actStart_fallen fallen))
  | stop => exact next_fallen h (rowWrite_fallen fallen (fun _ fallen => actStop_fallen fallen))
  | softstop => exact next_fallen h (rowWrite_fallen fallen (fun _ fallen => actSoftstop_fallen fallen))
  | clear => exact next_fallen h (rowWrite_fallen fallen (fun _ fallen => actClear_fallen fallen))
  | retire => exact next_fallen h (rowWrite_fallen fallen (fun _ fallen => actRetire_fallen fallen))
  | restore => exact next_fallen h (rowWrite_fallen fallen (fun _ fallen => actRestore_fallen fallen))
  | railBadOp => exact next_fallen h (ite_state_fallen fallen (rowWrite_fallen fallen (fun _ fallen => actRailBad_fallen fallen)))
  | vsetWrite => exact next_fallen h (rowWrite_fallen fallen (fun _ fallen => actVset_fallen fallen))
  | vnextWrite => exact next_fallen h (rowWrite_fallen fallen (fun _ fallen => actVnext_fallen fallen))
  | windowWrite => exact next_fallen h (rowWrite_fallen fallen (fun _ fallen => actWindow_fallen fallen))
  | trippedClear => exact next_fallen h (rowWrite_fallen fallen (fun _ fallen => actTripped_fallen fallen))
  | heartbeat => exact next_fallen h (rowWrite_fallen fallen (fun _ fallen => actHeartbeat_fallen fallen))
  | plan => exact next_fallen h (rowWrite_fallen fallen (fun _ fallen => actPlan_fallen fallen))
  | invalidate => exact next_fallen h (rowWrite_fallen fallen (fun _ fallen => actInvalidate_fallen fallen))
  | squash => exact next_fallen h (rowWrite_fallen fallen (fun _ fallen => actSquash_fallen fallen))
  | evict => exact next_fallen h (rowWrite_fallen fallen (fun _ fallen => actEvict_fallen fallen))
  | restart => exact next_fallen h (rowWrite_fallen fallen (fun _ fallen => actRestart_fallen fallen))
  | bitTimingWrite => exact next_fallen h (rowWrite_fallen fallen (fun _ fallen => actBitTiming_fallen fallen))
  | latchClear => exact next_fallen h (rowWrite_fallen fallen (fun _ fallen => actLatch_fallen fallen))
  | firstClr => exact next_fallen h (rowWrite_fallen fallen (fun _ fallen => actFirst_fallen fallen))
  | housekeepingRoundEnd => exact next_fallen h (wakeHot_fallen (roundEnd_fallen fallen))
  | dieSample => exact next_fallen h (wakeHot_fallen (dieSample_fallen fallen))
  | hostRead | hostWrite => exact next_fallen h (accessFrame_fallen fallen)
  | frameCutOff => exact next_fallen h (cutFrame_fallen fallen)
  | abortAutotune | abortRailApply | abortStoreOperation | abortBogTransfer | abortTwoWire | abortLaneTraining | abortSession | abortPendingAccess | abortGlobal => exact next_fallen h (abortFrom_fallen fallen)
  | badFunc => exact next_fallen h (ite_state_fallen fallen (abortFrom_fallen fallen))
  | twpTargetWrite => exact next_fallen h (targetWrite_fallen fallen)
  | twpTargetRead pointer _ =>
    cases pointer with
    | none => exact next_fallen h (targetRead_fallen fallen)
    | some x => exact next_fallen h (targetRead_fallen fallen)
  | recover => exact next_fallen h (rowWrite_fallen fallen (fun _ fallen => actRecover_fallen fallen))
  | pollNow => exact next_fallen h (rowWrite_fallen fallen (fun _ fallen => actPollNow_fallen fallen))
  | twpTimingWrite => exact next_fallen h (rowWrite_fallen fallen (fun _ fallen => actTwpTiming_fallen fallen))
  | openSession => exact next_fallen h (rowWrite_fallen fallen (fun _ fallen => actOpen_fallen fallen))
  | prove => exact next_fallen h (rowWrite_fallen fallen (fun _ fallen => actProve_fallen fallen))
  | close => exact next_fallen h (rowWrite_fallen fallen (fun _ fallen => actClose_fallen fallen))
  | keyCmd => exact next_fallen h (rowWrite_fallen fallen (fun _ fallen => actKey_fallen fallen))
  | lcCommission | lcService | lcMaintain | lcRetired | lcReturn => exact next_fallen h (rowWrite_fallen fallen (fun _ fallen => actLife_fallen fallen))
  | debugReset => exact next_fallen h (debugReset_fallen fallen)
  | dbgAccess => exact next_fallen h (dbgAccess_fallen fallen)
  | pwrRun => exact next_fallen h (rowWrite_fallen fallen (fun _ fallen => actPwrRun_fallen fallen))
  | pwrTrim => exact next_fallen h (rowWrite_fallen fallen (fun _ fallen => actPwrTrim_fallen fallen))
  | pwrStandby => exact next_fallen h (rowWrite_fallen fallen (fun _ fallen => actPwrStandby_fallen fallen))
  | qopSmoulder => exact next_fallen h (rowWrite_fallen fallen (fun _ fallen => actQopSmoulder_fallen fallen))
  | qopQrun => exact next_fallen h (rowWrite_fallen fallen (fun _ fallen => actQopQrun_fallen fallen))
  | wake => exact next_fallen h (wake_fallen fallen)
  | fwDataWrite => exact next_fallen h (rowWrite_fallen fallen (fun _ fallen => actFwData_fallen fallen))
  | fwErase => exact next_fallen h (rowWrite_fallen fallen (fun _ fallen => actFw_fallen fallen (fun _ _ fallen => fwEraseStart_fallen fallen)))
  | fwSeal => exact next_fallen h (rowWrite_fallen fallen (fun _ fallen => actFw_fallen fallen (fun _ _ fallen => fwSealStart_fallen fallen)))
  | switch => exact next_fallen h (rowWrite_fallen fallen (fun _ fallen => actFw_fallen fallen (fun _ _ fallen => fwSwitch_fallen fallen)))
  | fwConfirm => exact next_fallen h (rowWrite_fallen fallen (fun _ fallen => actFw_fallen fallen (fun _ _ fallen => fwConfirm_fallen fallen)))
  | fwRollback => exact next_fallen h (rowWrite_fallen fallen (fun _ fallen => actFw_fallen fallen (fun _ _ fallen => fwRollback_fallen fallen)))
  | fwBadOp => exact next_fallen h (ite_state_fallen fallen (rowWrite_fallen fallen (fun _ fallen => actFwBad_fallen fallen)))
  | fwTrialTimeout => exact next_fallen h (fwTrialTimeout_fallen fallen)
  | chunkProgramComplete => exact next_fallen h (programEnds_fallen fallen)
  | userRead => exact next_fallen h (rowWrite_fallen fallen (fun _ fallen => actUserRead_fallen fallen))
  | userWrite => exact next_fallen h (rowWrite_fallen fallen (fun _ fallen => actUserWrite_fallen fallen))
  | protect => exact next_fallen h (rowWrite_fallen fallen (fun _ fallen => actProtect_fallen fallen))
  | ocsBadOp => exact next_fallen h (ite_state_fallen fallen (rowWrite_fallen fallen (fun _ fallen => actOcsBad_fallen fallen)))
  | timeSet => exact next_fallen h (rowWrite_fallen fallen (fun _ fallen => actTimeSet_fallen fallen))
  | erClear => exact next_fallen h (rowWrite_fallen fallen (fun _ fallen => actErClear_fallen fallen))
  | select => exact next_fallen h (rowWrite_fallen fallen (fun _ fallen => actSelect_fallen fallen))
  | discover => exact next_fallen h (rowWrite_fallen fallen (fun _ fallen => actDiscover_fallen fallen))
  | detach => exact next_fallen h (rowWrite_fallen fallen (fun _ fallen => actDetach_fallen fallen))
  | format => exact next_fallen h (rowWrite_fallen fallen (fun _ fallen => actFormat_fallen fallen))
  | readBlock => exact next_fallen h (rowWrite_fallen fallen (fun _ fallen => actReadBlock_fallen fallen))
  | readCapbuf => exact next_fallen h (rowWrite_fallen fallen (fun _ fallen => actReadCapbuf_fallen fallen))
  | bogBadOp => exact next_fallen h (ite_state_fallen fallen (rowWrite_fallen fallen (fun _ fallen => actBogBad_fallen fallen)))
  | captureArm => exact next_fallen h (rowWrite_fallen fallen (fun _ fallen => actCapArm_fallen fallen))
  | captureStop => exact next_fallen h (rowWrite_fallen fallen (fun _ fallen => actCapStop_fallen fallen))
  | trigger => exact next_fallen h (rowWrite_fallen fallen (fun _ fallen => actTrigger_fallen fallen))
  | pfailNRise => exact next_fallen h (pfailRises_fallen fallen)
  | codeFlashOperationEnd => exact next_fallen h (codeFlashEnd_fallen fallen)
  | _ => exact onDev_fallen h fallen

/-- Settles O58: no command but the two that erase writes a byte of the flash otherwise than by programming. -/
theorem flashBitsFall : Obligations.FlashBitsFall := by
  intro c s wf recovers erases
  obtain ⟨t, ht, -⟩ := commandsComplete c s
  exact ⟨t, ht, (exec_fallen c (Fallen.refl wf) recovers erases ht).bits⟩

end Sys2Proof.Machine
end

section
/-! SUPPORT. What the end of a program and the end of an erase leave in the store's flash (R372, R373). -/

namespace Sys2Proof.Machine

section
variable {tm : TimeBase} {nv : NonVol} {d : Device} {s : State} {m : List Host.Cell} {a x : Nat} {bs : List Byte} {p : Fin 128}

/-! ### What a read of the flash returns -/

theorem programBytes_get_outside (wf : cellsWf nv.flash = true) (out : x < a ∨ a + bs.length ≤ x) :
    cellsGet (programBytes nv a bs).flash x = cellsGet nv.flash x := by
  induction bs generalizing nv a with
  | nil => rfl
  | cons b bs ih =>
    rw [List.length_cons] at out
    have other : x ≠ a := by omega
    rw [programBytes, ih (programByte_wf a b wf) (by omega), programByte_get a b x wf, if_neg other]

theorem programBytes_get_inside {i : Nat} {b : Byte} (wf : cellsWf nv.flash = true) (at_ : bs[i]? = some b) :
    cellsGet (programBytes nv a bs).flash (a + i) = cellsGet nv.flash (a + i) &&& b := by
  induction bs generalizing nv a i with
  | nil => exact absurd at_ (by simp)
  | cons c bs ih =>
    rw [programBytes]
    have wf' := programByte_wf a c wf
    cases i with
    | zero =>
      obtain rfl : c = b := by simpa using at_
      rw [Nat.add_zero a, programBytes_get_outside (a := a + 1) wf' (.inl (Nat.lt_add_one a)), programByte_get a c a wf, if_pos rfl]
    | succ i =>
      have other : a + 1 + i ≠ a := by omega
      rw [show a + (i + 1) = a + 1 + i by omega, ih wf' (by simpa using at_), programByte_get a c _ wf, if_neg other]

theorem interruptBytes_get_outside (k : Nat) (wf : cellsWf nv.flash = true) (out : x < a ∨ a + bs.length ≤ x) :
    cellsGet (interruptBytes k nv a bs).flash x = cellsGet nv.flash x := by
  induction bs generalizing nv a with
  | nil => rfl
  | cons b bs ih =>
    rw [List.length_cons] at out
    have other : x ≠ a := by omega
    rw [interruptBytes, ih (interruptByte_wf k a b wf) (by omega)]
    obtain h | h := interruptByte_flash k nv a b
    · rw [h]
    · rw [h, programByte_get a b x wf, if_neg other]

/-- Cells taken out by their address read 0xFF; the others read as before. -/
theorem cellsGet_filter (keep : Nat → Bool) (m : List Host.Cell) :
    cellsGet (m.filter fun c => keep c.1) x = if keep x then cellsGet m x else 0xFF := by
  induction m with
  | nil => simp [cellsGet]
  | cons c m ih =>
    obtain ⟨k, v⟩ := c
    cases hk : keep k with
    | true =>
      rw [List.filter_cons_of_pos (p := fun c : Host.Cell => keep c.1) hk, cellsGet, cellsGet]
      by_cases at_ : k = x
      · rw [if_pos at_, if_pos at_, if_pos (at_ ▸ hk)]
      · rw [if_neg at_, if_neg at_, ih]
    | false =>
      rw [List.filter_cons_of_neg (p := fun c : Host.Cell => keep c.1) (by simp [hk]), ih, cellsGet]
      by_cases at_ : k = x
      · rw [if_neg (by simp [← at_, hk]), if_neg (by simp [← at_, hk])]
      · rw [if_neg at_]

theorem eraseSector_get : cellsGet (eraseSector nv p).flash x = if x / 4096 = p.val then 0xFF else cellsGet nv.flash x := by
  refine (cellsGet_filter (fun k => decide (k / 4096 ≠ p.val)) nv.flash).trans ?_
  by_cases at_ : x / 4096 = p.val
  · rw [if_pos at_, if_neg (by simpa using at_)]
  · rw [if_neg at_, if_pos (by simpa using at_)]

/-! ### Wear writes no byte -/

/-- Two contents of the memories with the same bytes in the store's flash and in the code slots. -/
structure SameBytes (old new : NonVol) : Prop where
  flash : new.flash = old.flash
  code : new.code = old.code

theorem SameBytes.refl : SameBytes nv nv := ⟨rfl, rfl⟩

theorem wearOut_bytes (p : Fin 128) : SameBytes nv (wearOut tm nv p d).1 := by
  unfold wearOut
  split
  · exact .refl
  · extract_lets worn
    have same : SameBytes nv worn := ⟨rfl, rfl⟩
    clear_value worn
    split
    · exact same
    · extract_lets _ _ moving _
      have same' : SameBytes nv moving := by
        show SameBytes nv (ite _ _ _)
        split
        · exact ⟨same.flash, same.code⟩
        · exact same
      clear_value moving
      split
      · exact same'
      · split
        · split
          · split
            · exact same'
            · exact same
          · exact same
        · exact same'

theorem wornErase_bytes (p : Fin 128) : SameBytes nv (wornErase tm nv p d).1 :=
  have same := wearOut_bytes (tm := tm) (nv := nv) (d := d) p
  ⟨same.flash, same.code⟩

theorem programFailed_bytes {j : Job} {c : ChunkProg} : SameBytes nv (programFailed tm nv j c d).1 := by
  unfold programFailed
  dsimp only
  split
  · exact wearOut_bytes _
  · exact .refl

/-! ### The ends of programs and erases -/

theorem chunkEnd_verified {j : Job} {c : ChunkProg} (current : d.ocs.current = some j) (head : headProg j = some c) :
    SameBytes (programChunk nv c) (chunkEnd tm true nv d).1 := by
  unfold chunkEnd
  rw [current]
  dsimp only
  rw [head]
  dsimp only
  rw [if_pos rfl]
  split
  · exact .refl
  · exact .refl

theorem chunkEnd_failed {j : Job} {c : ChunkProg} (current : d.ocs.current = some j) (head : headProg j = some c) :
    SameBytes (interruptChunk nv c) (chunkEnd tm false nv d).1 := by
  unfold chunkEnd
  rw [current]
  dsimp only
  rw [head]
  dsimp only
  rw [if_neg Bool.false_ne_true]
  split
  · exact programFailed_bytes
  · exact programFailed_bytes

theorem eraseEnd_verified {j : Job} {tries : Nat} {begun : Bool} {rest : List JobStep} (current : d.ocs.current = some j)
    (steps : j.steps = .erase p tries begun :: rest) : SameBytes (eraseSector nv p) (eraseEnd tm true nv d).1 := by
  unfold eraseEnd
  rw [current]
  dsimp only
  rw [steps]
  dsimp only
  rw [if_pos rfl]
  have same (c : Prop) [Decidable c] (d : Device) :
      SameBytes (eraseSector nv p) (if c then wornErase tm (eraseSector nv p) p d else (eraseSector nv p, d)).1 := by
    split
    · exact wornErase_bytes p
    · exact .refl
  split
  · exact same _ _
  · exact same _ _

theorem eraseEnd_failed : SameBytes nv (eraseEnd tm false nv d).1 := by
  unfold eraseEnd
  split
  · exact .refl
  · split
    · dsimp only
      rw [if_neg Bool.false_ne_true]
      split
      · split
        · split
          · exact wornErase_bytes _
          · exact wornErase_bytes _
        · exact wornErase_bytes _
      · exact .refl
    · exact .refl

end

/-- Settles O49: the bytes of the program that ends, and the sector of the erase that ends. -/
theorem flashChanges : Obligations.FlashChanges := by
  refine ⟨fun j c s wf current head => ?_, fun j p tries begun rest s current steps => ?_,
    fun j c s wf current head => ?_, fun s => ?_⟩
  · have same := chunkEnd_verified (tm := s.tm) (nv := s.nv) current head
    refine ⟨_, rfl, rfl, rfl, same.code.trans (programBytes_code _ _ _), fun i b at_ => ?_, fun a out => ?_, ?_⟩
    · exact (congrArg (cellsGet · _) same.flash).trans (programBytes_get_inside wf at_)
    · exact (congrArg (cellsGet · _) same.flash).trans (programBytes_get_outside wf out)
    · exact (congrArg cellsWf same.flash).trans (programBytes_wf _ _ wf)
  · have same := eraseEnd_verified (tm := s.tm) (nv := s.nv) current steps
    refine ⟨_, rfl, rfl, rfl, same.code, fun a at_ => ?_, fun a out => ?_, fun wf => ?_⟩
    · exact (congrArg (cellsGet · a) same.flash).trans (eraseSector_get.trans (if_pos at_))
    · exact (congrArg (cellsGet · a) same.flash).trans (eraseSector_get.trans (if_neg out))
    · exact (congrArg cellsWf same.flash).trans (eraseSector_wf p wf)
  · have same := chunkEnd_failed (tm := s.tm) (nv := s.nv) current head
    refine ⟨_, rfl, rfl, rfl, same.code.trans (interruptChunk_code _ _), fun a out => ?_⟩
    exact (congrArg (cellsGet · a) same.flash).trans (interruptBytes_get_outside _ wf out)
  · have same := eraseEnd_failed (tm := s.tm) (nv := s.nv) (d := s.dev)
    exact ⟨_, rfl, rfl, rfl, same.flash, same.code⟩

end Sys2Proof.Machine
end

section
/-! SUPPORT. Commands with a row of their own, of any window (R45, R48, R317, R318): what a write that reaches its register does, from the
level of its source. -/

namespace Sys2Proof.Machine

section
variable {src : Src} {win : Window} {s : State} {d : Device} {l least : Level}

/-! ### Levels -/

/-- A level gives the rights of every lower one (R348). -/
theorem may_of_higher (h : may d src l = true) (lower : least.rank ≤ l.rank) : may d src least = true := by
  simp only [may, Bool.and_eq_true, decide_eq_true_eq] at h ⊢
  exact ⟨⟨lower.trans h.1.1, h.1.2⟩, h.2⟩

theorem not_may_of_lower (h : may d src least = false) (lower : least.rank ≤ l.rank) : may d src l = false :=
  Bool.eq_false_iff.mpr fun higher => Bool.false_ne_true (h.symm.trans (may_of_higher higher lower))

/-- A source whose write reaches a window that answers at READY alone reaches the registers (R48). -/
theorem may_none_of_late (late : win ≠ .early) (h : Reaches src win s) : may s.dev src .none = true := by
  obtain ⟨taken, opened, -⟩ := h
  cases src with
  | sup => rfl
  | port p =>
    have ready : s.dev.sys.step = .ready := by
      refine of_not_not fun other => Bool.false_ne_true (opened.symm.trans ?_)
      cases win with
      | early => exact absurd rfl late
      | served => exact Bool.or_eq_true_iff.mpr (.inl (decide_eq_true other))
      | running | quad _ | core | engine | store => exact decide_eq_true other
    have reach : reaches s.dev (.port p) = true := (Bool.and_eq_true_iff.mp taken).1
    simp [may, Level.rank, ready, reach]

theorem byLevelOr_of_level {denied f : Device → Device} (h : may d src least = true) : byLevelOr src least denied f d = f d := if_pos h

theorem byLevelOr_of_none {denied f : Device → Device} (h : may d src least = false) (none : may d src .none = true) :
    byLevelOr src least denied f d = denied d :=
  (if_neg (Bool.eq_false_iff.mp h)).trans (if_pos none)

/-! ### The row of a command -/

/-- A command that reaches its register; its access shows whether the source may give it. -/
theorem commandRow_eq (h : Reaches src win s) (a : Addr) (w : Word) (ok : Device → Bool) (f : State → Device → Device) :
    rowWrite src a w win (writeCommand ok fun t => t.onDev (f t)) s =
      Wrote src a (if ok (rowStarts src a s).dev then 0 else stDenied) (f (rowStarts src a s)) s := rowWrite_of_reaches h a w _

/-- A command that does with the device in which its write has begun what `g` does. -/
theorem commandRow_as {a : Addr} {w : Word} {ok : Device → Bool} {f : State → Device → Device} {g : Device → Device} {st : Byte}
    (h : Reaches src win s) (shown : (if ok (rowStarts src a s).dev then 0 else stDenied) = st)
    (does : f (rowStarts src a s) (rowStarts src a s).dev = g (rowStarts src a s).dev) :
    (.next (rowWrite src a w win (writeCommand ok fun t => t.onDev (f t)) s) : Answer) = .next (Wrote src a st g s) :=
  congrArg Host.Outcome.next ((commandRow_eq h a w ok f).trans (shown ▸ wrote_congr does _))

/-- A write from ENGINEER that does with the device in which it has begun what `g` does. -/
theorem engineerRow_as {a : Addr} {w : Word} {f : TimeBase → NonVol → Device → Device} {g : Device → Device}
    (h : Reaches src win s) (level : may s.dev src .engineer = true)
    (does : f s.tm s.nv (rowStarts src a s).dev = g (rowStarts src a s).dev) :
    (.next (rowWrite src a w win (writeState (engineer src) fun t => t.onDev (f t.tm t.nv)) s) : Answer) =
      .next (Wrote src a 0 g s) :=
  congrArg Host.Outcome.next ((rowWrite_of_engineer h level a w f).trans (wrote_congr does _))

end

end Sys2Proof.Machine
end

section
/-! SUPPORT. The commands of the on-chip store (R377, R397, Table 15-9). -/

namespace Sys2Proof.Machine

/-! ### What the store's pump keeps -/

/-- A store without the jobs and the places that its pump deals in. -/
def Store.still (st : Store) : Store :=
  { st with current := none, jobs := [], nextSeq := 0, next := bankFill 11 0, used := bankFill 11 [], erased := bankFill 11 [] }

section
variable {nv : NonVol} {st st' : Store} {j j' x : Job} {fuel : Nat}

theorem rollRegion_still {r : Fin 11} (h : rollRegion r st = some st') : st'.still = st.still := by
  unfold rollRegion at h
  dsimp only at h
  split at h
  · cases h
  · split at h
    · split at h <;> (cases h; rfl)
    · cases h; rfl

theorem rollRegion_jobs {r : Fin 11} (h : rollRegion r st = some st') (mem : x ∈ st.jobs) : x ∈ st'.jobs := by
  unfold rollRegion at h
  dsimp only at h
  split at h
  · cases h
  · split at h
    · split at h
      · cases h; exact List.mem_append_left _ mem
      · cases h; exact mem
    · cases h; exact mem

theorem readyJob_still (h : readyJob nv fuel st j = some (st', j')) : st'.still = st.still := by
  fun_induction readyJob nv fuel st j
  case case1 | case7 => cases h
  case case2 | case4 | case11 => exact (congrArg (fun x => Store.still x.1) (Option.some.inj h)).symm
  case case6 hroll ih => exact (ih h).trans (rollRegion_still hroll)
  case case3 ih | case5 ih | case8 ih | case9 ih | case10 ih => exact ih h

theorem readyJob_jobs (h : readyJob nv fuel st j = some (st', j')) (mem : x ∈ st.jobs) : x ∈ st'.jobs := by
  fun_induction readyJob nv fuel st j
  case case1 | case7 => cases h
  case case2 | case4 | case11 =>
    obtain ⟨rfl, -⟩ := Prod.mk.inj (Option.some.inj h)
    exact mem
  case case6 hroll ih => exact ih h (rollRegion_jobs hroll mem)
  case case3 ih | case5 ih | case8 ih | case9 ih | case10 ih => exact ih h mem

/-- A step that programs the flash in any case: a record at a place that the store chooses, or given bytes. -/
def JobStep.places : JobStep → Bool
  | .record r => r.sector.isNone
  | .bytes _ => true
  | _ => false

/-- A job with such a step is not over when it is ready. -/
theorem readyJob_places (h : readyJob nv fuel st j = some (st', j')) (places : j.steps.any JobStep.places = true) :
    j'.tag = j.tag ∧ j'.steps.isEmpty = false := by
  fun_induction readyJob nv fuel st j
  case case1 | case7 => cases h
  case case2 | case11 =>
    obtain ⟨-, rfl⟩ := Prod.mk.inj (Option.some.inj h)
    exact ⟨rfl, List.isEmpty_eq_false_iff_exists_mem.mpr ((List.any_eq_true.mp places).imp fun _ step => step.1)⟩
  case case4 =>
    obtain ⟨-, rfl⟩ := Prod.mk.inj (Option.some.inj h)
    exact ⟨rfl, rfl⟩
  case case3 steps _ ih => exact ih h (by simpa [steps, JobStep.places] using places)
  case case5 steps _ _ given ih =>
    refine ih h ?_
    rw [steps, List.any_cons, JobStep.places, Option.isNone_eq_false_iff.mpr given, Bool.false_or] at places
    exact places
  case case6 ih => exact ih h places
  case case8 steps ih | case10 steps _ _ _ _ _ ih =>
    refine ih h ?_
    rw [steps, List.any_cons] at places
    exact Bool.or_eq_true_iff.mpr (.inr places)
  case case9 steps _ ih =>
    refine ih h ?_
    rw [steps, List.any_cons] at places
    exact places

theorem startBest_still (ok : Job → Bool) (cands : List Job) : (startBest nv ok fuel cands st).still = st.still := by
  induction fuel generalizing cands st with
  | zero => rfl
  | succ fuel ih =>
    unfold startBest
    split
    · rfl
    · split
      · next st' _ ready =>
        have kept : st'.still = st.still := readyJob_still ready
        dsimp only
        split
        · exact (ih _).trans kept
        · exact kept
      · exact ih _

/-- A store that is to write what a host command asks for. -/
def Store.owes (st : Store) (tag : StoreTag) : Prop := ∃ j ∈ st.jobs, j.tag = tag ∧ j.steps.any JobStep.places = true

/-- What is owed waits, or is the work that is started. -/
theorem startBest_owes {tag : StoreTag} (ok : Job → Bool) (cands : List Job) (owes : st.owes tag) :
    ∃ j ∈ (startBest nv ok fuel cands st).current.toList ++ (startBest nv ok fuel cands st).jobs, j.tag = tag := by
  induction fuel generalizing cands st with
  | zero =>
    obtain ⟨j, mem, tagged, -⟩ := owes
    exact ⟨j, List.mem_append_right _ mem, tagged⟩
  | succ fuel ih =>
    obtain ⟨j, mem, tagged, places⟩ := owes
    unfold startBest
    split
    · exact ⟨j, List.mem_append_right _ mem, tagged⟩
    · next picked others _ =>
      split
      · next st' j' ready =>
        have waits (other : j ≠ picked) : j ∈ st'.jobs.erase picked :=
          (List.mem_erase_of_ne other).mpr (readyJob_jobs ready mem)
        dsimp only
        by_cases same : j = picked
        · obtain ⟨tagged', lasting⟩ := readyJob_places ready (same ▸ places)
          rw [if_neg (Bool.eq_false_iff.mp lasting)]
          exact ⟨j', List.mem_cons_self, tagged'.trans (same ▸ tagged)⟩
        · split
          · exact ih _ ⟨j, waits same, tagged, places⟩
          · exact ⟨j, List.mem_append_right _ (waits same), tagged⟩
      · exact ih _ ⟨j, mem, tagged, places⟩

/-- The store goes on with its jobs: what it owes it still has to write, and nothing else of the store changes. -/
theorem storePump_owes {tag : StoreTag} {d : Device} (owes : d.ocs.owes tag) :
    ∃ ocs, storePump nv d = { d with ocs := ocs } ∧ ocs.still = d.ocs.still ∧ ∃ j ∈ ocs.current.toList ++ ocs.jobs, j.tag = tag := by
  have waits : ∃ j ∈ d.ocs.current.toList ++ d.ocs.jobs, j.tag = tag := by
    obtain ⟨j, mem, tagged, -⟩ := owes
    exact ⟨j, List.mem_append_right _ mem, tagged⟩
  unfold storePump
  split
  · exact ⟨_, rfl, rfl, waits⟩
  · dsimp only
    split
    · exact ⟨_, rfl, startBest_still .., startBest_owes _ _ owes⟩
    · next j current =>
      split
      · exact ⟨_, rfl, rfl, waits⟩
      · split
        · refine ⟨_, rfl, startBest_still (st := { d.ocs with current := none }) .., ?_⟩
          obtain ⟨k, mem, tagged⟩ := startBest_owes (nv := nv) (st := { d.ocs with current := none }) _ _ owes
          refine ⟨k, ?_, tagged⟩
          rw [List.mem_append] at mem ⊢
          exact mem.imp_right (List.mem_cons_of_mem _)
        · exact ⟨_, rfl, rfl, waits⟩

/-- A job with such a step that joins the queue is owed. -/
theorem owes_addJob {d : Device} (places : j.steps.any JobStep.places = true) : (addJob j d).ocs.owes j.tag :=
  ⟨j, List.mem_append_right _ List.mem_cons_self, rfl, places⟩

/-- A command whose job is queued lasts until that is done. -/
theorem storePump_addJob {d : Device} (places : j.steps.any JobStep.places = true) :
    ∃ ocs, storePump nv (addJob j { d with ocs := { d.ocs with cmdBusy := true } }) = { d with ocs := ocs } ∧
      ocs.cmdBusy = true ∧ ocs.bp = d.ocs.bp ∧ ∃ k ∈ ocs.current.toList ++ ocs.jobs, k.tag = j.tag := by
  obtain ⟨ocs, pumped, still, owed⟩ := storePump_owes (nv := nv)
    (owes_addJob (d := { d with ocs := { d.ocs with cmdBusy := true } }) places)
  exact ⟨ocs, pumped, (congrArg Store.cmdBusy still :), (congrArg Store.bp still :), owed⟩

end

/-! ### Commands that are turned away (R397) -/

section
variable {src : Src} {s : State} {d : Device} {least : Level}

theorem storeDenied_of_free (free : d.ocs.cmdBusy = false) : storeDenied d = StoreEnded .denied d :=
  if_neg (Bool.eq_false_iff.mp free)

theorem storeCommand_of_busy (f : Device → Device) (busy : d.ocs.cmdBusy = true) :
    storeCommand f d = { d with ocs := { d.ocs with result := StoreResult.busy.code } } := if_pos busy

theorem storeCommand_of_pfail (f : Device → Device) (free : d.ocs.cmdBusy = false) (low : d.ocs.pfail = true) :
    storeCommand f d = StoreEnded .pfail d := (if_neg (Bool.eq_false_iff.mp free)).trans (if_pos low)

theorem storeCommand_of_free (f : Device → Device) (free : d.ocs.cmdBusy = false) (high : d.ocs.pfail = false) :
    storeCommand f d = f d := (if_neg (Bool.eq_false_iff.mp free)).trans (if_neg (Bool.eq_false_iff.mp high))

@[simp] theorem rowStarts_notReturned (a : Addr) : notReturned (rowStarts src a s).dev = notReturned s.dev := by
  simp [notReturned]

@[simp] theorem rowStarts_protectLevel (a : Addr) (bp : BitVec 2) :
    protectLevel (rowStarts src a s).dev bp = protectLevel s.dev bp := by
  simp [protectLevel]

/-- A command of OCS.CMD is turned away without its level; and with every privilege as `storeCommand` says. -/
theorem storeRow_refused {ok : Device → Bool} {F : State → Device → Device} {G : Device → Device} (reached : Reaches src .store s)
    (w : Word) (lower : least.rank ≤ Level.custodian.rank) (shut : may s.dev src least = false → ok (rowStarts src 0x9001 s).dev = false)
    (opened : may s.dev src .custodian = true → s.dev.sg.lc ≠ .returned → ok (rowStarts src 0x9001 s).dev = true ∧
      F (rowStarts src 0x9001 s) (rowStarts src 0x9001 s).dev = storeCommand G (rowStarts src 0x9001 s).dev) :
    let row : Answer := .next (rowWrite src 0x9001 w .store
      (writeCommand ok fun t => t.onDev (byLevelOr src least storeDenied (F t))) s)
    (may s.dev src least = false → s.dev.ocs.cmdBusy = false → row = .next (Wrote src 0x9001 0x04 (StoreEnded .denied) s)) ∧
    (may s.dev src .custodian = true → s.dev.sg.lc ≠ .returned → s.dev.ocs.cmdBusy = true →
      row = .next (Wrote src 0x9001 0 (fun d => { d with ocs := { d.ocs with result := StoreResult.busy.code } }) s)) ∧
    (may s.dev src .custodian = true → s.dev.sg.lc ≠ .returned → s.dev.ocs.cmdBusy = false → s.dev.ocs.pfail = true →
      row = .next (Wrote src 0x9001 0 (StoreEnded .pfail) s)) := by
  have none := may_none_of_late (by decide) reached
  have level (h : may s.dev src .custodian = true) : may (rowStarts src 0x9001 s).dev src least = true :=
    (rowStarts_may ..).trans (may_of_higher h lower)
  refine ⟨fun low free => ?_, fun high kept busy => ?_, fun high kept free low => ?_⟩
  · refine commandRow_as reached (if_neg (Bool.eq_false_iff.mp (shut low))) ?_
    rw [byLevelOr_of_none ((rowStarts_may ..).trans low) ((rowStarts_may ..).trans none)]
    exact storeDenied_of_free (by simpa using free)
  · obtain ⟨shown, does⟩ := opened high kept
    refine commandRow_as reached (if_pos shown) ?_
    rw [byLevelOr_of_level (level high), does]
    exact storeCommand_of_busy G (by simpa using busy)
  · obtain ⟨shown, does⟩ := opened high kept
    refine commandRow_as reached (if_pos shown) ?_
    rw [byLevelOr_of_level (level high), does]
    exact storeCommand_of_pfail G (by simpa using free) (by simpa using low)

/-! ### The commands, each from a source with its privilege -/

variable {block : Fin 128} {bp : BitVec 2} {st : Byte} {g : Device → Device}

theorem exec_userRead (h : StoreFree src s) (level : may s.dev src .observe = true)
    (does : userRead s.nv block (rowStarts src 0x9001 s).dev = g (rowStarts src 0x9001 s).dev) :
    exec (.userRead src block) s = .next (Wrote src 0x9001 0 g s) := by
  obtain ⟨reached, free, high⟩ := h
  refine commandRow_as reached (if_pos ((rowStarts_may ..).trans level)) ?_
  rw [byLevelOr_of_level ((rowStarts_may ..).trans level), storeCommand_of_free _ (by simpa using free) (by simpa using high),
    rowStarts_nv]
  exact does

theorem exec_userWrite (h : StoreFree src s) (level : may s.dev src .engineer = true) (kept : s.dev.sg.lc ≠ .returned)
    (does : userWrite s.nv block (rowStarts src 0x9001 s).dev = g (rowStarts src 0x9001 s).dev) :
    exec (.userWrite src block) s = .next (Wrote src 0x9001 0 g s) := by
  obtain ⟨reached, free, high⟩ := h
  refine commandRow_as reached (if_pos (by simp [engineer, notReturned, level, kept])) ?_
  rw [byLevelOr_of_level ((rowStarts_may ..).trans level), if_pos (by simp [notReturned, kept]),
    storeCommand_of_free _ (by simpa using free) (by simpa using high), rowStarts_nv]
  exact does

theorem userWrite_of_life (h : d.sg.lc ≠ .returned) (nv : NonVol) : userWrite nv block d =
    if !regionWritable d.ocs 9 then endStore .readonly d
    else if blockProtected d.ocs.bp block then endStore .protected_ d
    else storePump nv (addJob ⟨[.record ⟨0x50, BitVec.ofNat 64 block.val, 0, d.ocs.ubuf.toList.flatMap fun w => leBytes 4 w.toNat, 9,
      none⟩], .record, .user block, true⟩ { d with ocs := { d.ocs with cmdBusy := true } }) := if_neg h

theorem protectUser_of_writable (life : d.sg.lc ≠ .returned) (writable : regionWritable d.ocs 5 = true) (nv : NonVol) :
    protectUser nv bp d =
      storePump nv (addJob ⟨[.record ⟨0x06, 0, 0, leBytes 1 bp.toNat, 5, none⟩], .record, .protect bp, true⟩
        { d with ocs := { d.ocs with cmdBusy := true } }) :=
  (if_neg life).trans (if_neg (by simp [writable]))

/-- PROTECT of a source with ENGINEER, which a lower BP may deny. -/
theorem exec_protect_of_denied (h : StoreFree src s) (level : may s.dev src .engineer = true)
    (denied : may s.dev src (protectLevel s.dev bp) = false) :
    exec (.protect src bp) s = .next (Wrote src 0x9001 0x04 (StoreEnded .denied) s) := by
  obtain ⟨reached, free, -⟩ := h
  refine commandRow_as reached (if_neg (by simp [denied])) ?_
  rw [byLevelOr_of_level ((rowStarts_may ..).trans level), if_neg (by simp [denied])]
  exact storeDenied_of_free (by simpa using free)

theorem exec_protect (h : StoreFree src s) (level : may s.dev src .engineer = true) (kept : s.dev.sg.lc ≠ .returned)
    (allowed : may s.dev src (protectLevel s.dev bp) = true)
    (does : protectUser s.nv bp (rowStarts src 0x9001 s).dev = g (rowStarts src 0x9001 s).dev) :
    exec (.protect src bp) s = .next (Wrote src 0x9001 0 g s) := by
  obtain ⟨reached, free, high⟩ := h
  refine commandRow_as reached (if_pos (by simp [notReturned, allowed, kept])) ?_
  rw [byLevelOr_of_level ((rowStarts_may ..).trans level), if_pos (by simp [notReturned, allowed, kept]),
    storeCommand_of_free _ (by simpa using free) (by simpa using high), rowStarts_nv]
  exact does

end

/-- Settles O48: the refusals, which the three commands share, and then each command. -/
theorem storeCommands : Obligations.StoreCommands := by
  refine ⟨fun src block bp s reached x mem => ?_, fun src block s free level => ⟨fun absent => ?_, fun r found => ?_⟩,
    fun src block s free level life => ⟨fun shut => ?_, fun opened prot => ?_, fun opened unprot => ?_⟩,
    fun src bp s free level life => ⟨fun lower low => ?_, fun keeps writable => ?_⟩, fun src op s free level unlisted => ?_⟩
  · simp only [storeOps, List.mem_cons, List.not_mem_nil, or_false] at mem
    rcases mem with rfl | rfl | rfl
    · exact storeRow_refused (least := .observe) reached _ (by decide) (fun low => by simp [observe, low]) fun high _ =>
        ⟨by simp [observe, may_of_higher (least := .observe) high (by decide)], rfl⟩
    · exact storeRow_refused (least := .engineer) reached _ (by decide) (fun low => by simp [engineer, low]) fun high life =>
        ⟨by simp [engineer, notReturned, life, may_of_higher (least := .engineer) high (by decide)],
          if_pos (by simp [notReturned, life])⟩
    · have denied (low : may s.dev src .engineer = false) : may s.dev src (protectLevel s.dev bp) = false := by
        unfold protectLevel
        split
        · exact not_may_of_lower low (by decide)
        · exact low
      have allowed (high : may s.dev src .custodian = true) : may s.dev src (protectLevel s.dev bp) = true := by
        unfold protectLevel
        split
        · exact high
        · exact may_of_higher high (by decide)
      exact storeRow_refused (least := .engineer) reached _ (by decide) (fun low => by simp [denied low]) fun high life =>
        ⟨by simp [notReturned, life, allowed high], if_pos (by simp [notReturned, life, allowed high])⟩
  · refine exec_userRead free level ?_
    simp only [userRead, rowStarts_ocs, rowStarts_draws, absent]
    simp only [StoreEnded, endStore, rowStarts_ocs, rowStarts_draws]
  · refine exec_userRead free level ?_
    simp only [userRead, rowStarts_ocs, rowStarts_draws, found]
    simp only [StoreEnded, endStore, rowStarts_ocs, rowStarts_draws]
  · refine exec_userWrite free level life ?_
    rw [userWrite_of_life (by simpa using life), if_pos (by simp [shut])]
    rfl
  · refine exec_userWrite free level life ?_
    rw [userWrite_of_life (by simpa using life), if_neg (by simp [opened]), if_pos (by simp [prot])]
    rfl
  · obtain ⟨ocs, pumped, lasts, kept, owed⟩ := storePump_addJob (nv := s.nv) (d := (rowStarts src 0x9001 s).dev)
      (j := ⟨[.record ⟨0x50, BitVec.ofNat 64 block.val, 0, (rowStarts src 0x9001 s).dev.ocs.ubuf.toList.flatMap fun w =>
        leBytes 4 w.toNat, 9, none⟩], .record, .user block, true⟩) rfl
    refine ⟨ocs, exec_userWrite free level life ?_, lasts, kept.trans (by simp), owed⟩
    rw [userWrite_of_life (by simpa using life), if_neg (by simp [opened]), if_neg (by simp [unprot])]
    exact pumped
  · exact exec_protect_of_denied free level (by simp [protectLevel, lower, low])
  · obtain ⟨ocs, pumped, lasts, kept, owed⟩ := storePump_addJob (nv := s.nv) (d := (rowStarts src 0x9001 s).dev)
      (j := ⟨[.record ⟨0x06, 0, 0, leBytes 1 bp.toNat, 5, none⟩], .record, .protect bp, true⟩) rfl
    refine ⟨ocs, exec_protect free level life ?_ ?_, lasts, kept.trans (by simp), owed⟩
    · unfold protectLevel
      split
      · next lower => exact keeps.resolve_left (Nat.not_le.mpr lower)
      · exact level
    · rw [protectUser_of_writable (by simpa using life) (by simpa using writable)]
      exact pumped
  · obtain ⟨reached, idle, -⟩ := free
    refine (congrArg Host.Outcome.next (if_neg unlisted)).trans (commandRow_as reached (if_pos (by simp [engineer, level])) ?_)
    rw [byLevelOr_of_level ((rowStarts_may ..).trans level), if_neg (by simp [idle])]
    rfl

end Sys2Proof.Machine
end

section
/-! SUPPORT. The recorder (R400, R402, R404, R409, R411, R413, R415): the write of the oldest event, the end of chains, and ER.CMD. -/

namespace Sys2Proof.Machine

/-! ### The oldest event is written (R400) -/

section
variable {tm : TimeBase} {nv : NonVol} {d : Device} {e : Recorder} {x : Event} {j : Job} {st : Store} {ok : Job → Bool}

/-- Of the store, the next place of the circulating area takes that place alone. -/
theorem circulatingPlace_store {st' : Store} {addr : Nat} (h : circulatingPlace st = some (st', addr)) :
    st'.current = st.current ∧ st'.jobs = st.jobs ∧ st'.pfail = st.pfail ∧ st'.recovering = st.recovering := by
  unfold circulatingPlace at h
  dsimp only at h
  split at h
  · cases h; exact ⟨rfl, rfl, rfl, rfl⟩
  · split at h
    · cases h
    · obtain ⟨p, -, taken⟩ := Option.map_eq_some_iff.mp h
      cases taken; exact ⟨rfl, rfl, rfl, rfl⟩

/-- The only job, when it may start and its program stands ready, is started. -/
theorem startBest_only {cs : List ChunkProg} {rest : List JobStep} (allowed : ok j = true) (jobs : st.jobs = [j])
    (steps : j.steps = .bytes cs :: rest) (fuel : Nat) :
    startBest nv ok (fuel + 1) st.jobs st = { st with jobs := [], current := some j } := by
  have picked : pickJob ok [j] = some (j, []) := by simp [pickJob, allowed]
  have ready : readyJob nv 8 st j = some (st, j) := by simp [readyJob, steps]
  rw [jobs, startBest, picked]
  dsimp only
  rw [ready]
  simp [steps, jobs]

theorem storePump_only {cs : List ChunkProg} {rest : List JobStep} (clock : d.clk.sclkOn = true) (idle : d.ocs.current = none)
    (jobs : d.ocs.jobs = [j]) (steps : j.steps = .bytes cs :: rest)
    (allowed : jobAllowed (d.hkt.storeWin && !d.hkt.tsd) d.ocs.pfail d.ocs.recovering j = true) :
    storePump nv d = { d with ocs := { d.ocs with jobs := [], current := some j } } := by
  unfold storePump
  rw [clock, idle]
  simp [startBest_only allowed jobs steps]

/-- While a job that is no erase is in progress, the store starts nothing. -/
theorem storePump_of_program (current : d.ocs.current = some j) (programs : erasing d.ocs = false) : storePump nv d = d := by
  unfold storePump
  rw [current]
  simp [programs]

theorem resolveSeq_length (id : Nat) (seq : Word) : (resolveSeq id seq e).queue.length = e.queue.length := List.length_map ..

theorem eventBytes_seq : (eventBytes tm e x).take 4 = leBytes 4 e.seqNext.toNat := rfl

/-- With the store free for it, the write of the oldest event starts under the next SEQ. -/
theorem writeEvent_starts {xs : List Event} {addr : Nat} (queue : d.er.queue = x :: xs) (may : mayRecord d = true)
    (numbers : d.er.seqNext ≠ d.er.seqLimit) (chip : d.er.bogOnly = false) (clock : d.clk.sclkOn = true)
    (idle : d.ocs.current = none) (jobs : d.ocs.jobs = []) (place : circulatingPlace d.ocs = some (st, addr)) :
    let bs := eventBytes tm d.er x
    writeEvent tm nv d = { d with
      ocs := { st with jobs := [], current := some ⟨eventSteps addr bs, .record, .event d.er.seqNext, false⟩ }
      er := resolveSeq x.id d.er.seqNext { d.er with
        seqNext := d.er.seqNext + 1
        writing := some (x, d.er.seqNext, bs)
        pfailLeft := if d.er.pfail then d.er.pfailLeft - 1 else d.er.pfailLeft } } := by
  intro bs
  obtain ⟨current, waiting, pfail, recovering⟩ := circulatingPlace_store place
  have window : d.ocs.recovering = false ∧ (d.hkt.storeWin && !d.hkt.tsd) = true := by
    simp only [mayRecord, Bool.and_eq_true, Bool.not_eq_true'] at may
    simp [may]
  have allowed : jobAllowed (d.hkt.storeWin && !d.hkt.tsd) st.pfail st.recovering
      ⟨eventSteps addr bs, .record, .event d.er.seqNext, false⟩ = true := by
    rw [recovering, window.1, window.2]
    simp [jobAllowed]
  have pumped := storePump_only (nv := nv)
    (d := addJob ⟨eventSteps addr bs, .record, .event d.er.seqNext, false⟩ { d with
      ocs := st
      er := resolveSeq x.id d.er.seqNext { d.er with
        seqNext := d.er.seqNext + 1
        writing := some (x, d.er.seqNext, bs)
        pfailLeft := if d.er.pfail then d.er.pfailLeft - 1 else d.er.pfailLeft } })
    clock (current.trans idle) (congrArg (· ++ _) (waiting.trans jobs)) rfl allowed
  unfold writeEvent
  rw [queue]
  dsimp only
  rw [may, if_neg (by decide), if_neg numbers, if_neg (by simp [chip]), place]
  dsimp only
  rw [pumped]
  exact if_pos (by simp)

/-- Beside a program that is no write of its own the oldest event waits. -/
theorem writeEvent_waits (current : d.ocs.current = some j) (programs : erasing d.ocs = false) (other : j.tag ≠ .event d.er.seqNext)
    (chip : d.er.bogOnly = false) (numbers : d.er.seqNext ≠ d.er.seqLimit) (place : (circulatingPlace d.ocs).isSome = true) :
    writeEvent tm nv d = d := by
  obtain ⟨⟨st, addr⟩, taken⟩ := Option.isSome_iff_exists.mp place
  have kept := (circulatingPlace_store taken).1
  unfold writeEvent
  split
  · rfl
  · cases mayRecord d with
    | false => rfl
    | true =>
      rw [if_neg (by decide), if_neg numbers, if_neg (by simp [chip]), taken]
      dsimp only
      rw [storePump_of_program (j := j) (kept.trans current) (by
        rw [← programs]
        simp only [erasing, addJob, kept])]
      exact if_neg (by simp [addJob, kept, current, other])

/-- A record that does not go to the archive's buffer alone. -/
theorem exec_eventRecordWrite {s : State} (h : writeEvent s.tm s.nv s.dev = d) (chip : d.er.bogOnly = false) :
    exec .eventRecordWrite s = .next { s with dev := d } := by
  have kept : recordEvent s.tm s.nv s.dev = d := by
    unfold recordEvent
    rw [h]
    exact if_neg (Bool.eq_false_iff.mp chip)
  exact congrArg (fun d => (Host.Outcome.next { s with dev := d } : Answer)) kept

theorem writeEvent_of_empty (empty : d.er.queue = []) : writeEvent tm nv d = d := by
  unfold writeEvent
  rw [empty]

/-! ### Chains end (R411) -/

@[simp] theorem pushEvent_chains (atHead : Bool) (code : Nat) (payload : List Byte) (ref : Option Nat)
    (stamp : Option (BitVec 48 × BitVec 6 × Bool)) : (pushEvent tm atHead code payload ref stamp e).1.chains = e.chains := by
  unfold pushEvent
  dsimp only
  split
  · rfl
  · rfl

theorem endChain_chains (e : Recorder) (c : Chain) : (endChain tm e c).chains = e.chains := by
  unfold endChain
  split
  · rfl
  · exact pushEvent_chains ..

theorem endChains_chains (e : Recorder) :
    (endChains tm e).chains = e.chains.filter fun c => !decide (tm.us.toNat > c.last + 1000) :=
  foldl_keeps Recorder.chains endChain_chains _ _

/-! ### TIME_SET, CLEAR and SELECT (R404, R413, R415) -/

/-- TIME_SET puts the calendar at the new value under the next generation; the recorder's other numbers stay. -/
theorem timeSet_eq (src : Src) : ∃ er, timeSet tm src d = ({ tm with cal := d.er.timeNew }, { d with er := er }) ∧
    er.tgen = d.er.tgen + 1 ∧ er.unset = false ∧ er.result = 0 ∧ er.seqNext = d.er.seqNext := by
  unfold timeSet
  dsimp only
  generalize queued : pushEvent _ _ _ _ _ _ _ = q
  have kept : q.1.duty = _ := queued ▸ (pushEvent_duty ..).trans (endChains_duty ..)
  exact ⟨_, rfl, (congrArg Recorder.tgen kept :), (congrArg Recorder.unset kept :), rfl, (congrArg Recorder.seqNext kept :)⟩

/-- An event of a reserved code that finds a reserved entry free joins the queue at its end (R409). -/
theorem pushEvent_end {code : Nat} (payload : List Byte) (reserved : reservedCode code = true)
    (room : (e.queue.filter (·.spare)).length < 4) :
    ∃ x, x.code = byte code ∧ pushEvent tm false code payload none none e =
      ({ e with queue := e.queue ++ [x], nextId := e.nextId + 1 }, true) := by
  have spare : (reservedCode code && decide ((e.queue.filter (·.spare)).length < 4)) = true := by rw [reserved, decide_eq_true room]; rfl
  refine ⟨⟨byte code, payload.takeD 16 0, e.nextId, none, none, true⟩, rfl, ?_⟩
  unfold pushEvent
  dsimp only
  rw [spare, Bool.true_or, if_pos rfl]
  rfl

theorem startClear_of_permanent {src : Src} {areas : BitVec 4} (life : d.sg.lc ≠ .returned) (perm : areas.getLsbD 1 = true) :
    startClear tm src areas d = endEr 3 d := (if_neg life).trans (if_pos perm)

/-- CLEAR of the circulating area alone begins with its record. -/
theorem startClear_begins {src : Src} (life : d.sg.lc ≠ .returned) (chip : d.er.bogOnly = false) (chains : d.er.chains = [])
    (room : (d.er.queue.filter (·.spare)).length < 4) :
    ∃ x, x.code = 0xC3 ∧ startClear tm src 1 d =
      { d with er := { d.er with queue := d.er.queue ++ [x], nextId := d.er.nextId + 1, busy := true, clearAreas := 1 } } := by
  obtain ⟨x, code, pushed⟩ := pushEvent_end (tm := tm) (code := 0xC3)
    ([byte (1 : BitVec 4).toNat, byte (srcCode src), 0, 0] ++ leBytes 4 d.er.head.toNat) rfl room
  refine ⟨x, code, ?_⟩
  unfold startClear
  rw [if_neg life, if_neg (by decide), if_neg (by simp), if_neg (by simp [chip]), endChains_of_none chains, pushed]
  rfl

theorem selectRecord_on_chip {areas : BitVec 4} (chip : areas.getLsbD 2 = false) :
    selectRecord nv areas d = selectEnds 0 (selectOnChip nv areas d) d := if_neg (Bool.eq_false_iff.mp chip)

/-- What SELECT shows: a record that it found with its area, or else none. -/
theorem selectEnds_shows (found : Option (Nat × List Byte)) : ∃ er, selectEnds 0 found d = { d with er := er } ∧ er.result = 0 ∧
    er.found = found.isSome ∧ (∀ area bs, found = some (area, bs) → er.rd = bs ∧ er.area = BitVec.ofNat 3 area) ∧
    er.queue = d.er.queue := by
  cases found with
  | none => exact ⟨_, rfl, rfl, rfl, fun _ _ h => (nomatch h), rfl⟩
  | some x =>
    refine ⟨_, rfl, rfl, rfl, fun area bs h => ?_, rfl⟩
    cases h
    exact ⟨rfl, rfl⟩

/-! ### ER.CMD (R425) -/

end

section
variable {src : Src} {s : State} {least : Level} {f : State → State}

theorem erCommand_of_denied (low : may s.dev src least = false) (none : may s.dev src .none = true) :
    erCommand src least f s = s.onDev fun d => { d with er := { d.er with result := 2 } } :=
  (if_neg (Bool.eq_false_iff.mp low)).trans (if_pos none)

theorem erCommand_of_busy (level : may s.dev src least = true) (busy : s.dev.er.busy = true) :
    erCommand src least f s = s.onDev fun d => { d with er := { d.er with result := 1 } } :=
  (if_pos level).trans (if_pos busy)

theorem erCommand_of_free (level : may s.dev src least = true) (free : s.dev.er.busy = false) :
    erCommand src least f s = f s :=
  (if_pos level).trans (if_neg (Bool.eq_false_iff.mp free))

variable (reached : Reaches src .running s) (w : Word)
include reached

theorem erRow_of_denied (low : may s.dev src least = false) :
    rowWrite src 0x940A w .running (writeCommand (fun d => may d src least) (erCommand src least f)) s =
      Wrote src 0x940A 0x04 (fun d => { d with er := { d.er with result := 2 } }) s := by
  have denied := erCommand_of_denied (f := f) (s := rowStarts src 0x940A s) ((rowStarts_may ..).trans low)
    ((rowStarts_may ..).trans (may_none_of_late (by decide) reached))
  rw [rowWrite_of_reaches reached, writeCommand, denied, rowStarts_may, low]
  rfl

theorem erRow_of_busy (level : may s.dev src least = true) (busy : s.dev.er.busy = true) :
    rowWrite src 0x940A w .running (writeCommand (fun d => may d src least) (erCommand src least f)) s =
      Wrote src 0x940A 0 (fun d => { d with er := { d.er with result := 1 } }) s := by
  have refused := erCommand_of_busy (f := f) (s := rowStarts src 0x940A s) ((rowStarts_may ..).trans level) (by simpa using busy)
  rw [rowWrite_of_reaches reached, writeCommand, refused, rowStarts_may, level]
  rfl

theorem erRow_of_free (level : may s.dev src least = true) (free : s.dev.er.busy = false) :
    rowWrite src 0x940A w .running (writeCommand (fun d => may d src least) (erCommand src least f)) s =
      (f (rowStarts src 0x940A s)).onDev (rowEnds src 0x940A 0) := by
  have taken := erCommand_of_free (f := f) (s := rowStarts src 0x940A s) ((rowStarts_may ..).trans level) (by simpa using free)
  rw [rowWrite_of_reaches reached, writeCommand, taken, rowStarts_may, level]
  rfl

theorem erRow_of_onDev {f : State → Device → Device} (level : may s.dev src least = true) (free : s.dev.er.busy = false) :
    rowWrite src 0x940A w .running (writeCommand (fun d => may d src least) (erCommand src least fun t => t.onDev (f t))) s =
      Wrote src 0x940A 0 (f (rowStarts src 0x940A s)) s :=
  erRow_of_free reached w level free

omit reached in
@[simp] theorem rowStarts_selectOnChip (a : Addr) (nv : NonVol) (areas : BitVec 4) :
    selectOnChip nv areas (rowStarts src a s).dev = selectOnChip nv areas s.dev := by
  simp [selectOnChip]

end

/-- Settles O50: the write of the oldest event, the chains, and ER.CMD. -/
theorem eventsRecorded : Obligations.EventsRecorded := by
  refine ⟨fun s empty chip => ?_, fun x xs st addr s queue may numbers chip clock idle jobs place => ?_,
    fun j s current programs other chip numbers place => ?_, fun s => ⟨_, rfl, ?_, ?_⟩,
    fun src areas s reached => ⟨fun low => ?_, fun high busy c mem => ?_⟩, fun src s level reached free => ?_,
    fun src areas s level reached free life => ⟨fun perm => ?_, fun circ chip chains room => ?_⟩,
    fun src areas s level reached free chip => ?_⟩
  · exact exec_eventRecordWrite (writeEvent_of_empty empty) chip
  · exact ⟨_, _, _, exec_eventRecordWrite (writeEvent_starts queue may numbers chip clock idle jobs place) chip, rfl, rfl,
      resolveSeq_length .., eventBytes_seq, _, rfl, rfl⟩
  · exact exec_eventRecordWrite (writeEvent_waits current programs other chip numbers place) chip
  · intro c mem
    rw [endChains_chains, List.mem_filter] at mem
    simpa using mem.2
  · intro c mem recent
    rw [endChains_chains, List.mem_filter]
    exact ⟨mem, by simpa using recent⟩
  · exact congrArg Host.Outcome.next (erRow_of_denied reached _ low)
  · simp only [List.mem_cons, List.not_mem_nil, or_false] at mem
    rcases mem with rfl | rfl | rfl
    · exact congrArg Host.Outcome.next (erRow_of_busy reached _ (may_of_higher high (by decide)) busy)
    · exact congrArg Host.Outcome.next (erRow_of_busy reached _ high busy)
    · exact congrArg Host.Outcome.next (erRow_of_busy reached _ (may_of_higher high (by decide)) busy)
  · obtain ⟨er, set, tgen, unset, result, seqNext⟩ := timeSet_eq (tm := s.tm) (d := (rowStarts src 0x940A s).dev) src
    rw [rowStarts_er] at set tgen seqNext
    refine ⟨er, congrArg Host.Outcome.next ((erRow_of_free reached _ level free).trans ?_), tgen, unset, result, seqNext⟩
    rw [rowStarts_tm, set]
    rfl
  · refine ⟨(endEr 3 s.dev).er, congrArg Host.Outcome.next ((erRow_of_onDev reached _ level free).trans (wrote_congr ?_ 0)),
      rfl, rfl, rfl⟩
    rw [startClear_of_permanent (by simpa using life) perm, endEr, rowStarts_er]
    rfl
  · subst circ
    obtain ⟨x, code, begun⟩ := startClear_begins (tm := (rowStarts src 0x940A s).tm) (src := src) (d := (rowStarts src 0x940A s).dev)
      (by simpa using life) (by simpa using chip) (by simpa using chains) (by simpa using room)
    rw [rowStarts_er] at begun
    refine ⟨_, x, congrArg Host.Outcome.next ((erRow_of_onDev reached _ level free).trans (wrote_congr begun 0)), ?_, ?_, ?_, code⟩
    · rfl
    · rfl
    · rfl
  · obtain ⟨er, shown, result, found, record, queue⟩ :=
      selectEnds_shows (d := (rowStarts src 0x940A s).dev) (selectOnChip s.nv areas s.dev)
    refine ⟨er, congrArg Host.Outcome.next ((erRow_of_onDev reached _ level free).trans (wrote_congr ?_ 0)), result, found, record,
      queue.trans (by simp)⟩
    rw [selectRecord_on_chip chip, rowStarts_nv, rowStarts_selectOnChip]
    exact shown

end Sys2Proof.Machine
end

section
/-! SUPPORT. The archive (R16, R416 to R420, R425): what its pump keeps, the commands of BOG.CMD, and the ends of its operations. -/

namespace Sys2Proof.Machine

section
variable {tm : TimeBase} {nv : NonVol} {d : Device}

/-! ### The archive goes on -/

/-- An archive without the operation in progress and what belongs to that. -/
def Bog.still (b : Bog) : Bog := { b with op := none, resume := none, plan := none, tries := 0, out := [] }

/-- A capture buffer without the copy that it waits for or makes. -/
def Capture.still (c : Capture) : Capture := { c with copying := false, copyDue := false }

/-- The archive's next operation starts, or a CLEAR ends that it cannot serve; nothing else changes. -/
theorem bogPump_eq (tm : TimeBase) (d : Device) : ∃ bog er cap, bogPump tm d = { d with bog := bog, er := er, cap := cap } ∧
    bog.still = d.bog.still ∧ cap.still = d.cap.still := by
  unfold bogPump
  split
  · exact ⟨_, _, _, rfl, rfl, rfl⟩
  · split
    · split
      · exact ⟨_, _, _, rfl, rfl, rfl⟩
      · exact ⟨_, _, _, rfl, rfl, rfl⟩
    · split
      · exact ⟨_, _, _, rfl, rfl, rfl⟩
      · split
        · exact ⟨_, _, _, rfl, rfl, rfl⟩
        · split
          · exact ⟨_, _, _, rfl, rfl, rfl⟩
          · exact ⟨_, _, _, rfl, rfl, rfl⟩

theorem raiseBog_eq (event device block detail : Nat) (d : Device) :
    raiseBog tm event device block detail d = { d with er := (raiseBog tm event device block detail d).er } := rfl

/-! ### The commands of BOG.CMD (R425) -/

theorem bogCommand_of_busy (busy : d.bog.cmdBusy = true ∨ d.bog.op ≠ none) (f : Device → Device) :
    bogCommand f d = { d with bog := { d.bog with result := 1 } } := by
  refine if_pos (Bool.or_eq_true_iff.mpr (busy.imp_right fun op => ?_))
  exact Option.isSome_iff_ne_none.mpr op

theorem bogCommand_of_free (free : d.bog.cmdBusy = false) (idle : d.bog.op = none) (f : Device → Device) : bogCommand f d = f d :=
  if_neg (by simp [free, idle])

end

section
variable {src : Src} {s : State} {least : Level} {w : Word} {f : TimeBase → NonVol → Device → Device} {g : Device → Device}
variable (reached : Reaches src .store s)
include reached

theorem bogRow_of_denied (low : may s.dev src least = false) :
    (.next (rowWrite src 0x9801 w .store (actBog src least f) s) : Answer) =
      .next (Wrote src 0x9801 0x04 (fun d => { d with bog := { d.bog with result := 2 } }) s) :=
  commandRow_as reached (if_neg (by simp [low])) (byLevelOr_of_none ((rowStarts_may ..).trans low)
    ((rowStarts_may ..).trans (may_none_of_late (by decide) reached)))

theorem bogRow_of_level (level : may s.dev src least = true)
    (does : f s.tm s.nv (rowStarts src 0x9801 s).dev = g (rowStarts src 0x9801 s).dev) :
    (.next (rowWrite src 0x9801 w .store (actBog src least f) s) : Answer) = .next (Wrote src 0x9801 0 g s) := by
  refine commandRow_as reached (if_pos ((rowStarts_may ..).trans level)) ?_
  rw [byLevelOr_of_level ((rowStarts_may ..).trans level), rowStarts_tm, rowStarts_nv]
  exact does

/-- A command of the archive while another is in progress. -/
theorem bogRow_of_busy {f : TimeBase → NonVol → Device → Device} (level : may s.dev src least = true)
    (busy : s.dev.bog.cmdBusy = true ∨ s.dev.bog.op ≠ none) :
    (.next (rowWrite src 0x9801 w .store (actBog src least fun tm nv => bogCommand (f tm nv)) s) : Answer) =
      .next (Wrote src 0x9801 0 (fun d => { d with bog := { d.bog with result := 1 } }) s) :=
  bogRow_of_level reached level (bogCommand_of_busy (by simpa using busy) _)

theorem bogRow_of_free (level : may s.dev src least = true) (free : s.dev.bog.cmdBusy = false) (idle : s.dev.bog.op = none)
    (does : f s.tm s.nv (rowStarts src 0x9801 s).dev = g (rowStarts src 0x9801 s).dev) :
    (.next (rowWrite src 0x9801 w .store (actBog src least fun tm nv => bogCommand (f tm nv)) s) : Answer) =
      .next (Wrote src 0x9801 0 g s) :=
  bogRow_of_level reached level ((bogCommand_of_free (by simpa using free) (by simpa using idle) _).trans does)

end

@[simp] theorem rowStarts_logWaiting (src : Src) (a : Addr) (s : State) (nv : NonVol) :
    logWaiting nv (rowStarts src a s).dev = logWaiting nv s.dev := by
  simp [logWaiting, logFrom]

/-- The commands of BOG.CMD are refused alike. -/
theorem bogOps_refused {src : Src} {block part : BitVec 24} {op : BitVec 3} {s : State} (reached : Reaches src .store s)
    (x : Instr × Level) (mem : x ∈ bogOps src block part op) :
    (may s.dev src x.2 = false → exec x.1 s =
      .next (Wrote src 0x9801 0x04 (fun d => { d with bog := { d.bog with result := 2 } }) s)) ∧
    (may s.dev src x.2 = true → s.dev.bog.cmdBusy = true ∨ s.dev.bog.op ≠ none → exec x.1 s =
      .next (Wrote src 0x9801 0 (fun d => { d with bog := { d.bog with result := 1 } }) s)) := by
  rw [bogOps, List.mem_append] at mem
  rcases mem with mem | mem
  · simp only [List.mem_cons, List.not_mem_nil, or_false] at mem
    rcases mem with rfl | rfl | rfl | rfl | rfl
    · exact ⟨bogRow_of_denied reached, bogRow_of_busy reached⟩
    · exact ⟨bogRow_of_denied reached, bogRow_of_busy reached⟩
    · exact ⟨bogRow_of_denied reached, bogRow_of_busy reached⟩
    · exact ⟨bogRow_of_denied reached, bogRow_of_busy reached⟩
    · exact ⟨bogRow_of_denied reached, bogRow_of_busy reached⟩
  · split at mem
    · exact absurd mem (by simp)
    · next unlisted =>
      obtain rfl := List.mem_singleton.mp mem
      have row : exec (.bogBadOp src op) s = .next (rowWrite src 0x9801 (word op.toNat) .store (actBogBad src) s) :=
        congrArg Host.Outcome.next (if_neg unlisted)
      exact ⟨fun low => row.trans (bogRow_of_denied reached low), fun level busy => row.trans (bogRow_of_busy reached level busy)⟩

/-! ### What each command does -/

section
variable {src : Src} {block part : BitVec 24} {op : BitVec 3} {s : State} (reached : Reaches src .store s)
  (level : may s.dev src .engineer = true) (free : s.dev.bog.cmdBusy = false) (idle : s.dev.bog.op = none)
include reached level free idle

theorem exec_discover : exec (.discover src) s = .next (Wrote src 0x9801 0 (fun d => { d with bog := { d.bog with
    cmdBusy := true, state := .discovering, op := some (.discover s.dev.bog.state), tries := 0 } }) s) := by
  refine bogRow_of_free (f := fun _ _ d => startDiscover { d with bog := { d.bog with cmdBusy := true } }) reached level free idle ?_
  rw [startDiscover, rowStarts_bog]

theorem exec_format (formats : s.dev.bog.state = .ready ∨ s.dev.bog.state = .foreign) : ∃ bog, exec (.format src) s =
    .next (Wrote src 0x9801 0 (fun d => { d with bog := bog }) s) ∧ bog.cmdBusy = true ∧ bog.op = some .format ∧
    bog.out.length = 2 ∧ bog.remaps = s.dev.bog.remaps ∧ bog.pct = s.dev.bog.pct := by
  refine ⟨_, bogRow_of_free reached level free idle (if_pos (by simpa using formats)), rfl, rfl, rfl, ?_, ?_⟩
  · exact (congrArg Bog.remaps (rowStarts_bog src 0x9801 s) :)
  · exact (congrArg Bog.pct (rowStarts_bog src 0x9801 s) :)

theorem exec_format_of_other (ready : s.dev.bog.state ≠ .ready) (foreign : s.dev.bog.state ≠ .foreign) :
    exec (.format src) s = .next (Wrote src 0x9801 0 (BogEnded 4) s) :=
  bogRow_of_free reached level free idle (if_neg (by simp [ready, foreign]))

theorem exec_detach_of_other (ready : s.dev.bog.state ≠ .ready) :
    exec (.detach src) s = .next (Wrote src 0x9801 0 (BogEnded 4) s) :=
  bogRow_of_free reached level free idle (if_pos (by simpa using ready))

theorem exec_detach (ready : s.dev.bog.state = .ready) (none : logWaiting s.nv s.dev = []) : ∃ er, exec (.detach src) s =
    .next (Wrote src 0x9801 0 (fun d => { BogEnded 0 d with
      er := er, bog := { (BogEnded 0 d).bog with state := .detached } }) s) := by
  refine ⟨(raiseBog s.tm 2 0 0 0 (rowStarts src 0x9801 s).dev).er, bogRow_of_free reached level free idle ?_⟩
  exact (if_neg (by simpa using ready)).trans (if_pos (by simp [none]))

theorem exec_readBlock_of_other (ready : s.dev.bog.state ≠ .ready) :
    exec (.readBlock src block) s = .next (Wrote src 0x9801 0 (BogEnded 4) s) :=
  bogRow_of_free reached (may_of_higher level (by decide)) free idle (if_pos (by simpa using ready))

theorem exec_readBlock_of_beyond (ready : s.dev.bog.state = .ready) (beyond : bogTotal s.dev.bog ≤ block.toNat) :
    exec (.readBlock src block) s = .next (Wrote src 0x9801 0 (BogEnded 5) s) :=
  bogRow_of_free reached (may_of_higher level (by decide)) free idle
    ((if_neg (by simpa using ready)).trans (if_pos (by simpa using beyond)))

theorem exec_readBlock (ready : s.dev.bog.state = .ready) (within_ : block.toNat < bogTotal s.dev.bog) :
    exec (.readBlock src block) s =
      .next (Wrote src 0x9801 0 (fun d => { d with bog := { d.bog with cmdBusy := true, op := some .readBlock } }) s) :=
  bogRow_of_free reached (may_of_higher level (by decide)) free idle
    ((if_neg (by simpa using ready)).trans (if_neg (by simpa using within_)))

theorem exec_readCapbuf_of_beyond (beyond : 31 < part.toNat) :
    exec (.readCapbuf src part) s = .next (Wrote src 0x9801 0 (BogEnded 5) s) :=
  bogRow_of_free reached (may_of_higher level (by decide)) free idle (if_pos beyond)

theorem exec_readCapbuf (within_ : part.toNat ≤ 31) : ∃ data, exec (.readCapbuf src part) s =
    .next (Wrote src 0x9801 0 (fun d => { BogEnded 0 d with bog := { (BogEnded 0 d).bog with rbuf := data } }) s) ∧
    data.length = 4096 := by
  refine ⟨_, bogRow_of_free reached (may_of_higher level (by decide)) free idle ((if_neg (Nat.not_lt.mpr within_)).trans rfl), ?_⟩
  rw [List.length_map, List.length_range]

theorem exec_bogBadOp (unlisted : ¬ (1 ≤ op.toNat ∧ op.toNat ≤ 5)) :
    exec (.bogBadOp src op) s = .next (Wrote src 0x9801 0 (BogEnded 6) s) :=
  (congrArg Host.Outcome.next (if_neg unlisted)).trans
    (bogRow_of_free (f := fun _ _ => endBog 6) reached level free idle rfl)

end

/-! ### Log blocks (R418, R419), and what the flash answers -/

section
variable {tm : TimeBase} {nv : NonVol} {d : Device}

theorem writeLogBlock_pauses (h : d.bog.state ≠ .ready ∨ d.bog.op ≠ none ∨ supRunning tm d = false) :
    writeLogBlock tm nv d = d := by
  refine if_pos (h.imp_right (Or.imp (fun op => Option.isSome_iff_ne_none.mpr op) fun stopped => ?_))
  rw [stopped]; rfl

/-- FLUSH has passed since the oldest waiting record. -/
theorem writeLogBlock_flushes {t0 : Nat} (ready : d.bog.state = .ready) (idle : d.bog.op = none) (runs : supRunning tm d = true)
    (oldest : d.bog.oldest = some t0) (due : t0 + flushOf d.bog * 800000000 ≤ tm.time.toNat) :
    writeLogBlock tm nv d = startLog tm nv false d := by
  unfold writeLogBlock
  simp [ready, idle, runs, oldest, due]

theorem startLog_eq (waiting : logWaiting nv d ≠ []) : ∃ last er bog, startLog tm nv false d = { d with er := er, bog := bog } ∧
    bog.op = some (.log ((logWaiting nv d).take 126) last false) ∧ bog.out.length = 1 := by
  unfold startLog
  dsimp only
  split
  · next none =>
    have empty := List.getLast?_eq_none_iff.mp none
    exact absurd (List.take_eq_nil_iff.mp empty) (by simp [waiting])
  · next last _ =>
    split
    · exact ⟨_, _, _, rfl, rfl, rfl⟩
    · exact ⟨_, _, _, rfl, rfl, rfl⟩

theorem archiveEnd_of_none (r : ArchiveResult) (h : d.bog.op = none ∨ supRunning tm d = false) : archiveEnd tm nv r d = d := by
  unfold archiveEnd
  rcases h with idle | stopped
  · rw [idle]
    split
    · rfl
    · rfl
  · rw [stopped]
    rfl

theorem archiveEnd_discovered {was : BogState} (runs : supRunning tm d = true) (op : d.bog.op = some (.discover was))
    (d0 d1 : Option FlashInfo) (c : Option ControlInfo) :
    archiveEnd tm nv (.discovered d0 d1 c) d = discovered tm d0 d1 c d := by
  unfold archiveEnd
  rw [runs, op]
  rfl

/-- Discovery that finds no flash. -/
theorem discovered_none (c : Option ControlInfo) : discovered tm none none c d = { d with bog := { d.bog with
    op := none, out := [], state := .absent, present := 0, blocks := bankFill 2 0, mfr := bankFill 2 0, quad := bankFill 2 false
    cmdBusy := false, result := if d.bog.cmdBusy then 5 else d.bog.result } } := by
  have taken : takeFlash none none { d.bog with op := none, out := [] } = { d.bog with
      op := none, out := [], present := 0, blocks := bankFill 2 0, mfr := bankFill 2 0, quad := bankFill 2 false } := by
    have fill {α : Type} (v : α) : bankOf (fun _ : Fin 2 => v) = bankFill 2 v := bank_ext fun i => by simp
    simp [takeFlash, fill, bit]
  have result : byte (if d.bog.cmdBusy then 5 else d.bog.result.toNat) = if d.bog.cmdBusy then 5 else d.bog.result := by
    split
    · rfl
    · exact BitVec.ofNat_toNat ..
  unfold discovered
  rw [taken]
  simp [endBog, result]

theorem archiveEnd_readBlock (runs : supRunning tm d = true) (op : d.bog.op = some .readBlock) (bs : List Byte) :
    (archiveEnd tm nv (.bytes bs) d).bog.rbuf = slice bs 0 4096 ∧ (archiveEnd tm nv (.bytes bs) d).bog.cmdBusy = false ∧
      (archiveEnd tm nv (.bytes bs) d).bog.result = 0 := by
  have ended : archiveEnd tm nv (.bytes bs) d =
      bogPump tm (endBog 0 { d with bog := { d.bog with op := none, rbuf := slice bs 0 4096 } }) := by
    unfold archiveEnd
    rw [runs, op]
    rfl
  obtain ⟨bog, er, cap, pumped, kept, -⟩ := bogPump_eq tm (endBog 0 { d with bog := { d.bog with op := none, rbuf := slice bs 0 4096 } })
  rw [ended, pumped]
  exact ⟨(congrArg Bog.rbuf kept :), (congrArg Bog.cmdBusy kept :), (congrArg Bog.result kept :)⟩

theorem archiveEnd_format (runs : supRunning tm d = true) (op : d.bog.op = some .format) :
    let t := archiveEnd tm nv .done d
    t.bog.state = .ready ∧ t.bog.logHead = 0 ∧ t.bog.logTail = 0 ∧ t.bog.capParts = [] ∧ t.bog.result = 0 := by
  have ended : archiveEnd tm nv .done d = formatted tm d := by
    unfold archiveEnd
    rw [runs, op]
    rfl
  dsimp only
  rw [ended, formatted]
  obtain ⟨bog, er, cap, pumped, kept, -⟩ := bogPump_eq tm (endBog 0 (raiseBog tm 4 0 0 0 { d with bog := settleBog { takePlan d.bog with
    op := none
    out := []
    state := .ready
    bseq := d.bog.bseq + 2
    logHead := 0
    logTail := 0
    capParts := [] } }))
  rw [pumped]
  exact ⟨(congrArg Bog.state kept :), (congrArg Bog.logHead kept :), (congrArg Bog.logTail kept :), (congrArg Bog.capParts kept :),
    (congrArg Bog.result kept :)⟩

end

/-- Settles O51: the refusals, the commands, the log's blocks, and the flash's answers. -/
theorem archiveWorks : Obligations.ArchiveWorks := by
  refine ⟨fun src block part op s reached => bogOps_refused reached, fun src block part op s reached level free idle => ?_,
    fun s h => ?_, fun t0 s ready idle runs oldest due waiting => ?_, fun r s h => ?_, fun was c s runs op => ?_,
    fun bs s runs op => ?_, fun s runs op => ?_⟩
  · exact ⟨exec_discover reached level free idle, exec_format reached level free idle, exec_format_of_other reached level free idle,
      fun other => ⟨exec_detach_of_other reached level free idle other, exec_readBlock_of_other reached level free idle other⟩,
      exec_detach reached level free idle, exec_readBlock_of_beyond reached level free idle,
      exec_readBlock reached level free idle, exec_readCapbuf_of_beyond reached level free idle,
      exec_readCapbuf reached level free idle, exec_bogBadOp reached level free idle⟩
  · exact next_of_dev (writeLogBlock_pauses h)
  · obtain ⟨last, er, bog, started, op, out⟩ := startLog_eq (tm := s.tm) waiting
    exact ⟨_, _, last, next_of_dev ((writeLogBlock_flushes ready idle runs oldest due).trans started), op, rfl, out, rfl, rfl⟩
  · exact next_of_dev (archiveEnd_of_none r h)
  · exact next_of_dev ((archiveEnd_discovered runs op none none c).trans (discovered_none c))
  · exact ⟨_, rfl, archiveEnd_readBlock runs op bs⟩
  · exact ⟨_, rfl, archiveEnd_format runs op⟩

end Sys2Proof.Machine
end

section
/-! SUPPORT. The capture buffer (R16, R421, R422). -/

namespace Sys2Proof.Machine

section
variable {tm : TimeBase} {d : Device}

/-! ### ARM, STOP and TRIGGER -/

theorem capArm_of_free (open_ : d.cap.state = .stopped ∨ d.cap.state = .frozen) (idle : d.cap.copying = false) :
    capArm d = { d with cap := { rearm d.cap with copyDue := false } } :=
  if_pos ⟨open_, by simp [idle]⟩

theorem capArm_of_busy (h : d.cap.state = .armed ∨ d.cap.state = .post ∨ d.cap.copying = true) : capArm d = d := by
  refine if_neg fun both => ?_
  obtain ⟨open_, idle⟩ := both
  rcases h with h | h | h
  · simp [h] at open_
  · simp [h] at open_
  · simp [h] at idle

theorem captureTrigger_of_armed (armed : d.cap.state = .armed) (index : Nat) :
    captureTrigger tm .host index d = { d with
      cap := { d.cap with
        state := .post, postLeft := d.cap.len.toNat - d.cap.pre.toNat, lastId := d.cap.lastId + 1, trigTime := tm.cal
        trigger := 4, trigIndex := BitVec.ofNat 16 index }
      bog := { d.bog with intStatus := setBit d.bog.intStatus 3 }
      er := (captureTrigger tm .host index d).er } := by
  unfold captureTrigger
  rw [armed]
  rfl

theorem captureTrigger_of_frozen (frozen : d.cap.state = .frozen) (index : Nat) :
    captureTrigger tm .host index d = { d with cap := { d.cap with missed := d.cap.missed + 1 } } := by
  unfold captureTrigger
  rw [frozen]
  rfl

/-! ### Samples -/

theorem takeSample_of_armed (h : d.cap.state = .armed) :
    takeSample tm d = { d with cap := { d.cap with samples := (capRow d :: d.cap.samples).take d.cap.pre.toNat } } := by
  unfold takeSample
  dsimp only
  rw [h]

theorem takeSample_of_post (h : d.cap.state = .post) (more : 2 ≤ d.cap.postLeft) : takeSample tm d = { d with cap := { d.cap with
    samples := (capRow d :: d.cap.samples).take d.cap.len.toNat, postLeft := d.cap.postLeft - 1 } } := by
  unfold takeSample
  dsimp only
  rw [h]
  exact if_neg (by omega)

/-- The last sample freezes the buffer, which waits for its copy. -/
theorem takeSample_of_last (h : d.cap.state = .post) (last : d.cap.postLeft = 1) : takeSample tm d = bogPump tm { d with
    cap := { d.cap with
      state := .frozen, samples := (capRow d :: d.cap.samples).take d.cap.len.toNat, postLeft := 0, copyDue := true } } := by
  unfold takeSample
  dsimp only
  rw [h]
  dsimp only
  rw [last]
  exact if_pos rfl

theorem takeSample_of_idle (h : d.cap.state = .stopped ∨ d.cap.state = .frozen) : takeSample tm d = d := by
  unfold takeSample
  dsimp only
  rcases h with h | h
  · rw [h]
  · rw [h]

/-! ### The end of the copy -/

theorem copyComplete_of_other (h : d.bog.op ≠ some .capture ∨ supRunning tm d = false) : copyComplete tm d = d := if_pos h

theorem copyComplete_frozen (op : d.bog.op = some .capture) (runs : supRunning tm d = true) (frozen : d.cap.state = .frozen) :
    let t := copyComplete tm d
    t.cap.state = (if d.cap.autoRearm then .armed else .frozen) ∧
    (d.bog.out.length ≤ d.bog.capBlocks.toNat → t.bog.capParts.getLast? = some d.bog.out.length) ∧
    t.bog.bseq = d.bog.bseq + BitVec.ofNat 32 d.bog.out.length ∧ t.rails = d.rails := by
  intro t
  have ended : t = copyComplete tm d := rfl
  unfold copyComplete at ended
  rw [if_neg (by simp [op, runs])] at ended
  dsimp only at ended
  obtain ⟨bog, er, cap, pumped, keptBog, keptCap⟩ := bogPump_eq tm _
  rw [pumped] at ended
  rw [ended]
  refine ⟨?_, fun fits => ?_, (congrArg Bog.bseq keptBog :), rfl⟩
  · refine (congrArg Capture.state keptCap :).trans ?_
    show (ite _ _ _ : Capture).state = _
    simp only [frozen, true_and]
    split
    · rfl
    · rfl
  · refine (congrArg (fun b : Bog => b.capParts.getLast?) keptBog :).trans ?_
    show (ite _ _ _ : List Nat).getLast? = _
    rw [if_pos fits, List.getLast?_concat]

end

/-- Settles O52: the writes of BOG.CAP, the samples by the state of the buffer, and the end of a copy. -/
theorem captureWorks : Obligations.CaptureWorks := by
  refine ⟨fun src s reached level => ⟨fun open_ idle => ?_, fun busy => ?_, ?_, fun armed => ?_, fun frozen => ?_⟩,
    fun s armed => next_of_dev (takeSample_of_armed armed), fun s post more => next_of_dev (takeSample_of_post post more),
    fun s post last => ?_, fun s idle => next_of_dev (takeSample_of_idle idle), fun s h => next_of_dev (copyComplete_of_other h),
    fun s op runs frozen => ⟨_, rfl, copyComplete_frozen op runs frozen⟩⟩
  · refine ⟨s.dev.cap.wiped && s.dev.cap.samples.isEmpty,
      engineerRow_as (f := fun _ _ => capArm) reached level ((capArm_of_free (by simpa using open_) (by simpa using idle)).trans ?_)⟩
    rw [rearm, rowStarts_cap]
  · exact engineerRow_as (f := fun _ _ => capArm) reached level (capArm_of_busy (by simpa using busy))
  · exact engineerRow_as (f := fun _ _ => capStop) reached level rfl
  · exact ⟨_, engineerRow_as (f := fun tm _ => captureTrigger tm .host 0) reached level (captureTrigger_of_armed (by simpa using armed) 0)⟩
  · exact engineerRow_as (f := fun tm _ => captureTrigger tm .host 0) reached level
      (captureTrigger_of_frozen (by simpa using frozen) 0)
  · obtain ⟨bog, er, cap, pumped, -, kept⟩ := bogPump_eq s.tm { s.dev with cap := { s.dev.cap with
      state := .frozen, samples := (capRow s.dev :: s.dev.cap.samples).take s.dev.cap.len.toNat, postLeft := 0, copyDue := true } }
    exact ⟨_, next_of_dev ((takeSample_of_last post last).trans pumped), (congrArg Capture.state kept :),
      (congrArg Capture.samples kept :), rfl, rfl⟩

end Sys2Proof.Machine
end

section
/-! SUPPORT. Firmware slots (R366, R367, R370, Table 14-9): the moves of a slot, the commands of FW.CMD, the trial, the ends of the code
flash's operations, and FW.DATA. -/

namespace Sys2Proof.Machine

/-! ### A slot takes a state (R371) -/

section
variable {tm : TimeBase} {op : Nat} {k : Fin 2} {p : SlotPhase} {x : NonVol × Device} {d : Device}

theorem fin2_ne_other (k : Fin 2) : k ≠ 1 - k := by revert k; decide

theorem bankSet_eq_self {n : Nat} {α : Type} (b : Bank n α) (i : Fin n) : bankSet b i (bankGet b i) = b :=
  bank_ext fun j => by
    rw [bankGet_bankSet]
    split
    · next same => rw [same]
    · rfl

theorem bankSet_bankSet {n : Nat} {α : Type} (b : Bank n α) (i : Fin n) (v w : α) : bankSet (bankSet b i v) i w = bankSet b i w :=
  bank_ext fun j => by
    simp only [bankGet_bankSet]
    split
    · rfl
    · rfl

/-- The slot has the state, nothing else of the memories changes, and the recorder takes the event. -/
theorem moveCode_eq (tm : TimeBase) (op : Nat) (k : Fin 2) (p : SlotPhase) (x : NonVol × Device) : ∃ er,
    moveCode tm op k p x =
      ({ x.1 with code := bankSet x.1.code k { bankGet x.1.code k with phase := p } }, { x.2 with er := er }) := by
  unfold moveCode
  dsimp only
  split
  · next same =>
    subst same
    exact ⟨x.2.er, by rw [bankSet_eq_self]⟩
  · exact ⟨_, rfl⟩

/-- A trial that is open ends with REJECTED, and the supervisor starts again. -/
theorem rejectTrial_eq (trial : fwTrial x.1 = some k) (tm : TimeBase) (op : Nat) : ∃ er boot, rejectTrial tm op x =
    ({ x.1 with code := bankSet x.1.code k { bankGet x.1.code k with phase := .rejected } },
      bootInto boot { x.2 with er := er, fw := { x.2.fw with trialAt := none } }) := by
  obtain ⟨er, moved⟩ := moveCode_eq tm op k .rejected x
  unfold rejectTrial
  rw [trial]
  dsimp only
  rw [moved]
  exact ⟨er, _, rfl⟩

theorem phase_of_trial {nv : NonVol} (trial : fwTrial nv = some k) : (bankGet nv.code k).phase = .trial :=
  of_decide_eq_true (List.find?_some (p := fun i => decide ((bankGet nv.code i).phase = .trial)) trial)

@[simp] theorem rowEnds_fw (src : Src) (a : Addr) (st : Byte) (d : Device) : (rowEnds src a st d).fw = d.fw := by
  obtain ⟨_, _, _, _, h, -⟩ := rowEnds_sameButAccess src a st d; rw [h]

end

/-! ### FW.CMD (R367, R370) -/

section
variable {src : Src} {s : State} {l : Level} {f : TimeBase → NonVol × Device → NonVol × Device}

theorem mayEarly_none_of_reaches {win : Window} (h : Reaches src win s) : mayEarly s.dev src .none = true := by
  cases src with
  | sup => rfl
  | port p =>
    have reach : reaches s.dev (.port p) = true := (Bool.and_eq_true_iff.mp h.1).1
    simp [mayEarly, Level.rank, reach]

theorem fwCommand_of_denied {x : NonVol × Device} (none : mayEarly x.2 src .none = true)
    (h : mayEarly x.2 src .engineer = false ∨ lifeAllows x.2 = false) (f : NonVol × Device → NonVol × Device) :
    fwCommand src f x = (x.1, { x.2 with fw := { x.2.fw with result := FwResult.denied.code } }) := by
  refine (if_neg (by simp [none])).trans (if_pos ?_)
  rcases h with h | h
  · simp [h]
  · simp [h]

theorem fwCommand_of_privilege {x : NonVol × Device} (none : mayEarly x.2 src .none = true) (level : mayEarly x.2 src .engineer = true)
    (life : lifeAllows x.2 = true) (f : NonVol × Device → NonVol × Device) : fwCommand src f x =
      if x.2.fw.busy then (x.1, { x.2 with fw := { x.2.fw with result := FwResult.busy.code } })
      else if x.2.pwr.mode = .standby then (x.1, { x.2 with fw := { x.2.fw with result := FwResult.power.code } })
      else f x :=
  (if_neg (by simp [none])).trans (if_neg (by simp [level, life]))

variable (reached : Reaches src .early s)
include reached

/-- A command of FW.CMD, told by what it does with the memories and the device in which its write has begun. -/
theorem fwRow_to {w : Word} {st : Byte} {y : NonVol × Device}
    (shown : (if commissionsEarly src (rowStarts src 0x300 s).dev then 0 else stDenied) = st)
    (does : fwCommand src (f s.tm) (s.nv, (rowStarts src 0x300 s).dev) = y) :
    (.next (rowWrite src 0x300 w .early (actFw src f) s) : Answer) =
      .next { s with nv := y.1, dev := rowEnds src 0x300 st y.2 } := by
  rw [rowWrite_of_reaches reached]
  subst does shown
  simp [actFw, writeCommand, onStores, State.onDev]

/-- A command of FW.CMD that changes the device alone. -/
theorem fwRow_as {w : Word} {st : Byte} {g : Device → Device}
    (shown : (if commissionsEarly src (rowStarts src 0x300 s).dev then 0 else stDenied) = st)
    (does : fwCommand src (f s.tm) (s.nv, (rowStarts src 0x300 s).dev) = (s.nv, g (rowStarts src 0x300 s).dev)) :
    (.next (rowWrite src 0x300 w .early (actFw src f) s) : Answer) = .next (Wrote src 0x300 st g s) := by
  rw [fwRow_to reached shown does, wrote_eq]

theorem fwRow_of_denied (h : mayEarly s.dev src .engineer = false ∨ lifeAllows s.dev = false) (w : Word) :
    (.next (rowWrite src 0x300 w .early (actFw src f) s) : Answer) =
      .next (Wrote src 0x300 0x04 (fun d => { d with fw := { d.fw with result := FwResult.denied.code } }) s) := by
  refine fwRow_as reached (if_neg ?_) (fwCommand_of_denied (by simpa using mayEarly_none_of_reaches reached) (by simpa using h) _)
  rcases h with h | h
  · simp [commissionsEarly, h]
  · simp [commissionsEarly, h]

variable (level : mayEarly s.dev src .engineer = true) (life : lifeAllows s.dev = true)
include level life

theorem fwCommand_row (f : NonVol × Device → NonVol × Device) : fwCommand src f (s.nv, (rowStarts src 0x300 s).dev) =
    if s.dev.fw.busy then (s.nv, { (rowStarts src 0x300 s).dev with fw := { s.dev.fw with result := FwResult.busy.code } })
    else if s.dev.pwr.mode = .standby then
      (s.nv, { (rowStarts src 0x300 s).dev with fw := { s.dev.fw with result := FwResult.power.code } })
    else f (s.nv, (rowStarts src 0x300 s).dev) := by
  rw [fwCommand_of_privilege (by simpa using mayEarly_none_of_reaches reached) (by simpa using level) (by simpa using life)]
  simp only [rowStarts_fw, rowStarts_pwr]

omit reached in
theorem commissionsEarly_row : (if commissionsEarly src (rowStarts src 0x300 s).dev then 0 else stDenied) = (0 : Byte) :=
  if_pos (by simp [commissionsEarly, level, life])

theorem fwRow_of_busy (busy : s.dev.fw.busy = true) (w : Word) :
    (.next (rowWrite src 0x300 w .early (actFw src f) s) : Answer) =
      .next (Wrote src 0x300 0 (fun d => { d with fw := { d.fw with result := FwResult.busy.code } }) s) := by
  refine fwRow_as reached (commissionsEarly_row level life) ?_
  rw [fwCommand_row reached level life, busy, rowStarts_fw]
  rfl

theorem fwRow_of_standby (free : s.dev.fw.busy = false) (standby : s.dev.pwr.mode = .standby) (w : Word) :
    (.next (rowWrite src 0x300 w .early (actFw src f) s) : Answer) =
      .next (Wrote src 0x300 0 (fun d => { d with fw := { d.fw with result := FwResult.power.code } }) s) := by
  refine fwRow_as reached (commissionsEarly_row level life) ?_
  rw [fwCommand_row reached level life, free, if_neg Bool.false_ne_true, if_pos standby, rowStarts_fw]

end

section
variable {src : Src} {s : State} {f : TimeBase → NonVol × Device → NonVol × Device} (h : FwFree src s)
include h

/-- A command of FW.CMD that is taken. -/
theorem fwRow_of_free {w : Word} {y : NonVol × Device} (does : f s.tm (s.nv, (rowStarts src 0x300 s).dev) = y) :
    (.next (rowWrite src 0x300 w .early (actFw src f) s) : Answer) =
      .next { s with nv := y.1, dev := rowEnds src 0x300 0 y.2 } := by
  obtain ⟨reached, level, life, free, mode⟩ := h
  refine fwRow_to reached (commissionsEarly_row level life) ?_
  rw [fwCommand_row reached level life, free, if_neg Bool.false_ne_true, if_neg mode, does]

theorem fwRow_of_free_as {w : Word} {g : Device → Device}
    (does : f s.tm (s.nv, (rowStarts src 0x300 s).dev) = (s.nv, g (rowStarts src 0x300 s).dev)) :
    (.next (rowWrite src 0x300 w .early (actFw src f) s) : Answer) = .next (Wrote src 0x300 0 g s) := by
  rw [fwRow_of_free h does, wrote_eq]

end

/-- The commands of FW.CMD are turned away alike. -/
theorem fwOps_row {src : Src} {k : Fin 2} {op : BitVec 3} {c : Instr} (mem : c ∈ fwOps src k op) (s : State) :
    ∃ w f, exec c s = .next (rowWrite src 0x300 w .early (actFw src f) s) := by
  rw [fwOps, List.mem_append] at mem
  rcases mem with mem | mem
  · simp only [List.mem_cons, List.not_mem_nil, or_false] at mem
    rcases mem with rfl | rfl | rfl | rfl | rfl
    · exact ⟨_, _, rfl⟩
    · exact ⟨_, _, rfl⟩
    · exact ⟨_, _, rfl⟩
    · exact ⟨_, _, rfl⟩
    · exact ⟨_, _, rfl⟩
  · split at mem
    · exact absurd mem (by simp)
    · next unlisted =>
      obtain rfl := List.mem_singleton.mp mem
      exact ⟨_, _, congrArg Host.Outcome.next (if_neg unlisted)⟩

/-! ### What each command does -/

/-- CONFIRM: the trial slot is CONFIRMED; the other may be REJECTED, and the minimum SVN may be raised. -/
theorem fwConfirm_of_trial {tm : TimeBase} {nv : NonVol} {d : Device} {k : Fin 2} (trial : fwTrial nv = some k) : ∃ code er ocs,
    fwConfirm tm (nv, d) = ({ nv with code := code }, endFw .ok { d with ocs := ocs, er := er, fw := { d.fw with trialAt := none } }) ∧
      (bankGet code k).phase = .confirmed := by
  obtain ⟨er, moved⟩ := moveCode_eq tm 4 k .confirmed (nv, d)
  unfold fwConfirm
  dsimp only
  rw [trial]
  dsimp only
  rw [moved]
  generalize raised : (if svnMin _ < _ then storePump _ (addJob _ _) else _ : Device) = e
  obtain ⟨ocs, kept⟩ : ∃ ocs, e = { d with er := er, ocs := ocs, fw := { d.fw with trialAt := none } } := by
    subst raised
    split
    · obtain ⟨ocs, pumped, -⟩ := storePump_eq _ (addJob _ _)
      exact ⟨ocs, pumped⟩
    · exact ⟨_, rfl⟩
  subst kept
  split
  · obtain ⟨er', moved'⟩ := moveCode_eq tm 4 (1 - k) .rejected
      ({ nv with code := bankSet nv.code k { bankGet nv.code k with phase := .confirmed } },
        { d with er := er, ocs := ocs, fw := { d.fw with trialAt := none } })
    refine ⟨_, er', ocs, congrArg (fun x : NonVol × Device => (x.1, endFw .ok x.2)) moved', ?_⟩
    rw [bankGet_bankSet_other _ _ (fin2_ne_other k).symm, bankGet_bankSet_same]
  · exact ⟨_, er, ocs, rfl, congrArg CodeSlot.phase (bankGet_bankSet_same ..)⟩

section
variable {src : Src} {k : Fin 2} {s : State} (h : FwFree src s)
include h

theorem exec_fwErase (unused : s.dev.fw.running ≠ k ∨ s.dev.fw.nosup = true) (spare : (bankGet s.nv.code k).phase ≠ .confirmed) :
    exec (.fwErase src k) s = .next (Wrote src 0x300 0 (fun d =>
      { d with fw := { d.fw with busy := true, op := some (.erase k) } }) s) := by
  refine fwRow_of_free_as h (if_neg ?_)
  rcases unused with unused | unused
  · simp [unused, spare]
  · simp [unused, spare]

theorem exec_fwSeal (empty : (bankGet s.nv.code k).phase = .empty) : exec (.fwSeal src k) s = .next (Wrote src 0x300 0 (fun d =>
    { d with fw := { d.fw with busy := true, op := some (.seal k) } }) s) :=
  fwRow_of_free_as h (if_neg (by simp [empty]))

theorem exec_fwSeal_of_filled (filled : (bankGet s.nv.code k).phase ≠ .empty) :
    exec (.fwSeal src k) s = .next (Wrote src 0x300 0 (FwEnded .state) s) :=
  fwRow_of_free_as h (if_pos filled)

/-- SWITCH puts a WRITTEN slot on trial, and resets the supervisor into it. -/
theorem exec_switch (written : (bankGet s.nv.code k).phase = .written)
    (confirmed : (bankGet s.nv.code s.dev.fw.running).phase = .confirmed) (none : fwTrial s.nv = none) :
    ∃ t, exec (.switch src k) s = .next t ∧ t.pending = s.pending ∧ t.tm = s.tm ∧ (bankGet t.nv.code k).phase = .trial ∧
      bankGet t.nv.code (1 - k) = bankGet s.nv.code (1 - k) ∧ t.nv.flash = s.nv.flash ∧ t.dev.fw.running = k ∧
      t.dev.fw.supReset = true ∧ t.dev.fw.trialAt = some s.tm.us.toNat ∧ t.dev.fw.result = 0 ∧ t.dev.rails = s.dev.rails := by
  obtain ⟨er, moved⟩ := moveCode_eq s.tm 3 k .trial (s.nv, (rowStarts src 0x300 s).dev)
  have does : fwSwitch s.tm k (s.nv, (rowStarts src 0x300 s).dev) = _ :=
    (if_neg (by simp [written, confirmed, none])).trans (by rw [moved])
  refine ⟨_, fwRow_of_free h does, rfl, rfl, ?_, bankGet_bankSet_other _ _ (fin2_ne_other k), rfl, ?_, ?_, ?_, ?_, ?_⟩
  · exact congrArg CodeSlot.phase (bankGet_bankSet_same ..)
  · simp [endFw, addCause, bootInto]
  · simp [endFw, addCause, bootInto, supervisorReset]
  · simp [endFw, addCause, bootInto, supervisorReset]
  · simp [endFw, addCause, bootInto, FwResult.code]
  · simp [endFw, addCause, bootInto, supervisorReset]

theorem exec_fwConfirm (trial : fwTrial s.nv = some k) : ∃ t, exec (.fwConfirm src) s = .next t ∧ t.pending = s.pending ∧
    t.tm = s.tm ∧ (bankGet t.nv.code k).phase = .confirmed ∧ t.dev.fw.trialAt = none ∧ t.dev.fw.result = 0 ∧
    t.dev.fw.supReset = s.dev.fw.supReset ∧ t.dev.rails = s.dev.rails := by
  obtain ⟨code, er, ocs, does, phase⟩ := fwConfirm_of_trial (tm := s.tm) (d := (rowStarts src 0x300 s).dev) trial
  refine ⟨_, fwRow_of_free h does, rfl, rfl, phase, ?_, ?_, ?_, ?_⟩
  · simp [endFw]
  · simp [endFw, FwResult.code]
  · simp [endFw]
  · simp [endFw]

theorem exec_fwRollback (trial : fwTrial s.nv = some k) : ∃ t, exec (.fwRollback src) s = .next t ∧ t.pending = s.pending ∧
    t.tm = s.tm ∧ (bankGet t.nv.code k).phase = .rejected ∧ t.dev.fw.trialAt = none ∧ t.dev.fw.supReset = true ∧
    t.dev.fw.result = 0 ∧ t.dev.rails = s.dev.rails := by
  obtain ⟨er, boot, rejected⟩ := rejectTrial_eq (x := (s.nv, (rowStarts src 0x300 s).dev)) trial s.tm 5
  have does : fwRollback s.tm (s.nv, (rowStarts src 0x300 s).dev) = _ := (if_neg (by simp [trial])).trans (by rw [rejected])
  refine ⟨_, fwRow_of_free h does, rfl, rfl, congrArg CodeSlot.phase (bankGet_bankSet_same ..), ?_, ?_, ?_, ?_⟩
  · simp [endFw, addCause, bootInto, supervisorReset]
  · simp [endFw, addCause, bootInto, supervisorReset]
  · simp [endFw, addCause, bootInto, FwResult.code]
  · simp [endFw, addCause, bootInto, supervisorReset]

theorem exec_fwConfirm_of_none (none : fwTrial s.nv = none) : exec (.fwConfirm src) s = .next (Wrote src 0x300 0 (FwEnded .state) s) := by
  refine fwRow_of_free_as h ?_
  unfold fwConfirm
  rw [none]
  rfl

theorem exec_fwRollback_of_none (none : fwTrial s.nv = none) :
    exec (.fwRollback src) s = .next (Wrote src 0x300 0 (FwEnded .state) s) :=
  fwRow_of_free_as h (if_pos (by simp [none]))

theorem exec_fwBadOp {op : BitVec 3} (unlisted : ¬ (1 ≤ op.toNat ∧ op.toNat ≤ 5)) :
    exec (.fwBadOp src op) s = .next (Wrote src 0x300 0 (FwEnded .badOp) s) :=
  (congrArg Host.Outcome.next (if_neg unlisted)).trans (fwRow_of_free_as h rfl)

end

/-! ### The trial's time -/

section
variable {tm : TimeBase} {k : Fin 2} {t0 : Nat} {nv : NonVol} {d : Device} {s : State}

theorem fwTrialTimeout_of_early (at_ : d.fw.trialAt = some t0) (early : tm.us.toNat < t0 + trialSeconds d * 1000000) :
    fwTrialTimeout tm (nv, d) = (nv, d) := by
  unfold fwTrialTimeout
  rw [at_]
  exact if_neg (Nat.not_le.mpr early)

theorem fwTrialTimeout_of_late (at_ : d.fw.trialAt = some t0) (late : t0 + trialSeconds d * 1000000 ≤ tm.us.toNat) :
    fwTrialTimeout tm (nv, d) = ((rejectTrial tm 5 (nv, d)).1, addCause 7 (rejectTrial tm 5 (nv, d)).2) := by
  unfold fwTrialTimeout
  rw [at_]
  exact if_pos late

theorem exec_fwTrialTimeout (trial : fwTrial s.nv = some k) (at_ : s.dev.fw.trialAt = some t0)
    (late : t0 + trialSeconds s.dev * 1000000 ≤ s.tm.us.toNat) : ∃ t, exec .fwTrialTimeout s = .next t ∧ t.pending = s.pending ∧
    t.tm = s.tm ∧ (bankGet t.nv.code k).phase = .rejected ∧ t.dev.fw.trialAt = none ∧ t.dev.fw.supReset = true := by
  obtain ⟨er, boot, rejected⟩ := rejectTrial_eq (x := (s.nv, s.dev)) trial s.tm 5
  refine ⟨_, congrArg (fun x : NonVol × Device => (Host.Outcome.next { s with nv := x.1, dev := x.2 } : Answer))
    ((fwTrialTimeout_of_late at_ late).trans (by rw [rejected])), rfl, rfl, congrArg CodeSlot.phase (bankGet_bankSet_same ..), rfl, rfl⟩

/-! ### The ends of the code flash's operations -/

theorem codeFlashEnd_of_none (idle : d.fw.op = none) : codeFlashEnd tm (nv, d) = (nv, d) := by
  unfold codeFlashEnd
  rw [idle]

theorem exec_codeFlashEnd {x : NonVol × Device} (does : codeFlashEnd s.tm (s.nv, s.dev) = x) :
    exec .codeFlashOperationEnd s = .next { s with nv := x.1, dev := x.2 } :=
  congrArg (fun x : NonVol × Device => (Host.Outcome.next { s with nv := x.1, dev := x.2 } : Answer)) does

theorem codeFlashEnd_erase (op : d.fw.op = some (.erase k)) : ∃ er, codeFlashEnd tm (nv, d) =
    ({ nv with code := bankSet nv.code k ⟨.empty, 0, 0, [], false⟩ },
      endFw .ok { d with er := er, fw := { d.fw with fillSlot := some k } }) := by
  obtain ⟨er, moved⟩ := moveCode_eq tm 1 k .empty (nv, d)
  unfold codeFlashEnd
  rw [op]
  dsimp only
  rw [moved]
  exact ⟨er, by rw [bankSet_bankSet]⟩

/-- SEAL ends with the check that failed. -/
theorem codeFlashEnd_seal_of_failed {r : FwResult} (op : d.fw.op = some (.seal k)) (check : sealCheck (svnMin d) (bankGet nv.code k) = r)
    (failed : r ≠ .ok) : codeFlashEnd tm (nv, d) = (nv, FwEnded r d) := by
  unfold codeFlashEnd
  rw [op]
  dsimp only
  rw [check]
  cases r with
  | ok => exact absurd rfl failed
  | header | signature | compat | svn | hash | state | busy | denied | badOp | power => rfl

/-- SEAL that passes its checks: the slot is WRITTEN, with the version and the SVN of its header. -/
theorem codeFlashEnd_seal_of_ok (op : d.fw.op = some (.seal k)) (check : sealCheck (svnMin d) (bankGet nv.code k) = .ok) :
    ∃ er version svn, codeFlashEnd tm (nv, d) =
      ({ nv with code := bankSet nv.code k { bankGet nv.code k with phase := .written, version := version, svn := svn } },
        endFw .ok { d with er := er, fw := { d.fw with fillSlot := none } }) := by
  obtain ⟨er, moved⟩ := moveCode_eq tm 2 k .written ({ nv with code := bankSet nv.code k { bankGet nv.code k with
    version := word (leAt (codeBytes (bankGet nv.code k) 0 128) 0x0C 4)
    svn := word (leAt (codeBytes (bankGet nv.code k) 0 128) 0x10 4) } }, d)
  unfold codeFlashEnd
  rw [op]
  dsimp only
  rw [check]
  dsimp only
  rw [moved]
  refine ⟨er, word (leAt (codeBytes (bankGet nv.code k) 0 128) 0x0C 4), word (leAt (codeBytes (bankGet nv.code k) 0 128) 0x10 4), ?_⟩
  dsimp only
  rw [bankSet_bankSet, bankGet_bankSet_same]

end

/-! ### FW.DATA (R367) -/

/-- Bytes ANDed into a memory one after the other, from the place `off + n` on. -/
def andBytes (off : Nat) (bs : List Byte) (n : Nat) (m : List Host.Cell) : List Host.Cell :=
  (bs.zipIdx n).foldl (fun m b => cellsSet m (off + b.2) (cellsGet m (off + b.2) &&& b.1)) m

theorem andBytes_cons (off : Nat) (c : Byte) (bs : List Byte) (n : Nat) (m : List Host.Cell) :
    andBytes off (c :: bs) n m = andBytes off bs (n + 1) (cellsSet m (off + n) (cellsGet m (off + n) &&& c)) := by
  rw [andBytes, List.zipIdx_cons, List.foldl_cons]
  rfl

/-- Each byte goes into its own place, and no other place changes. -/
theorem andBytes_get (off : Nat) (bs : List Byte) (n : Nat) (m : List Host.Cell) (wf : cellsWf m = true) :
    (∀ i b, bs[i]? = some b → cellsGet (andBytes off bs n m) (off + n + i) = cellsGet m (off + n + i) &&& b) ∧
      ∀ a, a < off + n ∨ off + n + bs.length ≤ a → cellsGet (andBytes off bs n m) a = cellsGet m a := by
  induction bs generalizing n m with
  | nil => exact ⟨fun i b at_ => absurd at_ (by simp), fun _ _ => rfl⟩
  | cons c bs ih =>
    obtain ⟨inside, outside⟩ := ih (n + 1) (cellsSet m (off + n) (cellsGet m (off + n) &&& c)) (cellsWf_cellsSet _ _ wf)
    rw [andBytes_cons]
    refine ⟨fun i b at_ => ?_, fun a out => ?_⟩
    · cases i with
      | zero =>
        obtain rfl : c = b := by simpa using at_
        rw [Nat.add_zero (off + n), outside (off + n) (by omega), cellsGet_cellsSet _ wf, if_pos rfl]
      | succ i =>
        have other : off + (n + 1) + i ≠ off + n := by omega
        rw [show off + n + (i + 1) = off + (n + 1) + i by omega, inside i b (by simpa using at_), cellsGet_cellsSet _ wf,
          if_neg other]
    · rw [List.length_cons] at out
      have other : a ≠ off + n := by omega
      rw [outside a (by omega), cellsGet_cellsSet _ wf, if_neg other]

theorem writeFwData_of_fill {data : Word} {nv : NonVol} {d : Device} {k : Fin 2} (fill : d.fw.fillSlot = some k)
    (empty : (bankGet nv.code k).phase = .empty) (free : d.fw.busy = false) (fits : d.fw.dataAddr.toNat / 4 * 4 + 3 < 524288) :
    writeFwData data (nv, d) = ({ nv with code := bankSet nv.code k { bankGet nv.code k with
        bytes := andBytes (d.fw.dataAddr.toNat / 4 * 4) (leBytes 4 data.toNat) 0 (bankGet nv.code k).bytes } },
      { d with fw := { d.fw with dataAddr := BitVec.ofNat 20 (d.fw.dataAddr.toNat / 4 * 4 + 4) } }) := by
  unfold writeFwData
  dsimp only
  rw [fill]
  dsimp only
  rw [empty, free, if_neg (by simp; omega)]
  rfl

theorem leBytes_four_getElem (v : Nat) {i : Nat} (h : i < 4) : (leBytes 4 v)[i]? = some (byte (v / 256 ^ i)) := by
  match i, h with
  | 0, _ => simp [leBytes, byte]
  | 1, _ => simp [leBytes, byte]
  | 2, _ => simp [leBytes, byte, Nat.div_div_eq_div_mul]
  | 3, _ => simp [leBytes, byte, Nat.div_div_eq_div_mul]

section
variable {src : Src} {data : Word} {s : State} (reached : Reaches src .early s) (level : mayEarly s.dev src .engineer = true)
  (life : lifeAllows s.dev = true)
include reached level life

theorem exec_fwData {y : NonVol × Device} (does : writeFwData data (s.nv, (rowStarts src 0x30B s).dev) = y) :
    exec (.fwDataWrite src data) s = .next { s with nv := y.1, dev := rowEnds src 0x30B 0 y.2 } := by
  refine congrArg Host.Outcome.next ((rowWrite_of_reaches reached _ _ _).trans ?_)
  subst does
  rw [actFwData, writeState_of_allowed (by simp [commissionsEarly, level, life])]
  simp [onStores, State.onDev]

/-- Without an ERASE before it, FW.DATA moves its address alone. -/
theorem exec_fwData_of_none (none : s.dev.fw.fillSlot = none) : exec (.fwDataWrite src data) s = .next (Wrote src 0x30B 0 (fun d =>
    { d with fw := { d.fw with dataAddr := BitVec.ofNat 20 (s.dev.fw.dataAddr.toNat / 4 * 4 + 4) } }) s) := by
  have does : writeFwData data (s.nv, (rowStarts src 0x30B s).dev) = (s.nv, { (rowStarts src 0x30B s).dev with
      fw := { s.dev.fw with dataAddr := BitVec.ofNat 20 (s.dev.fw.dataAddr.toNat / 4 * 4 + 4) } }) := by
    simp [writeFwData, none]
  rw [exec_fwData reached level life does, wrote_eq, rowStarts_fw]

theorem exec_fwData_of_fill {k : Fin 2} {i : Nat} (fill : s.dev.fw.fillSlot = some k) (empty : (bankGet s.nv.code k).phase = .empty)
    (free : s.dev.fw.busy = false) (fits : s.dev.fw.dataAddr.toNat / 4 * 4 + 3 < 524288)
    (wf : cellsWf (bankGet s.nv.code k).bytes = true) (hi : i < 4) : ∃ t, exec (.fwDataWrite src data) s = .next t ∧
      cellsGet (bankGet t.nv.code k).bytes (s.dev.fw.dataAddr.toNat / 4 * 4 + i) =
        cellsGet (bankGet s.nv.code k).bytes (s.dev.fw.dataAddr.toNat / 4 * 4 + i) &&& byte (data.toNat / 256 ^ i) ∧
      (∀ a, a < s.dev.fw.dataAddr.toNat / 4 * 4 ∨ s.dev.fw.dataAddr.toNat / 4 * 4 + 4 ≤ a →
        cellsGet (bankGet t.nv.code k).bytes a = cellsGet (bankGet s.nv.code k).bytes a) ∧
      t.nv.flash = s.nv.flash ∧ t.pending = s.pending := by
  have does := writeFwData_of_fill (data := data) (nv := s.nv) (d := (rowStarts src 0x30B s).dev) (k := k) (by simpa using fill) empty
    (by simpa using free) (by simpa using fits)
  rw [rowStarts_fw] at does
  obtain ⟨inside, outside⟩ := andBytes_get (s.dev.fw.dataAddr.toNat / 4 * 4) (leBytes 4 data.toNat) 0 _ wf
  refine ⟨_, exec_fwData reached level life does, ?_, fun a out => ?_, rfl, rfl⟩
  · exact (congrArg (fun c : CodeSlot => cellsGet c.bytes _) (bankGet_bankSet_same ..)).trans
      (inside i _ (leBytes_four_getElem data.toNat hi))
  · exact (congrArg (fun c : CodeSlot => cellsGet c.bytes a) (bankGet_bankSet_same ..)).trans (outside a out)

end

/-- Settles O47: the refusals, the commands, the trial's time, the ends of ERASE and SEAL, and FW.DATA. -/
theorem firmwareSlots : Obligations.FirmwareSlots := by
  refine ⟨fun src k op s reached c mem => ?_, fun src k s h => ?_, fun k t0 s trial at_ => ⟨fun early => ?_, ?_⟩, fun s idle => ?_,
    fun k s op => ?_, fun k s op => ⟨fun r check failed => ?_, ?_⟩, fun src data s reached level life => ⟨?_, ?_⟩⟩
  · obtain ⟨w, f, row⟩ := fwOps_row mem s
    exact ⟨fun low => row.trans (fwRow_of_denied reached low w), fun level life busy => row.trans (fwRow_of_busy reached level life busy w),
      fun level life free standby => row.trans (fwRow_of_standby reached level life free standby w)⟩
  · exact ⟨exec_fwErase h, exec_fwSeal h, exec_fwSeal_of_filled h, exec_switch h, exec_fwConfirm h, exec_fwRollback h,
      fun none => ⟨exec_fwConfirm_of_none h none, exec_fwRollback_of_none h none⟩, fun op => exec_fwBadOp h⟩
  · exact congrArg (fun x : NonVol × Device => (Host.Outcome.next { s with nv := x.1, dev := x.2 } : Answer))
      (fwTrialTimeout_of_early at_ early)
  · exact exec_fwTrialTimeout trial at_
  · exact exec_codeFlashEnd (codeFlashEnd_of_none idle)
  · obtain ⟨er, does⟩ := codeFlashEnd_erase (tm := s.tm) (nv := s.nv) op
    exact ⟨_, exec_codeFlashEnd does, bankGet_bankSet_same .., bankGet_bankSet_other _ _ (fin2_ne_other k), rfl, rfl, rfl, rfl, rfl⟩
  · exact exec_codeFlashEnd (codeFlashEnd_seal_of_failed op check failed)
  · by_cases check : sealCheck (svnMin s.dev) (bankGet s.nv.code k) = .ok
    · obtain ⟨er, version, svn, does⟩ := codeFlashEnd_seal_of_ok (tm := s.tm) op check
      refine ⟨_, exec_codeFlashEnd does, rfl, rfl, rfl, rfl, ?_, ?_, bankGet_bankSet_other _ _ (fin2_ne_other k), ?_⟩
      · rw [check]; rfl
      · dsimp only
        rw [bankGet_bankSet_same]
      · dsimp only
        rw [if_pos check, bankGet_bankSet_same]
    · exact ⟨_, exec_codeFlashEnd (codeFlashEnd_seal_of_failed op rfl check), rfl, rfl, rfl, rfl, rfl, rfl, rfl, (if_neg check).symm⟩
  · exact exec_fwData_of_none reached level life
  · intro k i fill empty free fits wf hi
    exact exec_fwData_of_fill reached level life fill empty free fits wf hi

end Sys2Proof.Machine
end

section
/-! SUPPORT. Power states (R361, R363, R364, Tables 14-5 and 14-6): PWR.CMD, quadrants in SMOULDER, and waking. -/

namespace Sys2Proof.Machine

/-! ### What the end of an access leaves -/

@[simp] theorem rowEnds_clk (src : Src) (a : Addr) (st : Byte) (d : Device) : (rowEnds src a st d).clk = d.clk := by
  obtain ⟨_, _, _, _, h, -⟩ := rowEnds_sameButAccess src a st d; rw [h]
@[simp] theorem rowEnds_pwr (src : Src) (a : Addr) (st : Byte) (d : Device) : (rowEnds src a st d).pwr = d.pwr := by
  obtain ⟨_, _, _, _, h, -⟩ := rowEnds_sameButAccess src a st d; rw [h]
@[simp] theorem rowEnds_hs (src : Src) (a : Addr) (st : Byte) (d : Device) : (rowEnds src a st d).hs = d.hs := by
  obtain ⟨_, _, _, _, h, -⟩ := rowEnds_sameButAccess src a st d; rw [h]

/-! ### What a result and an event of the power states leave -/

section
variable (r : PowerResult) (tm : TimeBase) (was is cause : Nat) (d : Device)

@[simp] theorem endPower_pwr : (endPower r d).pwr = { d.pwr with result := r.code } := rfl
@[simp] theorem endPower_clk : (endPower r d).clk = d.clk := rfl
@[simp] theorem endPower_lane (n : Fin 64) : (endPower r d).lane n = d.lane n := rfl
@[simp] theorem endPower_rails : (endPower r d).rails = d.rails := rfl
@[simp] theorem endPower_hs : (endPower r d).hs = d.hs := rfl
@[simp] theorem endPower_slots : (endPower r d).slots = d.slots := rfl
@[simp] theorem raisePower_pwr : (raisePower tm was is cause d).pwr = d.pwr := rfl
@[simp] theorem raisePower_clk : (raisePower tm was is cause d).clk = d.clk := rfl
@[simp] theorem raisePower_lane (n : Fin 64) : (raisePower tm was is cause d).lane n = d.lane n := rfl
@[simp] theorem raisePower_rails : (raisePower tm was is cause d).rails = d.rails := rfl
@[simp] theorem raisePower_hs : (raisePower tm was is cause d).hs = d.hs := rfl
@[simp] theorem raisePower_slots : (raisePower tm was is cause d).slots = d.slots := rfl

end

/-! ### PWR.CMD (Table 14-1) -/

section
variable {src : Src} {least : Level} {s : State} {f : State → State} {d : Device}

theorem mayEarly_of_lower (h : srcLevel d src < least.rank) : mayEarly d src least = false := by
  have low : ¬ least.rank ≤ srcLevel d src := Nat.not_le.mpr h
  simp [mayEarly, low]

variable (reached : Reaches src .early s) (w : Word)
include reached

theorem powerRow_of_denied (low : mayEarly s.dev src least = false) :
    rowWrite src 0x120 w .early (writeCommand (fun d => mayEarly d src least) (powerCommand src least f)) s =
      PowerWrote src 0x04 .denied s := by
  have none := mayEarly_none_of_reaches reached
  have refused : powerCommand src least f (rowStarts src 0x120 s) = (rowStarts src 0x120 s).onDev (endPower .denied) :=
    (if_neg (by simp [low])).trans (if_pos (by simp [none]))
  rw [rowWrite_of_reaches reached, writeCommand, refused, rowStarts_mayEarly, low]
  rfl

theorem powerRow_of_level (level : mayEarly s.dev src least = true) :
    rowWrite src 0x120 w .early (writeCommand (fun d => mayEarly d src least) (powerCommand src least f)) s =
      (f (rowStarts src 0x120 s)).onDev (rowEnds src 0x120 0) := by
  have taken : powerCommand src least f (rowStarts src 0x120 s) = f (rowStarts src 0x120 s) := if_pos (by simp [level])
  rw [rowWrite_of_reaches reached, writeCommand, taken, rowStarts_mayEarly, level]
  rfl

/-- A power command that does with the device in which its write has begun what `g` does. -/
theorem powerRow_as {g : Device → Device} (level : mayEarly s.dev src least = true)
    (does : f (rowStarts src 0x120 s) = (rowStarts src 0x120 s).onDev g) :
    rowWrite src 0x120 w .early (writeCommand (fun d => mayEarly d src least) (powerCommand src least f)) s =
      Wrote src 0x120 0 g s := by
  rw [powerRow_of_level reached w level, does, Wrote]

end

/-- Each power command needs its level. -/
theorem powerOps_denied {src : Src} {q : Fin 4} {s : State} (reached : Reaches src .early s) (x : Instr × Level)
    (mem : x ∈ powerOps src q) (low : srcLevel s.dev src < x.2.rank) : exec x.1 s = .next (PowerWrote src 0x04 .denied s) := by
  simp only [powerOps, List.mem_cons, List.not_mem_nil, or_false] at mem
  rcases mem with rfl | rfl | rfl | rfl | rfl
  · exact congrArg Host.Outcome.next (powerRow_of_denied reached _ (mayEarly_of_lower low))
  · exact congrArg Host.Outcome.next (powerRow_of_denied reached _ (mayEarly_of_lower low))
  · exact congrArg Host.Outcome.next (powerRow_of_denied reached _ (mayEarly_of_lower low))
  · exact congrArg Host.Outcome.next (powerRow_of_denied reached _ (mayEarly_of_lower low))
  · exact congrArg Host.Outcome.next (powerRow_of_denied reached _ (mayEarly_of_lower low))

/-! ### RUN and TRIM (R361) -/

section
variable {tm : TimeBase} {now : Nat} {d : Device} {q : Fin 4}

theorem wakeLane_asleep {n k : Fin 64} (h : k = n ∨ (d.lane k).asleep = false) : ((wakeLane now n d).lane k).asleep = false := by
  by_cases same : n = k
  · subst same
    rw [wakeLane, Device.onLane_lane]
    split
    · rfl
    · next awake => exact Bool.eq_false_iff.mpr awake
  · rw [wakeLane, Device.onLane_lane_other _ _ same]
    exact h.resolve_left fun e => same e.symm

theorem wakeLanes_asleep {k : Fin 64} (l : List (Fin 64)) (h : k ∈ l ∨ (d.lane k).asleep = false) :
    ((l.foldl (fun d n => wakeLane now n d) d).lane k).asleep = false := by
  induction l generalizing d with
  | nil => exact h.resolve_left (by simp)
  | cons n l ih =>
    refine ih ?_
    rw [List.mem_cons, or_assoc, or_left_comm] at h
    exact h.imp_right wakeLane_asleep

/-- As TRIM ends, every lane's receiver is woken. -/
theorem leaveTrim_asleep (now : Nat) (d : Device) (n : Fin 64) : ((leaveTrim now d).lane n).asleep = false :=
  wakeLanes_asleep _ (.inl (List.mem_finRange n))

theorem leaveTrim_pwr (now : Nat) (d : Device) : (leaveTrim now d).pwr = { d.pwr with mode := .run } :=
  foldl_pwr (fun _ _ => Device.onLane_pwr ..) _ _

theorem leaveTrim_clk (now : Nat) (d : Device) : (leaveTrim now d).clk = d.clk :=
  foldl_keeps Device.clk (fun _ _ => Device.onLane_clk ..) _ _

theorem enterTrim_of_run (run : d.pwr.mode = .run) (light : d.img.loadRun.toNat ≤ 4500) :
    enterTrim tm d = { d with
      pwr := { d.pwr with mode := .trim, result := 0 }
      er := (raisePower tm 0 1 0 { d with pwr := { d.pwr with mode := .trim, result := 0 } }).er } := by
  unfold enterTrim
  rw [run]
  exact if_neg (Nat.not_lt.mpr light)

theorem enterTrim_of_load (run : d.pwr.mode = .run) (heavy : 4500 < d.img.loadRun.toNat) : enterTrim tm d = endPower .load d := by
  unfold enterTrim
  rw [run]
  exact if_pos heavy

/-! ### STANDBY (R363) -/

theorem settleBus_eq (b : Fin 2) (d : Device) : ∃ pp, settleBus b d = { d with pp := pp } := by
  unfold settleBus autoRecover
  dsimp only
  split
  · exact ⟨_, rfl⟩
  · exact ⟨_, rfl⟩

theorem stopClocks_eq (d : Device) : ∃ pp, stopClocks d = { d with
    pwr := { d.pwr with mode := .standby }
    clk := { d.clk with trim := false, qclk := bankFill 4 false, lclkOn := false, eclkOn := false, sclkOn := false }
    lanes := bankMap d.lanes fun _ l => { l with queue := [], sending := none, asleep := false, line := lineOff l.line }
    pp := pp } := by
  obtain ⟨pp, first⟩ := settleBus_eq 0 { d with
    pwr := { d.pwr with mode := .standby }
    clk := { d.clk with trim := false, qclk := bankFill 4 false, lclkOn := false, eclkOn := false, sclkOn := false }
    lanes := bankMap d.lanes fun _ l => { l with queue := [], sending := none, asleep := false, line := lineOff l.line } }
  obtain ⟨pp', second⟩ := settleBus_eq 1 _
  exact ⟨pp', (congrArg (settleBus 1) first).trans second⟩

/-! ### Quadrants (Table 14-6) -/

@[simp] theorem phaseGone_pwr (r : Fin 64) (d : Device) : (phaseGone r d).pwr = d.pwr := Device.onRail_pwr ..

@[simp] theorem quadGone_pwr (q : Fin 4) (d : Device) : (quadGone q d).pwr = d.pwr := by
  refine foldl_pwr (fun d r => ?_) _ d
  split
  · exact phaseGone_pwr r d
  · rfl

@[simp] theorem stopCalibration_pwr (g : Fin 512) (d : Device) : (stopCalibration g d).pwr = d.pwr := by
  unfold stopCalibration
  split
  · rfl
  · dsimp only
    split
    · exact (sendStop_pwr ..).trans (Device.onSlot_pwr ..)
    · exact Device.onSlot_pwr ..

/-- A quadrant that is stopped waits no longer; nothing else of the power states changes. -/
theorem stopQuadrant_pwr (tm : TimeBase) (q : Fin 4) (d : Device) :
    (stopQuadrant tm q d).pwr = { d.pwr with entering := bankSet d.pwr.entering q none } := by
  unfold stopQuadrant
  dsimp only
  refine (foldl_pwr (fun d g => ?_) _ _).trans (foldl_pwr (fun d n => Device.onLane_pwr ..) _ _)
  split
  · split
    · simp
    · simp
  · exact stopCalibration_pwr g d

theorem settleSmoulder_smoulder (tm : TimeBase) (d : Device) : (settleSmoulder tm d).pwr.smoulder = d.pwr.smoulder ∧
    (settleSmoulder tm d).pwr.result = d.pwr.result := by
  have kept := foldl_keeps (fun d : Device => (d.pwr.smoulder, d.pwr.result))
    (f := fun d q => if (bankGet d.pwr.entering q).isSome && !quadPlaced d q then stopQuadrant tm q d else d) (fun d q => by
      split
      · rw [stopQuadrant_pwr]
      · rfl) (List.finRange 4) d
  exact Prod.mk.inj kept

theorem smoulderQuadrant_of_smoulder (h : bankGet d.pwr.smoulder q = true) : smoulderQuadrant tm q d = endPower .ok d := if_pos h

theorem smoulderQuadrant_enters (h : bankGet d.pwr.smoulder q = false) :
    (smoulderQuadrant tm q d).pwr.smoulder = bankSet d.pwr.smoulder q true ∧ (smoulderQuadrant tm q d).pwr.result = 0 := by
  unfold smoulderQuadrant
  dsimp only
  rw [if_neg (by simpa [endPower] using h)]
  obtain ⟨smoulder, result⟩ := settleSmoulder_smoulder tm (raisePower tm _ _ 0 _)
  refine ⟨smoulder.trans ?_, result.trans ?_⟩
  · simp [raisePower, endPower]
  · simp [raisePower, endPower, PowerResult.code]

theorem wakeQuadrant_of_standby (h : d.pwr.mode = .standby) : wakeQuadrant tm q d = d := if_pos h

/-- A quadrant leaves SMOULDER: its admitted slots are fresh. -/
theorem wakeQuadrant_wakes (mode : d.pwr.mode ≠ .standby) (h : bankGet d.pwr.smoulder q = true) :
    (wakeQuadrant tm q d).pwr = { d.pwr with
      smoulder := bankSet d.pwr.smoulder q false, entering := bankSet d.pwr.entering q none, result := 0 } ∧
    (wakeQuadrant tm q d).rails = d.rails ∧
    (wakeQuadrant tm q d).slots =
      bankMap d.slots fun g s => if quadOf g = q ∧ s.state = .admitted then { s with fresh := true } else s := by
  have asleep : ¬ (!bankGet (endPower .ok d).pwr.smoulder q) = true := by simp [h]
  unfold wakeQuadrant
  rw [if_neg mode]
  dsimp only
  rw [if_neg asleep, raisePower_pwr, raisePower_rails, raisePower_slots]
  simp only [endPower_pwr, endPower_rails, endPower_slots, PowerResult.code, and_self]

theorem slot_of_bankMap {g : Fin 512} {e : Device} {f : Fin 512 → Slot → Slot} (h : e.slots = bankMap d.slots f)
    (same : f g (d.slot g) = d.slot g) : e.slot g = d.slot g := by
  rw [Device.slot, h, bankGet_bankMap]
  exact same

theorem smoulderTimesOut_of_none (h : bankGet d.pwr.entering q = none) : smoulderTimesOut tm q d = d := by
  unfold smoulderTimesOut
  rw [h]

theorem smoulderTimesOut_of_early {t : Nat} (h : bankGet d.pwr.entering q = some t) (early : tm.time.toNat < t + msTicks 10) :
    smoulderTimesOut tm q d = d := by
  unfold smoulderTimesOut
  rw [h]
  exact if_neg (Nat.not_le.mpr early)

theorem smoulderTimesOut_of_late {t : Nat} (h : bankGet d.pwr.entering q = some t) (late : t + msTicks 10 ≤ tm.time.toNat) :
    bankGet (smoulderTimesOut tm q d).pwr.entering q = none := by
  unfold smoulderTimesOut
  rw [h]
  dsimp only
  rw [if_pos late, stopQuadrant_pwr, bankGet_bankSet_same]

end

/-! ### Waking (R364) -/

section
variable {k : Nat} {s : State}

theorem wakeDevice_at_boundary (mode : s.dev.pwr.mode = .standby) (waking : s.dev.pwr.waking = none) (boundary : s.tm.phase = 0) :
    wakeDevice k s = resumeNow k s :=
  (if_neg (by simp [mode, waking])).trans (if_pos boundary)

theorem wakeDevice_waits (mode : s.dev.pwr.mode = .standby) (waking : s.dev.pwr.waking = none) (within_ : s.tm.phase ≠ 0) :
    wakeDevice k s = s.onDev fun d => { d with pwr := { d.pwr with waking := some k } } :=
  (if_neg (by simp [mode, waking])).trans (if_neg within_)

theorem wakeDevice_of_other (h : s.dev.pwr.mode ≠ .standby ∨ s.dev.pwr.waking ≠ none) : wakeDevice k s = s :=
  if_pos (h.imp_right Option.isSome_iff_ne_none.mpr)

theorem resumeNow_cause (k : Nat) (s : State) : (resumeNow k s).dev.pwr.cause = BitVec.ofNat 3 k := by
  unfold resumeNow
  dsimp only
  rw [resumeDevice_pwr]

end

/-! ### The commands -/

section
variable {src : Src} {q : Fin 4} {s : State} (reached : Reaches src .early s)
include reached

section
variable (level : mayEarly s.dev src .operate = true)
include level

theorem exec_pwrRun {f : State → State} (does : enterRun (rowStarts src 0x120 s) = f (rowStarts src 0x120 s)) :
    exec (.pwrRun src) s = .next ((f (rowStarts src 0x120 s)).onDev (rowEnds src 0x120 0)) := by
  refine congrArg Host.Outcome.next ((powerRow_of_level reached _ level).trans ?_)
  rw [does]

theorem exec_pwrRun_of_run (run : s.dev.pwr.mode = .run) : exec (.pwrRun src) s = .next (PowerWrote src 0 .ok s) := by
  refine exec_pwrRun (f := fun t => t.onDev (endPower .ok)) reached level ?_
  unfold enterRun
  rw [rowStarts_pwr, run]

omit reached level in
theorem enterRun_of_trim {t : State} (trim : t.dev.pwr.mode = .trim) :
    enterRun t = t.onDev fun d => endPower .ok (raisePower t.tm 1 0 0 (leaveTrim t.tm.time.toNat d)) := by
  unfold enterRun
  rw [trim]

omit reached level in
theorem enterRun_of_standby {t : State} (standby : t.dev.pwr.mode = .standby) : enterRun t = (wakeDevice 1 t).onDev (endPower .ok) := by
  unfold enterRun
  rw [standby]

theorem exec_pwrRun_of_trim (trim : s.dev.pwr.mode = .trim) : ∃ d, exec (.pwrRun src) s = .next { s with dev := d } ∧
    d.pwr.mode = .run ∧ d.clk = s.dev.clk ∧ d.pwr.result = 0 ∧ ∀ n, (d.lane n).asleep = false := by
  have does : enterRun (rowStarts src 0x120 s) = _ := enterRun_of_trim (by simpa using trim)
  refine ⟨_, congrArg Host.Outcome.next ((powerRow_as reached _ level does).trans (wrote_eq ..)), ?_, ?_, ?_, fun n => ?_⟩
  · rw [rowEnds_pwr, endPower_pwr, raisePower_pwr, leaveTrim_pwr]
  · rw [rowEnds_clk, endPower_clk, raisePower_clk, leaveTrim_clk, rowStarts_clk]
  · rw [rowEnds_pwr, endPower_pwr]
    rfl
  · rw [rowEnds_lane, endPower_lane, raisePower_lane]
    exact leaveTrim_asleep ..

omit reached level in
/-- Neither a result nor the end of an access changes that the device is awake. -/
theorem awake_of_ends {t : State} (h : Awake s t) (r : PowerResult) (a : Addr) (st : Byte) :
    Awake s ((t.onDev (endPower r)).onDev (rowEnds src a st)) := by
  unfold Awake at h ⊢
  simp only [State.onDev_dev, rowEnds_pwr, rowEnds_clk, endPower_pwr, endPower_clk]
  exact h

theorem exec_pwrRun_at_boundary (standby : s.dev.pwr.mode = .standby) (waking : s.dev.pwr.waking = none) (boundary : s.tm.phase = 0) :
    ∃ t, exec (.pwrRun src) s = .next t ∧ Awake s t ∧ t.pending = s.pending ∧ t.nv = s.nv ∧ t.dev.pwr.cause = 1 ∧
      t.dev.pwr.result = 0 := by
  have wakes : wakeDevice 1 (rowStarts src 0x120 s) = resumeNow 1 (rowStarts src 0x120 s) :=
    wakeDevice_at_boundary (by simpa using standby) (by simpa using waking) (by simpa using boundary)
  have does := (enterRun_of_standby (t := rowStarts src 0x120 s) (by simpa using standby)).trans (congrArg (State.onDev · _) wakes)
  have awake := awake_of_ends (src := src) (resumeNow_awake 1 (rowStarts src 0x120 s)) .ok 0x120 0
  refine ⟨_, exec_pwrRun (f := fun t => (resumeNow 1 t).onDev (endPower .ok)) reached level does, ?_, rowStarts_pending ..,
    rowStarts_nv .., ?_, ?_⟩
  · unfold Awake at awake ⊢
    rwa [rowStarts_tm] at awake
  · simp only [State.onDev_dev, rowEnds_pwr, endPower_pwr, resumeNow_cause]
    rfl
  · simp only [State.onDev_dev, rowEnds_pwr, endPower_pwr]
    rfl

theorem exec_pwrRun_between (standby : s.dev.pwr.mode = .standby) (waking : s.dev.pwr.waking = none) (within_ : s.tm.phase ≠ 0) :
    exec (.pwrRun src) s =
      .next (Wrote src 0x120 0 (fun d => { d with pwr := { d.pwr with waking := some 1, result := 0 } }) s) := by
  refine congrArg Host.Outcome.next (powerRow_as reached _ level ?_)
  unfold enterRun
  rw [rowStarts_pwr, standby]
  dsimp only
  rw [wakeDevice_waits (by simpa using standby) (by simpa using waking) (by simpa using within_)]
  rfl

theorem exec_pwrTrim (run : s.dev.pwr.mode = .run) (light : s.dev.img.loadRun.toNat ≤ 4500) : ∃ er, exec (.pwrTrim src) s =
    .next (Wrote src 0x120 0 (fun d => { d with pwr := { d.pwr with mode := .trim, result := 0 }, er := er }) s) :=
  ⟨_, congrArg Host.Outcome.next ((powerRow_as (g := enterTrim (rowStarts src 0x120 s).tm) reached _ level rfl).trans
    (wrote_congr (enterTrim_of_run (by simpa using run) (by simpa using light)) 0))⟩

theorem exec_pwrTrim_of_load (run : s.dev.pwr.mode = .run) (heavy : 4500 < s.dev.img.loadRun.toNat) :
    exec (.pwrTrim src) s = .next (PowerWrote src 0 .load s) :=
  congrArg Host.Outcome.next ((powerRow_as (g := enterTrim (rowStarts src 0x120 s).tm) reached _ level rfl).trans
    (wrote_congr (enterTrim_of_load (by simpa using run) (by simpa using heavy)) 0))

end

section
variable (level : mayEarly s.dev src .engineer = true)
include level

omit reached level in
@[simp] theorem rowStarts_standbyBar (a : Addr) : standbyBar (rowStarts src a s).dev = standbyBar s.dev := by
  obtain ⟨_, _, _, _, h, -⟩ := rowStarts_sameButAccess src a s
  rw [h]
  rfl

theorem exec_pwrStandby_of_barred (mode : s.dev.pwr.mode ≠ .standby) (res : PowerResult) (bar : standbyBar s.dev = some res) :
    exec (.pwrStandby src) s = .next (PowerWrote src 0 res s) := by
  refine congrArg Host.Outcome.next (powerRow_as (g := endPower res) reached _ level ?_)
  unfold enterStandby
  rw [if_neg (by simpa using mode), rowStarts_standbyBar, bar]

omit reached level in
/-- STANDBY is entered: the clocks stop, and the ports with them. -/
theorem enterStandby_enters {t : State} (mode : t.dev.pwr.mode ≠ .standby) (bar : standbyBar t.dev = none) :
    ∃ d, enterStandby t = { t with tm := { t.tm with lclk := false }, dev := d } ∧
      d.pwr.mode = .standby ∧ d.pwr.result = 0 ∧ d.clk.lclkOn = false ∧ d.clk.eclkOn = false ∧ d.clk.sclkOn = false ∧
      d.rails = t.dev.rails ∧ d.hs = t.dev.hs ∧ ∀ n, (d.lane n).queue = [] := by
  obtain ⟨pp, stopped⟩ := stopClocks_eq (raisePower t.tm t.dev.pwr.mode.code 2 0 t.dev)
  refine ⟨endPower .ok (stopClocks (raisePower t.tm t.dev.pwr.mode.code 2 0 t.dev)), ?_, ?_⟩
  · unfold enterStandby
    rw [if_neg mode, bar]
  · rw [endPower_pwr, endPower_clk, endPower_rails, endPower_hs, stopped]
    refine ⟨rfl, rfl, rfl, rfl, rfl, raisePower_rails t.tm t.dev.pwr.mode.code 2 0 t.dev,
      raisePower_hs t.tm t.dev.pwr.mode.code 2 0 t.dev, fun n => ?_⟩
    rw [endPower_lane, Device.lane, bankGet_bankMap]

theorem exec_pwrStandby (mode : s.dev.pwr.mode ≠ .standby) (bar : standbyBar s.dev = none) : ∃ d, exec (.pwrStandby src) s =
    .next { s with tm := { s.tm with lclk := false }, dev := d } ∧
    d.pwr.mode = .standby ∧ d.pwr.result = 0 ∧ d.clk.lclkOn = false ∧ d.clk.eclkOn = false ∧ d.clk.sclkOn = false ∧
    d.rails = s.dev.rails ∧ d.hs = s.dev.hs ∧ ∀ n, (d.lane n).queue = [] := by
  obtain ⟨d, entered, standby, result, lclk, eclk, sclk, rails, hs, queues⟩ :=
    enterStandby_enters (t := rowStarts src 0x120 s) (by simpa using mode) (by simpa using bar)
  have row := powerRow_of_level (f := enterStandby) reached 3 level
  rw [entered, rowStarts_tm] at row
  refine ⟨rowEnds src 0x120 0 d, congrArg Host.Outcome.next (row.trans ?_), ?_⟩
  · rw [rowStarts_nv, rowStarts_pending]
    rfl
  · rw [rowEnds_pwr, rowEnds_clk, rowEnds_rails, rowEnds_hs, rails, hs, rowStarts_rails, rowStarts_hs]
    refine ⟨standby, result, lclk, eclk, sclk, rfl, rfl, fun n => ?_⟩
    rw [rowEnds_lane, queues]

/-! ### Quadrants and wakes -/

theorem exec_qopSmoulder (awake : bankGet s.dev.pwr.smoulder q = false) : ∃ d, exec (.qopSmoulder src q) s = .next { s with dev := d } ∧
    bankGet d.pwr.smoulder q = true ∧ d.pwr.result = 0 ∧ ∀ k, k ≠ q → bankGet d.pwr.smoulder k = bankGet s.dev.pwr.smoulder k := by
  obtain ⟨smoulder, result⟩ := smoulderQuadrant_enters (tm := (rowStarts src 0x120 s).tm) (d := (rowStarts src 0x120 s).dev) (q := q)
    (by simpa using awake)
  refine ⟨_, congrArg Host.Outcome.next ((powerRow_as (g := smoulderQuadrant (rowStarts src 0x120 s).tm q) reached _ level rfl).trans
    (wrote_eq ..)), ?_⟩
  rw [rowEnds_pwr, smoulder, result, rowStarts_pwr]
  exact ⟨bankGet_bankSet_same .., rfl, fun k other => bankGet_bankSet_other _ _ other.symm⟩

theorem exec_qopSmoulder_of_smoulder (asleep : bankGet s.dev.pwr.smoulder q = true) :
    exec (.qopSmoulder src q) s = .next (PowerWrote src 0 .ok s) :=
  congrArg Host.Outcome.next ((powerRow_as (g := smoulderQuadrant (rowStarts src 0x120 s).tm q) reached _ level rfl).trans
    (wrote_congr (smoulderQuadrant_of_smoulder (by simpa using asleep)) 0))

theorem exec_qopQrun (mode : s.dev.pwr.mode ≠ .standby) (asleep : bankGet s.dev.pwr.smoulder q = true) :
    ∃ d, exec (.qopQrun src q) s = .next { s with dev := d } ∧ bankGet d.pwr.smoulder q = false ∧ bankGet d.pwr.entering q = none ∧
      d.pwr.result = 0 ∧ d.rails = s.dev.rails ∧ ∀ g, quadOf g ≠ q → d.slot g = s.dev.slot g := by
  obtain ⟨pwr, rails, slots⟩ := wakeQuadrant_wakes (tm := (rowStarts src 0x120 s).tm) (d := (rowStarts src 0x120 s).dev) (q := q)
    (by simpa using mode) (by simpa using asleep)
  refine ⟨_, congrArg Host.Outcome.next ((powerRow_as (g := wakeQuadrant (rowStarts src 0x120 s).tm q) reached _ level rfl).trans
    (wrote_eq ..)), ?_⟩
  rw [rowEnds_pwr, rowEnds_rails, pwr, rails, rowStarts_rails]
  refine ⟨bankGet_bankSet_same .., bankGet_bankSet_same .., rfl, rfl, fun g other => ?_⟩
  rw [rowEnds_slot, slot_of_bankMap slots (if_neg fun here => other here.1), rowStarts_slot]

theorem exec_qopQrun_of_standby (standby : s.dev.pwr.mode = .standby) : exec (.qopQrun src q) s = .next (Wrote src 0x120 0 id s) :=
  congrArg Host.Outcome.next ((powerRow_as (g := wakeQuadrant (rowStarts src 0x120 s).tm q) reached _ level rfl).trans
    (wrote_congr (wakeQuadrant_of_standby (by simpa using standby)) 0))

end

end

section
variable {c : WakeCause} {k : Nat} {s : State}

theorem wake_of_none (h : wakeCode s.dev c = none) : wake c s = s := by
  unfold wake
  rw [h]

theorem wake_of_code (h : wakeCode s.dev c = some k) : wake c s = wakeDevice k s := by
  unfold wake
  rw [h]

/-- A device that does not stand in STANDBY, or wakes already, is not woken. -/
theorem wake_of_other (h : s.dev.pwr.mode ≠ .standby ∨ s.dev.pwr.waking ≠ none) : wake c s = s := by
  unfold wake
  split
  · exact wakeDevice_of_other h
  · rfl

theorem exec_wake_at_boundary (mode : s.dev.pwr.mode = .standby) (waking : s.dev.pwr.waking = none) (code : wakeCode s.dev c = some k)
    (boundary : s.tm.phase = 0) : ∃ t, exec (.wake c) s = .next t ∧ Awake s t ∧ t.pending = s.pending ∧ t.nv = s.nv ∧
      t.dev.pwr.cause = BitVec.ofNat 3 k :=
  ⟨resumeNow k s, congrArg Host.Outcome.next ((wake_of_code code).trans (wakeDevice_at_boundary mode waking boundary)),
    resumeNow_awake k s, rfl, rfl, resumeNow_cause k s⟩

end

/-- Settles O46: each command from its level on, quadrants, and wakes. -/
theorem powerStates : Obligations.PowerStates := by
  refine ⟨fun src q s reached => powerOps_denied reached, fun src s level reached => ?_, fun src s level reached mode => ?_,
    fun src q s level reached => ?_, fun q s idle => next_of_dev (smoulderTimesOut_of_none idle), fun q t s entering => ?_,
    fun c s => ⟨fun h => ?_, fun k mode waking code => ?_⟩⟩
  · exact ⟨exec_pwrRun_of_run reached level, exec_pwrRun_of_trim reached level, exec_pwrRun_at_boundary reached level,
      exec_pwrRun_between reached level, exec_pwrTrim reached level, exec_pwrTrim_of_load reached level⟩
  · exact ⟨exec_pwrStandby_of_barred reached level mode, exec_pwrStandby reached level mode⟩
  · exact ⟨exec_qopSmoulder reached level, exec_qopSmoulder_of_smoulder reached level, exec_qopQrun reached level,
      exec_qopQrun_of_standby reached level⟩
  · exact ⟨fun early => next_of_dev (smoulderTimesOut_of_early entering early),
      fun late => ⟨_, rfl, smoulderTimesOut_of_late entering late⟩⟩
  · refine congrArg Host.Outcome.next ?_
    rcases or_assoc.mpr h with other | none
    · exact wake_of_other other
    · exact wake_of_none none
  · exact ⟨exec_wake_at_boundary mode waking code,
      fun within_ => congrArg Host.Outcome.next ((wake_of_code code).trans (wakeDevice_waits mode waking within_))⟩

end Sys2Proof.Machine
end

section
/-! SUPPORT. What the parts of the session guard share (R352 to R360): the sessions of the ports, their PORT records and failures. -/

namespace Sys2Proof.Machine

section
variable {tm : TimeBase} {nv : NonVol} {p q : Port} {d : Device}

theorem portIdx_ne (h : p ≠ q) : portIdx p ≠ portIdx q := by
  revert h
  cases p <;> cases q <;> decide

/-- A job with a record to place that joins the queue stays the store's until it is done. -/
theorem storePump_keeps_job {j : Job} (places : j.steps.any JobStep.places = true) (d : Device) :
    ∃ ocs, storePump nv (addJob j d) = { d with ocs := ocs } ∧ ∃ k ∈ ocs.current.toList ++ ocs.jobs, k.tag = j.tag := by
  obtain ⟨ocs, pumped, -, owed⟩ := storePump_owes (nv := nv) (owes_addJob (d := d) places)
  exact ⟨ocs, pumped, owed⟩

theorem writePort_eq (nv : NonVol) (p : Port) (locked : Nat) (d : Device) : ∃ ocs, writePort nv p locked d = { d with ocs := ocs } ∧
    ∃ j ∈ ocs.current.toList ++ ocs.jobs, j.tag = .port p := storePump_keeps_job rfl d

/-- A failure that is not the fifth in a row is counted, and its record follows. -/
theorem countFailure_eq (few : (d.session p).fails.toNat < 4) (level : Nat) : ∃ ocs, countFailure tm nv p level d =
    { d.onSession p (fun s => { s with fails := BitVec.ofNat 3 ((d.session p).fails.toNat + 1) }) with ocs := ocs } ∧
      ∃ j ∈ ocs.current.toList ++ ocs.jobs, j.tag = .port p := by
  unfold countFailure
  dsimp only
  rw [if_pos (Nat.succ_lt_succ few)]
  exact writePort_eq ..

theorem takeCtr_of_left (left_ : d.sg.ctrNext ≠ 0) : takeCtr d = some (d.sg.ctrNext,
    { d with sg := { d.sg with ctrNext := if d.sg.ctrNext = d.sg.ctrEnd then 0 else d.sg.ctrNext + 1 } }) := if_neg left_

end

end Sys2Proof.Machine
end
section
/-! SUPPORT. Writes of the session guard's registers (R317, R353): what the access itself leaves of the sessions, and the rows of a
port's own commands. -/

namespace Sys2Proof.Machine

section
variable {src : Src} {a : Addr} {s : State}

/-- The beginning of a write leaves of every session all but its last use (R353). -/
theorem rowStarts_session_eq (src : Src) (a : Addr) (s : State) (p : Port) :
    ∃ use, (rowStarts src a s).dev.session p = { s.dev.session p with lastUse := use } := by
  obtain ⟨_, _, _, ports, h, uses, -⟩ := rowStarts_sameButAccess src a s
  obtain ⟨use, used⟩ := uses (portIdx p)
  exact ⟨use, by rw [Device.session, h]; exact used⟩

@[simp] theorem rowStarts_keys (src : Src) (a : Addr) (s : State) : (rowStarts src a s).dev.sg.keys = s.dev.sg.keys := by
  obtain ⟨_, h⟩ := rowStarts_sg src a s; rw [h]
@[simp] theorem rowStarts_keysLoaded (src : Src) (a : Addr) (s : State) : (rowStarts src a s).dev.sg.keysLoaded = s.dev.sg.keysLoaded := by
  obtain ⟨_, h⟩ := rowStarts_sg src a s; rw [h]
@[simp] theorem rowStarts_guardBusy (src : Src) (a : Addr) (s : State) : (rowStarts src a s).dev.sg.busy = s.dev.sg.busy := by
  obtain ⟨_, h⟩ := rowStarts_sg src a s; rw [h]
@[simp] theorem rowStarts_kcv (src : Src) (a : Addr) (s : State) : (rowStarts src a s).dev.sg.kcv = s.dev.sg.kcv := by
  obtain ⟨_, h⟩ := rowStarts_sg src a s; rw [h]
@[simp] theorem rowStarts_keydata (src : Src) (a : Addr) (s : State) : (rowStarts src a s).dev.sg.keydata = s.dev.sg.keydata := by
  obtain ⟨_, h⟩ := rowStarts_sg src a s; rw [h]
@[simp] theorem rowStarts_ctrNext (src : Src) (a : Addr) (s : State) : (rowStarts src a s).dev.sg.ctrNext = s.dev.sg.ctrNext := by
  obtain ⟨_, h⟩ := rowStarts_sg src a s; rw [h]
@[simp] theorem rowStarts_ctrEnd (src : Src) (a : Addr) (s : State) : (rowStarts src a s).dev.sg.ctrEnd = s.dev.sg.ctrEnd := by
  obtain ⟨_, h⟩ := rowStarts_sg src a s; rw [h]
@[simp] theorem rowStarts_keyOf (src : Src) (a : Addr) (s : State) (t : Fin 5) : keyOf (rowStarts src a s).dev t = keyOf s.dev t := by
  simp [keyOf]

/-- The supervisor's access shows no status. -/
theorem wrote_sup_status (a : Addr) (st st' : Byte) (f : Device → Device) (s : State) : Wrote .sup a st f s = Wrote .sup a st' f s := rfl

theorem mayEarly_of_reached {least : Level} {win : Window} (reached : Reaches src win s) (level : least.rank ≤ srcLevel s.dev src) :
    mayEarly s.dev src least = true := by
  have none := mayEarly_none_of_reaches reached
  simp only [mayEarly, Bool.and_eq_true] at none ⊢
  exact ⟨decide_eq_true level, none.2⟩

end

end Sys2Proof.Machine
end

section
/-! SUPPORT. Debug authorisation (R359, Table 14-7) and the drive instructions (R360). -/

namespace Sys2Proof.Machine

section
variable {tm : TimeBase} {nv : NonVol} {scope : BitVec 2} {token : BitVec 256} {d : Device}

/-! ### DBG_CHAL -/

theorem showDebugChallenge_of_left (left_ : d.sg.ctrNext ≠ 0) : showDebugChallenge d = { d with
    draws := d.draws + 1
    sg := { d.sg with
      ctrNext := if d.sg.ctrNext = d.sg.ctrEnd then 0 else d.sg.ctrNext + 1, dbgOpening := false
      dbgNonce := (List.range 32).map (Config.random d.draws), dbgCtr := d.sg.ctrNext } } := by
  unfold showDebugChallenge
  rw [takeCtr_of_left left_]
  rfl

theorem debugChallenge_shows (up : answers d = true) (free : portLocked tm (d.session .debug) = false) (left_ : d.sg.ctrNext ≠ 0) :
    ∃ ctr nonce, nonce.length = 32 ∧ debugChallenge tm nv d = { d with
      draws := d.draws + 1
      sg := { d.sg with tapIr := 0x20, bscan := false, ctrNext := ctr, dbgOpening := false, dbgNonce := nonce,
                        dbgCtr := d.sg.ctrNext } } := by
  refine ⟨if d.sg.ctrNext = d.sg.ctrEnd then 0 else d.sg.ctrNext + 1, (List.range 32).map (Config.random d.draws), by simp, ?_⟩
  unfold debugChallenge
  rw [if_neg (by simp [up])]
  exact (if_neg (Bool.eq_false_iff.mp free)).trans ((if_pos left_).trans (showDebugChallenge_of_left
    (d := { selectIr 0x20 d with sg := { (selectIr 0x20 d).sg with dbgNonce := [], dbgCtr := 0 } }) left_))

/-! ### DBG_TOKEN -/

/-- The end of a token raises its event, and changes nothing but the debug registers beside. -/
theorem tokenEnds_eq (tm : TimeBase) (scope : BitVec 2) (r : GuardResult) (d : Device) : ∃ er, tokenEnds tm scope r d =
    { d with er := er, sg := { d.sg with dbgNonce := [], dbgCtr := 0, intStatus := setBit d.sg.intStatus 5 } } := ⟨_, rfl⟩

theorem tokenGood_eq (tm : TimeBase) (scope : BitVec 2) (d : Device) : ∃ er, tokenGood tm scope d = { d with er := er, sg := { d.sg with
    dbgNonce := [], dbgCtr := 0, intStatus := setBit d.sg.intStatus 5, auth := if scope = 2 then .full else .read } } := ⟨_, rfl⟩

/-- What a token does once its instruction is selected and the keys and the counts let it. -/
def tokenTried (tm : TimeBase) (nv : NonVol) (scope : BitVec 2) (token : BitVec 256) (d : Device) : Device :=
  if scope = 0 ∨ scope = 3 then tokenEnds tm scope .badOp d
  else if scope = 2 ∧ (d.sg.lc = .service ∨ d.sg.lc = .retired) then tokenEnds tm scope .lifecycle d
  else if d.sg.lc = .blank then tokenGood tm scope d
  else if portLocked tm (d.session .debug) then tokenEnds tm scope .locked d
  else if !canCount d then raise tm 0xA3 [byte scope.toNat, GuardResult.busy.code] (guardInt 5 d)
  else if d.sg.dbgNonce.isEmpty then tokenEnds tm scope .state d
  else match tokenKey d with
    | none => tokenEnds tm scope .notInstalled d
    | some key =>
      if hmac key (proofMessage d (tagEH 0x54) 2 scope.toNat d.sg.dbgNonce d.sg.dbgCtr) = beBytes 32 token.toNat then
        tokenGood tm scope d
      else
        countFailure tm nv .debug scope.toNat
          { d with sg := { d.sg with dbgNonce := [], dbgCtr := 0, dbgFailing := some scope } }

theorem debugToken_eq (up : answers d = true) : debugToken tm nv scope token d =
    if d.sg.keysLoaded = false ∨ failureRuns .debug d = true then
      raise tm 0xA3 [byte scope.toNat, GuardResult.busy.code] (guardInt 5 (selectIr 0x21 d))
    else tokenTried tm nv scope token (selectIr 0x21 d) := if_neg (by simp [up])

theorem tokenTried_of_scope (h : scope = 0 ∨ scope = 3 ∨ (scope = 2 ∧ (d.sg.lc = .service ∨ d.sg.lc = .retired))) :
    ∃ r, tokenTried tm nv scope token d = tokenEnds tm scope r d := by
  unfold tokenTried
  by_cases bad : scope = 0 ∨ scope = 3
  · exact ⟨_, if_pos bad⟩
  · exact ⟨_, (if_neg bad).trans (if_pos ((or_assoc.mpr h).resolve_left bad))⟩

theorem scope_exists (h : scope = 1 ∨ scope = 2) : ¬ (scope = 0 ∨ scope = 3) := by
  rcases h with rfl | rfl <;> decide

theorem tokenTried_of_blank (real : scope = 1 ∨ scope = 2) (blank : d.sg.lc = .blank) :
    tokenTried tm nv scope token d = tokenGood tm scope d :=
  (if_neg (scope_exists real)).trans ((if_neg (by simp [blank])).trans (if_pos blank))

/-- In COMMISSION, with the port free and a challenge, the MAC decides. -/
theorem tokenTried_of_commission {key : List Byte} (real : scope = 1 ∨ scope = 2) (lc : d.sg.lc = .commission)
    (free : portLocked tm (d.session .debug) = false) (counts : canCount d = true) (nonce : d.sg.dbgNonce ≠ [])
    (installed : keyOf d 4 = some key) : tokenTried tm nv scope token d =
      if hmac key (proofMessage d (tagEH 0x54) 2 scope.toNat d.sg.dbgNonce d.sg.dbgCtr) = beBytes 32 token.toNat then
        tokenGood tm scope d
      else countFailure tm nv .debug scope.toNat { d with sg := { d.sg with dbgNonce := [], dbgCtr := 0, dbgFailing := some scope } } := by
  have keyed : tokenKey d = some key := (if_neg (by simp [lc])).trans installed
  unfold tokenTried
  rw [if_neg (scope_exists real), if_neg (by simp [lc]), if_neg (by simp [lc]), if_neg (by simp [free]), if_neg (by simp [counts]),
    if_neg (by simpa using nonce), keyed]

/-! ### Drive instructions -/

theorem driveSelected_of_full {k : DriveKind} (full : d.sg.auth = .full) (quiet : ∀ r, railQuiet d r = true)
    (awake : d.pwr.mode ≠ .standby) : driveSelected k d =
      { d with sg := { d.sg with tapIr := BitVec.ofNat 6 (driveOpcode k), bscan := true } } :=
  if_pos ⟨full, List.all_eq_true.mpr fun r _ => quiet r, awake⟩

theorem driveSelected_of_other {k : DriveKind} (other : d.sg.auth ≠ .full) : driveSelected k d = d := if_neg fun h => other h.1

end

section
variable {scope : BitVec 2} {token : BitVec 256} {s : State} (up : answers s.dev = true)
include up

theorem exec_dbgChal (free : portLocked s.tm (s.dev.session .debug) = false) (left_ : s.dev.sg.ctrNext ≠ 0) :
    ∃ d, exec .dbgChal s = .next { s with dev := d } ∧ d.sg.dbgNonce.length = 32 ∧ d.sg.dbgCtr = s.dev.sg.ctrNext ∧
      d.sg.tapIr = 0x20 ∧ d.sg.bscan = false ∧ d.sg.auth = s.dev.sg.auth ∧ d.sg.ports = s.dev.sg.ports ∧ d.rails = s.dev.rails := by
  obtain ⟨ctr, nonce, length, shown⟩ := debugChallenge_shows (tm := s.tm) (nv := s.nv) up free left_
  exact ⟨_, next_of_dev shown, length, rfl, rfl, rfl, rfl, rfl, rfl⟩

theorem exec_dbgToken_of_busy (busy : s.dev.sg.keysLoaded = false ∨ failureRuns .debug s.dev = true) :
    ∃ er, exec (.dbgToken scope token) s = .next { s with dev := { s.dev with er := er, sg := { s.dev.sg with
      tapIr := 0x21, bscan := false, intStatus := setBit s.dev.sg.intStatus 5 } } } :=
  ⟨_, next_of_dev ((debugToken_eq up).trans (if_pos busy))⟩

section
variable (loaded : s.dev.sg.keysLoaded = true) (rests : failureRuns .debug s.dev = false)
include loaded rests

theorem exec_dbgToken : exec (.dbgToken scope token) s =
    .next { s with dev := tokenTried s.tm s.nv scope token (selectIr 0x21 s.dev) } :=
  next_of_dev ((debugToken_eq up).trans (if_neg (by simp [loaded, rests])))

theorem exec_dbgToken_of_scope (h : scope = 0 ∨ scope = 3 ∨ (scope = 2 ∧ (s.dev.sg.lc = .service ∨ s.dev.sg.lc = .retired))) :
    ∃ er, exec (.dbgToken scope token) s = .next { s with dev := { s.dev with er := er, sg := { s.dev.sg with
      tapIr := 0x21, bscan := false, dbgNonce := [], dbgCtr := 0, intStatus := setBit s.dev.sg.intStatus 5 } } } := by
  obtain ⟨r, ended⟩ := tokenTried_of_scope (tm := s.tm) (nv := s.nv) (token := token) (d := selectIr 0x21 s.dev) h
  rw [exec_dbgToken up loaded rests, ended]
  exact ⟨_, rfl⟩

theorem exec_dbgToken_of_good (real : scope = 1 ∨ scope = 2) (good : s.dev.sg.lc = .blank ∨ (s.dev.sg.lc = .commission ∧
    portLocked s.tm (s.dev.session .debug) = false ∧ canCount s.dev = true ∧ s.dev.sg.dbgNonce ≠ [] ∧
    ∃ key, keyOf s.dev 4 = some key ∧ hmac key (proofMessage s.dev (tagEH 0x54) 2 scope.toNat s.dev.sg.dbgNonce
      s.dev.sg.dbgCtr) = beBytes 32 token.toNat)) :
    ∃ er, exec (.dbgToken scope token) s = .next { s with dev := { s.dev with er := er, sg := { s.dev.sg with
      tapIr := 0x21, bscan := false, dbgNonce := [], dbgCtr := 0, intStatus := setBit s.dev.sg.intStatus 5
      auth := if scope = 2 then .full else .read } } } := by
  have taken : tokenTried s.tm s.nv scope token (selectIr 0x21 s.dev) = tokenGood s.tm scope (selectIr 0x21 s.dev) := by
    rcases good with blank | ⟨lc, free, counts, nonce, key, installed, mac⟩
    · exact tokenTried_of_blank real blank
    · exact (tokenTried_of_commission (d := selectIr 0x21 s.dev) real lc free counts nonce installed).trans (if_pos mac)
  rw [exec_dbgToken up loaded rests, taken]
  exact ⟨_, rfl⟩

end

/-- A wrong token is counted before it is reported (R359). -/
theorem exec_dbgToken_of_wrong {key : List Byte} (rests : failureRuns .debug s.dev = false) (real : scope = 1 ∨ scope = 2)
    (lc : s.dev.sg.lc = .commission) (free : portLocked s.tm (s.dev.session .debug) = false) (counts : canCount s.dev = true)
    (nonce : s.dev.sg.dbgNonce ≠ []) (installed : keyOf s.dev 4 = some key)
    (wrong : hmac key (proofMessage s.dev (tagEH 0x54) 2 scope.toNat s.dev.sg.dbgNonce s.dev.sg.dbgCtr) ≠ beBytes 32 token.toNat)
    (few : (s.dev.session .debug).fails.toNat < 4) :
    ∃ d, exec (.dbgToken scope token) s = .next { s with dev := d } ∧ d.sg.dbgFailing = some scope ∧ d.sg.dbgNonce = [] ∧
      d.sg.auth = s.dev.sg.auth ∧ (d.session .debug).fails.toNat = (s.dev.session .debug).fails.toNat + 1 ∧
      ∃ j ∈ d.ocs.current.toList ++ d.ocs.jobs, j.tag = .port .debug := by
  have loaded : s.dev.sg.keysLoaded = true := by
    simp only [canCount, Bool.and_eq_true] at counts
    exact counts.1.1.1.1
  have tried := (tokenTried_of_commission (tm := s.tm) (nv := s.nv) (token := token) (d := selectIr 0x21 s.dev) real lc free counts
    nonce installed).trans (if_neg wrong)
  obtain ⟨ocs, counted, owed⟩ := countFailure_eq (tm := s.tm) (nv := s.nv) (p := .debug) (level := scope.toNat)
    (d := { selectIr 0x21 s.dev with sg := { (selectIr 0x21 s.dev).sg with dbgNonce := [], dbgCtr := 0, dbgFailing := some scope } }) few
  rw [exec_dbgToken up loaded rests, tried, counted]
  refine ⟨_, rfl, rfl, rfl, rfl, ?_, owed⟩
  have small : (s.dev.session .debug).fails.toNat + 1 < 2 ^ 3 := by omega
  refine (congrArg (fun x : Session => x.fails.toNat) (bankGet_bankUpd_same _ (portIdx .debug) _)).trans ?_
  exact Nat.mod_eq_of_lt small

end

/-- Settles O45: the TAP's instructions one by one. -/
theorem debugAuthorises : Obligations.DebugAuthorises :=
  ⟨fun _ => rfl, fun _ => exec_dbgChal, fun _ _ _ => exec_dbgToken_of_busy,
    fun _ _ _ _ up rests real lc free counts nonce installed wrong few =>
      exec_dbgToken_of_wrong up rests real lc free counts nonce installed wrong few,
    fun _ _ _ up loaded rests => ⟨exec_dbgToken_of_scope up loaded rests, exec_dbgToken_of_good up loaded rests⟩,
    fun _ _ => ⟨fun full quiet awake => next_of_dev (driveSelected_of_full full quiet awake),
      fun other => next_of_dev (driveSelected_of_other other)⟩⟩

end Sys2Proof.Machine
end

section
/-! SUPPORT. Life-cycle changes (R356 to R358, Table 14-3) and the installation of keys (R351). -/

namespace Sys2Proof.Machine

/-! ### SG.LC_CMD -/

section
variable {tm : TimeBase} {nv : NonVol} {src : Src} {new : LifeCycle} {d : Device}

theorem changeLife_of_denied (low : srcLevel d src < (lifeLevel d.sg.lc new).rank) : changeLife tm nv src new d = endGuard .denied d :=
  if_pos low

section
variable (level : (lifeLevel d.sg.lc new).rank ≤ srcLevel d src)
include level

theorem changeLife_of_busy (busy : d.sg.busy = true ∨ d.sg.keysLoaded = false) : changeLife tm nv src new d = endGuard .busy d :=
  (if_neg (Nat.not_lt.mpr level)).trans (if_pos busy)

variable (idle : d.sg.busy = false) (loaded : d.sg.keysLoaded = true) (awake : d.pwr.mode ≠ .standby) (win : d.hkt.storeWin = true)
  (cool : d.hkt.tsd = false) (writable : regionWritable d.ocs 5 = true)
include idle loaded awake win cool writable

/-- A command that nothing else keeps back is judged by Table 14-3. -/
theorem changeLife_eq : changeLife tm nv src new d =
    if !lifeRow d.sg.lc new then endGuard .lifecycle d
    else match lifeBar nv new d with
      | some r => endGuard r d
      | none => beginChange tm nv new d :=
  (if_neg (Nat.not_lt.mpr level)).trans ((if_neg (by simp [idle, loaded])).trans ((if_neg awake).trans
    (if_neg (by simp [win, cool, writable]))))

theorem changeLife_of_unlisted (unlisted : lifeRow d.sg.lc new = false) : changeLife tm nv src new d = endGuard .lifecycle d :=
  (changeLife_eq level idle loaded awake win cool writable).trans (if_pos (by simp [unlisted]))

/-- A change that may go on is in progress until its LIFECYCLE record is written. -/
theorem changeLife_begins (listed : lifeRow d.sg.lc new = true) (free : lifeBar nv new d = none) (settled : d.img.trialOpen = false) :
    ∃ ocs, changeLife tm nv src new d = { d with sg := { d.sg with busy := true }, ocs := ocs } ∧
      ∃ j ∈ ocs.current.toList ++ ocs.jobs, ∃ mask, j.tag = .lifecycle new mask := by
  have begun : changeLife tm nv src new d = queueChange nv new { d with sg := { d.sg with busy := true } } := by
    rw [changeLife_eq level idle loaded awake win cool writable, if_neg (by simp [listed]), free]
    exact if_neg (by simp [settled])
  obtain ⟨ocs, queued, j, mem, tagged⟩ := storePump_keeps_job (nv := nv)
    (j := ⟨[.record (lifecycleRec new.code (wipeMask new))], .record, .lifecycle new (word (wipeMask new)), true⟩) rfl
    { d with sg := { d.sg with busy := true } }
  exact ⟨ocs, begun.trans queued, j, mem, _, tagged⟩

end

/-! ### Wipes -/

theorem wipesDone_eq (pending : d.sg.lcPending = true) (wiped : wipesRun d = false) (recovered : d.ocs.recovering = false) :
    ∃ ocs, wipesDone nv d = { d with ocs := ocs, sg := { d.sg with
      lcPending := false, busy := false, intStatus := setBit d.sg.intStatus 3 } } := by
  obtain ⟨ocs, queued, -⟩ := storePump_keeps_job (nv := nv) (j := ⟨[.record (lifecycleRec d.sg.lc.code 0)], .record, .none, false⟩) rfl
    (guardInt 3 { d with sg := { d.sg with lcPending := false, busy := false } })
  refine ⟨ocs, ?_⟩
  unfold wipesDone
  rw [if_neg (by simp [pending, wiped, recovered])]
  exact queued

/-! ### SG.KEY_CMD -/

variable {p : Port} {target : BitVec 3}

theorem keyCommand_of_denied (h : src = .sup ∨ srcLevel d src < 4) : keyCommand nv src target d = endGuard .denied d := by
  cases src with
  | sup => rfl
  | port p => exact if_pos (h.resolve_left Src.noConfusion)

theorem keyCommand_of_custodian (level : srcLevel d (.port p) = 4) : keyCommand nv (.port p) target d = installKey nv p target d :=
  if_neg (Nat.not_lt.mpr level.ge)

theorem installKey_of_other (h : 5 ≤ target.toNat) : installKey nv p target d = endGuard .badOp d := by
  unfold installKey
  rw [fin?, dif_neg (Nat.not_lt.mpr h)]

/-- The key that KEY_CMD unwraps from KEYDATA (R351). -/
def unwrapped (d : Device) (p : Port) (t : Fin 5) : List Byte :=
  List.zipWith (fun a b : BitVec 8 => a ^^^ b) (keydataBytes d) (wrapPad d t.val (keyGen d t + 1) (d.session p).chal)

theorem installKey_eq {t : Fin 5} (h : target.toNat = t.val) : installKey nv p target d =
    if d.sg.busy ∨ d.sg.keysLoaded = false ∨ regionWritable d.ocs 4 = false then endGuard .busy d
    else if beNat ((hmac (unwrapped d p t) (tagEH 0x4B)).take 4) ≠ d.sg.kcv.toNat then guardInt 4 (endGuard .kcv d)
    else storePump nv (addJob ⟨[.record (keyRec t.val (keyGen d t + 1) (unwrapped d p t))], .record,
      .key t (keyGen d t + 1) (unwrapped d p t), false⟩ { d with sg := { d.sg with busy := true } }) := by
  have found : fin? 5 target.toNat = some t := by
    rw [h]
    exact dif_pos t.isLt
  unfold installKey
  rw [found]
  rfl

section
variable {t : Fin 5} (h : target.toNat = t.val)
include h

theorem installKey_of_unloaded (unloaded : d.sg.keysLoaded = false) : installKey nv p target d = endGuard .busy d :=
  (installKey_eq h).trans (if_pos (.inr (.inl unloaded)))

variable (idle : d.sg.busy = false) (loaded : d.sg.keysLoaded = true) (writable : regionWritable d.ocs 4 = true)
include idle loaded writable

theorem installKey_of_check (wrong : beNat ((hmac (unwrapped d p t) (tagEH 0x4B)).take 4) ≠ d.sg.kcv.toNat) :
    installKey nv p target d = guardInt 4 (endGuard .kcv d) :=
  (installKey_eq h).trans ((if_neg (by simp [idle, loaded, writable])).trans (if_pos wrong))

theorem installKey_begins (right_ : beNat ((hmac (unwrapped d p t) (tagEH 0x4B)).take 4) = d.sg.kcv.toNat) :
    ∃ ocs, installKey nv p target d = { d with sg := { d.sg with busy := true }, ocs := ocs } ∧
      ∃ j ∈ ocs.current.toList ++ ocs.jobs, j.tag = .key t (keyGen d t + 1) (unwrapped d p t) := by
  have begun := (installKey_eq (nv := nv) (p := p) (d := d) h).trans
    ((if_neg (by simp [idle, loaded, writable])).trans (if_neg (not_not.mpr right_)))
  rw [begun]
  exact storePump_keeps_job rfl _

end

end

/-! ### The rows -/

@[simp] theorem rowStarts_lifeBar (src : Src) (a : Addr) (s : State) (nv : NonVol) (new : LifeCycle) :
    lifeBar nv new (rowStarts src a s).dev = lifeBar nv new s.dev := by
  obtain ⟨_, _, _, _, h, -⟩ := rowStarts_sameButAccess src a s
  rw [h]
  rfl

/-- KEYDATA unwraps to the same key once a write has begun. -/
@[simp] theorem rowStarts_unwrapped (src : Src) (a : Addr) (s : State) (p : Port) (t : Fin 5) :
    unwrapped (rowStarts src a s).dev p t = unwrapped s.dev p t := by
  obtain ⟨use, session⟩ := rowStarts_session_eq src a s p
  simp [unwrapped, keydataBytes, wrapPad, keyGen, session]

section
variable {src : Src} {s : State} {x : Instr × LifeCycle} (reached : Reaches src .early s) (mem : x ∈ lifeOps src)
include reached mem

theorem exec_lifeOps_as {g : Device → Device} {st : Byte}
    (shown : (if mayEarly s.dev src (lifeLevel s.dev.sg.lc x.2) then 0 else stDenied) = st)
    (does : changeLife s.tm s.nv src x.2 (rowStarts src 0x263 s).dev = g (rowStarts src 0x263 s).dev) :
    exec x.1 s = .next (Wrote src 0x263 st g s) := by
  have row (w : Word) : (.next (rowWrite src 0x263 w .early (actLife src x.2) s) : Answer) = .next (Wrote src 0x263 st g s) :=
    commandRow_as (f := fun t => changeLife t.tm t.nv src x.2) reached (by simpa using shown)
      (by rw [rowStarts_tm, rowStarts_nv, does])
  simp only [lifeOps, List.mem_cons, List.not_mem_nil, or_false] at mem
  rcases mem with rfl | rfl | rfl | rfl | rfl
  all_goals exact row _

theorem exec_lifeOps_of_denied (low : srcLevel s.dev src < (lifeLevel s.dev.sg.lc x.2).rank) :
    exec x.1 s = .next (GuardWrote src 0x263 0x04 (fun g => { g with lcResult := GuardResult.denied.code }) s) :=
  exec_lifeOps_as reached mem (if_neg (Bool.eq_false_iff.mp (mayEarly_of_lower low))) (changeLife_of_denied (by simpa using low))

section
variable (level : (lifeLevel s.dev.sg.lc x.2).rank ≤ srcLevel s.dev src)
include level

omit mem in
/-- A source of the level is shown no refusal. -/
theorem lifeOps_allowed : (if mayEarly s.dev src (lifeLevel s.dev.sg.lc x.2) then 0 else stDenied) = 0 :=
  if_pos (mayEarly_of_reached reached level)

theorem exec_lifeOps_of_busy (busy : s.dev.sg.busy = true ∨ s.dev.sg.keysLoaded = false) :
    exec x.1 s = .next (GuardWrote src 0x263 0 (fun g => { g with lcResult := GuardResult.busy.code }) s) :=
  exec_lifeOps_as reached mem (lifeOps_allowed reached level) (changeLife_of_busy (by simpa using level) (by simpa using busy))

variable (idle : s.dev.sg.busy = false) (loaded : s.dev.sg.keysLoaded = true) (awake : s.dev.pwr.mode ≠ .standby)
  (win : s.dev.hkt.storeWin = true) (cool : s.dev.hkt.tsd = false) (writable : regionWritable s.dev.ocs 5 = true)
include idle loaded awake win cool writable

theorem exec_lifeOps_of_unlisted (unlisted : lifeRow s.dev.sg.lc x.2 = false) :
    exec x.1 s = .next (GuardWrote src 0x263 0 (fun g => { g with lcResult := GuardResult.lifecycle.code }) s) :=
  exec_lifeOps_as reached mem (lifeOps_allowed reached level)
    (changeLife_of_unlisted (by simpa using level) (by simpa using idle) (by simpa using loaded) (by simpa using awake)
      (by simpa using win) (by simpa using cool) (by simpa using writable) (by simpa using unlisted))

theorem exec_lifeOps_begins (listed : lifeRow s.dev.sg.lc x.2 = true) (free : lifeBar s.nv x.2 s.dev = none)
    (settled : s.dev.img.trialOpen = false) :
    ∃ ocs, exec x.1 s = .next (Wrote src 0x263 0 (fun d => { d with sg := { d.sg with busy := true }, ocs := ocs }) s) ∧
      ∃ j ∈ ocs.current.toList ++ ocs.jobs, ∃ mask, j.tag = .lifecycle x.2 mask := by
  obtain ⟨ocs, begun, owed⟩ := changeLife_begins (tm := s.tm) (nv := s.nv) (src := src) (new := x.2)
    (d := (rowStarts src 0x263 s).dev) (by simpa using level) (by simpa using idle) (by simpa using loaded) (by simpa using awake)
    (by simpa using win) (by simpa using cool) (by simpa using writable) (by simpa using listed) (by simpa using free)
    (by simpa using settled)
  exact ⟨ocs, exec_lifeOps_as reached mem (lifeOps_allowed reached level) begun, owed⟩

end

end

section
variable {src : Src} {p : Port} {target : BitVec 3} {s : State}

theorem exec_keyCmd_as (reached : Reaches src .early s) {g : Device → Device} {st : Byte}
    (shown : (if mayEarly s.dev src .custodian then 0 else stDenied) = st)
    (does : keyCommand s.nv src target (rowStarts src 0x264 s).dev = g (rowStarts src 0x264 s).dev) :
    exec (.keyCmd src target) s = .next (Wrote src 0x264 st g s) :=
  commandRow_as (f := fun t => keyCommand t.nv src target) reached (by simpa using shown) (by rw [rowStarts_nv, does])

theorem exec_keyCmd_of_denied (reached : Reaches src .early s) (h : src = .sup ∨ srcLevel s.dev src < 4) :
    exec (.keyCmd src target) s = .next (GuardWrote src 0x264 0x04 (fun g => { g with lcResult := GuardResult.denied.code }) s) := by
  have refused : keyCommand s.nv src target (rowStarts src 0x264 s).dev = _ := keyCommand_of_denied (by simpa using h)
  cases src with
  | sup => exact (exec_keyCmd_as reached rfl refused).trans (congrArg Host.Outcome.next (wrote_sup_status _ _ _ _ _))
  | port p =>
    have low : mayEarly s.dev (.port p) .custodian = false := mayEarly_of_lower (h.resolve_left Src.noConfusion)
    exact exec_keyCmd_as reached (if_neg (Bool.eq_false_iff.mp low)) refused

section
variable (reached : Reaches (.port p) .early s) (level : srcLevel s.dev (.port p) = 4)
include reached level

/-- The custodian's command does what the installation of the key does. -/
theorem exec_keyCmd_of_custodian {g : Device → Device}
    (does : installKey s.nv p target (rowStarts (.port p) 0x264 s).dev = g (rowStarts (.port p) 0x264 s).dev) :
    exec (.keyCmd (.port p) target) s = .next (Wrote (.port p) 0x264 0 g s) :=
  exec_keyCmd_as reached (if_pos (mayEarly_of_reached (least := .custodian) reached level.ge))
    ((keyCommand_of_custodian (by simpa using level)).trans does)

theorem exec_keyCmd_of_other (h : 5 ≤ target.toNat) : exec (.keyCmd (.port p) target) s =
    .next (GuardWrote (.port p) 0x264 0 (fun g => { g with lcResult := GuardResult.badOp.code }) s) :=
  exec_keyCmd_of_custodian reached level (installKey_of_other h)

variable {t : Fin 5} (h : target.toNat = t.val)
include h

theorem exec_keyCmd_of_unloaded (unloaded : s.dev.sg.keysLoaded = false) : exec (.keyCmd (.port p) target) s =
    .next (GuardWrote (.port p) 0x264 0 (fun g => { g with lcResult := GuardResult.busy.code }) s) :=
  exec_keyCmd_of_custodian reached level (installKey_of_unloaded h (by simpa using unloaded))

variable (idle : s.dev.sg.busy = false) (loaded : s.dev.sg.keysLoaded = true) (writable : regionWritable s.dev.ocs 4 = true)
include idle loaded writable

theorem exec_keyCmd_of_check (wrong : beNat ((hmac (unwrapped s.dev p t) (tagEH 0x4B)).take 4) ≠ s.dev.sg.kcv.toNat) :
    exec (.keyCmd (.port p) target) s = .next (GuardWrote (.port p) 0x264 0 (fun g => { g with
      lcResult := GuardResult.kcv.code, intStatus := setBit g.intStatus 4 }) s) :=
  exec_keyCmd_of_custodian reached level (installKey_of_check h (by simpa using idle) (by simpa using loaded)
    (by simpa using writable) (by rw [rowStarts_unwrapped, rowStarts_kcv]; exact wrong))

theorem exec_keyCmd_begins (right_ : beNat ((hmac (unwrapped s.dev p t) (tagEH 0x4B)).take 4) = s.dev.sg.kcv.toNat) :
    ∃ ocs, exec (.keyCmd (.port p) target) s =
        .next (Wrote (.port p) 0x264 0 (fun d => { d with sg := { d.sg with busy := true }, ocs := ocs }) s) ∧
      ∃ j ∈ ocs.current.toList ++ ocs.jobs, j.tag = .key t (keyGen s.dev t + 1) (unwrapped s.dev p t) := by
  obtain ⟨ocs, begun, owed⟩ := installKey_begins (nv := s.nv) (p := p) (d := (rowStarts (.port p) 0x264 s).dev) h
    (by simpa using idle) (by simpa using loaded) (by simpa using writable) (by rw [rowStarts_unwrapped, rowStarts_kcv, right_])
  rw [rowStarts_unwrapped, keyGen, rowStarts_keys] at owed
  exact ⟨ocs, exec_keyCmd_of_custodian reached level begun, owed⟩

end

end

/-- Settles O44: the refusals in their order, and the record that the change waits for. -/
theorem lifeCycleChanges : Obligations.LifeCycleChanges :=
  ⟨fun _ _ reached _ mem => ⟨exec_lifeOps_of_denied reached mem, exec_lifeOps_of_busy reached mem,
      fun level idle loaded awake win cool writable => ⟨exec_lifeOps_of_unlisted reached mem level idle loaded awake win cool writable,
        exec_lifeOps_begins reached mem level idle loaded awake win cool writable⟩⟩,
    fun s pending wiped recovered => (wipesDone_eq (nv := s.nv) pending wiped recovered).imp fun _ => next_of_dev,
    fun _ _ _ => exec_keyCmd_of_denied,
    fun _ _ _ reached level => ⟨exec_keyCmd_of_other reached level, fun _ h => exec_keyCmd_of_unloaded reached level h,
      fun _ h idle loaded writable => ⟨exec_keyCmd_of_check reached level h idle loaded writable,
        exec_keyCmd_begins reached level h idle loaded writable⟩⟩⟩

end Sys2Proof.Machine
end

section
/-! SUPPORT. Sessions (R352 to R355): OPEN, PROVE, CLOSE, the idle time and the end of a lockout. -/

namespace Sys2Proof.Machine

/-! ### The sessions after a change of one -/

section
variable {p q : Port} {d e : Device} {f : Session → Session}

theorem session_of_ports (h : e.sg.ports = bankUpd d.sg.ports (portIdx p) f) : e.session p = f (d.session p) := by
  rw [Device.session, h, bankGet_bankUpd_same, Device.session]

theorem session_of_ports_other (h : e.sg.ports = bankUpd d.sg.ports (portIdx p) f) (other : q ≠ p) : e.session q = d.session q := by
  rw [Device.session, h, bankGet_bankUpd_other _ _ (portIdx_ne other.symm), Device.session]

end

/-! ### OPEN, CLOSE and the timers -/

section
variable {tm : TimeBase} {nv : NonVol} {p : Port} {level : BitVec 2} {d : Device}

theorem endSession_closeSession (p : Port) (r : GuardResult) (d : Device) : endSession p r (closeSession p d) =
    { d with sg := { d.sg with ports := bankUpd d.sg.ports (portIdx p) fun x => { SessionClosed x with result := r.code } } } := by
  unfold endSession closeSession Device.onSession
  dsimp only
  rw [bankUpd_bankUpd]
  rfl

theorem portLocked_closeSession : portLocked tm ((closeSession p d).session p) = portLocked tm (d.session p) := by
  rw [closeSession, Device.onSession_session]
  rfl

theorem openSession_of_failing (fails : failureRuns p d = true) : openSession tm nv p level d = endSession p .busy d := if_pos fails

theorem openSession_of_locked (rests : failureRuns p d = false) (locked : portLocked tm (d.session p) = true) :
    openSession tm nv p level d = { d with sg := { d.sg with
      ports := bankUpd d.sg.ports (portIdx p) fun x => { SessionClosed x with result := GuardResult.locked.code } } } :=
  (if_neg (Bool.eq_false_iff.mp rests)).trans
    ((if_pos (portLocked_closeSession.trans locked)).trans (endSession_closeSession p .locked d))

/-- A challenge with the next CTR is shown (R352). -/
theorem showChallenge_of_left (left_ : d.sg.ctrNext ≠ 0) : showChallenge p level d = { d with
    draws := d.draws + 1
    sg := { d.sg with
      ctrNext := if d.sg.ctrNext = d.sg.ctrEnd then 0 else d.sg.ctrNext + 1
      ports := bankUpd d.sg.ports (portIdx p) fun x => { x with
        state := .challenged, level := level, ctr := d.sg.ctrNext, chal := (List.range 32).map (Config.random d.draws)
        result := GuardResult.ok.code, opening := none } } } := by
  unfold showChallenge
  rw [takeCtr_of_left left_]
  rfl

/-- A session whose challenge is shown. -/
def SessionChallenged (level : BitVec 2) (ctr : Word) (chal : List Byte) (x : Session) : Session :=
  { SessionClosed x with state := .challenged, level := level, ctr := ctr, chal := chal, result := GuardResult.ok.code, opening := none }

theorem openSession_shows (rests : failureRuns p d = false) (free : portLocked tm (d.session p) = false) (left_ : d.sg.ctrNext ≠ 0) :
    openSession tm nv p level d = { d with
      draws := d.draws + 1
      sg := { d.sg with
        ctrNext := if d.sg.ctrNext = d.sg.ctrEnd then 0 else d.sg.ctrNext + 1
        ports := bankUpd d.sg.ports (portIdx p)
          (SessionChallenged level d.sg.ctrNext ((List.range 32).map (Config.random d.draws))) } } := by
  have opened : openSession tm nv p level d = showChallenge p level (closeSession p d) :=
    (if_neg (Bool.eq_false_iff.mp rests)).trans
      ((if_neg (by rw [portLocked_closeSession, free]; decide)).trans (if_pos left_))
  refine opened.trans ((showChallenge_of_left (d := closeSession p d) left_).trans ?_)
  unfold closeSession Device.onSession
  dsimp only
  rw [bankUpd_bankUpd]
  rfl

theorem sessionIdle_of_late (opened : (d.session p).state = .opened)
    (late : (d.session p).lastUse + idleSeconds (d.session p) * 1000000 ≤ tm.us.toNat) :
    ∃ er, sessionIdle tm p d = { d with er := er, sg := { d.sg with ports := bankUpd d.sg.ports (portIdx p) SessionClosed } } :=
  ⟨_, (if_pos ⟨opened, late⟩).trans rfl⟩

theorem sessionIdle_of_early (early : tm.us.toNat < (d.session p).lastUse + idleSeconds (d.session p) * 1000000) :
    sessionIdle tm p d = d := if_neg fun h => Nat.not_le.mpr early h.2

theorem lockoutEnds_of_early {t : Nat} (locked : (d.session p).lockedUntil = some t) (early : tm.us.toNat < t) :
    lockoutEnds tm nv p d = d := by
  unfold lockoutEnds
  rw [locked]
  exact if_neg (Nat.not_le.mpr early)

theorem lockoutEnds_of_late {t : Nat} (locked : (d.session p).lockedUntil = some t) (late : t ≤ tm.us.toNat) :
    ∃ ocs, lockoutEnds tm nv p d = { d with ocs := ocs, sg := { d.sg with
      ports := bankUpd d.sg.ports (portIdx p) fun x => { x with lockedUntil := none } } } := by
  obtain ⟨ocs, written, -⟩ := writePort_eq nv p 0 (d.onSession p fun s => { s with lockedUntil := none })
  refine ⟨ocs, ?_⟩
  unfold lockoutEnds
  rw [locked]
  exact (if_pos late).trans written

/-! ### PROVE -/

theorem prove_of_busy (h : failureRuns p d = true ∨ canCount d = false) : prove tm nv p d = endSession p .busy d := if_pos h

section
variable (rests : failureRuns p d = false) (counts : canCount d = true)
include rests counts

theorem prove_of_state (unchallenged : (d.session p).state ≠ .challenged) : prove tm nv p d = endSession p .state d :=
  (if_neg (by simp [rests, counts])).trans (if_pos unchallenged)

/-- With a challenge and an installed key the proof decides. -/
theorem prove_of_key {key : List Byte} (challenged : (d.session p).state = .challenged) (blank : d.sg.lc ≠ .blank)
    (returned : d.sg.lc ≠ .returned) (installed : keyOf d (Fin.ofNat 5 (d.session p).level.toNat) = some key) : prove tm nv p d =
      if hmac key (proofMessage d (tagEH 0x53) (portIdx p).val (d.session p).level.toNat (d.session p).chal (d.session p).ctr) =
          respBytes (d.session p) then
        proofGood tm nv p (dproofOf key (d.session p)) d
      else countFailure tm nv p (d.session p).level.toNat (raiseSession tm p 3 (d.session p).level.toNat
        ((d.session p).fails.toNat + 1) 0 (d.onSession p fun s => { s with failPending := true })) := by
  unfold prove
  rw [if_neg (by simp [rests, counts]), if_neg (not_not.mpr challenged), if_neg (fun h => blank h.1), if_neg returned, installed]

end

/-- The proof that opens the session of a port (Table 14-2). -/
def expectedProof (d : Device) (p : Port) (key : List Byte) : List Byte :=
  hmac key (proofMessage d (tagEH 0x53) (portIdx p).val (d.session p).level.toNat (d.session p).chal (d.session p).ctr)

/-- A session that a proof has opened. -/
def SessionOpened (dproof : List Byte) (now : Nat) (x : Session) : Session :=
  { x with state := .opened, result := GuardResult.ok.code, fails := 0, lockouts := 0, lockedUntil := none, dproof := dproof
           lastUse := now }

theorem raiseSession_eq (tm : TimeBase) (p : Port) (event level fails lock : Nat) (d : Device) :
    ∃ er, raiseSession tm p event level fails lock d = { d with er := er } := ⟨_, rfl⟩

theorem proofGood_eq (tm : TimeBase) (nv : NonVol) (p : Port) (dproof : List Byte) (d : Device) : ∃ er ocs,
    proofGood tm nv p dproof d = { d with er := er, ocs := ocs, sg := { d.sg with
      intStatus := setBit d.sg.intStatus 0, ports := bankUpd d.sg.ports (portIdx p) (SessionOpened dproof tm.us.toNat) } } := by
  obtain ⟨er, raised⟩ := raiseSession_eq tm p 1 (d.session p).level.toNat 0 0
    (guardInt 0 (d.onSession p (SessionOpened dproof tm.us.toNat)))
  have good : proofGood tm nv p dproof d = if decide ((d.session p).fails ≠ 0) || decide ((d.session p).lockouts ≠ 0) then
      writePort nv p 0 (raiseSession tm p 1 (d.session p).level.toNat 0 0
        (guardInt 0 (d.onSession p (SessionOpened dproof tm.us.toNat))))
    else raiseSession tm p 1 (d.session p).level.toNat 0 0 (guardInt 0 (d.onSession p (SessionOpened dproof tm.us.toNat))) := rfl
  rw [good, raised]
  split
  · obtain ⟨ocs, written, -⟩ := writePort_eq nv p 0 { guardInt 0 (d.onSession p (SessionOpened dproof tm.us.toNat)) with er := er }
    exact ⟨er, ocs, written⟩
  · exact ⟨er, d.ocs, rfl⟩

/-- A session whose failed proof is being counted. -/
def SessionFailing (fails : Nat) (x : Session) : Session := { x with failPending := true, fails := BitVec.ofNat 3 fails }

/-- A wrong proof is counted before it is reported (R354, R355). -/
theorem wrongProof_eq (few : (d.session p).fails.toNat < 4) (level fails : Nat) : ∃ er ocs,
    countFailure tm nv p level (raiseSession tm p 3 level fails 0 (d.onSession p fun s => { s with failPending := true })) =
      { d with er := er, ocs := ocs, sg := { d.sg with
        ports := bankUpd d.sg.ports (portIdx p) (SessionFailing ((d.session p).fails.toNat + 1)) } } ∧
      ∃ j ∈ ocs.current.toList ++ ocs.jobs, j.tag = .port p := by
  have same : ((raiseSession tm p 3 level fails 0 (d.onSession p fun s => { s with failPending := true })).session p) =
      { d.session p with failPending := true } := Device.onSession_session d p _
  obtain ⟨ocs, counted, owed⟩ := countFailure_eq (tm := tm) (nv := nv) (level := level) (p := p)
    (d := raiseSession tm p 3 level fails 0 (d.onSession p fun s => { s with failPending := true })) (by rw [same]; exact few)
  refine ⟨(raiseSession tm p 3 level fails 0 (d.onSession p fun s => { s with failPending := true })).er, ocs, counted.trans ?_, owed⟩
  rw [same]
  unfold raiseSession raise Device.onSession
  dsimp only
  rw [bankUpd_bankUpd]
  rfl

end

/-! ### The rows -/

theorem settleAlert_sg (d : Device) : (settleAlert d).sg = d.sg := rfl

theorem wordStarts_sg (p : Port) (a : Addr) (write : Bool) (d : Device) : (wordStarts p a write d).sg = d.sg := by
  cases p with
  | spi | debug | twoWire => rfl

theorem finishAccess_sg (p : Port) (acc : PendingAccess) (d : Device) : (finishAccess p acc d).sg = d.sg := by
  unfold finishAccess
  cases p with
  | spi =>
    dsimp only
    split
    · rfl
    · rfl
  | twoWire | debug => rfl

theorem noteLast_sg (p : Port) (a : Addr) (st : Byte) (d : Device) : (noteLast p a st d).sg = d.sg := by
  cases p with
  | spi | debug | twoWire => rfl

@[simp] theorem rowEnds_sg (src : Src) (a : Addr) (st : Byte) (d : Device) : (rowEnds src a st d).sg = d.sg := by
  unfold rowEnds
  rw [settleAlert_sg]
  cases src with
  | sup => rfl
  | port p => exact (finishAccess_sg ..).trans (noteLast_sg ..)

@[simp] theorem rowEnds_session (src : Src) (a : Addr) (st : Byte) (d : Device) (q : Port) :
    (rowEnds src a st d).session q = d.session q := by simp [Device.session]

@[simp] theorem rowEnds_ocs (src : Src) (a : Addr) (st : Byte) (d : Device) : (rowEnds src a st d).ocs = d.ocs := by
  obtain ⟨_, _, _, _, h, -⟩ := rowEnds_sameButAccess src a st d; rw [h]
@[simp] theorem rowEnds_draws (src : Src) (a : Addr) (st : Byte) (d : Device) : (rowEnds src a st d).draws = d.draws := by
  obtain ⟨_, _, _, _, h, -⟩ := rowEnds_sameButAccess src a st d; rw [h]

theorem touch_session_other {tm : TimeBase} {p q : Port} {d : Device} (other : q ≠ p) :
    (touch tm (.port p) d).session q = d.session q := by
  unfold touch
  dsimp only
  split
  · rfl
  · rw [Device.session]
    dsimp only
    rw [bankGet_bankUpd_other _ _ (portIdx_ne other.symm), Device.session]

/-- A write of one port leaves the session of every other as it is. -/
theorem rowStarts_session_other {p q : Port} (other : q ≠ p) (a : Addr) (s : State) :
    (rowStarts (.port p) a s).dev.session q = s.dev.session q := by
  have touched_ := touch_session_other (tm := s.tm)
    (d := settleAlert ((wordStarts p a true s.dev).onPort p fun y => { y with pending := some (wordAccess p s.dev) })) other
  refine touched_.trans ?_
  rw [Device.session, settleAlert_sg, Device.onPort_sg, wordStarts_sg, Device.session]

section
variable {p : Port} {a : Addr} {s : State}

@[simp] theorem rowStarts_failureRuns (p q : Port) (a : Addr) (s : State) :
    failureRuns q (rowStarts (.port p) a s).dev = failureRuns q s.dev := by
  obtain ⟨use, session⟩ := rowStarts_session_eq (.port p) a s q
  obtain ⟨ports, sg⟩ := rowStarts_sg (.port p) a s
  rw [failureRuns, session, sg, failureRuns]

@[simp] theorem rowStarts_canCount (src : Src) (a : Addr) (s : State) : canCount (rowStarts src a s).dev = canCount s.dev := by
  simp [canCount]

@[simp] theorem rowStarts_portLocked (src : Src) (a : Addr) (s : State) (tm : TimeBase) (q : Port) :
    portLocked tm ((rowStarts src a s).dev.session q) = portLocked tm (s.dev.session q) := by
  obtain ⟨use, session⟩ := rowStarts_session_eq src a s q
  rw [session]
  rfl

/-- A port's command on its own session (R352). -/
theorem sessionRow_as {w : Word} {f : TimeBase → NonVol → Device → Device} {g : Device → Device} (reached : Reaches (.port p) .early s)
    (does : f s.tm s.nv (rowStarts (.port p) a s).dev = g (rowStarts (.port p) a s).dev) :
    (.next (rowWrite (.port p) a w .early (actSession (.port p) p f) s) : Answer) = .next (Wrote (.port p) a 0 g s) := by
  have own : (decide (Src.port p = .port p) && mayEarly (rowStarts (.port p) a s).dev (.port p) .none) = true := by
    simpa using mayEarly_none_of_reaches reached
  refine congrArg Host.Outcome.next ?_
  rw [rowWrite_of_reaches reached, actSession, writeState_of_allowed own, rowStarts_tm, rowStarts_nv]
  exact wrote_congr does 0

/-- Such a command, with what it leaves of the sessions. -/
theorem sessionRow_changes {w : Word} {f : TimeBase → NonVol → Device → Device} {g : Session → Session} {e : Device}
    (reached : Reaches (.port p) .early s) (does : f s.tm s.nv (rowStarts (.port p) a s).dev = e)
    (ports : e.sg.ports = bankUpd (rowStarts (.port p) a s).dev.sg.ports (portIdx p) g) :
    (.next (rowWrite (.port p) a w .early (actSession (.port p) p f) s) : Answer) =
        .next { s with dev := rowEnds (.port p) a 0 e } ∧
      (∃ use, (rowEnds (.port p) a 0 e).session p = g { s.dev.session p with lastUse := use }) ∧
      ∀ q, q ≠ p → (rowEnds (.port p) a 0 e).session q = s.dev.session q := by
  obtain ⟨use, began⟩ := rowStarts_session_eq (.port p) a s p
  refine ⟨(sessionRow_as (g := fun _ => e) reached does).trans (congrArg Host.Outcome.next (wrote_eq ..)), ⟨use, ?_⟩, fun q other => ?_⟩
  · rw [rowEnds_session, session_of_ports ports, began]
  · rw [rowEnds_session, session_of_ports_other ports other, rowStarts_session_other other]

end

section
variable {p : Port} {level : BitVec 2} {s : State}

section
variable (reached : Reaches (.port p) .early s)
include reached

theorem exec_openSession_of_failing (fails : failureRuns p s.dev = true) : exec (.openSession p level) s =
    .next (GuardWrote (.port p) (wordAt 0x200 32 (portIdx p).val) 0 (fun g => { g with
      ports := bankUpd g.ports (portIdx p) fun x => { x with result := GuardResult.busy.code } }) s) :=
  sessionRow_as (f := fun tm nv => openSession tm nv p level) reached (openSession_of_failing (by simpa using fails))

theorem exec_openSession_of_locked (rests : failureRuns p s.dev = false) (locked : portLocked s.tm (s.dev.session p) = true) :
    exec (.openSession p level) s = .next (GuardWrote (.port p) (wordAt 0x200 32 (portIdx p).val) 0 (fun g => { g with
      ports := bankUpd g.ports (portIdx p) fun x => { SessionClosed x with result := GuardResult.locked.code } }) s) :=
  sessionRow_as (f := fun tm nv => openSession tm nv p level) reached
    (openSession_of_locked (by simpa using rests) (by simpa using locked))

theorem exec_openSession_shows (rests : failureRuns p s.dev = false) (free : portLocked s.tm (s.dev.session p) = false)
    (left_ : s.dev.sg.ctrNext ≠ 0) : ∃ d, exec (.openSession p level) s = .next { s with dev := d } ∧
      (d.session p).state = .challenged ∧ (d.session p).level = level ∧ (d.session p).ctr = s.dev.sg.ctrNext ∧
      (d.session p).chal.length = 32 ∧ (d.session p).result = 0 ∧ (d.sg.ctrNext = 0 ∨ d.sg.ctrNext = s.dev.sg.ctrNext + 1) ∧
      d.draws = s.dev.draws + 1 ∧ (∀ q, q ≠ p → d.session q = s.dev.session q) ∧ d.sg.lc = s.dev.sg.lc ∧ d.rails = s.dev.rails ∧
      d.ocs = s.dev.ocs := by
  obtain ⟨row, ⟨use, own⟩, others⟩ := sessionRow_changes (a := wordAt 0x200 32 (portIdx p).val) (w := word (1 + 0x100 * level.toNat))
    (f := fun tm nv => openSession tm nv p level) reached
    (openSession_shows (by simpa using rests) (by simpa using free) (by simpa using left_)) rfl
  refine ⟨_, row, ?_, ?_, ?_, ?_, ?_, ?_, ?_, others, ?_, ?_, ?_⟩
  · rw [own, SessionChallenged]
  · rw [own, SessionChallenged]
  · rw [own, SessionChallenged, rowStarts_ctrNext]
  · rw [own, SessionChallenged, List.length_map, List.length_range]
  · rw [own]
    rfl
  · rw [rowEnds_sg, rowStarts_ctrNext]
    exact ite_eq_or_eq ..
  · rw [rowEnds_draws, rowStarts_draws]
  · rw [rowEnds_sg, rowStarts_lc]
  · rw [rowEnds_rails, rowStarts_rails]
  · rw [rowEnds_ocs, rowStarts_ocs]

theorem exec_prove_of_busy (h : failureRuns p s.dev = true ∨ canCount s.dev = false) : exec (.prove p) s =
    .next (GuardWrote (.port p) (wordAt 0x200 32 (portIdx p).val) 0 (fun g => { g with
      ports := bankUpd g.ports (portIdx p) fun x => { x with result := GuardResult.busy.code } }) s) :=
  sessionRow_as (f := fun tm nv => prove tm nv p) reached (prove_of_busy (by simpa using h))

theorem exec_prove_of_state (rests : failureRuns p s.dev = false) (counts : canCount s.dev = true)
    (unchallenged : (s.dev.session p).state ≠ .challenged) : exec (.prove p) s =
      .next (GuardWrote (.port p) (wordAt 0x200 32 (portIdx p).val) 0 (fun g => { g with
        ports := bankUpd g.ports (portIdx p) fun x => { x with result := GuardResult.state.code } }) s) := by
  obtain ⟨use, began⟩ := rowStarts_session_eq (.port p) (wordAt 0x200 32 (portIdx p).val) s p
  exact sessionRow_as (f := fun tm nv => prove tm nv p) reached
    (prove_of_state (by simpa using rests) (by simpa using counts) (by rw [began]; exact unchallenged))

theorem exec_close : exec (.close p) s = .next (GuardWrote (.port p) (wordAt 0x200 32 (portIdx p).val) 0 (fun g => { g with
    ports := bankUpd g.ports (portIdx p) fun x => { SessionClosed x with result := 0 } }) s) :=
  sessionRow_as (f := fun _ _ => closeCommand p) reached (endSession_closeSession p .ok _)

section
variable {key : List Byte} (rests : failureRuns p s.dev = false) (challenged : (s.dev.session p).state = .challenged)
  (counts : canCount s.dev = true) (blank : s.dev.sg.lc ≠ .blank) (returned : s.dev.sg.lc ≠ .returned)
  (installed : keyOf s.dev (Fin.ofNat 5 (s.dev.session p).level.toNat) = some key)
include rests challenged counts blank returned installed

omit reached in
/-- Once the write has begun the proof still decides as it did. -/
theorem prove_in_row (a : Addr) : prove s.tm s.nv p (rowStarts (.port p) a s).dev =
    if expectedProof s.dev p key = respBytes (s.dev.session p) then
      proofGood s.tm s.nv p (dproofOf key (s.dev.session p)) (rowStarts (.port p) a s).dev
    else countFailure s.tm s.nv p (s.dev.session p).level.toNat (raiseSession s.tm p 3 (s.dev.session p).level.toNat
      ((s.dev.session p).fails.toNat + 1) 0 ((rowStarts (.port p) a s).dev.onSession p fun s => { s with failPending := true })) := by
  obtain ⟨use, began⟩ := rowStarts_session_eq (.port p) a s p
  have decided := prove_of_key (tm := s.tm) (nv := s.nv) (p := p) (d := (rowStarts (.port p) a s).dev) (key := key)
    (by simpa using rests) (by simpa using counts) (by rw [began]; exact challenged) (by simpa using blank) (by simpa using returned)
    (by rw [began, rowStarts_keyOf]; exact installed)
  simp only [began, proofMessage, rowStarts_lc] at decided
  exact decided

theorem exec_prove_of_right (right_ : expectedProof s.dev p key = respBytes (s.dev.session p)) :
    ∃ d, exec (.prove p) s = .next { s with dev := d } ∧ (d.session p).state = .opened ∧
      (d.session p).level = (s.dev.session p).level ∧ (d.session p).result = 0 ∧ (d.session p).fails = 0 ∧
      (d.session p).lockouts = 0 ∧ (d.session p).dproof = hmac key (tagEH 0x44 ++ respBytes (s.dev.session p)) ∧
      ∀ q, q ≠ p → d.session q = s.dev.session q := by
  obtain ⟨er, ocs, good⟩ := proofGood_eq s.tm s.nv p (dproofOf key (s.dev.session p))
    (rowStarts (.port p) (wordAt 0x200 32 (portIdx p).val) s).dev
  obtain ⟨row, ⟨use, own⟩, others⟩ := sessionRow_changes (a := wordAt 0x200 32 (portIdx p).val) (w := 2)
    (f := fun tm nv => prove tm nv p) reached
    ((prove_in_row rests challenged counts blank returned installed _).trans ((if_pos right_).trans good)) rfl
  refine ⟨_, row, ?_⟩
  rw [own]
  exact ⟨rfl, rfl, rfl, rfl, rfl, rfl, others⟩

theorem exec_prove_of_wrong (wrong : expectedProof s.dev p key ≠ respBytes (s.dev.session p)) (few : (s.dev.session p).fails.toNat < 4) :
    ∃ d, exec (.prove p) s = .next { s with dev := d } ∧ (d.session p).state = .challenged ∧ (d.session p).failPending = true ∧
      (d.session p).fails.toNat = (s.dev.session p).fails.toNat + 1 ∧ (d.session p).result = (s.dev.session p).result ∧
      ∃ j ∈ d.ocs.current.toList ++ d.ocs.jobs, j.tag = .port p := by
  obtain ⟨use', began⟩ := rowStarts_session_eq (.port p) (wordAt 0x200 32 (portIdx p).val) s p
  obtain ⟨er, ocs, counted, owed⟩ := wrongProof_eq (tm := s.tm) (nv := s.nv) (p := p)
    (d := (rowStarts (.port p) (wordAt 0x200 32 (portIdx p).val) s).dev) (by rw [began]; exact few) (s.dev.session p).level.toNat
    ((s.dev.session p).fails.toNat + 1)
  obtain ⟨row, ⟨use, own⟩, -⟩ := sessionRow_changes (a := wordAt 0x200 32 (portIdx p).val) (w := 2)
    (f := fun tm nv => prove tm nv p) reached
    ((prove_in_row rests challenged counts blank returned installed _).trans ((if_neg wrong).trans counted)) rfl
  have small : (s.dev.session p).fails.toNat + 1 < 2 ^ 3 := by omega
  refine ⟨_, row, ?_⟩
  rw [own, rowEnds_ocs, began]
  exact ⟨challenged, rfl, Nat.mod_eq_of_lt small, rfl, owed⟩

end

end

end

/-- Settles O43: a port's commands in the order of their refusals, and the timers. -/
theorem sessionsWork : Obligations.SessionsWork :=
  ⟨fun _ _ _ reached => ⟨exec_openSession_of_failing reached, exec_openSession_of_locked reached, exec_openSession_shows reached⟩,
    fun _ _ reached => ⟨exec_prove_of_busy reached, exec_prove_of_state reached,
      fun _ rests challenged counts blank returned installed =>
        ⟨exec_prove_of_right reached rests challenged counts blank returned installed,
          exec_prove_of_wrong reached rests challenged counts blank returned installed⟩⟩,
    fun _ _ => exec_close,
    fun _ s opened => ⟨fun late => (sessionIdle_of_late (tm := s.tm) opened late).imp fun _ => next_of_dev,
      fun early => next_of_dev (sessionIdle_of_early early)⟩,
    fun _ _ s locked => ⟨fun early => next_of_dev (lockoutEnds_of_early locked early),
      fun late => (lockoutEnds_of_late (tm := s.tm) (nv := s.nv) locked late).imp fun _ => next_of_dev⟩⟩

end Sys2Proof.Machine
end

section
/-! SUPPORT. No register returns key material (R349): what each window shows does not depend on keys, KEYDATA or RESP. -/

namespace Sys2Proof.Machine

/-- The device with other keys, KEYDATA and RESP. -/
def rekeyed (keydata : Bank 8 Word) (keys : Bank 5 (Option KeySlot)) (resp : Bank 3 (Bank 8 Word)) (d : Device) : Device :=
  { d with sg := { d.sg with
    keydata := keydata
    keys := keys
    ports := bankOf fun i => { bankGet d.sg.ports i with resp := bankGet resp i } } }

section
variable {keydata : Bank 8 Word} {keys : Bank 5 (Option KeySlot)} {resp : Bank 3 (Bank 8 Word)} {d : Device} {tm : TimeBase} {nv : NonVol}

theorem rekeyed_session (i : Fin 3) :
    bankGet (rekeyed keydata keys resp d).sg.ports i = { bankGet d.sg.ports i with resp := bankGet resp i } := bankGet_bankOf ..

/-! ### The windows that show nothing of sessions or keys -/

section
variable (a : Nat)

theorem readSys_rekeyed : readSys (rekeyed keydata keys resp d) a = readSys d a := rfl
theorem readClk_rekeyed : readClk (rekeyed keydata keys resp d) a = readClk d a := rfl
theorem readFw_rekeyed : readFw tm nv (rekeyed keydata keys resp d) a = readFw tm nv d a := rfl
theorem readImg_rekeyed : readImg (rekeyed keydata keys resp d) a = readImg d a := rfl
theorem readPli_rekeyed : readPli (rekeyed keydata keys resp d) a = readPli d a := rfl
theorem readTbi_rekeyed : readTbi tm (rekeyed keydata keys resp d) a = readTbi tm d a := rfl
theorem readRail_rekeyed (r : Fin 64) : readRail (rekeyed keydata keys resp d) r a = readRail d r a := rfl
theorem readRm_rekeyed : readRm (rekeyed keydata keys resp d) a = readRm d a := rfl
theorem readLoop_rekeyed (r : Fin 64) : readLoop (rekeyed keydata keys resp d) r a = readLoop d r a := rfl
theorem readEngine_rekeyed : readEngine (rekeyed keydata keys resp d) a = readEngine d a := rfl
theorem readHearth_rekeyed : readHearth (rekeyed keydata keys resp d) a = readHearth d a := rfl
theorem readPartner_rekeyed (h : Fin 256) : readPartner tm (rekeyed keydata keys resp d) h a = readPartner tm d h a := rfl
theorem readPorts_rekeyed : readPorts (rekeyed keydata keys resp d) a = readPorts d a := rfl
theorem readProtect_rekeyed : readProtect (rekeyed keydata keys resp d) a = readProtect d a := rfl
theorem readHousekeeping_rekeyed : readHousekeeping (rekeyed keydata keys resp d) a = readHousekeeping d a := rfl
theorem readStore_rekeyed : readStore nv (rekeyed keydata keys resp d) a = readStore nv d a := rfl
theorem readRecorder_rekeyed : readRecorder tm (rekeyed keydata keys resp d) a = readRecorder tm d a := rfl
theorem readBog_rekeyed : readBog tm (rekeyed keydata keys resp d) a = readBog tm d a := rfl
theorem irqSum_rekeyed : irqSum (rekeyed keydata keys resp d) = irqSum d := rfl
theorem readTwp_rekeyed : readTwp (rekeyed keydata keys resp d) a = readTwp d a := rfl

/-- HSP.STATUS tells of the session only whether it is open. -/
theorem hspStatus_rekeyed : hspStatus (rekeyed keydata keys resp d) = hspStatus d := by
  have opened : sessionOpen (rekeyed keydata keys resp d) .spi = sessionOpen d .spi := by
    rw [sessionOpen, Device.session, rekeyed_session, sessionOpen, Device.session]
  unfold hspStatus
  rw [opened]
  rfl

theorem readHsp_rekeyed : readHsp (rekeyed keydata keys resp d) a = readHsp d a := by
  unfold readHsp
  rw [hspStatus_rekeyed, irqSum_rekeyed]
  rfl

end

/-! ### The session guard -/

section
variable (gens : ∀ k, (bankGet keys k).map (·.gen) = (bankGet d.sg.keys k).map (·.gen))
include gens

theorem keyGen_rekeyed (t : Fin 5) : keyGen (rekeyed keydata keys resp d) t = keyGen d t := by
  have shown (x : Option KeySlot) : (match x with | some k => k.gen | none => 0) = (x.map (·.gen)).getD 0 := by cases x <;> rfl
  exact (shown _).trans ((congrArg (Option.getD · 0) (gens t)).trans (shown _).symm)

/-- SG.KEY_STATUS tells which keys are installed. -/
theorem installed_rekeyed : keys.toList.map (·.isSome) = d.sg.keys.toList.map (·.isSome) := by
  have each (k : Fin 5) : (bankGet keys k).isSome = (bankGet d.sg.keys k).isSome := by
    rw [← Option.isSome_map (f := (·.gen)), gens k, Option.isSome_map]
  rw [← Vector.toList_map, ← Vector.toList_map]
  exact congrArg Vector.toList (Vector.ext fun k h => by simpa [bankGet] using each ⟨k, h⟩)

theorem readGuard_rekeyed (a : Nat) : readGuard tm (rekeyed keydata keys resp d) a = readGuard tm d a := by
  have session (i : Fin 3) (off : Nat) : readPort tm (bankGet (rekeyed keydata keys resp d).sg.ports i) off =
      readPort tm (bankGet d.sg.ports i) off := by
    rw [rekeyed_session]
    rfl
  have installed : (rekeyed keydata keys resp d).sg.keys.toList.map (·.isSome) = d.sg.keys.toList.map (·.isSome) :=
    installed_rekeyed gens
  unfold readGuard
  simp only [session, installed, keyGen_rekeyed gens]
  rfl

theorem readWord_rekeyed {s : State} (of_ : s.dev = d) (a : Nat) :
    readWord { s with dev := rekeyed keydata keys resp d } a = readWord s a := by
  subst of_
  unfold readWord
  dsimp only
  simp only [readSys_rekeyed, readClk_rekeyed, readGuard_rekeyed gens, readFw_rekeyed, readHsp_rekeyed, readImg_rekeyed,
    readPli_rekeyed, readTbi_rekeyed, readRail_rekeyed, readRm_rekeyed, readLoop_rekeyed, readEngine_rekeyed, readHearth_rekeyed,
    readPartner_rekeyed, readPorts_rekeyed, readProtect_rekeyed, readHousekeeping_rekeyed, readStore_rekeyed, readRecorder_rekeyed,
    readBog_rekeyed, readTwp_rekeyed]
  rfl

end

/-! ### KEYDATA and RESP -/

theorem readWord_of_guard {s : State} {a : Nat} (low : 0x200 ≤ a) (high : a < 0x300) : readWord s a = readGuard s.tm s.dev a := by
  unfold readWord
  rw [if_neg (by omega), if_neg (by omega), if_pos high]

theorem readGuard_keydata (k : Fin 8) : readGuard tm d (0x270 + k.val) = some 0 := by
  have out : within (0x270 + k.val) 0x267 5 = none := (if_pos (by omega)).trans (dif_neg (by omega))
  unfold readGuard
  rw [out]
  simp (disch := omega) only [if_neg, if_pos]

theorem readPort_resp (x : Session) (k : Fin 8) : readPort tm x (10 + k.val) = some 0 := by
  unfold readPort
  simp (disch := omega) only [if_neg, if_pos]

theorem readGuard_resp (p : Fin 3) (k : Fin 8) : readGuard tm d (0x200 + 32 * p.val + 10 + k.val) = some 0 := by
  have off : (0x200 + 32 * p.val + 10 + k.val - 0x200) % 32 = 10 + k.val := by omega
  unfold readGuard
  rw [off, readPort_resp]
  simp (disch := omega) only [if_neg, if_pos]

end

/-- Settles O60: window by window, and the words of KEYDATA and RESP. -/
theorem keysHidden : Obligations.KeysHidden :=
  ⟨fun _ _ _ _ gens => readWord_rekeyed gens rfl,
    fun _ k => (readWord_of_guard (by omega) (by omega)).trans (readGuard_keydata k),
    fun _ p k => (readWord_of_guard (by omega) (by omega)).trans (readGuard_resp p k)⟩

end Sys2Proof.Machine
end

section
/-! SUPPORT. The two-wire port as controller (R329, R336 to R343): timing fields, bus errors, polls and the recovery of a held SDA. -/

namespace Sys2Proof.Machine

/-! ### Timing fields (R329) -/

theorem clampNat_bounds {lo hi : Nat} (h : lo ≤ hi) (n : Nat) : lo ≤ clampNat lo hi n ∧ clampNat lo hi n ≤ hi :=
  ⟨Nat.le_max_left .., Nat.max_le.mpr ⟨h, Nat.min_le_left ..⟩⟩

/-- A range that the fields of a width can hold. -/
def RangeOf (width : Nat) (r : Nat × Nat) : Prop := r.1 ≤ r.2 ∧ r.2 < 2 ^ width

/-- A field clamped into such a range lies in it. -/
theorem clamped_in_range {w : Nat} {r : Nat × Nat} (h : RangeOf w r) (n : Nat) :
    r.1 ≤ (BitVec.ofNat w (clampNat r.1 r.2 n)).toNat ∧ (BitVec.ofNat w (clampNat r.1 r.2 n)).toNat ≤ r.2 := by
  obtain ⟨low, high⟩ := clampNat_bounds h.1 n
  rw [BitVec.toNat_ofNat, Nat.mod_eq_of_lt (high.trans_lt h.2)]
  exact ⟨low, high⟩

theorem timingRange_fits (speed : Nat) : RangeOf 16 (timingRange speed).1 ∧ RangeOf 16 (timingRange speed).2.1 ∧
    RangeOf 8 (timingRange speed).2.2.1 ∧ RangeOf 8 (timingRange speed).2.2.2 := by
  unfold timingRange RangeOf
  split <;> decide

/-- The timing fields of a port lie in the ranges of its mode. -/
def TimingHolds (t : TwoWire) : Prop :=
  (timingRange t.speed.toNat).1.1 ≤ t.tlow.toNat ∧ t.tlow.toNat ≤ (timingRange t.speed.toNat).1.2 ∧
  (timingRange t.speed.toNat).2.1.1 ≤ t.thigh.toNat ∧ t.thigh.toNat ≤ (timingRange t.speed.toNat).2.1.2 ∧
  (timingRange t.speed.toNat).2.2.1.1 ≤ t.tsudat.toNat ∧ t.tsudat.toNat ≤ (timingRange t.speed.toNat).2.2.1.2 ∧
  (timingRange t.speed.toNat).2.2.2.1 ≤ t.thddat.toNat ∧ t.thddat.toNat ≤ (timingRange t.speed.toNat).2.2.2.2

theorem clampTiming_holds (t : TwoWire) : TimingHolds (clampTiming t) := by
  obtain ⟨tlow, thigh, tsudat, thddat⟩ := timingRange_fits t.speed.toNat
  obtain ⟨l, l'⟩ := clamped_in_range tlow t.tlow.toNat
  obtain ⟨h, h'⟩ := clamped_in_range thigh t.thigh.toNat
  obtain ⟨u, u'⟩ := clamped_in_range tsudat t.tsudat.toNat
  obtain ⟨d, d'⟩ := clamped_in_range thddat t.thddat.toNat
  exact ⟨l, l', h, h', u, u', d, d'⟩

theorem writeTiming_holds (second : Bool) (data : Word) (t : TwoWire) : TimingHolds (writeTiming second data t) :=
  clampTiming_holds _

section
variable {tm : TimeBase} {e : Fin 32} {d : Device}

/-! ### Bus errors and a clock held low (R336, R337) -/

/-- A TWO_WIRE record: but for it, and what it draws, nothing changes. -/
theorem raiseTwp_eq (tm : TimeBase) (event : Nat) (e : Option (Fin 32)) (d : Device) :
    ∃ er draws, raiseTwp tm event e d = { d with er := er, draws := draws } := by
  cases e with
  | some e => exact ⟨_, d.draws, rfl⟩
  | none => exact ⟨_, d.draws + 1, rfl⟩

theorem sclHeld_eq (tm : TimeBase) (e : Option (Fin 32)) (d : Device) : ∃ er draws, sclHeld tm e d = { d with
    er := er, draws := draws, twp := { d.twp with
      timeouts := d.twp.timeouts + 1, sclStuck := true, recovery := none, intStatus := setBit d.twp.intStatus 6 } } := by
  unfold sclHeld
  dsimp only
  split
  · exact ⟨d.er, d.draws, rfl⟩
  · obtain ⟨er, draws, raised⟩ := raiseTwp_eq tm 2 e (twpInt 6 (d.onTwp fun t => { t with
      timeouts := t.timeouts + 1, sclStuck := true, recovery := none }))
    exact ⟨er, draws, raised⟩

theorem busError_of_target (on : d.twp.en = true) (writing : Bool) : busError tm (.target writing) d =
    discardIf writing (twpInt 2 (d.onTwp fun t => { t with busErrs := t.busErrs + 1, busBusy := true })) := if_neg (by simp [on])

theorem busError_of_write (on : d.twp.en = true) : busError tm (.target true) d = { d with twp := { d.twp with
    busErrs := d.twp.busErrs + 1, busBusy := true, pageDiscards := d.twp.pageDiscards + 1
    intStatus := setBit (setBit d.twp.intStatus 2) 5 } } := by
  rw [busError_of_target on, discardIf, if_pos rfl]
  unfold discardPage twpInt Device.onTwp
  rfl

theorem busError_of_read (on : d.twp.en = true) : busError tm (.target false) d = { d with twp := { d.twp with
    busErrs := d.twp.busErrs + 1, busBusy := true, intStatus := setBit d.twp.intStatus 2 } } := by
  rw [busError_of_target on, discardIf, if_neg Bool.false_ne_true]
  unfold twpInt Device.onTwp
  rfl

theorem busError_of_idle (on : d.twp.en = true) (idle : d.twp.polling = none) : busError tm .controller d = d := by
  refine (if_neg (by simp [on])).trans ?_
  dsimp only
  rw [idle]

theorem clockLowTimeout_of_off (off : d.twp.smbTo = false) (role : TwpRole) : clockLowTimeout tm role d = d := if_pos (by simp [off])

theorem clockLowTimeout_of_target (on : d.twp.en = true) (smbTo : d.twp.smbTo = true) (writing : Bool) :
    clockLowTimeout tm (.target writing) d = discardIf writing (sclHeld tm none (d.onTwp fun t => { t with busBusy := true })) :=
  if_neg (by simp [on, smbTo])

theorem clockLowTimeout_of_write (on : d.twp.en = true) (smbTo : d.twp.smbTo = true) :
    ∃ er draws, clockLowTimeout tm (.target true) d = { d with er := er, draws := draws, twp := { d.twp with
      timeouts := d.twp.timeouts + 1, busBusy := true, sclStuck := true, recovery := none
      pageDiscards := d.twp.pageDiscards + 1, intStatus := setBit (setBit d.twp.intStatus 6) 5 } } := by
  obtain ⟨er, draws, held⟩ := sclHeld_eq tm none (d.onTwp fun t => { t with busBusy := true })
  rw [clockLowTimeout_of_target on smbTo, held]
  exact ⟨er, draws, rfl⟩

theorem clockLowTimeout_of_read (on : d.twp.en = true) (smbTo : d.twp.smbTo = true) :
    ∃ er draws, clockLowTimeout tm (.target false) d = { d with er := er, draws := draws, twp := { d.twp with
      timeouts := d.twp.timeouts + 1, busBusy := true, sclStuck := true, recovery := none
      intStatus := setBit d.twp.intStatus 6 } } := by
  obtain ⟨er, draws, held⟩ := sclHeld_eq tm none (d.onTwp fun t => { t with busBusy := true })
  rw [clockLowTimeout_of_target on smbTo, held]
  exact ⟨er, draws, rfl⟩

theorem raise_twp (tm : TimeBase) (code : Nat) (payload : List Byte) (d : Device) : (raise tm code payload d).twp = d.twp := rfl

theorem raiseTwp_twp (tm : TimeBase) (event : Nat) (e : Option (Fin 32)) (d : Device) : (raiseTwp tm event e d).twp = d.twp := by
  obtain ⟨er, draws, raised⟩ := raiseTwp_eq tm event e d
  exact (congrArg Device.twp raised :)

/-! ### How a poll ends (R340, R341) -/

/-- A poll that fails: the port's record of it, with an event where the last one succeeded. -/
theorem pollFails_eq (tm : TimeBase) (e : Fin 32) (res : PollResult) (d : Device) : ∃ er draws, pollFails tm e res d =
    { d with er := er, draws := draws, twp := { d.twp with
      per := bankUpd d.twp.per e fun x => { x with result := res, fails := satInc x.fails }, intStatus := setBit d.twp.intStatus 0 } } := by
  unfold pollFails
  dsimp only
  split
  · obtain ⟨er, draws, raised⟩ := raiseTwp_eq tm 4 (some e) (twpInt 0 (d.onPer e fun x => { x with
      result := res, fails := satInc x.fails }))
    rw [raised]
    unfold twpInt Device.onPer Device.onTwp
    exact ⟨er, draws, rfl⟩
  · exact ⟨d.er, d.draws, rfl⟩

/-- An entry whose poll has brought a value. -/
def Polled (tm : TimeBase) (value : List Byte) (x : PerStatus) : PerStatus :=
  { x with result := .ok, oks := x.oks + 1, lastOk := tm.us.setWidth 32, okAt := some (ticksNow tm), value := value, fails := 0 }

theorem pollSucceeds_eq (tm : TimeBase) (e : Fin 32) (value : List Byte) (d : Device) : ∃ er draws, pollSucceeds tm e value d =
    { d with er := er, draws := draws, twp := { d.twp with per := bankUpd d.twp.per e (Polled tm value) } } := by
  unfold pollSucceeds
  dsimp only
  split
  · obtain ⟨er, draws, raised⟩ := raiseTwp_eq tm 3 (some e) (d.onPer e fun x => { x with
      result := .ok, oks := x.oks + 1, lastOk := tm.us.setWidth 32, okAt := some (ticksNow tm), value := value })
    rw [raised]
    unfold Device.onPer Device.onTwp
    dsimp only
    rw [bankUpd_bankUpd]
    exact ⟨er, draws, rfl⟩
  · unfold Device.onPer Device.onTwp
    dsimp only
    rw [bankUpd_bankUpd]
    exact ⟨d.er, d.draws, rfl⟩

/-- What a recovery of the bus, if one begins, leaves of the port. -/
theorem startRecovery_keeps (tm : TimeBase) (e : Option (Fin 32)) (freedAt : Option (Fin 9)) (d : Device) :
    (startRecovery tm e freedAt d).twp.polling = d.twp.polling ∧ (startRecovery tm e freedAt d).twp.per = d.twp.per ∧
    (startRecovery tm e freedAt d).twp.intStatus = d.twp.intStatus := by
  unfold startRecovery
  split
  · exact ⟨rfl, rfl, rfl⟩
  · exact ⟨rfl, rfl, rfl⟩

theorem afterPoll_keeps (tm : TimeBase) (d : Device) :
    (afterPoll tm d).twp.polling = d.twp.polling ∧ (afterPoll tm d).twp.per = d.twp.per ∧
    (afterPoll tm d).twp.intStatus = d.twp.intStatus := by
  unfold afterPoll
  split
  · exact startRecovery_keeps tm none _ _
  · exact ⟨rfl, rfl, rfl⟩

/-- The poll on the bus ends as its outcome says. -/
theorem pollRuns_of_polling {p : PeriphEntry} {o : PollOutcome} (polling : d.twp.polling = some e) (entry : pollEntry d e = some p) :
    pollRuns tm e o d = afterPoll tm (pollOutcome tm e p d o) := by
  unfold pollRuns
  rw [entry]
  refine if_pos ?_
  cases o with
  | sdaHeld _ => exact Bool.or_eq_true_iff.mpr (.inl (decide_eq_true polling))
  | data _ | nackAddr | nackData | arbLost | busError | clockLow => exact decide_eq_true polling

theorem endPoll_twp (e : Fin 32) (d : Device) : (endPoll e d).twp =
    { d.twp with per := bankUpd d.twp.per e fun x => { x with attempts := 0 }, polling := none } := rfl

/-- A poll whose bytes are complete and right brings its value. -/
theorem pollRuns_of_data {p : PeriphEntry} {bytes : List Byte} (polling : d.twp.polling = some e) (entry : pollEntry d e = some p)
    (length : bytes.length = p.len + bit p.pec) (right_ : p.pec = true → crc8 (pollHeader p ++ bytes) = 0) :
    (pollRuns tm e (.data bytes) d).twp.polling = none ∧ (pollRuns tm e (.data bytes) d).twp.per =
      bankUpd d.twp.per e fun x => Polled tm (bytes.take p.len) { x with attempts := 0 } := by
  have outcome : pollOutcome tm e p d (.data bytes) = pollSucceeds tm e (bytes.take p.len) (endPoll e d) :=
    (if_neg (not_not.mpr length)).trans (if_neg fun h => h.2 (right_ h.1))
  obtain ⟨er, draws, succeeded⟩ := pollSucceeds_eq tm e (bytes.take p.len) (endPoll e d)
  obtain ⟨idle, per, -⟩ := afterPoll_keeps tm (pollOutcome tm e p d (.data bytes))
  rw [pollRuns_of_polling polling entry, idle, per, outcome, succeeded]
  dsimp only
  rw [endPoll_twp]
  exact ⟨rfl, bankUpd_bankUpd ..⟩

/-- A poll that the device does not acknowledge fails. -/
theorem pollRuns_of_nackAddr {p : PeriphEntry} (polling : d.twp.polling = some e) (entry : pollEntry d e = some p) :
    (pollRuns tm e .nackAddr d).twp.polling = none ∧ (pollRuns tm e .nackAddr d).twp.intStatus = setBit d.twp.intStatus 0 ∧
      (pollRuns tm e .nackAddr d).twp.per =
        bankUpd d.twp.per e fun x => { x with attempts := 0, result := .nackAddr, fails := satInc x.fails } := by
  obtain ⟨er, draws, failed⟩ := pollFails_eq tm e .nackAddr (endPoll e d)
  obtain ⟨idle, per, int⟩ := afterPoll_keeps tm (pollOutcome tm e p d .nackAddr)
  have outcome : pollOutcome tm e p d .nackAddr = pollFails tm e .nackAddr (endPoll e d) := rfl
  rw [pollRuns_of_polling polling entry, idle, per, int, outcome, failed]
  dsimp only
  rw [endPoll_twp]
  refine ⟨rfl, rfl, ?_⟩
  dsimp only
  rw [bankUpd_bankUpd]

/-! ### When a poll falls due (R339) -/

theorem pollDue_of_early (early : fallsDue tm e d = false) : pollDue tm e d = d := if_pos (by simp [early])

section
variable (on : controllerOn d = true) (due : fallsDue tm e d = true)
include on due

theorem pollDue_eq : pollDue tm e d =
    if (bankGet d.twp.per e).due then pollFails tm e .busyLate (d.onPer e fun x => { x with dueAt := some tm.us.toNat, due := true })
    else startPoll (d.onPer e fun x => { x with dueAt := some tm.us.toNat, due := true }) := if_neg (by simp [on, due])

theorem pollDue_of_late (late : (bankGet d.twp.per e).due = true) : ∃ er draws, pollDue tm e d = { d with
    er := er, draws := draws, twp := { d.twp with
      per := bankUpd d.twp.per e fun x =>
        { x with dueAt := some tm.us.toNat, due := true, result := .busyLate, fails := satInc x.fails }
      intStatus := setBit d.twp.intStatus 0 } } := by
  obtain ⟨er, draws, failed⟩ := pollFails_eq tm e .busyLate (d.onPer e fun x => { x with dueAt := some tm.us.toNat, due := true })
  refine ⟨er, draws, (pollDue_eq on due).trans ((if_pos late).trans (failed.trans ?_))⟩
  unfold Device.onPer Device.onTwp
  dsimp only
  rw [bankUpd_bankUpd]

theorem pollDue_of_busy (fresh : (bankGet d.twp.per e).due = false) (busy : d.twp.busBusy = true) :
    pollDue tm e d = d.onPer e fun x => { x with dueAt := some tm.us.toNat, due := true } :=
  (pollDue_eq on due).trans ((if_neg (Bool.eq_false_iff.mp fresh)).trans (if_pos (by simp [Device.onPer, Device.onTwp, busy])))

end

theorem fallsDue_entry (due : fallsDue tm e d = true) : (pollEntry d e).isSome = true := by
  unfold fallsDue at due
  split at due
  · next p entry => rw [entry, Option.isSome_some]
  · exact absurd due Bool.false_ne_true

/-- With no other entry due, the one that has fallen due is the only one that waits. -/
theorem bankWhere_of_only {n : Nat} {α : Type} {b : Bank n α} {i : Fin n} {p : α → Bool} (own : p (bankGet b i) = true)
    (others : ∀ k, k ≠ i → p (bankGet b k) = false) : bankWhere b p = [i] := by
  have same : (fun k => p (bankGet b k)) = fun k => k == i := by
    funext k
    by_cases h : k = i
    · subst h
      simp [own]
    · simp [h, others k h]
  rw [bankWhere, same, List.filter_beq, List.count_eq_one_of_mem (List.nodup_finRange n) (List.mem_finRange i)]
  rfl

/-- On a free bus the only poll that waits starts. -/
theorem startPoll_of_only (on : controllerOn d = true) (free : d.twp.busBusy = false) (whole : d.twp.recovery = none)
    (idle : d.twp.polling = none) (entry : (pollEntry d e).isSome = true) (own : (bankGet d.twp.per e).due = true)
    (others : ∀ k, k ≠ e → (bankGet d.twp.per k).due = false) : startPoll d =
      (d.onPer e fun x => { x with due := false }).onTwp fun t => { t with polling := some e, busBusy := true } := by
  have only : bankWhere d.twp.per (fun x => x.due) = [e] := bankWhere_of_only own others
  have first : (waitingPolls d).find? (fun e => (pollEntry d e).isSome) = some e := by
    unfold waitingPolls
    dsimp only
    rw [only, List.filter_singleton]
    cases decide (0 < (bankGet d.twp.per e).attempts)
    · simp [entry]
    · simp [entry]
  unfold startPoll
  rw [if_neg (by simp [on, free, whole, idle]), first]

theorem pollDue_starts (on : controllerOn d = true) (due : fallsDue tm e d = true) (fresh : ∀ k, (bankGet d.twp.per k).due = false)
    (free : d.twp.busBusy = false) (whole : d.twp.recovery = none) (idle : d.twp.polling = none) :
    (pollDue tm e d).twp.polling = some e ∧ (pollDue tm e d).twp.busBusy = true ∧
      (bankGet (pollDue tm e d).twp.per e).due = false ∧ (pollDue tm e d).hkt = d.hkt ∧ (pollDue tm e d).er = d.er := by
  have started := startPoll_of_only (d := d.onPer e fun x => { x with dueAt := some tm.us.toNat, due := true }) (e := e) on free whole
    idle (fallsDue_entry (d := d) due) (by simp [Device.onPer, Device.onTwp]) fun k other => by
      simp only [Device.onPer, Device.onTwp, bankGet_bankUpd_other _ _ other.symm]
      exact fresh k
  rw [pollDue_eq on due, if_neg (Bool.eq_false_iff.mp (fresh e)), started]
  unfold Device.onPer Device.onTwp
  dsimp only
  rw [bankGet_bankUpd_same]
  exact ⟨rfl, rfl, rfl, rfl, rfl⟩

/-! ### Bus recovery (R343) -/

theorem startRecovery_begins {freedAt : Option (Fin 9)} (entry : Option (Fin 32)) (on : d.twp.en = true) (high : d.twp.sclStuck = false)
    (whole : d.twp.recovery = none) : startRecovery tm entry freedAt d = { d with twp := { d.twp with
      busBusy := true, retryFrom := none
      recovery := some ⟨freedAt, entry, ticksNow tm + recoveryTicks d.twp freedAt⟩ } } := if_neg (by simp [on, high, whole])

theorem recoverNow_of_polling {freedAt : Option (Fin 9)} (polling : d.twp.polling ≠ none) :
    recoverNow tm freedAt d = { d with twp := { d.twp with recoverAsked := some freedAt } } :=
  if_pos (Option.isSome_iff_ne_none.mpr polling)

theorem recoverNow_of_idle {freedAt : Option (Fin 9)} (idle : d.twp.polling = none) :
    recoverNow tm freedAt d = startRecovery tm none freedAt d := if_neg (by simp [idle])

theorem tickRecovery_of_late {x : Recovery} (recovery : d.twp.recovery = some x) (late : x.endsAt ≤ ticksNow tm) :
    tickRecovery tm d = busRecoveryEnds tm x d := by
  unfold tickRecovery
  rw [recovery]
  exact if_pos late

/-- A recovery that has not freed SDA: the poll that needs the bus ends with STUCK, and it is tried again. -/
theorem busRecoveryEnds_of_stuck (tm : TimeBase) (entry : Option (Fin 32)) (t : Nat) (d : Device) :
    (busRecoveryEnds tm ⟨none, entry, t⟩ d).twp.recovery = none ∧ (busRecoveryEnds tm ⟨none, entry, t⟩ d).twp.sdaStuck = true ∧
    (busRecoveryEnds tm ⟨none, entry, t⟩ d).twp.recoverFails = d.twp.recoverFails + 1 ∧
    (busRecoveryEnds tm ⟨none, entry, t⟩ d).twp.retryFrom = some tm.us.toNat ∧
    (∀ i, entry = some i → (bankGet d.twp.per i).due = true →
      (bankGet (busRecoveryEnds tm ⟨none, entry, t⟩ d).twp.per i).result = .stuck) := by
  unfold busRecoveryEnds
  dsimp only
  rw [raiseTwp_twp]
  cases entry with
  | none => exact ⟨rfl, rfl, rfl, rfl, fun i h => absurd h (Option.some_ne_none i).symm⟩
  | some i =>
    dsimp only
    split
    · obtain ⟨er, draws, failed⟩ := pollFails_eq tm i .stuck ((d.onTwp fun t => { t with recovery := none }).onPer i fun x =>
        { x with due := false, attempts := 0 })
      rw [failed]
      refine ⟨rfl, rfl, rfl, rfl, fun k h _ => ?_⟩
      obtain rfl := Option.some.inj h
      exact congrArg PerStatus.result (bankGet_bankUpd_same ..)
    · next fresh =>
      refine ⟨rfl, rfl, rfl, rfl, fun k h due => ?_⟩
      obtain rfl := Option.some.inj h
      exact absurd due fresh

theorem recoveryRetries_of_early {t : Nat} {freedAt : Option (Fin 9)} (from_ : d.twp.retryFrom = some t)
    (early : tm.us.toNat < t + 100000) : recoveryRetries tm freedAt d = d := by
  unfold recoveryRetries
  rw [from_]
  exact if_neg (Nat.not_le.mpr early)

theorem recoveryRetries_of_late {t : Nat} {freedAt : Option (Fin 9)} (from_ : d.twp.retryFrom = some t)
    (late : t + 100000 ≤ tm.us.toNat) : recoveryRetries tm freedAt d = startRecovery tm none freedAt d := by
  unfold recoveryRetries
  rw [from_]
  exact if_pos late

/-! ### POLL_NOW and a free bus (R339) -/

theorem pollNow_of_busy (on : controllerOn d = true) (entry : (pollEntry d e).isSome = true) (busy : d.twp.busBusy = true) :
    pollNow e d = d.onPer e fun x => { x with due := true } :=
  (if_neg (by simp [on, Option.isNone_eq_false_iff.mpr entry])).trans (if_pos (by simp [Device.onPer, Device.onTwp, busy]))

theorem busFrees_of_off (idle : d.twp.polling = none) (off : controllerOn d = false) :
    busFrees d = { d with twp := { d.twp with busBusy := false, sclStuck := false } } := by
  have frees : busFrees d = startPoll { d with twp := { d.twp with busBusy := false, sclStuck := false } } := by
    unfold busFrees Device.onTwp
    dsimp only
    rw [idle]
    rfl
  exact frees.trans (if_pos (by simp [show controllerOn { d with twp := { d.twp with busBusy := false, sclStuck := false } } =
    controllerOn d from rfl, off]))

end

/-! ### The rows -/

section
variable {src : Src} {a : Addr} {s : State}

/-- The beginning of a write leaves of the two-wire port all but what an access shows. -/
theorem rowStarts_twp (src : Src) (a : Addr) (s : State) : ∃ busBusy acked pointer sent lastStatus lastAddr alertAcked,
    (rowStarts src a s).dev.twp = { s.dev.twp with
      busBusy := busBusy, acked := acked, pointer := pointer, sent := sent, lastStatus := lastStatus, lastAddr := lastAddr
      alertAcked := alertAcked } := by
  obtain ⟨_, _, twp, _, h, -, -, kept⟩ := rowStarts_sameButAccess src a s
  rw [h]
  exact ⟨_, _, _, _, _, _, _, kept⟩

/-- A bus in use stays in use. -/
theorem rowStarts_busBusy (src : Src) (a : Addr) (busy : s.dev.twp.busBusy = true) : (rowStarts src a s).dev.twp.busBusy = true := by
  cases src with
  | sup => exact busy
  | port p =>
    have kept : (wordStarts p a true s.dev).twp.busBusy = true := by
      cases p with
      | spi | debug => exact busy
      | twoWire => rfl
    unfold rowStarts
    dsimp only
    rw [State.onDev_dev, touch_twp]
    exact kept

end

section
variable {src : Src} {s : State} {freedAt : Option (Fin 9)} (level : may s.dev src .engineer = true) (reached : Reaches src .running s)
include level reached

theorem exec_twpTimingWrite (second : Bool) (data : Word) : exec (.twpTimingWrite src second data) s =
    .next (Wrote src (if second then 0xA003 else 0xA002) 0 (fun d => { d with twp := writeTiming second data d.twp }) s) :=
  engineerRow_as (f := fun _ _ d => d.onTwp (writeTiming second data)) reached level rfl

theorem exec_recover (idle : s.dev.twp.polling = none) (on : s.dev.twp.en = true) (high : s.dev.twp.sclStuck = false)
    (whole : s.dev.twp.recovery = none) : exec (.recover src freedAt) s =
      .next (Wrote src 0xA005 0 (fun d => { d with twp := { d.twp with
        busBusy := true, retryFrom := none
        recovery := some ⟨freedAt, none, ticksNow s.tm + recoveryTicks d.twp freedAt⟩ } }) s) := by
  obtain ⟨_, _, _, _, _, _, _, twp⟩ := rowStarts_twp src 0xA005 s
  exact engineerRow_as (f := fun tm _ => recoverNow tm freedAt) reached level
    ((recoverNow_of_idle (by rw [twp]; exact idle)).trans
      (startRecovery_begins none (by rw [twp]; exact on) (by rw [twp]; exact high) (by rw [twp]; exact whole)))

theorem exec_recover_of_polling (polling : s.dev.twp.polling ≠ none) : exec (.recover src freedAt) s =
    .next (Wrote src 0xA005 0 (fun d => { d with twp := { d.twp with recoverAsked := some freedAt } }) s) := by
  obtain ⟨_, _, _, _, _, _, _, twp⟩ := rowStarts_twp src 0xA005 s
  exact engineerRow_as (f := fun tm _ => recoverNow tm freedAt) reached level (recoverNow_of_polling (by rw [twp]; exact polling))

theorem exec_pollNow {e : Fin 32} (on : controllerOn s.dev = true) (entry : (pollEntry s.dev e).isSome = true)
    (busy : s.dev.twp.busBusy = true) :
    exec (.pollNow src e) s = .next (Wrote src 0xA005 0 (fun d => d.onPer e fun x => { x with due := true }) s) := by
  obtain ⟨_, _, _, _, _, _, _, twp⟩ := rowStarts_twp src 0xA005 s
  have entries : pollEntries (rowStarts src 0xA005 s).dev = pollEntries s.dev := by rw [pollEntries, rowStarts_str, pollEntries]
  exact engineerRow_as (f := fun _ _ => pollNow e) reached level
    (pollNow_of_busy (by rw [controllerOn, entries, twp]; exact on) (by rw [pollEntry, entries]; exact entry)
      (rowStarts_busBusy src 0xA005 busy))

end

section
variable {s : State} {e : Fin 32}

theorem exec_periphPollDue_of_late (on : controllerOn s.dev = true) (due : fallsDue s.tm e s.dev = true)
    (late : (bankGet s.dev.twp.per e).due = true) : ∃ d, exec (.periphPollDue e) s = .next { s with dev := d } ∧
      (bankGet d.twp.per e).result = .busyLate ∧ (bankGet d.twp.per e).fails = satInc (bankGet s.dev.twp.per e).fails ∧
      d.twp.intStatus = setBit s.dev.twp.intStatus 0 ∧ ∀ k, k ≠ e → bankGet d.twp.per k = bankGet s.dev.twp.per k := by
  obtain ⟨er, draws, failed⟩ := pollDue_of_late (tm := s.tm) on due late
  refine ⟨_, next_of_dev failed, ?_⟩
  dsimp only
  rw [bankGet_bankUpd_same]
  exact ⟨rfl, rfl, rfl, fun k other => bankGet_bankUpd_other _ _ other.symm⟩

theorem exec_periphPoll_of_data {p : PeriphEntry} {bytes : List Byte} (polling : s.dev.twp.polling = some e)
    (entry : pollEntry s.dev e = some p) (length : bytes.length = p.len + bit p.pec)
    (right_ : p.pec = true → crc8 (pollHeader p ++ bytes) = 0) : ∃ d, exec (.periphPoll e (.data bytes)) s = .next { s with dev := d } ∧
      d.twp.polling = none ∧ (bankGet d.twp.per e).result = .ok ∧ (bankGet d.twp.per e).value = bytes.take p.len ∧
      (bankGet d.twp.per e).fails = 0 ∧ (bankGet d.twp.per e).okAt = some (ticksNow s.tm) ∧
      ∀ k, k ≠ e → bankGet d.twp.per k = bankGet s.dev.twp.per k := by
  obtain ⟨idle, per⟩ := pollRuns_of_data (tm := s.tm) polling entry length right_
  refine ⟨pollRuns s.tm e (.data bytes) s.dev, rfl, idle, ?_⟩
  rw [per, bankGet_bankUpd_same]
  exact ⟨rfl, rfl, rfl, rfl, fun k other => bankGet_bankUpd_other _ _ other.symm⟩

theorem exec_periphPoll_of_nackAddr {p : PeriphEntry} (polling : s.dev.twp.polling = some e) (entry : pollEntry s.dev e = some p) :
    ∃ d, exec (.periphPoll e .nackAddr) s = .next { s with dev := d } ∧ d.twp.polling = none ∧
      (bankGet d.twp.per e).result = .nackAddr ∧ (bankGet d.twp.per e).value = (bankGet s.dev.twp.per e).value ∧
      d.twp.intStatus = setBit s.dev.twp.intStatus 0 := by
  obtain ⟨idle, int, per⟩ := pollRuns_of_nackAddr (tm := s.tm) polling entry
  refine ⟨pollRuns s.tm e .nackAddr s.dev, rfl, idle, ?_⟩
  rw [per, bankGet_bankUpd_same]
  exact ⟨rfl, rfl, int⟩

end

/-- Settles O42: the timing fields by their ranges, the port's errors, polls and recoveries by how each ends. -/
theorem twoWirePortWorks : Obligations.TwoWirePortWorks := by
  refine ⟨fun _ second data _ level reached => exec_twpTimingWrite level reached second data, fun second data t => ?_,
    fun s on => ⟨next_of_dev (busError_of_write on), next_of_dev (busError_of_read on),
      fun idle => next_of_dev (busError_of_idle on idle)⟩,
    fun s on smbTo => ⟨?_, ?_⟩, fun s off role => next_of_dev (clockLowTimeout_of_off off role),
    fun e s early => next_of_dev (pollDue_of_early early), fun e s on due fresh busy => next_of_dev (pollDue_of_busy on due fresh busy),
    fun e s on due fresh free whole idle => ⟨_, rfl, pollDue_starts on due fresh free whole idle⟩,
    fun _ _ => exec_periphPollDue_of_late, fun _ _ _ _ => exec_periphPoll_of_data, fun _ _ _ => exec_periphPoll_of_nackAddr,
    fun _ _ _ level reached => exec_recover level reached, fun _ _ _ level reached => exec_recover_of_polling level reached,
    fun _ _ _ _ _ recovery late => tickRecovery_of_late recovery late, fun tm entry t d recovery late => ?_,
    fun _ _ _ from_ => ⟨fun early => next_of_dev (recoveryRetries_of_early from_ early),
      fun late on high whole => next_of_dev ((recoveryRetries_of_late from_ late).trans (startRecovery_begins none on high whole))⟩,
    fun _ _ _ level reached => exec_pollNow level reached, fun _ idle off => next_of_dev (busFrees_of_off idle off)⟩
  · obtain ⟨l, l', h, h', u, u', v, v'⟩ := writeTiming_holds second data t
    refine ⟨l, l', h, h', u, u', v, v', ?_⟩
    cases second with
    | false => exact ⟨rfl, fun _ => rfl⟩
    | true => exact ⟨rfl, fun h => absurd h.symm Bool.false_ne_true⟩
  · obtain ⟨er, draws, held⟩ := clockLowTimeout_of_write (tm := s.tm) on smbTo
    exact ⟨er, draws, next_of_dev held⟩
  · obtain ⟨er, draws, held⟩ := clockLowTimeout_of_read (tm := s.tm) on smbTo
    exact ⟨er, draws, next_of_dev held⟩
  · rw [tickRecovery_of_late recovery late]
    exact busRecoveryEnds_of_stuck tm entry t d

end Sys2Proof.Machine
end

section
/-! SUPPORT. The two-wire target (R331 to R338) and the accesses of the debug port (R359). -/

namespace Sys2Proof.Machine

/-! ### SYS.ID, which anyone reads -/

theorem readPaired_id (p : Port) (hold : Hold) (t : State) :
    readPaired p 0 hold t = (0x01B15120, t.onDev fun d => d.onPort p fun y => { y with readHold := none }) := by
  cases hold with
  | none | some x => rfl

theorem wordThere_id (s : State) : WordThere s 0 := wordThere_early ((readWord_isSome s State.reset _).trans (by rfl)) (by decide)

/-- A read of SYS.ID needs no level. -/
theorem Begun.accessWord_id {p : Port} {s m : State} (hm : Begun p s m) : accessWord p 0 none m =
    some (0x01B15120, 0, (touched p m).onDev fun d => d.onPort p fun y => { y with readHold := none }) := by
  have level : ¬ srcLevel (touched p m).dev (.port p) < (readLevel p (0 : Addr).toNat).rank := Nat.not_lt_zero _
  rw [hm.accessWord_there (wordThere_id s)]
  simp only [definedWord, level, if_false, readPaired_id]

/-! ### An access of one word through the target -/

/-- The pending access of one word, as it starts. -/
def wordPending (p : Port) (a : Addr) (w : Option Word) (header : List Byte) (s : State) : PendingAccess :=
  ⟨w.isSome, [(a, w)], [], 0, header, srcLevel s.dev (.port p), false⟩

/-- The state in which the word of such an access is read or written. -/
def wordMaking (p : Port) (a : Addr) (w : Option Word) (header : List Byte) (s : State) : State :=
  making p (wordPending p a w header s) s

section
variable {p : Port} {a : Addr} {w : Option Word} {header : List Byte} {s t : State} {v : Word} {st : Byte}

theorem startAccess_of_word (made : accessWord p a w (wordMaking p a w header s) = some (v, st, t))
    (pending : (t.dev.port p).pending.isNone = false) : startAccess p w.isSome [(a, w)] header s =
      t.onDev (wordEnds p (endedWord w header (srcLevel s.dev (.port p)) v st) a st) := by
  have ended : madeWord (wordPending p a w header s) w v st = endedWord w header (srcLevel s.dev (.port p)) v st := by
    simp [madeWord, endedWord, wordPending]
  rw [← ended]
  exact runAccess_of_word (acc := wordPending p a w header s) rfl made pending

theorem begun_word : Begun p s (wordMaking p a w header s) := begun_making _ rfl (.refl s.dev) rfl

theorem wordMaking_twp : (wordMaking p a w header s).dev.twp = s.dev.twp := rfl

/-- A write of fields that the port may write, within its access. -/
theorem accessWord_of_fields {w : Word} {ok : Device → Bool} {f : Device → Device} (reach : reaches s.dev (.port p) = true)
    (there : WordThere s a) (writes : ∀ hold t, writePaired p a w hold t = writeFields ok f t)
    (allowed : ∀ d, OnlyPort p s d → ok d = true) :
    accessWord p a (some w) (wordMaking p a (some w) header s) =
      some (0, 0, (touched p (wordMaking p a (some w) header s)).onDev f) := by
  have begun : Begun p s (wordMaking p a (some w) header s) := begun_word
  obtain ⟨d, acc, began, only, -⟩ := begun.made reach
  have good : ok (touched p (wordMaking p a (some w) header s)).dev = true := by
    rw [began]
    exact allowed d only
  rw [begun.accessWord_there there]
  simp only [definedWord, writes, writeFields, writeState, good, if_true]

end

theorem touched_twp (p : Port) (m : State) : (touched p m).dev.twp = { m.dev.twp with alertAcked := alertAcked m.dev } := by
  simp [touched, settleAlert]

/-- What the target shows of an access of one word. -/
theorem wordEnds_twp (w : Option Word) (header : List Byte) (level : Nat) (v : Word) (a : Addr) (st : Byte) (d : Device) :
    ∃ alert, (wordEnds .twoWire (endedWord w header level v st) a st d).twp = { d.twp with
      lastStatus := st, lastAddr := a, alertAcked := alert
      sent := if w.isSome then d.twp.sent else targetBytes d.twp.pecT header [v] } := by
  cases w with
  | none | some w => exact ⟨_, rfl⟩

section
variable {s : State} (reached : reaches s.dev (.port .twoWire) = true)
include reached

/-- A read of SYS.ID through the target. -/
theorem startAccess_id (header : List Byte) : ∃ d, startAccess .twoWire false [(0, none)] header s = { s with dev := d } ∧
    (d.port .twoWire).pending = none ∧ d.rails = s.dev.rails ∧ d.sys = s.dev.sys ∧ d.twp.acked = s.dev.twp.acked ∧
    d.twp.pointer = s.dev.twp.pointer ∧ d.twp.sent = targetBytes s.dev.twp.pecT header [0x01B15120] := by
  have begun : Begun .twoWire s (wordMaking .twoWire 0 none header s) := begun_word
  have made := (begun.made reached).read_latch none
  have ends := startAccess_of_word begun.accessWord_id made.pending
  obtain ⟨d, ended, ⟨ports, hsp, twp, rfl⟩, port⟩ := made.ends
    (endedWord none header (srcLevel s.dev (.port .twoWire)) 0x01B15120 0) 0 0
  obtain ⟨alert, shown⟩ := wordEnds_twp none header (srcLevel s.dev (.port .twoWire)) 0x01B15120 0 0
    ((touched .twoWire (wordMaking .twoWire 0 none header s)).onDev
      fun d => d.onPort .twoWire fun y => { y with readHold := none }).dev
  have twp_eq : twp = _ := (congrArg (fun x : State => x.dev.twp) ended.symm).trans shown
  rw [State.onDev_dev, Device.onPort_twp, touched_twp, wordMaking_twp] at twp_eq
  refine ⟨_, ends.trans ended, by rw [port], rfl, rfl, ?_⟩
  dsimp only
  rw [twp_eq]
  exact ⟨rfl, rfl, rfl⟩

omit reached in
theorem clearCause_twp (w : Word) (d : Device) : (clearCause w d).twp = d.twp := rfl

/-- A write of SYS.RESET_CAUSE through the target. -/
theorem startAccess_cause (w : Word) (operates : mayEarly s.dev (.port .twoWire) .operate = true) :
    ∃ d, startAccess .twoWire true [(0x005, some w)] [] s = { s with dev := d } ∧
      d.sys = { s.dev.sys with cause := w1c s.dev.sys.cause w } ∧ d.twp.pointer = s.dev.twp.pointer ∧ d.twp.lastStatus = 0 ∧
      d.rails = s.dev.rails := by
  have begun : Begun .twoWire s (wordMaking .twoWire 0x005 (some w) [] s) := begun_word
  obtain ⟨apart, sg, ports_, reach⟩ := clearCause_apart .twoWire s w
  have made := (begun.made reached).effect apart sg ports_ reach
  have ends := startAccess_of_word (accessWord_of_fields (header := []) reached (wordThere_cause s)
    (writePaired_cause .twoWire w) fun d only => (onlyPort_mayEarly only _ _).trans operates) made.pending
  obtain ⟨d, ended, ⟨ports, hsp, twp, rfl⟩, -⟩ := made.ends (endedWord (some w) [] (srcLevel s.dev (.port .twoWire)) 0 0) 0x005 0
  obtain ⟨alert, shown⟩ := wordEnds_twp (some w) [] (srcLevel s.dev (.port .twoWire)) 0 0x005 0
    ((touched .twoWire (wordMaking .twoWire 0x005 (some w) [] s)).onDev (clearCause w)).dev
  have twp_eq : twp = _ := (congrArg (fun x : State => x.dev.twp) ended.symm).trans shown
  rw [State.onDev_dev, clearCause_twp, touched_twp, wordMaking_twp] at twp_eq
  refine ⟨_, ends.trans ended, rfl, ?_⟩
  dsimp only
  rw [twp_eq]
  exact ⟨rfl, rfl, rfl⟩

end

/-! ### Transactions of the target (R331 to R334) -/

section
variable {s : State} (listens : targetListens s.dev = true)
include listens

theorem reaches_of_listens : reaches s.dev (.port .twoWire) = true := by
  simp only [targetListens, Bool.and_eq_true] at listens
  exact listens.1.1.1

variable {bytes : List Byte} {hi lo : Byte}

omit listens in
theorem targetWrite_of_deaf (deaf : targetListens s.dev = false) (bytes : List Byte) (stop : Bool) :
    targetWrite bytes stop s = { s with dev := { s.dev with twp := { s.dev.twp with acked := false } } } := if_pos (by simp [deaf])

theorem targetWrite_of_restart : targetWrite bytes false s = (s.onDev targetStarts).onDev (targetRestarts bytes) :=
  if_neg (by simp [listens])

theorem targetWrite_of_stop : targetWrite bytes true s =
    if s.dev.twp.pecT = true ∧ bytes ≠ [] ∧ crc8 (byte (2 * s.dev.twp.ownAddr.toNat) :: bytes) ≠ 0 then
      (s.onDev targetStarts).onDev fun d => discardPage (d.onTwp fun t => { t with pecErrs := t.pecErrs + 1 })
    else match writePointer (if s.dev.twp.pecT then bytes.dropLast else bytes) with
      | some a => commitPage a ((if s.dev.twp.pecT then bytes.dropLast else bytes).drop 2) (s.onDev targetStarts)
      | none => s.onDev targetStarts := if_neg (by simp [listens])

theorem targetWrite_of_pec (pec : s.dev.twp.pecT = true) (some_ : bytes ≠ [])
    (wrong : crc8 (byte (2 * s.dev.twp.ownAddr.toNat) :: bytes) ≠ 0) : targetWrite bytes true s =
      { s with dev := { s.dev with twp := { s.dev.twp with
        busBusy := true, acked := true, pecErrs := s.dev.twp.pecErrs + 1, pageDiscards := s.dev.twp.pageDiscards + 1
        intStatus := setBit s.dev.twp.intStatus 5 } } } := by
  rw [targetWrite_of_stop listens, if_pos ⟨pec, some_, wrong⟩]
  unfold State.onDev discardPage twpInt targetStarts Device.onTwp
  rfl

theorem targetWrite_of_data (plain : s.dev.twp.pecT = false) (data : List Byte) : targetWrite (hi :: lo :: data) true s =
    commitPage (BitVec.ofNat 16 (hi.toNat * 256 + lo.toNat)) data (s.onDev targetStarts) := by
  rw [targetWrite_of_stop listens, if_neg (by simp [plain]), plain]
  rfl

theorem targetWrite_of_pointer (plain : s.dev.twp.pecT = false) : targetWrite [hi, lo] true s =
    { s with dev := { s.dev with twp := { s.dev.twp with
      busBusy := true, acked := true, pointer := BitVec.ofNat 16 (hi.toNat * 256 + lo.toNat) } } } := by
  rw [targetWrite_of_data listens plain]
  rfl

omit listens in
theorem targetRestarts_eq (data : List Byte) (d : Device) : targetRestarts (hi :: lo :: data) d =
    discardIf (decide (2 < data.length + 2)) (d.onTwp fun t => { t with pointer := BitVec.ofNat 16 (hi.toNat * 256 + lo.toNat) }) := rfl

omit listens in
/-- A page that is discarded is counted. -/
theorem discardIf_eq (writing : Bool) (d : Device) : discardIf writing d = { d with twp := { d.twp with
    pageDiscards := if writing then d.twp.pageDiscards + 1 else d.twp.pageDiscards
    intStatus := if writing then setBit d.twp.intStatus 5 else d.twp.intStatus } } := by
  cases writing with
  | false | true => rfl

theorem targetWrite_of_page (data : List Byte) : ∃ twp, targetWrite (hi :: lo :: data) false s =
    { s with dev := { s.dev with twp := twp } } ∧ twp.pointer = BitVec.ofNat 16 (hi.toNat * 256 + lo.toNat) ∧
      (data = [] → twp.pageDiscards = s.dev.twp.pageDiscards) ∧ (data ≠ [] → twp.pageDiscards = s.dev.twp.pageDiscards + 1) := by
  rw [targetWrite_of_restart listens]
  unfold State.onDev
  dsimp only
  rw [targetRestarts_eq, discardIf_eq]
  unfold targetStarts Device.onTwp
  refine ⟨_, rfl, rfl, fun none => ?_, fun some_ => ?_⟩
  · subst none
    rfl
  · exact if_pos (decide_eq_true (by have := List.length_pos_iff.mpr some_; omega))

omit listens in
theorem pageCommit_of_word (b3 b2 b1 b0 : Byte) : pageCommit 0x005 [b3, b2, b1, b0] =
    [(0x005, some (word (beNat [b3, b2, b1, b0])))] := by
  have words : pageWords [b3, b2, b1, b0] = 1 := by simp [pageWords]
  have bytes : (List.range 4).map (fun k => pageByte [b3, b2, b1, b0] (4 * 0 + k)) = [b3, b2, b1, b0] := by
    simp [pageByte, List.range_succ]
  unfold pageCommit
  rw [words, List.range_one, List.map_singleton, bytes]
  rfl

omit listens in
/-- A page of one word is a write of that word. -/
theorem commitPage_of_word (b3 b2 b1 b0 : Byte) (t : State) : commitPage 0x005 [b3, b2, b1, b0] t =
    startAccess .twoWire true [(0x005, some (word (beNat [b3, b2, b1, b0])))] []
      (t.onDev fun d => d.onTwp fun x => { x with pointer := 6 }) := by
  have whole : pagePartial [b3, b2, b1, b0] = false := by simp [pagePartial]
  unfold commitPage
  rw [pageCommit_of_word, whole]
  rfl

theorem exec_twpTargetWrite_of_cause (plain : s.dev.twp.pecT = false) (b3 b2 b1 b0 : Byte)
    (operates : mayEarly s.dev (.port .twoWire) .operate = true) :
    ∃ d, exec (.twpTargetWrite ⟨[0x00, 0x05, b3, b2, b1, b0], true⟩) s = .next { s with dev := d } ∧
      d.sys = { s.dev.sys with cause := w1c s.dev.sys.cause (word (beNat [b3, b2, b1, b0])) } ∧ d.twp.pointer = 6 ∧
      d.twp.lastStatus = 0 ∧ d.rails = s.dev.rails := by
  obtain ⟨d, made, sys, pointer, status, rails⟩ := startAccess_cause
    (s := (s.onDev targetStarts).onDev fun d => d.onTwp fun x => { x with pointer := 6 }) (reaches_of_listens listens)
    (word (beNat [b3, b2, b1, b0])) operates
  refine ⟨d, congrArg Host.Outcome.next ((targetWrite_of_data listens plain _).trans
    ((commitPage_of_word b3 b2 b1 b0 _).trans made)), sys, pointer, status, rails⟩

/-- A read transaction whose access ends at once. -/
theorem targetRead_of_ended {a : Addr} {words : Nat} {t : State} (some_ : words ≠ 0)
    (started : startAccess .twoWire false ((burstAddrs false a words).map fun a => (a, none))
      (readHeader s.dev.twp.ownAddr (some a) [])
      (s.onDev fun d => (targetStarts d).onTwp fun t => { t with sent := [], pointer := a + BitVec.ofNat 16 words }) = t)
    (ended : (t.dev.port .twoWire).pending = none) : targetRead (some a) [] words s = t := by
  unfold targetRead
  rw [if_neg (by simp [listens])]
  simp only [Option.isSome_some, List.isEmpty_nil, Bool.not_true, Bool.and_false, discardIf, Bool.false_eq_true, if_false, if_neg some_]
  rw [started, ended]

theorem exec_twpTargetRead_of_id : ∃ d, exec (.twpTargetRead (some ⟨0, []⟩) 1) s = .next { s with dev := d } ∧
    d.twp.acked = true ∧ d.twp.pointer = 1 ∧ d.twp.sent = [0x01, 0xB1, 0x51, 0x20] ++
      (if s.dev.twp.pecT then [crc8 (readHeader s.dev.twp.ownAddr (some 0) [] ++ [0x01, 0xB1, 0x51, 0x20])] else []) ∧
    d.rails = s.dev.rails ∧ d.sys = s.dev.sys := by
  obtain ⟨d, made, pending, rails, sys, acked, pointer, sent⟩ := startAccess_id
    (s := s.onDev fun d => (targetStarts d).onTwp fun t => { t with sent := [], pointer := 1 }) (reaches_of_listens listens)
    (readHeader s.dev.twp.ownAddr (some 0) [])
  refine ⟨d, congrArg Host.Outcome.next (targetRead_of_ended listens Nat.one_ne_zero made pending), acked, pointer, sent.trans ?_,
    rails, sys⟩
  have bytes : beBytes 4 (0x01B15120 : Word).toNat = [0x01, 0xB1, 0x51, 0x20] := by decide
  have pec : (s.onDev fun d => (targetStarts d).onTwp fun t => { t with sent := [], pointer := 1 }).dev.twp.pecT = s.dev.twp.pecT := rfl
  rw [pec, targetBytes, bytes]
  cases s.dev.twp.pecT with
  | false => rfl
  | true => rfl

end

/-! ### Stretches and alerts (R335, R338) -/

section
variable {d : Device}

theorem stretchEnds_of_read {acc : PendingAccess} {a : Addr} {w : Option Word} {rest : List (Addr × Option Word)}
    (pending : (d.port .twoWire).pending = some acc) (todo : acc.todo = (a, w) :: rest) (reads : acc.write = false)
    (whole : acc.cut = false) (limited : d.twp.stretchMax ≠ 0) : stretchEnds d =
      (d.onTwp fun t => { t with sent := targetBytes t.pecT acc.header (acc.got ++ [0]), pointer := a + 1 }).onPort .twoWire
        fun y => { y with pending := some { acc with cut := true, todo := [(a, w)] } } := by
  unfold stretchEnds
  rw [pending]
  dsimp only
  rw [todo]
  exact if_neg (not_or.mpr ⟨by simp [reads], not_or.mpr ⟨by simp [whole], limited⟩⟩)

theorem alertResponse_of_low {won : Bool} (up : answers d = true) (on : d.twp.en = true) (ara : d.twp.araEn = true)
    (own : d.twp.ownAddr ≠ 0x0C) (low : alertLow (settleAlert d) = true) : alertResponse won d =
      (settleAlert d).onTwp fun t => { t with
        busBusy := true, acked := true, sent := [byte (2 * t.ownAddr.toNat)], alertAcked := won || t.alertAcked
        ackedSum := if won then alertSum (settleAlert d) else t.ackedSum } := if_pos ⟨up, on, ara, own, low⟩

end

/-! ### The debug port (R359) -/

section
variable {s : State} (reached : reaches s.dev (.port .debug) = true)
include reached

omit reached in
theorem dbgAccess_of_unreached (op : DbgOp) (out : reaches s.dev (.port .debug) = false) : dbgAccess op s = s := if_pos (by simp [out])

theorem dbgAccess_halt : dbgAccess .halt s = dbgWindow (dbgFull fun d => { d with fw := { d.fw with supHalted := true } }) s :=
  if_neg (by simp [reached])

theorem dbgAccess_resume : dbgAccess .resume s = dbgWindow (dbgFull fun d => { d with fw := { d.fw with supHalted := false } }) s :=
  if_neg (by simp [reached])

omit reached in
theorem dbgWindow_of_shut (f : State → State) (shut : s.dev.sys.step ≠ .ready) :
    dbgWindow f s = (s.onDev (touch s.tm (.port .debug))).onDev (dbgDone 0 stNotReady) :=
  if_pos (by rw [State.onDev_dev]; simp [accessWindow, Window.shut, shut])

omit reached in
theorem dbgWindow_of_ready (f : State → State) (ready : s.dev.sys.step = .ready) :
    dbgWindow f s = f (s.onDev (touch s.tm (.port .debug))) :=
  if_neg (by rw [State.onDev_dev]; simp [accessWindow, Window.shut, ready])

omit reached in
theorem dbgFull_of_full (f : Device → Device) (full : s.dev.sg.auth = .full) : dbgFull f s = s.onDev fun d => dbgDone 0 0 (f d) :=
  congrArg (fun d => { s with dev := d }) (if_pos full)

omit reached in
theorem dbgFull_of_other (f : Device → Device) (other : s.dev.sg.auth ≠ .full) : dbgFull f s = s.onDev (dbgDone 0 stDenied) :=
  congrArg (fun d => { s with dev := d }) (if_neg other)

omit reached in
theorem dbgDone_port (data : Word) (st : Byte) (d : Device) : ((dbgDone data st d).port .debug).status = st := by
  rw [dbgDone, Device.onPort_port]

theorem exec_halt_of_shut (shut : s.dev.sys.step ≠ .ready) : ∃ d, exec (.dbgAccess .halt) s = .next { s with dev := d } ∧
    d.fw = s.dev.fw ∧ (d.port .debug).status = 0x08 :=
  ⟨_, congrArg Host.Outcome.next ((dbgAccess_halt reached).trans (dbgWindow_of_shut _ shut)), touch_fw .., dbgDone_port ..⟩

section
variable (ready : s.dev.sys.step = .ready)
include ready

theorem exec_halt_of_full (full : s.dev.sg.auth = .full) : ∃ d, exec (.dbgAccess .halt) s = .next { s with dev := d } ∧
    d.fw = { s.dev.fw with supHalted := true } ∧ (d.port .debug).status = 0 ∧ d.rails = s.dev.rails := by
  refine ⟨_, congrArg Host.Outcome.next ((dbgAccess_halt reached).trans ((dbgWindow_of_ready _ ready).trans
    (dbgFull_of_full _ (by simpa using full)))), ?_, dbgDone_port .., touch_rails ..⟩
  exact congrArg (fun x : Firmware => { x with supHalted := true }) (touch_fw ..)

theorem exec_resume_of_full (full : s.dev.sg.auth = .full) : ∃ d, exec (.dbgAccess .resume) s = .next { s with dev := d } ∧
    d.fw = { s.dev.fw with supHalted := false } ∧ (d.port .debug).status = 0 ∧ d.rails = s.dev.rails := by
  refine ⟨_, congrArg Host.Outcome.next ((dbgAccess_resume reached).trans ((dbgWindow_of_ready _ ready).trans
    (dbgFull_of_full _ (by simpa using full)))), ?_, dbgDone_port .., touch_rails ..⟩
  exact congrArg (fun x : Firmware => { x with supHalted := false }) (touch_fw ..)

theorem exec_halt_of_denied (other : s.dev.sg.auth ≠ .full) : ∃ d, exec (.dbgAccess .halt) s = .next { s with dev := d } ∧
    d.fw = s.dev.fw ∧ (d.port .debug).status = 0x04 ∧ d.rails = s.dev.rails :=
  ⟨_, congrArg Host.Outcome.next ((dbgAccess_halt reached).trans ((dbgWindow_of_ready _ ready).trans
    (dbgFull_of_other _ (by simpa using other)))), touch_fw .., dbgDone_port .., touch_rails ..⟩

end

omit reached in
theorem exec_regRead_of_id (free : PortFree s.dev .debug) : ∃ d, exec (.dbgAccess (.regRead 0x000)) s = .next { s with dev := d } ∧
    OnlyPort .debug s d ∧ (d.port .debug).data = 0x01B15120 ∧ (d.port .debug).status = 0 := by
  have reached := reaches_of_portFree free
  obtain ⟨d, made, only, port⟩ := singleAccess_of_made free fun m begun =>
    ⟨_, begun.accessWord_id, (begun.made reached).read_latch none⟩
  refine ⟨d, congrArg Host.Outcome.next ((if_neg (by simp [reached])).trans made), only, by rw [port]; rfl, by rw [port]⟩

end

/-- Settles O41: the transactions of the target by their ends, and the debug operations by their authorisation. -/
theorem targetAnswers : Obligations.TargetAnswers := by
  refine ⟨fun bytes stop s deaf => congrArg Host.Outcome.next (targetWrite_of_deaf deaf bytes stop),
    fun _ s listens pec some_ wrong => congrArg Host.Outcome.next (targetWrite_of_pec listens pec some_ wrong),
    fun _ _ s listens plain => congrArg Host.Outcome.next (targetWrite_of_pointer listens plain),
    fun _ _ data s listens => ?_, fun b3 b2 b1 b0 s listens plain => exec_twpTargetWrite_of_cause listens plain b3 b2 b1 b0,
    fun s => exec_twpTargetRead_of_id, fun acc a w rest s pending todo reads whole limited => ?_,
    fun won s up on ara own low => ?_, fun op s out => congrArg Host.Outcome.next (dbgAccess_of_unreached op out),
    fun s => exec_halt_of_shut, fun s reached ready => ⟨exec_halt_of_full reached ready, exec_resume_of_full reached ready,
      exec_halt_of_denied reached ready⟩, fun s => exec_regRead_of_id⟩
  · obtain ⟨twp, written, shown⟩ := targetWrite_of_page listens data
    exact ⟨twp, congrArg Host.Outcome.next written, shown⟩
  · refine ⟨_, next_of_dev (stretchEnds_of_read pending todo reads whole limited), ?_, rfl, rfl, rfl⟩
    rw [Device.onPort_port]
  · exact ⟨_, next_of_dev (alertResponse_of_low up on ara own low), rfl, rfl, rfl, rfl⟩

end Sys2Proof.Machine
end

section
/-! SUPPORT. ABORT (R322 to R324): its way to the register, what it decides there, and ABORT_DONE. -/

namespace Sys2Proof.Machine

/-! ### What an access leaves of an ABORT -/

/-- What HSP shows of the ABORTs, and its event bits (R324). -/
structure AbortView where
  flights : Bank 3 (Option AbortFlight)
  done : Bool
  port : Port
  result : AbortResult
  func : Byte
  index : Byte
  evt : BitVec 5

def Device.abortView (d : Device) : AbortView :=
  ⟨d.hsp.flights, d.hsp.abortDone, d.hsp.abortPort, d.hsp.abortResult, d.hsp.abortFunc, d.hsp.abortIndex, d.hsp.evt⟩

/-- A change leaves the ABORTs, the levels of the ports, and the functions that the statement names. -/
structure SameAborts (d t : Device) : Prop where
  view : t.abortView = d.abortView
  level : ∀ src, srcLevel t src = srcLevel d src
  tune : t.tune = d.tune
  rails : t.rails = d.rails
  lanes : t.lanes = d.lanes
  ocs : t.ocs = d.ocs
  bog : t.bog = d.bog

namespace SameAborts

theorem refl (d : Device) : SameAborts d d := ⟨rfl, fun _ => rfl, rfl, rfl, rfl, rfl, rfl⟩

theorem trans {d t u : Device} (h : SameAborts d t) (h' : SameAborts t u) : SameAborts d u :=
  ⟨h'.view.trans h.view, fun src => (h'.level src).trans (h.level src), h'.tune.trans h.tune, h'.rails.trans h.rails,
    h'.lanes.trans h.lanes, h'.ocs.trans h.ocs, h'.bog.trans h.bog⟩

theorem flights {d t : Device} (h : SameAborts d t) : t.hsp.flights = d.hsp.flights :=
  congrArg AbortView.flights h.view

theorem joined {d t : Device} (h : SameAborts d t) (p : Port) (f : AbortFunc) : joined t p f = joined d p f := by
  unfold Machine.joined
  rw [h.flights]

/-- An access of one word that begins or ends. -/
theorem ofSameButAccess {d t : Device} (h : SameButAccess d t) : SameAborts d t := by
  obtain ⟨hsp, ports, twp, sgPorts, rfl, uses, hhsp, -⟩ := h
  refine ⟨?_, fun src => ?_, rfl, rfl, rfl, rfl, rfl⟩
  · unfold Device.abortView
    dsimp only
    rw [hhsp]
  · cases src with
    | sup => rfl
    | port p =>
      obtain ⟨use, hp⟩ := uses (portIdx p)
      unfold srcLevel
      dsimp only
      rw [hp]

theorem cutStalled (d : Device) : SameAborts d (cutStalled d) := by
  unfold Machine.cutStalled
  split
  · split
    · exact refl d
    · exact ⟨rfl, fun src => by cases src <;> rfl, rfl, rfl, rfl, rfl, rfl⟩
  · exact refl d

/-- A frame that starts. -/
theorem hostFrameStarts (d : Device) : SameAborts d (hostFrameStarts d) :=
  (cutStalled d).trans ⟨rfl, fun src => by cases src <;> rfl, rfl, rfl, rfl, rfl, rfl⟩

/-- A frame that is answered. -/
theorem frameEnds (r : Response) (d : Device) : SameAborts d (settleAlert (frameAnswers r d)) :=
  ⟨rfl, fun src => by cases src <;> rfl, rfl, rfl, rfl, rfl, rfl⟩

theorem drawSda (d : Device) : SameAborts d (drawSda d).2 :=
  ⟨rfl, fun src => by cases src <;> rfl, rfl, rfl, rfl, rfl, rfl⟩

end SameAborts

/-! ### The way of an ABORT to its register -/

/-- Whether or not the row says how SDA stands, the ABORT is decided as one that says so. -/
theorem abortWrite_eq (p : Port) (func index : Byte) (o : Option (Bool × Option (Fin 9))) (s : State) :
    ∃ sda draw, abortWrite p func index o s = abortCommand p func index sda (s.onDev draw) ∧
      SameAborts s.dev (draw s.dev) := by
  cases o with
  | none => exact ⟨(drawSda s.dev).1, fun d => (drawSda d).2, rfl, .drawSda s.dev⟩
  | some sda => exact ⟨sda, id, rfl, .refl s.dev⟩

/-- An ABORT that comes to its register is decided there, between the start and the end of its frame or access. -/
theorem abortFrom_eq {way : AbortWay} {func index : Byte} {s : State} (comes : AbortComes way func index s.dev)
    (o : Option (Bool × Option (Fin 9))) :
    ∃ sda start ends, abortFrom way func index o s =
        (abortCommand (abortPort way) func index sda (s.onDev start)).2.onDev ends ∧
      SameAborts s.dev (start s.dev) ∧ ∀ d, SameAborts d (ends d) := by
  cases way with
  | frame hcrc =>
    obtain ⟨up, good⟩ := comes
    obtain ⟨sda, draw, hw, hdraw⟩ := abortWrite_eq .spi func index o (s.onDev hostFrameStarts)
    refine ⟨sda, fun d => draw (hostFrameStarts d), _, ?_, (SameAborts.hostFrameStarts s.dev).trans hdraw,
      SameAborts.frameEnds (responseOf [0x05, func, index] [] (abortWrite .spi func index o (s.onDev hostFrameStarts)).1)⟩
    have framed : abortFrame func index o hcrc s = _ :=
      (if_neg (by simp [up])).trans (if_neg (not_not.mpr good))
    exact framed.trans (congrArg (fun x : Byte × State => x.2.onDev _) hw)
  | write p =>
    have free : takesAccess p s.dev = true := comes
    have direct : ¬ (p = .debug ∧ debugWaits s.dev = true) := by
      rintro ⟨rfl, hw⟩
      have := (Bool.and_eq_true_iff.mp free).2
      have := (Bool.and_eq_true_iff.mp hw).2
      simp_all
    obtain ⟨sda, draw, hw, hdraw⟩ := abortWrite_eq p func index o (rowStarts (.port p) 0x408 s)
    have started := SameAborts.ofSameButAccess (rowStarts_sameButAccess (.port p) 0x408 s)
    refine ⟨sda, fun d => draw (rowStarts (.port p) 0x408 { s with dev := d }).dev, _, ?_, started.trans hdraw, fun d =>
      .ofSameButAccess (rowEnds_sameButAccess (.port p) 0x408 (abortWrite p func index o (rowStarts (.port p) 0x408 s)).1 d)⟩
    have row := rowWrite_of_taken (src := .port p) (a := 0x408) (w := word (index.toNat * 256 + func.toNat)) (win := .early)
      (f := abortWrite p func index o) (s := s) free rfl rfl
    exact ((if_neg direct).trans row).trans (congrArg (fun x : Byte × State => x.2.onDev _) hw)

/-! ### What the ABORT decides -/

/-- HSP shows an ABORT that ended at once with a result. -/
structure AbortShown (func index : Byte) (r : AbortResult) (old now : AbortView) : Prop where
  done : now.done = true
  result : now.result = r
  func : now.func = func
  index : now.index = index
  evt : now.evt = setBit old.evt 0
  flights : now.flights = old.flights

theorem abortEnds_shown (p : Port) (func index : Byte) (r : AbortResult) (d : Device) :
    AbortShown func index r d.abortView (abortEnds p func index r d).abortView := ⟨rfl, rfl, rfl, rfl, rfl, rfl⟩

/-- HSP shows an ABORT of a port as launched: the fields of HSP.ABORT, and the flight behind them. -/
def LaunchShown (p : Port) (func index : Byte) (start : Nat) (v : AbortView) : Prop :=
  ∃ f, bankGet v.flights (portIdx p) = some f ∧ f.func = func ∧ f.index = index ∧ f.leader = p ∧ f.start = start ∧
    v.done = false ∧ v.port = p ∧ v.func = func ∧ v.index = index ∧ v.result = f.result

theorem launch_shown (p : Port) (f : AbortFlight) (leads : f.leader = p) (d : Device) :
    LaunchShown p f.func f.index f.start (launch p f d).abortView :=
  ⟨_, bankGet_bankSet_same _ _ _, rfl, rfl, leads, rfl, rfl, rfl, rfl, rfl, rfl⟩

theorem abortOne_tm (f : AbortFunc) (sda : Bool × Option (Fin 9)) (s : State) : (abortOne f sda s).1.tm = s.tm := by
  cases f <;> rfl

theorem abortAll_tm (sda : Bool × Option (Fin 9)) (s : State) : (abortAll sda s).1.tm = s.tm := by
  unfold abortAll
  generalize globalFuncs = fs
  refine List.foldlRecOn (motive := fun x : State × AbortResult × List (Byte × Byte) => x.1.tm = s.tm) fs _ rfl
    fun x hx f _ => ?_
  dsimp only
  split <;> exact (abortOne_tm f sda x.1).trans hx

section
variable {p : Port} {func index : Byte} {s : State} (idle : bankGet s.dev.hsp.flights (portIdx p) = none)
  (sda : Bool × Option (Fin 9))
include idle

theorem not_busy_of_idle : ¬ (func ≠ 0xFF ∧ (bankGet s.dev.hsp.flights (portIdx p)).isSome = true) := by
  simp [idle]

theorem abortCommand_bad (bad : abortFunc func index = .bad) :
    (abortCommand p func index sda s).2 = s.onDev (abortEnds p func index .badFunc) :=
  congrArg Prod.snd ((if_neg (not_busy_of_idle idle)).trans (if_pos bad))

variable (known : abortFunc func index ≠ .bad)
include known

theorem abortCommand_denied (low : srcLevel s.dev (.port p) < (abortLevel p (abortFunc func index)).rank) :
    (abortCommand p func index sda s).2 = s.onDev (abortEnds p func index .denied) :=
  congrArg Prod.snd ((if_neg (not_busy_of_idle idle)).trans ((if_neg known).trans (if_pos low)))

variable (level : (abortLevel p (abortFunc func index)).rank ≤ srcLevel s.dev (.port p))
  (alone : joined s.dev p (abortFunc func index) = none)
include level alone

/-- An ABORT of one function stops it, and its flight starts. -/
theorem abortCommand_one (one : abortFunc func index ≠ .global) :
    abortCommand p func index sda s = (0, (abortOne (abortFunc func index) sda s).1.onDev
      (launch p ⟨func, index, endedInCycle s.dev (abortFunc func index) (abortOne (abortFunc func index) sda s).2, ticksNow s.tm, p,
        [(abortFunc func index).code], []⟩)) := by
  have decided : abortCommand p func index sda s = _ :=
    (if_neg (not_busy_of_idle idle)).trans ((if_neg known).trans (if_neg (not_lt.mpr level)))
  rw [decided]
  dsimp only
  rw [alone]
  dsimp only
  rw [if_neg one]
  rfl

/-- An ABORT that stops its function ends with ABORTED. -/
theorem abortCommand_aborts {f : AbortFunc} {t : State} (hf : abortFunc func index = f) (one : f ≠ .global)
    (stops : abortOne f sda s = (t, .aborted)) :
    ∃ flight, abortCommand p func index sda s = (0, t.onDev (launch p flight)) ∧ flight.result = .aborted := by
  subst hf
  have h := abortCommand_one idle sda known level alone one
  rw [stops] at h
  have stays : endedInCycle s.dev (abortFunc func index) .aborted = .aborted := if_neg (fun ended => nomatch ended.1)
  exact ⟨_, h, stays⟩

theorem abortCommand_all (all : abortFunc func index = .global) :
    (abortCommand p func index sda s).2 = (abortAll sda s).1.onDev (launch p ⟨func, index, (abortAll sda s).2.1, ticksNow s.tm, p,
        (abortFunc func index).code :: (abortAll sda s).2.2, []⟩) := by
  have decided : abortCommand p func index sda s = _ :=
    (if_neg (not_busy_of_idle idle)).trans ((if_neg known).trans (if_neg (not_lt.mpr level)))
  rw [decided]
  dsimp only
  rw [alone]
  dsimp only
  rw [if_pos all]
  rfl

theorem abortCommand_launches :
    ∃ nv d, (abortCommand p func index sda s).2 = { s with nv := nv, dev := d } ∧
      LaunchShown p func index (ticksNow s.tm) d.abortView := by
  have asState (t : State) (g : Device → Device) (htm : t.tm = s.tm) (hpend : t.pending = s.pending) :
      t.onDev g = { s with nv := t.nv, dev := g t.dev } := by
    obtain ⟨tm, nv, dev, pending⟩ := t
    subst htm hpend
    rfl
  by_cases all : abortFunc func index = .global
  · rw [abortCommand_all idle sda known level alone all]
    exact ⟨_, _, asState _ _ (abortAll_tm sda s) (abortAll_pending sda s), launch_shown p _ rfl _⟩
  · rw [abortCommand_one idle sda known level alone all]
    exact ⟨_, _, asState _ _ (abortOne_tm _ sda s) (abortOne_pending _ sda s), launch_shown p _ rfl _⟩

end

end Sys2Proof.Machine
end

section
/-! SUPPORT. O40: the functions of Table 12-6, and what their ABORTs do. -/

namespace Sys2Proof.Machine

/-! ### Table 12-6 -/

/-- What an entry of `abortOps` says: its row is the ABORT of its FUNC and INDEX, with its level. -/
structure AbortOp (way : AbortWay) (x : Instr × BitVec 8 × BitVec 8 × Level) : Prop where
  row : ∃ o, ∀ s, exec x.1 s = .next (abortFrom way x.2.1 x.2.2.1 o s)
  known : abortFunc x.2.1 x.2.2.1 ≠ .bad
  level : abortLevel (abortPort way) (abortFunc x.2.1 x.2.2.1) = x.2.2.2

theorem abortFunc_apply (r : Fin 64) : abortFunc 0x02 (BitVec.ofNat 8 r.val) = .railApply r := by
  unfold abortFunc
  dsimp only
  rw [if_neg (by decide), if_pos rfl, fin?_railIndex]

theorem abortFunc_training (n : Fin 64) : abortFunc 0x06 (BitVec.ofNat 8 n.val) = .training n := by
  unfold abortFunc
  dsimp only
  rw [if_neg (by decide), if_neg (by decide), if_neg (by decide), if_neg (by decide), if_neg (by decide), if_pos rfl,
    fin?_railIndex]

theorem abortFunc_session (q : Port) : abortFunc 0x07 (BitVec.ofNat 8 (portIdx q).val) = .session q := by
  cases q <;> rfl

theorem abortFunc_access (q : Port) : abortFunc 0x08 (BitVec.ofNat 8 (portIdx q).val) = .access q := by
  cases q <;> rfl

theorem abortOps_op {way : AbortWay} {sda : Bool} {freedAt : Option (Fin 9)} {r n : Fin 64} {q : Port} :
    ∀ x ∈ abortOps way sda freedAt r n q, AbortOp way x := by
  unfold abortOps
  simp only [List.forall_mem_cons]
  have plain (i : Instr) (func index : BitVec 8) (least : Level) (f : AbortFunc) (o : Option (Bool × Option (Fin 9)))
      (row : ∀ s, exec i s = .next (abortFrom way func index o s)) (hf : abortFunc func index = f) (good : f ≠ .bad)
      (hl : abortLevel (abortPort way) f = least) : AbortOp way (i, func, index, least) :=
    ⟨⟨o, row⟩, hf ▸ good, (congrArg _ hf).trans hl⟩
  refine ⟨?_, ?_, ?_, ?_, ?_, ?_, ?_, ?_, ?_, by simp⟩
  · exact plain _ _ _ _ .tune none (fun _ => rfl) rfl nofun rfl
  · exact plain _ _ _ _ (.railApply r) none (fun _ => rfl) (abortFunc_apply r) nofun rfl
  · exact plain _ _ _ _ .store none (fun _ => rfl) rfl nofun rfl
  · exact plain _ _ _ _ .bog none (fun _ => rfl) rfl nofun rfl
  · exact plain _ _ _ _ .twoWire (some (sda, freedAt)) (fun _ => rfl) rfl nofun rfl
  · exact plain _ _ _ _ (.training n) none (fun _ => rfl) (abortFunc_training n) nofun rfl
  · exact plain _ _ _ _ (.session q) none (fun _ => rfl) (abortFunc_session q) nofun rfl
  · exact plain _ _ _ _ (.access q) none (fun _ => rfl) (abortFunc_access q) nofun rfl
  · exact plain _ _ _ _ .global none (fun _ => rfl) rfl nofun rfl

/-- A FUNC that Table 12-6 does not list. -/
theorem abortFunc_bad {func : BitVec 8} (unlisted : ¬ ((1 ≤ func.toNat ∧ func.toNat ≤ 8) ∨ func = 0xFF)) (index : BitVec 8) :
    abortFunc func index = .bad := by
  have other (k : BitVec 8) (lo : 1 ≤ k.toNat) (hi : k.toNat ≤ 8) : func ≠ k := fun h => unlisted (.inl (h ▸ ⟨lo, hi⟩))
  unfold abortFunc
  dsimp only
  rw [if_neg (other 1 (by decide) (by decide)), if_neg (other 2 (by decide) (by decide)),
    if_neg (other 3 (by decide) (by decide)), if_neg (other 4 (by decide) (by decide)),
    if_neg (other 5 (by decide) (by decide)), if_neg (other 6 (by decide) (by decide)),
    if_neg (other 7 (by decide) (by decide)), if_neg (other 8 (by decide) (by decide)), if_neg fun h => unlisted (.inr h)]

/-! ### ABORTs that end at once, and those that are launched -/

theorem abortFrom_ends {way : AbortWay} {func index : BitVec 8} {r : AbortResult} {s : State} {o : Option (Bool × Option (Fin 9))}
    (comes : AbortComes way func index s.dev)
    (decided : ∀ sda start, SameAborts s.dev (start s.dev) → (abortCommand (abortPort way) func index sda (s.onDev start)).2 =
      (s.onDev start).onDev (abortEnds (abortPort way) func index r)) :
    ∃ d, abortFrom way func index o s = { s with dev := d } ∧ AbortShown func index r s.dev.abortView d.abortView ∧
      d.tune = s.dev.tune ∧ d.rails = s.dev.rails ∧ d.lanes = s.dev.lanes ∧ d.ocs = s.dev.ocs ∧ d.bog = s.dev.bog := by
  obtain ⟨sda, start, ends, hfrom, hstart, hends⟩ := abortFrom_eq comes o
  have he := hends (abortEnds (abortPort way) func index r (start s.dev))
  refine ⟨ends (abortEnds (abortPort way) func index r (start s.dev)),
    hfrom.trans (congrArg (fun t : State => t.onDev ends) (decided sda start hstart)), ?_, he.tune.trans hstart.tune,
    he.rails.trans hstart.rails, he.lanes.trans hstart.lanes, he.ocs.trans hstart.ocs, he.bog.trans hstart.bog⟩
  rw [← hstart.view]
  exact he.view ▸ abortEnds_shown (abortPort way) func index r (start s.dev)

section
variable {way : AbortWay} {func index : BitVec 8} {s : State} (comes : AbortComes way func index s.dev)
  (idle : bankGet s.dev.hsp.flights (portIdx (abortPort way)) = none) (o : Option (Bool × Option (Fin 9)))
include comes idle

theorem abortFrom_bad (bad : abortFunc func index = .bad) :
    ∃ d, abortFrom way func index o s = { s with dev := d } ∧ AbortShown func index .badFunc s.dev.abortView d.abortView ∧
      d.tune = s.dev.tune ∧ d.rails = s.dev.rails ∧ d.lanes = s.dev.lanes ∧ d.ocs = s.dev.ocs ∧ d.bog = s.dev.bog :=
  abortFrom_ends comes fun sda start hstart => abortCommand_bad (s := s.onDev start) (hstart.flights ▸ idle) sda bad

variable (known : abortFunc func index ≠ .bad)
include known

theorem abortFrom_denied (low : srcLevel s.dev (.port (abortPort way)) < (abortLevel (abortPort way) (abortFunc func index)).rank) :
    ∃ d, abortFrom way func index o s = { s with dev := d } ∧ AbortShown func index .denied s.dev.abortView d.abortView ∧
      d.tune = s.dev.tune ∧ d.rails = s.dev.rails ∧ d.lanes = s.dev.lanes ∧ d.ocs = s.dev.ocs ∧ d.bog = s.dev.bog :=
  abortFrom_ends comes fun sda start hstart =>
    abortCommand_denied (s := s.onDev start) (hstart.flights ▸ idle) sda known ((hstart.level _).symm ▸ low)

variable (level : (abortLevel (abortPort way) (abortFunc func index)).rank ≤ srcLevel s.dev (.port (abortPort way)))
  (alone : joined s.dev (abortPort way) (abortFunc func index) = none)
include level alone

theorem abortFrom_launches :
    ∃ nv d, abortFrom way func index o s = { s with nv := nv, dev := d } ∧
      LaunchShown (abortPort way) func index (ticksNow s.tm) d.abortView := by
  obtain ⟨sda, start, ends, hfrom, hstart, hends⟩ := abortFrom_eq comes o
  obtain ⟨nv, d, hlaunch, shown⟩ := abortCommand_launches (s := s.onDev start) (hstart.flights ▸ idle) sda known
    ((hstart.level _).symm ▸ level) ((hstart.joined _ _).trans alone)
  exact ⟨nv, ends d, hfrom.trans (congrArg (fun t : State => t.onDev ends) hlaunch), (hends d).view ▸ shown⟩

end

/-! ### ABORT of a training, and of the debug port's own access -/

theorem abortTraining_of_training {d : Device} {n : Fin 64} (h : (d.lane n).state = .training) (tm : TimeBase) :
    abortTraining tm n d = (trainingFails n d, .aborted) := by
  unfold abortTraining
  rw [h]

/-- An ABORT of a lane in TRAINING from a port with the level. -/
theorem abortFrom_training {way : AbortWay} {n : Fin 64} {s : State} (comes : AbortComes way 0x06 (BitVec.ofNat 8 n.val) s.dev)
    (idle : bankGet s.dev.hsp.flights (portIdx (abortPort way)) = none) (o : Option (Bool × Option (Fin 9)))
    (level : 3 ≤ srcLevel s.dev (.port (abortPort way))) (alone : joined s.dev (abortPort way) (.training n) = none)
    (training : (s.dev.lane n).state = .training) :
    ∃ d, abortFrom way 0x06 (BitVec.ofNat 8 n.val) o s = { s with dev := d } ∧ (d.lane n).state = .down ∧
      (d.lane n).train = none ∧ d.hsp.abortResult = .aborted := by
  obtain ⟨sda, start, ends, hfrom, hstart, hends⟩ := abortFrom_eq comes o
  have hf := abortFunc_training n
  have hlane : ((start s.dev).lane n).state = .training := by
    unfold Device.lane
    rw [hstart.lanes]
    exact training
  have one : abortOne (.training n) sda (s.onDev start) = ((s.onDev start).onDev (trainingFails n), .aborted) :=
    congrArg (fun x : Device × AbortResult => (({ s.onDev start with dev := x.1 }, x.2) : State × AbortResult))
      (abortTraining_of_training hlane s.tm)
  obtain ⟨f, decided, hr⟩ := abortCommand_aborts (p := abortPort way) (func := 0x06) (index := BitVec.ofNat 8 n.val)
    (s := s.onDev start) (hstart.flights ▸ idle) sda (by rw [hf]; nofun) (by rw [hf]; exact (hstart.level _).symm ▸ level)
    (by rw [hf]; exact (hstart.joined _ _).trans alone) hf nofun one
  have fails : ((trainingFails n (start s.dev)).lane n) = { (start s.dev).lane n with state := .down, train := none } :=
    bankGet_bankUpd_same _ _ _
  have he := hends (launch (abortPort way) f (trainingFails n (start s.dev)))
  have lane : (ends (launch (abortPort way) f (trainingFails n (start s.dev)))).lane n =
      { (start s.dev).lane n with state := .down, train := none } :=
    (congrArg (fun b => bankGet b n) he.lanes).trans fails
  exact ⟨ends (launch (abortPort way) f (trainingFails n (start s.dev))),
    hfrom.trans (congrArg (fun x : Byte × State => x.2.onDev ends) decided), congrArg Lane.state lane, congrArg Lane.train lane,
    (congrArg AbortView.result he.view).trans hr⟩

/-- An access that hangs is released. -/
theorem abortAccess_debug {d : Device} {acc : PendingAccess} (hp : (d.port .debug).pending = some acc) (todo : acc.todo ≠ []) :
    abortAccess .debug d = (releaseAccess .debug acc d, .aborted) := by
  unfold abortAccess
  rw [hp]
  dsimp only
  rw [if_neg (by simpa using todo)]

/-- What the release of an access leaves of the debug port. -/
def debugFreed (acc : PendingAccess) (x : PortState) : PortState :=
  let got := acc.got ++ if acc.write then [] else acc.todo.map fun _ => 0
  { x with pending := none, data := got.getLast?.getD 0, status := acc.status ||| stStopped }

theorem releaseAccess_debug (acc : PendingAccess) (d : Device) : releaseAccess .debug acc d = d.onPort .debug (debugFreed acc) := rfl

/-- The end of the debug port's ABORT of its own access that hangs. -/
def debugReleased (acc : PendingAccess) (f : AbortFlight) (st : Byte) (d : Device) : Device :=
  settleAlert ((launch .debug f (releaseAccess .debug acc d)).onPort .debug fun y => { y with data := 0, status := st })

theorem port_onPort_same (p : Port) (g : PortState → PortState) (d : Device) : (d.onPort p g).port p = g (d.port p) :=
  bankGet_bankUpd_same _ _ _

theorem launch_port (p q : Port) (f : AbortFlight) (d : Device) : (launch p f d).port q = d.port q := rfl

theorem launch_rails (p : Port) (f : AbortFlight) (d : Device) : (launch p f d).rails = d.rails := rfl

section
variable (acc : PendingAccess) (f : AbortFlight) (st : Byte) (d : Device)

theorem debugReleased_port :
    (debugReleased acc f st d).port .debug = { debugFreed acc (d.port .debug) with data := 0, status := st } := by
  unfold debugReleased
  rw [settleAlert_port, port_onPort_same, launch_port, releaseAccess_debug, port_onPort_same]

theorem debugReleased_result : (debugReleased acc f st d).hsp.abortResult = f.result := rfl

theorem debugReleased_rails : (debugReleased acc f st d).rails = d.rails := by
  rw [debugReleased, releaseAccess_debug]
  exact launch_rails .debug f _

end

/-- The debug port's ABORT of its own access that hangs. -/
theorem abortFrom_debug {s : State} {acc : PendingAccess} (up : reaches s.dev (.port .debug) = true)
    (hp : (s.dev.port .debug).pending = some acc) (todo : acc.todo ≠ [])
    (idle : bankGet s.dev.hsp.flights (portIdx .debug) = none) (alone : joined s.dev .debug (.access .debug) = none) :
    ∃ d, abortFrom (.write .debug) 0x08 (BitVec.ofNat 8 (portIdx .debug).val) none s = { s with dev := d } ∧
      (d.port .debug).pending = none ∧ (d.port .debug).status = 0 ∧ d.hsp.abortResult = .aborted ∧ d.rails = s.dev.rails := by
  have waits : debugWaits s.dev = true := by simp [debugWaits, up, hp]
  have hstart : SameAborts s.dev (drawSda (touch s.tm (.port .debug) s.dev)).2 :=
    (SameAborts.ofSameButAccess (sameButAccess_touch s.tm (.port .debug) s.dev)).trans (.drawSda _)
  have asks : ((drawSda (touch s.tm (.port .debug) s.dev)).2.port .debug).pending = some acc :=
    (congrArg PortState.pending (touch_port up s.tm)).trans hp
  have one (sda : Bool × Option (Fin 9)) :
      abortOne (.access .debug) sda (s.onDev fun d => (drawSda (touch s.tm (.port .debug) d)).2) =
        ((s.onDev fun d => releaseAccess .debug acc (drawSda (touch s.tm (.port .debug) d)).2), .aborted) :=
    congrArg (fun x : Device × AbortResult => (({ s with dev := x.1 }, x.2) : State × AbortResult)) (abortAccess_debug asks todo)
  obtain ⟨f, decided, hr⟩ := abortCommand_aborts (p := .debug) (func := 0x08) (index := BitVec.ofNat 8 (portIdx .debug).val)
    (s := s.onDev fun d => (drawSda (touch s.tm (.port .debug) d)).2) (hstart.flights ▸ idle)
    (drawSda (touch s.tm (.port .debug) s.dev)).1 nofun (Nat.zero_le _) ((hstart.joined _ _).trans alone)
    (abortFunc_access .debug) nofun (one _)
  have aborts : abortFrom (.write .debug) 0x08 (BitVec.ofNat 8 (portIdx .debug).val) none s =
      s.onDev (fun d => debugReleased acc f 0 (drawSda (touch s.tm (.port .debug) d)).2) :=
    (if_pos ⟨rfl, waits⟩).trans (congrArg (fun x : Byte × State => x.2.onDev fun d =>
      settleAlert (d.onPort .debug fun y => { y with data := 0, status := x.1 })) decided)
  have port := debugReleased_port acc f 0 (drawSda (touch s.tm (.port .debug) s.dev)).2
  have rails := debugReleased_rails acc f 0 (drawSda (touch s.tm (.port .debug) s.dev)).2
  have result := debugReleased_result acc f 0 (drawSda (touch s.tm (.port .debug) s.dev)).2
  exact ⟨debugReleased acc f 0 (drawSda (touch s.tm (.port .debug) s.dev)).2, aborts, congrArg PortState.pending port,
    congrArg PortState.status port, result.trans hr, rails.trans hstart.rails⟩

/-! ### ABORT_DONE -/

theorem recordAbort_er (tm : TimeBase) (d : Device) (x : Port × Option AbortFlight) : ∃ er, recordAbort tm d x = { d with er := er } := by
  have records (p : Port) (r : AbortResult) (l : List (Byte × Byte)) : ∀ d : Device,
      ∃ er, l.foldl (recordFunc tm p r) d = { d with er := er } := by
    induction l with
    | nil => exact fun d => ⟨d.er, rfl⟩
    | cons y l ih =>
      intro d
      obtain ⟨er, h⟩ := ih (recordFunc tm p r d y)
      exact ⟨er, h⟩
  unfold recordAbort
  split
  · split
    · exact records _ _ _ d
    · exact ⟨d.er, rfl⟩
  · exact ⟨d.er, rfl⟩

theorem foldl_recordAbort_er (tm : TimeBase) (l : List (Port × Option AbortFlight)) : ∀ d : Device,
    ∃ er, l.foldl (recordAbort tm) d = { d with er := er } := by
  induction l with
  | nil => exact fun d => ⟨d.er, rfl⟩
  | cons x l ih =>
    intro d
    obtain ⟨er, h⟩ := ih (recordAbort tm d x)
    obtain ⟨er', h'⟩ := recordAbort_er tm d x
    exact ⟨er, h.trans (congrArg (fun e : Device => { e with er := er }) h')⟩

theorem abortDoneAt_idle {p : Port} {d : Device} (h : bankGet d.hsp.flights (portIdx p) = none) (tm : TimeBase) :
    abortDoneAt tm p d = d := by
  unfold abortDoneAt
  rw [h]

/-- The flights that end with one. -/
def endsWith (f : AbortFlight) : Option AbortFlight → Bool
  | some y => decide (y.leader = f.leader)
  | none => false

/-- The ports whose flights end with one, and those flights. -/
def endedWith (f : AbortFlight) (d : Device) : List (Port × Option AbortFlight) :=
  ([Port.spi, .twoWire, .debug].map fun q => (q, bankGet d.hsp.flights (portIdx q))).filter fun x => endsWith f x.2

/-- What the host port shows after ABORT_DONE: the ABORT last decided, where its flight has ended. -/
def doneShown (tm : TimeBase) (shown : Option (Port × Option AbortFlight)) (h : HostPort) : HostPort :=
  match shown with
  | some (_, some y) => { h with
      abortDone := true, abortResult := y.result, abortElapsed := satNat 16 ((ticksNow tm - y.start) / 32) }
  | _ => h

theorem doneShown_flights (tm : TimeBase) (shown : Option (Port × Option AbortFlight)) (h : HostPort) :
    (doneShown tm shown h).flights = h.flights := by
  unfold doneShown
  split <;> rfl

theorem doneShown_evt (tm : TimeBase) (shown : Option (Port × Option AbortFlight)) (h : HostPort) :
    (doneShown tm shown h).evt = h.evt := by
  unfold doneShown
  split <;> rfl

theorem abortDoneAt_of_flight {p : Port} {f : AbortFlight} {d : Device} (h : bankGet d.hsp.flights (portIdx p) = some f)
    (tm : TimeBase) :
    abortDoneAt tm p d = (endedWith f d).foldl (recordAbort tm) { d with
      hsp := doneShown tm ((endedWith f d).find? fun x => decide (x.1 = d.hsp.abortPort)) { d.hsp with
        flights := bankMap d.hsp.flights fun _ x => if endsWith f x then none else x, evt := setBit d.hsp.evt 0 } } := by
  unfold abortDoneAt
  rw [h]
  rfl

/-- The flight of a port is among those that end with it, and no other of that port is. -/
theorem find_endedWith {p : Port} {f : AbortFlight} {d : Device} (h : bankGet d.hsp.flights (portIdx p) = some f) :
    (endedWith f d).find? (fun x => decide (x.1 = p)) = some (p, some f) := by
  unfold endedWith
  rw [List.find?_filter]
  have ends : endsWith f (some f) = true := decide_eq_true rfl
  cases p <;> simp [List.find?, h, ends]

end Sys2Proof.Machine
end

section
/-! SUPPORT. O40: the statement. -/

namespace Sys2Proof.Machine

theorem abortDone_shows {p : Port} {f : AbortFlight} {d : Device} (h : bankGet d.hsp.flights (portIdx p) = some f) (tm : TimeBase) :
    ∃ hsp er, abortDoneAt tm p d = { d with hsp := hsp, er := er } ∧ bankGet hsp.flights (portIdx p) = none ∧
      hsp.evt = setBit d.hsp.evt 0 ∧ (d.hsp.abortPort = p → hsp.abortDone = true ∧ hsp.abortResult = f.result ∧
        hsp.abortElapsed = satNat 16 ((ticksNow tm - f.start) / 32)) := by
  have done := abortDoneAt_of_flight h tm
  obtain ⟨er, records⟩ := foldl_recordAbort_er tm (endedWith f d) { d with
    hsp := doneShown tm ((endedWith f d).find? fun x => decide (x.1 = d.hsp.abortPort)) { d.hsp with
      flights := bankMap d.hsp.flights fun _ x => if endsWith f x then none else x, evt := setBit d.hsp.evt 0 } }
  refine ⟨_, er, done.trans records, ?_, doneShown_evt _ _ _, fun shows => ?_⟩
  · rw [doneShown_flights, bankGet_bankMap, h]
    exact if_pos (decide_eq_true rfl)
  · rw [shows, find_endedWith h]
    exact ⟨rfl, rfl, rfl⟩

/-- A frame that starts counts no CRC error. -/
theorem hostFrameStarts_counts (d : Device) : ∃ ports hsp, hostFrameStarts d = { d with ports := ports, hsp := hsp } ∧
    hsp.crcErrs = d.hsp.crcErrs ∧ hsp.evt = d.hsp.evt ∧ hsp.flights = d.hsp.flights := by
  unfold hostFrameStarts cutStalled
  split
  · split
    · exact ⟨_, _, rfl, rfl, rfl, rfl⟩
    · exact ⟨_, _, rfl, rfl, rfl, rfl⟩
  · exact ⟨_, _, rfl, rfl, rfl, rfl⟩

theorem crcFails_started (header body : List Byte) (ports : Bank 3 PortState) (hsp : HostPort) (d : Device) :
    crcFails header body { d with ports := ports, hsp := hsp } = { d with
      ports := ports
      hsp := { hsp with
        crcErrs := hsp.crcErrs + 1, evt := setBit hsp.evt 4, response := some (responseOf header body stCrc), lastErr := false } } :=
  rfl

theorem abortFrame_crcFails {func index hcrc : BitVec 8} {s : State} (up : answers s.dev = true)
    (bad : crc8 [0x05, func, index] ≠ hcrc) (o : Option (Bool × Option (Fin 9))) :
    ∃ d, abortFrame func index o hcrc s = { s with dev := d } ∧ OnlyFrame s d ∧ d.hsp.crcErrs = s.dev.hsp.crcErrs + 1 ∧
      d.hsp.evt = setBit s.dev.hsp.evt 4 ∧ d.hsp.response = some (responseOf [0x05, func, index] [] 0x01) ∧
      d.hsp.flights = s.dev.hsp.flights := by
  have framed : abortFrame func index o hcrc s = s.onDev fun d => crcFails [0x05, func, index] [] (hostFrameStarts d) :=
    (if_neg (by simp [up])).trans (if_pos bad)
  obtain ⟨ports, hsp, hd, errs, evt, flights⟩ := hostFrameStarts_counts s.dev
  have fails : crcFails [0x05, func, index] [] (hostFrameStarts s.dev) = _ :=
    (congrArg _ hd).trans (crcFails_started [0x05, func, index] [] ports hsp s.dev)
  exact ⟨_, framed.trans (congrArg (fun d => ({ s with dev := d } : State)) fails), ⟨_, _, rfl⟩, congrArg (· + 1) errs,
    congrArg (setBit · 0x4) evt, rfl, flights⟩

/-- Settles O40: an ABORT is decided between the start and the end of its frame or access, and these leave what HSP shows of it. -/
theorem abortsRun : Obligations.AbortsRun := by
  unfold Obligations.AbortsRun
  refine ⟨fun way sda freedAt r n q s idle x hx comes => ?_, fun hcrc sda freedAt r n q s up x hx bad => ?_,
    fun way n s comes idle level alone training => ?_, fun acc s up hp todo idle alone => ?_,
    fun way func index s comes idle unlisted => ?_, fun p s idle => ?_, fun p f s flies => ?_⟩
  · obtain ⟨⟨o, row⟩, known, level⟩ := abortOps_op x hx
    rw [row, ← level]
    refine ⟨fun high alone => ?_, fun low => ?_⟩
    · obtain ⟨nv, d, hd, f, shown⟩ := abortFrom_launches comes idle o known high alone
      exact ⟨nv, d, f, congrArg Host.Outcome.next hd, shown⟩
    · obtain ⟨d, hd, shown, tune, rails, lanes, ocs, bog⟩ := abortFrom_denied comes idle o known low
      exact ⟨d, congrArg Host.Outcome.next hd, shown.done, shown.result, shown.evt, shown.flights, tune, rails, lanes, ocs, bog⟩
  · obtain ⟨⟨o, row⟩, -, -⟩ := abortOps_op x hx
    rw [row]
    exact (abortFrame_crcFails up bad o).imp fun _ => And.imp_left (congrArg Host.Outcome.next)
  · exact (abortFrom_training comes idle none level alone training).imp fun _ => And.imp_left (congrArg Host.Outcome.next)
  · exact (abortFrom_debug up hp todo idle alone).imp fun _ => And.imp_left (congrArg Host.Outcome.next)
  · obtain ⟨d, hd, shown, -, rails, lanes, ocs, -⟩ := abortFrom_bad comes idle none (abortFunc_bad unlisted index)
    have row : exec (.badFunc way func index) s = .next (abortFrom way func index none s) := congrArg Host.Outcome.next (if_neg unlisted)
    exact ⟨d, row.trans (congrArg Host.Outcome.next hd), shown.done, shown.result, shown.func, shown.index, rails, lanes, ocs⟩
  · exact next_of_dev (abortDoneAt_idle idle s.tm)
  · obtain ⟨hsp, er, hd, shown⟩ := abortDone_shows flies s.tm
    exact ⟨hsp, er, next_of_dev hd, shown⟩

end Sys2Proof.Machine
end

section
/-! SUPPORT. O35: an entry of the protection matrix that FIRST cannot name. -/

namespace Sys2Proof.Machine

/-! ### FIRST after the entries of a cycle -/

theorem captureTrigger_pm (tm : TimeBase) (k : TriggerKind) (index : Nat) (d : Device) : (captureTrigger tm k index d).pm = d.pm := by
  obtain ⟨_, _, _, h⟩ := captureTrigger_eq tm k index d
  rw [h]

theorem fireEntry_first (tm : TimeBase) (i : Nat) (e : ProtEntry) (d : Device) :
    (fireEntry tm i e d).pm.first = d.pm.first.or (fin? 256 i) := by
  unfold fireEntry
  dsimp only
  have raised (pm : Protect) (payload : List Byte) : (raise tm 0x70 payload { d with pm := pm }).pm = pm := rfl
  cases hf : d.pm.first <;> split <;> simp only [captureTrigger_pm, raised, Option.none_or, Option.some_or]

theorem actOnRail_zero (tm : TimeBase) (r : Fin 64) (d : Device) : actOnRail tm r 0 d = d := by
  unfold actOnRail
  split <;> rfl

theorem railAction_none {e : ProtEntry} (h : e.action = 0) (d : Device) (r : Fin 64) : railAction d e r = 0 := by
  unfold railAction
  rw [h]
  rfl

/-- Entries beyond the 256 that FIRST can name, which take no action, leave FIRST. -/
theorem fireAll_beyond (tm : TimeBase) (fired : List (Nat × ProtEntry)) (beyond : ∀ x ∈ fired, 256 ≤ x.1 ∧ x.2.action = 0)
    (d : Device) : (fireAll tm fired d).pm.first = d.pm.first := by
  have fires : (fired.foldl (fun d x => fireEntry tm x.1 x.2 d) d).pm.first = d.pm.first := by
    refine List.foldlRecOn (motive := fun t : Device => t.pm.first = d.pm.first) fired _ rfl fun t ht x hx => ?_
    have unnamed : fin? 256 x.1 = none := dif_neg (not_lt.mpr (beyond x hx).1)
    rw [fireEntry_first, unnamed, ht, Option.or_none]
  have still (t : Device) (r : Fin 64) : fired.foldl (fun a x => max a (railAction t x.2 r)) 0 = 0 :=
    List.foldlRecOn (motive := fun a : Nat => a = 0) fired _ rfl fun a ha x hx => by
      rw [ha, railAction_none (beyond x hx).2, max_self]
  have trips (t : Device) : (fired.flatMap fun x => if x.2.action = 1 then (phaseTrips t x.2).getD [] else []) = [] := by
    refine List.flatMap_eq_nil_iff.mpr fun x hx => if_neg ?_
    rw [(beyond x hx).2]
    decide
  have acts (t : Device) : (((List.finRange 64).map fun r => (r, fired.foldl (fun a x => max a (railAction t x.2 r)) 0)).foldl
      (fun d x => actOnRail tm x.1 x.2 d) t) = t := by
    refine List.foldlRecOn (motive := fun u : Device => u = t) _ _ rfl fun u hu x hx => ?_
    obtain ⟨r, -, rfl⟩ := List.mem_map.mp hx
    rw [still, actOnRail_zero, hu]
  cases fired with
  | nil => rfl
  | cons x l =>
    unfold fireAll
    dsimp only
    rw [trips, acts]
    exact fires

/-- What fires was clear before. -/
theorem updateSources_first (tm : TimeBase) (f : ProtEntry → ProtSt → ProtSt) (d : Device)
    (beyond : ∀ (i : Nat) (e : ProtEntry) (x : ProtSt), d.pm.entries[i]? = some e → d.pm.st[i]? = some x → x.active = false →
      256 ≤ i ∧ e.action = 0) : (updateSources tm f d).pm.first = d.pm.first := by
  unfold updateSources
  dsimp only
  rw [fireAll_beyond tm]
  · rfl
  intro y hy
  obtain ⟨⟨⟨⟨e, x⟩, x'⟩, i⟩, hz, rfl⟩ := List.mem_map.mp hy
  obtain ⟨hmem, hnew⟩ := List.mem_filter.mp hz
  have hget := List.mem_zipIdx_iff_getElem?.mp hmem
  obtain ⟨hold, -⟩ := List.getElem?_zip_eq_some.mp hget
  obtain ⟨he, hx⟩ := List.getElem?_zip_eq_some.mp hold
  have clear : x.active = false := by simp_all
  exact beyond i e x he hx clear

/-! ### The state -/

/-- An over-voltage entry of VSENSE input 0 that takes no action. -/
def overEntry : ProtEntry := ⟨5, 0, 0, none, 0, 0⟩

/-- A matrix of such entries, of which the last alone is clear. -/
def crowded (n : Nat) : Device := { Device.reset with
  pm := { Device.reset.pm with
    entries := List.replicate (n + 1) overEntry
    st := List.replicate n ⟨0, true, false⟩ ++ [⟨15, false, false⟩] } }

section
variable (n : Nat)

theorem crowded_entry {i : Nat} {e : ProtEntry} (h : (crowded n).pm.entries[i]? = some e) : e = overEntry :=
  List.eq_of_mem_replicate (List.mem_of_getElem? h)

theorem crowded_lastEntry : (crowded n).pm.entries[n]? = some overEntry :=
  List.getElem?_replicate.trans (if_pos n.lt_succ_self)

theorem crowded_st {i : Nat} (below : i < n) : (crowded n).pm.st[i]? = some ⟨0, true, false⟩ :=
  (List.getElem?_append_left (below.trans_eq List.length_replicate.symm)).trans (List.getElem?_replicate.trans (if_pos below))

theorem crowded_lastSt : (crowded n).pm.st[n]? = some ⟨15, false, false⟩ := by
  unfold crowded
  dsimp only
  rw [List.getElem?_append_right (by simp), List.length_replicate, Nat.sub_self]
  rfl

theorem crowded_first (many : 256 ≤ n) (tm : TimeBase) (v : Fin 8) (code : BitVec 16) :
    (vsenseEnds tm v code (crowded n)).pm.first = none := by
  refine updateSources_first _ _ _ fun i e x he hx clear => ?_
  refine ⟨not_lt.mp fun below => ?_, (crowded_entry n he).symm ▸ rfl⟩
  have active := Option.some.inj (hx.symm.trans (crowded_st n (below.trans_le many)))
  rw [active] at clear
  exact Bool.noConfusion clear

end

theorem vsense_device {v : Fin 8} {code : BitVec 16} {s : State} {d : Device}
    (h : exec (.vsenseConversion v code) s = .next { s with dev := d }) : vsenseEnds s.tm v code s.dev = d :=
  congrArg State.dev (Host.Outcome.next.inj h)

/-- Refutes O35: a matrix of more than 256 entries, as the statement's states may hold one, has an entry whose number FIRST, a value
below 256, cannot show; where that entry alone asserts, FIRST stays empty. -/
theorem not_protectionActs : ¬ Obligations.ProtectionActs := by
  unfold Obligations.ProtectionActs
  rintro ⟨asserts, -⟩
  obtain ⟨n, many⟩ : ∃ n, 256 ≤ n := ⟨256, le_rfl⟩
  obtain ⟨d, y, hd, -, -, -, -, -, -, first, -⟩ := asserts 0 1 n overEntry ⟨15, false, false⟩
    { State.reset with dev := crowded n } (crowded_lastEntry n) (crowded_lastSt n) rfl rfl (by decide)
    (show max 1 Device.reset.pm.vsCount.toNat ≤ 15 + 1 by decide) rfl rfl
  have empty := crowded_first n many State.reset.tm 0 1
  rw [vsense_device hd] at empty
  rw [empty] at first
  exact Bool.noConfusion first

end Sys2Proof.Machine
end

section
/-! SUPPORT. O36: what leaves the housekeeping's view as it is and brings no rail into a state that protection can end. -/

namespace Sys2Proof.Machine

/-! ### The relation -/

/-- What the end of a round and an on-die sample settle of the housekeeping. -/
structure Heat where
  inRound : Bool
  rounds : Word
  chans : Bank 96 Channel
  dies : Bank 8 Die
  jmax : BitVec 16
  storeWin : Bool
  tsd : Bool

def Housekeeping.heat (h : Housekeeping) : Heat := ⟨h.inRound, h.rounds, h.chans, h.dies, h.jmax, h.storeWin, h.tsd⟩

/-- A change leaves the device awake where it was, brings no rail into a state that protection can end, and settles the heat. -/
structure Cools (d t : Device) (h : Heat) : Prop where
  awake : d.pwr.mode ≠ .standby → t.pwr.mode ≠ .standby
  heat : t.hkt.heat = h
  rails : ∀ r, (t.rail r).state.tripped = true → (d.rail r).state.tripped = true

/-- Such a change that leaves the heat. -/
def Calm (d t : Device) : Prop := Cools d t d.hkt.heat

theorem Cools.trans {d t u : Device} {h k : Heat} (x : Cools d t h) (y : Cools t u k) : Cools d u k :=
  ⟨y.awake ∘ x.awake, y.heat, fun r => x.rails r ∘ y.rails r⟩

theorem Cools.calm {d t u : Device} {h : Heat} (x : Cools d t h) (y : Calm t u) : Cools d u h :=
  x.heat ▸ x.trans y

theorem Cools.untripped {d t : Device} {h : Heat} (x : Cools d t h) {r : Fin 64} (off : (d.rail r).state.tripped = false) :
    (t.rail r).state.tripped = false :=
  Bool.eq_false_iff.mpr fun on => Bool.eq_false_iff.mp off (x.rails r on)

namespace Calm

theorem refl (d : Device) : Calm d d := ⟨id, rfl, fun _ => id⟩

theorem trans {d t u : Device} (x : Calm d t) (y : Calm t u) : Calm d u := Cools.calm x y

/-- What touches neither power, nor housekeeping, nor rails. -/
theorem ofSame {d t : Device} (hpwr : t.pwr = d.pwr) (hhkt : t.hkt = d.hkt) (hrails : t.rails = d.rails) : Calm d t :=
  ⟨fun h => hpwr ▸ h, congrArg Housekeeping.heat hhkt, fun r h => by rwa [rail_of_rails hrails r] at h⟩

theorem ite {d a b : Device} {c : Prop} [Decidable c] (ha : Calm d a) (hb : Calm d b) : Calm d (if c then a else b) := by
  split
  · exact ha
  · exact hb

theorem foldl {α : Type} {f : Device → α → Device} (hf : ∀ d x, Calm d (f d x)) (l : List α) (d : Device) : Calm d (l.foldl f d) :=
  List.foldlRecOn (motive := Calm d) l f (refl d) fun t ht x _ => ht.trans (hf t x)

theorem foldlFrom {α : Type} {f : Device → α → Device} {l : List α} {d t : Device} (hf : ∀ d x, Calm d (f d x)) (h : Calm d t) :
    Calm d (l.foldl f t) := h.trans (foldl hf l t)

theorem onRail {f : Rail → Rail} (r : Fin 64) (d : Device) (h : ∀ x, (f x).state = x.state := by intro; rfl) :
    Calm d (d.onRail r f) := by
  refine Cools.mk (t := d.onRail r f) id rfl fun k on => ?_
  by_cases e : r = k
  · subst e
    rwa [Device.onRail_rail, h] at on
  · rwa [Device.onRail_rail_other d f e] at on

end Calm

/-! ### Records, cells and slots -/

theorem raise_calm (tm : TimeBase) (code : Nat) (payload : List Byte) (d : Device) : Calm d (raise tm code payload d) :=
  .ofSame rfl rfl rfl

theorem captureTrigger_calm (tm : TimeBase) (k : TriggerKind) (index : Nat) (d : Device) : Calm d (captureTrigger tm k index d) := by
  obtain ⟨_, _, _, h⟩ := captureTrigger_eq tm k index d
  rw [h]
  exact .ofSame rfl rfl rfl

theorem clearSources_calm (pick : ProtEntry → Bool) (d : Device) : Calm d (clearSources pick d) := .ofSame rfl rfl rfl

theorem ownerLoses_calm (g : Fin 512) (d : Device) : Calm d (ownerLoses g d) := by
  unfold ownerLoses
  split
  · exact .onRail _ d
  · exact .refl d

theorem setSlot_calm (g : Fin 512) (st : SlotState) (why : SlotReason) (d : Device) : Calm d (setSlot g st why d) := by
  have marked : Calm d (d.onSlot g fun s => { s with state := st, reason := why }) := .ofSame rfl rfl rfl
  have owned (lost : Bool) : Calm d (if lost then ownerLoses g (d.onSlot g fun s => { s with state := st, reason := why })
      else d.onSlot g fun s => { s with state := st, reason := why }) := .ite (marked.trans (ownerLoses_calm g _)) marked
  have noted (t : Device) (l : Lane → Lane) : Calm t (t.onLane (laneOf g) l) := .ofSame rfl rfl rfl
  exact .ite ((owned _).trans (noted _ _)) (owned _)

theorem unplace_calm (g : Fin 512) (stopAt : Option Nat) (d : Device) : Calm d (unplace g stopAt d) :=
  have gone (t : Device) (s : Slot → Slot) (p : Phase → Phase) (e : Engine) :
      Calm t { (t.onSlot g s).onPhase g p with le := e } := .ofSame rfl rfl rfl
  (Calm.ite (clearSources_calm _ d) (.refl d)).trans (gone _ _ _ _)

theorem noteMode_calm (tm : TimeBase) (r : Fin 64) (before after : Device) : Calm after (noteMode tm r before after) := by
  obtain ⟨_, h⟩ := noteMode_eq tm r before after
  rw [h]
  exact .ofSame rfl rfl rfl

/-! ### A rail leaves its running state (Table 8-2) -/

theorem resumeLoop_calm (t : TuneRun) (d : Device) : Calm d (resumeLoop t d) := by
  unfold resumeLoop
  split
  · exact .refl d
  next b _ =>
    have inner (d : Device) (g : Fin 512) : Calm d (presetInner t.rail b g (d.phase g).duty d) := .ofSame rfl rfl rfl
    exact .ite (.refl d) (.ite (.foldl inner _ d) (.ofSame rfl rfl rfl))

theorem endTuneOn_calm (tm : TimeBase) (r : Fin 64) {res : TuneResult} (hres : res ≠ .done) (d : Device) :
    Calm d (endTuneOn tm r res d) := by
  refine .ite ?_ (.refl d)
  cases hrun : d.tune.run with
  | none =>
    rw [show endTune tm res [] d = d by simp [endTune, hrun]]
    exact .refl d
  | some t =>
    rw [endTune_eq hrun hres]
    have dropped : Calm d (dropRun res d) := .ofSame rfl rfl rfl
    exact ((dropped.trans (noteMode_calm ..)).trans (resumeLoop_calm t _)).trans (raise_calm ..)

theorem countUnwound_calm (r : Fin 64) (n : Nat) (d : Device) : Calm d (countUnwound r n d) := .ite (.refl d) (.onRail r d)

theorem raiseUnwinds_calm (tm : TimeBase) (r : Fin 64) (un re : List (Fin 128)) (d : Device) : Calm d (raiseUnwinds tm r un re d) :=
  .foldl (fun d _ => .ite (.refl d) (raise_calm ..)) _ d

theorem dropRecords_calm (tm : TimeBase) (r : Fin 64) (pick : AddRecord → Bool) (d : Device) : Calm d (dropRecords tm r pick d) :=
  ((Calm.onRail r d).trans (countUnwound_calm ..)).trans (raiseUnwinds_calm ..)

theorem discardRecords_calm (tm : TimeBase) (r : Fin 64) (d : Device) : Calm d (discardRecords tm r d) :=
  (Calm.onRail r d).trans (raiseUnwinds_calm ..)

theorem unseat_calm (atOnce : Bool) (d : Device) (g : Fin 512) : Calm d (unseat atOnce d g) := by
  have stopped (t : Device) (l : Lane → Lane) (p : Phase → Phase) : Calm t (sendStop g ((t.onLane (laneOf g) l).onPhase g p)) :=
    .ofSame rfl rfl rfl
  have left := unplace_calm g none d
  refine .ite (.ite (left.trans (stopped _ _ _)) ?_) (unplace_calm g _ d)
  split
  · exact (left.trans (stopped _ _ _)).trans (setSlot_calm ..)
  · exact (left.trans (stopped _ _ _)).trans (setSlot_calm ..)

theorem emptyPlaced_calm (atOnce : Bool) (r : Fin 64) (d : Device) : Calm d (emptyPlaced atOnce r d) :=
  .foldl (unseat_calm atOnce) _ d

theorem endCmd_calm (r : Fin 64) (res : CmdResult) (d : Device) : Calm d (endCmd r res d) := .onRail r d

theorem discardPending_calm (tm : TimeBase) (r : Fin 64) (d : Device) : Calm d (discardPending tm r d) :=
  ((Calm.ite (endCmd_calm r .source d) (.refl d)).trans
    (.foldl (fun d _ => (endCmd_calm r .state d).trans (raise_calm ..)) _ _)).trans (.onRail r _)

/-- STATE changes on one rail. -/
theorem changeState_state (tm : TimeBase) (r k : Fin 64) (to' : RailState) (cause : RailCause) (d : Device) :
    ((changeState tm r to' cause d).rail k).state = if r = k then to' else (d.rail k).state := by
  obtain ⟨_, _, _, _, _, h⟩ := changeState_eq tm r to' cause d
  rw [h]
  unfold Device.rail
  dsimp only
  rw [bankGet_bankSet]
  split <;> rfl

theorem changeState_calm (tm : TimeBase) (r : Fin 64) {to' : RailState} (off : to'.tripped = false) (cause : RailCause) (d : Device) :
    Calm d (changeState tm r to' cause d) := by
  obtain ⟨_, _, _, _, _, h⟩ := changeState_eq tm r to' cause d
  have hhkt : (changeState tm r to' cause d).hkt = d.hkt := (congrArg Device.hkt h :)
  have hpwr : (changeState tm r to' cause d).pwr = d.pwr := changeState_pwr tm r to' cause d
  have rails (k : Fin 64) (on : ((changeState tm r to' cause d).rail k).state.tripped = true) : (d.rail k).state.tripped = true := by
    rw [changeState_state] at on
    split at on
    · exact absurd on (Bool.eq_false_iff.mp off)
    · exact on
  have awake : d.pwr.mode ≠ .standby → (changeState tm r to' cause d).pwr.mode ≠ .standby := by
    rw [hpwr]
    exact id
  exact Cools.mk awake (congrArg Housekeeping.heat hhkt) rails

section
variable (tm : TimeBase) (r : Fin 64) (atOnce : Bool) {to' : RailState} (cause : RailCause) (d : Device)

/-- What follows the change of STATE. -/
theorem leaveRunning_after :
    Calm (changeState tm r to' cause (endTuneOn tm r .state d)) (leaveRunning tm r atOnce to' cause d) := by
  have emptied := (discardRecords_calm tm r (changeState tm r to' cause (endTuneOn tm r .state d))).trans (emptyPlaced_calm atOnce r _)
  have cancels (t : Device) : Calm t { t with le := cancelRail r t.le } := .ofSame rfl rfl rfl
  have cancelled := emptied.trans (cancels _)
  unfold leaveRunning
  dsimp only
  split
  · exact (cancelled.trans (discardPending_calm ..)).trans (.onRail r _)
  · exact (cancelled.trans (discardPending_calm ..)).trans (.onRail r _)
  · exact cancelled.trans (.onRail r _)

variable (off : to'.tripped = false)
include off

theorem leaveRunning_calm : Calm d (leaveRunning tm r atOnce to' cause d) :=
  ((endTuneOn_calm tm r (res := .state) nofun d).trans (changeState_calm tm r off cause _)).trans (leaveRunning_after tm r atOnce cause d)

theorem leaveRunning_untripped : ((leaveRunning tm r atOnce to' cause d).rail r).state.tripped = false :=
  (leaveRunning_after tm r atOnce cause d).untripped (by rw [changeState_state, if_pos rfl]; exact off)

end

theorem enterFault_calm (tm : TimeBase) (r : Fin 64) (cause : RailCause) (d : Device) : Calm d (enterFault tm r cause d) :=
  (leaveRunning_calm tm r true cause d rfl).trans (captureTrigger_calm ..)

theorem enterSafe_calm (tm : TimeBase) (r : Fin 64) (cause : RailCause) (d : Device) : Calm d (enterSafe tm r cause d) :=
  (leaveRunning_calm tm r true cause d rfl).trans (captureTrigger_calm ..)

theorem actOnRail_calm (tm : TimeBase) (r : Fin 64) (a : Nat) (d : Device) : Calm d (actOnRail tm r a d) :=
  .ite (.refl d) (.ite (enterSafe_calm ..) (.ite (enterFault_calm ..) (.refl d)))

/-- ACTION 3 and thermal shutdown leave no rail in a state that protection can end. -/
theorem actOnRail_untripped (tm : TimeBase) (r : Fin 64) {a : Nat} (safe : 3 ≤ a) (d : Device) :
    ((actOnRail tm r a d).rail r).state.tripped = false := by
  unfold actOnRail
  by_cases on : (d.rail r).state.tripped = true
  · rw [if_neg (by simp [on]), if_pos safe]
    exact (captureTrigger_calm ..).untripped (leaveRunning_untripped tm r true .pmSafe d rfl)
  · rw [if_pos (by simpa using on)]
    exact Bool.eq_false_iff.mpr on

/-! ### Phases and lanes that are lost -/

theorem immediateLeave_calm (tm : TimeBase) (g : Fin 512) (d : Device) : Calm d (immediateLeave tm g d) := by
  unfold immediateLeave
  split
  · exact unplace_calm g none d
  next r _ =>
    have gone := (endTuneOn_calm tm r (res := .phases) nofun d).trans (unplace_calm g none _)
    have dropped := (gone.trans (dropRecords_calm tm r (fun y => decide (y.phase = g)) _)).trans
      (.onRail (f := fun x => { x with unwinding := x.unwinding.filter fun y => decide (y.phase ≠ g) }) r _)
    have again (t : Device) : Calm t { t with
        tbi := { t.tbi with rails := bankUpd t.tbi.rails r fun t => { t with recompute := true } } } := .ofSame rfl rfl rfl
    exact .ite (.refl d) ((dropped.trans (again _)).trans (.ite (enterFault_calm ..) (.refl _)))

theorem loseSlot_calm (tm : TimeBase) (g : Fin 512) (why : SlotReason) (d : Device) : Calm d (loseSlot tm g why d) := by
  have marked (t : Device) (f : Slot → Slot) : Calm t (t.onSlot g f) := .ofSame rfl rfl rfl
  exact ((setSlot_calm g .lost why d).trans (marked _ _)).trans (immediateLeave_calm ..)

theorem startRetrain_calm (tm : TimeBase) (n : Fin 64) (d : Device) : Calm d (startRetrain tm n d) := by
  have noted (t : Device) (g : Fin 512) (p : Phase → Phase) : Calm t (t.onPhase g p) := .ofSame rfl rfl rfl
  unfold startRetrain
  dsimp only
  split
  · exact .refl d
  · apply Calm.foldlFrom
    · intro t g
      split
      · exact .ofSame rfl rfl rfl
      · exact .ofSame rfl rfl rfl
      · exact .ofSame rfl rfl rfl
      · exact (loseSlot_calm ..).trans (noted _ g _)
    · exact .ofSame rfl rfl rfl

/-! ### The protection matrix -/

theorem stopPhase_calm (tm : TimeBase) (g : Fin 512) (d : Device) : Calm d (stopPhase tm g d) := by
  have left := immediateLeave_calm tm g d
  have marked (t : Device) (l : Lane → Lane) (p : Phase → Phase) : Calm t ((t.onLane (laneOf g) l).onPhase g p) :=
    .ofSame rfl rfl rfl
  have stopped (t : Device) : Calm t (sendStop g t) := .ofSame rfl rfl rfl
  exact .ite left (.ite (left.trans (marked _ _ _)) (.ite (((left.trans (marked _ _ _)).trans (stopped _)).trans (setSlot_calm ..))
    ((left.trans (marked _ _ _)).trans (stopped _))))

theorem tripPhase_calm (tm : TimeBase) (g : Fin 512) (d : Device) : Calm d (tripPhase tm g d) := by
  unfold tripPhase
  dsimp only
  split
  next r _ =>
    exact (((Calm.onRail r d).trans (endTuneOn_calm tm r (res := .state) nofun _)).trans (.onRail r _)).trans (stopPhase_calm ..)
  · exact stopPhase_calm tm g d

theorem fireEntry_calm (tm : TimeBase) (i : Nat) (e : ProtEntry) (d : Device) : Calm d (fireEntry tm i e d) := by
  have raised (pm : Protect) (payload : List Byte) : Calm d (raise tm 0x70 payload { d with pm := pm }) := .ofSame rfl rfl rfl
  exact .ite (raised _ _) ((raised _ _).trans (captureTrigger_calm ..))

theorem fireAll_calm (tm : TimeBase) (fired : List (Nat × ProtEntry)) (d : Device) : Calm d (fireAll tm fired d) := by
  unfold fireAll
  split
  · exact .refl d
  · exact ((Calm.foldl (fun d _ => fireEntry_calm tm _ _ d) _ d).trans (.foldl (fun d _ => actOnRail_calm tm _ _ d) _ _)).trans
      (.foldl (fun d g => tripPhase_calm tm g d) _ _)

theorem updateSources_calm (tm : TimeBase) (f : ProtEntry → ProtSt → ProtSt) (d : Device) : Calm d (updateSources tm f d) := by
  have taken (st : List ProtSt) : Calm d { d with pm := d.pm.withSt st } := .ofSame rfl rfl rfl
  exact (taken _).trans (fireAll_calm tm _ _)

theorem channelSources_calm (tm : TimeBase) (d : Device) : Calm d (channelSources tm d) := updateSources_calm tm _ d

end Sys2Proof.Machine
end

section
/-! SUPPORT. O36: the end of a round, an on-die sample, and a wake that follows them. -/

namespace Sys2Proof.Machine

/-! ### Store, scheduler and records -/

theorem storePump_calm (nv : NonVol) (d : Device) : Calm d (storePump nv d) := by
  obtain ⟨_, h, -⟩ := storePump_eq nv d
  rw [h]
  exact .ofSame rfl rfl rfl

theorem stopErase_calm (nv : NonVol) (d : Device) : Calm d (stopErase nv d).2 := by
  obtain ⟨_, h, -⟩ := stopErase_eq nv d
  rw [h]
  exact .ofSame rfl rfl rfl

theorem copyShutdowns_calm (nv : NonVol) (d : Device) : Calm d (copyShutdowns nv d) :=
  have kept := aside_copyShutdowns nv d
  .ofSame (congrArg Device.pwr kept :) (congrArg Device.hkt kept :) (congrArg Device.rails kept :)

theorem settleBus_calm (b : Fin 2) (d : Device) : Calm d (settleBus b d) := by
  obtain ⟨_, h⟩ := settleBus_eq b d
  rw [h]
  exact .ofSame rfl rfl rfl

theorem setIlim_calm (r : Fin 64) (d : Device) : Calm d (setIlim r d) := by
  unfold setIlim
  split
  · exact .onRail r d
  · exact .refl d

theorem reportExhausted_calm (tm : TimeBase) (r : Fin 64) (e : Bool) (d : Device) : Calm d (reportExhausted tm r e d) :=
  .ite (.refl d) (.ofSame rfl rfl rfl)

theorem throttleRails_calm (tm : TimeBase) (d : Device) : Calm d (throttleRails tm d) :=
  have stepped (rails : Bank 64 Throttle) : Calm d { d with hkt := { d.hkt with rails := rails } } := ⟨id, rfl, fun _ => id⟩
  .foldlFrom (fun d r => (setIlim_calm r d).trans (reportExhausted_calm ..)) (stepped _)

theorem channelEvents_calm (tm : TimeBase) (c : Fin 96) (old new : Channel) (d : Device) : Calm d (channelEvents tm c old new d) := by
  unfold channelEvents
  extract_lets mark d1 flag
  have marked (b : Bool) (i : Nat) (d : Device) : Calm d (mark b i d) := .ite ⟨id, rfl, fun _ => id⟩ (.refl d)
  have flagged (was is : Bool) (n : Nat) (d : Device) : Calm d (flag was is n d) :=
    .ite (.refl d) ((raise_calm ..).trans (marked ..))
  have changed : Calm d d1 := .ite (.refl d) ((raise_calm ..).trans (marked ..))
  exact ((changed.trans (flagged ..)).trans (flagged ..)).trans (flagged ..)

theorem exhaustedEvents_calm (tm : TimeBase) (old : Bank 64 Throttle) (d : Device) : Calm d (exhaustedEvents tm old d) := by
  have marked (d : Device) (v : Byte) : Calm d { d with hkt := { d.hkt with intStatus := v } } := ⟨id, rfl, fun _ => id⟩
  exact .foldl (fun d r => .ite (.refl d) (.ite ((raise_calm ..).trans (marked _ _)) (raise_calm ..))) _ d

/-! ### Thermal shutdown and the window -/

/-- A change that settles the heat, and that leaves no rail in a state that protection can end where it enters thermal shutdown. -/
structure Shuts (d t : Device) (h : Heat) : Prop where
  cools : Cools d t h
  safe : d.hkt.tsd = false → h.tsd = true → ∀ r, (t.rail r).state.tripped = false

theorem Cools.shuts {d t : Device} {h : Heat} (x : Cools d t h) (same : h.tsd = d.hkt.tsd) : Shuts d t h :=
  ⟨x, fun off on => absurd (same.symm.trans on) (Bool.eq_false_iff.mp off)⟩

theorem Calm.shuts {d t : Device} (x : Calm d t) : Shuts d t d.hkt.heat := Cools.shuts x rfl

namespace Shuts

theorem calm {d t u : Device} {h : Heat} (x : Shuts d t h) (y : Calm t u) : Shuts d u h :=
  ⟨x.cools.calm y, fun off on r => y.untripped (x.safe off on r)⟩

/-- After a change that neither enters nor leaves thermal shutdown. -/
theorem after {d t u : Device} {h k : Heat} (x : Cools d t k) (same : k.tsd = d.hkt.tsd) (y : Shuts t u h) : Shuts d u h :=
  ⟨x.trans y.cools, fun off on =>
    y.safe ((congrArg Heat.tsd x.heat).trans (same.trans off)) on⟩

end Shuts

theorem foldl_actOnRail_untripped (tm : TimeBase) {a : Nat} (safe : 3 ≤ a) (l : List (Fin 64)) (d : Device) :
    ∀ r ∈ l, ((l.foldl (fun d r => actOnRail tm r a d) d).rail r).state.tripped = false := by
  induction l generalizing d with
  | nil => simp
  | cons k l ih =>
    intro r hr
    rcases List.mem_cons.mp hr with rfl | hr
    · exact (Calm.foldl (fun d r => actOnRail_calm tm r a d) l _).untripped (actOnRail_untripped tm r safe d)
    · exact ih _ r hr

/-- Thermal shutdown as it is entered, before its rails are acted on. -/
def shutdownNoted (tm : TimeBase) (cause index : Nat) (temp : BitVec 16) (d : Device) : Device := { d with
  pm := { d.pm with intStatus := setBit d.pm.intStatus 2 }
  hkt := { d.hkt with
    tsd := true, tsdCount := satInc d.hkt.tsdCount, tsdCause := BitVec.ofNat 2 cause
    tsdTime := word tm.us.toNat, shutdown := some (shutdownPayload cause index temp d) } }

theorem enterShutdown_shuts (tm : TimeBase) (cause index : Nat) (temp : BitVec 16) (nv : NonVol) (d : Device) :
    Shuts d (enterShutdown tm cause index temp nv d).2 { d.hkt.heat with tsd := true } := by
  have noted : Cools d (shutdownNoted tm cause index temp d) { d.hkt.heat with tsd := true } := ⟨id, rfl, fun _ => id⟩
  have acts := Calm.foldl (fun d r => actOnRail_calm tm r 4 d) (List.finRange 64)
    (captureTrigger tm .shutdown 0 (shutdownNoted tm cause index temp d))
  have off := foldl_actOnRail_untripped tm (a := 4) (by decide) (List.finRange 64)
    (captureTrigger tm .shutdown 0 (shutdownNoted tm cause index temp d))
  have stops := stopErase_calm nv ((List.finRange 64).foldl (fun d r => actOnRail tm r 4 d)
    (captureTrigger tm .shutdown 0 (shutdownNoted tm cause index temp d)))
  exact ⟨((noted.calm (captureTrigger_calm ..)).calm acts).calm stops, fun _ _ r => stops.untripped (off r (List.mem_finRange r))⟩

theorem closeWindow_cools (tm : TimeBase) (nv : NonVol) (d : Device) :
    Cools d (closeWindow tm nv d).2 { d.hkt.heat with storeWin := false } := by
  unfold closeWindow
  split
  next h =>
    refine ⟨id, ?_, fun _ => id⟩
    unfold Housekeeping.heat
    rw [(Bool.not_eq_true' _).mp h]
  · have closed (v : Byte) : Cools d { d with hkt := { d.hkt with storeWin := false, intStatus := v } }
        { d.hkt.heat with storeWin := false } := ⟨id, rfl, fun _ => id⟩
    exact ((closed _).calm (raise_calm ..)).calm (stopErase_calm ..)

theorem openWindow_cools (tm : TimeBase) (nv : NonVol) (d : Device) :
    Cools d (openWindow tm nv d) { d.hkt.heat with storeWin := true } := by
  unfold openWindow
  split
  next h =>
    refine ⟨id, ?_, fun _ => id⟩
    unfold Housekeeping.heat
    rw [h]
  · have opened : Cools d { d with hkt := { d.hkt with storeWin := true } } { d.hkt.heat with storeWin := true } :=
      ⟨id, rfl, fun _ => id⟩
    exact (opened.calm (raise_calm ..)).calm (storePump_calm ..)

/-! ### The end of a round (R292) -/

/-- The device with the channels of the round stepped. -/
def roundStepped (d : Device) : Device := { d with hkt := { d.hkt with
  inRound := false
  rounds := d.hkt.rounds + 1
  chans := bankMap d.hkt.chans fun c x => countLevel x (stepChannel d c x) } }

/-- Thermal shutdown at the end of a round. -/
def roundShuts (tm : TimeBase) (nv : NonVol) (d : Device) : NonVol × Device :=
  match (List.finRange 96).find? fun c => isDieChannel d c && decide ((bankGet d.hkt.chans c).level = 3) with
  | some c => if d.hkt.tsd then (nv, d) else enterShutdown tm 1 c.val (BitVec.ofInt 16 (bankGet d.hkt.chans c).value) nv d
  | none => (nv, d)

/-- Throttling, events and interrupts at the end of a round; `was` is the device before it. -/
def roundReported (tm : TimeBase) (was : Device) (leaving : Bool) (d : Device) : Device :=
  let d := throttleRails tm d
  let d := (List.finRange 96).foldl (fun d c => channelEvents tm c (bankGet was.hkt.chans c) (bankGet d.hkt.chans c) d) d
  let d := exhaustedEvents tm was.hkt.rails d
  if leaving then raise tm 0x83 (leBytes 2 d.hkt.jmax.toNat ++ leBytes 4 ((word tm.us.toNat - d.hkt.tsdTime).toNat / 1000)) d else d

/-- Thermal shutdown ends. -/
def roundCools (leaving : Bool) (d : Device) : Device := if leaving then { d with hkt := { d.hkt with tsd := false } } else d

theorem roundEnd_eq {d : Device} (h : d.hkt.inRound = true) (tm : TimeBase) (nv : NonVol) :
    (roundEnd tm nv d).2 = storePump (roundShuts tm nv (channelSources tm (roundStepped d))).1
      (roundReported tm d ((channelSources tm (roundStepped d)).hkt.tsd && shutdownOver (channelSources tm (roundStepped d)))
        (roundCools ((channelSources tm (roundStepped d)).hkt.tsd && shutdownOver (channelSources tm (roundStepped d)))
          (roundShuts tm nv (channelSources tm (roundStepped d))).2)) := by
  unfold roundEnd
  rw [if_neg (by simp [h])]
  rfl

theorem roundShuts_shuts (tm : TimeBase) (nv : NonVol) (d : Device) :
    ∃ b, Shuts d (roundShuts tm nv d).2 { d.hkt.heat with tsd := b } ∧ (d.hkt.tsd = true → b = true) := by
  have stays : Shuts d d { d.hkt.heat with tsd := d.hkt.tsd } := (Calm.refl d).shuts
  unfold roundShuts
  split
  · split
    · exact ⟨_, stays, id⟩
    · exact ⟨true, enterShutdown_shuts .., fun _ => rfl⟩
  · exact ⟨_, stays, id⟩

theorem roundReported_calm (tm : TimeBase) (was : Device) (leaving : Bool) (d : Device) : Calm d (roundReported tm was leaving d) := by
  have events (t : Device) := Calm.foldl (fun d c => channelEvents_calm tm c (bankGet was.hkt.chans c) (bankGet d.hkt.chans c) d)
    (List.finRange 96) t
  have reported := ((throttleRails_calm tm d).trans (events _)).trans (exhaustedEvents_calm tm was.hkt.rails _)
  exact .ite (reported.trans (raise_calm ..)) reported

/-- Leaving thermal shutdown, which a device that was not in it does not. -/
theorem roundCools_shuts {d t : Device} {leaving b : Bool} (only : leaving = true → d.hkt.tsd = true)
    (x : Shuts d t { d.hkt.heat with tsd := b }) : ∃ b, Shuts d (roundCools leaving t) { d.hkt.heat with tsd := b } := by
  cases leaving with
  | false => exact ⟨b, x⟩
  | true =>
    have cooled : Cools t { t with hkt := { t.hkt with tsd := false } } { t.hkt.heat with tsd := false } := ⟨id, rfl, fun _ => id⟩
    have heat : ({ t.hkt.heat with tsd := false } : Heat) = { d.hkt.heat with tsd := false } :=
      congrArg (fun h : Heat => { h with tsd := false }) x.cools.heat
    exact ⟨false, heat ▸ x.cools.trans cooled, nofun⟩

theorem roundEnd_shuts {d : Device} (h : d.hkt.inRound = true) (tm : TimeBase) (nv : NonVol) :
    ∃ b, Shuts d (roundEnd tm nv d).2 { (roundStepped d).hkt.heat with tsd := b } := by
  have stepped : Cools d (roundStepped d) (roundStepped d).hkt.heat := ⟨id, rfl, fun _ => id⟩
  have sources := stepped.calm (channelSources_calm tm (roundStepped d))
  rw [roundEnd_eq h]
  generalize channelSources tm (roundStepped d) = e at sources ⊢
  obtain ⟨b, shuts, -⟩ := roundShuts_shuts tm nv e
  obtain ⟨b, cools⟩ := roundCools_shuts (leaving := e.hkt.tsd && shutdownOver e) (fun on => (Bool.and_eq_true_iff.mp on).1) shuts
  have ends := (cools.calm (roundReported_calm tm d (e.hkt.tsd && shutdownOver e) _)).calm (storePump_calm (roundShuts tm nv e).1 _)
  refine ⟨b, ?_⟩
  rw [← sources.heat]
  exact ends.after sources rfl

/-! ### An on-die sample (R303, R307) -/

/-- Is JMAX in the range that opens the window? -/
def dieWithin (dies : Bank 8 Die) : Bool :=
  dies.toList.any (·.valid) && decide (-432 ≤ (junctionMax dies).toInt ∧ (junctionMax dies).toInt ≤ 1712)

/-- Is JMAX outside the range in which the window stays open? -/
def dieOut (dies : Bank 8 Die) : Bool :=
  !dies.toList.any (·.valid) || decide ((junctionMax dies).toInt > 1760) || decide ((junctionMax dies).toInt < -480)

/-- The device with a sample's readings. -/
def dieTaken (tm : TimeBase) (dies : Bank 8 Die) (d : Device) : Device := { d with hkt := { d.hkt with
  dies := dies
  jmax := junctionMax dies
  firstSample := false
  inRange := if dieWithin dies then some (d.hkt.inRange.getD (ticksNow tm)) else none } }

/-- What a sample does to the store's window. -/
def dieWindow (tm : TimeBase) (out opens : Bool) (nv : NonVol) (d : Device) : NonVol × Device :=
  if out then closeWindow tm nv d else if opens then (nv, openWindow tm nv d) else (nv, d)

/-- Thermal shutdown at a sample. -/
def dieShuts (tm : TimeBase) (dies : Bank 8 Die) (x : NonVol × Device) : NonVol × Device :=
  match (List.finRange 8).find? fun k => decide ((bankGet dies k).hotRun ≥ 3) with
  | some k => if x.2.hkt.tsd then x else enterShutdown tm 2 k.val (bankGet dies k).temp x.1 x.2
  | none => x

theorem dieSample_eq (tm : TimeBase) (temps : Vector (Option (BitVec 16)) 8) (nv : NonVol) (d : Device) {dies : Bank 8 Die}
    (read : bankMap d.hkt.dies (fun k x => readDie temps[k.val] x) = dies) :
    dieSample tm temps nv d = dieShuts tm dies
      (dieWindow tm (dieOut dies) (d.hkt.firstSample && dieWithin dies) nv (dieTaken tm dies d)) := by
  subst read
  rfl

theorem dieWindow_cools (tm : TimeBase) (out opens : Bool) (nv : NonVol) (d : Device) :
    ∃ w, Cools d (dieWindow tm out opens nv d).2 { d.hkt.heat with storeWin := w } ∧ (out = true → w = false) := by
  unfold dieWindow
  cases out with
  | true => exact ⟨false, closeWindow_cools tm nv d, fun _ => rfl⟩
  | false =>
    cases opens with
    | true => exact ⟨true, openWindow_cools tm nv d, nofun⟩
    | false => exact ⟨d.hkt.storeWin, Calm.refl d, nofun⟩

theorem dieShuts_shuts (tm : TimeBase) (dies : Bank 8 Die) (x : NonVol × Device) :
    ∃ b, Shuts x.2 (dieShuts tm dies x).2 { x.2.hkt.heat with tsd := b } ∧ ∀ k, 3 ≤ (bankGet dies k).hotRun → b = true := by
  have stays : Shuts x.2 x.2 { x.2.hkt.heat with tsd := x.2.hkt.tsd } := (Calm.refl x.2).shuts
  unfold dieShuts
  split
  · split
    next on => exact ⟨_, stays, fun _ _ => on⟩
    · exact ⟨true, enterShutdown_shuts .., fun _ _ => rfl⟩
  next cool =>
    exact ⟨_, stays, fun k hot => absurd (decide_eq_true hot) (List.find?_eq_none.mp cool k (List.mem_finRange k))⟩

theorem dieSample_shuts (tm : TimeBase) (temps : Vector (Option (BitVec 16)) 8) (nv : NonVol) (d : Device) {dies : Bank 8 Die}
    (read : bankMap d.hkt.dies (fun k x => readDie temps[k.val] x) = dies) :
    ∃ w b, Shuts d (dieSample tm temps nv d).2 { (dieTaken tm dies d).hkt.heat with storeWin := w, tsd := b } ∧
      (1760 < (junctionMax dies).toInt → w = false) ∧ ∀ k, 3 ≤ (bankGet dies k).hotRun → b = true := by
  have taken : Cools d (dieTaken tm dies d) (dieTaken tm dies d).hkt.heat := ⟨id, rfl, fun _ => id⟩
  obtain ⟨w, window, closed⟩ := dieWindow_cools tm (dieOut dies) (d.hkt.firstSample && dieWithin dies) nv (dieTaken tm dies d)
  obtain ⟨b, shuts, hot⟩ := dieShuts_shuts tm dies
    (dieWindow tm (dieOut dies) (d.hkt.firstSample && dieWithin dies) nv (dieTaken tm dies d))
  rw [window.heat] at shuts
  rw [dieSample_eq tm temps nv d read]
  refine ⟨w, b, shuts.after (taken.trans window) rfl, fun above => closed ?_, hot⟩
  simp [dieOut, above]

/-! ### The wake that follows (R364) -/

theorem resumeDevice_calm (tm : TimeBase) (gap cause : Nat) (nv : NonVol) (d : Device) : Calm d (resumeDevice tm gap cause nv d) := by
  unfold resumeDevice
  dsimp only
  refine Calm.trans ?_ (storePump_calm ..)
  refine Calm.trans ?_ (copyShutdowns_calm ..)
  refine Calm.trans ?_ (raise_calm ..)
  refine Calm.foldlFrom (fun d n => startRetrain_calm tm n d) ?_
  refine Calm.trans ?_ (settleBus_calm ..)
  refine Calm.trans ?_ (settleBus_calm ..)
  exact Cools.mk (fun _ => nofun) rfl fun _ => id

theorem wakeDevice_calm (cause : Nat) (s : State) : Calm s.dev (wakeDevice cause s).dev := by
  unfold wakeDevice
  split_ifs with awake
  · exact .refl s.dev
  · unfold resumeNow
    dsimp only
    exact resumeDevice_calm ..
  · have noted (d : Device) : Calm d { d with pwr := { d.pwr with waking := some cause } } := ⟨id, rfl, fun _ => id⟩
    exact noted s.dev

theorem wakeHot_calm (was : Device) (s : State) : Calm s.dev (wakeHot was s).dev := by
  unfold wakeHot
  split_ifs
  · exact wakeDevice_calm 5 s
  · exact wakeDevice_calm 4 s
  · exact .refl s.dev

/-- A device that is awake has no TIME to reload. -/
theorem wakeHot_tm (was : Device) {s : State} (awake : s.dev.pwr.mode ≠ .standby) : (wakeHot was s).tm = s.tm := by
  unfold wakeHot
  rw [wakeDevice_of_other (.inl awake), wakeDevice_of_other (.inl awake), ite_self, ite_self]

end Sys2Proof.Machine
end

section
/-! SUPPORT. O36: the statement. -/

namespace Sys2Proof.Machine

/-! ### A round captures one value a channel (R292, Table 11-4) -/

/-- The device with the supplies and thermistors of a round read. -/
def roundRead (thm : Vector (BitVec 12) 4) (uv : Vector (BitVec 24) 4) (d : Device) : Device := { d with hkt := { d.hkt with
  inRound := true
  thms := bankMap d.hkt.thms fun i t => { t with code := thm[i.val] }
  supUv := uv
  supMv := bankMap uv fun _ v => BitVec.ofInt 16 (roundUp v.toNat 1000) } }

/-- What a round captures of a channel. -/
def captureChannel (tm : TimeBase) (d : Device) (c : Fin 96) (x : Channel) : Channel :=
  match channelEntry d c with
  | some e => { x with captured := channelValue tm d e, capIdle := channelIdle d e }
  | none => { x with captured := none, capIdle := true }

theorem roundStart_eq (tm : TimeBase) (thm : Vector (BitVec 12) 4) (uv : Vector (BitVec 24) 4) (d : Device) :
    roundStart tm thm uv d = { d with hkt := { d.hkt with
      inRound := true
      chans := bankMap d.hkt.chans (captureChannel tm (roundRead thm uv d))
      thms := bankMap d.hkt.thms fun i t => { t with code := thm[i.val] }
      supUv := uv
      supMv := bankMap uv fun _ v => BitVec.ofInt 16 (roundUp v.toNat 1000) } } := rfl

theorem captureChannel_of_entry {tm : TimeBase} {d : Device} {c : Fin 96} {e : HkEntry} (h : channelEntry d c = some e) (x : Channel) :
    (captureChannel tm d c x).captured = channelValue tm d e := by
  unfold captureChannel
  rw [h]

theorem captureChannel_of_unused {tm : TimeBase} {d : Device} {c : Fin 96} (h : channelEntry d c = none) (x : Channel) :
    (captureChannel tm d c x).capIdle = true := by
  unfold captureChannel
  rw [h]

/-- The value of an on-die channel is its sensor's reading. -/
theorem channelValue_die {e : HkEntry} {k : Fin 8} (source : e.source = 2) (index : e.srcIndex = k.val) (tm : TimeBase) (d : Device) :
    channelValue tm d e = if (bankGet d.hkt.dies k).valid then some (bankGet d.hkt.dies k).temp.toInt else none := by
  have within_ : indexBeyond e = false := by
    unfold indexBeyond
    rw [source, index]
    exact decide_eq_false (not_le.mpr k.isLt)
  have named : fin? 8 e.srcIndex = some k := by
    rw [index]
    exact dif_pos k.isLt
  unfold channelValue
  rw [within_, source]
  exact congrArg (fun o : Option (Fin 8) => o.bind fun k =>
    if (bankGet d.hkt.dies k).valid then some (bankGet d.hkt.dies k).temp.toInt else none) named

/-! ### A channel's step at the end of a round (R295, R296) -/

theorem countLevel_eq (old new : Channel) :
    ∃ w t s, countLevel old new = { new with warns := w, throttles := t, shutdowns := s } := by
  unfold countLevel
  split
  · exact ⟨_, _, _, rfl⟩
  · split <;> exact ⟨_, _, _, rfl⟩

theorem stepRate_eq (e : HkEntry) (v : Int) (ch : Channel) :
    ∃ rate up dn hist, stepRate e v ch = { ch with rate := rate, rateUp := up, rateDn := dn, hist := hist } := by
  unfold stepRate
  dsimp only
  split
  · exact ⟨_, _, _, _, rfl⟩
  · split <;> exact ⟨_, _, _, _, rfl⟩

theorem stepChannel_of_idle {d : Device} {c : Fin 96} {x : Channel} (idle : x.capIdle = true) : stepChannel d c x = idleChannel x := by
  unfold stepChannel
  split
  · rfl
  · exact if_pos idle

/-- A channel with a valid reading and without a cross-check. -/
theorem stepChannel_of_valid {d : Device} {c : Fin 96} {x : Channel} {e : HkEntry} {v : Int} (entry : channelEntry d c = some e)
    (awake : x.capIdle = false) (valid : x.captured = some v) (alone : e.xcheck = false) :
    stepChannel d c x = stepLevels e v { x with idle := false, subst := false } := by
  have unchecked : neighbourMedian d c e = none := if_pos (by simp [alone])
  unfold stepChannel
  rw [entry]
  dsimp only
  rw [if_neg (by simp [awake]), valid, unchecked]

theorem stepLevels_fields (e : HkEntry) (v : Int) (x : Channel) :
    (stepLevels e v x).value = v ∧ (stepLevels e v x).bad = 0 ∧ (stepLevels e v x).failed = false ∧
      (stepLevels e v x).t3 = stepThreshold v e.shutdown e.hyst e.persist x.t3 := by
  obtain ⟨_, _, _, _, h⟩ := stepRate_eq e v (stepLevel e v x)
  rw [stepLevels, h]
  exact ⟨rfl, rfl, rfl, rfl⟩

theorem roundStepped_chan (d : Device) (c : Fin 96) : bankGet (roundStepped d).hkt.heat.chans c =
    countLevel (bankGet d.hkt.chans c) (stepChannel d c (bankGet d.hkt.chans c)) :=
  bankGet_bankMap d.hkt.chans (fun c x => countLevel x (stepChannel d c x)) c

/-! ### The rows that may wake the device -/

/-- A row of the housekeeping: what its meaning shuts, and TIME where the device is awake. -/
theorem onHousekeeping_shuts {f : TimeBase → NonVol → Device → NonVol × Device} {s : State} {h : Heat}
    (x : Shuts s.dev (f s.tm s.nv s.dev).2 h) :
    ∃ nv d tm, onHousekeeping f s = .next { s with tm := tm, nv := nv, dev := d } ∧ (s.dev.pwr.mode ≠ .standby → tm = s.tm) ∧
      Shuts s.dev d h := by
  have pending := wakeHot_pending s.dev { s with nv := (f s.tm s.nv s.dev).1, dev := (f s.tm s.nv s.dev).2 }
  have tm (awake : s.dev.pwr.mode ≠ .standby) := wakeHot_tm s.dev
    (s := { s with nv := (f s.tm s.nv s.dev).1, dev := (f s.tm s.nv s.dev).2 }) (x.cools.awake awake)
  have shuts := x.calm (wakeHot_calm s.dev { s with nv := (f s.tm s.nv s.dev).1, dev := (f s.tm s.nv s.dev).2 })
  have row : onHousekeeping f s = .next (wakeHot s.dev { s with nv := (f s.tm s.nv s.dev).1, dev := (f s.tm s.nv s.dev).2 }) := rfl
  rw [row]
  generalize wakeHot s.dev { s with nv := (f s.tm s.nv s.dev).1, dev := (f s.tm s.nv s.dev).2 } = t at pending tm shuts
  obtain ⟨tm', nv', dev', pending'⟩ := t
  obtain rfl : pending' = s.pending := pending
  exact ⟨nv', dev', tm', rfl, tm, shuts⟩

/-! ### The store's window opens, and the shutdown record (R305, R307) -/

theorem openWindow_eq (tm : TimeBase) (nv : NonVol) (d : Device) :
    ∃ hkt er ocs, openWindow tm nv d = { d with hkt := hkt, er := er, ocs := ocs } := by
  unfold openWindow
  split
  · exact ⟨_, _, _, rfl⟩
  · obtain ⟨ocs, h, -⟩ := storePump_eq nv (raiseWindow tm true { d with hkt := { d.hkt with storeWin := true } })
    exact ⟨_, _, ocs, h⟩

theorem windowOpens_of_due {d : Device} {t : Nat} {tm : TimeBase} (range : d.hkt.inRange = some t) (due : t + 8000000 ≤ ticksNow tm)
    (nv : NonVol) : windowOpens tm nv d = openWindow tm nv d := by
  unfold windowOpens
  rw [range]
  exact if_pos (show ticksNow tm - t ≥ 8000000 by omega)

theorem storeWindowOpen_opens {s : State} {t : Nat} (range : s.dev.hkt.inRange = some t) (due : t + 8000000 ≤ ticksNow s.tm) :
    ∃ d, exec .storeWindowOpen s = .next { s with dev := d } ∧ d.hkt.storeWin = true ∧ d.rails = s.dev.rails ∧
      d.lanes = s.dev.lanes ∧ d.phases = s.dev.phases := by
  have opened := (openWindow_cools s.tm s.nv s.dev).calm (copyShutdowns_calm s.nv (openWindow s.tm s.nv s.dev))
  have kept := aside_copyShutdowns s.nv (openWindow s.tm s.nv s.dev)
  obtain ⟨_, _, _, h⟩ := openWindow_eq s.tm s.nv s.dev
  have rails : (openWindow s.tm s.nv s.dev).rails = s.dev.rails := (congrArg Device.rails h :)
  have lanes : (openWindow s.tm s.nv s.dev).lanes = s.dev.lanes := (congrArg Device.lanes h :)
  have phases : (openWindow s.tm s.nv s.dev).phases = s.dev.phases := (congrArg Device.phases h :)
  exact ⟨copyShutdowns s.nv (openWindow s.tm s.nv s.dev),
    next_of_dev (congrArg (copyShutdowns s.nv) (windowOpens_of_due range due s.nv)), congrArg Heat.storeWin opened.heat,
    (congrArg Device.rails kept :).trans rails, (congrArg Device.lanes kept :).trans lanes,
    (congrArg Device.phases kept :).trans phases⟩

/-- A job that programs bytes joins the store's jobs, and waits or is started. -/
theorem storePump_joins {nv : NonVol} {j : Job} (places : j.steps.any JobStep.places = true) (d : Device) :
    ∃ ocs, storePump nv (addJob j d) = { d with ocs := ocs } ∧ ∃ k ∈ ocs.current.toList ++ ocs.jobs, k.tag = j.tag := by
  obtain ⟨ocs, pumped, -, owed⟩ := storePump_owes (nv := nv) (owes_addJob (d := d) places)
  exact ⟨ocs, pumped, owed⟩

/-- The shutdown record's write joins the store's jobs under the next SEQ. -/
theorem writeShutdown_starts {tm : TimeBase} {nv : NonVol} {d : Device} {payload : List Byte} {addr : Nat}
    (due : d.hkt.shutdown = some payload) (unwritten : ∀ j ∈ d.ocs.current.toList ++ d.ocs.jobs, j.tag ≠ .shutdown)
    (cool : d.hkt.jmax.toInt ≤ 2160) (writable : regionWritable d.ocs 6 = true) (numbers : d.er.seqNext ≠ d.er.seqLimit)
    (more : d.er.seqEnd = false) (place : shutdownPlace nv d.ocs = some addr) :
    ∃ ocs bs, writeShutdown tm nv d = { d with ocs := ocs, er := { d.er with
        seqNext := d.er.seqNext + 1, toCopy := d.er.toCopy ++ [(addr, bs)] } } ∧
      (∃ j ∈ ocs.current.toList ++ ocs.jobs, j.tag = .shutdown) ∧ bs.take 4 = leBytes 4 d.er.seqNext.toNat := by
  have free : ¬ ((d.ocs.current.toList ++ d.ocs.jobs).any fun j => decide (j.tag = .shutdown)) = true := by
    rw [List.any_eq_true]
    rintro ⟨j, mem, tagged⟩
    exact unwritten j mem (of_decide_eq_true tagged)
  have allowed : ¬ (decide (d.hkt.jmax.toInt > 2160) || !regionWritable d.ocs 6 || decide (d.er.seqNext = d.er.seqLimit) ||
      d.er.seqEnd) = true := by
    simp [writable, numbers, more, cool]
  unfold writeShutdown
  rw [due]
  dsimp only
  rw [if_neg free, if_neg allowed, place]
  dsimp only
  generalize hbs : encodeEvent d.er.seqNext tm.cal d.er.tgen d.er.unset 0x82 payload = bs
  obtain ⟨ocs, pumped, owed⟩ := storePump_joins (nv := nv) (j := ⟨eventSteps addr bs, .shutdown, .shutdown, false⟩) rfl { d with
    er := { d.er with seqNext := d.er.seqNext + 1, toCopy := d.er.toCopy ++ [(addr, bs.take 30 ++ [0, 0xFF])] } }
  exact ⟨ocs, bs.take 30 ++ [0, 0xFF], pumped, owed, hbs ▸ rfl⟩

/-- Settles O36: the end of a round and a sample settle the housekeeping, and beyond that nothing brings a rail back into a state that
protection can end. -/
theorem housekeepingRuns : Obligations.HousekeepingRuns := by
  unfold Obligations.HousekeepingRuns
  refine ⟨fun thm uv s => ?_, fun s inRound => ?_, fun temps s => ?_,
    fun payload addr s due unwritten cool writable numbers more place => ?_, fun t s range due => storeWindowOpen_opens range due⟩
  · refine ⟨bankMap s.dev.hkt.chans (captureChannel s.tm (roundRead thm uv s.dev)),
      bankMap s.dev.hkt.thms fun i t => { t with code := thm[i.val] }, bankMap uv fun _ v => BitVec.ofInt 16 (roundUp v.toNat 1000),
      next_of_dev (roundStart_eq s.tm thm uv s.dev), fun i => bankGet_bankMap _ _ i, fun c e k entry source index => ?_,
      fun c unused => ?_⟩
    · rw [bankGet_bankMap, captureChannel_of_entry (d := roundRead thm uv s.dev) entry]
      exact channelValue_die source index s.tm (roundRead thm uv s.dev)
    · rw [bankGet_bankMap]
      exact captureChannel_of_unused (d := roundRead thm uv s.dev) unused _
  · obtain ⟨b, ends⟩ := roundEnd_shuts inRound s.tm s.nv
    obtain ⟨nv, d, tm, row, time, shuts⟩ := onHousekeeping_shuts (f := fun tm nv d =>
      ((roundEnd tm nv d).1, copyShutdowns (roundEnd tm nv d).1 (roundEnd tm nv d).2)) (ends.calm (copyShutdowns_calm ..))
    have chans (c : Fin 96) : bankGet d.hkt.chans c =
        countLevel (bankGet s.dev.hkt.chans c) (stepChannel s.dev c (bankGet s.dev.hkt.chans c)) :=
      (congrArg (fun h : Heat => bankGet h.chans c) shuts.cools.heat).trans (roundStepped_chan s.dev c)
    have closed : d.hkt.inRound = false := congrArg Heat.inRound shuts.cools.heat
    have counted : d.hkt.rounds = s.dev.hkt.rounds + 1 := congrArg Heat.rounds shuts.cools.heat
    refine ⟨nv, d, tm, row, time, closed, counted,
      fun c idle => ?_, fun c e v entry awake valid alone => ?_, fun off on => shuts.safe off ?_⟩
    · obtain ⟨_, _, _, h⟩ := countLevel_eq (bankGet s.dev.hkt.chans c) (stepChannel s.dev c (bankGet s.dev.hkt.chans c))
      rw [chans, h, stepChannel_of_idle idle]
      exact ⟨rfl, rfl, rfl⟩
    · obtain ⟨_, _, _, h⟩ := countLevel_eq (bankGet s.dev.hkt.chans c) (stepChannel s.dev c (bankGet s.dev.hkt.chans c))
      rw [chans, h, stepChannel_of_valid entry awake valid alone]
      exact stepLevels_fields e v _
    · exact (congrArg Heat.tsd shuts.cools.heat).symm.trans on
  · obtain ⟨w, b, ends, closed, hot⟩ := dieSample_shuts s.tm temps s.nv s.dev rfl
    obtain ⟨nv, d, tm, row, time, shuts⟩ := onHousekeeping_shuts (f := fun tm => dieSample tm temps) ends
    have dies : d.hkt.dies = _ := congrArg Heat.dies shuts.cools.heat
    have jmax : d.hkt.jmax = _ := congrArg Heat.jmax shuts.cools.heat
    have win : d.hkt.storeWin = w := congrArg Heat.storeWin shuts.cools.heat
    have tsd : d.hkt.tsd = b := congrArg Heat.tsd shuts.cools.heat
    refine ⟨nv, d, tm, row, time, dies, ?_, fun above => win.trans (closed ?_), fun k run => tsd.trans (hot k ?_),
      fun off on => shuts.safe off (tsd.symm.trans on)⟩
    · rw [jmax, dies]
      rfl
    · rwa [jmax] at above
    · rwa [dies] at run
  · obtain ⟨ocs, bs, write, owed, seq⟩ := writeShutdown_starts (tm := s.tm) due unwritten cool writable numbers more place
    exact ⟨ocs, bs, next_of_dev write, owed, seq⟩

end Sys2Proof.Machine
end
